-- ==== Sys2Proof/Word.lean ====
section
/-! DEFINITION. The byte and the byte string: the plainest words of the model. Values that software adds, masks or
compares as numbers are natural numbers bounded by their field's width; a string of bytes on a wire, in DRAM or in NOR
is a list of bytes, lowest address first. -/

namespace Sys2Proof

/-- One byte. -/
abbrev Byte := BitVec 8

/-- A string of bytes, lowest offset first. -/
abbrev Bytes := List Byte

end Sys2Proof
end

