-- ==== Sys2Proof/Types.lean ====
section
/-! DEFINITION. The small types that commands and state share: register fields and register tables (R9), requester IDs
(R39), power domains (Table 01-4), power and device states (Tables 18-1 and 18-4). -/

namespace Sys2Proof

/-- Register field types, Table 00-5. -/
inductive FType where
  | rw | ro | rc | w1c | w1s | wo | rwl
  deriving DecidableEq, Repr

/-- One field of a register table: lowest bit, width, type, reset value, and whether writing it is a row of its own of
the table of operations. -/
structure FDef where
  lo : Nat
  width : Nat
  ty : FType
  reset : Nat
  row : Bool
  deriving DecidableEq, Repr

/-- One register of a register table, or a family of equal registers at regular strides: base address, the
(count, stride) of each index from the outermost, whether it is 64 bits wide, and its fields. -/
structure RegFam where
  base : Nat
  dims : List (Nat × Nat)
  wide : Bool
  fields : List FDef
  deriving DecidableEq, Repr

/-- One register field at its place: the register's address, the field's lowest bit, its width and its reset value. -/
structure Fld where
  addr : Nat
  lo : Nat
  width : Nat
  reset : Nat
  deriving DecidableEq, Repr

/-- The power domains of Table 01-4. -/
inductive Domain where
  | aon | svc | cox | core | crew2 | dram | flash | lane0 | lanes
  deriving DecidableEq, Repr

/-- The power states of Table 18-1. -/
inductive PState where
  | deepDock | dock | paddle | race
  deriving DecidableEq, Repr

end Sys2Proof
end

