-- ==== Sys2Proof/Syntax.lean ====
section
/-! DEFINITION. The commands: one constructor for each row of spec/opcode_table.json, with the operands the model gives
it (log entry 5). A command is an access of crew firmware, Cox or a debugger to a block, a message or frame that arrives, an
event on a pin, the end of something the device does, or the expiry of a time it keeps. -/

namespace Sys2Proof

/-- The commands of the ZLK-7160 model, in the order of spec/opcode_table.json. -/
inductive Instr where
  /-- FENCE (R17): A crew core executes FENCE, ordering its accesses to DRAM, SRAM windows and register windows. -/
  | fence (core : Nat)
  /-- FENCE_I (R32): A crew core executes FENCE.I so that its instruction cache sees code written earlier. -/
  | fenceI (core : Nat)
  /-- WFI (R17): A crew core executes WFI and waits for an interrupt, which PWR_CORES reports. -/
  | wfi (core : Nat)
  /-- REGISTER_WRITE (R9): A write to a register field that has no row of its own takes effect according to its field type. -/
  | registerWrite (rid core addr width value : Nat)
  /-- RC_COUNTER_READ (R9): A read of an RC counter returns the count and clears it; an event in the same cycle is counted after the clear. -/
  | rcCounterRead (rid core addr width : Nat)
  /-- FAB_ERR_CLEAR (R45): Writing 1 to FAB_ERR_STATUS.VALID frees the latch; a failure in the same cycle is latched as a new record. -/
  | fabErrClear (core : Nat)
  /-- IRQ_CLAIM (R41): A read of IRQ_CLAIM returns the highest-priority pending source routed to the core, puts it in service and clears an edge latch. -/
  | irqClaim (core : Nat)
  /-- IRQ_COMPLETE (R41): Writing a source ID to IRQ_COMPLETE ends its service; a source still high becomes pending again. -/
  | irqComplete (core id : Nat)
  /-- MACHINE_TIMER_EXPIRY (R17): IRQ_MTIME reaches a core's IRQ_MTIMECMP and the core's machine timer interrupt becomes pending. -/
  | machineTimerExpiry (core : Nat)
  /-- ROCE_PACKET_RECEIVED (R48): A RoCEv2 packet arrives: bad ICRC or rejected headers are discarded, an unsupported opcode draws NAK Invalid Request and closes the session, and a CE mark draws a CNP. -/
  | rocePacketReceived (session icrc header opcode rnr ce : Nat)
  /-- CNP_RECEIVED (R78): A received CNP raises the session's RATE_STEP by 1 unless another CNP raised it within 50 microseconds. -/
  | cnpReceived (session : Nat)
  /-- RATE_RECOVERY_EXPIRY (R78): The recovery interval of the current rate step passes without a CNP and RATE_STEP falls by 1. -/
  | rateRecoveryExpiry (session : Nat)
  /-- CM_REQ (R49): A CM REQ is answered with REP and takes a FREE session context when the conditions hold, is re-answered if it is a duplicate, and is rejected otherwise. -/
  | cmReq (service comm mtu pkey timeout retry rnr : Nat)
  /-- CM_RTU (R51): An RTU arrives and the queue pair of the CONNECTED session becomes ready. -/
  | cmRtu (session : Nat)
  /-- CM_DREQ (R51): A DREQ moves the session to CLOSING and is answered with DREP. -/
  | cmDreq (session : Nat)
  /-- QP_RETRY_EXHAUSTED (R51): The retry count of a session is exhausted or its queue pair errs, and the session enters CLOSING. -/
  | qpRetryExhausted (session : Nat)
  /-- HANDSHAKE_TIMER_EXPIRY (R51): The 10 s handshake timer of a CONNECTED or OPENED session expires and the device sends DREQ and enters CLOSING. -/
  | handshakeTimerExpiry (session : Nat)
  /-- CAPSULE (R62): A SEND message on a host session is taken as a capsule and checked in the order of Table 02-6, then run on the fast path or handed on. -/
  | capsule (session : Nat) (message : Bytes)
  /-- OPEN (R56): OPEN exchanges nonces, grants MAX_OUT and moves a CONNECTED session to OPENED. -/
  | open (cmd : Nat)
  /-- AUTH (R57): AUTH checks the host proof, returns the device proof and authenticates the session, or counts a failure and closes after the third. -/
  | auth (cmd : Nat)
  /-- CLOSE (R51): CLOSE replies ST_OK, sends DREQ and moves the session to CLOSING. -/
  | close (cmd : Nat)
  /-- NOP (R61): NOP replies ST_OK with no result. -/
  | nop (cmd : Nat)
  /-- RESULT_FETCH (R80): RESULT_FETCH returns a detached result, ST_PENDING while the operation runs, or ST_NOT_FOUND for an invalid handle. -/
  | resultFetch (cmd : Nat)
  /-- RESULT_RELEASE (R82): RESULT_RELEASE invalidates a result handle without cancelling its operation. -/
  | resultRelease (cmd : Nat)
  /-- RDMA_READ_RESPONSE (R66): RDMA READ response data for a value arrives and is stored in value staging or the journal. -/
  | rdmaReadResponse (session : Nat) (data : Bytes)
  /-- RDMA_ERROR_NAK (R69): A remote access, remote operational or invalid request NAK on an RDMA operation puts the queue pair in error and closes the session. -/
  | rdmaErrorNak (session : Nat)
  /-- HTE_SESS_HOLD_WRITE (R84): A write to HTE_SESS_HOLD holds or releases one session; held sessions answer new SENDs with RNR NAK. -/
  | hteSessHoldWrite (core value : Nat)
  /-- EXC_QUEUE_ROOM (R85): Room appears in the full exception work queue and the engine posts the entries it held. -/
  | excQueueRoom
  /-- HTE_REPLY (R91): Crew firmware's HTE_REPLY sends a reply and ends the command, keeps it with KEEP, or ends it silently with SILENT. -/
  | hteReply (queue : Nat)
  /-- HTE_RDMA_READ (R91): Crew firmware's HTE_RDMA_READ reads bytes of a command's host buffer into device memory. -/
  | hteRdmaRead (queue : Nat)
  /-- HTE_RDMA_WRITE (R91): Crew firmware's HTE_RDMA_WRITE writes device memory into a command's host buffer. -/
  | hteRdmaWrite (queue : Nat)
  /-- HTE_SEND (R89): Crew firmware's HTE_SEND sends one peer message on a peer session. -/
  | hteSend (queue : Nat)
  /-- HTE_RX_POST (R91): Crew firmware's HTE_RX_POST posts a receive buffer for peer messages. -/
  | hteRxPost (queue : Nat)
  /-- HTE_CLOSE (R91): Crew firmware's HTE_CLOSE moves a session to CLOSING and sends DREQ. -/
  | hteClose (queue : Nat)
  /-- PEER_MESSAGE (R89): A SEND message on a peer session is consumed as a fast-path reply, or placed in a receive buffer and delivered, or answered RNR NAK without a buffer. -/
  | peerMessage (session : Nat) (message : Bytes)
  /-- PEER_REPLY_RECEIVED (R89): A reply to a fast-path peer request arrives and the engine consumes it, advancing the command it belongs to. -/
  | peerReplyReceived (session : Nat) (message : Bytes)
  /-- PUT (R111): PUT stores a value as a new version of a key through the commit protocol and replies once its durability condition holds. -/
  | put (cmd : Nat)
  /-- GET (R113): GET reads, decrypts and checks the chunks of a range and returns the bytes. -/
  | get (cmd : Nat)
  /-- DELETE (R115): DELETE removes the current version of a key and replies once its record is mirrored. -/
  | delete (cmd : Nat)
  /-- EXISTS (R115): EXISTS answers from the index alone with the version and length. -/
  | exists (cmd : Nat)
  /-- CAS (R112): CAS stores a value only if EXPECT_VERSION matches, deciding and replacing in one step. -/
  | cas (cmd : Nat)
  /-- LIST (R116): LIST walks the index of acting slices from a cursor and returns whole buckets of entries. -/
  | list (cmd : Nat)
  /-- DISCARD (R120): DISCARD removes the current version in the bucket cache and replies at once. -/
  | discard (cmd : Nat)
  /-- DISCARD_DURABLE (R120): Within 1,000 ms of a DISCARD reply the stroke makes the removal durable in its journal and the bow's mirror. -/
  | discardDurable
  /-- RETAIN (R123): RETAIN sets an indefinite hold or raises the dated expiry of a key or prefix. -/
  | retain (cmd : Nat)
  /-- RELEASE (R124): RELEASE removes the indefinite hold of a key or prefix. -/
  | release (cmd : Nat)
  /-- FIXITY (R129): FIXITY reads the whole object, returns its digest and, with PARITY, checks the parity units. -/
  | fixity (cmd : Nat)
  /-- STAT (R130): STAT returns the object, namespace or device body. -/
  | stat (cmd : Nat)
  /-- LIFE (R132): LIFE reports the life percentage and the value bytes still accepted. -/
  | life (cmd : Nat)
  /-- NS_CREATE (R134): NS_CREATE creates a namespace with a salt and a new data key distributed to every device. -/
  | nsCreate (cmd : Nat)
  /-- NS_SET (R134): NS_SET replaces the durability, seal interval and quota of a namespace. -/
  | nsSet (cmd : Nat)
  /-- NS_DELETE (R135): NS_DELETE checks every device, then removes the namespace, with PURGE destroying its key and objects. -/
  | nsDelete (cmd : Nat)
  /-- TENANT_SET (R136): TENANT_SET creates or replaces a tenant with its rights, grants and wrapped secret. -/
  | tenantSet (cmd : Nat)
  /-- TENANT_DELETE (R138): TENANT_DELETE removes a tenant and closes its sessions on every device. -/
  | tenantDelete (cmd : Nat)
  /-- TENANT_QUERY (R136): TENANT_QUERY returns a tenant body with its secret zeroed. -/
  | tenantQuery (cmd : Nat)
  /-- CLOCK_SET (R127): CLOCK_SET sets the calendar clock and advances the retention clock, limited without FORCE. -/
  | clockSet (cmd : Nat)
  /-- PTP_TIME_APPLY (R128): Crew firmware applies time derived from IEEE 1588 as a CLOCK_SET with FORCE 0. -/
  | ptpTimeApply (seconds nanos : Nat)
  /-- RETENTION_CLOCK_SAVE (R126): Every 60 s while known, and at each power-state change, the retention clock is saved with the operating seconds. -/
  | retentionClockSave
  /-- SEAL_TIMER_EXPIRY (R109): SEAL_US passes after the first packed value arrived and the stroke seals the open stripe. -/
  | sealTimerExpiry (group nsid : Nat)
  /-- BUCKET_LOAD (R150): Crew firmware loads a bucket from NAND into the bucket cache under BUSY. -/
  | bucketLoad (slice bucket : Nat)
  /-- BUCKET_WRITEBACK (R159): Crew firmware writes a DIRTY bucket, encrypted, to NAND and raises its WRITE_SEQ. -/
  | bucketWriteback (slice bucket : Nat)
  /-- BUCKET_EVICT (R150): Crew firmware evicts a resident bucket from the bucket cache. -/
  | bucketEvict (slice bucket : Nat)
  /-- INDEX_REBUILD_FROM_STRIPES (R174): A device rebuilds the index of a set of slices by reading and decoding every stripe of the group. -/
  | indexRebuildFromStripes (group : Nat) (slices : List Nat)
  /-- PEER_SESSION_OPEN (R198): The device with the lower hull number sends the CM REQ of a peer or fall-back session. -/
  | peerSessionOpen (hull kind : Nat)
  /-- HELLO (R200): A HELLO request or reply is verified against the rig's public key and derives the peer session key. -/
  | hello
  /-- FRAG_WRITE (R207): A seat checks a FRAG_WRITE in order and journals the fragment before replying ST_OK. -/
  | fragWrite
  /-- FRAG_READ (R205): A seat returns bytes of a fragment from journal or NAND, or serves a rig fetch from a container. -/
  | fragRead
  /-- FRAG_COMMIT (R234): A seat journals a commit FRAG_OUTCOME for a run of serials and replies ST_OK. -/
  | fragCommit
  /-- FRAG_ROLLBACK (R234): A seat journals a rollback for a run and frees the fragments. -/
  | fragRollback
  /-- FRAG_FREE (R205): A seat frees the fragments and markers of a run of stripes. -/
  | fragFree
  /-- FRAG_WRITE_RESEND (R208): A stroke refused with ST_BUSY or ST_STATE_CONFLICT resends the same FRAG_WRITE after the hint or 1 ms. -/
  | fragWriteResend (tag : Nat)
  /-- GROUP_STATUS (R209): A received GROUP_STATUS is adopted by G_SERIAL and its tie rules, and updates docking and purge bookkeeping. -/
  | groupStatus
  /-- GROUP_STATUS_TIMER (R206): Every 100 ms a device sends GROUP_STATUS for each group to each peer. -/
  | groupStatusTimer (group : Nat)
  /-- FORMING_TIMEOUT (R209): After 60 s in FORMING with a descriptor and majority contact, the failing seats are marked lost and the group goes DEGRADED. -/
  | formingTimeout (group : Nat)
  /-- JOIN (R211): A JOIN draws every namespace-0 record of which the receiver is acting stroke as ADMIN_RECORD, then ST_OK. -/
  | join
  /-- ADMIN_FORWARD (R212): The acting stroke runs a forwarded administrative change once, under the named tenant's rights. -/
  | adminForward
  /-- ADMIN_RECORD (R212): A device applies a namespace-0 record, unwrapping any XPORT_BLOB, or answers a CHECK for NS_DELETE. -/
  | adminRecord
  /-- ADMIN_RECORD_RESEND (R212): An unanswered ADMIN_RECORD is sent again every 1,000 ms and at each reopening of the session. -/
  | adminRecordResend (change hull : Nat)
  /-- SLICE_COPY (R214): A device applies index records copied for a slice and replies ST_OK. -/
  | sliceCopy
  /-- SLICE_DISOWN (R197): A keeper counts every record of the named slice in its stripes as dead. -/
  | sliceDisown
  /-- EPOCH_CHANGE_START (R214): The epoch leader records PREPARING and sends EPOCH_PREPARE to every named device. -/
  | epochChangeStart
  /-- EPOCH_PREPARE (R215): A device holds new intents, drains its E0 fragments, seals its stripes, records PREPARED and replies ST_OK, or refuses. -/
  | epochPrepare
  /-- EPOCH_COMMIT (R216): A device records ACTIVE E1, activates the rig, applies slice roles and releases held commands. -/
  | epochCommit
  /-- EPOCH_ABORT (R304): A device returns to ACTIVE E0, discards the staged rig and records EV_EPOCH_ABORTED. -/
  | epochAbort
  /-- EPOCH_QUERY (R217): A device answers the first applicable row of Table 05-9, recording ABORTED first where required. -/
  | epochQuery
  /-- EPOCH_LEADER_LIMIT (R216): The leader's 2,000 ms wait for PREPARED replies ends and it commits or aborts. -/
  | epochLeaderLimit
  /-- EPOCH_PREPARED_TIMEOUT (R215): A device PREPARED without outcome for 10 s queries every device and commits, aborts or keeps waiting. -/
  | epochPreparedTimeout
  /-- STRIPE_REWRITE (R194): A keeper rewrites the live records of a sparse stripe into new stripes and frees the old one. -/
  | stripeRewrite (group stripe : Nat)
  /-- ES_TEST (R220): Writing ES_CTRL.TEST closes the discharge-test control and samples V0. -/
  | esTest (core v0 : Nat)
  /-- ES_TEST_END (R220): After TEST_MS the control opens, V1 is sampled and ES_ENERGY and PJ_LIMIT are computed. -/
  | esTestEnd (v1 : Nat)
  /-- PJ_ENABLE (R222): Setting PJ_CTRL.ENABLE fixes the configured journal size and records EV_JOURNAL_LIMITED when limited. -/
  | pjEnable (core : Nat)
  /-- PJ_VMAP_WRITE (R240): A write to PJ_VMAP makes the device recompute PJ_LIMIT.UNITS. -/
  | pjVmapWrite (core entry value : Nat)
  /-- PFAIL_N_FALL (R239): PFAIL_N low for 2 microseconds commits a vault dump when DUMP_ARM is 1, and triggers a snapshot, a counter record and EV_PFAIL. -/
  | pfailNFall
  /-- VAULT_DUMP_END (R239): The trailer pages are programmed, DUMPING clears and the device holds itself in reset. -/
  | vaultDumpEnd
  /-- PJ_RESTORE (R242): Writing PJ_CTRL.RESTORE reads both vault sets' headers and starts loading the newest image. -/
  | pjRestore (core : Nat)
  /-- PJ_RESTORE_END (R242): A restore ends with RESTORED or INCOMPLETE set and PJ_FOUND_SEQ written. -/
  | pjRestoreEnd
  /-- PJ_ALLOC_REQ (R255): A write of a length to PJ_ALLOC_REQ reserves ring space for the core's port. -/
  | pjAllocReq (core bytes : Nat)
  /-- PJ_ALLOC_READ (R255): A 64-bit read of PJ_ALLOC returns the reserved offset or FULL and clears the offset. -/
  | pjAllocRead (core width : Nat)
  /-- PAIR_HELLO (R250): A PAIR_HELLO reports JOURNAL_LOST and takeovers, and makes the bow query its live mirrored intents. -/
  | pairHello
  /-- ACK (R249): A pair ACK frame advances the sender's acknowledged SEQ and marks frames mirrored. -/
  | ack
  /-- INTENT_FRAME (R249): A pair INTENT frame is journaled with MIRROR, or acknowledged without a second copy if already live. -/
  | intentFrame
  /-- OUTCOME_FRAME (R249): A pair OUTCOME frame is journaled with MIRROR. -/
  | outcomeFrame
  /-- INDEX_FRAME (R249): A pair INDEX frame is journaled and its changes applied to the bow's buckets. -/
  | indexFrame
  /-- OPEN_STRIPE_FRAME (R235): A pair OPEN frame is journaled as a mirrored OPEN_STRIPE record. -/
  | openStripeFrame
  /-- APPEND (R249): A pair APPEND frame writes its bytes into the receiver's slot of the open stripe. -/
  | append
  /-- RETIRE (R231): A pair RETIRE frame makes the bow retire the intent, its open stripe and its outcome. -/
  | retire
  /-- HANDBACK_READY (R254): The stroke takes slices back, sets ACTING, raises the slice-view generation and answers HANDBACK_ACK. -/
  | handbackReady
  /-- HANDBACK_ACK (R254): The bow clears HANDING and releases its held commands. -/
  | handbackAck
  /-- INTENT_QUERY (R250): An INTENT_QUERY is answered from the journal as open, a result or unknown. -/
  | intentQuery
  /-- INTENT_ANSWER (R250): A device adopts, retires or keeps an intent according to the answer received. -/
  | intentAnswer
  /-- PAIR_RESEND_TIMER (R249): ACK_SEQ has not advanced for 100 microseconds or 1 ms and the sender resends from the oldest unacknowledged frame. -/
  | pairResendTimer (partner : Nat)
  /-- PAIR_ACK_TIMER (R249): A receiver sends an ACK at least every 50 ms. -/
  | pairAckTimer (partner : Nat)
  /-- PAIR_PATH_CHANGE (R247): The pair link goes up or down, the channel changes path, resends and records EV_PAIR_PATH. -/
  | pairPathChange (partner linkEnd : Nat)
  /-- LEASE_LAPSE (R252): 500 ms pass without an ACK from the bow and no solo running holds, so the stroke stops acting and records EV_LEASE_LOST. -/
  | leaseLapse (partner : Nat)
  /-- TAKEOVER_TIMER (R253): 1,000 ms after its last ACK the bow records TAKEN, sets ACTING and resolves the stroke's intents. -/
  | takeoverTimer (partner : Nat)
  /-- HANDBACK_START (R254): A bow holds new intents for the slices, drains its intents and seals its stripes before handing back. -/
  | handbackStart (partner : Nat)
  /-- HANDBACK_RESEND (R254): A bow in HANDING sends HANDBACK_READY again every 100 ms until answered. -/
  | handbackResend (partner : Nat)
  /-- FRAG_COMMIT_RESEND (R231): An unanswered FRAG_COMMIT or FRAG_ROLLBACK is sent again every 100 ms. -/
  | fragCommitResend (group stripe : Nat)
  /-- PROBE_RESEND (R232): A resolver sends an unanswered probe FRAG_READ again each FRAG_READ_MS and counts a missed deadline. -/
  | probeResend (group stripe : Nat)
  /-- REPLAY (R245): In REPLAY the device scans the ring, rearms the dump, exchanges PAIR_HELLO and carries out or resolves its intents. -/
  | replay
  /-- SEAT_SILENCE_EXPIRY (R262): No GROUP_STATUS arrives from a seat for SEAT_SILENCE_MS and a device with majority contact declares it lost. -/
  | seatSilenceExpiry (group seat : Nat)
  /-- WRITE_LIMIT_EXPIRY (R262): A FRAG_WRITE, FRAG_COMMIT or FRAG_ROLLBACK has no acknowledgement WRITE_LIMIT_MS after it was first sent. -/
  | writeLimitExpiry (tag : Nat)
  /-- FRAG_READ_DEADLINE (R260): A FRAG_READ draws no reply within FRAG_READ_MS, its position becomes unavailable to its command and a missed deadline is counted. -/
  | fragReadDeadline (tag : Nat)
  /-- DEGRADED_READ_RETRY (R271): 100 ms after missed deadlines a read retries its missing positions once, then ends ST_BUSY if still short. -/
  | degradedReadRetry (cmd : Nat)
  /-- STRIPE_LOST (R274): A seat records a lost marker for its position in each named stripe and replies ST_OK. -/
  | stripeLost
  /-- INVENTORY (R286): A seat lists the stripes it holds or keeps that place a position at the target seat. -/
  | inventory
  /-- REBUILD_NOTICE (R280): A REBUILD_NOTICE of BEGUN, ENDED, CURRENT or PROGRESS clears the LOST bit or updates rebuild progress. -/
  | rebuildNotice
  /-- FRAG_REPLACE (R268): A seat replaces a held or missing fragment with the unit sent, journaling and committing it. -/
  | fragReplace
  /-- LOCAL_REPAIR (R266): A seat rebuilds a missing fragment by decoding and programs it. -/
  | localRepair (group : Nat)
  /-- REBUILD_START (R280): A returning or replacement seat reconciles by INVENTORY and begins rebuild or reports itself current. -/
  | rebuildStart (group : Nat)
  /-- REBUILD_POSITION (R280): A rebuilding seat fetches k units for one missing position, decodes and programs it. -/
  | rebuildPosition (group : Nat)
  /-- REBUILD_RATE_SAMPLE (R283): Every 100 ms the rebuilding seat measures host load U and sets its rebuild rate. -/
  | rebuildRateSample (group hostBytes : Nat)
  /-- REBUILD_PROGRESS_TIMER (R284): Every 10 s during rebuild the seat sends REBUILD_NOTICE PROGRESS. -/
  | rebuildProgressTimer (group : Nat)
  /-- RIG_CTRL_STAGE (R302): Writing RIG_CTRL.STAGE starts the loader checking the container and building the image. -/
  | rigCtrlStage (core : Nat)
  /-- RIG_STAGE_END (R302): Staging ends with STAGED and EV_RIG_STAGED, or with ERROR, ERRCODE and EV_RIG_REJECTED. -/
  | rigStageEnd
  /-- RIG_CTRL_ACTIVATE (R305): Writing RIG_CTRL.ACTIVATE while STAGED starts the swap into rig memory, or sets ERRCODE 9. -/
  | rigCtrlActivate (core : Nat)
  /-- RIG_SWAP_END (R305): The swap ends: RIG_EPOCH, RIG_CRC and RIG_SELF change in one cycle and EV_RIG_ACTIVATED is recorded. -/
  | rigSwapEnd
  /-- RIG_CTRL_DISCARD (R304): Writing RIG_CTRL.DISCARD drops the staged image. -/
  | rigCtrlDiscard (core : Nat)
  /-- EC_ENCODE (R308): The erasure engine computes the parity units named in PMASK. -/
  | ecEncode (queue : Nat)
  /-- EC_DECODE (R308): The erasure engine recovers the data positions of XMASK with the rig decode entry. -/
  | ecDecode (queue : Nat)
  /-- EC_CHECK (R308): The erasure engine recomputes parity and reports differing units in MISMATCH. -/
  | ecCheck (queue : Nat)
  /-- EC_ENTRY_END (R309): An erasure engine entry ends and its completion is written, latching any fabric failure. -/
  | ecEntryEnd (queue : Nat)
  /-- FPH_PUSH (R323): PUSH inserts FPH_ARG into the named heap. -/
  | fphPush (core heap : Nat)
  /-- FPH_POP (R323): POP removes and returns the entry with the lowest key. -/
  | fphPop (core heap : Nat)
  /-- FPH_PEEK (R323): PEEK returns the first entry without removing it. -/
  | fphPeek (core heap : Nat)
  /-- FPH_CLEAR (R323): CLEAR empties the named heap. -/
  | fphClear (core heap : Nat)
  /-- COLLECTION (R339): Crew firmware collects a victim block set, copying its live strides and erasing it once R342 holds. -/
  | collection (lun eraseFail : Nat)
  /-- MIGRATION (R338): Crew firmware copies live strides of closed SLC block sets into native block sets. -/
  | migration (idle eraseFail : Nat)
  /-- PROGRAM_FAILURE (R343): A failed program closes its block set, flags RETIRE_AFTER and re-places its items. -/
  | programFailure (bsn : Nat) (unreadable : List Nat) (summaryFail : Nat)
  /-- LUN_DECLARE_FAILED (R351): A LUN is declared failed, its block sets set UNUSED and its fragments treated as missing. -/
  | lunDeclareFailed (lun : Nat)
  /-- NOTE_RECORD (R330): A note is buffered and counts as recorded once its NOTE stride is programmed. -/
  | noteRecord
  /-- SWEEP (R345): The sweep reads programmed strides in BSN order on schedule and marks block sets for refresh. -/
  | sweep (reads : List (Nat × Nat))
  /-- READ_RETRY (R347): A stride whose ECC fails is read again through START_STEP, the default read and the RETRY cell. -/
  | readRetry (bsn page step bits : Nat)
  /-- CHECKPOINT (R357): Crew firmware programs the map images and then records the checkpoint. -/
  | checkpoint
  /-- SUMMARY_SCAN (R358): In SCAN the device loads checkpoint images and applies items written since CKPT_SEQ. -/
  | summaryScan
  /-- FULL_SCAN (R359): The device reads every header, resolves items, builds the maps and makes a checkpoint. -/
  | fullScan (unreadable : Nat) (bad : List Nat)
  /-- VAULT_SET_REPLACE (R318): A vault block set that fails to erase is retired and replaced by a FREE block set. -/
  | vaultSetReplace (entry : Nat)
  /-- MEDIA_FULL (R355): H + J reaches C_FRAG, the device enters READ_ONLY and records EV_MEDIA_FULL. -/
  | mediaFull
  /-- CHANNEL_START (R364): When the FLASH domain powers up each channel is loaded, identifies its targets and trains. -/
  | channelStart
  /-- CHANNEL_READY (R364): The channel start ends, READY and INIT_DONE are set and the event source pulses. -/
  | channelReady (channel : Nat) (targets : List (Bytes × Nat × Nat))
  /-- FC_READ (R374): A multi-plane read of the planes in the mask with the RETRY offsets. -/
  | fcRead (queue index : Nat)
  /-- FC_PROGRAM (R376): A stride program that waits for its round and checks block-table STATE before issuing. -/
  | fcProgram (queue index : Nat)
  /-- FC_ERASE (R376): A block-set erase that waits for its round and checks block-table STATE before issuing. -/
  | fcErase (queue index : Nat)
  /-- FC_READ_HEADER (R374): A multi-plane read that returns only the headers. -/
  | fcReadHeader (queue index : Nat)
  /-- FC_FEATURE (R374): A Get or Set Features at target or LUN level. -/
  | fcFeature (queue index : Nat)
  /-- FC_RESET_LUN (R374): Reset LUN, then a wait for ready. -/
  | fcResetLun (queue index : Nat)
  /-- FC_OPERATION_END (R375): A NAND operation ends and the channel writes the completion with the status decided under Table 10-6. -/
  | fcOperationEnd (channel slot fail bits corrected bad badWords : Nat)
  /-- FC_ROUND_TICK (R382): The shared round counter moves to the next round of the schedule in force. -/
  | fcRoundTick
  /-- FC_LUN_TIMEOUT (R385): A LUN stays busy beyond its timeout: the entry completes with status 5 and the LUN is reset. -/
  | fcLunTimeout (channel slot : Nat)
  /-- LUN_RESET_TIMEOUT (R385): A LUN still busy 10 ms after its reset becomes DEAD and EV_LUN_UNRESPONSIVE is recorded. -/
  | lunResetTimeout (channel slot : Nat)
  /-- FC_REVIVE (R386): Writing REVIVE sends Reset LUN to a DEAD LUN and clears DEAD if it is ready within 10 ms. -/
  | fcRevive (core channel slot ready : Nat)
  /-- SEQUENCER_FAULT (R369): An invalid instruction or a microcode step over 100 ms stops the channel and completes its operations with status 8. -/
  | sequencerFault (channel : Nat)
  /-- LUN_TEMP_POLL (R380): The microcode reads each present LUN's die temperature at least once a second. -/
  | lunTempPoll (channel slot valid temp : Nat)
  /-- FC_GROUP_WINDOW_WRITE (R371): A write through the broadcast or a group window acts on every member channel in the same cycle. -/
  | fcGroupWindowWrite (rid core window offset width value ready : Nat)
  /-- SC_ACCESS (R392): A DRAM access is looked up in the staging cache, hits, or misses and allocates or goes to DRAM. -/
  | scAccess (rid core addr len write : Nat) (data : Bytes) (err : Nat)
  /-- SC_FILL_COMPLETE (R395): A miss is filled from DRAM and the waiting accesses of the port complete. -/
  | scFillComplete (rid : Nat)
  /-- SC_EVICTION_DONE (R397): The DRAM controller declines or writes an evicted line and held requests are looked up again. -/
  | scEvictionDone (line err : Nat)
  /-- SC_WAY_DISABLE_END (R398): The way is invalidated, its DISABLED bit set and EV_CACHE_WAY_DISABLED recorded. -/
  | scWayDisableEnd (way : Nat)
  /-- SC_WAY_ENABLE (R398): Writing 1 to a DISABLED bit enables the way again and clears its error count. -/
  | scWayEnable (core ways : Nat)
  /-- SC_CLEAN (R400): The maintenance engine writes DIRTY lines of a range to DRAM. -/
  | scClean (core all : Nat)
  /-- SC_INVALIDATE (R400): The maintenance engine drops the lines of a range. -/
  | scInvalidate (core all : Nat)
  /-- SC_CLEAN_INVALIDATE (R400): The maintenance engine writes back and drops the lines of a range. -/
  | scCleanInvalidate (core all : Nat)
  /-- SC_MAINT_END (R402): A maintenance operation ends, BUSY clears and DONE is set. -/
  | scMaintEnd (line err : Nat)
  /-- SC_PREFETCH_HINT (R403): Writing SC_PF_CTRL.GO queues a hint, or drops it when the FIFO is full. -/
  | scPrefetchHint (core lines rid : Nat)
  /-- SC_PREFETCH_FETCH (R403): The engine fetches the lines of a queued hint into invalid or clean ways. -/
  | scPrefetchFetch
  /-- SC_DISABLE (R404): Writing SC_CTRL.ENABLE 0 switches the cache off once accesses looked up have completed. -/
  | scDisable (core : Nat)
  /-- SC_ENABLE (R405): Writing SC_CTRL.ENABLE 1 switches the cache on with its lines as held. -/
  | scEnable (core : Nat)
  /-- DMC_SCRUB (R409): The patrol scrubber reads a location, writes back corrected data or poisons and latches an uncorrectable one. -/
  | dmcScrub (addr err : Nat)
  /-- DMC_TEMP_REFRESH (R409): The controller raises or restores the refresh rate as stack temperature requires. -/
  | dmcTempRefresh (high : Nat)
  /-- WQ_DOORBELL_SQ (R419): A doorbell on the entry side makes the device read the queue's index block. -/
  | wqDoorbellSq (queue : Nat)
  /-- WQ_DOORBELL_CQ (R419): A doorbell on the completion side makes the device read CQ_CI and free completion slots. -/
  | wqDoorbellCq (queue : Nat)
  /-- WQ_POLL (R420): The poll interval of a poll-mode queue passes and the device reads the next slot. -/
  | wqPoll (queue : Nat)
  /-- WQ_ENTRY_TAKE (R421): The manager takes a posted entry and hands it to its block, within holdback limits. -/
  | wqEntryTake (queue : Nat)
  /-- WQ_COMPLETION_DUE (R425): An entry or batch ends and its completion is written or held until room appears. -/
  | wqCompletionDue (queue : Nat)
  /-- WQ_NOP (R418): A NOP entry ends at once with no action. -/
  | wqNop (queue : Nat)
  /-- WQ_HOLD (R422): Writing WQ_ECINV with HOLD 1 stops taking from a queue and discards its entry cache. -/
  | wqHold (queue : Nat)
  /-- WQ_UNHOLD (R422): Writing WQ_ECINV with HOLD 0 resumes taking from the held queue. -/
  | wqUnhold (queue : Nat)
  /-- CREATE (R431): The administrative CREATE creates a queue with its rings, mode and vector. -/
  | create (queue : Nat)
  /-- DESTROY (R432): The administrative DESTROY stops a queue and abandons untaken entries. -/
  | destroy (queue : Nat)
  /-- DESTROY_DRAINED (R432): The destroyed queue's taken entries have ended and held completions are written, so it becomes ABSENT. -/
  | destroyDrained (queue : Nat)
  /-- RESTART (R429): The administrative RESTART sets SQ_CI of a stopped queue and returns it to RUNNING. -/
  | restart (queue : Nat)
  /-- WQ_LRESTART (R433): Writing WQ_LRESTART restarts a stopped legacy queue at a new SQ_CI. -/
  | wqLrestart (queue : Nat)
  /-- DMA_GO (R450): GO starts a channel at DMAnn_DESC. -/
  | dmaGo (core channel : Nat)
  /-- DMA_RUN (R449): A DMA_RUN work entry starts a channel and ends when the channel next ends, idles or halts. -/
  | dmaRun (queue : Nat)
  /-- DMA_KICK (R445): KICK sets KICK_PEND while running, or rereads the last LINK while ENDED. -/
  | dmaKick (core channel : Nat)
  /-- DMA_STOP (R450): STOP makes a running channel finish data already read and go IDLE with a stopped record. -/
  | dmaStop (core channel : Nat)
  /-- DMA_RESUME (R451): RESUME continues a halted channel at DONE_BYTES. -/
  | dmaResume (core channel : Nat)
  /-- DMA_ABORT (R450): ABORT moves a halted channel to IDLE. -/
  | dmaAbort (core channel : Nat)
  /-- DMA_BURST_GRANT (R444): At a burst boundary the channel issues a burst when buffer, quota and request line allow. -/
  | dmaBurstGrant (channel : Nat)
  /-- DMA_BURST_WRITTEN (R438): The write engine completes a burst's writes and frees its buffer blocks. -/
  | dmaBurstWritten (channel : Nat)
  /-- DMA_PERIPHERAL_LAST (R444): A peripheral marks a granted burst LAST and the descriptor ends short. -/
  | dmaPeripheralLast (channel bytes : Nat)
  /-- DMA_PERIPHERAL_ABORT (R444): A peripheral marks a granted burst ABORT and the channel halts with CAUSE 3. -/
  | dmaPeripheralAbort (channel : Nat)
  /-- DMA_DESCRIPTOR_END (R445): A descriptor ends, its record is appended if COMPL, and the channel follows LINK or ends. -/
  | dmaDescriptorEnd (channel : Nat)
  /-- DMA_REQ_SET (R443): Writing 1 to DMA_REQ_SET raises software request lines. -/
  | dmaReqSet (core lines : Nat)
  /-- DMA_REQ_CLR (R443): Writing 1 to DMA_REQ_CLR lowers software request lines, withdrawing an ungranted request. -/
  | dmaReqClr (core lines : Nat)
  /-- DMA_CQ_CI_WRITE (R448): Writing DMA_CQ_CI frees completion slots and releases channels waiting with CQ_WAIT. -/
  | dmaCqCiWrite (core index : Nat)
  /-- ASU_SEARCH_GO (R461): Writing ASU_SEARCH.GO latches the port's key and bank mask and starts a search. -/
  | asuSearchGo (core width : Nat)
  /-- ASU_SEARCH_RESULT (R458): A search evaluates all chosen banks in one cycle, reports the best match and latches matches for stepping. -/
  | asuSearchResult (core : Nat)
  /-- ASU_STEP_NEXT (R462): Writing ASU_STEP_CTRL.NEXT moves to the next latched match in bank and index order. -/
  | asuStepNext (core : Nat)
  /-- ASU_ENTRY_WRITE (R464): ASU_WENTRY with GO and READ 0 writes an entry whole, or is refused. -/
  | asuEntryWrite (core valid bank index : Nat)
  /-- ASU_ENTRY_READ (R465): ASU_WENTRY with GO and READ 1 copies an entry into the port registers. -/
  | asuEntryRead (core bank index : Nat)
  /-- ASU_MOVE (R466): ASU_MOVE_CTRL.GO starts shifting a block of entries by one place, or is refused. -/
  | asuMove (core dir bank last first : Nat)
  /-- ASU_MOVE_END (R467): A move ends, the vacated place is invalid, BUSY clears and DONE is set. -/
  | asuMoveEnd
  /-- ASU_BANK_CFG_WRITE (R456): A write to ASU_BANK_CFG that changes WIDTH invalidates every entry of the bank. -/
  | asuBankCfgWrite (core bank value : Nat)
  /-- ASU_SEARCH (R469): An ASU_SEARCH work queue entry searches the Palette and completes with the best match. -/
  | asuSearch (queue : Nat)
  /-- CIP_GCM_ENC (R491): GCM encryption of LEN bytes with IV and associated data, writing the tag. -/
  | cipGcmEnc (queue : Nat)
  /-- CIP_GCM_DEC (R476): GCM decryption and tag check, zeroing the destination on a mismatch. -/
  | cipGcmDec (queue : Nat)
  /-- CIP_XTS_ENC (R491): XTS encryption in data units from a starting tweak. -/
  | cipXtsEnc (queue : Nat)
  /-- CIP_XTS_DEC (R491): XTS decryption in data units from a starting tweak. -/
  | cipXtsDec (queue : Nat)
  /-- CIP_UNWRAP (R491): Unwraps a blob into a slot as an exportable GCM key. -/
  | cipUnwrap (queue : Nat)
  /-- CIP_GENKEY (R491): Draws a random key into a slot with its NSID and KEY_GEN. -/
  | cipGenkey (queue : Nat)
  /-- CIP_EXPORT (R491): Wraps the key record of a slot under a wrapper and writes the blob. -/
  | cipExport (queue : Nat)
  /-- CIP_CLEAR (R491): Makes a key slot EMPTY. -/
  | cipClear (queue : Nat)
  /-- CIP_ENTRY_END (R492): A CIP entry ends and its completion carries CSTATUS decided in the order of Table 15-9. -/
  | cipEntryEnd (queue : Nat)
  /-- DIG_UPDATE (R490): Adds bytes to a digest context, starting it with FIRST and writing the digest with LAST. -/
  | digUpdate (queue : Nat)
  /-- DIG_ENTRY_END (R492): A DIG entry ends and its completion is written. -/
  | digEntryEnd (queue : Nat)
  /-- PORT_LINK_UP (R498): PCS and FEC alignment hold for UP_HOLD_MS and LINK rises. -/
  | portLinkUp (port : Nat)
  /-- PORT_LINK_DOWN (R498): Alignment is lost and LINK falls within 1 microsecond, ending preemption. -/
  | portLinkDown (port : Nat)
  /-- FRAME_RECEIVED (R504): A frame on a data port is judged in the order of Table 16-4 and delivered, handled or discarded. -/
  | frameReceived (port fcs : Nat) (frame : Bytes)
  /-- PAUSE_FRAME (R501): An honoured PAUSE frame stops all eight transmit queues for its quanta. -/
  | pauseFrame (port quanta : Nat)
  /-- PFC_FRAME (R501): An honoured priority flow control frame stops or releases transmit queue p. -/
  | pfcFrame (port priority quanta : Nat)
  /-- PAUSE_EXPIRY (R501): The pause time of a queue passes and it may send again. -/
  | pauseExpiry (port queue : Nat)
  /-- VERIFY_TIMER (R502): VERIFY_MS passes and the port sends another verify frame or, after three, fails verification. -/
  | verifyTimer (port : Nat)
  /-- VERIFY_FRAME (R502): A verify frame from the link partner is answered with a respond frame while ENABLE is 1. -/
  | verifyFrame (port : Nat)
  /-- RESPOND_FRAME (R502): A respond frame sets VERIFY to 2 and preemption becomes active. -/
  | respondFrame (port : Nat)
  /-- TX_FRAME_START (R500): The port, free to start a frame, takes the head of the highest unpaused queue. -/
  | txFrameStart (port engine len : Nat)
  /-- PREEMPTION_CUT (R503): An express frame becomes ready and the preemptable frame is cut at the next legal boundary. -/
  | preemptionCut (port sent engine : Nat)
  /-- TX_FRAME_END (R506): A crew frame has been sent or discarded and its transmit slot is written back. -/
  | txFrameEnd (port : Nat)
  /-- RXR_PI_WRITE (R506): Crew firmware advances a receive ring's PI, posting buffers that let waiting frames be placed. -/
  | rxrPiWrite (core port ring index : Nat)
  /-- RX_WAIT_TIMEOUT (R505): A stored frame not placed within RX_WAIT is discarded and counted in RX_NOBUF. -/
  | rxWaitTimeout (port ring : Nat)
  /-- TXR_PI_WRITE (R506): Crew firmware advances a transmit ring's PI, posting frames to send. -/
  | txrPiWrite (core port ring index : Nat)
  /-- TSQ_POP (R510): Writing MACx_TSQ_POP removes the head of the time-stamp queue. -/
  | tsqPop (core port : Nat)
  /-- PTP_LOAD (R509): LOAD sets the PTP clock to the SET registers. -/
  | ptpLoad (core run : Nat)
  /-- PTP_STEP (R509): STEP adds signed nanoseconds to the PTP clock in one cycle. -/
  | ptpStep (core run : Nat)
  /-- PTP_SEC_READ (R509): A read of the low half of MACA_PTP_SEC latches the nanoseconds of the same instant. -/
  | ptpSecRead (core width : Nat)
  /-- PAIR_LINK_FRAME (R512): A frame on the pair link is handed to the journal if valid and addressed, otherwise discarded. -/
  | pairLinkFrame (fcs : Nat) (frame : Bytes)
  /-- SVC_FRAME_RECEIVED (R516): A frame on the service segment is filtered, judged against wake patterns and routed. -/
  | svcFrameReceived (fcs : Nat) (frame : Bytes)
  /-- SVC_COLLISION (R517): A collision during sending jams and schedules a back-off, or discards the frame after 16 attempts. -/
  | svcCollision (late : Nat)
  /-- SVC_BACKOFF_EXPIRY (R517): The back-off of a collided frame ends and the port tries to send again. -/
  | svcBackoffExpiry
  /-- IDENTIFY (R525): The responder returns the IDENTIFY body. -/
  | identify
  /-- WAKE (R525): The responder answers WAKE with ST_OK; the frame serves for wake patterns. -/
  | wake
  /-- LOG_READ (R525): The responder returns logbook records from a first SEQ. -/
  | logRead
  /-- PENT_READ (R525): The responder returns 1,024 bytes of a Pentimento snapshot. -/
  | pentRead
  /-- KEY_SET (R526): Crew firmware, through Cox, installs the enclosure key. -/
  | keySet
  /-- TENANT_INIT (R526): The first tenant is created as a TENANT_SET administrative change. -/
  | tenantInit
  /-- ESCROW_SET (R526): The owner escrow key is installed under R481. -/
  | escrowSet
  /-- ESCROW_READ (R525): Crew firmware returns the escrow blob of a namespace. -/
  | escrowRead
  /-- IMAGE_DATA (R525): A piece of an image bundle is gathered in DRAM. -/
  | imageData
  /-- IMAGE_END (R525): The gathered bundle is checked by CRC and handed to IMAGE_INSTALL. -/
  | imageEnd
  /-- RIG_DATA (R525): A piece of a rig container is gathered in DRAM. -/
  | rigData
  /-- RIG_STAGE (R525): The gathered container is staged under R302 and the result returned. -/
  | rigStage
  /-- SCAN_FULL (R525): The next start is made to run the full scan. -/
  | scanFull
  /-- SERVICE_ENTER (R525): The device declares its seat lost in every group and enters SERVICE. -/
  | serviceEnter
  /-- SERVICE_LEAVE (R525): The device leaves SERVICE and rejoins its groups. -/
  | serviceLeave
  /-- GO_RACE (R530): A request for RACE from PADDLE powers CREW2 and LANES on, unless thermal step 3 refuses it. -/
  | goRace (core : Nat)
  /-- GO_PADDLE (R530): A request for PADDLE from RACE powers CREW2 and LANES off when cores 2 to 7 are in WFI. -/
  | goPaddle (core : Nat)
  /-- GO_DOCK (R530): A request for DOCK from PADDLE with an empty journal starts the power-down. -/
  | goDock (core : Nat)
  /-- GO_DEEP_DOCK (R530): A request for DEEP DOCK from PADDLE with an empty journal starts the power-down. -/
  | goDeepDock (core : Nat)
  /-- POWER_DOWN_END (R532): A power-down completes with domains off and a counter record saved, then any latched wake starts. -/
  | powerDownEnd
  /-- WAKE_N_LOW (R611): WAKE_N low for at least 100 microseconds in DOCK or DEEP DOCK wakes the device to PADDLE. -/
  | wakeNLow (held : Nat)
  /-- AON_WAKE_AT_REACHED (R540): AON_OPSEC reaches AON_WAKE_AT: a wake in sleep, or DUE set while awake. -/
  | aonWakeAtReached
  /-- START_FROM_SLEEP (R545): A wake runs Table 18-3 through Cox, DRAM training, scan and replay to READY. -/
  | startFromSleep (targets : List (List (Bytes × Nat × Nat))) (v0 v1 fail : Nat)
  /-- DOCKING_NOTICE (R536): A device sends GROUP_STATUS with DEV_STATE DOCKED twice in each group before its power-down. -/
  | dockingNotice
  /-- DOCKED_WAKE_RESEND (R538): A device needing a docked seat sends WAKE again every 500 ms. -/
  | dockedWakeResend (hull : Nat)
  /-- DOCKED_WAKE_TIMEOUT (R538): A docked seat not awake 5 s after the first WAKE counts as silent from then. -/
  | dockedWakeTimeout (hull : Nat)
  /-- THERMAL_SAMPLE (R549): The junction temperature is sampled every 1 ms and a thermal step is entered when reached. -/
  | thermalSample (tj : Nat)
  /-- THERMAL_STEP_LEAVE (R549): TJ stays below a step's leave temperature for 1 s and the step falls by one. -/
  | thermalStepLeave
  /-- WATCHDOG_ARM (R542): Writing AON_WDOG.ENABLE arms the watchdog. -/
  | watchdogArm (core seconds : Nat)
  /-- WATCHDOG_KICK (R542): Writing KICK restarts the watchdog count. -/
  | watchdogKick (core : Nat)
  /-- WATCHDOG_EXPIRY (R542): The watchdog count expires: a snapshot, EV_WATCHDOG and a device reset with cause 3. -/
  | watchdogExpiry
  /-- COUNTER_RECORD (R541): Every 64 s the operating-seconds and power-cycle counters are appended to the NOR counter ring. -/
  | counterRecord
  /-- SUPPLIES_VALID (R600): Every rail is in range and PFAIL_N has been high 1 ms, triggering the power-on start. -/
  | suppliesValid
  /-- POWER_ON_RESET (R543): A power-on reset reinitialises all domains and runs the start of Table 18-2. -/
  | powerOnReset
  /-- DEVICE_RESET (R547): A device reset reinitialises all but AON and restarts from step 2 of Table 18-2. -/
  | deviceReset (cause : Nat)
  /-- DOMAIN_POWER_UP (R547): A power domain powers up and its blocks are reinitialised; pending interrupts are delivered. -/
  | domainPowerUp (domain : Domain) (fail v0 : Nat)
  /-- BOOT_VERIFY (R562): The resident loader verifies the active image bundle at start, or records EV_BOOT_FAILED. -/
  | bootVerify
  /-- FALLBACK_RESTORE (R565): The loader restores the fallback image into NOR and starts again. -/
  | fallbackRestore (cut : Nat)
  /-- TRIAL_TIMEOUT (R564): A TRIAL image unconfirmed 600 s after crew release is reset by Cox. -/
  | trialTimeout
  /-- LOADER_SERVICE (R566): In HALTED with no startable image the resident loader serves IMAGE_DATA and IMAGE_END on the service port. -/
  | loaderService
  /-- COX_MAILBOX_GO (R557): Writing COX_MBc_CTRL.GO submits a request; Cox serves channels in round robin and sets DONE. -/
  | coxMailboxGo (core channel : Nat)
  /-- CFG_READ (R558): Cox returns the newest record of a configuration key. -/
  | cfgRead
  /-- CFG_WRITE (R558): Cox appends a configuration record, compacting the store when needed. -/
  | cfgWrite
  /-- FC_LOAD (R369): Cox reloads channel microcode and runs steps 3 to 8 of Table 10-2. -/
  | fcLoad
  /-- PEER_EPH (R558): Cox returns a new ephemeral ECDH context and public key. -/
  | peerEph
  /-- PEER_SIGN (R558): Cox signs a HELLO message with the identity key. -/
  | peerSign
  /-- PEER_KEY (R558): Cox derives the peer session key and loads K_P into a slot. -/
  | peerKey
  /-- XPORT_LOAD (R489): Cox derives and loads the transport key for a device. -/
  | xportLoad
  /-- SVC_MAC (R523): Cox verifies or signs a service trailer MAC. -/
  | svcMac
  /-- SVC_KEY_SET (R526): Cox checks and installs the enclosure key of a KEY_SET. -/
  | svcKeySet
  /-- SVC_UNMASK (R558): Cox unmasks a TENANT_INIT secret or installs an ESCROW_SET key. -/
  | svcUnmask
  /-- ATTEST (R568): Cox returns a signed attestation quote and the device certificate. -/
  | attest
  /-- DEBUG_CHALLENGE (R570): Cox returns a fresh debug challenge. -/
  | debugChallenge
  /-- DEBUG_UNLOCK (R570): Cox checks a signed unlock, drops keys and opens JTAG to the requested level. -/
  | debugUnlock
  /-- IMAGE_EXPORT (R558): Cox copies the active image bundle to DRAM. -/
  | imageExport
  /-- FALLBACK_SET (R558): Cox records the fallback map. -/
  | fallbackSet
  /-- IMAGE_INSTALL (R563): Cox writes a new bundle into the active image region and records TRIAL. -/
  | imageInstall (cut : Nat)
  /-- IMAGE_CONFIRM (R564): Cox burns fuses, releases the old settings and records STEADY. -/
  | imageConfirm
  /-- LOG_CLEAR (R584): Cox checks the authorisation and grants a logbook clear by writing LOG_CLEAR_UPTO. -/
  | logClear
  /-- RESET (R558): Cox takes a device reset with cause 4 unless the journal holds records. -/
  | reset
  /-- FATAL (R558): The device enters HALTED with a Pentimento snapshot. -/
  | fatal
  /-- LOG_SUBMIT (R574): A submit port's GO accepts a record with the next SEQ, or suppresses or refuses it. -/
  | logSubmit (core code : Nat)
  /-- LOG_RD_GO (R582): A read port's GO returns records from FROM as they stood at one instant. -/
  | logRdGo (core : Nat)
  /-- LOG_RECORD_PROGRAM (R575): A buffered record is programmed to NOR within 10 ms, erasing the next ring sector when entering one. -/
  | logRecordProgram
  /-- LOG_CLEAR_UPTO_WRITE (R584): Cox's write accepts EV_LOG_CLEARED and then writes a control record with the new LOW. -/
  | logClearUptoWrite (upto : Nat)
  /-- LOG_TOKEN_REFILL (R577): A token returns to a code's bucket after its refill interval. -/
  | logTokenRefill (code : Nat)
  /-- SNAP_STROBE (R586): Writing SNAP_CTRL.STROBE copies every participating RC counter into its shadow and clears it in one cycle. -/
  | snapStrobe (core : Nat)
  /-- PENT_SNAPSHOT_END (R588): A snapshot completes with PCRC, NEXT advances and TAKEN is set. -/
  | pentSnapshotEnd
  /-- PENT_SLOT_ERASE (R588): The front end erases the new NEXT slot in the background. -/
  | pentSlotErase
  /-- SMBUS_READ_BYTE (R613): The SMBus target returns a byte register with PEC. -/
  | smbusReadByte (address command : Nat)
  /-- SMBUS_READ_WORD (R613): The SMBus target returns a word register, latched at the command code. -/
  | smbusReadWord (address command : Nat)
  /-- SMBUS_BLOCK_READ (R613): The SMBus target returns a block register, latched at the command code. -/
  | smbusBlockRead (address command : Nat)
  /-- SMBUS_WRITE_NACK (R612): An unknown command code or a written data byte is NACKed. -/
  | smbusWriteNack (address command data : Nat)
  /-- SMBUS_ALERT_RESPONSE (R612): A read of the Alert Response Address returning this device's address releases SMB_ALERT_N. -/
  | smbusAlertResponse (address : Nat)
  /-- SMBUS_CLOCK_LOW_TIMEOUT (R612): After 25 to 35 ms of clock low the target releases the bus. -/
  | smbusClockLowTimeout
  /-- CM_REP (R198): A REP (or REJ) arrives answering the CM REQ that the device sent as lower-hull initiator of a peer or fall-back session; the device sends RTU and the session becomes CONNECTED. -/
  | cmRep (session accepted : Nat)
  /-- LOCAL_ACK_TIMEOUT (R47): The local ACK timeout (or RNR wait) of a session expires short of the retry count and the device resends the unacknowledged packets. -/
  | localAckTimeout (session : Nat)
  /-- MAJORITY_CONTACT_LOSS (R251): 500 ms pass without GROUP_STATUS from more than half the seats, so majority contact lapses, solo running ends and a taking-over bow stops acting. -/
  | majorityContactLoss (group : Nat)
  /-- JTAG_ACCESS (R614): A debugger drives the JTAG TAP: IDCODE, BYPASS, SAMPLE/PRELOAD, or, once unlocked, EXTEST, debug accesses with requester 15 or a JTAG reset. -/
  | jtagAccess (action addr width value : Nat)
  /-- SVC_FRAME_SEND (R517): A queued service frame (a responder reply or a crew transmit slot) starts on the 10BASE-T1S medium once carrier sense finds it idle after the inter-packet gap. -/
  | svcFrameSend
  deriving DecidableEq, Repr

end Sys2Proof
end

