-- ==== Sys2Proof/Config.lean ====
section
/-! DEFINITION. What the spec leaves open. Each constant is opaque: nothing in Lean can evaluate it or prove a value of it,
so a claim holds whatever the hardware does there. A constant that is applied to the counter State.free gives a fresh
value each time (log entry 3). -/

namespace Sys2Proof.Config

/-- A value the spec does not state, the n-th of a run. -/
opaque freeNat : Nat → Nat

/-- Byte i of the n-th string of bytes whose value the spec does not state (a nonce, a key, an undefined buffer). -/
opaque freeByte : Nat → Nat → Byte

/-- ECDSA over P-384: does the signature verify under the public key for the message (R200, R560, R570). -/
opaque ecdsaVerify : (key msg sig : Bytes) → Bool

/-- ECDSA over P-384: the signature of a message by a private key, 96 bytes in the layouts (R200, R568). -/
opaque ecdsaSign : (key msg : Bytes) → Bytes

/-- ECDH over P-384: the shared secret of a private and a public key. -/
opaque ecdh : (priv pub : Bytes) → Bytes

/-- The public key of a private key on P-384. -/
opaque ecPublic : Bytes → Bytes

/-- LMS verification of an image bundle's second signature. -/
opaque lmsVerify : (key msg sig : Bytes) → Bool

/-- The manufacturer identity of the JTAG IDCODE, bits [11:1] (R614), which the spec does not give. -/
opaque jtagManufacturer : BitVec 11

/-- The fused hull number of the device less 1: no device is fused with hull number 0 or 0xFFFF_FFFF_FFFF_FFFF (R179). -/
opaque hullIndex : Fin 0xFFFFFFFFFFFFFFFE

/-- The fused hull number of the device (R179), 64 bits. -/
def hull : Nat := hullIndex.val + 1

/-- The private key of the fused device identity (R554). -/
opaque identityKey : Bytes

/-- The fused 512-bit device secret (R481, R554). -/
opaque deviceSecret : Bytes

/-- The device certificate of the resident loader region, 208 bytes (R569). -/
opaque certificate : Bytes

/-- The package loads of flash channel n on the board (R608). -/
opaque packageLoads : Nat → Nat

/-- Byte i of the spare area of a vault page (R240), which the spec does not give. -/
opaque vaultSpare : Nat → Byte

/-- The fused SHA-384 digest of a key set (R562). -/
opaque keySetDigest : Nat → Bytes

/-- How Cox derives a key from the fused device secret, which the spec does not give: 0 the device key-encryption key, 1 the device index key (R480,
R481). -/
opaque deriveKey : Nat → Bytes → Bytes

/-- The fused debug key (R570). -/
opaque debugKey : Bytes

/-- The code of an update phase in COX_STATE.PHASE and the quote (0 STEADY, 1 WRITING, 2 TRIAL, 3 RESTORING in the model), which the spec
does not give. -/
opaque phaseCode : Nat → Nat

/-- The LIFE estimate of R132 from the counter of its reading, where the spec gives no formula. -/
opaque lifeEstimate : Nat → Nat

end Sys2Proof.Config
end

