-- ==== Sys2Proof/Machine/Bytes.lean ====
section
/-! DEFINITION. Reading and writing little-endian fields of byte strings (R8): the layouts of the spec give Offset and
Size in bytes, and every structure that belongs to the device is little-endian. -/

namespace Sys2Proof.Machine

/-- The number whose little-endian bytes are given. -/
def leNat : Bytes → Nat
  | [] => 0
  | b :: bs => b.toNat + 256 * leNat bs

/-- The `n` little-endian bytes of `v`. -/
def le : Nat → Nat → Bytes
  | 0, _ => []
  | n + 1, v => BitVec.ofNat 8 v :: le n (v / 256)

/-- The number whose big-endian bytes are given, for the headers of standard protocols (R8). -/
def beNat (bs : Bytes) : Nat := leNat bs.reverse

/-- The `n` big-endian bytes of `v`. -/
def be (n v : Nat) : Bytes := (le n v).reverse

/-- `n` zero bytes. -/
def zeros (n : Nat) : Bytes := List.replicate n 0

/-- `n` bytes of an erased NOR or NAND region. -/
def erased (n : Nat) : Bytes := List.replicate n 0xFF

/-- `n` bytes of `b` from offset `o`; where the string is shorter, fewer. -/
def slice (b : Bytes) (o n : Nat) : Bytes := (b.drop o).take n

/-- The little-endian field of `n` bytes at offset `o`; bytes beyond the end read as 0. -/
def fld (b : Bytes) (o n : Nat) : Nat := leNat (slice b o n)

/-- The bytes padded with zeros, or cut, to exactly `n`. -/
def fit (b : Bytes) (n : Nat) : Bytes := (b ++ zeros (n - b.length)).take n

/-- `b` with `v` in place of its bytes from offset `o`. -/
def patch (b : Bytes) (o : Nat) (v : Bytes) : Bytes := fit b o ++ v ++ b.drop (o + v.length)

/-- Bits [lo + w − 1 : lo] of a number. -/
def bits (v lo w : Nat) : Nat := v / 2 ^ lo % 2 ^ w

/-- Bit `i` of a number. -/
def bitAt (v i : Nat) : Bool := v / 2 ^ i % 2 == 1

/-- A Boolean as a one-bit field. -/
def b2n (b : Bool) : Nat := if b then 1 else 0

/-- The bytes exclusive-ored position by position, as long as the shorter. -/
def xorBytes (a b : Bytes) : Bytes := List.zipWith (· ^^^ ·) a b

/-- Every byte is zero. -/
def allZero (b : Bytes) : Bool := b.all (· == 0)

/-- A signed value in two's complement of `w` bits. -/
def toSigned (v w : Nat) : Int := if v % 2 ^ w < 2 ^ (w - 1) then (v % 2 ^ w : Nat) else ((v % 2 ^ w : Nat) : Int) - (2 ^ w : Nat)

/-- The two's complement of `w` bits of a signed value. -/
def ofSigned (v : Int) (w : Nat) : Nat := (v % (2 ^ w : Nat)).toNat

/-- Rounds up to a multiple of `m`. -/
def alignUp (n m : Nat) : Nat := if m = 0 then n else (n + m - 1) / m * m

/-- Ceiling division. -/
def ceilDiv (n m : Nat) : Nat := if m = 0 then 0 else (n + m - 1) / m

/-- The number of one bits among the lowest `w`. -/
def popcount (v : Nat) : Nat → Nat
  | 0 => 0
  | w + 1 => v / 2 ^ w % 2 + popcount v w

/-- The list of the positions below `w` whose bit is 1, ascending. -/
def bitList (v w : Nat) : List Nat := (List.range w).filter (bitAt v)

/-- Two byte ranges overlap. -/
def overlaps (a n b m : Nat) : Bool := decide (0 < n) && decide (0 < m) && decide (a < b + m) && decide (b < a + n)

end Sys2Proof.Machine
end

