-- ==== Sys2Proof/Machine/Crc.lean ====
section
/-! DEFINITION. The checks the spec names by their published parameters: CRC-32C (the reflected polynomial 0x82F63B78,
initial value and final exclusive-or all ones) and CRC-16/CCITT-FALSE (polynomial 0x1021, initial value 0xFFFF), of R519
and the layouts that carry a CRC field. -/

namespace Sys2Proof.Machine

/-- `n` single-bit steps of CRC-32C. -/
def crc32cBits : Nat → Nat → Nat
  | 0, c => c
  | n + 1, c => crc32cBits n (if c % 2 = 1 then (c / 2) ^^^ 0x82F63B78 else c / 2)

/-- The CRC-32C register after more bytes. -/
def crc32cRun (c : Nat) (bs : Bytes) : Nat := bs.foldl (fun c b => crc32cBits 8 (c ^^^ b.toNat)) c

/-- CRC-32C of a byte string. -/
def crc32c (bs : Bytes) : Nat := crc32cRun 0xFFFFFFFF bs ^^^ 0xFFFFFFFF

/-- `n` single-bit steps of the CRC-32 of Ethernet. -/
def crc32Bits : Nat → Nat → Nat
  | 0, c => c
  | n + 1, c => crc32Bits n (if c % 2 = 1 then (c / 2) ^^^ 0xEDB88320 else c / 2)

/-- The frame check sequence of Ethernet, as a number whose little-endian bytes are sent (IEEE 802.3; log entry 6). -/
def crc32 (bs : Bytes) : Nat := (bs.foldl (fun c b => crc32Bits 8 (c ^^^ b.toNat)) 0xFFFFFFFF) ^^^ 0xFFFFFFFF

/-- `n` single-bit steps of CRC-16/CCITT-FALSE. -/
def crc16Bits : Nat → Nat → Nat
  | 0, c => c
  | n + 1, c => crc16Bits n (if c ≥ 0x8000 then (c * 2 % 0x10000) ^^^ 0x1021 else c * 2)

/-- CRC-16/CCITT-FALSE of a byte string. -/
def crc16 (bs : Bytes) : Nat := bs.foldl (fun c b => crc16Bits 8 (c ^^^ (b.toNat * 256))) 0xFFFF

end Sys2Proof.Machine
end

