-- ==== Sys2Proof/Machine/Crypto.lean ====
section
/-! DEFINITION. The published algorithms the spec names and leaves to their standards: AES-256 with GCM, XTS and RFC 5649
key wrap (CIP), SHA-256 and SHA-384 (DIG), HMAC-SHA-256 and HMAC-SHA-384, SipHash-2-4 (key hashes). PRESUMED from
those standards: the spec gives their names only (log entry 6). -/

namespace Sys2Proof.Machine

/-! ### AES-256 -/

/-- Multiplication in GF(2^8) modulo the given reduction byte (the field polynomial without its leading bit). -/
def gfMulPoly (red : Nat) : Nat → Nat → Nat → Nat
  | 0, _, _ => 0
  | n + 1, a, b =>
    (if b % 2 = 1 then a else 0) ^^^ gfMulPoly red n (if a ≥ 128 then (a * 2 % 256) ^^^ red else a * 2) (b / 2)

/-- Multiplication in the field of AES. -/
def aesMul (a b : Nat) : Nat := gfMulPoly 0x1B 8 a b

/-- The inverse in the field of AES, as the 254th power; 0 maps to 0. -/
def aesInv (a : Nat) : Nat :=
  let a2 := aesMul a a
  let a4 := aesMul a2 a2
  let a8 := aesMul a4 a4
  let a16 := aesMul a8 a8
  let a32 := aesMul a16 a16
  let a64 := aesMul a32 a32
  let a128 := aesMul a64 a64
  aesMul a128 (aesMul a64 (aesMul a32 (aesMul a16 (aesMul a8 (aesMul a4 a2)))))

/-- Rotation of a byte to the left. -/
def rotl8 (v n : Nat) : Nat := (v * 2 ^ n) % 256 + v / 2 ^ (8 - n)

/-- The substitution byte of AES. -/
def aesSbox (a : Nat) : Nat :=
  let b := aesInv a
  b ^^^ rotl8 b 1 ^^^ rotl8 b 2 ^^^ rotl8 b 3 ^^^ rotl8 b 4 ^^^ 0x63

/-- The inverse substitution byte of AES. -/
def aesInvSbox (a : Nat) : Nat := aesInv (rotl8 a 1 ^^^ rotl8 a 3 ^^^ rotl8 a 6 ^^^ 0x05)

/-- The key schedule of AES-256: words 8 to 59 from the words before, newest first in the list. -/
def aesExpand : Nat → Nat → Nat → List (List Nat) → List (List Nat)
  | 0, _, _, ws => ws
  | n + 1, i, rcon, ws =>
    let prev := ws.headD []
    let back := ws.getD 7 []
    let t :=
      if i % 8 = 0 then
        match prev with
        | [a, b, c, d] => [aesSbox b ^^^ rcon, aesSbox c, aesSbox d, aesSbox a]
        | w => w
      else if i % 8 = 4 then prev.map aesSbox else prev
    aesExpand n (i + 1) (if i % 8 = 0 then aesMul rcon 2 else rcon) (List.zipWith (· ^^^ ·) back t :: ws)

/-- The list cut into pieces of `n` elements, at most `fuel` of them. -/
def chunksOf {α : Type} (n : Nat) : Nat → List α → List (List α)
  | 0, _ => []
  | fuel + 1, l => if l.isEmpty then [] else l.take n :: chunksOf n fuel (l.drop n)

/-- The fifteen round keys of AES-256. -/
def aesRoundKeys (key : Bytes) : List (List Nat) :=
  let k := (fit key 32).map BitVec.toNat
  let ws := (aesExpand 52 8 1 (chunksOf 4 8 k).reverse).reverse
  chunksOf 16 15 ws.flatten

/-- The rows of the state shifted: byte r + 4c comes from column c + r. -/
def aesShiftRows (s : List Nat) : List Nat :=
  (List.range 16).map fun i => s.getD (i % 4 + 4 * ((i / 4 + i % 4) % 4)) 0

/-- The rows of the state shifted back. -/
def aesInvShiftRows (s : List Nat) : List Nat :=
  (List.range 16).map fun i => s.getD (i % 4 + 4 * ((i / 4 + 4 - i % 4) % 4)) 0

/-- One column times the circulant matrix of the given coefficients. -/
def aesMixColumn (m : List Nat) (c : List Nat) : List Nat :=
  (List.range 4).map fun r =>
    (List.range 4).foldl (fun acc j => acc ^^^ aesMul (m.getD ((j + 4 - r) % 4) 0) (c.getD j 0)) 0

/-- Every column of the state mixed. -/
def aesMix (m : List Nat) (s : List Nat) : List Nat := ((chunksOf 4 4 s).map (aesMixColumn m)).flatten

/-- The rounds of encryption after the first key addition. -/
def aesEncRounds : List (List Nat) → List Nat → List Nat
  | [], s => s
  | [k], s => List.zipWith (· ^^^ ·) (aesShiftRows (s.map aesSbox)) k
  | k :: ks, s => aesEncRounds ks (List.zipWith (· ^^^ ·) (aesMix [2, 3, 1, 1] (aesShiftRows (s.map aesSbox))) k)

/-- The rounds of decryption after the first key addition, keys from the last to the first. -/
def aesDecRounds : List (List Nat) → List Nat → List Nat
  | [], s => s
  | [k], s => List.zipWith (· ^^^ ·) ((aesInvShiftRows s).map aesInvSbox) k
  | k :: ks, s =>
    aesDecRounds ks (aesMix [14, 11, 13, 9] (List.zipWith (· ^^^ ·) ((aesInvShiftRows s).map aesInvSbox) k))

/-- AES-256 encryption of one block. -/
def aesEnc (key blk : Bytes) : Bytes :=
  let ks := aesRoundKeys key
  let s := List.zipWith (· ^^^ ·) ((fit blk 16).map BitVec.toNat) (ks.headD [])
  (aesEncRounds (ks.drop 1) s).map (BitVec.ofNat 8)

/-- AES-256 decryption of one block. -/
def aesDec (key blk : Bytes) : Bytes :=
  let ks := (aesRoundKeys key).reverse
  let s := List.zipWith (· ^^^ ·) ((fit blk 16).map BitVec.toNat) (ks.headD [])
  (aesDecRounds (ks.drop 1) s).map (BitVec.ofNat 8)

/-! ### GCM -/

/-- Multiplication in GF(2^128) in the bit order of GCM, bit 127 of the number being the first bit. -/
def ghashMul : Nat → Nat → Nat → Nat → Nat
  | 0, _, _, z => z
  | n + 1, x, v, z =>
    ghashMul n x (if v % 2 = 1 then (v / 2) ^^^ (0xE1 * 2 ^ 120) else v / 2) (if bitAt x n then z ^^^ v else z)

/-- GHASH over a byte string whose length is a multiple of 16. -/
def ghash (h : Nat) (b : Bytes) : Nat :=
  (chunksOf 16 (b.length / 16 + 1) b).foldl (fun y blk => ghashMul 128 (y ^^^ beNat (fit blk 16)) h 0) 0

/-- Zero bytes that fill a string up to a multiple of 16. -/
def pad16 (b : Bytes) : Bytes := b ++ zeros ((16 - b.length % 16) % 16)

/-- The key stream of counter mode from counter block `ic`, exclusive-ored with the data. -/
def gctr (key : Bytes) : Nat → Bytes → Bytes → Bytes
  | 0, _, _ => []
  | n + 1, ic, d =>
    if d.isEmpty then [] else
      xorBytes d (aesEnc key ic) ++
        gctr key n (ic.take 12 ++ be 4 ((beNat (ic.drop 12) + 1) % 2 ^ 32)) (d.drop 16)

/-- The counter mode of GCM under a 96-bit IV, which encrypts and decrypts alike. -/
def gcmCrypt (key iv d : Bytes) : Bytes := gctr key (d.length / 16 + 1) (fit iv 12 ++ be 4 2) d

/-- The tag of GCM over associated data and ciphertext. -/
def gcmTag (key iv aad c : Bytes) : Bytes :=
  let h := beNat (aesEnc key (zeros 16))
  let s := ghash h (pad16 aad ++ pad16 c ++ be 8 (8 * aad.length) ++ be 8 (8 * c.length))
  xorBytes (be 16 s) (aesEnc key (fit iv 12 ++ be 4 1))

/-- AES-256-GCM encryption: ciphertext and 16-byte tag. -/
def gcmEnc (key iv aad p : Bytes) : Bytes × Bytes :=
  let c := gcmCrypt key iv p
  (c, gcmTag key iv aad c)

/-- AES-256-GCM decryption: the plaintext when the tag matches. -/
def gcmDec (key iv aad c tag : Bytes) : Option Bytes :=
  if gcmTag key iv aad c = tag then some (gcmCrypt key iv c) else none

/-! ### XTS -/

/-- The next tweak of XTS: multiplication by x in its field, little-endian. -/
def xtsNext (t : Nat) : Nat := if bitAt t 127 then (t * 2 % 2 ^ 128) ^^^ 0x87 else t * 2

/-- XTS over whole blocks from tweak `t`. -/
def xtsBlocks (f : Bytes → Bytes) : Nat → Nat → Bytes → Bytes
  | 0, _, _ => []
  | n + 1, t, d =>
    if d.length < 16 then [] else
      xorBytes (f (xorBytes (d.take 16) (le 16 t))) (le 16 t) ++ xtsBlocks f n (xtsNext t) (d.drop 16)

/-- AES-256-XTS of one data unit: the data key is the first half, the tweak key the second half of 64 bytes. -/
def xtsUnit (enc : Bool) (key : Bytes) (tweak : Nat) (d : Bytes) : Bytes :=
  let t := leNat (aesEnc (key.drop 32) (le 16 tweak))
  xtsBlocks (if enc then aesEnc (key.take 32) else aesDec (key.take 32)) (d.length / 16) t d

/-- AES-256-XTS of consecutive data units of `unit` bytes from tweak `tweak`. -/
def xtsRun (enc : Bool) (key : Bytes) (unit : Nat) : Nat → Nat → Bytes → Bytes
  | 0, _, _ => []
  | n + 1, tweak, d =>
    if d.isEmpty then [] else
      xtsUnit enc key tweak (d.take unit) ++ xtsRun enc key unit n ((tweak + 1) % 2 ^ 128) (d.drop unit)

/-! ### Key wrap of RFC 5649 -/

/-- One step of wrapping on the register A and the blocks R, for step number `t`. -/
def kwStep (key : Bytes) (t : Nat) (a : Bytes) (r : Bytes) : Bytes × Bytes :=
  let b := aesEnc key (a ++ r)
  (xorBytes (b.take 8) (be 8 t), b.drop 8)

/-- One pass of wrapping over the blocks. -/
def kwPass (key : Bytes) : Nat → Bytes → List Bytes → Bytes × List Bytes
  | _, a, [] => (a, [])
  | t, a, r :: rs =>
    let p := kwStep key t a r
    let q := kwPass key (t + 1) p.1 rs
    (q.1, p.2 :: q.2)

/-- The six passes of wrapping. -/
def kwPasses (key : Bytes) (n : Nat) : Nat → Nat → Bytes → List Bytes → Bytes × List Bytes
  | 0, _, a, rs => (a, rs)
  | k + 1, t, a, rs =>
    let p := kwPass key t a rs
    kwPasses key n k (t + n) p.1 p.2

/-- RFC 5649 wrap of a plaintext of at least one byte. -/
def kwpWrap (kek p : Bytes) : Bytes :=
  let aiv : Bytes := [0xA6, 0x59, 0x59, 0xA6] ++ be 4 p.length
  let pp := p ++ zeros ((8 - p.length % 8) % 8)
  let n := pp.length / 8
  if n = 1 then aesEnc kek (aiv ++ pp)
  else
    let q := kwPasses kek n 6 1 aiv (chunksOf 8 n pp)
    q.1 ++ q.2.flatten

/-- One step of unwrapping. -/
def kwUnstep (key : Bytes) (t : Nat) (a : Bytes) (r : Bytes) : Bytes × Bytes :=
  let b := aesDec key (xorBytes a (be 8 t) ++ r)
  (b.take 8, b.drop 8)

/-- One pass of unwrapping over the blocks in descending order. -/
def kwUnpass (key : Bytes) : Nat → Bytes → List Bytes → Bytes × List Bytes
  | _, a, [] => (a, [])
  | t, a, r :: rs =>
    let p := kwUnstep key t a r
    let q := kwUnpass key (t - 1) p.1 rs
    (q.1, p.2 :: q.2)

/-- The six passes of unwrapping. -/
def kwUnpasses (key : Bytes) (n : Nat) : Nat → Nat → Bytes → List Bytes → Bytes × List Bytes
  | 0, _, a, rs => (a, rs)
  | k + 1, t, a, rs =>
    let p := kwUnpass key t a rs
    kwUnpasses key n k (t - n) p.1 p.2

/-- RFC 5649 unwrap: the plaintext, or none where the integrity check fails. -/
def kwpUnwrap (kek c : Bytes) : Option Bytes :=
  let n := c.length / 8 - 1
  let ap : Bytes × Bytes :=
    if n = 1 then ((aesDec kek c).take 8, (aesDec kek c).drop 8)
    else
      let q := kwUnpasses kek n 6 (6 * n) (c.take 8) (chunksOf 8 n (c.drop 8)).reverse
      (q.1, q.2.reverse.flatten)
  let mli := beNat (ap.1.drop 4)
  if c.length % 8 = 0 ∧ c.length ≥ 16 ∧ ap.1.take 4 = [0xA6, 0x59, 0x59, 0xA6] ∧ 8 * (n - 1) < mli ∧ mli ≤ 8 * n ∧
      allZero (ap.2.drop mli) = true
  then some (ap.2.take mli) else none

/-! ### SHA-2 -/

/-- Rotation of a `w`-bit number to the right. -/
def rotr (w v n : Nat) : Nat := v / 2 ^ n + (v % 2 ^ n) * 2 ^ (w - n)

/-- The rotation amounts of one SHA-2 word size: Σ0, Σ1, then σ0 and σ1 (two rotations and a shift each). -/
structure Sha2 where
  w : Nat
  big0 : Nat × Nat × Nat
  big1 : Nat × Nat × Nat
  small0 : Nat × Nat × Nat
  small1 : Nat × Nat × Nat
  k : List Nat

/-- Σ: three rotations exclusive-ored. -/
def shaBig (w : Nat) (r : Nat × Nat × Nat) (x : Nat) : Nat := rotr w x r.1 ^^^ rotr w x r.2.1 ^^^ rotr w x r.2.2

/-- σ: two rotations and a shift exclusive-ored. -/
def shaSmall (w : Nat) (r : Nat × Nat × Nat) (x : Nat) : Nat := rotr w x r.1 ^^^ rotr w x r.2.1 ^^^ (x / 2 ^ r.2.2)

/-- The message schedule, newest word first. -/
def shaSched (p : Sha2) : Nat → List Nat → List Nat
  | 0, ws => ws
  | n + 1, ws =>
    shaSched p n ((shaSmall p.w p.small1 (ws.getD 1 0) + ws.getD 6 0 + shaSmall p.w p.small0 (ws.getD 14 0) +
      ws.getD 15 0) % 2 ^ p.w :: ws)

/-- One round on the eight working variables. -/
def shaRound (p : Sha2) (v : List Nat) (kw : Nat × Nat) : List Nat :=
  match v with
  | [a, b, c, d, e, f, g, h] =>
    let ch := (e &&& f) ^^^ ((2 ^ p.w - 1 - e) &&& g)
    let maj := (a &&& b) ^^^ (a &&& c) ^^^ (b &&& c)
    let t1 := h + shaBig p.w p.big1 e + ch + kw.1 + kw.2
    let t2 := shaBig p.w p.big0 a + maj
    [(t1 + t2) % 2 ^ p.w, a, b, c, (d + t1) % 2 ^ p.w, e, f, g]
  | v => v

/-- One block compressed into the chaining value. -/
def shaBlock (p : Sha2) (hv : List Nat) (blk : Bytes) : List Nat :=
  let m := (chunksOf (p.w / 8) 16 blk).map beNat
  let ws := (shaSched p (p.k.length - 16) m.reverse).reverse
  let v := (List.zip p.k ws).foldl (shaRound p) hv
  List.zipWith (fun x y => (x + y) % 2 ^ p.w) hv v

/-- The padding of SHA-2 for a message of `n` bytes. -/
def shaPad (p : Sha2) (n : Nat) : Bytes :=
  let blk := p.w * 2
  let len := p.w / 4
  (0x80 : Byte) :: zeros ((2 * blk - 1 - len - n % blk) % blk) ++ be len (8 * n)

/-- SHA-2 over a byte string from an initial chaining value. -/
def sha2 (p : Sha2) (iv : List Nat) (b : Bytes) : Bytes :=
  let m := b ++ shaPad p b.length
  (((chunksOf (p.w * 2) (m.length / (p.w * 2)) m).foldl (shaBlock p) iv).map (be (p.w / 8))).flatten

/-- The first 80 primes, which SHA-2 takes its constants from. -/
def shaPrimes : List Nat :=
  (List.range 410).filter fun n => n ≥ 2 && (List.range 21).all fun d => d < 2 || d ≥ n || n % d != 0

/-- The `r`-th root of `p` in units of 2^-64, rounded down: its bits below bit `k`, added to `x`. -/
def rootBits (r p : Nat) : Nat → Nat → Nat
  | 0, x => x
  | k + 1, x => rootBits r p k (if (x + 2 ^ k) ^ r ≤ p * 2 ^ (64 * r) then x + 2 ^ k else x)

/-- The first 64 bits behind the point of the `r`-th root of `p`. -/
def rootFrac (r p : Nat) : Nat := rootBits r p 70 0 % 2 ^ 64

/-- The round constants of SHA-384: the cube roots of the first 80 primes. Those of SHA-256 are the upper halves of the
first 64. -/
def sha512K : List Nat := shaPrimes.map (rootFrac 3)

/-- The parameters of SHA-256. -/
def sha256P : Sha2 :=
  ⟨32, (2, 13, 22), (6, 11, 25), (7, 18, 3), (17, 19, 10), (sha512K.take 64).map (· / 2 ^ 32)⟩

/-- The parameters of SHA-384. -/
def sha384P : Sha2 := ⟨64, (28, 34, 39), (14, 18, 41), (1, 8, 7), (19, 61, 6), sha512K⟩

/-- SHA-256, whose chaining value begins with the square roots of the first eight primes. -/
def sha256 (b : Bytes) : Bytes := sha2 sha256P ((shaPrimes.take 8).map fun p => rootFrac 2 p / 2 ^ 32) b

/-- SHA-384: the first 48 bytes of the chaining value, which begins with the square roots of the ninth to sixteenth primes. -/
def sha384 (b : Bytes) : Bytes := (sha2 sha384P (((shaPrimes.drop 8).take 8).map (rootFrac 2)) b).take 48

/-- HMAC over a hash with the given block size. -/
def hmac (h : Bytes → Bytes) (blk : Nat) (key msg : Bytes) : Bytes :=
  let k := fit (if key.length > blk then h key else key) blk
  h (k.map (· ^^^ 0x5C) ++ h (k.map (· ^^^ 0x36) ++ msg))

/-- HMAC-SHA-256. -/
def hmacSha256 (key msg : Bytes) : Bytes := hmac sha256 64 key msg

/-- HMAC-SHA-384. -/
def hmacSha384 (key msg : Bytes) : Bytes := hmac sha384 128 key msg

/-! ### SipHash-2-4 -/

/-- Rotation of a 64-bit number to the left. -/
def rotl64 (v n : Nat) : Nat := (v * 2 ^ n) % 2 ^ 64 + v / 2 ^ (64 - n)

/-- The four words of SipHash. -/
structure Sip where
  v0 : Nat
  v1 : Nat
  v2 : Nat
  v3 : Nat

/-- `n` rounds of SipHash. -/
def sipRounds : Nat → Sip → Sip
  | 0, s => s
  | n + 1, s =>
    let v0 := (s.v0 + s.v1) % 2 ^ 64
    let v1 := rotl64 s.v1 13 ^^^ v0
    let v0 := rotl64 v0 32
    let v2 := (s.v2 + s.v3) % 2 ^ 64
    let v3 := rotl64 s.v3 16 ^^^ v2
    let v0 := (v0 + v3) % 2 ^ 64
    let v3 := rotl64 v3 21 ^^^ v0
    let v2 := (v2 + v1) % 2 ^ 64
    let v1 := rotl64 v1 17 ^^^ v2
    let v2 := rotl64 v2 32
    sipRounds n ⟨v0, v1, v2, v3⟩

/-- One message word taken into SipHash. -/
def sipWord (s : Sip) (m : Nat) : Sip :=
  let t := sipRounds 2 { s with v3 := s.v3 ^^^ m }
  { t with v0 := t.v0 ^^^ m }

/-- SipHash-2-4 of a byte string under a 16-byte key. -/
def sipHash24 (key msg : Bytes) : Nat :=
  let k0 := fld key 0 8
  let k1 := fld key 8 8
  let s : Sip := ⟨k0 ^^^ 0x736f6d6570736575, k1 ^^^ 0x646f72616e646f6d, k0 ^^^ 0x6c7967656e657261, k1 ^^^ 0x7465646279746573⟩
  let full := msg.length / 8
  let s := (chunksOf 8 full (msg.take (8 * full))).foldl (fun s w => sipWord s (leNat w)) s
  let s := sipWord s (leNat (msg.drop (8 * full)) + (msg.length % 256) * 2 ^ 56)
  let s := sipRounds 4 { s with v2 := s.v2 ^^^ 0xFF }
  s.v0 ^^^ s.v1 ^^^ s.v2 ^^^ s.v3

end Sys2Proof.Machine
end

