-- ==== Sys2Proof/Machine/EventCodes.lean ====
section
/-! DEFINITION. The event codes of Table 20-4. -/

namespace Sys2Proof.Machine.EV

/-- EV_START, 0x1001. -/
def start : Nat := 0x1001
/-- EV_GROUP_STATE, 0x3001. -/
def groupState : Nat := 0x3001
/-- EV_PFAIL, 0x1002. -/
def pfail : Nat := 0x1002
/-- EV_SEAT_LOST, 0x3002. -/
def seatLost : Nat := 0x3002
/-- EV_POWER_STATE, 0x1003. -/
def powerState : Nat := 0x1003
/-- EV_SEAT_FROZEN, 0x3003. -/
def seatFrozen : Nat := 0x3003
/-- EV_POWER_REFUSED, 0x1004. -/
def powerRefused : Nat := 0x1004
/-- EV_FAULT_REPLAN, 0x3004. -/
def faultReplan : Nat := 0x3004
/-- EV_WAKE, 0x1005. -/
def wake : Nat := 0x1005
/-- EV_FRAGMENT_MISSING, 0x3005. -/
def fragmentMissing : Nat := 0x3005
/-- EV_THERMAL_STEP, 0x1006. -/
def thermalStep : Nat := 0x1006
/-- EV_FRAGMENT_REPAIRED, 0x3006. -/
def fragmentRepaired : Nat := 0x3006
/-- EV_THERMAL_SHUTDOWN, 0x1007. -/
def thermalShutdown : Nat := 0x1007
/-- EV_FRAGMENT_CONFLICT, 0x3007. -/
def fragmentConflict : Nat := 0x3007
/-- EV_JOURNAL_LIMITED, 0x1008. -/
def journalLimited : Nat := 0x1008
/-- EV_DEGRADED_READ, 0x3008. -/
def degradedRead : Nat := 0x3008
/-- EV_ENERGY_LOW, 0x1009. -/
def energyLow : Nat := 0x1009
/-- EV_PARITY_MISMATCH, 0x3009. -/
def parityMismatch : Nat := 0x3009
/-- EV_VAULT_RESTORED, 0x100A. -/
def vaultRestored : Nat := 0x100A
/-- EV_PARITY_REPAIRED, 0x300A. -/
def parityRepaired : Nat := 0x300A
/-- EV_VAULT_INCOMPLETE, 0x100B. -/
def vaultIncomplete : Nat := 0x100B
/-- EV_INTEGRITY_FAILED, 0x300B. -/
def integrityFailed : Nat := 0x300B
/-- EV_CLOCK_SET, 0x100C. -/
def clockSet : Nat := 0x100C
/-- EV_STRIPE_LOST, 0x300C. -/
def stripeLost : Nat := 0x300C
/-- EV_CLOCK_FORCED, 0x100D. -/
def clockForced : Nat := 0x100D
/-- EV_SLICE_ORPHANED, 0x300D. -/
def sliceOrphaned : Nat := 0x300D
/-- EV_BLOCK_RETIRED, 0x2001. -/
def blockRetired : Nat := 0x2001
/-- EV_REBUILD_BEGUN, 0x300E. -/
def rebuildBegun : Nat := 0x300E
/-- EV_PROGRAM_FAILED, 0x2002. -/
def programFailed : Nat := 0x2002
/-- EV_REBUILD_ENDED, 0x300F. -/
def rebuildEnded : Nat := 0x300F
/-- EV_PAGE_UNCORRECTABLE, 0x2003. -/
def pageUncorrectable : Nat := 0x2003
/-- EV_INTENT_RESOLVED, 0x3010. -/
def intentResolved : Nat := 0x3010
/-- EV_REFRESH, 0x2004. -/
def refresh : Nat := 0x2004
/-- EV_PAIR_PATH, 0x3011. -/
def pairPath : Nat := 0x3011
/-- EV_SWEEP_CYCLE, 0x2005. -/
def sweepCycle : Nat := 0x2005
/-- EV_PAIR_SOLO, 0x3012. -/
def pairSolo : Nat := 0x3012
/-- EV_NOTES_LOST, 0x2006. -/
def notesLost : Nat := 0x2006
/-- EV_LEASE_LOST, 0x3013. -/
def leaseLost : Nat := 0x3013
/-- EV_LUN_FAILED, 0x2007. -/
def lunFailed : Nat := 0x2007
/-- EV_TAKEOVER, 0x3014. -/
def takeover : Nat := 0x3014
/-- EV_SPARES_LOW, 0x2008. -/
def sparesLow : Nat := 0x2008
/-- EV_HANDBACK, 0x3015. -/
def handback : Nat := 0x3015
/-- EV_READ_ONLY, 0x2009. -/
def readOnly : Nat := 0x2009
/-- EV_EPOCH_CHANGED, 0x3016. -/
def epochChanged : Nat := 0x3016
/-- EV_MEDIA_FULL, 0x200A. -/
def mediaFull : Nat := 0x200A
/-- EV_EPOCH_ABORTED, 0x3017. -/
def epochAborted : Nat := 0x3017
/-- EV_MAP_FULL_SCAN, 0x200B. -/
def mapFullScan : Nat := 0x200B
/-- EV_RIG_STAGED, 0x3018. -/
def rigStaged : Nat := 0x3018
/-- EV_VAULT_SET_REPLACED, 0x200C. -/
def vaultSetReplaced : Nat := 0x200C
/-- EV_RIG_REJECTED, 0x3019. -/
def rigRejected : Nat := 0x3019
/-- EV_FLASH_INIT_FAILED, 0x200D. -/
def flashInitFailed : Nat := 0x200D
/-- EV_RIG_ACTIVATED, 0x301A. -/
def rigActivated : Nat := 0x301A
/-- EV_FLASH_SEQ_FAULT, 0x200E. -/
def flashSeqFault : Nat := 0x200E
/-- EV_AUTH_FAILED, 0x4001. -/
def authFailed : Nat := 0x4001
/-- EV_FLASH_TIMEOUT, 0x200F. -/
def flashTimeout : Nat := 0x200F
/-- EV_PEER_AUTH_FAILED, 0x4002. -/
def peerAuthFailed : Nat := 0x4002
/-- EV_LUN_UNRESPONSIVE, 0x2010. -/
def lunUnresponsive : Nat := 0x2010
/-- EV_PAIR_FRAME_REJECTED, 0x4003. -/
def pairFrameRejected : Nat := 0x4003
/-- EV_INDEX_BUCKET_FULL, 0x2011. -/
def indexBucketFull : Nat := 0x2011
/-- EV_SVC_AUTH_FAILED, 0x4004. -/
def svcAuthFailed : Nat := 0x4004
/-- EV_INDEX_REBUILT, 0x2012. -/
def indexRebuilt : Nat := 0x2012
/-- EV_SVC_KEY_SET, 0x4005. -/
def svcKeySet : Nat := 0x4005
/-- EV_KEY_ALIAS, 0x2013. -/
def keyAlias : Nat := 0x2013
/-- EV_KEY_UNWRAP_FAILED, 0x4006. -/
def keyUnwrapFailed : Nat := 0x4006
/-- EV_BOOT_FAILED, 0x5001. -/
def bootFailed : Nat := 0x5001
/-- EV_NS_CHANGED, 0x4007. -/
def nsChanged : Nat := 0x4007
/-- EV_FW_CONFIRMED, 0x5002. -/
def fwConfirmed : Nat := 0x5002
/-- EV_TENANT_CHANGED, 0x4008. -/
def tenantChanged : Nat := 0x4008
/-- EV_FW_FALLBACK, 0x5003. -/
def fwFallback : Nat := 0x5003
/-- EV_DEBUG_UNLOCKED, 0x4009. -/
def debugUnlocked : Nat := 0x4009
/-- EV_WATCHDOG, 0x5004. -/
def watchdog : Nat := 0x5004
/-- EV_DEBUG_DENIED, 0x400A. -/
def debugDenied : Nat := 0x400A
/-- EV_HALTED, 0x5005. -/
def halted : Nat := 0x5005
/-- EV_LOG_CLEARED, 0x400B. -/
def logCleared : Nat := 0x400B
/-- EV_PORT_LINK, 0x6001. -/
def portLink : Nat := 0x6001
/-- EV_FABRIC_ERROR, 0x7001. -/
def fabricError : Nat := 0x7001
/-- EV_MAC_RING_ERROR, 0x6002. -/
def macRingError : Nat := 0x6002
/-- EV_CACHE_WAY_DISABLED, 0x7002. -/
def cacheWayDisabled : Nat := 0x7002
/-- EV_CACHE_UNCORRECTABLE, 0x7003. -/
def cacheUncorrectable : Nat := 0x7003
/-- EV_WQ_ERROR, 0x7004. -/
def wqError : Nat := 0x7004
/-- EV_DMA_HALT, 0x7005. -/
def dmaHalt : Nat := 0x7005
/-- EV_PENT_MISSED, 0x7006. -/
def pentMissed : Nat := 0x7006

end Sys2Proof.Machine.EV
end

