-- ==== Sys2Proof/Machine/RegNames.lean ====
section
/-! DEFINITION. The name of every register field of the spec: its register's address (Table 01-7 plus the offset of
the register table named beside it), its lowest bit, its width and its reset value (R9, R11). A register that exists
several times takes its indices as arguments, in the order of the address formula. -/

namespace Sys2Proof.Machine.F

/-- The buckets of the codes that Table 20-4 marks (E): their LOG_RL_OVR entries reset to 255 (R585). -/
def exemptBuckets : List Nat := [1, 2, 7, 9, 11, 13, 134, 135, 136, 137, 138, 139, 258, 259, 269, 276, 277, 278, 279, 282, 389, 393, 394, 395, 513, 514, 515, 516, 517, 770, 771, 774]

/-- The reset value of LOG_RL_OVR entry b (R585). -/
def ovrReset (b : Nat) : Nat := if exemptBuckets.contains b then 255 else 0

/-- IRQ_SRC_ROUTE.ENABLE, [31], RW, Table 01-10. -/
def IRQ_SRC_ROUTE_ENABLE (i : Nat) : Fld := ⟨0x100800000 + 4 * i, 31, 1, 0⟩
/-- IRQ_SRC_ROUTE.PRIO, [11:8], RW, Table 01-10. -/
def IRQ_SRC_ROUTE_PRIO (i : Nat) : Fld := ⟨0x100800000 + 4 * i, 8, 4, 0⟩
/-- IRQ_SRC_ROUTE.CORE, [2:0], RW, Table 01-10. -/
def IRQ_SRC_ROUTE_CORE (i : Nat) : Fld := ⟨0x100800000 + 4 * i, 0, 3, 0⟩
/-- IRQ_PEND.PEND, [31:0], RO, Table 01-10. -/
def IRQ_PEND_PEND (w : Nat) : Fld := ⟨0x100801000 + 4 * w, 0, 32, 0⟩
/-- IRQ_THRESH.LEVEL, [3:0], RW, Table 01-11. -/
def IRQ_THRESH_LEVEL (c : Nat) : Fld := ⟨0x100802000 + 0x100 * c, 0, 4, 0⟩
/-- IRQ_CLAIM.ID, [8:0], RC, Table 01-11. -/
def IRQ_CLAIM_ID (c : Nat) : Fld := ⟨0x100802004 + 0x100 * c, 0, 9, 0⟩
/-- IRQ_COMPLETE.ID, [8:0], WO, Table 01-11. -/
def IRQ_COMPLETE_ID (c : Nat) : Fld := ⟨0x100802008 + 0x100 * c, 0, 9, 0⟩
/-- IRQ_MTIMECMP.TIME, [63:0], RW, Table 01-11. -/
def IRQ_MTIMECMP_TIME (c : Nat) : Fld := ⟨0x100802010 + 0x100 * c, 0, 64, 0xFFFFFFFFFFFFFFFF⟩
/-- IRQ_MTIME.TIME, [63:0], RO, Table 01-11. -/
def IRQ_MTIME_TIME : Fld := ⟨0x100803000, 0, 64, 0⟩
/-- FAB_ERR_STATUS.VALID, [31], W1C, Table 01-12. -/
def FAB_ERR_STATUS_VALID : Fld := ⟨0x100900000, 31, 1, 0⟩
/-- FAB_ERR_STATUS.OVERFLOW, [30], W1C, Table 01-12. -/
def FAB_ERR_STATUS_OVERFLOW : Fld := ⟨0x100900000, 30, 1, 0⟩
/-- FAB_ERR_INFO.KIND, [11:8], RO, Table 01-12. -/
def FAB_ERR_INFO_KIND : Fld := ⟨0x100900004, 8, 4, 0⟩
/-- FAB_ERR_INFO.DIR, [4], RO, Table 01-12. -/
def FAB_ERR_INFO_DIR : Fld := ⟨0x100900004, 4, 1, 0⟩
/-- FAB_ERR_INFO.RID, [3:0], RO, Table 01-12. -/
def FAB_ERR_INFO_RID : Fld := ⟨0x100900004, 0, 4, 0⟩
/-- FAB_ERR_ADDR.ADDR, [47:0], RO, Table 01-12. -/
def FAB_ERR_ADDR_ADDR : Fld := ⟨0x100900008, 0, 48, 0⟩
/-- FAB_ERR_COUNT.COUNT, [15:0], RC, Table 01-12. -/
def FAB_ERR_COUNT_COUNT : Fld := ⟨0x100900010, 0, 16, 0⟩
/-- HTE_CTRL.ACCEPT, [31], RW, Table 02-9. -/
def HTE_CTRL_ACCEPT : Fld := ⟨0x10C300000, 31, 1, 0⟩
/-- HTE_CTRL.FASTPATH, [30], RW, Table 02-9. -/
def HTE_CTRL_FASTPATH : Fld := ⟨0x10C300000, 30, 1, 0⟩
/-- HTE_EXC_QUEUE.VALID, [31], RW, Table 02-9. -/
def HTE_EXC_QUEUE_VALID : Fld := ⟨0x10C300004, 31, 1, 0⟩
/-- HTE_EXC_QUEUE.QUEUE, [12:0], RW, Table 02-9. -/
def HTE_EXC_QUEUE_QUEUE : Fld := ⟨0x10C300004, 0, 13, 0⟩
/-- HTE_SESS_HOLD.REQ, [31], RW, Table 02-9. -/
def HTE_SESS_HOLD_REQ : Fld := ⟨0x10C300008, 31, 1, 0⟩
/-- HTE_SESS_HOLD.HELD, [30], RO, Table 02-9. -/
def HTE_SESS_HOLD_HELD : Fld := ⟨0x10C300008, 30, 1, 0⟩
/-- HTE_SESS_HOLD.SESSION, [15:0], RW, Table 02-9. -/
def HTE_SESS_HOLD_SESSION : Fld := ⟨0x10C300008, 0, 16, 0⟩
/-- HTE_BUSY_HINT.MICROS, [31:0], RW, Table 02-9. -/
def HTE_BUSY_HINT_MICROS : Fld := ⟨0x10C30000C, 0, 32, 0x64⟩
/-- HTE_OUTSTANDING.COUNT, [18:0], RO, Table 02-9. -/
def HTE_OUTSTANDING_COUNT : Fld := ⟨0x10C300010, 0, 19, 0⟩
/-- HTE_SESSIONS.OPEN, [16:0], RO, Table 02-9. -/
def HTE_SESSIONS_OPEN : Fld := ⟨0x10C300014, 0, 17, 0⟩
/-- HTE_CNT_BUSY.COUNT, [31:0], RC, Table 02-9. -/
def HTE_CNT_BUSY_COUNT : Fld := ⟨0x10C300020, 0, 32, 0⟩
/-- HTE_CNT_MALFORMED.COUNT, [31:0], RC, Table 02-9. -/
def HTE_CNT_MALFORMED_COUNT : Fld := ⟨0x10C300024, 0, 32, 0⟩
/-- HTE_CNT_REDIRECT.COUNT, [31:0], RC, Table 02-9. -/
def HTE_CNT_REDIRECT_COUNT : Fld := ⟨0x10C300028, 0, 32, 0⟩
/-- HTE_CNT_AUTH_FAIL.COUNT, [31:0], RC, Table 02-9. -/
def HTE_CNT_AUTH_FAIL_COUNT : Fld := ⟨0x10C30002C, 0, 32, 0⟩
/-- HTE_CNT_CNP_RX.COUNT, [31:0], RC, Table 02-9. -/
def HTE_CNT_CNP_RX_COUNT : Fld := ⟨0x10C300030, 0, 32, 0⟩
/-- HTE_CNT_CNP_TX.COUNT, [31:0], RC, Table 02-9. -/
def HTE_CNT_CNP_TX_COUNT : Fld := ⟨0x10C300034, 0, 32, 0⟩
/-- HTE_CMD_BASE.ADDR, [47:12], RW, Table 02-9. -/
def HTE_CMD_BASE_ADDR : Fld := ⟨0x10C300058, 12, 36, 0⟩
/-- HTE_CAP_BASE.ADDR, [47:12], RW, Table 02-9. -/
def HTE_CAP_BASE_ADDR : Fld := ⟨0x10C300060, 12, 36, 0⟩
/-- HTE_QBIND.VALID, [31], RW, Table 02-9. -/
def HTE_QBIND_VALID (q : Nat) : Fld := ⟨0x10C300070 + 4 * q, 31, 1, 0⟩
/-- HTE_QBIND.QUEUE, [12:0], RW, Table 02-9. -/
def HTE_QBIND_QUEUE (q : Nat) : Fld := ⟨0x10C300070 + 4 * q, 0, 13, 0⟩
/-- HTE_DIR_BASE.ADDR, [47:12], RW, Table 04-3. -/
def HTE_DIR_BASE_ADDR : Fld := ⟨0x10C300040, 12, 36, 0⟩
/-- HTE_SLICE_BASE.ADDR, [47:12], RW, Table 04-3. -/
def HTE_SLICE_BASE_ADDR : Fld := ⟨0x10C300048, 12, 36, 0⟩
/-- HTE_BCACHE_BASE.ADDR, [47:14], RW, Table 04-3. -/
def HTE_BCACHE_BASE_ADDR : Fld := ⟨0x10C300050, 14, 34, 0⟩
/-- PJ_CTRL.ENABLE, [31], RW, Table 06-18. -/
def PJ_CTRL_ENABLE : Fld := ⟨0x10F200000, 31, 1, 0⟩
/-- PJ_CTRL.DUMP_ARM, [30], RW, Table 06-18. -/
def PJ_CTRL_DUMP_ARM : Fld := ⟨0x10F200000, 30, 1, 0⟩
/-- PJ_CTRL.RESTORE, [29], WO, Table 06-18. -/
def PJ_CTRL_RESTORE : Fld := ⟨0x10F200000, 29, 1, 0⟩
/-- PJ_CTRL.SIZE, [4:0], RW, Table 06-18. -/
def PJ_CTRL_SIZE : Fld := ⟨0x10F200000, 0, 5, 0⟩
/-- PJ_LIMIT.UNITS, [4:0], RO, Table 06-18. -/
def PJ_LIMIT_UNITS : Fld := ⟨0x10F200004, 0, 5, 0⟩
/-- PJ_STATUS.RESTORED, [31], W1C, Table 06-18. -/
def PJ_STATUS_RESTORED : Fld := ⟨0x10F200008, 31, 1, 0⟩
/-- PJ_STATUS.INCOMPLETE, [30], W1C, Table 06-18. -/
def PJ_STATUS_INCOMPLETE : Fld := ⟨0x10F200008, 30, 1, 0⟩
/-- PJ_STATUS.DUMPING, [29], RO, Table 06-18. -/
def PJ_STATUS_DUMPING : Fld := ⟨0x10F200008, 29, 1, 0⟩
/-- PJ_STATUS.IMAGE_UNITS, [4:0], RO, Table 06-18. -/
def PJ_STATUS_IMAGE_UNITS : Fld := ⟨0x10F200008, 0, 5, 0⟩
/-- PJ_RING_HWM.PCT, [6:0], RW, Table 06-18. -/
def PJ_RING_HWM_PCT : Fld := ⟨0x10F20000C, 0, 7, 0x4B⟩
/-- PJ_DUMP_SEQ.SEQ, [63:0], RW, Table 06-18. -/
def PJ_DUMP_SEQ_SEQ : Fld := ⟨0x10F200010, 0, 64, 0⟩
/-- PJ_FOUND_SEQ.SEQ, [63:0], RO, Table 06-18. -/
def PJ_FOUND_SEQ_SEQ : Fld := ⟨0x10F200018, 0, 64, 0⟩
/-- PJ_TAIL.OFFSET, [63:0], RO, Table 06-18. -/
def PJ_TAIL_OFFSET : Fld := ⟨0x10F200020, 0, 64, 0⟩
/-- PJ_HEAD.OFFSET, [63:0], RO, Table 06-18. -/
def PJ_HEAD_OFFSET : Fld := ⟨0x10F200028, 0, 64, 0⟩
/-- PJ_ALLOC.FULL, [63], RO, Table 06-18. -/
def PJ_ALLOC_FULL (c : Nat) : Fld := ⟨0x10F200100 + 0x10 * c, 63, 1, 0⟩
/-- PJ_ALLOC.OFFSET, [39:0], RC, Table 06-18. -/
def PJ_ALLOC_OFFSET (c : Nat) : Fld := ⟨0x10F200100 + 0x10 * c, 0, 40, 0⟩
/-- PJ_ALLOC_SEQ.RSEQ, [63:0], RO, Table 06-18. -/
def PJ_ALLOC_SEQ_RSEQ (c : Nat) : Fld := ⟨0x10F200108 + 0x10 * c, 0, 64, 0⟩
/-- PJ_ALLOC_REQ.BYTES, [31:0], WO, Table 06-18. -/
def PJ_ALLOC_REQ_BYTES (c : Nat) : Fld := ⟨0x10F200180 + 4 * c, 0, 32, 0⟩
/-- PJ_VMAP.VALID, [63], RW, Table 06-18. -/
def PJ_VMAP_VALID (i : Nat) : Fld := ⟨0x10F202000 + 8 * i, 63, 1, 0⟩
/-- PJ_VMAP.CHANNEL, [39:35], RW, Table 06-18. -/
def PJ_VMAP_CHANNEL (i : Nat) : Fld := ⟨0x10F202000 + 8 * i, 35, 5, 0⟩
/-- PJ_VMAP.CE, [34:32], RW, Table 06-18. -/
def PJ_VMAP_CE (i : Nat) : Fld := ⟨0x10F202000 + 8 * i, 32, 3, 0⟩
/-- PJ_VMAP.LUN, [31:30], RW, Table 06-18. -/
def PJ_VMAP_LUN (i : Nat) : Fld := ⟨0x10F202000 + 8 * i, 30, 2, 0⟩
/-- PJ_VMAP.ROW, [23:0], RW, Table 06-18. -/
def PJ_VMAP_ROW (i : Nat) : Fld := ⟨0x10F202000 + 8 * i, 0, 24, 0⟩
/-- ES_CTRL.TEST, [31], WO, Table 06-20. -/
def ES_CTRL_TEST : Fld := ⟨0x10F300000, 31, 1, 0⟩
/-- ES_CTRL.AUTO, [30], RW, Table 06-20. -/
def ES_CTRL_AUTO : Fld := ⟨0x10F300000, 30, 1, 1⟩
/-- ES_CTRL.TEST_MS, [7:0], RW, Table 06-20. -/
def ES_CTRL_TEST_MS : Fld := ⟨0x10F300000, 0, 8, 0xA⟩
/-- ES_STATUS.BUSY, [31], RO, Table 06-20. -/
def ES_STATUS_BUSY : Fld := ⟨0x10F300004, 31, 1, 0⟩
/-- ES_STATUS.DONE, [30], W1C, Table 06-20. -/
def ES_STATUS_DONE : Fld := ⟨0x10F300004, 30, 1, 0⟩
/-- ES_STATUS.ABORTED, [29], W1C, Table 06-20. -/
def ES_STATUS_ABORTED : Fld := ⟨0x10F300004, 29, 1, 0⟩
/-- ES_STATUS.PFAIL, [28], RO, Table 06-20. -/
def ES_STATUS_PFAIL : Fld := ⟨0x10F300004, 28, 1, 0⟩
/-- ES_RTEST.MILLIOHM, [15:0], RWL, Table 06-20. -/
def ES_RTEST_MILLIOHM : Fld := ⟨0x10F300008, 0, 16, 0⟩
/-- ES_VMIN.MV, [15:0], RWL, Table 06-20. -/
def ES_VMIN_MV : Fld := ⟨0x10F30000C, 0, 16, 0⟩
/-- ES_EFF.PCT, [6:0], RWL, Table 06-20. -/
def ES_EFF_PCT : Fld := ⟨0x10F300010, 0, 7, 0x5A⟩
/-- ES_V0.MV, [15:0], RO, Table 06-20. -/
def ES_V0_MV : Fld := ⟨0x10F300014, 0, 16, 0⟩
/-- ES_V1.MV, [15:0], RO, Table 06-20. -/
def ES_V1_MV : Fld := ⟨0x10F300018, 0, 16, 0⟩
/-- ES_ENERGY.MJ, [31:0], RO, Table 06-20. -/
def ES_ENERGY_MJ : Fld := ⟨0x10F30001C, 0, 32, 0⟩
/-- ES_SENSE.MV, [15:0], RO, Table 06-20. -/
def ES_SENSE_MV : Fld := ⟨0x10F300020, 0, 16, 0⟩
/-- EC_CTRL.ENABLE, [31], RW, Table 08-13. -/
def EC_CTRL_ENABLE : Fld := ⟨0x106000000, 31, 1, 0⟩
/-- EC_QBIND.VALID, [31], RW, Table 08-13. -/
def EC_QBIND_VALID (q : Nat) : Fld := ⟨0x106000010 + 4 * q, 31, 1, 0⟩
/-- EC_QBIND.QUEUE, [12:0], RW, Table 08-13. -/
def EC_QBIND_QUEUE (q : Nat) : Fld := ⟨0x106000010 + 4 * q, 0, 13, 0⟩
/-- EC_STATUS.BUSY, [31], RO, Table 08-13. -/
def EC_STATUS_BUSY : Fld := ⟨0x106000020, 31, 1, 0⟩
/-- EC_STATUS.HOLD, [30], RO, Table 08-13. -/
def EC_STATUS_HOLD : Fld := ⟨0x106000020, 30, 1, 0⟩
/-- EC_ERR_INFO.VALID, [31], W1C, Table 08-13. -/
def EC_ERR_INFO_VALID : Fld := ⟨0x106000024, 31, 1, 0⟩
/-- EC_ERR_INFO.DIR, [5], RO, Table 08-13. -/
def EC_ERR_INFO_DIR : Fld := ⟨0x106000024, 5, 1, 0⟩
/-- EC_ERR_INFO.POS, [4:0], RO, Table 08-13. -/
def EC_ERR_INFO_POS : Fld := ⟨0x106000024, 0, 5, 0⟩
/-- EC_ERR_ADDR.ADDR, [47:0], RO, Table 08-13. -/
def EC_ERR_ADDR_ADDR : Fld := ⟨0x106000028, 0, 48, 0⟩
/-- EC_CNT_ENTRIES.COUNT, [31:0], RC, Table 08-13. -/
def EC_CNT_ENTRIES_COUNT : Fld := ⟨0x106000040, 0, 32, 0⟩
/-- EC_CNT_BYTES.COUNT, [63:0], RC, Table 08-13. -/
def EC_CNT_BYTES_COUNT : Fld := ⟨0x106000048, 0, 64, 0⟩
/-- EC_CNT_MISMATCH.COUNT, [31:0], RC, Table 08-13. -/
def EC_CNT_MISMATCH_COUNT : Fld := ⟨0x106000050, 0, 32, 0⟩
/-- RIG_CTRL.STAGE, [31], WO, Table 08-14. -/
def RIG_CTRL_STAGE : Fld := ⟨0x107000000, 31, 1, 0⟩
/-- RIG_CTRL.ACTIVATE, [30], WO, Table 08-14. -/
def RIG_CTRL_ACTIVATE : Fld := ⟨0x107000000, 30, 1, 0⟩
/-- RIG_CTRL.DISCARD, [29], WO, Table 08-14. -/
def RIG_CTRL_DISCARD : Fld := ⟨0x107000000, 29, 1, 0⟩
/-- RIG_STATUS.BUSY, [31], RO, Table 08-14. -/
def RIG_STATUS_BUSY : Fld := ⟨0x107000004, 31, 1, 0⟩
/-- RIG_STATUS.STAGED, [30], RO, Table 08-14. -/
def RIG_STATUS_STAGED : Fld := ⟨0x107000004, 30, 1, 0⟩
/-- RIG_STATUS.SWAPPING, [29], RO, Table 08-14. -/
def RIG_STATUS_SWAPPING : Fld := ⟨0x107000004, 29, 1, 0⟩
/-- RIG_STATUS.ERROR, [28], W1C, Table 08-14. -/
def RIG_STATUS_ERROR : Fld := ⟨0x107000004, 28, 1, 0⟩
/-- RIG_STATUS.ERRCODE, [7:0], RO, Table 08-14. -/
def RIG_STATUS_ERRCODE : Fld := ⟨0x107000004, 0, 8, 0⟩
/-- RIG_SRC_ADDR.ADDR, [47:0], RW, Table 08-14. -/
def RIG_SRC_ADDR_ADDR : Fld := ⟨0x107000008, 0, 48, 0⟩
/-- RIG_SRC_LEN.BYTES, [31:0], RW, Table 08-14. -/
def RIG_SRC_LEN_BYTES : Fld := ⟨0x107000010, 0, 32, 0⟩
/-- RIG_IMAGE_ADDR.ADDR, [47:0], RW, Table 08-14. -/
def RIG_IMAGE_ADDR_ADDR : Fld := ⟨0x107000018, 0, 48, 0⟩
/-- RIG_EPOCH.EPOCH, [63:0], RO, Table 08-14. -/
def RIG_EPOCH_EPOCH : Fld := ⟨0x107000020, 0, 64, 0⟩
/-- RIG_STAGED_EPOCH.EPOCH, [63:0], RO, Table 08-14. -/
def RIG_STAGED_EPOCH_EPOCH : Fld := ⟨0x107000028, 0, 64, 0⟩
/-- RIG_CRC.CRC, [31:0], RO, Table 08-14. -/
def RIG_CRC_CRC : Fld := ⟨0x107000030, 0, 32, 0⟩
/-- RIG_STAGED_CRC.CRC, [31:0], RO, Table 08-14. -/
def RIG_STAGED_CRC_CRC : Fld := ⟨0x107000034, 0, 32, 0⟩
/-- RIG_SELF.INDEX, [15:0], RO, Table 08-14. -/
def RIG_SELF_INDEX : Fld := ⟨0x107000038, 0, 16, 0⟩
/-- RIG_TBL_OFF.OFFSET, [31:0], RO, Table 08-14. -/
def RIG_TBL_OFF_OFFSET (k : Nat) : Fld := ⟨0x107000104 + 4 * k, 0, 32, 0⟩
/-- RIG_TBL_CNT.COUNT, [31:0], RO, Table 08-14. -/
def RIG_TBL_CNT_COUNT (k : Nat) : Fld := ⟨0x107000144 + 4 * k, 0, 32, 0⟩
/-- FPH_ARG.KEY, [63:32], RW, Table 09-4. -/
def FPH_ARG_KEY (c : Nat) : Fld := ⟨0x43F0000 + 0x100 * c, 32, 32, 0⟩
/-- FPH_ARG.VALUE, [31:0], RW, Table 09-4. -/
def FPH_ARG_VALUE (c : Nat) : Fld := ⟨0x43F0000 + 0x100 * c, 0, 32, 0⟩
/-- FPH_CMD.OP, [31:28], WO, Table 09-4. -/
def FPH_CMD_OP (c : Nat) : Fld := ⟨0x43F0008 + 0x100 * c, 28, 4, 0⟩
/-- FPH_CMD.HEAP, [10:0], WO, Table 09-4. -/
def FPH_CMD_HEAP (c : Nat) : Fld := ⟨0x43F0008 + 0x100 * c, 0, 11, 0⟩
/-- FPH_STAT.FAIL, [31], RO, Table 09-4. -/
def FPH_STAT_FAIL (c : Nat) : Fld := ⟨0x43F000C + 0x100 * c, 31, 1, 0⟩
/-- FPH_STAT.COUNT, [10:0], RO, Table 09-4. -/
def FPH_STAT_COUNT (c : Nat) : Fld := ⟨0x43F000C + 0x100 * c, 0, 11, 0⟩
/-- FPH_RES.KEY, [63:32], RO, Table 09-4. -/
def FPH_RES_KEY (c : Nat) : Fld := ⟨0x43F0010 + 0x100 * c, 32, 32, 0⟩
/-- FPH_RES.VALUE, [31:0], RO, Table 09-4. -/
def FPH_RES_VALUE (c : Nat) : Fld := ⟨0x43F0010 + 0x100 * c, 0, 32, 0⟩
/-- FPH_HEAP.VALID, [63], RW, Table 09-4. -/
def FPH_HEAP_VALID (h : Nat) : Fld := ⟨0x43F1000 + 8 * h, 63, 1, 0⟩
/-- FPH_HEAP.BASE, [51:32], RW, Table 09-4. -/
def FPH_HEAP_BASE (h : Nat) : Fld := ⟨0x43F1000 + 8 * h, 32, 20, 0⟩
/-- FPH_HEAP.CAPACITY, [21:11], RW, Table 09-4. -/
def FPH_HEAP_CAPACITY (h : Nat) : Fld := ⟨0x43F1000 + 8 * h, 11, 11, 0⟩
/-- FPH_HEAP.COUNT, [10:0], RO, Table 09-4. -/
def FPH_HEAP_COUNT (h : Nat) : Fld := ⟨0x43F1000 + 8 * h, 0, 11, 0⟩
/-- FC_CTRL.ENABLE, [31], RW, Table 10-7. -/
def FC_CTRL_ENABLE (n : Nat) : Fld := ⟨0x108000000 + 0x100000 * n, 31, 1, 0⟩
/-- FC_CTRL.RUN, [30], RWL, Table 10-7. -/
def FC_CTRL_RUN (n : Nat) : Fld := ⟨0x108000000 + 0x100000 * n, 30, 1, 0⟩
/-- FC_GROUPS.MEMBER, [7:0], RW, Table 10-7. -/
def FC_GROUPS_MEMBER (n : Nat) : Fld := ⟨0x108000004 + 0x100000 * n, 0, 8, 0⟩
/-- FC_STATUS.READY, [31], RO, Table 10-7. -/
def FC_STATUS_READY (n : Nat) : Fld := ⟨0x108000008 + 0x100000 * n, 31, 1, 0⟩
/-- FC_STATUS.INIT_DONE, [30], W1C, Table 10-7. -/
def FC_STATUS_INIT_DONE (n : Nat) : Fld := ⟨0x108000008 + 0x100000 * n, 30, 1, 0⟩
/-- FC_STATUS.SEQ_FAULT, [29], W1C, Table 10-7. -/
def FC_STATUS_SEQ_FAULT (n : Nat) : Fld := ⟨0x108000008 + 0x100000 * n, 29, 1, 0⟩
/-- FC_STATUS.LUN_DEAD, [28], W1C, Table 10-7. -/
def FC_STATUS_LUN_DEAD (n : Nat) : Fld := ⟨0x108000008 + 0x100000 * n, 28, 1, 0⟩
/-- FC_STATUS.IDLE, [27], RO, Table 10-7. -/
def FC_STATUS_IDLE (n : Nat) : Fld := ⟨0x108000008 + 0x100000 * n, 27, 1, 1⟩
/-- FC_STATUS.LUNS, [5:0], RO, Table 10-7. -/
def FC_STATUS_LUNS (n : Nat) : Fld := ⟨0x108000008 + 0x100000 * n, 0, 6, 0⟩
/-- FC_TIMING.LIMIT, [31:16], RW, Table 10-7. -/
def FC_TIMING_LIMIT (n : Nat) : Fld := ⟨0x10800000C + 0x100000 * n, 16, 16, 0xE10⟩
/-- FC_TIMING.MTS, [15:0], RO, Table 10-7. -/
def FC_TIMING_MTS (n : Nat) : Fld := ⟨0x10800000C + 0x100000 * n, 0, 16, 0⟩
/-- FC_QBIND.VALID, [31], RW, Table 10-7. -/
def FC_QBIND_VALID (n q : Nat) : Fld := ⟨0x108000010 + 0x100000 * n + 4 * q, 31, 1, 0⟩
/-- FC_QBIND.QUEUE, [12:0], RW, Table 10-7. -/
def FC_QBIND_QUEUE (n q : Nat) : Fld := ⟨0x108000010 + 0x100000 * n + 4 * q, 0, 13, 0⟩
/-- FC_BT_BASE.ADDR, [47:12], RW, Table 10-7. -/
def FC_BT_BASE_ADDR (n : Nat) : Fld := ⟨0x108000020 + 0x100000 * n, 12, 36, 0⟩
/-- FC_TO_READ.MICROS, [15:0], RW, Table 10-7. -/
def FC_TO_READ_MICROS (n : Nat) : Fld := ⟨0x108000028 + 0x100000 * n, 0, 16, 0x7D0⟩
/-- FC_TO_PROG.MICROS, [15:0], RW, Table 10-7. -/
def FC_TO_PROG_MICROS (n : Nat) : Fld := ⟨0x10800002C + 0x100000 * n, 0, 16, 0x2710⟩
/-- FC_TO_ERASE.MICROS, [15:0], RW, Table 10-7. -/
def FC_TO_ERASE_MICROS (n : Nat) : Fld := ⟨0x108000030 + 0x100000 * n, 0, 16, 0x7530⟩
/-- FC_ROUND.SCHED, [31], RO, Table 10-7. -/
def FC_ROUND_SCHED (n : Nat) : Fld := ⟨0x108000034 + 0x100000 * n, 31, 1, 0⟩
/-- FC_ROUND.ROUND, [5:0], RO, Table 10-7. -/
def FC_ROUND_ROUND (n : Nat) : Fld := ⟨0x108000034 + 0x100000 * n, 0, 6, 0⟩
/-- FC_SEQ_VER.VERSION, [31:0], RO, Table 10-7. -/
def FC_SEQ_VER_VERSION (n : Nat) : Fld := ⟨0x108000038 + 0x100000 * n, 0, 32, 0⟩
/-- FC_SEQ_CRC.CRC, [31:0], RO, Table 10-7. -/
def FC_SEQ_CRC_CRC (n : Nat) : Fld := ⟨0x10800003C + 0x100000 * n, 0, 32, 0⟩
/-- FC_ERR_INFO.VALID, [31], W1C, Table 10-7. -/
def FC_ERR_INFO_VALID (n : Nat) : Fld := ⟨0x108000040 + 0x100000 * n, 31, 1, 0⟩
/-- FC_ERR_INFO.DIR, [5], RO, Table 10-7. -/
def FC_ERR_INFO_DIR (n : Nat) : Fld := ⟨0x108000040 + 0x100000 * n, 5, 1, 0⟩
/-- FC_ERR_INFO.SLOT, [4:0], RO, Table 10-7. -/
def FC_ERR_INFO_SLOT (n : Nat) : Fld := ⟨0x108000040 + 0x100000 * n, 0, 5, 0⟩
/-- FC_ERR_ADDR.ADDR, [47:0], RO, Table 10-7. -/
def FC_ERR_ADDR_ADDR (n : Nat) : Fld := ⟨0x108000048 + 0x100000 * n, 0, 48, 0⟩
/-- FC_CNT_READ.COUNT, [31:0], RC, Table 10-7. -/
def FC_CNT_READ_COUNT (n : Nat) : Fld := ⟨0x108000080 + 0x100000 * n, 0, 32, 0⟩
/-- FC_CNT_PROG.COUNT, [31:0], RC, Table 10-7. -/
def FC_CNT_PROG_COUNT (n : Nat) : Fld := ⟨0x108000084 + 0x100000 * n, 0, 32, 0⟩
/-- FC_CNT_ERASE.COUNT, [31:0], RC, Table 10-7. -/
def FC_CNT_ERASE_COUNT (n : Nat) : Fld := ⟨0x108000088 + 0x100000 * n, 0, 32, 0⟩
/-- FC_CNT_RETRY.COUNT, [31:0], RC, Table 10-7. -/
def FC_CNT_RETRY_COUNT (n : Nat) : Fld := ⟨0x10800008C + 0x100000 * n, 0, 32, 0⟩
/-- FC_CNT_UNCORR.COUNT, [31:0], RC, Table 10-7. -/
def FC_CNT_UNCORR_COUNT (n : Nat) : Fld := ⟨0x108000090 + 0x100000 * n, 0, 32, 0⟩
/-- FC_CNT_REFUSED.COUNT, [31:0], RC, Table 10-7. -/
def FC_CNT_REFUSED_COUNT (n : Nat) : Fld := ⟨0x108000094 + 0x100000 * n, 0, 32, 0⟩
/-- FC_CNT_BYTES_RD.COUNT, [63:0], RC, Table 10-7. -/
def FC_CNT_BYTES_RD_COUNT (n : Nat) : Fld := ⟨0x108000098 + 0x100000 * n, 0, 64, 0⟩
/-- FC_CNT_BYTES_WR.COUNT, [63:0], RC, Table 10-7. -/
def FC_CNT_BYTES_WR_COUNT (n : Nat) : Fld := ⟨0x1080000A0 + 0x100000 * n, 0, 64, 0⟩
/-- FC_CNT_SCHED_WAIT.MICROS, [31:0], RC, Table 10-7. -/
def FC_CNT_SCHED_WAIT_MICROS (n : Nat) : Fld := ⟨0x1080000A8 + 0x100000 * n, 0, 32, 0⟩
/-- FC_LUN_STATUS.PRESENT, [31], RO, Table 10-8. -/
def FC_LUN_STATUS_PRESENT (n l : Nat) : Fld := ⟨0x108001000 + 0x100000 * n + 0x80 * l, 31, 1, 0⟩
/-- FC_LUN_STATUS.DEAD, [30], RO, Table 10-8. -/
def FC_LUN_STATUS_DEAD (n l : Nat) : Fld := ⟨0x108001000 + 0x100000 * n + 0x80 * l, 30, 1, 0⟩
/-- FC_LUN_STATUS.BUSY, [29], RO, Table 10-8. -/
def FC_LUN_STATUS_BUSY (n l : Nat) : Fld := ⟨0x108001000 + 0x100000 * n + 0x80 * l, 29, 1, 0⟩
/-- FC_LUN_STATUS.APPLIED, [15:0], RO, Table 10-8. -/
def FC_LUN_STATUS_APPLIED (n l : Nat) : Fld := ⟨0x108001000 + 0x100000 * n + 0x80 * l, 0, 16, 0xFFFF⟩
/-- FC_LUN_CTRL.OFFLINE, [31], RW, Table 10-8. -/
def FC_LUN_CTRL_OFFLINE (n l : Nat) : Fld := ⟨0x108001004 + 0x100000 * n + 0x80 * l, 31, 1, 0⟩
/-- FC_LUN_CTRL.REVIVE, [30], WO, Table 10-8. -/
def FC_LUN_CTRL_REVIVE (n l : Nat) : Fld := ⟨0x108001004 + 0x100000 * n + 0x80 * l, 30, 1, 0⟩
/-- FC_LUN_TEMP.VALID, [31], RO, Table 10-8. -/
def FC_LUN_TEMP_VALID (n l : Nat) : Fld := ⟨0x108001008 + 0x100000 * n + 0x80 * l, 31, 1, 0⟩
/-- FC_LUN_TEMP.TEMP, [7:0], RO, Table 10-8. -/
def FC_LUN_TEMP_TEMP (n l : Nat) : Fld := ⟨0x108001008 + 0x100000 * n + 0x80 * l, 0, 8, 0x80⟩
/-- FC_LUN_GEOM.BPC, [31:28], RO, Table 10-8. -/
def FC_LUN_GEOM_BPC (n l : Nat) : Fld := ⟨0x10800100C + 0x100000 * n + 0x80 * l, 28, 4, 0⟩
/-- FC_LUN_GEOM.PLANES, [27:24], RO, Table 10-8. -/
def FC_LUN_GEOM_PLANES (n l : Nat) : Fld := ⟨0x10800100C + 0x100000 * n + 0x80 * l, 24, 4, 0⟩
/-- FC_LUN_GEOM.PPB, [15:0], RO, Table 10-8. -/
def FC_LUN_GEOM_PPB (n l : Nat) : Fld := ⟨0x10800100C + 0x100000 * n + 0x80 * l, 0, 16, 0⟩
/-- FC_LUN_BLOCKS.BPP, [19:0], RO, Table 10-8. -/
def FC_LUN_BLOCKS_BPP (n l : Nat) : Fld := ⟨0x108001010 + 0x100000 * n + 0x80 * l, 0, 20, 0⟩
/-- FC_LUN_ENDUR.CYCLES, [31:0], RO, Table 10-8. -/
def FC_LUN_ENDUR_CYCLES (n l : Nat) : Fld := ⟨0x108001014 + 0x100000 * n + 0x80 * l, 0, 32, 0⟩
/-- FC_LUN_CNT_READ.COUNT, [31:0], RC, Table 10-8. -/
def FC_LUN_CNT_READ_COUNT (n l : Nat) : Fld := ⟨0x108001040 + 0x100000 * n + 0x80 * l, 0, 32, 0⟩
/-- FC_LUN_CNT_PROG.COUNT, [31:0], RC, Table 10-8. -/
def FC_LUN_CNT_PROG_COUNT (n l : Nat) : Fld := ⟨0x108001044 + 0x100000 * n + 0x80 * l, 0, 32, 0⟩
/-- FC_LUN_CNT_ERASE.COUNT, [31:0], RC, Table 10-8. -/
def FC_LUN_CNT_ERASE_COUNT (n l : Nat) : Fld := ⟨0x108001048 + 0x100000 * n + 0x80 * l, 0, 32, 0⟩
/-- FC_LUN_CNT_CORR.COUNT, [31:0], RC, Table 10-8. -/
def FC_LUN_CNT_CORR_COUNT (n l : Nat) : Fld := ⟨0x10800104C + 0x100000 * n + 0x80 * l, 0, 32, 0⟩
/-- FC_LUN_CNT_UNCORR.COUNT, [31:0], RC, Table 10-8. -/
def FC_LUN_CNT_UNCORR_COUNT (n l : Nat) : Fld := ⟨0x108001050 + 0x100000 * n + 0x80 * l, 0, 32, 0⟩
/-- FC_LUN_CNT_TIMEOUT.COUNT, [31:0], RC, Table 10-8. -/
def FC_LUN_CNT_TIMEOUT_COUNT (n l : Nat) : Fld := ⟨0x108001054 + 0x100000 * n + 0x80 * l, 0, 32, 0⟩
/-- SC_CTRL.ENABLE, [31], RW, Table 11-2. -/
def SC_CTRL_ENABLE : Fld := ⟨0x101000000, 31, 1, 0⟩
/-- SC_STATUS.ENABLED, [31], RO, Table 11-2. -/
def SC_STATUS_ENABLED : Fld := ⟨0x101000004, 31, 1, 0⟩
/-- SC_STATUS.DIRTY, [30], RO, Table 11-2. -/
def SC_STATUS_DIRTY : Fld := ⟨0x101000004, 30, 1, 0⟩
/-- SC_STATUS.VALID_LINES, [18:0], RO, Table 11-2. -/
def SC_STATUS_VALID_LINES : Fld := ⟨0x101000004, 0, 19, 0⟩
/-- SC_DIRTY_LINES.COUNT, [18:0], RO, Table 11-2. -/
def SC_DIRTY_LINES_COUNT : Fld := ⟨0x101000008, 0, 19, 0⟩
/-- SC_STREAM.DETECT, [15:0], RW, Table 11-2. -/
def SC_STREAM_DETECT : Fld := ⟨0x10100000C, 0, 16, 0xFFFF⟩
/-- SC_STREAM_STATE.ACTIVE, [15:0], RO, Table 11-2. -/
def SC_STREAM_STATE_ACTIVE : Fld := ⟨0x101000010, 0, 16, 0⟩
/-- SC_WAYMASK.MASK, [15:0], RW, Table 11-2. -/
def SC_WAYMASK_MASK (r : Nat) : Fld := ⟨0x101000040 + 4 * r, 0, 16, 0xFFFF⟩
/-- SC_WAY_STATUS.CAUSE_UE, [31:16], RO, Table 11-2. -/
def SC_WAY_STATUS_CAUSE_UE : Fld := ⟨0x101000080, 16, 16, 0⟩
/-- SC_WAY_STATUS.DISABLED, [15:0], W1C, Table 11-2. -/
def SC_WAY_STATUS_DISABLED : Fld := ⟨0x101000080, 0, 16, 0⟩
/-- SC_WAY_CE.COUNT, [3:0], RO, Table 11-2. -/
def SC_WAY_CE_COUNT (w : Nat) : Fld := ⟨0x1010000C0 + 4 * w, 0, 4, 0⟩
/-- SC_UE_INFO.VALID, [31], W1C, Table 11-2. -/
def SC_UE_INFO_VALID : Fld := ⟨0x101000100, 31, 1, 0⟩
/-- SC_UE_INFO.DIRTY, [30], RO, Table 11-2. -/
def SC_UE_INFO_DIRTY : Fld := ⟨0x101000100, 30, 1, 0⟩
/-- SC_UE_INFO.WAY, [7:4], RO, Table 11-2. -/
def SC_UE_INFO_WAY : Fld := ⟨0x101000100, 4, 4, 0⟩
/-- SC_UE_INFO.RID, [3:0], RO, Table 11-2. -/
def SC_UE_INFO_RID : Fld := ⟨0x101000100, 0, 4, 0⟩
/-- SC_UE_ADDR.LINE, [47:8], RO, Table 11-2. -/
def SC_UE_ADDR_LINE : Fld := ⟨0x101000108, 8, 40, 0⟩
/-- SC_MAINT_START.LINE, [47:8], RW, Table 11-2. -/
def SC_MAINT_START_LINE : Fld := ⟨0x101000200, 8, 40, 0⟩
/-- SC_MAINT_END.LINE, [47:8], RW, Table 11-2. -/
def SC_MAINT_END_LINE : Fld := ⟨0x101000208, 8, 40, 0⟩
/-- SC_MAINT_CTRL.GO, [31], WO, Table 11-2. -/
def SC_MAINT_CTRL_GO : Fld := ⟨0x101000210, 31, 1, 0⟩
/-- SC_MAINT_CTRL.ALL, [30], RW, Table 11-2. -/
def SC_MAINT_CTRL_ALL : Fld := ⟨0x101000210, 30, 1, 0⟩
/-- SC_MAINT_CTRL.OP, [1:0], RW, Table 11-2. -/
def SC_MAINT_CTRL_OP : Fld := ⟨0x101000210, 0, 2, 0⟩
/-- SC_MAINT_STATUS.BUSY, [31], RO, Table 11-2. -/
def SC_MAINT_STATUS_BUSY : Fld := ⟨0x101000214, 31, 1, 0⟩
/-- SC_MAINT_STATUS.DONE, [30], W1C, Table 11-2. -/
def SC_MAINT_STATUS_DONE : Fld := ⟨0x101000214, 30, 1, 0⟩
/-- SC_MAINT_STATUS.REJECTED, [29], W1C, Table 11-2. -/
def SC_MAINT_STATUS_REJECTED : Fld := ⟨0x101000214, 29, 1, 0⟩
/-- SC_PF_ADDR.LINE, [47:8], RW, Table 11-2. -/
def SC_PF_ADDR_LINE : Fld := ⟨0x101000300, 8, 40, 0⟩
/-- SC_PF_CTRL.GO, [31], WO, Table 11-2. -/
def SC_PF_CTRL_GO : Fld := ⟨0x101000308, 31, 1, 0⟩
/-- SC_PF_CTRL.LINES, [24:16], RW, Table 11-2. -/
def SC_PF_CTRL_LINES : Fld := ⟨0x101000308, 16, 9, 1⟩
/-- SC_PF_CTRL.RID, [3:0], RW, Table 11-2. -/
def SC_PF_CTRL_RID : Fld := ⟨0x101000308, 0, 4, 0⟩
/-- SC_PF_STATUS.ACTIVE, [31], RO, Table 11-2. -/
def SC_PF_STATUS_ACTIVE : Fld := ⟨0x10100030C, 31, 1, 0⟩
/-- SC_PF_STATUS.QUEUED, [4:0], RO, Table 11-2. -/
def SC_PF_STATUS_QUEUED : Fld := ⟨0x10100030C, 0, 5, 0⟩
/-- SC_CNT_HIT.COUNT, [31:0], RC, Table 11-2. -/
def SC_CNT_HIT_COUNT (r : Nat) : Fld := ⟨0x101000400 + 4 * r, 0, 32, 0⟩
/-- SC_CNT_MISS.COUNT, [31:0], RC, Table 11-2. -/
def SC_CNT_MISS_COUNT (r : Nat) : Fld := ⟨0x101000440 + 4 * r, 0, 32, 0⟩
/-- SC_CNT_WB.COUNT, [31:0], RC, Table 11-2. -/
def SC_CNT_WB_COUNT : Fld := ⟨0x101000480, 0, 32, 0⟩
/-- SC_CNT_DECLINED.COUNT, [31:0], RC, Table 11-2. -/
def SC_CNT_DECLINED_COUNT : Fld := ⟨0x101000484, 0, 32, 0⟩
/-- SC_CNT_CE.COUNT, [31:0], RC, Table 11-2. -/
def SC_CNT_CE_COUNT : Fld := ⟨0x101000488, 0, 32, 0⟩
/-- SC_CNT_PF_DROP.COUNT, [31:0], RC, Table 11-2. -/
def SC_CNT_PF_DROP_COUNT : Fld := ⟨0x10100048C, 0, 32, 0⟩
/-- SC_CNT_NOALLOC.COUNT, [31:0], RC, Table 11-2. -/
def SC_CNT_NOALLOC_COUNT : Fld := ⟨0x101000490, 0, 32, 0⟩
/-- DMC_STATUS.TRAINED, [31], RO, Table 11-3. -/
def DMC_STATUS_TRAINED : Fld := ⟨0x10B000000, 31, 1, 0⟩
/-- DMC_STATUS.TEMP_HIGH, [30], RO, Table 11-3. -/
def DMC_STATUS_TEMP_HIGH : Fld := ⟨0x10B000000, 30, 1, 0⟩
/-- DMC_STATUS.FAIL, [7:0], RO, Table 11-3. -/
def DMC_STATUS_FAIL : Fld := ⟨0x10B000000, 0, 8, 0⟩
/-- DMC_SCRUB.ENABLE, [31], RW, Table 11-3. -/
def DMC_SCRUB_ENABLE : Fld := ⟨0x10B000004, 31, 1, 1⟩
/-- DMC_SCRUB.HOURS, [7:0], RW, Table 11-3. -/
def DMC_SCRUB_HOURS : Fld := ⟨0x10B000004, 0, 8, 0x18⟩
/-- DMC_ERR_INFO.VALID, [31], W1C, Table 11-3. -/
def DMC_ERR_INFO_VALID : Fld := ⟨0x10B000010, 31, 1, 0⟩
/-- DMC_ERR_INFO.SCRUB, [30], RO, Table 11-3. -/
def DMC_ERR_INFO_SCRUB : Fld := ⟨0x10B000010, 30, 1, 0⟩
/-- DMC_ERR_INFO.RID, [7:4], RO, Table 11-3. -/
def DMC_ERR_INFO_RID : Fld := ⟨0x10B000010, 4, 4, 0⟩
/-- DMC_ERR_INFO.CHANNEL, [2:0], RO, Table 11-3. -/
def DMC_ERR_INFO_CHANNEL : Fld := ⟨0x10B000010, 0, 3, 0⟩
/-- DMC_ERR_ADDR.ADDR, [47:0], RO, Table 11-3. -/
def DMC_ERR_ADDR_ADDR : Fld := ⟨0x10B000018, 0, 48, 0⟩
/-- DMC_CNT_CE.COUNT, [31:0], RC, Table 11-3. -/
def DMC_CNT_CE_COUNT : Fld := ⟨0x10B000040, 0, 32, 0⟩
/-- DMC_CNT_UE.COUNT, [31:0], RC, Table 11-3. -/
def DMC_CNT_UE_COUNT : Fld := ⟨0x10B000044, 0, 32, 0⟩
/-- DMC_CNT_RD_BYTES.COUNT, [63:0], RC, Table 11-3. -/
def DMC_CNT_RD_BYTES_COUNT : Fld := ⟨0x10B000048, 0, 64, 0⟩
/-- DMC_CNT_WR_BYTES.COUNT, [63:0], RC, Table 11-3. -/
def DMC_CNT_WR_BYTES_COUNT : Fld := ⟨0x10B000050, 0, 64, 0⟩
/-- WQ_CTRL.ENABLE, [31], RW, Table 12-8. -/
def WQ_CTRL_ENABLE : Fld := ⟨0x102000000, 31, 1, 0⟩
/-- WQ_CTRL.LEGACY, [30], RW, Table 12-8. -/
def WQ_CTRL_LEGACY : Fld := ⟨0x102000000, 30, 1, 0⟩
/-- WQ_STATUS.IDLE, [31], RO, Table 12-8. -/
def WQ_STATUS_IDLE : Fld := ⟨0x102000004, 31, 1, 1⟩
/-- WQ_STATUS.QUEUES, [13:0], RO, Table 12-8. -/
def WQ_STATUS_QUEUES : Fld := ⟨0x102000004, 0, 14, 0⟩
/-- WQ_ADMIN_RING.ADDR, [47:12], RW, Table 12-8. -/
def WQ_ADMIN_RING_ADDR : Fld := ⟨0x102000008, 12, 36, 0⟩
/-- WQ_ADMIN_CQ.ADDR, [47:12], RW, Table 12-8. -/
def WQ_ADMIN_CQ_ADDR : Fld := ⟨0x102000010, 12, 36, 0⟩
/-- WQ_ADMIN_IDX.ADDR, [47:6], RW, Table 12-8. -/
def WQ_ADMIN_IDX_ADDR : Fld := ⟨0x102000018, 6, 42, 0⟩
/-- WQ_ADMIN_CFG.IRQ_EN, [31], RW, Table 12-8. -/
def WQ_ADMIN_CFG_IRQ_EN : Fld := ⟨0x102000020, 31, 1, 0⟩
/-- WQ_ADMIN_CFG.VECTOR, [21:16], RW, Table 12-8. -/
def WQ_ADMIN_CFG_VECTOR : Fld := ⟨0x102000020, 16, 6, 0⟩
/-- WQ_ADMIN_CFG.LOG2S, [4:0], RW, Table 12-8. -/
def WQ_ADMIN_CFG_LOG2S : Fld := ⟨0x102000020, 0, 5, 6⟩
/-- WQ_LBASE.ADDR, [47:21], RW, Table 12-8. -/
def WQ_LBASE_ADDR : Fld := ⟨0x102000030, 21, 27, 0⟩
/-- WQ_DOORBELL.CQ, [31], WO, Table 12-8. -/
def WQ_DOORBELL_CQ : Fld := ⟨0x102000040, 31, 1, 0⟩
/-- WQ_DOORBELL.QUEUE, [12:0], WO, Table 12-8. -/
def WQ_DOORBELL_QUEUE : Fld := ⟨0x102000040, 0, 13, 0⟩
/-- WQ_ECINV.HOLD, [31], RW, Table 12-8. -/
def WQ_ECINV_HOLD : Fld := ⟨0x102000044, 31, 1, 0⟩
/-- WQ_ECINV.HELD, [30], RO, Table 12-8. -/
def WQ_ECINV_HELD : Fld := ⟨0x102000044, 30, 1, 0⟩
/-- WQ_ECINV.QUEUE, [12:0], RW, Table 12-8. -/
def WQ_ECINV_QUEUE : Fld := ⟨0x102000044, 0, 13, 0⟩
/-- WQ_ECINV_IDX.TAKEN, [31:0], RO, Table 12-8. -/
def WQ_ECINV_IDX_TAKEN : Fld := ⟨0x102000048, 0, 32, 0⟩
/-- WQ_ERR_INFO.VALID, [31], W1C, Table 12-8. -/
def WQ_ERR_INFO_VALID : Fld := ⟨0x102000050, 31, 1, 0⟩
/-- WQ_ERR_INFO.OVERFLOW, [30], W1C, Table 12-8. -/
def WQ_ERR_INFO_OVERFLOW : Fld := ⟨0x102000050, 30, 1, 0⟩
/-- WQ_ERR_INFO.CODE, [18:16], RO, Table 12-8. -/
def WQ_ERR_INFO_CODE : Fld := ⟨0x102000050, 16, 3, 0⟩
/-- WQ_ERR_INFO.QUEUE, [12:0], RO, Table 12-8. -/
def WQ_ERR_INFO_QUEUE : Fld := ⟨0x102000050, 0, 13, 0⟩
/-- WQ_ERR_INDEX.INDEX, [31:0], RO, Table 12-8. -/
def WQ_ERR_INDEX_INDEX : Fld := ⟨0x102000054, 0, 32, 0⟩
/-- WQ_QSEL.QUEUE, [12:0], RW, Table 12-8. -/
def WQ_QSEL_QUEUE : Fld := ⟨0x102000060, 0, 13, 0⟩
/-- WQ_QSTATE.STATE, [31:29], RO, Table 12-8. -/
def WQ_QSTATE_STATE : Fld := ⟨0x102000064, 29, 3, 0⟩
/-- WQ_QSTATE.HOLDBACK, [28], RO, Table 12-8. -/
def WQ_QSTATE_HOLDBACK : Fld := ⟨0x102000064, 28, 1, 0⟩
/-- WQ_QSTATE.HELD, [27:22], RO, Table 12-8. -/
def WQ_QSTATE_HELD : Fld := ⟨0x102000064, 22, 6, 0⟩
/-- WQ_QSTATE.TAKEN_OPEN, [21:11], RO, Table 12-8. -/
def WQ_QSTATE_TAKEN_OPEN : Fld := ⟨0x102000064, 11, 11, 0⟩
/-- WQ_QTAKEN.INDEX, [31:0], RO, Table 12-8. -/
def WQ_QTAKEN_INDEX : Fld := ⟨0x102000068, 0, 32, 0⟩
/-- WQ_QCPROD.INDEX, [31:0], RO, Table 12-8. -/
def WQ_QCPROD_INDEX : Fld := ⟨0x10200006C, 0, 32, 0⟩
/-- WQ_VEC_PEND.PEND, [31:0], RO, Table 12-8. -/
def WQ_VEC_PEND_PEND (w : Nat) : Fld := ⟨0x102000070 + 4 * w, 0, 32, 0⟩
/-- WQ_LRESTART.GO, [31], WO, Table 12-8. -/
def WQ_LRESTART_GO : Fld := ⟨0x102000078, 31, 1, 0⟩
/-- WQ_LRESTART.QUEUE, [5:0], WO, Table 12-8. -/
def WQ_LRESTART_QUEUE : Fld := ⟨0x102000078, 0, 6, 0⟩
/-- WQ_LRESTART_IDX.INDEX, [31:0], RW, Table 12-8. -/
def WQ_LRESTART_IDX_INDEX : Fld := ⟨0x10200007C, 0, 32, 0⟩
/-- WQ_CNT_TAKEN.COUNT, [31:0], RC, Table 12-8. -/
def WQ_CNT_TAKEN_COUNT : Fld := ⟨0x102000080, 0, 32, 0⟩
/-- WQ_CNT_COMPL.COUNT, [31:0], RC, Table 12-8. -/
def WQ_CNT_COMPL_COUNT : Fld := ⟨0x102000084, 0, 32, 0⟩
/-- WQ_CNT_HOLDBACK.COUNT, [31:0], RC, Table 12-8. -/
def WQ_CNT_HOLDBACK_COUNT : Fld := ⟨0x102000088, 0, 32, 0⟩
/-- WQ_CNT_POLL.COUNT, [31:0], RC, Table 12-8. -/
def WQ_CNT_POLL_COUNT : Fld := ⟨0x10200008C, 0, 32, 0⟩
/-- WQ_LWEIGHT.BURST, [11:8], RW, Table 12-8. -/
def WQ_LWEIGHT_BURST (q : Nat) : Fld := ⟨0x102000400 + 4 * q, 8, 4, 1⟩
/-- WQ_LWEIGHT.WEIGHT, [7:0], RW, Table 12-8. -/
def WQ_LWEIGHT_WEIGHT (q : Nat) : Fld := ⟨0x102000400 + 4 * q, 0, 8, 1⟩
/-- DMA_CTRL.ENABLE, [31], RW, Table 13-4. -/
def DMA_CTRL_ENABLE : Fld := ⟨0x103000000, 31, 1, 0⟩
/-- DMA_STATUS.IDLE, [31], RO, Table 13-4. -/
def DMA_STATUS_IDLE : Fld := ⟨0x103000004, 31, 1, 1⟩
/-- DMA_STATUS.BUF_USED, [8:0], RO, Table 13-4. -/
def DMA_STATUS_BUF_USED : Fld := ⟨0x103000004, 0, 9, 0⟩
/-- DMA_CQ_BASE.ADDR, [47:12], RW, Table 13-4. -/
def DMA_CQ_BASE_ADDR : Fld := ⟨0x103000008, 12, 36, 0⟩
/-- DMA_CQ_CFG.LOG2C, [4:0], RW, Table 13-4. -/
def DMA_CQ_CFG_LOG2C : Fld := ⟨0x103000010, 0, 5, 8⟩
/-- DMA_CQ_PI.INDEX, [31:0], RO, Table 13-4. -/
def DMA_CQ_PI_INDEX : Fld := ⟨0x103000014, 0, 32, 0⟩
/-- DMA_CQ_CI.INDEX, [31:0], RW, Table 13-4. -/
def DMA_CQ_CI_INDEX : Fld := ⟨0x103000018, 0, 32, 0⟩
/-- DMA_QBIND.VALID, [31], RW, Table 13-4. -/
def DMA_QBIND_VALID (q : Nat) : Fld := ⟨0x103000020 + 4 * q, 31, 1, 0⟩
/-- DMA_QBIND.QUEUE, [12:0], RW, Table 13-4. -/
def DMA_QBIND_QUEUE (q : Nat) : Fld := ⟨0x103000020 + 4 * q, 0, 13, 0⟩
/-- DMA_CNT_BYTES.COUNT, [63:0], RC, Table 13-4. -/
def DMA_CNT_BYTES_COUNT : Fld := ⟨0x103000040, 0, 64, 0⟩
/-- DMA_CNT_DESC.COUNT, [31:0], RC, Table 13-4. -/
def DMA_CNT_DESC_COUNT : Fld := ⟨0x103000048, 0, 32, 0⟩
/-- DMA_CNT_WITHDRAWN.COUNT, [31:0], RC, Table 13-4. -/
def DMA_CNT_WITHDRAWN_COUNT : Fld := ⟨0x10300004C, 0, 32, 0⟩
/-- DMA_REQ_SET.LINES, [31:1], W1S, Table 13-4. -/
def DMA_REQ_SET_LINES : Fld := ⟨0x103000050, 1, 31, 0⟩
/-- DMA_REQ_CLR.LINES, [31:1], W1C, Table 13-4. -/
def DMA_REQ_CLR_LINES : Fld := ⟨0x103000054, 1, 31, 0⟩
/-- DMA_CH_CTRL.GO, [31], WO, Table 13-4. -/
def DMA_CH_CTRL_GO (n : Nat) : Fld := ⟨0x103001000 + 0x80 * n, 31, 1, 0⟩
/-- DMA_CH_CTRL.KICK, [30], WO, Table 13-4. -/
def DMA_CH_CTRL_KICK (n : Nat) : Fld := ⟨0x103001000 + 0x80 * n, 30, 1, 0⟩
/-- DMA_CH_CTRL.STOP, [29], WO, Table 13-4. -/
def DMA_CH_CTRL_STOP (n : Nat) : Fld := ⟨0x103001000 + 0x80 * n, 29, 1, 0⟩
/-- DMA_CH_CTRL.RESUME, [28], WO, Table 13-4. -/
def DMA_CH_CTRL_RESUME (n : Nat) : Fld := ⟨0x103001000 + 0x80 * n, 28, 1, 0⟩
/-- DMA_CH_CTRL.ABORT, [27], WO, Table 13-4. -/
def DMA_CH_CTRL_ABORT (n : Nat) : Fld := ⟨0x103001000 + 0x80 * n, 27, 1, 0⟩
/-- DMA_CH_CFG.HIGH, [31], RW, Table 13-4. -/
def DMA_CH_CFG_HIGH (n : Nat) : Fld := ⟨0x103001004 + 0x80 * n, 31, 1, 0⟩
/-- DMA_CH_CFG.QUOTA, [15:8], RW, Table 13-4. -/
def DMA_CH_CFG_QUOTA (n : Nat) : Fld := ⟨0x103001004 + 0x80 * n, 8, 8, 8⟩
/-- DMA_CH_CFG.BURST, [7:6], RW, Table 13-4. -/
def DMA_CH_CFG_BURST (n : Nat) : Fld := ⟨0x103001004 + 0x80 * n, 6, 2, 3⟩
/-- DMA_CH_CFG.PREQ, [5:0], RW, Table 13-4. -/
def DMA_CH_CFG_PREQ (n : Nat) : Fld := ⟨0x103001004 + 0x80 * n, 0, 6, 0⟩
/-- DMA_CH_STATUS.STATE, [31:29], RO, Table 13-4. -/
def DMA_CH_STATUS_STATE (n : Nat) : Fld := ⟨0x103001008 + 0x80 * n, 29, 3, 0⟩
/-- DMA_CH_STATUS.IRQ_PEND, [28], W1C, Table 13-4. -/
def DMA_CH_STATUS_IRQ_PEND (n : Nat) : Fld := ⟨0x103001008 + 0x80 * n, 28, 1, 0⟩
/-- DMA_CH_STATUS.KICK_PEND, [27], RO, Table 13-4. -/
def DMA_CH_STATUS_KICK_PEND (n : Nat) : Fld := ⟨0x103001008 + 0x80 * n, 27, 1, 0⟩
/-- DMA_CH_STATUS.CQ_WAIT, [26], RO, Table 13-4. -/
def DMA_CH_STATUS_CQ_WAIT (n : Nat) : Fld := ⟨0x103001008 + 0x80 * n, 26, 1, 0⟩
/-- DMA_CH_DESC.ADDR, [47:6], RW, Table 13-4. -/
def DMA_CH_DESC_ADDR (n : Nat) : Fld := ⟨0x103001010 + 0x80 * n, 6, 42, 0⟩
/-- DMA_CH_LAST.ADDR, [47:0], RO, Table 13-4. -/
def DMA_CH_LAST_ADDR (n : Nat) : Fld := ⟨0x103001018 + 0x80 * n, 0, 48, 0⟩
/-- DMA_CH_DONE_BYTES.BYTES, [31:0], RO, Table 13-4. -/
def DMA_CH_DONE_BYTES_BYTES (n : Nat) : Fld := ⟨0x103001020 + 0x80 * n, 0, 32, 0⟩
/-- DMA_CH_ERR_INFO.VALID, [31], W1C, Table 13-4. -/
def DMA_CH_ERR_INFO_VALID (n : Nat) : Fld := ⟨0x103001024 + 0x80 * n, 31, 1, 0⟩
/-- DMA_CH_ERR_INFO.DIR, [3], RO, Table 13-4. -/
def DMA_CH_ERR_INFO_DIR (n : Nat) : Fld := ⟨0x103001024 + 0x80 * n, 3, 1, 0⟩
/-- DMA_CH_ERR_INFO.CAUSE, [2:0], RO, Table 13-4. -/
def DMA_CH_ERR_INFO_CAUSE (n : Nat) : Fld := ⟨0x103001024 + 0x80 * n, 0, 3, 0⟩
/-- DMA_CH_ERR_ADDR.ADDR, [47:0], RO, Table 13-4. -/
def DMA_CH_ERR_ADDR_ADDR (n : Nat) : Fld := ⟨0x103001028 + 0x80 * n, 0, 48, 0⟩
/-- ASU_CTRL.ENABLE, [31], RW, Table 14-3. -/
def ASU_CTRL_ENABLE : Fld := ⟨0x104000000, 31, 1, 0⟩
/-- ASU_STATUS.IDLE, [31], RO, Table 14-3. -/
def ASU_STATUS_IDLE : Fld := ⟨0x104000004, 31, 1, 1⟩
/-- ASU_MOVE_CTRL.GO, [31], WO, Table 14-3. -/
def ASU_MOVE_CTRL_GO : Fld := ⟨0x104000040, 31, 1, 0⟩
/-- ASU_MOVE_CTRL.DIR, [30], RW, Table 14-3. -/
def ASU_MOVE_CTRL_DIR : Fld := ⟨0x104000040, 30, 1, 0⟩
/-- ASU_MOVE_CTRL.BANK, [27:22], RW, Table 14-3. -/
def ASU_MOVE_CTRL_BANK : Fld := ⟨0x104000040, 22, 6, 0⟩
/-- ASU_MOVE_CTRL.LAST, [21:11], RW, Table 14-3. -/
def ASU_MOVE_CTRL_LAST : Fld := ⟨0x104000040, 11, 11, 0⟩
/-- ASU_MOVE_CTRL.FIRST, [10:0], RW, Table 14-3. -/
def ASU_MOVE_CTRL_FIRST : Fld := ⟨0x104000040, 0, 11, 0⟩
/-- ASU_MOVE_STATUS.BUSY, [31], RO, Table 14-3. -/
def ASU_MOVE_STATUS_BUSY : Fld := ⟨0x104000044, 31, 1, 0⟩
/-- ASU_MOVE_STATUS.DONE, [30], W1C, Table 14-3. -/
def ASU_MOVE_STATUS_DONE : Fld := ⟨0x104000044, 30, 1, 0⟩
/-- ASU_MOVE_STATUS.REJECTED, [29], W1C, Table 14-3. -/
def ASU_MOVE_STATUS_REJECTED : Fld := ⟨0x104000044, 29, 1, 0⟩
/-- ASU_CNT_SEARCH.COUNT, [63:0], RC, Table 14-3. -/
def ASU_CNT_SEARCH_COUNT : Fld := ⟨0x104000080, 0, 64, 0⟩
/-- ASU_CNT_HIT.COUNT, [63:0], RC, Table 14-3. -/
def ASU_CNT_HIT_COUNT : Fld := ⟨0x104000088, 0, 64, 0⟩
/-- ASU_CNT_MULTI.COUNT, [31:0], RC, Table 14-3. -/
def ASU_CNT_MULTI_COUNT : Fld := ⟨0x104000090, 0, 32, 0⟩
/-- ASU_CNT_MOVE.COUNT, [31:0], RC, Table 14-3. -/
def ASU_CNT_MOVE_COUNT : Fld := ⟨0x104000094, 0, 32, 0⟩
/-- ASU_BANK_CFG.ENABLE, [31], RW, Table 14-3. -/
def ASU_BANK_CFG_ENABLE (b : Nat) : Fld := ⟨0x104000100 + 4 * b, 31, 1, 0⟩
/-- ASU_BANK_CFG.WIDTH, [1:0], RW, Table 14-3. -/
def ASU_BANK_CFG_WIDTH (b : Nat) : Fld := ⟨0x104000100 + 4 * b, 0, 2, 0⟩
/-- ASU_USE_BANKS.BANKS, [63:0], RW, Table 14-3. -/
def ASU_USE_BANKS_BANKS (u : Nat) : Fld := ⟨0x104000200 + 8 * u, 0, 64, 0⟩
/-- ASU_KEY.BYTES, [31:0], RW, Table 14-3. -/
def ASU_KEY_BYTES (c i : Nat) : Fld := ⟨0x104001000 + 0x400 * c + 4 * i, 0, 32, 0⟩
/-- ASU_WMASK.BYTES, [31:0], RW, Table 14-3. -/
def ASU_WMASK_BYTES (c i : Nat) : Fld := ⟨0x104001040 + 0x400 * c + 4 * i, 0, 32, 0⟩
/-- ASU_WENTRY.GO, [31], WO, Table 14-3. -/
def ASU_WENTRY_GO (c : Nat) : Fld := ⟨0x104001080 + 0x400 * c, 31, 1, 0⟩
/-- ASU_WENTRY.VALID, [30], RW, Table 14-3. -/
def ASU_WENTRY_VALID (c : Nat) : Fld := ⟨0x104001080 + 0x400 * c, 30, 1, 0⟩
/-- ASU_WENTRY.READ, [29], RW, Table 14-3. -/
def ASU_WENTRY_READ (c : Nat) : Fld := ⟨0x104001080 + 0x400 * c, 29, 1, 0⟩
/-- ASU_WENTRY.BANK, [22:17], RW, Table 14-3. -/
def ASU_WENTRY_BANK (c : Nat) : Fld := ⟨0x104001080 + 0x400 * c, 17, 6, 0⟩
/-- ASU_WENTRY.INDEX, [10:0], RW, Table 14-3. -/
def ASU_WENTRY_INDEX (c : Nat) : Fld := ⟨0x104001080 + 0x400 * c, 0, 11, 0⟩
/-- ASU_WPRIO.PRIO, [15:0], RW, Table 14-3. -/
def ASU_WPRIO_PRIO (c : Nat) : Fld := ⟨0x104001084 + 0x400 * c, 0, 16, 0⟩
/-- ASU_WDATA.ADATA, [31:0], RW, Table 14-3. -/
def ASU_WDATA_ADATA (c : Nat) : Fld := ⟨0x104001088 + 0x400 * c, 0, 32, 0⟩
/-- ASU_WSTATUS.DONE, [31], RO, Table 14-3. -/
def ASU_WSTATUS_DONE (c : Nat) : Fld := ⟨0x10400108C + 0x400 * c, 31, 1, 0⟩
/-- ASU_WSTATUS.REJECTED, [30], W1C, Table 14-3. -/
def ASU_WSTATUS_REJECTED (c : Nat) : Fld := ⟨0x10400108C + 0x400 * c, 30, 1, 0⟩
/-- ASU_WSTATUS.CAUSE, [29:28], RO, Table 14-3. -/
def ASU_WSTATUS_CAUSE (c : Nat) : Fld := ⟨0x10400108C + 0x400 * c, 28, 2, 0⟩
/-- ASU_SEARCH_BANKS.BANKS, [63:0], RW, Table 14-3. -/
def ASU_SEARCH_BANKS_BANKS (c : Nat) : Fld := ⟨0x104001090 + 0x400 * c, 0, 64, 0⟩
/-- ASU_SEARCH.GO, [31], WO, Table 14-3. -/
def ASU_SEARCH_GO (c : Nat) : Fld := ⟨0x104001098 + 0x400 * c, 31, 1, 0⟩
/-- ASU_SEARCH.WIDTH, [1:0], RW, Table 14-3. -/
def ASU_SEARCH_WIDTH (c : Nat) : Fld := ⟨0x104001098 + 0x400 * c, 0, 2, 0⟩
/-- ASU_RESULT.READY, [31], RO, Table 14-3. -/
def ASU_RESULT_READY (c : Nat) : Fld := ⟨0x1040010A0 + 0x400 * c, 31, 1, 0⟩
/-- ASU_RESULT.HIT, [30], RO, Table 14-3. -/
def ASU_RESULT_HIT (c : Nat) : Fld := ⟨0x1040010A0 + 0x400 * c, 30, 1, 0⟩
/-- ASU_RESULT.MULTI, [29], RO, Table 14-3. -/
def ASU_RESULT_MULTI (c : Nat) : Fld := ⟨0x1040010A0 + 0x400 * c, 29, 1, 0⟩
/-- ASU_RESULT.BANK, [22:17], RO, Table 14-3. -/
def ASU_RESULT_BANK (c : Nat) : Fld := ⟨0x1040010A0 + 0x400 * c, 17, 6, 0⟩
/-- ASU_RESULT.INDEX, [10:0], RO, Table 14-3. -/
def ASU_RESULT_INDEX (c : Nat) : Fld := ⟨0x1040010A0 + 0x400 * c, 0, 11, 0⟩
/-- ASU_RESULT_PRIO.PRIO, [15:0], RO, Table 14-3. -/
def ASU_RESULT_PRIO_PRIO (c : Nat) : Fld := ⟨0x1040010A4 + 0x400 * c, 0, 16, 0⟩
/-- ASU_RESULT_DATA.ADATA, [31:0], RO, Table 14-3. -/
def ASU_RESULT_DATA_ADATA (c : Nat) : Fld := ⟨0x1040010A8 + 0x400 * c, 0, 32, 0⟩
/-- ASU_STEP_CTRL.NEXT, [31], WO, Table 14-3. -/
def ASU_STEP_CTRL_NEXT (c : Nat) : Fld := ⟨0x1040010B0 + 0x400 * c, 31, 1, 0⟩
/-- ASU_STEP_RESULT.VALID, [31], RO, Table 14-3. -/
def ASU_STEP_RESULT_VALID (c : Nat) : Fld := ⟨0x1040010B4 + 0x400 * c, 31, 1, 0⟩
/-- ASU_STEP_RESULT.END, [30], RO, Table 14-3. -/
def ASU_STEP_RESULT_END (c : Nat) : Fld := ⟨0x1040010B4 + 0x400 * c, 30, 1, 0⟩
/-- ASU_STEP_RESULT.STALE, [29], RO, Table 14-3. -/
def ASU_STEP_RESULT_STALE (c : Nat) : Fld := ⟨0x1040010B4 + 0x400 * c, 29, 1, 0⟩
/-- ASU_STEP_RESULT.BANK, [22:17], RO, Table 14-3. -/
def ASU_STEP_RESULT_BANK (c : Nat) : Fld := ⟨0x1040010B4 + 0x400 * c, 17, 6, 0⟩
/-- ASU_STEP_RESULT.INDEX, [10:0], RO, Table 14-3. -/
def ASU_STEP_RESULT_INDEX (c : Nat) : Fld := ⟨0x1040010B4 + 0x400 * c, 0, 11, 0⟩
/-- ASU_STEP_PRIO.PRIO, [15:0], RO, Table 14-3. -/
def ASU_STEP_PRIO_PRIO (c : Nat) : Fld := ⟨0x1040010B8 + 0x400 * c, 0, 16, 0⟩
/-- ASU_STEP_DATA.ADATA, [31:0], RO, Table 14-3. -/
def ASU_STEP_DATA_ADATA (c : Nat) : Fld := ⟨0x1040010BC + 0x400 * c, 0, 32, 0⟩
/-- CIP_CTRL.ENABLE, [31], RW, Table 15-10. -/
def CIP_CTRL_ENABLE : Fld := ⟨0x105000000, 31, 1, 0⟩
/-- CIP_STATUS.IDLE, [31], RO, Table 15-10. -/
def CIP_STATUS_IDLE : Fld := ⟨0x105000004, 31, 1, 1⟩
/-- CIP_STATUS.KEK, [30], RO, Table 15-10. -/
def CIP_STATUS_KEK : Fld := ⟨0x105000004, 30, 1, 0⟩
/-- CIP_STATUS.ESCROW, [29], RO, Table 15-10. -/
def CIP_STATUS_ESCROW : Fld := ⟨0x105000004, 29, 1, 0⟩
/-- CIP_STATUS.RNG_FAIL, [28], RO, Table 15-10. -/
def CIP_STATUS_RNG_FAIL : Fld := ⟨0x105000004, 28, 1, 0⟩
/-- CIP_STATUS.SLOTS_USED, [12:0], RO, Table 15-10. -/
def CIP_STATUS_SLOTS_USED : Fld := ⟨0x105000004, 0, 13, 0⟩
/-- CIP_QBIND.VALID, [31], RW, Table 15-10. -/
def CIP_QBIND_VALID (q : Nat) : Fld := ⟨0x105000010 + 4 * q, 31, 1, 0⟩
/-- CIP_QBIND.QUEUE, [12:0], RW, Table 15-10. -/
def CIP_QBIND_QUEUE (q : Nat) : Fld := ⟨0x105000010 + 4 * q, 0, 13, 0⟩
/-- CIP_ERR_INFO.VALID, [31], W1C, Table 15-10. -/
def CIP_ERR_INFO_VALID : Fld := ⟨0x105000020, 31, 1, 0⟩
/-- CIP_ERR_INFO.DIR, [13], RO, Table 15-10. -/
def CIP_ERR_INFO_DIR : Fld := ⟨0x105000020, 13, 1, 0⟩
/-- CIP_ERR_INFO.QUEUE, [12:0], RO, Table 15-10. -/
def CIP_ERR_INFO_QUEUE : Fld := ⟨0x105000020, 0, 13, 0⟩
/-- CIP_ERR_ADDR.ADDR, [47:0], RO, Table 15-10. -/
def CIP_ERR_ADDR_ADDR : Fld := ⟨0x105000028, 0, 48, 0⟩
/-- CIP_CNT_GCM_BYTES.COUNT, [63:0], RC, Table 15-10. -/
def CIP_CNT_GCM_BYTES_COUNT : Fld := ⟨0x105000040, 0, 64, 0⟩
/-- CIP_CNT_XTS_BYTES.COUNT, [63:0], RC, Table 15-10. -/
def CIP_CNT_XTS_BYTES_COUNT : Fld := ⟨0x105000048, 0, 64, 0⟩
/-- CIP_CNT_AUTH_FAIL.COUNT, [31:0], RC, Table 15-10. -/
def CIP_CNT_AUTH_FAIL_COUNT : Fld := ⟨0x105000050, 0, 32, 0⟩
/-- CIP_CNT_LENGTH.COUNT, [31:0], RC, Table 15-10. -/
def CIP_CNT_LENGTH_COUNT : Fld := ⟨0x105000054, 0, 32, 0⟩
/-- CIP_CNT_KEYOPS.COUNT, [31:0], RC, Table 15-10. -/
def CIP_CNT_KEYOPS_COUNT : Fld := ⟨0x105000058, 0, 32, 0⟩
/-- CIP_SLOT_INFO.KEY_GEN, [63:32], RO, Table 15-10. -/
def CIP_SLOT_INFO_KEY_GEN (k : Nat) : Fld := ⟨0x105010000 + 8 * k, 32, 32, 0⟩
/-- CIP_SLOT_INFO.KIND, [31:29], RO, Table 15-10. -/
def CIP_SLOT_INFO_KIND (k : Nat) : Fld := ⟨0x105010000 + 8 * k, 29, 3, 0⟩
/-- CIP_SLOT_INFO.EXPORTABLE, [28], RO, Table 15-10. -/
def CIP_SLOT_INFO_EXPORTABLE (k : Nat) : Fld := ⟨0x105010000 + 8 * k, 28, 1, 0⟩
/-- CIP_SLOT_INFO.NSID, [11:0], RO, Table 15-10. -/
def CIP_SLOT_INFO_NSID (k : Nat) : Fld := ⟨0x105010000 + 8 * k, 0, 12, 0⟩
/-- DIG_CTRL.ENABLE, [31], RW, Table 15-10. -/
def DIG_CTRL_ENABLE : Fld := ⟨0x105800000, 31, 1, 0⟩
/-- DIG_STATUS.IDLE, [31], RO, Table 15-10. -/
def DIG_STATUS_IDLE : Fld := ⟨0x105800004, 31, 1, 1⟩
/-- DIG_STATUS.OPEN, [6:0], RO, Table 15-10. -/
def DIG_STATUS_OPEN : Fld := ⟨0x105800004, 0, 7, 0⟩
/-- DIG_QBIND.VALID, [31], RW, Table 15-10. -/
def DIG_QBIND_VALID (q : Nat) : Fld := ⟨0x105800010 + 4 * q, 31, 1, 0⟩
/-- DIG_QBIND.QUEUE, [12:0], RW, Table 15-10. -/
def DIG_QBIND_QUEUE (q : Nat) : Fld := ⟨0x105800010 + 4 * q, 0, 13, 0⟩
/-- DIG_ERR_INFO.VALID, [31], W1C, Table 15-10. -/
def DIG_ERR_INFO_VALID : Fld := ⟨0x105800020, 31, 1, 0⟩
/-- DIG_ERR_INFO.DIR, [13], RO, Table 15-10. -/
def DIG_ERR_INFO_DIR : Fld := ⟨0x105800020, 13, 1, 0⟩
/-- DIG_ERR_INFO.QUEUE, [12:0], RO, Table 15-10. -/
def DIG_ERR_INFO_QUEUE : Fld := ⟨0x105800020, 0, 13, 0⟩
/-- DIG_ERR_ADDR.ADDR, [47:0], RO, Table 15-10. -/
def DIG_ERR_ADDR_ADDR : Fld := ⟨0x105800028, 0, 48, 0⟩
/-- DIG_CNT_BYTES.COUNT, [63:0], RC, Table 15-10. -/
def DIG_CNT_BYTES_COUNT : Fld := ⟨0x105800040, 0, 64, 0⟩
/-- DIG_CNT_DIGESTS.COUNT, [31:0], RC, Table 15-10. -/
def DIG_CNT_DIGESTS_COUNT : Fld := ⟨0x105800048, 0, 32, 0⟩
/-- DIG_CTX_STATE.OPEN, [31], RO, Table 15-10. -/
def DIG_CTX_STATE_OPEN (c : Nat) : Fld := ⟨0x105800100 + 4 * c, 31, 1, 0⟩
/-- DIG_CTX_STATE.SHA384, [30], RO, Table 15-10. -/
def DIG_CTX_STATE_SHA384 (c : Nat) : Fld := ⟨0x105800100 + 4 * c, 30, 1, 0⟩
/-- MACA_CTRL.ENABLE, [31], RW, Table 16-8. -/
def MACA_CTRL_ENABLE : Fld := ⟨0x10C000000, 31, 1, 0⟩
/-- MACA_CTRL.UP_HOLD_MS, [7:0], RW, Table 16-8. -/
def MACA_CTRL_UP_HOLD_MS : Fld := ⟨0x10C000000, 0, 8, 0x64⟩
/-- MACA_MODE.RATE, [1:0], RW, Table 16-8. -/
def MACA_MODE_RATE : Fld := ⟨0x10C000004, 0, 2, 0⟩
/-- MACA_STATUS.LINK, [31], RO, Table 16-8. -/
def MACA_STATUS_LINK : Fld := ⟨0x10C000008, 31, 1, 0⟩
/-- MACA_STATUS.LINK_CHG, [30], W1C, Table 16-8. -/
def MACA_STATUS_LINK_CHG : Fld := ⟨0x10C000008, 30, 1, 0⟩
/-- MACA_STATUS.RATE, [29:28], RO, Table 16-8. -/
def MACA_STATUS_RATE : Fld := ⟨0x10C000008, 28, 2, 0⟩
/-- MACA_STATUS.VERIFY, [27:26], RO, Table 16-8. -/
def MACA_STATUS_VERIFY : Fld := ⟨0x10C000008, 26, 2, 0⟩
/-- MACA_STATUS.VERIFY_CHG, [25], W1C, Table 16-8. -/
def MACA_STATUS_VERIFY_CHG : Fld := ⟨0x10C000008, 25, 1, 0⟩
/-- MACA_STATUS.PREEMPT, [24], RO, Table 16-8. -/
def MACA_STATUS_PREEMPT : Fld := ⟨0x10C000008, 24, 1, 0⟩
/-- MACA_ADDR.ADDR, [47:0], RW, Table 16-8. -/
def MACA_ADDR_ADDR : Fld := ⟨0x10C000010, 0, 48, 0⟩
/-- MACA_MAXFRAME.BYTES, [13:0], RW, Table 16-8. -/
def MACA_MAXFRAME_BYTES : Fld := ⟨0x10C000018, 0, 14, 0x2400⟩
/-- MACA_VLAN.TAG, [31], RW, Table 16-8. -/
def MACA_VLAN_TAG : Fld := ⟨0x10C00001C, 31, 1, 0⟩
/-- MACA_VLAN.VID, [11:0], RW, Table 16-8. -/
def MACA_VLAN_VID : Fld := ⟨0x10C00001C, 0, 12, 0⟩
/-- MACA_TXMAP.CTL, [10:8], RW, Table 16-8. -/
def MACA_TXMAP_CTL : Fld := ⟨0x10C000020, 8, 3, 6⟩
/-- MACA_TXMAP.PEER, [6:4], RW, Table 16-8. -/
def MACA_TXMAP_PEER : Fld := ⟨0x10C000020, 4, 3, 4⟩
/-- MACA_TXMAP.HOST, [2:0], RW, Table 16-8. -/
def MACA_TXMAP_HOST : Fld := ⟨0x10C000020, 0, 3, 2⟩
/-- MACA_PREEMPT.ENABLE, [31], RW, Table 16-8. -/
def MACA_PREEMPT_ENABLE : Fld := ⟨0x10C000024, 31, 1, 0⟩
/-- MACA_PREEMPT.EXPRESS, [15:8], RW, Table 16-8. -/
def MACA_PREEMPT_EXPRESS : Fld := ⟨0x10C000024, 8, 8, 0x80⟩
/-- MACA_PREEMPT.VERIFY_MS, [6:0], RW, Table 16-8. -/
def MACA_PREEMPT_VERIFY_MS : Fld := ⟨0x10C000024, 0, 7, 0xA⟩
/-- MACA_FC.RX_PAUSE, [31], RW, Table 16-8. -/
def MACA_FC_RX_PAUSE : Fld := ⟨0x10C000028, 31, 1, 0⟩
/-- MACA_FC.RX_PFC, [23:16], RW, Table 16-8. -/
def MACA_FC_RX_PFC : Fld := ⟨0x10C000028, 16, 8, 0⟩
/-- MACA_FILTER.PROMISC, [31], RW, Table 16-8. -/
def MACA_FILTER_PROMISC : Fld := ⟨0x10C000030, 31, 1, 0⟩
/-- MACA_FILTER.ALL_MULTI, [30], RW, Table 16-8. -/
def MACA_FILTER_ALL_MULTI : Fld := ⟨0x10C000030, 30, 1, 1⟩
/-- MACA_FILTER.DROP_MISS, [3], RW, Table 16-8. -/
def MACA_FILTER_DROP_MISS : Fld := ⟨0x10C000030, 3, 1, 0⟩
/-- MACA_FILTER.DEFAULT, [2:0], RW, Table 16-8. -/
def MACA_FILTER_DEFAULT : Fld := ⟨0x10C000030, 0, 3, 0⟩
/-- MACA_RX_WAIT.MICROS, [15:0], RW, Table 16-8. -/
def MACA_RX_WAIT_MICROS : Fld := ⟨0x10C000034, 0, 16, 0x64⟩
/-- MACA_PTP_TXLAT.NS, [15:0], RW, Table 16-8. -/
def MACA_PTP_TXLAT_NS : Fld := ⟨0x10C000038, 0, 16, 0⟩
/-- MACA_PTP_RXLAT.NS, [15:0], RW, Table 16-8. -/
def MACA_PTP_RXLAT_NS : Fld := ⟨0x10C00003C, 0, 16, 0⟩
/-- MACA_IRQ.TX, [15:8], W1C, Table 16-8. -/
def MACA_IRQ_TX : Fld := ⟨0x10C000040, 8, 8, 0⟩
/-- MACA_IRQ.RX, [7:0], W1C, Table 16-8. -/
def MACA_IRQ_RX : Fld := ⟨0x10C000040, 0, 8, 0⟩
/-- MACA_ERR_INFO.VALID, [31], W1C, Table 16-8. -/
def MACA_ERR_INFO_VALID : Fld := ⟨0x10C000048, 31, 1, 0⟩
/-- MACA_ERR_INFO.DIR, [4], RO, Table 16-8. -/
def MACA_ERR_INFO_DIR : Fld := ⟨0x10C000048, 4, 1, 0⟩
/-- MACA_ERR_INFO.TX, [3], RO, Table 16-8. -/
def MACA_ERR_INFO_TX : Fld := ⟨0x10C000048, 3, 1, 0⟩
/-- MACA_ERR_INFO.RING, [2:0], RO, Table 16-8. -/
def MACA_ERR_INFO_RING : Fld := ⟨0x10C000048, 0, 3, 0⟩
/-- MACA_ERR_ADDR.ADDR, [47:0], RO, Table 16-8. -/
def MACA_ERR_ADDR_ADDR : Fld := ⟨0x10C000050, 0, 48, 0⟩
/-- MACA_RXR_BASE.ADDR, [47:10], RW, Table 16-8. -/
def MACA_RXR_BASE_ADDR (r : Nat) : Fld := ⟨0x10C000100 + 0x20 * r, 10, 38, 0⟩
/-- MACA_TXR_BASE.ADDR, [47:10], RW, Table 16-8. -/
def MACA_TXR_BASE_ADDR (r : Nat) : Fld := ⟨0x10C000200 + 0x20 * r, 10, 38, 0⟩
/-- MACA_RXR_CFG.ENABLE, [31], RW, Table 16-8. -/
def MACA_RXR_CFG_ENABLE (r : Nat) : Fld := ⟨0x10C000108 + 0x20 * r, 31, 1, 0⟩
/-- MACA_RXR_CFG.IRQ_EN, [30], RW, Table 16-8. -/
def MACA_RXR_CFG_IRQ_EN (r : Nat) : Fld := ⟨0x10C000108 + 0x20 * r, 30, 1, 0⟩
/-- MACA_RXR_CFG.QUOTA, [27:20], RW, Table 16-8. -/
def MACA_RXR_CFG_QUOTA (r : Nat) : Fld := ⟨0x10C000108 + 0x20 * r, 20, 8, 0x10⟩
/-- MACA_RXR_CFG.LOG2S, [19:16], RW, Table 16-8. -/
def MACA_RXR_CFG_LOG2S (r : Nat) : Fld := ⟨0x10C000108 + 0x20 * r, 16, 4, 8⟩
/-- MACA_RXR_CFG.BUFSZ, [1:0], RW, Table 16-8. -/
def MACA_RXR_CFG_BUFSZ (r : Nat) : Fld := ⟨0x10C000108 + 0x20 * r, 0, 2, 0⟩
/-- MACA_TXR_CFG.ENABLE, [31], RW, Table 16-8. -/
def MACA_TXR_CFG_ENABLE (r : Nat) : Fld := ⟨0x10C000208 + 0x20 * r, 31, 1, 0⟩
/-- MACA_TXR_CFG.IRQ_EN, [30], RW, Table 16-8. -/
def MACA_TXR_CFG_IRQ_EN (r : Nat) : Fld := ⟨0x10C000208 + 0x20 * r, 30, 1, 0⟩
/-- MACA_TXR_CFG.LOG2S, [19:16], RW, Table 16-8. -/
def MACA_TXR_CFG_LOG2S (r : Nat) : Fld := ⟨0x10C000208 + 0x20 * r, 16, 4, 8⟩
/-- MACA_RXR_PI.INDEX, [31:0], RW, Table 16-8. -/
def MACA_RXR_PI_INDEX (r : Nat) : Fld := ⟨0x10C00010C + 0x20 * r, 0, 32, 0⟩
/-- MACA_TXR_PI.INDEX, [31:0], RW, Table 16-8. -/
def MACA_TXR_PI_INDEX (r : Nat) : Fld := ⟨0x10C00020C + 0x20 * r, 0, 32, 0⟩
/-- MACA_RXR_CI.INDEX, [31:0], RO, Table 16-8. -/
def MACA_RXR_CI_INDEX (r : Nat) : Fld := ⟨0x10C000110 + 0x20 * r, 0, 32, 0⟩
/-- MACA_TXR_CI.INDEX, [31:0], RO, Table 16-8. -/
def MACA_TXR_CI_INDEX (r : Nat) : Fld := ⟨0x10C000210 + 0x20 * r, 0, 32, 0⟩
/-- MACA_TSQ_STATUS.OVERFLOW, [31], W1C, Table 16-8. -/
def MACA_TSQ_STATUS_OVERFLOW : Fld := ⟨0x10C000300, 31, 1, 0⟩
/-- MACA_TSQ_STATUS.COUNT, [6:0], RO, Table 16-8. -/
def MACA_TSQ_STATUS_COUNT : Fld := ⟨0x10C000300, 0, 7, 0⟩
/-- MACA_TSQ_POP.POP, [31], WO, Table 16-8. -/
def MACA_TSQ_POP_POP : Fld := ⟨0x10C000304, 31, 1, 0⟩
/-- MACA_TSQ_ID.VALID, [31], RO, Table 16-8. -/
def MACA_TSQ_ID_VALID : Fld := ⟨0x10C000308, 31, 1, 0⟩
/-- MACA_TSQ_ID.ID, [15:0], RO, Table 16-8. -/
def MACA_TSQ_ID_ID : Fld := ⟨0x10C000308, 0, 16, 0⟩
/-- MACA_TSQ_TIME.STAMP, [63:0], RO, Table 16-8. -/
def MACA_TSQ_TIME_STAMP : Fld := ⟨0x10C000310, 0, 64, 0⟩
/-- MACA_PTP_CTRL.RUN, [31], RW, Table 16-8. -/
def MACA_PTP_CTRL_RUN : Fld := ⟨0x10C000400, 31, 1, 0⟩
/-- MACA_PTP_CTRL.LOAD, [30], WO, Table 16-8. -/
def MACA_PTP_CTRL_LOAD : Fld := ⟨0x10C000400, 30, 1, 0⟩
/-- MACA_PTP_CTRL.STEP, [29], WO, Table 16-8. -/
def MACA_PTP_CTRL_STEP : Fld := ⟨0x10C000400, 29, 1, 0⟩
/-- MACA_PTP_SEC.SECONDS, [47:0], RO, Table 16-8. -/
def MACA_PTP_SEC_SECONDS : Fld := ⟨0x10C000408, 0, 48, 0⟩
/-- MACA_PTP_NS.NS, [29:0], RO, Table 16-8. -/
def MACA_PTP_NS_NS : Fld := ⟨0x10C000410, 0, 30, 0⟩
/-- MACA_PTP_SET_SEC.SECONDS, [47:0], RW, Table 16-8. -/
def MACA_PTP_SET_SEC_SECONDS : Fld := ⟨0x10C000418, 0, 48, 0⟩
/-- MACA_PTP_SET_NS.NS, [29:0], RW, Table 16-8. -/
def MACA_PTP_SET_NS_NS : Fld := ⟨0x10C000420, 0, 30, 0⟩
/-- MACA_PTP_STEP.NS, [31:0], RW, Table 16-8. -/
def MACA_PTP_STEP_NS : Fld := ⟨0x10C000424, 0, 32, 0⟩
/-- MACA_PTP_RATE.PPB, [31:0], RW, Table 16-8. -/
def MACA_PTP_RATE_PPB : Fld := ⟨0x10C000428, 0, 32, 0⟩
/-- MACA_CNT_RX_FRAMES.COUNT, [31:0], RC, Table 16-8. -/
def MACA_CNT_RX_FRAMES_COUNT : Fld := ⟨0x10C000500, 0, 32, 0⟩
/-- MACA_CNT_RX_BYTES.COUNT, [63:0], RC, Table 16-8. -/
def MACA_CNT_RX_BYTES_COUNT : Fld := ⟨0x10C000508, 0, 64, 0⟩
/-- MACA_CNT_RX_FCS.COUNT, [31:0], RC, Table 16-8. -/
def MACA_CNT_RX_FCS_COUNT : Fld := ⟨0x10C000510, 0, 32, 0⟩
/-- MACA_CNT_RX_LONG.COUNT, [31:0], RC, Table 16-8. -/
def MACA_CNT_RX_LONG_COUNT : Fld := ⟨0x10C000514, 0, 32, 0⟩
/-- MACA_CNT_RX_FILTERED.COUNT, [31:0], RC, Table 16-8. -/
def MACA_CNT_RX_FILTERED_COUNT : Fld := ⟨0x10C000518, 0, 32, 0⟩
/-- MACA_CNT_RX_STORE.COUNT, [31:0], RC, Table 16-8. -/
def MACA_CNT_RX_STORE_COUNT : Fld := ⟨0x10C00051C, 0, 32, 0⟩
/-- MACA_CNT_RX_NOBUF.COUNT, [31:0], RC, Table 16-8. -/
def MACA_CNT_RX_NOBUF_COUNT : Fld := ⟨0x10C000520, 0, 32, 0⟩
/-- MACA_CNT_TX_FRAMES.COUNT, [31:0], RC, Table 16-8. -/
def MACA_CNT_TX_FRAMES_COUNT : Fld := ⟨0x10C000524, 0, 32, 0⟩
/-- MACA_CNT_TX_BYTES.COUNT, [63:0], RC, Table 16-8. -/
def MACA_CNT_TX_BYTES_COUNT : Fld := ⟨0x10C000528, 0, 64, 0⟩
/-- MACA_CNT_FEC_CORR.COUNT, [31:0], RC, Table 16-8. -/
def MACA_CNT_FEC_CORR_COUNT : Fld := ⟨0x10C000530, 0, 32, 0⟩
/-- MACA_CNT_FEC_UNCORR.COUNT, [31:0], RC, Table 16-8. -/
def MACA_CNT_FEC_UNCORR_COUNT : Fld := ⟨0x10C000534, 0, 32, 0⟩
/-- MACA_CNT_PAUSE_RX.COUNT, [31:0], RC, Table 16-8. -/
def MACA_CNT_PAUSE_RX_COUNT : Fld := ⟨0x10C000538, 0, 32, 0⟩
/-- MACA_CNT_PREEMPT.COUNT, [31:0], RC, Table 16-8. -/
def MACA_CNT_PREEMPT_COUNT : Fld := ⟨0x10C00053C, 0, 32, 0⟩
/-- MACA_CNT_TS_LOST.COUNT, [31:0], RC, Table 16-8. -/
def MACA_CNT_TS_LOST_COUNT : Fld := ⟨0x10C000540, 0, 32, 0⟩
/-- MACA_CNT_LINK_DOWN.COUNT, [31:0], RC, Table 16-8. -/
def MACA_CNT_LINK_DOWN_COUNT : Fld := ⟨0x10C000544, 0, 32, 0⟩
/-- MACB_CTRL.ENABLE, [31], RW, Table 16-8. -/
def MACB_CTRL_ENABLE : Fld := ⟨0x10C100000, 31, 1, 0⟩
/-- MACB_CTRL.UP_HOLD_MS, [7:0], RW, Table 16-8. -/
def MACB_CTRL_UP_HOLD_MS : Fld := ⟨0x10C100000, 0, 8, 0x64⟩
/-- MACB_MODE.RATE, [1:0], RW, Table 16-8. -/
def MACB_MODE_RATE : Fld := ⟨0x10C100004, 0, 2, 0⟩
/-- MACB_STATUS.LINK, [31], RO, Table 16-8. -/
def MACB_STATUS_LINK : Fld := ⟨0x10C100008, 31, 1, 0⟩
/-- MACB_STATUS.LINK_CHG, [30], W1C, Table 16-8. -/
def MACB_STATUS_LINK_CHG : Fld := ⟨0x10C100008, 30, 1, 0⟩
/-- MACB_STATUS.RATE, [29:28], RO, Table 16-8. -/
def MACB_STATUS_RATE : Fld := ⟨0x10C100008, 28, 2, 0⟩
/-- MACB_STATUS.VERIFY, [27:26], RO, Table 16-8. -/
def MACB_STATUS_VERIFY : Fld := ⟨0x10C100008, 26, 2, 0⟩
/-- MACB_STATUS.VERIFY_CHG, [25], W1C, Table 16-8. -/
def MACB_STATUS_VERIFY_CHG : Fld := ⟨0x10C100008, 25, 1, 0⟩
/-- MACB_STATUS.PREEMPT, [24], RO, Table 16-8. -/
def MACB_STATUS_PREEMPT : Fld := ⟨0x10C100008, 24, 1, 0⟩
/-- MACB_ADDR.ADDR, [47:0], RW, Table 16-8. -/
def MACB_ADDR_ADDR : Fld := ⟨0x10C100010, 0, 48, 0⟩
/-- MACB_MAXFRAME.BYTES, [13:0], RW, Table 16-8. -/
def MACB_MAXFRAME_BYTES : Fld := ⟨0x10C100018, 0, 14, 0x2400⟩
/-- MACB_VLAN.TAG, [31], RW, Table 16-8. -/
def MACB_VLAN_TAG : Fld := ⟨0x10C10001C, 31, 1, 0⟩
/-- MACB_VLAN.VID, [11:0], RW, Table 16-8. -/
def MACB_VLAN_VID : Fld := ⟨0x10C10001C, 0, 12, 0⟩
/-- MACB_TXMAP.CTL, [10:8], RW, Table 16-8. -/
def MACB_TXMAP_CTL : Fld := ⟨0x10C100020, 8, 3, 6⟩
/-- MACB_TXMAP.PEER, [6:4], RW, Table 16-8. -/
def MACB_TXMAP_PEER : Fld := ⟨0x10C100020, 4, 3, 4⟩
/-- MACB_TXMAP.HOST, [2:0], RW, Table 16-8. -/
def MACB_TXMAP_HOST : Fld := ⟨0x10C100020, 0, 3, 2⟩
/-- MACB_PREEMPT.ENABLE, [31], RW, Table 16-8. -/
def MACB_PREEMPT_ENABLE : Fld := ⟨0x10C100024, 31, 1, 0⟩
/-- MACB_PREEMPT.EXPRESS, [15:8], RW, Table 16-8. -/
def MACB_PREEMPT_EXPRESS : Fld := ⟨0x10C100024, 8, 8, 0x80⟩
/-- MACB_PREEMPT.VERIFY_MS, [6:0], RW, Table 16-8. -/
def MACB_PREEMPT_VERIFY_MS : Fld := ⟨0x10C100024, 0, 7, 0xA⟩
/-- MACB_FC.RX_PAUSE, [31], RW, Table 16-8. -/
def MACB_FC_RX_PAUSE : Fld := ⟨0x10C100028, 31, 1, 0⟩
/-- MACB_FC.RX_PFC, [23:16], RW, Table 16-8. -/
def MACB_FC_RX_PFC : Fld := ⟨0x10C100028, 16, 8, 0⟩
/-- MACB_FILTER.PROMISC, [31], RW, Table 16-8. -/
def MACB_FILTER_PROMISC : Fld := ⟨0x10C100030, 31, 1, 0⟩
/-- MACB_FILTER.ALL_MULTI, [30], RW, Table 16-8. -/
def MACB_FILTER_ALL_MULTI : Fld := ⟨0x10C100030, 30, 1, 1⟩
/-- MACB_FILTER.DROP_MISS, [3], RW, Table 16-8. -/
def MACB_FILTER_DROP_MISS : Fld := ⟨0x10C100030, 3, 1, 0⟩
/-- MACB_FILTER.DEFAULT, [2:0], RW, Table 16-8. -/
def MACB_FILTER_DEFAULT : Fld := ⟨0x10C100030, 0, 3, 0⟩
/-- MACB_RX_WAIT.MICROS, [15:0], RW, Table 16-8. -/
def MACB_RX_WAIT_MICROS : Fld := ⟨0x10C100034, 0, 16, 0x64⟩
/-- MACB_PTP_TXLAT.NS, [15:0], RW, Table 16-8. -/
def MACB_PTP_TXLAT_NS : Fld := ⟨0x10C100038, 0, 16, 0⟩
/-- MACB_PTP_RXLAT.NS, [15:0], RW, Table 16-8. -/
def MACB_PTP_RXLAT_NS : Fld := ⟨0x10C10003C, 0, 16, 0⟩
/-- MACB_IRQ.TX, [15:8], W1C, Table 16-8. -/
def MACB_IRQ_TX : Fld := ⟨0x10C100040, 8, 8, 0⟩
/-- MACB_IRQ.RX, [7:0], W1C, Table 16-8. -/
def MACB_IRQ_RX : Fld := ⟨0x10C100040, 0, 8, 0⟩
/-- MACB_ERR_INFO.VALID, [31], W1C, Table 16-8. -/
def MACB_ERR_INFO_VALID : Fld := ⟨0x10C100048, 31, 1, 0⟩
/-- MACB_ERR_INFO.DIR, [4], RO, Table 16-8. -/
def MACB_ERR_INFO_DIR : Fld := ⟨0x10C100048, 4, 1, 0⟩
/-- MACB_ERR_INFO.TX, [3], RO, Table 16-8. -/
def MACB_ERR_INFO_TX : Fld := ⟨0x10C100048, 3, 1, 0⟩
/-- MACB_ERR_INFO.RING, [2:0], RO, Table 16-8. -/
def MACB_ERR_INFO_RING : Fld := ⟨0x10C100048, 0, 3, 0⟩
/-- MACB_ERR_ADDR.ADDR, [47:0], RO, Table 16-8. -/
def MACB_ERR_ADDR_ADDR : Fld := ⟨0x10C100050, 0, 48, 0⟩
/-- MACB_RXR_BASE.ADDR, [47:10], RW, Table 16-8. -/
def MACB_RXR_BASE_ADDR (r : Nat) : Fld := ⟨0x10C100100 + 0x20 * r, 10, 38, 0⟩
/-- MACB_TXR_BASE.ADDR, [47:10], RW, Table 16-8. -/
def MACB_TXR_BASE_ADDR (r : Nat) : Fld := ⟨0x10C100200 + 0x20 * r, 10, 38, 0⟩
/-- MACB_RXR_CFG.ENABLE, [31], RW, Table 16-8. -/
def MACB_RXR_CFG_ENABLE (r : Nat) : Fld := ⟨0x10C100108 + 0x20 * r, 31, 1, 0⟩
/-- MACB_RXR_CFG.IRQ_EN, [30], RW, Table 16-8. -/
def MACB_RXR_CFG_IRQ_EN (r : Nat) : Fld := ⟨0x10C100108 + 0x20 * r, 30, 1, 0⟩
/-- MACB_RXR_CFG.QUOTA, [27:20], RW, Table 16-8. -/
def MACB_RXR_CFG_QUOTA (r : Nat) : Fld := ⟨0x10C100108 + 0x20 * r, 20, 8, 0x10⟩
/-- MACB_RXR_CFG.LOG2S, [19:16], RW, Table 16-8. -/
def MACB_RXR_CFG_LOG2S (r : Nat) : Fld := ⟨0x10C100108 + 0x20 * r, 16, 4, 8⟩
/-- MACB_RXR_CFG.BUFSZ, [1:0], RW, Table 16-8. -/
def MACB_RXR_CFG_BUFSZ (r : Nat) : Fld := ⟨0x10C100108 + 0x20 * r, 0, 2, 0⟩
/-- MACB_TXR_CFG.ENABLE, [31], RW, Table 16-8. -/
def MACB_TXR_CFG_ENABLE (r : Nat) : Fld := ⟨0x10C100208 + 0x20 * r, 31, 1, 0⟩
/-- MACB_TXR_CFG.IRQ_EN, [30], RW, Table 16-8. -/
def MACB_TXR_CFG_IRQ_EN (r : Nat) : Fld := ⟨0x10C100208 + 0x20 * r, 30, 1, 0⟩
/-- MACB_TXR_CFG.LOG2S, [19:16], RW, Table 16-8. -/
def MACB_TXR_CFG_LOG2S (r : Nat) : Fld := ⟨0x10C100208 + 0x20 * r, 16, 4, 8⟩
/-- MACB_RXR_PI.INDEX, [31:0], RW, Table 16-8. -/
def MACB_RXR_PI_INDEX (r : Nat) : Fld := ⟨0x10C10010C + 0x20 * r, 0, 32, 0⟩
/-- MACB_TXR_PI.INDEX, [31:0], RW, Table 16-8. -/
def MACB_TXR_PI_INDEX (r : Nat) : Fld := ⟨0x10C10020C + 0x20 * r, 0, 32, 0⟩
/-- MACB_RXR_CI.INDEX, [31:0], RO, Table 16-8. -/
def MACB_RXR_CI_INDEX (r : Nat) : Fld := ⟨0x10C100110 + 0x20 * r, 0, 32, 0⟩
/-- MACB_TXR_CI.INDEX, [31:0], RO, Table 16-8. -/
def MACB_TXR_CI_INDEX (r : Nat) : Fld := ⟨0x10C100210 + 0x20 * r, 0, 32, 0⟩
/-- MACB_TSQ_STATUS.OVERFLOW, [31], W1C, Table 16-8. -/
def MACB_TSQ_STATUS_OVERFLOW : Fld := ⟨0x10C100300, 31, 1, 0⟩
/-- MACB_TSQ_STATUS.COUNT, [6:0], RO, Table 16-8. -/
def MACB_TSQ_STATUS_COUNT : Fld := ⟨0x10C100300, 0, 7, 0⟩
/-- MACB_TSQ_POP.POP, [31], WO, Table 16-8. -/
def MACB_TSQ_POP_POP : Fld := ⟨0x10C100304, 31, 1, 0⟩
/-- MACB_TSQ_ID.VALID, [31], RO, Table 16-8. -/
def MACB_TSQ_ID_VALID : Fld := ⟨0x10C100308, 31, 1, 0⟩
/-- MACB_TSQ_ID.ID, [15:0], RO, Table 16-8. -/
def MACB_TSQ_ID_ID : Fld := ⟨0x10C100308, 0, 16, 0⟩
/-- MACB_TSQ_TIME.STAMP, [63:0], RO, Table 16-8. -/
def MACB_TSQ_TIME_STAMP : Fld := ⟨0x10C100310, 0, 64, 0⟩
/-- MACB_PTP_CTRL.ZERO, [31:0], RO, Table 16-8. -/
def MACB_PTP_CTRL_ZERO : Fld := ⟨0x10C100400, 0, 32, 0⟩
/-- MACB_PTP_SEC.ZERO, [63:0], RO, Table 16-8. -/
def MACB_PTP_SEC_ZERO : Fld := ⟨0x10C100408, 0, 64, 0⟩
/-- MACB_PTP_NS.ZERO, [31:0], RO, Table 16-8. -/
def MACB_PTP_NS_ZERO : Fld := ⟨0x10C100410, 0, 32, 0⟩
/-- MACB_PTP_SET_SEC.ZERO, [63:0], RO, Table 16-8. -/
def MACB_PTP_SET_SEC_ZERO : Fld := ⟨0x10C100418, 0, 64, 0⟩
/-- MACB_PTP_SET_NS.ZERO, [31:0], RO, Table 16-8. -/
def MACB_PTP_SET_NS_ZERO : Fld := ⟨0x10C100420, 0, 32, 0⟩
/-- MACB_PTP_STEP.ZERO, [31:0], RO, Table 16-8. -/
def MACB_PTP_STEP_ZERO : Fld := ⟨0x10C100424, 0, 32, 0⟩
/-- MACB_PTP_RATE.ZERO, [31:0], RO, Table 16-8. -/
def MACB_PTP_RATE_ZERO : Fld := ⟨0x10C100428, 0, 32, 0⟩
/-- MACB_CNT_RX_FRAMES.COUNT, [31:0], RC, Table 16-8. -/
def MACB_CNT_RX_FRAMES_COUNT : Fld := ⟨0x10C100500, 0, 32, 0⟩
/-- MACB_CNT_RX_BYTES.COUNT, [63:0], RC, Table 16-8. -/
def MACB_CNT_RX_BYTES_COUNT : Fld := ⟨0x10C100508, 0, 64, 0⟩
/-- MACB_CNT_RX_FCS.COUNT, [31:0], RC, Table 16-8. -/
def MACB_CNT_RX_FCS_COUNT : Fld := ⟨0x10C100510, 0, 32, 0⟩
/-- MACB_CNT_RX_LONG.COUNT, [31:0], RC, Table 16-8. -/
def MACB_CNT_RX_LONG_COUNT : Fld := ⟨0x10C100514, 0, 32, 0⟩
/-- MACB_CNT_RX_FILTERED.COUNT, [31:0], RC, Table 16-8. -/
def MACB_CNT_RX_FILTERED_COUNT : Fld := ⟨0x10C100518, 0, 32, 0⟩
/-- MACB_CNT_RX_STORE.COUNT, [31:0], RC, Table 16-8. -/
def MACB_CNT_RX_STORE_COUNT : Fld := ⟨0x10C10051C, 0, 32, 0⟩
/-- MACB_CNT_RX_NOBUF.COUNT, [31:0], RC, Table 16-8. -/
def MACB_CNT_RX_NOBUF_COUNT : Fld := ⟨0x10C100520, 0, 32, 0⟩
/-- MACB_CNT_TX_FRAMES.COUNT, [31:0], RC, Table 16-8. -/
def MACB_CNT_TX_FRAMES_COUNT : Fld := ⟨0x10C100524, 0, 32, 0⟩
/-- MACB_CNT_TX_BYTES.COUNT, [63:0], RC, Table 16-8. -/
def MACB_CNT_TX_BYTES_COUNT : Fld := ⟨0x10C100528, 0, 64, 0⟩
/-- MACB_CNT_FEC_CORR.COUNT, [31:0], RC, Table 16-8. -/
def MACB_CNT_FEC_CORR_COUNT : Fld := ⟨0x10C100530, 0, 32, 0⟩
/-- MACB_CNT_FEC_UNCORR.COUNT, [31:0], RC, Table 16-8. -/
def MACB_CNT_FEC_UNCORR_COUNT : Fld := ⟨0x10C100534, 0, 32, 0⟩
/-- MACB_CNT_PAUSE_RX.COUNT, [31:0], RC, Table 16-8. -/
def MACB_CNT_PAUSE_RX_COUNT : Fld := ⟨0x10C100538, 0, 32, 0⟩
/-- MACB_CNT_PREEMPT.COUNT, [31:0], RC, Table 16-8. -/
def MACB_CNT_PREEMPT_COUNT : Fld := ⟨0x10C10053C, 0, 32, 0⟩
/-- MACB_CNT_TS_LOST.COUNT, [31:0], RC, Table 16-8. -/
def MACB_CNT_TS_LOST_COUNT : Fld := ⟨0x10C100540, 0, 32, 0⟩
/-- MACB_CNT_LINK_DOWN.COUNT, [31:0], RC, Table 16-8. -/
def MACB_CNT_LINK_DOWN_COUNT : Fld := ⟨0x10C100544, 0, 32, 0⟩
/-- PLK_CTRL.ENABLE, [31], RW, Table 16-9. -/
def PLK_CTRL_ENABLE : Fld := ⟨0x10C200000, 31, 1, 0⟩
/-- PLK_CTRL.UP_HOLD_MS, [7:0], RW, Table 16-9. -/
def PLK_CTRL_UP_HOLD_MS : Fld := ⟨0x10C200000, 0, 8, 0x64⟩
/-- PLK_STATUS.LINK, [31], RO, Table 16-9. -/
def PLK_STATUS_LINK : Fld := ⟨0x10C200008, 31, 1, 0⟩
/-- PLK_STATUS.LINK_CHG, [30], W1C, Table 16-9. -/
def PLK_STATUS_LINK_CHG : Fld := ⟨0x10C200008, 30, 1, 0⟩
/-- PLK_ADDR.ADDR, [47:0], RW, Table 16-9. -/
def PLK_ADDR_ADDR : Fld := ⟨0x10C200010, 0, 48, 0⟩
/-- PLK_CNT_RX_FRAMES.COUNT, [31:0], RC, Table 16-9. -/
def PLK_CNT_RX_FRAMES_COUNT : Fld := ⟨0x10C200500, 0, 32, 0⟩
/-- PLK_CNT_RX_BYTES.COUNT, [63:0], RC, Table 16-9. -/
def PLK_CNT_RX_BYTES_COUNT : Fld := ⟨0x10C200508, 0, 64, 0⟩
/-- PLK_CNT_RX_FCS.COUNT, [31:0], RC, Table 16-9. -/
def PLK_CNT_RX_FCS_COUNT : Fld := ⟨0x10C200510, 0, 32, 0⟩
/-- PLK_CNT_RX_OTHER.COUNT, [31:0], RC, Table 16-9. -/
def PLK_CNT_RX_OTHER_COUNT : Fld := ⟨0x10C200514, 0, 32, 0⟩
/-- PLK_CNT_TX_FRAMES.COUNT, [31:0], RC, Table 16-9. -/
def PLK_CNT_TX_FRAMES_COUNT : Fld := ⟨0x10C200524, 0, 32, 0⟩
/-- PLK_CNT_TX_BYTES.COUNT, [63:0], RC, Table 16-9. -/
def PLK_CNT_TX_BYTES_COUNT : Fld := ⟨0x10C200528, 0, 64, 0⟩
/-- PLK_CNT_FEC_CORR.COUNT, [31:0], RC, Table 16-9. -/
def PLK_CNT_FEC_CORR_COUNT : Fld := ⟨0x10C200530, 0, 32, 0⟩
/-- PLK_CNT_FEC_UNCORR.COUNT, [31:0], RC, Table 16-9. -/
def PLK_CNT_FEC_UNCORR_COUNT : Fld := ⟨0x10C200534, 0, 32, 0⟩
/-- PLK_CNT_LINK_DOWN.COUNT, [31:0], RC, Table 16-9. -/
def PLK_CNT_LINK_DOWN_COUNT : Fld := ⟨0x10C200544, 0, 32, 0⟩
/-- SVC_RXR_BASE.ADDR, [47:10], RW, Table 17-6. -/
def SVC_RXR_BASE_ADDR : Fld := ⟨0x10D000200, 10, 38, 0⟩
/-- SVC_TXR_BASE.ADDR, [47:10], RW, Table 17-6. -/
def SVC_TXR_BASE_ADDR : Fld := ⟨0x10D000220, 10, 38, 0⟩
/-- SVC_RXR_CFG.ENABLE, [31], RW, Table 17-6. -/
def SVC_RXR_CFG_ENABLE : Fld := ⟨0x10D000208, 31, 1, 0⟩
/-- SVC_RXR_CFG.IRQ_EN, [30], RW, Table 17-6. -/
def SVC_RXR_CFG_IRQ_EN : Fld := ⟨0x10D000208, 30, 1, 0⟩
/-- SVC_RXR_CFG.LOG2S, [19:16], RW, Table 17-6. -/
def SVC_RXR_CFG_LOG2S : Fld := ⟨0x10D000208, 16, 4, 8⟩
/-- SVC_TXR_CFG.ENABLE, [31], RW, Table 17-6. -/
def SVC_TXR_CFG_ENABLE : Fld := ⟨0x10D000228, 31, 1, 0⟩
/-- SVC_TXR_CFG.IRQ_EN, [30], RW, Table 17-6. -/
def SVC_TXR_CFG_IRQ_EN : Fld := ⟨0x10D000228, 30, 1, 0⟩
/-- SVC_TXR_CFG.LOG2S, [19:16], RW, Table 17-6. -/
def SVC_TXR_CFG_LOG2S : Fld := ⟨0x10D000228, 16, 4, 8⟩
/-- SVC_RXR_PI.INDEX, [31:0], RW, Table 17-6. -/
def SVC_RXR_PI_INDEX : Fld := ⟨0x10D00020C, 0, 32, 0⟩
/-- SVC_TXR_PI.INDEX, [31:0], RW, Table 17-6. -/
def SVC_TXR_PI_INDEX : Fld := ⟨0x10D00022C, 0, 32, 0⟩
/-- SVC_RXR_CI.INDEX, [31:0], RO, Table 17-6. -/
def SVC_RXR_CI_INDEX : Fld := ⟨0x10D000210, 0, 32, 0⟩
/-- SVC_TXR_CI.INDEX, [31:0], RO, Table 17-6. -/
def SVC_TXR_CI_INDEX : Fld := ⟨0x10D000230, 0, 32, 0⟩
/-- SVC_CTRL.ENABLE, [31], RW, Table 17-6. -/
def SVC_CTRL_ENABLE : Fld := ⟨0x10D000000, 31, 1, 1⟩
/-- SVC_CTRL.RESPOND, [30], RW, Table 17-6. -/
def SVC_CTRL_RESPOND : Fld := ⟨0x10D000000, 30, 1, 1⟩
/-- SVC_CTRL.CREW, [29], RW, Table 17-6. -/
def SVC_CTRL_CREW : Fld := ⟨0x10D000000, 29, 1, 0⟩
/-- SVC_STATUS.TX_BUSY, [31], RO, Table 17-6. -/
def SVC_STATUS_TX_BUSY : Fld := ⟨0x10D000004, 31, 1, 0⟩
/-- SVC_STATUS.HELD, [30], RO, Table 17-6. -/
def SVC_STATUS_HELD : Fld := ⟨0x10D000004, 30, 1, 0⟩
/-- SVC_ADDR.ADDR, [47:0], RWL, Table 17-6. -/
def SVC_ADDR_ADDR : Fld := ⟨0x10D000008, 0, 48, 0⟩
/-- SVC_INFO.FLAGS, [7:0], RW, Table 17-6. -/
def SVC_INFO_FLAGS : Fld := ⟨0x10D000010, 0, 8, 0⟩
/-- SVC_IRQ.TX, [1], W1C, Table 17-6. -/
def SVC_IRQ_TX : Fld := ⟨0x10D000014, 1, 1, 0⟩
/-- SVC_IRQ.RX, [0], W1C, Table 17-6. -/
def SVC_IRQ_RX : Fld := ⟨0x10D000014, 0, 1, 0⟩
/-- SVC_NONCE.BYTES, [31:0], RWL, Table 17-6. -/
def SVC_NONCE_BYTES (i : Nat) : Fld := ⟨0x10D000020 + 4 * i, 0, 32, 0⟩
/-- SVC_IDKEY.BYTES, [31:0], RWL, Table 17-6. -/
def SVC_IDKEY_BYTES (i : Nat) : Fld := ⟨0x10D000040 + 4 * i, 0, 32, 0⟩
/-- SVC_WAKE_HINT.MS, [15:0], RW, Table 17-6. -/
def SVC_WAKE_HINT_MS : Fld := ⟨0x10D0000A4, 0, 16, 0x9C4⟩
/-- SVC_WAKE_STATUS.WOKE, [31], W1C, Table 17-6. -/
def SVC_WAKE_STATUS_WOKE : Fld := ⟨0x10D0000A8, 31, 1, 0⟩
/-- SVC_WAKE_STATUS.PATTERN, [10:8], RO, Table 17-6. -/
def SVC_WAKE_STATUS_PATTERN : Fld := ⟨0x10D0000A8, 8, 3, 0⟩
/-- SVC_WAKE_STATUS.MATCH, [7:0], W1C, Table 17-6. -/
def SVC_WAKE_STATUS_MATCH : Fld := ⟨0x10D0000A8, 0, 8, 0⟩
/-- SVC_WPAT_CTRL.ENABLE, [31], RW, Table 17-6. -/
def SVC_WPAT_CTRL_ENABLE (p : Nat) : Fld := ⟨0x10D000600 + 0x40 * p, 31, 1, 0⟩
/-- SVC_WPAT_CTRL.OFFSET, [26:16], RW, Table 17-6. -/
def SVC_WPAT_CTRL_OFFSET (p : Nat) : Fld := ⟨0x10D000600 + 0x40 * p, 16, 11, 0⟩
/-- SVC_WPAT_CTRL.CHECK, [15:0], RW, Table 17-6. -/
def SVC_WPAT_CTRL_CHECK (p : Nat) : Fld := ⟨0x10D000600 + 0x40 * p, 0, 16, 0⟩
/-- SVC_WPAT_MASK.BYTES, [31:0], RW, Table 17-6. -/
def SVC_WPAT_MASK_BYTES (p i : Nat) : Fld := ⟨0x10D000610 + 0x40 * p + 4 * i, 0, 32, 0⟩
/-- SVC_CNT_RX_FRAMES.COUNT, [31:0], RC, Table 17-6. -/
def SVC_CNT_RX_FRAMES_COUNT : Fld := ⟨0x10D000500, 0, 32, 0⟩
/-- SVC_CNT_RX_FCS.COUNT, [31:0], RC, Table 17-6. -/
def SVC_CNT_RX_FCS_COUNT : Fld := ⟨0x10D000504, 0, 32, 0⟩
/-- SVC_CNT_RX_FILTERED.COUNT, [31:0], RC, Table 17-6. -/
def SVC_CNT_RX_FILTERED_COUNT : Fld := ⟨0x10D000508, 0, 32, 0⟩
/-- SVC_CNT_RX_NOBUF.COUNT, [31:0], RC, Table 17-6. -/
def SVC_CNT_RX_NOBUF_COUNT : Fld := ⟨0x10D00050C, 0, 32, 0⟩
/-- SVC_CNT_TX_FRAMES.COUNT, [31:0], RC, Table 17-6. -/
def SVC_CNT_TX_FRAMES_COUNT : Fld := ⟨0x10D000510, 0, 32, 0⟩
/-- SVC_CNT_COLLISIONS.COUNT, [31:0], RC, Table 17-6. -/
def SVC_CNT_COLLISIONS_COUNT : Fld := ⟨0x10D000514, 0, 32, 0⟩
/-- SVC_CNT_TX_EXCESS.COUNT, [31:0], RC, Table 17-6. -/
def SVC_CNT_TX_EXCESS_COUNT : Fld := ⟨0x10D000518, 0, 32, 0⟩
/-- SVC_CNT_LATE_COLL.COUNT, [31:0], RC, Table 17-6. -/
def SVC_CNT_LATE_COLL_COUNT : Fld := ⟨0x10D00051C, 0, 32, 0⟩
/-- SVC_CNT_WAKE.COUNT, [31:0], RC, Table 17-6. -/
def SVC_CNT_WAKE_COUNT : Fld := ⟨0x10D000520, 0, 32, 0⟩
/-- PWR_CTRL.GO, [31], WO, Table 18-7. -/
def PWR_CTRL_GO : Fld := ⟨0x100000000, 31, 1, 0⟩
/-- PWR_CTRL.TARGET, [1:0], RW, Table 18-7. -/
def PWR_CTRL_TARGET : Fld := ⟨0x100000000, 0, 2, 2⟩
/-- PWR_STATUS.BUSY, [31], RO, Table 18-7. -/
def PWR_STATUS_BUSY : Fld := ⟨0x100000004, 31, 1, 0⟩
/-- PWR_STATUS.REFUSED, [30], W1C, Table 18-7. -/
def PWR_STATUS_REFUSED : Fld := ⟨0x100000004, 30, 1, 0⟩
/-- PWR_STATUS.CAUSE, [29:27], RO, Table 18-7. -/
def PWR_STATUS_CAUSE : Fld := ⟨0x100000004, 27, 3, 0⟩
/-- PWR_STATUS.STATE, [1:0], RO, Table 18-7. -/
def PWR_STATUS_STATE : Fld := ⟨0x100000004, 0, 2, 2⟩
/-- PWR_CORES.WFI, [7:0], RO, Table 18-7. -/
def PWR_CORES_WFI : Fld := ⟨0x100000008, 0, 8, 0⟩
/-- PWR_THERM.STEP_CHG, [31], W1C, Table 18-7. -/
def PWR_THERM_STEP_CHG : Fld := ⟨0x100000010, 31, 1, 0⟩
/-- PWR_THERM.STEP, [17:16], RO, Table 18-7. -/
def PWR_THERM_STEP : Fld := ⟨0x100000010, 16, 2, 0⟩
/-- PWR_THERM.TJ, [8:0], RO, Table 18-7. -/
def PWR_THERM_TJ : Fld := ⟨0x100000010, 0, 9, 0⟩
/-- PWR_THERM_T.T3, [23:16], RWL, Table 18-7. -/
def PWR_THERM_T_T3 : Fld := ⟨0x100000014, 16, 8, 0x76⟩
/-- PWR_THERM_T.T2, [15:8], RWL, Table 18-7. -/
def PWR_THERM_T_T2 : Fld := ⟨0x100000014, 8, 8, 0x70⟩
/-- PWR_THERM_T.T1, [7:0], RWL, Table 18-7. -/
def PWR_THERM_T_T1 : Fld := ⟨0x100000014, 0, 8, 0x69⟩
/-- PWR_RESET_CAUSE.CAUSE, [3:0], RO, Table 18-7. -/
def PWR_RESET_CAUSE_CAUSE : Fld := ⟨0x100000020, 0, 4, 1⟩
/-- PWR_WAKE_CAUSE.CAUSE, [1:0], RO, Table 18-7. -/
def PWR_WAKE_CAUSE_CAUSE : Fld := ⟨0x100000024, 0, 2, 0⟩
/-- AON_OPSEC.SECONDS, [31:0], RO, Table 18-8. -/
def AON_OPSEC_SECONDS : Fld := ⟨0x100400000, 0, 32, 0⟩
/-- AON_PCYCLES.COUNT, [31:0], RO, Table 18-8. -/
def AON_PCYCLES_COUNT : Fld := ⟨0x100400004, 0, 32, 0⟩
/-- AON_MS.MS, [31:0], RO, Table 18-8. -/
def AON_MS_MS : Fld := ⟨0x100400008, 0, 32, 0⟩
/-- AON_WAKE_AT.SECONDS, [31:0], RW, Table 18-8. -/
def AON_WAKE_AT_SECONDS : Fld := ⟨0x100400010, 0, 32, 0⟩
/-- AON_WDOG.ENABLE, [31], W1S, Table 18-8. -/
def AON_WDOG_ENABLE : Fld := ⟨0x100400018, 31, 1, 0⟩
/-- AON_WDOG.KICK, [30], WO, Table 18-8. -/
def AON_WDOG_KICK : Fld := ⟨0x100400018, 30, 1, 0⟩
/-- AON_WDOG.SECONDS, [7:0], RW, Table 18-8. -/
def AON_WDOG_SECONDS : Fld := ⟨0x100400018, 0, 8, 0xA⟩
/-- AON_STATUS.DUE, [31], W1C, Table 18-8. -/
def AON_STATUS_DUE : Fld := ⟨0x10040001C, 31, 1, 0⟩
/-- COX_MBc_REQ.BYTES, [31:0], RW, Table 19-3. -/
def COX_MBc_REQ_BYTES (c i : Nat) : Fld := ⟨0x10F100000 + 0x1000 * c + 4 * i, 0, 32, 0⟩
/-- COX_MBc_RSP.BYTES, [31:0], RO, Table 19-3. -/
def COX_MBc_RSP_BYTES (c i : Nat) : Fld := ⟨0x10F100400 + 0x1000 * c + 4 * i, 0, 32, 0⟩
/-- COX_MBc_CTRL.GO, [31], WO, Table 19-3. -/
def COX_MBc_CTRL_GO (c : Nat) : Fld := ⟨0x10F100800 + 0x1000 * c, 31, 1, 0⟩
/-- COX_MBc_STATUS.BUSY, [31], RO, Table 19-3. -/
def COX_MBc_STATUS_BUSY (c : Nat) : Fld := ⟨0x10F100804 + 0x1000 * c, 31, 1, 0⟩
/-- COX_MBc_STATUS.DONE, [30], W1C, Table 19-3. -/
def COX_MBc_STATUS_DONE (c : Nat) : Fld := ⟨0x10F100804 + 0x1000 * c, 30, 1, 0⟩
/-- COX_STATE.DEBUG, [31:30], RO, Table 19-3. -/
def COX_STATE_DEBUG : Fld := ⟨0x10F108000, 30, 2, 0⟩
/-- COX_STATE.PHASE, [27:24], RO, Table 19-3. -/
def COX_STATE_PHASE : Fld := ⟨0x10F108000, 24, 4, 0⟩
/-- COX_STATE.SVN_FUSED, [23:16], RO, Table 19-3. -/
def COX_STATE_SVN_FUSED : Fld := ⟨0x10F108000, 16, 8, 0⟩
/-- COX_STATE.IMAGE_SVN, [15:8], RO, Table 19-3. -/
def COX_STATE_IMAGE_SVN : Fld := ⟨0x10F108000, 8, 8, 0⟩
/-- COX_STATE.ATTEMPT, [1:0], RO, Table 19-3. -/
def COX_STATE_ATTEMPT : Fld := ⟨0x10F108000, 0, 2, 0⟩
/-- LOG_CTRL.IRQ_EN, [31], RW, Table 20-6. -/
def LOG_CTRL_IRQ_EN : Fld := ⟨0x10E000000, 31, 1, 0⟩
/-- LOG_STATUS.NEW, [31], W1C, Table 20-6. -/
def LOG_STATUS_NEW : Fld := ⟨0x10E000004, 31, 1, 0⟩
/-- LOG_STATUS.CLEARED, [30], W1C, Table 20-6. -/
def LOG_STATUS_CLEARED : Fld := ⟨0x10E000004, 30, 1, 0⟩
/-- LOG_STATUS.KEPT_FULL, [29], RO, Table 20-6. -/
def LOG_STATUS_KEPT_FULL : Fld := ⟨0x10E000004, 29, 1, 0⟩
/-- LOG_HEAD.SEQ, [63:0], RO, Table 20-6. -/
def LOG_HEAD_SEQ : Fld := ⟨0x10E000008, 0, 64, 0⟩
/-- LOG_LOW.SEQ, [63:0], RO, Table 20-6. -/
def LOG_LOW_SEQ : Fld := ⟨0x10E000010, 0, 64, 0⟩
/-- LOG_CAL_SEC.SECONDS, [63:0], RW, Table 20-6. -/
def LOG_CAL_SEC_SECONDS : Fld := ⟨0x10E000018, 0, 64, 0⟩
/-- LOG_CAL_AT.OPSEC, [31:0], RW, Table 20-6. -/
def LOG_CAL_AT_OPSEC : Fld := ⟨0x10E000020, 0, 32, 0⟩
/-- LOG_CAL_CTRL.VALID, [31], RW, Table 20-6. -/
def LOG_CAL_CTRL_VALID : Fld := ⟨0x10E000024, 31, 1, 0⟩
/-- LOG_RL.PERIOD_S, [31:16], RW, Table 20-6. -/
def LOG_RL_PERIOD_S : Fld := ⟨0x10E000028, 16, 16, 0x3C⟩
/-- LOG_RL.BURST, [7:0], RW, Table 20-6. -/
def LOG_RL_BURST : Fld := ⟨0x10E000028, 0, 8, 0x10⟩
/-- LOG_CNT_ACCEPTED.COUNT, [31:0], RC, Table 20-6. -/
def LOG_CNT_ACCEPTED_COUNT : Fld := ⟨0x10E000030, 0, 32, 0⟩
/-- LOG_CNT_SUPPRESSED.COUNT, [31:0], RC, Table 20-6. -/
def LOG_CNT_SUPPRESSED_COUNT : Fld := ⟨0x10E000034, 0, 32, 0⟩
/-- LOG_CLEAR_UPTO.SEQ, [63:0], RWL, Table 20-6. -/
def LOG_CLEAR_UPTO_SEQ : Fld := ⟨0x10E000050, 0, 64, 0⟩
/-- LOG_SUB_P.WORD, [63:0], RW, Table 20-6. -/
def LOG_SUB_P_WORD (c j : Nat) : Fld := ⟨0x10E000100 + 0x40 * c + 8 * j, 0, 64, 0⟩
/-- LOG_SUB_P3.WORD, [31:0], RW, Table 20-6. -/
def LOG_SUB_P3_WORD (c : Nat) : Fld := ⟨0x10E000118 + 0x40 * c, 0, 32, 0⟩
/-- LOG_SUB_CTRL.GO, [31], WO, Table 20-6. -/
def LOG_SUB_CTRL_GO (c : Nat) : Fld := ⟨0x10E00011C + 0x40 * c, 31, 1, 0⟩
/-- LOG_SUB_CTRL.CODE, [15:0], WO, Table 20-6. -/
def LOG_SUB_CTRL_CODE (c : Nat) : Fld := ⟨0x10E00011C + 0x40 * c, 0, 16, 0⟩
/-- LOG_SUB_SEQ.SEQ, [63:0], RO, Table 20-6. -/
def LOG_SUB_SEQ_SEQ (c : Nat) : Fld := ⟨0x10E000120 + 0x40 * c, 0, 64, 0⟩
/-- LOG_SUB_STAT.DONE, [31], RO, Table 20-6. -/
def LOG_SUB_STAT_DONE (c : Nat) : Fld := ⟨0x10E000128 + 0x40 * c, 31, 1, 0⟩
/-- LOG_SUB_STAT.SUPPRESSED, [30], RO, Table 20-6. -/
def LOG_SUB_STAT_SUPPRESSED (c : Nat) : Fld := ⟨0x10E000128 + 0x40 * c, 30, 1, 0⟩
/-- LOG_SUB_STAT.REFUSED, [29], RO, Table 20-6. -/
def LOG_SUB_STAT_REFUSED (c : Nat) : Fld := ⟨0x10E000128 + 0x40 * c, 29, 1, 0⟩
/-- LOG_RD_FROM.SEQ, [63:0], RW, Table 20-6. -/
def LOG_RD_FROM_SEQ (c : Nat) : Fld := ⟨0x10E001000 + 0x800 * c, 0, 64, 0⟩
/-- LOG_RD_CTRL.GO, [31], WO, Table 20-6. -/
def LOG_RD_CTRL_GO (c : Nat) : Fld := ⟨0x10E001008 + 0x800 * c, 31, 1, 0⟩
/-- LOG_RD_CTRL.COUNT, [4:0], RW, Table 20-6. -/
def LOG_RD_CTRL_COUNT (c : Nat) : Fld := ⟨0x10E001008 + 0x800 * c, 0, 5, 0x10⟩
/-- LOG_RD_STAT.DONE, [31], RO, Table 20-6. -/
def LOG_RD_STAT_DONE (c : Nat) : Fld := ⟨0x10E00100C + 0x800 * c, 31, 1, 0⟩
/-- LOG_RD_STAT.RETURNED, [4:0], RO, Table 20-6. -/
def LOG_RD_STAT_RETURNED (c : Nat) : Fld := ⟨0x10E00100C + 0x800 * c, 0, 5, 0⟩
/-- LOG_RD_LOW.SEQ, [63:0], RO, Table 20-6. -/
def LOG_RD_LOW_SEQ (c : Nat) : Fld := ⟨0x10E001010 + 0x800 * c, 0, 64, 0⟩
/-- LOG_RD_DATA.BYTES, [31:0], RO, Table 20-6. -/
def LOG_RD_DATA_BYTES (c i : Nat) : Fld := ⟨0x10E001400 + 0x800 * c + 4 * i, 0, 32, 0⟩
/-- LOG_RL_OVR.BURST, [7:0], RW, Table 20-6. -/
def LOG_RL_OVR_BURST (b : Nat) : Fld := ⟨0x10E020000 + 4 * b, 0, 8, ovrReset b⟩
/-- PENT_SEL.SLOT, [5:0], RW, Table 20-6. -/
def PENT_SEL_SLOT : Fld := ⟨0x10E100000, 0, 6, 0⟩
/-- PENT_STATUS.TAKEN, [31], W1C, Table 20-6. -/
def PENT_STATUS_TAKEN : Fld := ⟨0x10E100004, 31, 1, 0⟩
/-- PENT_STATUS.BUSY, [30], RO, Table 20-6. -/
def PENT_STATUS_BUSY : Fld := ⟨0x10E100004, 30, 1, 0⟩
/-- PENT_STATUS.MISSED, [29], W1C, Table 20-6. -/
def PENT_STATUS_MISSED : Fld := ⟨0x10E100004, 29, 1, 0⟩
/-- PENT_STATUS.NEXT, [5:0], RO, Table 20-6. -/
def PENT_STATUS_NEXT : Fld := ⟨0x10E100004, 0, 6, 0⟩
/-- PENT_PSEQ.PSEQ, [63:0], RO, Table 20-6. -/
def PENT_PSEQ_PSEQ : Fld := ⟨0x10E100008, 0, 64, 0⟩
/-- PENT_SCRATCH.BYTES, [31:0], RW, Table 20-6. -/
def PENT_SCRATCH_BYTES (i : Nat) : Fld := ⟨0x10E140000 + 4 * i, 0, 32, 0⟩
/-- PENT_WINDOW.BYTES, [31:0], RO, Table 20-6. -/
def PENT_WINDOW_BYTES (i : Nat) : Fld := ⟨0x10E180000 + 4 * i, 0, 32, 0⟩
/-- SNAP_CTRL.STROBE, [31], WO, Table 20-6. -/
def SNAP_CTRL_STROBE : Fld := ⟨0x10F000000, 31, 1, 0⟩
/-- SNAP_STATUS.DONE, [31], W1C, Table 20-6. -/
def SNAP_STATUS_DONE : Fld := ⟨0x10F000004, 31, 1, 0⟩
/-- SNAP_SEQ.SEQ, [63:0], RO, Table 20-6. -/
def SNAP_SEQ_SEQ : Fld := ⟨0x10F000008, 0, 64, 0⟩
/-- SNAP_OPSEC.SECONDS, [31:0], RO, Table 20-6. -/
def SNAP_OPSEC_SECONDS : Fld := ⟨0x10F000010, 0, 32, 0⟩
/-- SNAP_MS.MS, [31:0], RO, Table 20-6. -/
def SNAP_MS_MS : Fld := ⟨0x10F000014, 0, 32, 0⟩
/-- SNAP_DOMAINS.ON, [8:0], RO, Table 20-6. -/
def SNAP_DOMAINS_ON : Fld := ⟨0x10F000018, 0, 9, 0⟩

end Sys2Proof.Machine.F
end

