-- ==== Sys2Proof/Machine/RegTable.lean ====
section
/-! DEFINITION. The register tables of the spec as data (R9, R11, Tables 01-10 to 20-6): for each register its address,
how often it stands and at which strides, whether it is 64 bits wide, and its fields with the type of Table 00-5.
A field marked row has a row of its own in spec/opcode_table.json: a plain REGISTER_WRITE leaves it to that row. -/

namespace Sys2Proof.Machine

/-- Registers of block IRQ: IRQ_SRC_ROUTE, IRQ_PEND, IRQ_THRESH, IRQ_CLAIM, IRQ_COMPLETE, IRQ_MTIMECMP, IRQ_MTIME. -/
def regsIrq : List RegFam := [
  ⟨0x100800000, [(512, 4)], false, [⟨31, 1, .rw, 0, false⟩, ⟨8, 4, .rw, 0, false⟩, ⟨0, 3, .rw, 0, false⟩]⟩,
  ⟨0x100801000, [(16, 4)], false, [⟨0, 32, .ro, 0, false⟩]⟩,
  ⟨0x100802000, [(8, 0x100)], false, [⟨0, 4, .rw, 0, false⟩]⟩,
  ⟨0x100802004, [(8, 0x100)], false, [⟨0, 9, .rc, 0, false⟩]⟩,
  ⟨0x100802008, [(8, 0x100)], false, [⟨0, 9, .wo, 0, true⟩]⟩,
  ⟨0x100802010, [(8, 0x100)], true, [⟨0, 64, .rw, 0xFFFFFFFFFFFFFFFF, false⟩]⟩,
  ⟨0x100803000, [], true, [⟨0, 64, .ro, 0, false⟩]⟩]

/-- Registers of block FAB: FAB_ERR_STATUS, FAB_ERR_INFO, FAB_ERR_ADDR, FAB_ERR_COUNT. -/
def regsFab : List RegFam := [
  ⟨0x100900000, [], false, [⟨31, 1, .w1c, 0, true⟩, ⟨30, 1, .w1c, 0, false⟩]⟩,
  ⟨0x100900004, [], false, [⟨8, 4, .ro, 0, false⟩, ⟨4, 1, .ro, 0, false⟩, ⟨0, 4, .ro, 0, false⟩]⟩,
  ⟨0x100900008, [], true, [⟨0, 48, .ro, 0, false⟩]⟩,
  ⟨0x100900010, [], false, [⟨0, 16, .rc, 0, false⟩]⟩]

/-- Registers of block HTE: HTE_CTRL, HTE_EXC_QUEUE, HTE_SESS_HOLD, HTE_BUSY_HINT, HTE_OUTSTANDING, HTE_SESSIONS, HTE_CNT_BUSY, HTE_CNT_MALFORMED, HTE_CNT_REDIRECT, HTE_CNT_AUTH_FAIL, HTE_CNT_CNP_RX, HTE_CNT_CNP_TX. -/
def regsHte0 : List RegFam := [
  ⟨0x10C300000, [], false, [⟨31, 1, .rw, 0, false⟩, ⟨30, 1, .rw, 0, false⟩]⟩,
  ⟨0x10C300004, [], false, [⟨31, 1, .rw, 0, false⟩, ⟨0, 13, .rw, 0, false⟩]⟩,
  ⟨0x10C300008, [], false, [⟨31, 1, .rw, 0, true⟩, ⟨30, 1, .ro, 0, false⟩, ⟨0, 16, .rw, 0, true⟩]⟩,
  ⟨0x10C30000C, [], false, [⟨0, 32, .rw, 0x64, false⟩]⟩,
  ⟨0x10C300010, [], false, [⟨0, 19, .ro, 0, false⟩]⟩,
  ⟨0x10C300014, [], false, [⟨0, 17, .ro, 0, false⟩]⟩,
  ⟨0x10C300020, [], false, [⟨0, 32, .rc, 0, false⟩]⟩,
  ⟨0x10C300024, [], false, [⟨0, 32, .rc, 0, false⟩]⟩,
  ⟨0x10C300028, [], false, [⟨0, 32, .rc, 0, false⟩]⟩,
  ⟨0x10C30002C, [], false, [⟨0, 32, .rc, 0, false⟩]⟩,
  ⟨0x10C300030, [], false, [⟨0, 32, .rc, 0, false⟩]⟩,
  ⟨0x10C300034, [], false, [⟨0, 32, .rc, 0, false⟩]⟩]

/-- Registers of block HTE: HTE_CMD_BASE, HTE_CAP_BASE, HTE_QBIND, HTE_DIR_BASE, HTE_SLICE_BASE, HTE_BCACHE_BASE. -/
def regsHte1 : List RegFam := [
  ⟨0x10C300058, [], true, [⟨12, 36, .rw, 0, false⟩]⟩,
  ⟨0x10C300060, [], true, [⟨12, 36, .rw, 0, false⟩]⟩,
  ⟨0x10C300070, [(4, 4)], false, [⟨31, 1, .rw, 0, false⟩, ⟨0, 13, .rw, 0, false⟩]⟩,
  ⟨0x10C300040, [], true, [⟨12, 36, .rw, 0, false⟩]⟩,
  ⟨0x10C300048, [], true, [⟨12, 36, .rw, 0, false⟩]⟩,
  ⟨0x10C300050, [], true, [⟨14, 34, .rw, 0, false⟩]⟩]

/-- Registers of block PJ: PJ_CTRL, PJ_LIMIT, PJ_STATUS, PJ_RING_HWM, PJ_DUMP_SEQ, PJ_FOUND_SEQ, PJ_TAIL, PJ_HEAD, PJ_ALLOC, PJ_ALLOC_SEQ, PJ_ALLOC_REQ, PJ_VMAP. -/
def regsPj : List RegFam := [
  ⟨0x10F200000, [], false, [⟨31, 1, .rw, 0, true⟩, ⟨30, 1, .rw, 0, false⟩, ⟨29, 1, .wo, 0, true⟩, ⟨0, 5, .rw, 0, false⟩]⟩,
  ⟨0x10F200004, [], false, [⟨0, 5, .ro, 0, false⟩]⟩,
  ⟨0x10F200008, [], false, [⟨31, 1, .w1c, 0, false⟩, ⟨30, 1, .w1c, 0, false⟩, ⟨29, 1, .ro, 0, false⟩, ⟨0, 5, .ro, 0, false⟩]⟩,
  ⟨0x10F20000C, [], false, [⟨0, 7, .rw, 0x4B, false⟩]⟩,
  ⟨0x10F200010, [], true, [⟨0, 64, .rw, 0, false⟩]⟩,
  ⟨0x10F200018, [], true, [⟨0, 64, .ro, 0, false⟩]⟩,
  ⟨0x10F200020, [], true, [⟨0, 64, .ro, 0, false⟩]⟩,
  ⟨0x10F200028, [], true, [⟨0, 64, .ro, 0, false⟩]⟩,
  ⟨0x10F200100, [(8, 0x10)], true, [⟨63, 1, .ro, 0, false⟩, ⟨0, 40, .rc, 0, false⟩]⟩,
  ⟨0x10F200108, [(8, 0x10)], true, [⟨0, 64, .ro, 0, false⟩]⟩,
  ⟨0x10F200180, [(8, 4)], false, [⟨0, 32, .wo, 0, true⟩]⟩,
  ⟨0x10F202000, [(512, 8)], true, [⟨63, 1, .rw, 0, true⟩, ⟨35, 5, .rw, 0, true⟩, ⟨32, 3, .rw, 0, true⟩, ⟨30, 2, .rw, 0, true⟩, ⟨0, 24, .rw, 0, true⟩]⟩]

/-- Registers of block ES: ES_CTRL, ES_STATUS, ES_RTEST, ES_VMIN, ES_EFF, ES_V0, ES_V1, ES_ENERGY, ES_SENSE. -/
def regsEs : List RegFam := [
  ⟨0x10F300000, [], false, [⟨31, 1, .wo, 0, true⟩, ⟨30, 1, .rw, 1, false⟩, ⟨0, 8, .rw, 0xA, false⟩]⟩,
  ⟨0x10F300004, [], false, [⟨31, 1, .ro, 0, false⟩, ⟨30, 1, .w1c, 0, false⟩, ⟨29, 1, .w1c, 0, false⟩, ⟨28, 1, .ro, 0, false⟩]⟩,
  ⟨0x10F300008, [], false, [⟨0, 16, .rwl, 0, false⟩]⟩,
  ⟨0x10F30000C, [], false, [⟨0, 16, .rwl, 0, false⟩]⟩,
  ⟨0x10F300010, [], false, [⟨0, 7, .rwl, 0x5A, false⟩]⟩,
  ⟨0x10F300014, [], false, [⟨0, 16, .ro, 0, false⟩]⟩,
  ⟨0x10F300018, [], false, [⟨0, 16, .ro, 0, false⟩]⟩,
  ⟨0x10F30001C, [], false, [⟨0, 32, .ro, 0, false⟩]⟩,
  ⟨0x10F300020, [], false, [⟨0, 16, .ro, 0, false⟩]⟩]

/-- Registers of block EC: EC_CTRL, EC_QBIND, EC_STATUS, EC_ERR_INFO, EC_ERR_ADDR, EC_CNT_ENTRIES, EC_CNT_BYTES, EC_CNT_MISMATCH. -/
def regsEc : List RegFam := [
  ⟨0x106000000, [], false, [⟨31, 1, .rw, 0, false⟩]⟩,
  ⟨0x106000010, [(4, 4)], false, [⟨31, 1, .rw, 0, false⟩, ⟨0, 13, .rw, 0, false⟩]⟩,
  ⟨0x106000020, [], false, [⟨31, 1, .ro, 0, false⟩, ⟨30, 1, .ro, 0, false⟩]⟩,
  ⟨0x106000024, [], false, [⟨31, 1, .w1c, 0, false⟩, ⟨5, 1, .ro, 0, false⟩, ⟨0, 5, .ro, 0, false⟩]⟩,
  ⟨0x106000028, [], true, [⟨0, 48, .ro, 0, false⟩]⟩,
  ⟨0x106000040, [], false, [⟨0, 32, .rc, 0, false⟩]⟩,
  ⟨0x106000048, [], true, [⟨0, 64, .rc, 0, false⟩]⟩,
  ⟨0x106000050, [], false, [⟨0, 32, .rc, 0, false⟩]⟩]

/-- Registers of block RIG: RIG_CTRL, RIG_STATUS, RIG_SRC_ADDR, RIG_SRC_LEN, RIG_IMAGE_ADDR, RIG_EPOCH, RIG_STAGED_EPOCH, RIG_CRC, RIG_STAGED_CRC, RIG_SELF, RIG_TBL_OFF, RIG_TBL_CNT. -/
def regsRig : List RegFam := [
  ⟨0x107000000, [], false, [⟨31, 1, .wo, 0, true⟩, ⟨30, 1, .wo, 0, true⟩, ⟨29, 1, .wo, 0, true⟩]⟩,
  ⟨0x107000004, [], false, [⟨31, 1, .ro, 0, false⟩, ⟨30, 1, .ro, 0, false⟩, ⟨29, 1, .ro, 0, false⟩, ⟨28, 1, .w1c, 0, false⟩, ⟨0, 8, .ro, 0, false⟩]⟩,
  ⟨0x107000008, [], true, [⟨0, 48, .rw, 0, false⟩]⟩,
  ⟨0x107000010, [], false, [⟨0, 32, .rw, 0, false⟩]⟩,
  ⟨0x107000018, [], true, [⟨0, 48, .rw, 0, false⟩]⟩,
  ⟨0x107000020, [], true, [⟨0, 64, .ro, 0, false⟩]⟩,
  ⟨0x107000028, [], true, [⟨0, 64, .ro, 0, false⟩]⟩,
  ⟨0x107000030, [], false, [⟨0, 32, .ro, 0, false⟩]⟩,
  ⟨0x107000034, [], false, [⟨0, 32, .ro, 0, false⟩]⟩,
  ⟨0x107000038, [], false, [⟨0, 16, .ro, 0, false⟩]⟩,
  ⟨0x107000104, [(10, 4)], false, [⟨0, 32, .ro, 0, false⟩]⟩,
  ⟨0x107000144, [(10, 4)], false, [⟨0, 32, .ro, 0, false⟩]⟩]

/-- Registers of block FPH: FPH_ARG, FPH_CMD, FPH_STAT, FPH_RES, FPH_HEAP. -/
def regsFph : List RegFam := [
  ⟨0x43F0000, [(8, 0x100)], true, [⟨32, 32, .rw, 0, false⟩, ⟨0, 32, .rw, 0, false⟩]⟩,
  ⟨0x43F0008, [(8, 0x100)], false, [⟨28, 4, .wo, 0, true⟩, ⟨0, 11, .wo, 0, true⟩]⟩,
  ⟨0x43F000C, [(8, 0x100)], false, [⟨31, 1, .ro, 0, false⟩, ⟨0, 11, .ro, 0, false⟩]⟩,
  ⟨0x43F0010, [(8, 0x100)], true, [⟨32, 32, .ro, 0, false⟩, ⟨0, 32, .ro, 0, false⟩]⟩,
  ⟨0x43F1000, [(1040, 8)], true, [⟨63, 1, .rw, 0, false⟩, ⟨32, 20, .rw, 0, false⟩, ⟨11, 11, .rw, 0, false⟩, ⟨0, 11, .ro, 0, false⟩]⟩]

/-- Registers of block FC: FC_CTRL, FC_GROUPS, FC_STATUS, FC_TIMING, FC_QBIND, FC_BT_BASE, FC_TO_READ, FC_TO_PROG, FC_TO_ERASE, FC_ROUND, FC_SEQ_VER, FC_SEQ_CRC. -/
def regsFc0 : List RegFam := [
  ⟨0x108000000, [(32, 0x100000)], false, [⟨31, 1, .rw, 0, false⟩, ⟨30, 1, .rwl, 0, false⟩]⟩,
  ⟨0x108000004, [(32, 0x100000)], false, [⟨0, 8, .rw, 0, false⟩]⟩,
  ⟨0x108000008, [(32, 0x100000)], false, [⟨31, 1, .ro, 0, false⟩, ⟨30, 1, .w1c, 0, false⟩, ⟨29, 1, .w1c, 0, false⟩, ⟨28, 1, .w1c, 0, false⟩, ⟨27, 1, .ro, 1, false⟩, ⟨0, 6, .ro, 0, false⟩]⟩,
  ⟨0x10800000C, [(32, 0x100000)], false, [⟨16, 16, .rw, 0xE10, false⟩, ⟨0, 16, .ro, 0, false⟩]⟩,
  ⟨0x108000010, [(32, 0x100000), (4, 4)], false, [⟨31, 1, .rw, 0, false⟩, ⟨0, 13, .rw, 0, false⟩]⟩,
  ⟨0x108000020, [(32, 0x100000)], true, [⟨12, 36, .rw, 0, false⟩]⟩,
  ⟨0x108000028, [(32, 0x100000)], false, [⟨0, 16, .rw, 0x7D0, false⟩]⟩,
  ⟨0x10800002C, [(32, 0x100000)], false, [⟨0, 16, .rw, 0x2710, false⟩]⟩,
  ⟨0x108000030, [(32, 0x100000)], false, [⟨0, 16, .rw, 0x7530, false⟩]⟩,
  ⟨0x108000034, [(32, 0x100000)], false, [⟨31, 1, .ro, 0, false⟩, ⟨0, 6, .ro, 0, false⟩]⟩,
  ⟨0x108000038, [(32, 0x100000)], false, [⟨0, 32, .ro, 0, false⟩]⟩,
  ⟨0x10800003C, [(32, 0x100000)], false, [⟨0, 32, .ro, 0, false⟩]⟩]

/-- Registers of block FC: FC_ERR_INFO, FC_ERR_ADDR, FC_CNT_READ, FC_CNT_PROG, FC_CNT_ERASE, FC_CNT_RETRY, FC_CNT_UNCORR, FC_CNT_REFUSED, FC_CNT_BYTES_RD, FC_CNT_BYTES_WR, FC_CNT_SCHED_WAIT, FC_LUN_STATUS. -/
def regsFc1 : List RegFam := [
  ⟨0x108000040, [(32, 0x100000)], false, [⟨31, 1, .w1c, 0, false⟩, ⟨5, 1, .ro, 0, false⟩, ⟨0, 5, .ro, 0, false⟩]⟩,
  ⟨0x108000048, [(32, 0x100000)], true, [⟨0, 48, .ro, 0, false⟩]⟩,
  ⟨0x108000080, [(32, 0x100000)], false, [⟨0, 32, .rc, 0, false⟩]⟩,
  ⟨0x108000084, [(32, 0x100000)], false, [⟨0, 32, .rc, 0, false⟩]⟩,
  ⟨0x108000088, [(32, 0x100000)], false, [⟨0, 32, .rc, 0, false⟩]⟩,
  ⟨0x10800008C, [(32, 0x100000)], false, [⟨0, 32, .rc, 0, false⟩]⟩,
  ⟨0x108000090, [(32, 0x100000)], false, [⟨0, 32, .rc, 0, false⟩]⟩,
  ⟨0x108000094, [(32, 0x100000)], false, [⟨0, 32, .rc, 0, false⟩]⟩,
  ⟨0x108000098, [(32, 0x100000)], true, [⟨0, 64, .rc, 0, false⟩]⟩,
  ⟨0x1080000A0, [(32, 0x100000)], true, [⟨0, 64, .rc, 0, false⟩]⟩,
  ⟨0x1080000A8, [(32, 0x100000)], false, [⟨0, 32, .rc, 0, false⟩]⟩,
  ⟨0x108001000, [(32, 0x100000), (32, 0x80)], false, [⟨31, 1, .ro, 0, false⟩, ⟨30, 1, .ro, 0, false⟩, ⟨29, 1, .ro, 0, false⟩, ⟨0, 16, .ro, 0xFFFF, false⟩]⟩]

/-- Registers of block FC: FC_LUN_CTRL, FC_LUN_TEMP, FC_LUN_GEOM, FC_LUN_BLOCKS, FC_LUN_ENDUR, FC_LUN_CNT_READ, FC_LUN_CNT_PROG, FC_LUN_CNT_ERASE, FC_LUN_CNT_CORR, FC_LUN_CNT_UNCORR, FC_LUN_CNT_TIMEOUT. -/
def regsFc2 : List RegFam := [
  ⟨0x108001004, [(32, 0x100000), (32, 0x80)], false, [⟨31, 1, .rw, 0, false⟩, ⟨30, 1, .wo, 0, true⟩]⟩,
  ⟨0x108001008, [(32, 0x100000), (32, 0x80)], false, [⟨31, 1, .ro, 0, false⟩, ⟨0, 8, .ro, 0x80, false⟩]⟩,
  ⟨0x10800100C, [(32, 0x100000), (32, 0x80)], false, [⟨28, 4, .ro, 0, false⟩, ⟨24, 4, .ro, 0, false⟩, ⟨0, 16, .ro, 0, false⟩]⟩,
  ⟨0x108001010, [(32, 0x100000), (32, 0x80)], false, [⟨0, 20, .ro, 0, false⟩]⟩,
  ⟨0x108001014, [(32, 0x100000), (32, 0x80)], false, [⟨0, 32, .ro, 0, false⟩]⟩,
  ⟨0x108001040, [(32, 0x100000), (32, 0x80)], false, [⟨0, 32, .rc, 0, false⟩]⟩,
  ⟨0x108001044, [(32, 0x100000), (32, 0x80)], false, [⟨0, 32, .rc, 0, false⟩]⟩,
  ⟨0x108001048, [(32, 0x100000), (32, 0x80)], false, [⟨0, 32, .rc, 0, false⟩]⟩,
  ⟨0x10800104C, [(32, 0x100000), (32, 0x80)], false, [⟨0, 32, .rc, 0, false⟩]⟩,
  ⟨0x108001050, [(32, 0x100000), (32, 0x80)], false, [⟨0, 32, .rc, 0, false⟩]⟩,
  ⟨0x108001054, [(32, 0x100000), (32, 0x80)], false, [⟨0, 32, .rc, 0, false⟩]⟩]

/-- Registers of block SC: SC_CTRL, SC_STATUS, SC_DIRTY_LINES, SC_STREAM, SC_STREAM_STATE, SC_WAYMASK, SC_WAY_STATUS, SC_WAY_CE, SC_UE_INFO, SC_UE_ADDR, SC_MAINT_START, SC_MAINT_END. -/
def regsSc0 : List RegFam := [
  ⟨0x101000000, [], false, [⟨31, 1, .rw, 0, true⟩]⟩,
  ⟨0x101000004, [], false, [⟨31, 1, .ro, 0, false⟩, ⟨30, 1, .ro, 0, false⟩, ⟨0, 19, .ro, 0, false⟩]⟩,
  ⟨0x101000008, [], false, [⟨0, 19, .ro, 0, false⟩]⟩,
  ⟨0x10100000C, [], false, [⟨0, 16, .rw, 0xFFFF, false⟩]⟩,
  ⟨0x101000010, [], false, [⟨0, 16, .ro, 0, false⟩]⟩,
  ⟨0x101000040, [(16, 4)], false, [⟨0, 16, .rw, 0xFFFF, false⟩]⟩,
  ⟨0x101000080, [], false, [⟨16, 16, .ro, 0, false⟩, ⟨0, 16, .w1c, 0, true⟩]⟩,
  ⟨0x1010000C0, [(16, 4)], false, [⟨0, 4, .ro, 0, false⟩]⟩,
  ⟨0x101000100, [], false, [⟨31, 1, .w1c, 0, false⟩, ⟨30, 1, .ro, 0, false⟩, ⟨4, 4, .ro, 0, false⟩, ⟨0, 4, .ro, 0, false⟩]⟩,
  ⟨0x101000108, [], true, [⟨8, 40, .ro, 0, false⟩]⟩,
  ⟨0x101000200, [], true, [⟨8, 40, .rw, 0, false⟩]⟩,
  ⟨0x101000208, [], true, [⟨8, 40, .rw, 0, false⟩]⟩]

/-- Registers of block SC: SC_MAINT_CTRL, SC_MAINT_STATUS, SC_PF_ADDR, SC_PF_CTRL, SC_PF_STATUS, SC_CNT_HIT, SC_CNT_MISS, SC_CNT_WB, SC_CNT_DECLINED, SC_CNT_CE, SC_CNT_PF_DROP, SC_CNT_NOALLOC. -/
def regsSc1 : List RegFam := [
  ⟨0x101000210, [], false, [⟨31, 1, .wo, 0, false⟩, ⟨30, 1, .rw, 0, false⟩, ⟨0, 2, .rw, 0, false⟩]⟩,
  ⟨0x101000214, [], false, [⟨31, 1, .ro, 0, false⟩, ⟨30, 1, .w1c, 0, false⟩, ⟨29, 1, .w1c, 0, false⟩]⟩,
  ⟨0x101000300, [], true, [⟨8, 40, .rw, 0, false⟩]⟩,
  ⟨0x101000308, [], false, [⟨31, 1, .wo, 0, true⟩, ⟨16, 9, .rw, 1, false⟩, ⟨0, 4, .rw, 0, false⟩]⟩,
  ⟨0x10100030C, [], false, [⟨31, 1, .ro, 0, false⟩, ⟨0, 5, .ro, 0, false⟩]⟩,
  ⟨0x101000400, [(16, 4)], false, [⟨0, 32, .rc, 0, false⟩]⟩,
  ⟨0x101000440, [(16, 4)], false, [⟨0, 32, .rc, 0, false⟩]⟩,
  ⟨0x101000480, [], false, [⟨0, 32, .rc, 0, false⟩]⟩,
  ⟨0x101000484, [], false, [⟨0, 32, .rc, 0, false⟩]⟩,
  ⟨0x101000488, [], false, [⟨0, 32, .rc, 0, false⟩]⟩,
  ⟨0x10100048C, [], false, [⟨0, 32, .rc, 0, false⟩]⟩,
  ⟨0x101000490, [], false, [⟨0, 32, .rc, 0, false⟩]⟩]

/-- Registers of block DMC: DMC_STATUS, DMC_SCRUB, DMC_ERR_INFO, DMC_ERR_ADDR, DMC_CNT_CE, DMC_CNT_UE, DMC_CNT_RD_BYTES, DMC_CNT_WR_BYTES. -/
def regsDmc : List RegFam := [
  ⟨0x10B000000, [], false, [⟨31, 1, .ro, 0, false⟩, ⟨30, 1, .ro, 0, false⟩, ⟨0, 8, .ro, 0, false⟩]⟩,
  ⟨0x10B000004, [], false, [⟨31, 1, .rw, 1, false⟩, ⟨0, 8, .rw, 0x18, false⟩]⟩,
  ⟨0x10B000010, [], false, [⟨31, 1, .w1c, 0, false⟩, ⟨30, 1, .ro, 0, false⟩, ⟨4, 4, .ro, 0, false⟩, ⟨0, 3, .ro, 0, false⟩]⟩,
  ⟨0x10B000018, [], true, [⟨0, 48, .ro, 0, false⟩]⟩,
  ⟨0x10B000040, [], false, [⟨0, 32, .rc, 0, false⟩]⟩,
  ⟨0x10B000044, [], false, [⟨0, 32, .rc, 0, false⟩]⟩,
  ⟨0x10B000048, [], true, [⟨0, 64, .rc, 0, false⟩]⟩,
  ⟨0x10B000050, [], true, [⟨0, 64, .rc, 0, false⟩]⟩]

/-- Registers of block WQ: WQ_CTRL, WQ_STATUS, WQ_ADMIN_RING, WQ_ADMIN_CQ, WQ_ADMIN_IDX, WQ_ADMIN_CFG, WQ_LBASE, WQ_DOORBELL, WQ_ECINV, WQ_ECINV_IDX, WQ_ERR_INFO, WQ_ERR_INDEX. -/
def regsWq0 : List RegFam := [
  ⟨0x102000000, [], false, [⟨31, 1, .rw, 0, false⟩, ⟨30, 1, .rw, 0, false⟩]⟩,
  ⟨0x102000004, [], false, [⟨31, 1, .ro, 1, false⟩, ⟨0, 14, .ro, 0, false⟩]⟩,
  ⟨0x102000008, [], true, [⟨12, 36, .rw, 0, false⟩]⟩,
  ⟨0x102000010, [], true, [⟨12, 36, .rw, 0, false⟩]⟩,
  ⟨0x102000018, [], true, [⟨6, 42, .rw, 0, false⟩]⟩,
  ⟨0x102000020, [], false, [⟨31, 1, .rw, 0, false⟩, ⟨16, 6, .rw, 0, false⟩, ⟨0, 5, .rw, 6, false⟩]⟩,
  ⟨0x102000030, [], true, [⟨21, 27, .rw, 0, false⟩]⟩,
  ⟨0x102000040, [], false, [⟨31, 1, .wo, 0, true⟩, ⟨0, 13, .wo, 0, true⟩]⟩,
  ⟨0x102000044, [], false, [⟨31, 1, .rw, 0, true⟩, ⟨30, 1, .ro, 0, true⟩, ⟨0, 13, .rw, 0, true⟩]⟩,
  ⟨0x102000048, [], false, [⟨0, 32, .ro, 0, false⟩]⟩,
  ⟨0x102000050, [], false, [⟨31, 1, .w1c, 0, false⟩, ⟨30, 1, .w1c, 0, false⟩, ⟨16, 3, .ro, 0, false⟩, ⟨0, 13, .ro, 0, false⟩]⟩,
  ⟨0x102000054, [], false, [⟨0, 32, .ro, 0, false⟩]⟩]

/-- Registers of block WQ: WQ_QSEL, WQ_QSTATE, WQ_QTAKEN, WQ_QCPROD, WQ_VEC_PEND, WQ_LRESTART, WQ_LRESTART_IDX, WQ_CNT_TAKEN, WQ_CNT_COMPL, WQ_CNT_HOLDBACK, WQ_CNT_POLL, WQ_LWEIGHT. -/
def regsWq1 : List RegFam := [
  ⟨0x102000060, [], false, [⟨0, 13, .rw, 0, false⟩]⟩,
  ⟨0x102000064, [], false, [⟨29, 3, .ro, 0, false⟩, ⟨28, 1, .ro, 0, false⟩, ⟨22, 6, .ro, 0, false⟩, ⟨11, 11, .ro, 0, false⟩]⟩,
  ⟨0x102000068, [], false, [⟨0, 32, .ro, 0, false⟩]⟩,
  ⟨0x10200006C, [], false, [⟨0, 32, .ro, 0, false⟩]⟩,
  ⟨0x102000070, [(2, 4)], false, [⟨0, 32, .ro, 0, false⟩]⟩,
  ⟨0x102000078, [], false, [⟨31, 1, .wo, 0, true⟩, ⟨0, 6, .wo, 0, true⟩]⟩,
  ⟨0x10200007C, [], false, [⟨0, 32, .rw, 0, false⟩]⟩,
  ⟨0x102000080, [], false, [⟨0, 32, .rc, 0, false⟩]⟩,
  ⟨0x102000084, [], false, [⟨0, 32, .rc, 0, false⟩]⟩,
  ⟨0x102000088, [], false, [⟨0, 32, .rc, 0, false⟩]⟩,
  ⟨0x10200008C, [], false, [⟨0, 32, .rc, 0, false⟩]⟩,
  ⟨0x102000400, [(64, 4)], false, [⟨8, 4, .rw, 1, false⟩, ⟨0, 8, .rw, 1, false⟩]⟩]

/-- Registers of block DMA: DMA_CTRL, DMA_STATUS, DMA_CQ_BASE, DMA_CQ_CFG, DMA_CQ_PI, DMA_CQ_CI, DMA_QBIND, DMA_CNT_BYTES, DMA_CNT_DESC, DMA_CNT_WITHDRAWN, DMA_REQ_SET, DMA_REQ_CLR. -/
def regsDma0 : List RegFam := [
  ⟨0x103000000, [], false, [⟨31, 1, .rw, 0, false⟩]⟩,
  ⟨0x103000004, [], false, [⟨31, 1, .ro, 1, false⟩, ⟨0, 9, .ro, 0, false⟩]⟩,
  ⟨0x103000008, [], true, [⟨12, 36, .rw, 0, false⟩]⟩,
  ⟨0x103000010, [], false, [⟨0, 5, .rw, 8, false⟩]⟩,
  ⟨0x103000014, [], false, [⟨0, 32, .ro, 0, false⟩]⟩,
  ⟨0x103000018, [], false, [⟨0, 32, .rw, 0, true⟩]⟩,
  ⟨0x103000020, [(4, 4)], false, [⟨31, 1, .rw, 0, false⟩, ⟨0, 13, .rw, 0, false⟩]⟩,
  ⟨0x103000040, [], true, [⟨0, 64, .rc, 0, false⟩]⟩,
  ⟨0x103000048, [], false, [⟨0, 32, .rc, 0, false⟩]⟩,
  ⟨0x10300004C, [], false, [⟨0, 32, .rc, 0, false⟩]⟩,
  ⟨0x103000050, [], false, [⟨1, 31, .w1s, 0, true⟩]⟩,
  ⟨0x103000054, [], false, [⟨1, 31, .w1c, 0, true⟩]⟩]

/-- Registers of block DMA: DMA_CH_CTRL, DMA_CH_CFG, DMA_CH_STATUS, DMA_CH_DESC, DMA_CH_LAST, DMA_CH_DONE_BYTES, DMA_CH_ERR_INFO, DMA_CH_ERR_ADDR. -/
def regsDma1 : List RegFam := [
  ⟨0x103001000, [(32, 0x80)], false, [⟨31, 1, .wo, 0, true⟩, ⟨30, 1, .wo, 0, true⟩, ⟨29, 1, .wo, 0, true⟩, ⟨28, 1, .wo, 0, true⟩, ⟨27, 1, .wo, 0, true⟩]⟩,
  ⟨0x103001004, [(32, 0x80)], false, [⟨31, 1, .rw, 0, false⟩, ⟨8, 8, .rw, 8, false⟩, ⟨6, 2, .rw, 3, false⟩, ⟨0, 6, .rw, 0, false⟩]⟩,
  ⟨0x103001008, [(32, 0x80)], false, [⟨29, 3, .ro, 0, false⟩, ⟨28, 1, .w1c, 0, false⟩, ⟨27, 1, .ro, 0, false⟩, ⟨26, 1, .ro, 0, false⟩]⟩,
  ⟨0x103001010, [(32, 0x80)], true, [⟨6, 42, .rw, 0, false⟩]⟩,
  ⟨0x103001018, [(32, 0x80)], true, [⟨0, 48, .ro, 0, false⟩]⟩,
  ⟨0x103001020, [(32, 0x80)], false, [⟨0, 32, .ro, 0, false⟩]⟩,
  ⟨0x103001024, [(32, 0x80)], false, [⟨31, 1, .w1c, 0, false⟩, ⟨3, 1, .ro, 0, false⟩, ⟨0, 3, .ro, 0, false⟩]⟩,
  ⟨0x103001028, [(32, 0x80)], true, [⟨0, 48, .ro, 0, false⟩]⟩]

/-- Registers of block ASU: ASU_CTRL, ASU_STATUS, ASU_MOVE_CTRL, ASU_MOVE_STATUS, ASU_CNT_SEARCH, ASU_CNT_HIT, ASU_CNT_MULTI, ASU_CNT_MOVE, ASU_BANK_CFG, ASU_USE_BANKS, ASU_KEY, ASU_WMASK. -/
def regsAsu0 : List RegFam := [
  ⟨0x104000000, [], false, [⟨31, 1, .rw, 0, false⟩]⟩,
  ⟨0x104000004, [], false, [⟨31, 1, .ro, 1, false⟩]⟩,
  ⟨0x104000040, [], false, [⟨31, 1, .wo, 0, true⟩, ⟨30, 1, .rw, 0, false⟩, ⟨22, 6, .rw, 0, false⟩, ⟨11, 11, .rw, 0, false⟩, ⟨0, 11, .rw, 0, false⟩]⟩,
  ⟨0x104000044, [], false, [⟨31, 1, .ro, 0, false⟩, ⟨30, 1, .w1c, 0, false⟩, ⟨29, 1, .w1c, 0, false⟩]⟩,
  ⟨0x104000080, [], true, [⟨0, 64, .rc, 0, false⟩]⟩,
  ⟨0x104000088, [], true, [⟨0, 64, .rc, 0, false⟩]⟩,
  ⟨0x104000090, [], false, [⟨0, 32, .rc, 0, false⟩]⟩,
  ⟨0x104000094, [], false, [⟨0, 32, .rc, 0, false⟩]⟩,
  ⟨0x104000100, [(64, 4)], false, [⟨31, 1, .rw, 0, true⟩, ⟨0, 2, .rw, 0, true⟩]⟩,
  ⟨0x104000200, [(5, 8)], true, [⟨0, 64, .rw, 0, false⟩]⟩,
  ⟨0x104001000, [(8, 0x400), (16, 4)], false, [⟨0, 32, .rw, 0, false⟩]⟩,
  ⟨0x104001040, [(8, 0x400), (16, 4)], false, [⟨0, 32, .rw, 0, false⟩]⟩]

/-- Registers of block ASU: ASU_WENTRY, ASU_WPRIO, ASU_WDATA, ASU_WSTATUS, ASU_SEARCH_BANKS, ASU_SEARCH, ASU_RESULT, ASU_RESULT_PRIO, ASU_RESULT_DATA, ASU_STEP_CTRL, ASU_STEP_RESULT, ASU_STEP_PRIO. -/
def regsAsu1 : List RegFam := [
  ⟨0x104001080, [(8, 0x400)], false, [⟨31, 1, .wo, 0, true⟩, ⟨30, 1, .rw, 0, false⟩, ⟨29, 1, .rw, 0, false⟩, ⟨17, 6, .rw, 0, false⟩, ⟨0, 11, .rw, 0, false⟩]⟩,
  ⟨0x104001084, [(8, 0x400)], false, [⟨0, 16, .rw, 0, false⟩]⟩,
  ⟨0x104001088, [(8, 0x400)], false, [⟨0, 32, .rw, 0, false⟩]⟩,
  ⟨0x10400108C, [(8, 0x400)], false, [⟨31, 1, .ro, 0, false⟩, ⟨30, 1, .w1c, 0, false⟩, ⟨28, 2, .ro, 0, false⟩]⟩,
  ⟨0x104001090, [(8, 0x400)], true, [⟨0, 64, .rw, 0, false⟩]⟩,
  ⟨0x104001098, [(8, 0x400)], false, [⟨31, 1, .wo, 0, true⟩, ⟨0, 2, .rw, 0, true⟩]⟩,
  ⟨0x1040010A0, [(8, 0x400)], false, [⟨31, 1, .ro, 0, false⟩, ⟨30, 1, .ro, 0, false⟩, ⟨29, 1, .ro, 0, false⟩, ⟨17, 6, .ro, 0, false⟩, ⟨0, 11, .ro, 0, false⟩]⟩,
  ⟨0x1040010A4, [(8, 0x400)], false, [⟨0, 16, .ro, 0, false⟩]⟩,
  ⟨0x1040010A8, [(8, 0x400)], false, [⟨0, 32, .ro, 0, false⟩]⟩,
  ⟨0x1040010B0, [(8, 0x400)], false, [⟨31, 1, .wo, 0, true⟩]⟩,
  ⟨0x1040010B4, [(8, 0x400)], false, [⟨31, 1, .ro, 0, false⟩, ⟨30, 1, .ro, 0, false⟩, ⟨29, 1, .ro, 0, false⟩, ⟨17, 6, .ro, 0, false⟩, ⟨0, 11, .ro, 0, false⟩]⟩,
  ⟨0x1040010B8, [(8, 0x400)], false, [⟨0, 16, .ro, 0, false⟩]⟩]

/-- Registers of block ASU: ASU_STEP_DATA. -/
def regsAsu2 : List RegFam := [
  ⟨0x1040010BC, [(8, 0x400)], false, [⟨0, 32, .ro, 0, false⟩]⟩]

/-- Registers of block CIP: CIP_CTRL, CIP_STATUS, CIP_QBIND, CIP_ERR_INFO, CIP_ERR_ADDR, CIP_CNT_GCM_BYTES, CIP_CNT_XTS_BYTES, CIP_CNT_AUTH_FAIL, CIP_CNT_LENGTH, CIP_CNT_KEYOPS, CIP_SLOT_INFO. -/
def regsCip : List RegFam := [
  ⟨0x105000000, [], false, [⟨31, 1, .rw, 0, false⟩]⟩,
  ⟨0x105000004, [], false, [⟨31, 1, .ro, 1, false⟩, ⟨30, 1, .ro, 0, false⟩, ⟨29, 1, .ro, 0, false⟩, ⟨28, 1, .ro, 0, false⟩, ⟨0, 13, .ro, 0, false⟩]⟩,
  ⟨0x105000010, [(4, 4)], false, [⟨31, 1, .rw, 0, false⟩, ⟨0, 13, .rw, 0, false⟩]⟩,
  ⟨0x105000020, [], false, [⟨31, 1, .w1c, 0, false⟩, ⟨13, 1, .ro, 0, false⟩, ⟨0, 13, .ro, 0, false⟩]⟩,
  ⟨0x105000028, [], true, [⟨0, 48, .ro, 0, false⟩]⟩,
  ⟨0x105000040, [], true, [⟨0, 64, .rc, 0, false⟩]⟩,
  ⟨0x105000048, [], true, [⟨0, 64, .rc, 0, false⟩]⟩,
  ⟨0x105000050, [], false, [⟨0, 32, .rc, 0, false⟩]⟩,
  ⟨0x105000054, [], false, [⟨0, 32, .rc, 0, false⟩]⟩,
  ⟨0x105000058, [], false, [⟨0, 32, .rc, 0, false⟩]⟩,
  ⟨0x105010000, [(4096, 8)], true, [⟨32, 32, .ro, 0, false⟩, ⟨29, 3, .ro, 0, false⟩, ⟨28, 1, .ro, 0, false⟩, ⟨0, 12, .ro, 0, false⟩]⟩]

/-- Registers of block DIG: DIG_CTRL, DIG_STATUS, DIG_QBIND, DIG_ERR_INFO, DIG_ERR_ADDR, DIG_CNT_BYTES, DIG_CNT_DIGESTS, DIG_CTX_STATE. -/
def regsDig : List RegFam := [
  ⟨0x105800000, [], false, [⟨31, 1, .rw, 0, false⟩]⟩,
  ⟨0x105800004, [], false, [⟨31, 1, .ro, 1, false⟩, ⟨0, 7, .ro, 0, false⟩]⟩,
  ⟨0x105800010, [(4, 4)], false, [⟨31, 1, .rw, 0, false⟩, ⟨0, 13, .rw, 0, false⟩]⟩,
  ⟨0x105800020, [], false, [⟨31, 1, .w1c, 0, false⟩, ⟨13, 1, .ro, 0, false⟩, ⟨0, 13, .ro, 0, false⟩]⟩,
  ⟨0x105800028, [], true, [⟨0, 48, .ro, 0, false⟩]⟩,
  ⟨0x105800040, [], true, [⟨0, 64, .rc, 0, false⟩]⟩,
  ⟨0x105800048, [], false, [⟨0, 32, .rc, 0, false⟩]⟩,
  ⟨0x105800100, [(64, 4)], false, [⟨31, 1, .ro, 0, false⟩, ⟨30, 1, .ro, 0, false⟩]⟩]

/-- Registers of block MACA: MACA_CTRL, MACA_MODE, MACA_STATUS, MACA_ADDR, MACA_MAXFRAME, MACA_VLAN, MACA_TXMAP, MACA_PREEMPT, MACA_FC, MACA_FILTER, MACA_RX_WAIT, MACA_PTP_TXLAT. -/
def regsMaca0 : List RegFam := [
  ⟨0x10C000000, [], false, [⟨31, 1, .rw, 0, false⟩, ⟨0, 8, .rw, 0x64, false⟩]⟩,
  ⟨0x10C000004, [], false, [⟨0, 2, .rw, 0, false⟩]⟩,
  ⟨0x10C000008, [], false, [⟨31, 1, .ro, 0, false⟩, ⟨30, 1, .w1c, 0, false⟩, ⟨28, 2, .ro, 0, false⟩, ⟨26, 2, .ro, 0, false⟩, ⟨25, 1, .w1c, 0, false⟩, ⟨24, 1, .ro, 0, false⟩]⟩,
  ⟨0x10C000010, [], true, [⟨0, 48, .rw, 0, false⟩]⟩,
  ⟨0x10C000018, [], false, [⟨0, 14, .rw, 0x2400, false⟩]⟩,
  ⟨0x10C00001C, [], false, [⟨31, 1, .rw, 0, false⟩, ⟨0, 12, .rw, 0, false⟩]⟩,
  ⟨0x10C000020, [], false, [⟨8, 3, .rw, 6, false⟩, ⟨4, 3, .rw, 4, false⟩, ⟨0, 3, .rw, 2, false⟩]⟩,
  ⟨0x10C000024, [], false, [⟨31, 1, .rw, 0, false⟩, ⟨8, 8, .rw, 0x80, false⟩, ⟨0, 7, .rw, 0xA, false⟩]⟩,
  ⟨0x10C000028, [], false, [⟨31, 1, .rw, 0, false⟩, ⟨16, 8, .rw, 0, false⟩]⟩,
  ⟨0x10C000030, [], false, [⟨31, 1, .rw, 0, false⟩, ⟨30, 1, .rw, 1, false⟩, ⟨3, 1, .rw, 0, false⟩, ⟨0, 3, .rw, 0, false⟩]⟩,
  ⟨0x10C000034, [], false, [⟨0, 16, .rw, 0x64, false⟩]⟩,
  ⟨0x10C000038, [], false, [⟨0, 16, .rw, 0, false⟩]⟩]

/-- Registers of block MACA: MACA_PTP_RXLAT, MACA_IRQ, MACA_ERR_INFO, MACA_ERR_ADDR, MACA_RXR_BASE, MACA_TXR_BASE, MACA_RXR_CFG, MACA_TXR_CFG, MACA_RXR_PI, MACA_TXR_PI, MACA_RXR_CI, MACA_TXR_CI. -/
def regsMaca1 : List RegFam := [
  ⟨0x10C00003C, [], false, [⟨0, 16, .rw, 0, false⟩]⟩,
  ⟨0x10C000040, [], false, [⟨8, 8, .w1c, 0, false⟩, ⟨0, 8, .w1c, 0, false⟩]⟩,
  ⟨0x10C000048, [], false, [⟨31, 1, .w1c, 0, false⟩, ⟨4, 1, .ro, 0, false⟩, ⟨3, 1, .ro, 0, false⟩, ⟨0, 3, .ro, 0, false⟩]⟩,
  ⟨0x10C000050, [], true, [⟨0, 48, .ro, 0, false⟩]⟩,
  ⟨0x10C000100, [(8, 0x20)], true, [⟨10, 38, .rw, 0, false⟩]⟩,
  ⟨0x10C000200, [(8, 0x20)], true, [⟨10, 38, .rw, 0, false⟩]⟩,
  ⟨0x10C000108, [(8, 0x20)], false, [⟨31, 1, .rw, 0, false⟩, ⟨30, 1, .rw, 0, false⟩, ⟨20, 8, .rw, 0x10, false⟩, ⟨16, 4, .rw, 8, false⟩, ⟨0, 2, .rw, 0, false⟩]⟩,
  ⟨0x10C000208, [(8, 0x20)], false, [⟨31, 1, .rw, 0, false⟩, ⟨30, 1, .rw, 0, false⟩, ⟨16, 4, .rw, 8, false⟩]⟩,
  ⟨0x10C00010C, [(8, 0x20)], false, [⟨0, 32, .rw, 0, true⟩]⟩,
  ⟨0x10C00020C, [(8, 0x20)], false, [⟨0, 32, .rw, 0, true⟩]⟩,
  ⟨0x10C000110, [(8, 0x20)], false, [⟨0, 32, .ro, 0, false⟩]⟩,
  ⟨0x10C000210, [(8, 0x20)], false, [⟨0, 32, .ro, 0, false⟩]⟩]

/-- Registers of block MACA: MACA_TSQ_STATUS, MACA_TSQ_POP, MACA_TSQ_ID, MACA_TSQ_TIME, MACA_PTP_CTRL, MACA_PTP_SEC, MACA_PTP_NS, MACA_PTP_SET_SEC, MACA_PTP_SET_NS, MACA_PTP_STEP, MACA_PTP_RATE, MACA_CNT_RX_FRAMES. -/
def regsMaca2 : List RegFam := [
  ⟨0x10C000300, [], false, [⟨31, 1, .w1c, 0, false⟩, ⟨0, 7, .ro, 0, false⟩]⟩,
  ⟨0x10C000304, [], false, [⟨31, 1, .wo, 0, true⟩]⟩,
  ⟨0x10C000308, [], false, [⟨31, 1, .ro, 0, false⟩, ⟨0, 16, .ro, 0, false⟩]⟩,
  ⟨0x10C000310, [], true, [⟨0, 64, .ro, 0, false⟩]⟩,
  ⟨0x10C000400, [], false, [⟨31, 1, .rw, 0, false⟩, ⟨30, 1, .wo, 0, false⟩, ⟨29, 1, .wo, 0, false⟩]⟩,
  ⟨0x10C000408, [], true, [⟨0, 48, .ro, 0, false⟩]⟩,
  ⟨0x10C000410, [], false, [⟨0, 30, .ro, 0, false⟩]⟩,
  ⟨0x10C000418, [], true, [⟨0, 48, .rw, 0, false⟩]⟩,
  ⟨0x10C000420, [], false, [⟨0, 30, .rw, 0, false⟩]⟩,
  ⟨0x10C000424, [], false, [⟨0, 32, .rw, 0, false⟩]⟩,
  ⟨0x10C000428, [], false, [⟨0, 32, .rw, 0, false⟩]⟩,
  ⟨0x10C000500, [], false, [⟨0, 32, .rc, 0, false⟩]⟩]

/-- Registers of block MACA: MACA_CNT_RX_BYTES, MACA_CNT_RX_FCS, MACA_CNT_RX_LONG, MACA_CNT_RX_FILTERED, MACA_CNT_RX_STORE, MACA_CNT_RX_NOBUF, MACA_CNT_TX_FRAMES, MACA_CNT_TX_BYTES, MACA_CNT_FEC_CORR, MACA_CNT_FEC_UNCORR, MACA_CNT_PAUSE_RX, MACA_CNT_PREEMPT. -/
def regsMaca3 : List RegFam := [
  ⟨0x10C000508, [], true, [⟨0, 64, .rc, 0, false⟩]⟩,
  ⟨0x10C000510, [], false, [⟨0, 32, .rc, 0, false⟩]⟩,
  ⟨0x10C000514, [], false, [⟨0, 32, .rc, 0, false⟩]⟩,
  ⟨0x10C000518, [], false, [⟨0, 32, .rc, 0, false⟩]⟩,
  ⟨0x10C00051C, [], false, [⟨0, 32, .rc, 0, false⟩]⟩,
  ⟨0x10C000520, [], false, [⟨0, 32, .rc, 0, false⟩]⟩,
  ⟨0x10C000524, [], false, [⟨0, 32, .rc, 0, false⟩]⟩,
  ⟨0x10C000528, [], true, [⟨0, 64, .rc, 0, false⟩]⟩,
  ⟨0x10C000530, [], false, [⟨0, 32, .rc, 0, false⟩]⟩,
  ⟨0x10C000534, [], false, [⟨0, 32, .rc, 0, false⟩]⟩,
  ⟨0x10C000538, [], false, [⟨0, 32, .rc, 0, false⟩]⟩,
  ⟨0x10C00053C, [], false, [⟨0, 32, .rc, 0, false⟩]⟩]

/-- Registers of block MACA: MACA_CNT_TS_LOST, MACA_CNT_LINK_DOWN. -/
def regsMaca4 : List RegFam := [
  ⟨0x10C000540, [], false, [⟨0, 32, .rc, 0, false⟩]⟩,
  ⟨0x10C000544, [], false, [⟨0, 32, .rc, 0, false⟩]⟩]

/-- Registers of block MACB: MACB_CTRL, MACB_MODE, MACB_STATUS, MACB_ADDR, MACB_MAXFRAME, MACB_VLAN, MACB_TXMAP, MACB_PREEMPT, MACB_FC, MACB_FILTER, MACB_RX_WAIT, MACB_PTP_TXLAT. -/
def regsMacb0 : List RegFam := [
  ⟨0x10C100000, [], false, [⟨31, 1, .rw, 0, false⟩, ⟨0, 8, .rw, 0x64, false⟩]⟩,
  ⟨0x10C100004, [], false, [⟨0, 2, .rw, 0, false⟩]⟩,
  ⟨0x10C100008, [], false, [⟨31, 1, .ro, 0, false⟩, ⟨30, 1, .w1c, 0, false⟩, ⟨28, 2, .ro, 0, false⟩, ⟨26, 2, .ro, 0, false⟩, ⟨25, 1, .w1c, 0, false⟩, ⟨24, 1, .ro, 0, false⟩]⟩,
  ⟨0x10C100010, [], true, [⟨0, 48, .rw, 0, false⟩]⟩,
  ⟨0x10C100018, [], false, [⟨0, 14, .rw, 0x2400, false⟩]⟩,
  ⟨0x10C10001C, [], false, [⟨31, 1, .rw, 0, false⟩, ⟨0, 12, .rw, 0, false⟩]⟩,
  ⟨0x10C100020, [], false, [⟨8, 3, .rw, 6, false⟩, ⟨4, 3, .rw, 4, false⟩, ⟨0, 3, .rw, 2, false⟩]⟩,
  ⟨0x10C100024, [], false, [⟨31, 1, .rw, 0, false⟩, ⟨8, 8, .rw, 0x80, false⟩, ⟨0, 7, .rw, 0xA, false⟩]⟩,
  ⟨0x10C100028, [], false, [⟨31, 1, .rw, 0, false⟩, ⟨16, 8, .rw, 0, false⟩]⟩,
  ⟨0x10C100030, [], false, [⟨31, 1, .rw, 0, false⟩, ⟨30, 1, .rw, 1, false⟩, ⟨3, 1, .rw, 0, false⟩, ⟨0, 3, .rw, 0, false⟩]⟩,
  ⟨0x10C100034, [], false, [⟨0, 16, .rw, 0x64, false⟩]⟩,
  ⟨0x10C100038, [], false, [⟨0, 16, .rw, 0, false⟩]⟩]

/-- Registers of block MACB: MACB_PTP_RXLAT, MACB_IRQ, MACB_ERR_INFO, MACB_ERR_ADDR, MACB_RXR_BASE, MACB_TXR_BASE, MACB_RXR_CFG, MACB_TXR_CFG, MACB_RXR_PI, MACB_TXR_PI, MACB_RXR_CI, MACB_TXR_CI. -/
def regsMacb1 : List RegFam := [
  ⟨0x10C10003C, [], false, [⟨0, 16, .rw, 0, false⟩]⟩,
  ⟨0x10C100040, [], false, [⟨8, 8, .w1c, 0, false⟩, ⟨0, 8, .w1c, 0, false⟩]⟩,
  ⟨0x10C100048, [], false, [⟨31, 1, .w1c, 0, false⟩, ⟨4, 1, .ro, 0, false⟩, ⟨3, 1, .ro, 0, false⟩, ⟨0, 3, .ro, 0, false⟩]⟩,
  ⟨0x10C100050, [], true, [⟨0, 48, .ro, 0, false⟩]⟩,
  ⟨0x10C100100, [(8, 0x20)], true, [⟨10, 38, .rw, 0, false⟩]⟩,
  ⟨0x10C100200, [(8, 0x20)], true, [⟨10, 38, .rw, 0, false⟩]⟩,
  ⟨0x10C100108, [(8, 0x20)], false, [⟨31, 1, .rw, 0, false⟩, ⟨30, 1, .rw, 0, false⟩, ⟨20, 8, .rw, 0x10, false⟩, ⟨16, 4, .rw, 8, false⟩, ⟨0, 2, .rw, 0, false⟩]⟩,
  ⟨0x10C100208, [(8, 0x20)], false, [⟨31, 1, .rw, 0, false⟩, ⟨30, 1, .rw, 0, false⟩, ⟨16, 4, .rw, 8, false⟩]⟩,
  ⟨0x10C10010C, [(8, 0x20)], false, [⟨0, 32, .rw, 0, true⟩]⟩,
  ⟨0x10C10020C, [(8, 0x20)], false, [⟨0, 32, .rw, 0, true⟩]⟩,
  ⟨0x10C100110, [(8, 0x20)], false, [⟨0, 32, .ro, 0, false⟩]⟩,
  ⟨0x10C100210, [(8, 0x20)], false, [⟨0, 32, .ro, 0, false⟩]⟩]

/-- Registers of block MACB: MACB_TSQ_STATUS, MACB_TSQ_POP, MACB_TSQ_ID, MACB_TSQ_TIME, MACB_PTP_CTRL, MACB_PTP_SEC, MACB_PTP_NS, MACB_PTP_SET_SEC, MACB_PTP_SET_NS, MACB_PTP_STEP, MACB_PTP_RATE, MACB_CNT_RX_FRAMES. -/
def regsMacb2 : List RegFam := [
  ⟨0x10C100300, [], false, [⟨31, 1, .w1c, 0, false⟩, ⟨0, 7, .ro, 0, false⟩]⟩,
  ⟨0x10C100304, [], false, [⟨31, 1, .wo, 0, true⟩]⟩,
  ⟨0x10C100308, [], false, [⟨31, 1, .ro, 0, false⟩, ⟨0, 16, .ro, 0, false⟩]⟩,
  ⟨0x10C100310, [], true, [⟨0, 64, .ro, 0, false⟩]⟩,
  ⟨0x10C100400, [], false, [⟨0, 32, .ro, 0, false⟩]⟩,
  ⟨0x10C100408, [], true, [⟨0, 64, .ro, 0, false⟩]⟩,
  ⟨0x10C100410, [], false, [⟨0, 32, .ro, 0, false⟩]⟩,
  ⟨0x10C100418, [], true, [⟨0, 64, .ro, 0, false⟩]⟩,
  ⟨0x10C100420, [], false, [⟨0, 32, .ro, 0, false⟩]⟩,
  ⟨0x10C100424, [], false, [⟨0, 32, .ro, 0, false⟩]⟩,
  ⟨0x10C100428, [], false, [⟨0, 32, .ro, 0, false⟩]⟩,
  ⟨0x10C100500, [], false, [⟨0, 32, .rc, 0, false⟩]⟩]

/-- Registers of block MACB: MACB_CNT_RX_BYTES, MACB_CNT_RX_FCS, MACB_CNT_RX_LONG, MACB_CNT_RX_FILTERED, MACB_CNT_RX_STORE, MACB_CNT_RX_NOBUF, MACB_CNT_TX_FRAMES, MACB_CNT_TX_BYTES, MACB_CNT_FEC_CORR, MACB_CNT_FEC_UNCORR, MACB_CNT_PAUSE_RX, MACB_CNT_PREEMPT. -/
def regsMacb3 : List RegFam := [
  ⟨0x10C100508, [], true, [⟨0, 64, .rc, 0, false⟩]⟩,
  ⟨0x10C100510, [], false, [⟨0, 32, .rc, 0, false⟩]⟩,
  ⟨0x10C100514, [], false, [⟨0, 32, .rc, 0, false⟩]⟩,
  ⟨0x10C100518, [], false, [⟨0, 32, .rc, 0, false⟩]⟩,
  ⟨0x10C10051C, [], false, [⟨0, 32, .rc, 0, false⟩]⟩,
  ⟨0x10C100520, [], false, [⟨0, 32, .rc, 0, false⟩]⟩,
  ⟨0x10C100524, [], false, [⟨0, 32, .rc, 0, false⟩]⟩,
  ⟨0x10C100528, [], true, [⟨0, 64, .rc, 0, false⟩]⟩,
  ⟨0x10C100530, [], false, [⟨0, 32, .rc, 0, false⟩]⟩,
  ⟨0x10C100534, [], false, [⟨0, 32, .rc, 0, false⟩]⟩,
  ⟨0x10C100538, [], false, [⟨0, 32, .rc, 0, false⟩]⟩,
  ⟨0x10C10053C, [], false, [⟨0, 32, .rc, 0, false⟩]⟩]

/-- Registers of block MACB: MACB_CNT_TS_LOST, MACB_CNT_LINK_DOWN. -/
def regsMacb4 : List RegFam := [
  ⟨0x10C100540, [], false, [⟨0, 32, .rc, 0, false⟩]⟩,
  ⟨0x10C100544, [], false, [⟨0, 32, .rc, 0, false⟩]⟩]

/-- Registers of block PLK: PLK_CTRL, PLK_STATUS, PLK_ADDR, PLK_CNT_RX_FRAMES, PLK_CNT_RX_BYTES, PLK_CNT_RX_FCS, PLK_CNT_RX_OTHER, PLK_CNT_TX_FRAMES, PLK_CNT_TX_BYTES, PLK_CNT_FEC_CORR, PLK_CNT_FEC_UNCORR, PLK_CNT_LINK_DOWN. -/
def regsPlk : List RegFam := [
  ⟨0x10C200000, [], false, [⟨31, 1, .rw, 0, false⟩, ⟨0, 8, .rw, 0x64, false⟩]⟩,
  ⟨0x10C200008, [], false, [⟨31, 1, .ro, 0, false⟩, ⟨30, 1, .w1c, 0, false⟩]⟩,
  ⟨0x10C200010, [], true, [⟨0, 48, .rw, 0, false⟩]⟩,
  ⟨0x10C200500, [], false, [⟨0, 32, .rc, 0, false⟩]⟩,
  ⟨0x10C200508, [], true, [⟨0, 64, .rc, 0, false⟩]⟩,
  ⟨0x10C200510, [], false, [⟨0, 32, .rc, 0, false⟩]⟩,
  ⟨0x10C200514, [], false, [⟨0, 32, .rc, 0, false⟩]⟩,
  ⟨0x10C200524, [], false, [⟨0, 32, .rc, 0, false⟩]⟩,
  ⟨0x10C200528, [], true, [⟨0, 64, .rc, 0, false⟩]⟩,
  ⟨0x10C200530, [], false, [⟨0, 32, .rc, 0, false⟩]⟩,
  ⟨0x10C200534, [], false, [⟨0, 32, .rc, 0, false⟩]⟩,
  ⟨0x10C200544, [], false, [⟨0, 32, .rc, 0, false⟩]⟩]

/-- Registers of block SVC: SVC_RXR_BASE, SVC_TXR_BASE, SVC_RXR_CFG, SVC_TXR_CFG, SVC_RXR_PI, SVC_TXR_PI, SVC_RXR_CI, SVC_TXR_CI, SVC_CTRL, SVC_STATUS, SVC_ADDR, SVC_INFO. -/
def regsSvc0 : List RegFam := [
  ⟨0x10D000200, [], true, [⟨10, 38, .rw, 0, false⟩]⟩,
  ⟨0x10D000220, [], true, [⟨10, 38, .rw, 0, false⟩]⟩,
  ⟨0x10D000208, [], false, [⟨31, 1, .rw, 0, false⟩, ⟨30, 1, .rw, 0, false⟩, ⟨16, 4, .rw, 8, false⟩]⟩,
  ⟨0x10D000228, [], false, [⟨31, 1, .rw, 0, false⟩, ⟨30, 1, .rw, 0, false⟩, ⟨16, 4, .rw, 8, false⟩]⟩,
  ⟨0x10D00020C, [], false, [⟨0, 32, .rw, 0, true⟩]⟩,
  ⟨0x10D00022C, [], false, [⟨0, 32, .rw, 0, true⟩]⟩,
  ⟨0x10D000210, [], false, [⟨0, 32, .ro, 0, false⟩]⟩,
  ⟨0x10D000230, [], false, [⟨0, 32, .ro, 0, false⟩]⟩,
  ⟨0x10D000000, [], false, [⟨31, 1, .rw, 1, false⟩, ⟨30, 1, .rw, 1, false⟩, ⟨29, 1, .rw, 0, false⟩]⟩,
  ⟨0x10D000004, [], false, [⟨31, 1, .ro, 0, false⟩, ⟨30, 1, .ro, 0, false⟩]⟩,
  ⟨0x10D000008, [], true, [⟨0, 48, .rwl, 0, false⟩]⟩,
  ⟨0x10D000010, [], false, [⟨0, 8, .rw, 0, false⟩]⟩]

/-- Registers of block SVC: SVC_IRQ, SVC_NONCE, SVC_IDKEY, SVC_WAKE_HINT, SVC_WAKE_STATUS, SVC_WPAT_CTRL, SVC_WPAT_MASK, SVC_CNT_RX_FRAMES, SVC_CNT_RX_FCS, SVC_CNT_RX_FILTERED, SVC_CNT_RX_NOBUF, SVC_CNT_TX_FRAMES. -/
def regsSvc1 : List RegFam := [
  ⟨0x10D000014, [], false, [⟨1, 1, .w1c, 0, false⟩, ⟨0, 1, .w1c, 0, false⟩]⟩,
  ⟨0x10D000020, [(8, 4)], false, [⟨0, 32, .rwl, 0, false⟩]⟩,
  ⟨0x10D000040, [(25, 4)], false, [⟨0, 32, .rwl, 0, false⟩]⟩,
  ⟨0x10D0000A4, [], false, [⟨0, 16, .rw, 0x9C4, false⟩]⟩,
  ⟨0x10D0000A8, [], false, [⟨31, 1, .w1c, 0, false⟩, ⟨8, 3, .ro, 0, false⟩, ⟨0, 8, .w1c, 0, false⟩]⟩,
  ⟨0x10D000600, [(8, 0x40)], false, [⟨31, 1, .rw, 0, false⟩, ⟨16, 11, .rw, 0, false⟩, ⟨0, 16, .rw, 0, false⟩]⟩,
  ⟨0x10D000610, [(8, 0x40), (4, 4)], false, [⟨0, 32, .rw, 0, false⟩]⟩,
  ⟨0x10D000500, [], false, [⟨0, 32, .rc, 0, false⟩]⟩,
  ⟨0x10D000504, [], false, [⟨0, 32, .rc, 0, false⟩]⟩,
  ⟨0x10D000508, [], false, [⟨0, 32, .rc, 0, false⟩]⟩,
  ⟨0x10D00050C, [], false, [⟨0, 32, .rc, 0, false⟩]⟩,
  ⟨0x10D000510, [], false, [⟨0, 32, .rc, 0, false⟩]⟩]

/-- Registers of block SVC: SVC_CNT_COLLISIONS, SVC_CNT_TX_EXCESS, SVC_CNT_LATE_COLL, SVC_CNT_WAKE. -/
def regsSvc2 : List RegFam := [
  ⟨0x10D000514, [], false, [⟨0, 32, .rc, 0, false⟩]⟩,
  ⟨0x10D000518, [], false, [⟨0, 32, .rc, 0, false⟩]⟩,
  ⟨0x10D00051C, [], false, [⟨0, 32, .rc, 0, false⟩]⟩,
  ⟨0x10D000520, [], false, [⟨0, 32, .rc, 0, false⟩]⟩]

/-- Registers of block PWR: PWR_CTRL, PWR_STATUS, PWR_CORES, PWR_THERM, PWR_THERM_T, PWR_RESET_CAUSE, PWR_WAKE_CAUSE. -/
def regsPwr : List RegFam := [
  ⟨0x100000000, [], false, [⟨31, 1, .wo, 0, false⟩, ⟨0, 2, .rw, 2, false⟩]⟩,
  ⟨0x100000004, [], false, [⟨31, 1, .ro, 0, false⟩, ⟨30, 1, .w1c, 0, false⟩, ⟨27, 3, .ro, 0, false⟩, ⟨0, 2, .ro, 2, false⟩]⟩,
  ⟨0x100000008, [], false, [⟨0, 8, .ro, 0, false⟩]⟩,
  ⟨0x100000010, [], false, [⟨31, 1, .w1c, 0, false⟩, ⟨16, 2, .ro, 0, false⟩, ⟨0, 9, .ro, 0, false⟩]⟩,
  ⟨0x100000014, [], false, [⟨16, 8, .rwl, 0x76, false⟩, ⟨8, 8, .rwl, 0x70, false⟩, ⟨0, 8, .rwl, 0x69, false⟩]⟩,
  ⟨0x100000020, [], false, [⟨0, 4, .ro, 1, false⟩]⟩,
  ⟨0x100000024, [], false, [⟨0, 2, .ro, 0, false⟩]⟩]

/-- Registers of block AON: AON_OPSEC, AON_PCYCLES, AON_MS, AON_WAKE_AT, AON_WDOG, AON_STATUS. -/
def regsAon : List RegFam := [
  ⟨0x100400000, [], false, [⟨0, 32, .ro, 0, false⟩]⟩,
  ⟨0x100400004, [], false, [⟨0, 32, .ro, 0, false⟩]⟩,
  ⟨0x100400008, [], false, [⟨0, 32, .ro, 0, false⟩]⟩,
  ⟨0x100400010, [], false, [⟨0, 32, .rw, 0, false⟩]⟩,
  ⟨0x100400018, [], false, [⟨31, 1, .w1s, 0, true⟩, ⟨30, 1, .wo, 0, true⟩, ⟨0, 8, .rw, 0xA, false⟩]⟩,
  ⟨0x10040001C, [], false, [⟨31, 1, .w1c, 0, false⟩]⟩]

/-- Registers of block COX: COX_MBc_REQ, COX_MBc_RSP, COX_MBc_CTRL, COX_MBc_STATUS, COX_STATE. -/
def regsCox : List RegFam := [
  ⟨0x10F100000, [(4, 0x1000), (256, 4)], false, [⟨0, 32, .rw, 0, false⟩]⟩,
  ⟨0x10F100400, [(4, 0x1000), (256, 4)], false, [⟨0, 32, .ro, 0, false⟩]⟩,
  ⟨0x10F100800, [(4, 0x1000)], false, [⟨31, 1, .wo, 0, true⟩]⟩,
  ⟨0x10F100804, [(4, 0x1000)], false, [⟨31, 1, .ro, 0, false⟩, ⟨30, 1, .w1c, 0, false⟩]⟩,
  ⟨0x10F108000, [], false, [⟨30, 2, .ro, 0, false⟩, ⟨24, 4, .ro, 0, false⟩, ⟨16, 8, .ro, 0, false⟩, ⟨8, 8, .ro, 0, false⟩, ⟨0, 2, .ro, 0, false⟩]⟩]

/-- Registers of block LOG: LOG_CTRL, LOG_STATUS, LOG_HEAD, LOG_LOW, LOG_CAL_SEC, LOG_CAL_AT, LOG_CAL_CTRL, LOG_RL, LOG_CNT_ACCEPTED, LOG_CNT_SUPPRESSED, LOG_CLEAR_UPTO, LOG_SUB_P. -/
def regsLog0 : List RegFam := [
  ⟨0x10E000000, [], false, [⟨31, 1, .rw, 0, false⟩]⟩,
  ⟨0x10E000004, [], false, [⟨31, 1, .w1c, 0, false⟩, ⟨30, 1, .w1c, 0, false⟩, ⟨29, 1, .ro, 0, false⟩]⟩,
  ⟨0x10E000008, [], true, [⟨0, 64, .ro, 0, false⟩]⟩,
  ⟨0x10E000010, [], true, [⟨0, 64, .ro, 0, false⟩]⟩,
  ⟨0x10E000018, [], true, [⟨0, 64, .rw, 0, false⟩]⟩,
  ⟨0x10E000020, [], false, [⟨0, 32, .rw, 0, false⟩]⟩,
  ⟨0x10E000024, [], false, [⟨31, 1, .rw, 0, false⟩]⟩,
  ⟨0x10E000028, [], false, [⟨16, 16, .rw, 0x3C, false⟩, ⟨0, 8, .rw, 0x10, false⟩]⟩,
  ⟨0x10E000030, [], false, [⟨0, 32, .rc, 0, false⟩]⟩,
  ⟨0x10E000034, [], false, [⟨0, 32, .rc, 0, false⟩]⟩,
  ⟨0x10E000050, [], true, [⟨0, 64, .rwl, 0, true⟩]⟩,
  ⟨0x10E000100, [(8, 0x40), (3, 8)], true, [⟨0, 64, .rw, 0, false⟩]⟩]

/-- Registers of block LOG: LOG_SUB_P3, LOG_SUB_CTRL, LOG_SUB_SEQ, LOG_SUB_STAT, LOG_RD_FROM, LOG_RD_CTRL, LOG_RD_STAT, LOG_RD_LOW, LOG_RD_DATA, LOG_RL_OVR. -/
def regsLog1 : List RegFam := [
  ⟨0x10E000118, [(8, 0x40)], false, [⟨0, 32, .rw, 0, false⟩]⟩,
  ⟨0x10E00011C, [(8, 0x40)], false, [⟨31, 1, .wo, 0, true⟩, ⟨0, 16, .wo, 0, false⟩]⟩,
  ⟨0x10E000120, [(8, 0x40)], true, [⟨0, 64, .ro, 0, false⟩]⟩,
  ⟨0x10E000128, [(8, 0x40)], false, [⟨31, 1, .ro, 0, false⟩, ⟨30, 1, .ro, 0, false⟩, ⟨29, 1, .ro, 0, false⟩]⟩,
  ⟨0x10E001000, [(8, 0x800)], true, [⟨0, 64, .rw, 0, false⟩]⟩,
  ⟨0x10E001008, [(8, 0x800)], false, [⟨31, 1, .wo, 0, true⟩, ⟨0, 5, .rw, 0x10, false⟩]⟩,
  ⟨0x10E00100C, [(8, 0x800)], false, [⟨31, 1, .ro, 0, false⟩, ⟨0, 5, .ro, 0, false⟩]⟩,
  ⟨0x10E001010, [(8, 0x800)], true, [⟨0, 64, .ro, 0, false⟩]⟩,
  ⟨0x10E001400, [(8, 0x800), (256, 4)], false, [⟨0, 32, .ro, 0, false⟩]⟩,
  ⟨0x10E020000, [(896, 4)], false, [⟨0, 8, .rw, 0, false⟩]⟩]

/-- Registers of block PENT: PENT_SEL, PENT_STATUS, PENT_PSEQ, PENT_SCRATCH, PENT_WINDOW. -/
def regsPent : List RegFam := [
  ⟨0x10E100000, [], false, [⟨0, 6, .rw, 0, false⟩]⟩,
  ⟨0x10E100004, [], false, [⟨31, 1, .w1c, 0, false⟩, ⟨30, 1, .ro, 0, false⟩, ⟨29, 1, .w1c, 0, false⟩, ⟨0, 6, .ro, 0, false⟩]⟩,
  ⟨0x10E100008, [], true, [⟨0, 64, .ro, 0, false⟩]⟩,
  ⟨0x10E140000, [(4096, 4)], false, [⟨0, 32, .rw, 0, false⟩]⟩,
  ⟨0x10E180000, [(16384, 4)], false, [⟨0, 32, .ro, 0, false⟩]⟩]

/-- Registers of block SNAP: SNAP_CTRL, SNAP_STATUS, SNAP_SEQ, SNAP_OPSEC, SNAP_MS, SNAP_DOMAINS. -/
def regsSnap : List RegFam := [
  ⟨0x10F000000, [], false, [⟨31, 1, .wo, 0, true⟩]⟩,
  ⟨0x10F000004, [], false, [⟨31, 1, .w1c, 0, false⟩]⟩,
  ⟨0x10F000008, [], true, [⟨0, 64, .ro, 0, false⟩]⟩,
  ⟨0x10F000010, [], false, [⟨0, 32, .ro, 0, false⟩]⟩,
  ⟨0x10F000014, [], false, [⟨0, 32, .ro, 0, false⟩]⟩,
  ⟨0x10F000018, [], false, [⟨0, 9, .ro, 0, false⟩]⟩]

/-- Every register of the spec, block by block. -/
def regTable : List RegFam :=
  regsIrq ++ regsFab ++ regsHte0 ++ regsHte1 ++ regsPj ++ regsEs ++ regsEc ++ regsRig ++ regsFph ++ regsFc0 ++ regsFc1 ++ regsFc2 ++ regsSc0 ++ regsSc1 ++ regsDmc ++ regsWq0 ++ regsWq1 ++ regsDma0 ++ regsDma1 ++ regsAsu0 ++ regsAsu1 ++ regsAsu2 ++ regsCip ++ regsDig ++ regsMaca0 ++ regsMaca1 ++ regsMaca2 ++ regsMaca3 ++ regsMaca4 ++ regsMacb0 ++ regsMacb1 ++ regsMacb2 ++ regsMacb3 ++ regsMacb4 ++ regsPlk ++ regsSvc0 ++ regsSvc1 ++ regsSvc2 ++ regsPwr ++ regsAon ++ regsCox ++ regsLog0 ++ regsLog1 ++ regsPent ++ regsSnap

end Sys2Proof.Machine
end

