-- ==== Sys2Proof/Machine/State.lean ====
section
/-! DEFINITION. The state of the ZLK-7160 as plain data: one structure per block, their registers in one sparse store
keyed by field, memory as listed cells, and the queue of waiting commands; the faults and refusals a step can end in;
and the state after a power-on reset. -/

namespace Sys2Proof.Machine

/-! ### What the device sends -/

/-- What the device sends or signals to the world outside it, in the order it does so. The list is the model's own
record of them: no command reads it. -/
inductive Out where
  /-- A SEND message on a host session. -/
  | host (session : Nat) (msg : Bytes)
  /-- A SEND message on a peer session. -/
  | peer (session : Nat) (msg : Bytes)
  /-- An RDMA READ request of a session: remote address, R_KEY, length. -/
  | rdmaRead (session addr rkey len : Nat)
  /-- An RDMA WRITE of a session: remote address, R_KEY, data. -/
  | rdmaWrite (session addr rkey : Nat) (data : Bytes)
  /-- An acknowledgement packet of a queue pair with its syndrome (0 ACK, 1 RNR NAK, 2 NAK Invalid Request). -/
  | roce (session syndrome : Nat)
  /-- A retransmission of a session's unacknowledged packets. -/
  | retransmit (session : Nat)
  /-- A congestion notification packet of a session. -/
  | cnp (session : Nat)
  /-- A connection management message (0 REQ, 1 REP, 2 RTU, 3 REJ, 4 DREQ, 5 DREP), the session or 0xFFFF_FFFF, the
  REJ reason or 0, and its private data. -/
  | cm (kind session reason : Nat) (data : Bytes)
  /-- A pair frame, with 1 when it travels over the pair link, and 0 over the fall-back session, whose packets use
  the highest-priority transmit queue (7), express by MACx_PREEMPT.EXPRESS (R27, R247, R500, R502). -/
  | pair (link : Bool) (frame : Bytes)
  /-- A frame on a data port (0 A, 1 B) of transmit queue `queue`. -/
  | mac (port queue : Nat) (frame : Bytes)
  /-- A cut of a preemptable frame on a data port after `sent` bytes. -/
  | cut (port sent : Nat)
  /-- A MAC Merge frame on a data port: 0 verify, 1 respond. -/
  | merge (port kind : Nat)
  /-- A frame on the service segment. -/
  | svc (frame : Bytes)
  /-- An access-fault exception of a crew core: core, exception code of R17, address. -/
  | accessFault (core code addr : Nat)
  /-- The value a read of a register or a port returned to the agent that read it. -/
  | readValue (addr value : Nat)
  /-- An ONFI command on a flash channel: channel, LUN slot, opcode, row address. -/
  | onfi (channel slot op row : Nat)
  /-- An SMBus answer of the target: the bytes with PEC, or none for a NACK. -/
  | smbus (bytes : Option Bytes)
  /-- What the JTAG port shifts out. -/
  | jtag (value : Bytes)
  deriving DecidableEq, Repr

/-! ### Interrupt distributor, cores (01) -/

/-- The interrupt distributor beyond its registers: the sources in service with the core that claimed them (R41) and
the latches of the edge sources (R43). -/
structure Irq where
  inService : List (Nat × Nat)
  latch : List Nat
  deriving DecidableEq, Repr

/-- The crew cores as far as the spec gives them state of their own outside RV64GC: the cores waiting in WFI, the cores whose instruction
cache may hold lines fetched before the latest writes (R17, R32), the bytes that crew firmware has written as (address, length, mask of
the cores that have not executed FENCE.I since) (R32), the bytes that a core has written since its last FENCE as (core, address, length)
(R33), and the physical memory protection entries that are not zero as (core, entry 0 to 15, configuration byte, address register) (R17). -/
structure Cores where
  waiting : List Nat
  icacheHeld : List Nat
  written : List (Nat × Nat × Nat)
  unfenced : List (Nat × Nat × Nat)
  pmp : List (Nat × Nat × Nat × Nat)
  deriving DecidableEq, Repr

/-! ### Sessions, commands, crew messages (02, 05) -/

/-- A session beyond the 64 attribute bytes of its context, which lie in session SRAM (R54): the identity of its CM exchange, whether this device
opened it, whether its queue pair is ready, the nonces of OPEN or HELLO, when its handshake timer ends, the cause of its closing, when its rate
step last changed, when it last sent a CNP and last took one, the retransmissions in a row, the peer session key, the last control SEQ sent and
accepted, the ephemeral context and keys of HELLO, and the RDMA READ requests outstanding as (command slot, offset, length) or (2^20 plus
queue, index of the entry, length), when a CNP last raised the step, the retry count, RNR retry count and local ACK timeout that the REQ gave (R47),
when its retransmission timer last started, and the RNR NAKs taken in a row with whether one is being waited out. -/
structure Sess where
  id : Nat
  comm : Nat
  initiator : Bool
  ready : Bool
  nonce : Bytes
  peerNonce : Bytes
  handshakeAt : Option Nat
  cause : Nat
  stepAt : Nat
  cnpTx : Option Nat
  cnpRx : Option Nat
  retries : Nat
  key : Option Bytes
  txSeq : Nat
  rxSeq : Nat
  ephCtx : Nat
  ephPub : Bytes
  peerEph : Bytes
  reads : List (Nat × Nat × Nat)
  raisedAt : Option Nat
  retryMax : Nat
  rnrMax : Nat
  ackExp : Nat
  timerAt : Nat
  rnrs : Nat
  rnrWait : Bool
  deriving DecidableEq, Repr

/-- A command accepted on a host session (R62, R86): slot, generation, session, capsule, arrival number, the reason of Table 02-11 for which it
was handed on (0 on the fast path, 254 while a rig swap holds it), whether it has started, whether its operation has ended, its result handle (R79), the final reply of a
detached command with whether it was fetched and released, the value bytes read so far, the positions found missing, the intent it waits
for as (group, stripe), the reply kept until its condition holds with the kind of condition (0 none, 1 QUORUM, 2 ALL, 3 acknowledgements),
its index changes not yet applied and the pair frames that must be mirrored first as (partner, frame number), and the time of a hold or retry. -/
structure Cmd where
  index : Nat
  gen : Nat
  session : Nat
  capsule : Bytes
  order : Nat
  reason : Nat
  started : Bool
  ended : Bool
  handle : Option Nat
  result : Option Bytes
  fetched : Bool
  released : Bool
  value : Bytes
  asked : Nat
  missing : Nat
  intent : Option (Nat × Nat)
  reply : Option Bytes
  waits : Nat
  changes : List Bytes
  mirror : List (Nat × Nat)
  retryAt : Option Nat
  deriving DecidableEq, Repr

/-- A read of a fragment at a seat on behalf of a command or of crew work: the user (command slot, or 2^20 and above for crew work), GROUP_ID,
STRIPE_ID with UNIT 0, position, seat, when it was sent, its TAG, and its reply as (status, VOID, bytes) once it came; a missed deadline is
status 0xFFFF. -/
structure Fetch where
  user : Nat
  group : Nat
  stripe : Nat
  pos : Nat
  seat : Nat
  sentAt : Nat
  tag : Nat
  reply : Option (Nat × Bool × Bytes)
  retried : Bool
  deriving DecidableEq, Repr

/-- A request sent on a peer session and not yet answered: session, TAG, opcode, the whole message, when it was first and last sent, and the hull
number of its target. -/
structure PeerReq where
  session : Nat
  tag : Nat
  op : Nat
  msg : Bytes
  firstAt : Nat
  sentAt : Nat
  hull : Nat
  deriving DecidableEq, Repr

/-- The host transport engine: sessions, commands, the generation of each slot taken, the next arrival number, entries for the exception queue
that wait for room (R85), posted receive buffers as (address, length), peer messages delivered and not yet dealt with as (session, message),
reads of fragments, peer requests outstanding, and the next TAG. -/
structure Hte where
  sessions : List Sess
  cmds : List Cmd
  gens : List (Nat × Nat)
  nextOrder : Nat
  excHeld : List Bytes
  rxBufs : List (Nat × Nat)
  peerIn : List (Nat × Bytes)
  fetches : List Fetch
  requests : List PeerReq
  nextTag : Nat
  deriving DecidableEq, Repr

/-! ### Namespaces, tenants, clocks, slices (03, 04) -/

/-- A namespace as its record gives it (Tables 03-13 and 15-6): NSID, durability, SEAL_US, quota, salt, KEY_GEN, the wrapped key blobs of its
record, and the version of the record. -/
structure Namespace where
  nsid : Nat
  durability : Nat
  sealUs : Nat
  quota : Nat
  salt : Bytes
  keyGen : Nat
  slot : Nat
  blob : Bytes
  escrow : Bytes
  version : Nat
  deriving DecidableEq, Repr

/-- A tenant (Table 03-17): ID, secret, rights, grants as (NSID, rights), the version of its record. -/
structure Tenant where
  id : Nat
  secret : Bytes
  rights : Nat
  grants : List (Nat × Nat)
  version : Nat
  deriving DecidableEq, Repr

/-- A prefix hold (Table 03-18): NSID, prefix, dated expiry, indefinite, the version of its record. -/
structure PrefixHold where
  nsid : Nat
  pfx : Bytes
  expiry : Nat
  indef : Bool
  version : Nat
  deriving DecidableEq, Repr

/-- What crew firmware keeps of a slice besides its table entry and buckets: PURGE and its candidate with the cycles recorded by seat (R195,
R196), the hold serial (R169), the stage of a takeover or hand-back (0 none, 1 TAKEOVER_PENDING, 2 TAKEN, 3 HANDING, 4 the bow acts
for it, 5 TAKEN and holding before HANDING), whether writes are refused while its index is rebuilt (R175) or its copy is not whole, the RSEQ
from which the journal's records concern the present copy, the index changes still to be written into it, and whether they are those of a rebuild
from stripes (R174). -/
structure Slice where
  slice : Nat
  purge : Nat
  cand : Option (Nat × List (Nat × Nat))
  holdSerial : Nat
  takeover : Nat
  rebuilding : Bool
  since : Nat
  refill : List Bytes
  redo : Bool
  deriving DecidableEq, Repr

/-- A DISCARD whose removal is not yet durable (R120, R162): slice, bucket, namespace, the index change, its REMOVAL
record, when the reply was sent, and once both are journaled the frames that must be mirrored as (partner hull, frame number). -/
structure Discarded where
  slice : Nat
  bucket : Nat
  nsid : Nat
  change : Bytes
  removal : Bytes
  at_ : Nat
  mirror : Option (List (Nat × Nat))
  deriving DecidableEq, Repr

/-- An administrative change under way at its acting stroke (R133, R212): its number, the host capsule (a secret in it unwrapped), the tenant
that asked, who waits (kind 0: a command slot; 1: a forwarder's session and TAG), its stage (0 the namespace-0 record is awaited, 1 the CHECK
of NS_DELETE, 2 the record sent), the value of the record and whether it is a removal, its version, the devices that have not acknowledged as
(hull number, TAG), when it was sent, the answers of a CHECK, the reply to give as (status, RESULT0), the stripe that holds the record as
(GROUP_ID, STRIPE_ID), and the hull number of the forwarder. -/
structure AdminChange where
  id : Nat
  capsule : Bytes
  tenant : Nat
  kind : Nat
  owner : Nat
  tag : Nat
  stage : Nat
  value : Bytes
  removal : Bool
  version : Nat
  waiting : List (Nat × Nat)
  sentAt : Nat
  answers : List Nat
  reply : Nat × Nat
  stripe : Option (Nat × Nat)
  hull : Nat
  deriving DecidableEq, Repr

/-- The copying of R197 from the stripes of one keeper: GROUP_ID, the keeper's seat, the slices gained, the target seats whose INVENTORY is not
complete, and the stripes still to be visited as (STRIPE_ID, GEN_ID). -/
structure Copying where
  group : Nat
  seat : Nat
  slices : List Nat
  asked : List Nat
  left : List (Nat × Nat)
  deriving DecidableEq, Repr

/-- An index rebuild from stripes (R174): GROUP_ID, the slices, the seats whose INVENTORY is not complete, the stripes found and not yet read as
(STRIPE_ID, GEN_ID), and the records kept as (STRIPE_ID with UNIT, object header and key). -/
structure IndexRebuild where
  group : Nat
  slices : List Nat
  asked : List Nat
  left : List (Nat × Nat)
  recs : List (Nat × Bytes)
  deriving DecidableEq, Repr

/-- Key-value administration and clocks: namespaces, tenants, prefix holds, slices, discards not yet durable, changes under way, the replies given to
forwarded changes as (hull number, TAG, reply), the slice-view generation (R118), the retention clock as (value, operating seconds) while
known, the calendar clock as (nanoseconds, the model's moment at which it read that) while known, when the retention clock was last saved, when FORCE 0
last advanced it (R126, R127), the slices that SLICE_DISOWN named (R193), the copying of
R197 and the index rebuilds of R174 under way, for an epoch change the slices copied in bulk with their changes since (R214), and the slices sent
to a stroke that has rejoined before they are handed back (R254). -/
structure Kv where
  nss : List Namespace
  tenants : List Tenant
  holds : List PrefixHold
  slices : List Slice
  discards : List Discarded
  changes : List AdminChange
  forwarded : List (Nat × Nat × Bytes)
  nextChange : Nat
  view : Nat
  retention : Option (Nat × Nat)
  calendar : Option (Nat × Nat)
  savedAt : Nat
  advancedAt : Option Nat
  disowned : List Nat
  copying : List Copying
  rebuilds : List IndexRebuild
  copied : List Nat
  deltas : List Bytes
  handed : List Nat
  deriving DecidableEq, Repr

/-! ### Groups (05, 07) -/

/-- What the latest GROUP_STATUS of a seat said, and when it came (R206): seat, time, DEV_STATE, G_STATE, PHASE, STAGED_EPOCH, the sender's EPOCH,
LOW, CYCLE_DONE, and the missed read deadlines within the last second (R262). -/
structure SeatInfo where
  seat : Nat
  heardAt : Nat
  dev : Nat
  gstate : Nat
  phase : Nat
  staged : Nat
  epoch : Nat
  low : Nat
  cycle : Nat
  missed : List Nat
  refusals : List (Nat × Nat)
  deriving DecidableEq, Repr

/-- A rebuild of this device's seat (R280): pass, whether it runs (else reconciling), the positions found missing as (STRIPE_ID, position, GEN_ID,
weight), done and found, whether an entry was OPEN, the INVENTORYs awaited as (seat, mode), the seats whose KEPT list is complete, the stripes
they listed as (STRIPE_ID, GEN_ID), the rate in MB/s, and when progress was last sent. -/
structure Rebuild where
  pass : Nat
  running : Bool
  missing : List (Nat × Nat × Nat × Nat)
  done : Nat
  found : Nat
  open_ : Bool
  asked : List (Nat × Nat)
  inventoried : List Nat
  listed : List (Nat × Nat)
  rate : Nat
  sentAt : Nat
  deriving DecidableEq, Repr

/-- A stripe this device keeps (R185, R286): STRIPE_ID with UNIT 0, GEN_ID, namespace, whether packed, marked lost, its INTENT has no OUTCOME, and for
a stripe of a large object the slice of its key (65,536 for a packed stripe, 65,537 once its live records are copied). -/
structure KeptStripe where
  stripe : Nat
  genId : Nat
  nsid : Nat
  packed : Bool
  lost : Bool
  open_ : Bool
  slice : Nat
  deriving DecidableEq, Repr

/-- A group this device sits in (R177 to R211): GROUP_ID, its seat, state of R64, G_SERIAL, LOST, when FORMING began, whether the device is
returning (R211) with the state kept pending and the JOINs unanswered, the next serial and the recorded ceiling (R186), the seats' reports,
CYCLE_DONE with the stripes the present cycle still has to rewrite (R196), the stripes kept, whether a descriptor stripe exists for the
GEN_ID given, the bows for which this device runs solo (R252), the seats rebuilding with their progress, this seat's rebuild, when
GROUP_STATUS was last sent, and what it told: its first 24 bytes (R206). -/
structure Group where
  id : Nat
  seat : Nat
  gstate : Nat
  gserial : Nat
  lost : Nat
  formingAt : Nat
  returning : Bool
  keptState : Option Nat
  joins : List Nat
  nextSerial : Nat
  ceiling : Nat
  seats : List SeatInfo
  cycleDone : Nat
  cycleLeft : List Nat
  kept : List KeptStripe
  descriptor : Option Nat
  solo : List Nat
  rebuilding : List (Nat × Nat × Nat)
  rebuild : Option Rebuild
  sentAt : Nat
  told : Bytes
  deriving DecidableEq, Repr

/-- The epoch change (R213 to R217): the recorded phase (0 ACTIVE, 1 STAGED, 2 PREPARED, 3 ABORTED, 5 PREPARING, 6 COMMIT), the epoch it concerns,
the container CRC, the outcomes recorded for staged epochs (true for a commit), since when the phase stands, the replies the leader still
waits for, whether every one so far was ST_OK, the queries answered as (hull number, answer), the epochs never staged here for which ABORTED is
recorded (BEHIND of Table 05-9), and what each device last reported staged as (hull number, epoch, PHASE). -/
structure Epoch where
  phase : Nat
  epoch : Nat
  crc : Nat
  outcomes : List (Nat × Bool)
  since : Nat
  waiting : List Nat
  allOk : Bool
  queried : List (Nat × Nat)
  askedAt : Nat
  refusing : Bool
  preparer : Option (Nat × Nat)
  behind : List Nat
  reports : List (Nat × Nat × Nat)
  deriving DecidableEq, Repr

/-! ### Protected journal, intents, pair channel (06) -/

/-- A stripe of an intent and one of its positions: what is to be written there ([] for a void unit), the seat, and whether it is acknowledged. -/
structure IntentUnit where
  stripe : Nat
  pos : Nat
  seat : Nat
  unit : Bytes
  acked : Bool
  deriving DecidableEq, Repr

/-- An intent of this device as keeper, or one that it resolves (R230 to R233): GROUP_ID, first STRIPE_ID, run, k, m, GEN_ID, PACKED, REWRITE,
namespace, KEY_GEN, its index changes, the frames that must be mirrored as (partner hull, frame number), its units, the step of Table 06-10 reached,
its outcome (0 none), the outcome frames to be mirrored, the seats whose FRAG_COMMIT or FRAG_ROLLBACK is unanswered, when they were last sent,
and the positions probed as held while it is resolved with those not yet answered, and DUR_ALL. -/
structure Intent where
  group : Nat
  stripe : Nat
  run : Nat
  k : Nat
  m : Nat
  genId : Nat
  packed : Bool
  rewrite : Bool
  nsid : Nat
  keyGen : Nat
  changes : List Bytes
  bows : List Nat
  mirror : List (Nat × Nat)
  units : List IntentUnit
  step : Nat
  outcome : Nat
  outMirror : List (Nat × Nat)
  seatsLeft : List Nat
  sentAt : Nat
  firstAt : Nat
  resolving : Bool
  probes : List (Nat × Nat)
  held : List (Nat × Nat)
  durAll : Bool
  deriving DecidableEq, Repr

/-- An open packed stripe (R189, R190, R235): GROUP_ID, namespace, STRIPE_ID, k, m, GEN_ID, bows by hull number, the local slot of each data unit, the
plaintext bytes used in each unit closed or being filled, FIRST_REC of each, when the first value arrived, SEAL_US of it, the frames to be
mirrored, and the records held as (unit, offset, length, slice, command slot or 2^20 for none). -/
structure OpenStripe where
  group : Nat
  nsid : Nat
  stripe : Nat
  k : Nat
  m : Nat
  genId : Nat
  keyGen : Nat
  bows : List Nat
  slots : List Nat
  used : List Nat
  first : List Nat
  firstAt : Option Nat
  sealUs : Nat
  mirror : List (Nat × Nat)
  recs : List (Nat × Nat × Nat × Nat × Nat)
  sealing : Bool
  deriving DecidableEq, Repr

/-- A pair channel (R247 to R249, R256, R621): its context's index, STATE, PATH, fall-back session, key slot, partner, TX_SEQ (next), TX_ACKED,
the frames mirrored under earlier keys (a frame's number for the mirroring tests is this plus its SEQ), RX_SEQ, the time of the last ACK
accepted, the next ACK SEQ to send and the last one accepted, when an ACK was last sent, the frames not acknowledged as (SEQ, PTYPE, the plain
body, the sealed frame, [] while it waits for room in the window or for the key), when ACK_SEQ last moved or a resend was made, the partner's PLK address, whether the partner set JOURNAL_LOST, and whether ACKs are withheld (R253). -/
structure PairCh where
  ctx : Nat
  st : Nat
  path : Nat
  fallback : Nat
  slot : Nat
  partner : Nat
  txSeq : Nat
  acked : Nat
  base : Nat
  rxSeq : Nat
  lastAckAt : Option Nat
  ackTx : Nat
  ackRx : Nat
  ackSentAt : Nat
  sent : List (Nat × Nat × Bytes × Bytes)
  movedAt : Nat
  addr : Option Bytes
  lost : Bool
  mute : Bool
  muteAt : Nat
  helloSent : Bool
  deriving DecidableEq, Repr

/-- A vault image on NAND (R240, R241): set, DUMP_SEQ, units, the power cycles and operating seconds of its headers, whether its data pages and trailers were
programmed after its headers, its block sets by LUN index, those of them erased or written since, and the journal's bytes. -/
structure VaultImage where
  vset : Nat
  seq : Nat
  units : Nat
  cycles : Nat
  opsec : Nat
  ended : Bool
  bsns : List Nat
  gone : List Nat
  cells : List Host.Cell
  deriving DecidableEq, Repr

/-- The protected journal and the pair: configured units, frames handed to the journal, the next RSEQ, reservations of the allocation ports as
(core, ring offset), intents, open stripes, pair channels, the vault images, the arm mark and the clean mark (R241, R243), whether the journal
was lost at the last start (R244), the dump under way as (set, DUMP_SEQ), the time of the test discharge, the size restored records hold
(R223), whether a restore runs, the replay's step (0 not begun, 1 the ring scanned, 2 its own intents and open stripes taken up), the leases recorded as lost by bow hull number, the takeovers
as (stroke hull number, stage 1 pending or 2 taken, the moment of the last ACK to it), what crew firmware keeps of the vault map as (entry,
value), with the size it requests as entry 512, and the ring space reserved that holds no record yet as (offset, bytes). -/
structure Pj where
  units : Nat
  rx : List Bytes
  rseq : Nat
  ports : List (Nat × Nat)
  intents : List Intent
  opens : List OpenStripe
  chans : List PairCh
  vault : List VaultImage
  armMark : Nat
  cleanMark : Nat
  lost : Bool
  dumping : Option (Nat × Nat)
  testAt : Option Nat
  restoring : Option Nat
  loading : Bool
  replay : Nat
  leases : List (Nat × Bool)
  taken : List (Nat × Nat × Nat)
  kept : List (Nat × Nat)
  reserved : List (Nat × Nat)
  deriving DecidableEq, Repr

/-! ### Rig (08) -/

/-- The staged image (R302): its directory as image offsets and counts of kinds 1 to 10 in order, its length, and the device's index. -/
structure RigStaged where
  offsets : List Nat
  counts : List Nat
  length : Nat
  self : Nat
  deriving DecidableEq, Repr

/-- The rig (R300 to R307): the staged image, the containers crew firmware keeps on NAND by epoch, whether the next round of the power
schedule is round 0 of a new schedule (R306), whether the swap under way is that of an EPOCH_COMMIT, the serial ceilings recorded for groups
the device has left (R186), and the active epoch recorded for the next start (0 none, R307). -/
structure Rig where
  staged : Option RigStaged
  kept : List (Nat × Bytes)
  newSchedule : Bool
  commit : Bool
  ceilings : List (Nat × Nat)
  active : Nat
  deriving DecidableEq, Repr

/-! ### Media management (09) -/

/-- What decides the state of a fragment identity at this seat (R332): GROUP_ID, STRIPE_ID with UNIT 0, position, kind (0 held at the stride,
2 VOID, 3 LOST, 4 MISSING as the note kinds), the stride, the sequence number, UCRC, GEN_ID, k, m. -/
structure FragItem where
  group : Nat
  stripe : Nat
  pos : Nat
  kind : Nat
  bsn : Nat
  page : Nat
  seq : Nat
  ucrc : Nat
  genId : Nat
  k : Nat
  m : Nat
  deriving DecidableEq, Repr

/-- A note (Table 09-8) and the strides that carry it; none while it is buffered in DRAM (R330). -/
structure NoteRec where
  kind : Nat
  pos : Nat
  group : Nat
  ident : Nat
  run : Nat
  seq : Nat
  places : List (Nat × Nat)
  deriving DecidableEq, Repr

/-- The newest NAND page of a bucket (R333): slice, bucket, stride, plane, WRITE_SEQ, sequence number. -/
structure BucketItem where
  slice : Nat
  bucket : Nat
  bsn : Nat
  page : Nat
  plane : Nat
  writeSeq : Nat
  seq : Nat
  deriving DecidableEq, Repr

/-- A checkpoint (R357): its CKPT_SEQ, the images of the maps, and the strides that carry them. -/
structure Ckpt where
  seq : Nat
  frags : List FragItem
  notes : List NoteRec
  buckets : List BucketItem
  wear : List (Nat × Nat)
  places : List (Nat × Nat)
  deriving DecidableEq, Repr

/-- The quantities fixed at format (R352): U0, the data strides D_N of a native block set, C_FRAG, R_SYS, SP0; and the parameter pages of the targets recorded
then, by 8 × channel + chip enable (R367). -/
structure MediaFormat where
  u0 : Nat
  dn : Nat
  cfrag : Nat
  rsys : Nat
  sp0 : Int
  pages : List (Nat × Bytes)
  deriving DecidableEq, Repr

/-- The crew settings of Tables 09-1 and 07-1 and COMPACT_PCT (R194). -/
structure CrewSettings where
  sweepDays : Nat
  sweepWakeH : Nat
  refreshAgeDays : Nat
  refreshStep : Nat
  gcLow : Nat
  gcHigh : Nat
  slcMaxPct : Nat
  opPct : Nat
  noSpacePct : Nat
  peRated : Nat
  ckptLun : Nat
  ckptS : Nat
  seatSilenceMs : Nat
  writeLimitMs : Nat
  fragReadMs : Nat
  readFailLimit : Nat
  rebuildMax : Nat
  rebuildMin : Nat
  compactPct : Nat
  deriving DecidableEq, Repr

/-- Media management (R315 to R360): the write sequence counter, the fragment map, the notes, the bucket map, the OPEN block sets as (LUN,
stream, BSN) with stream 0 intake, 1 copies, 2 SYSTEM, the LUN that intake considers next, the retired and failed-LUN skip lists, the erase
failures as (LUN, time), the format quantities, why the device is READ_ONLY (1 SPARES, 2 FULL, 3 energy), whether EV_SPARES_LOW was recorded,
the checkpoint, its time and the strides written to each LUN since, the victims with the block sets that received their copies, the sweep's
cursor, start, strides read, block sets marked and block sets with an uncorrectable stride in this cycle, the heaps as (heap, entries of KEY
and VALUE in order), the fragments repaired by the local repair under way (R266), the rates in MB/s last measured as (GROUP_ID, rate), and when the next unit may be
rebuilt or repaired (R283), the LUNs on which collection runs until its pool is filled
(R339), those on which it found nothing to free and that take no intake (R340), the sweep's cursor and start as last saved in the configuration store with the
time of the save (R345), and the crew settings. -/
structure Media where
  wseq : Nat
  frags : List FragItem
  notes : List NoteRec
  buckets : List BucketItem
  opens : List (Nat × Nat × Nat)
  nextLun : Nat
  retired : List Nat
  failed : List Nat
  eraseFails : List (Nat × Nat)
  format : Option MediaFormat
  readOnly : Option Nat
  sparesLow : Bool
  ckpt : Option Ckpt
  ckptAt : Nat
  since : List (Nat × Nat)
  victims : List (Nat × List Nat)
  sweepBsn : Nat
  sweepPage : Nat
  sweepAt : Nat
  sweepRead : Nat
  sweepMarked : Nat
  sweepBad : List Nat
  heaps : List (Nat × List (Nat × Nat))
  repaired : Nat
  repairRates : List (Nat × Nat)
  repairAt : Nat
  collecting : List Nat
  stuck : List Nat
  sweepSaved : Nat × Nat × Nat × Nat
  settings : CrewSettings
  deriving DecidableEq, Repr

/-! ### Flash channels and NAND (10) -/

/-- A programmed stride of the NAND (R317): its block-set number, its page, and the data and header of each plane. A stride not listed is
erased. -/
structure Stride where
  bsn : Nat
  page : Nat
  planes : List (Bytes × Bytes)
  deriving DecidableEq, Repr

/-- An operation on a LUN (R381): channel, LUN slot, the entry it serves by queue and index, its opcode (0x7F for the Reset LUN of
R385), when it began, the entry's bytes, and the data and headers of a program. -/
structure FcOp where
  chan : Nat
  slot : Nat
  queue : Nat
  index : Nat
  op : Nat
  since : Nat
  entry : Bytes
  data : List (Bytes × Bytes)
  deriving DecidableEq, Repr

/-- The flash channels beyond their registers: the NAND, the operations under way, the entries that wait for their round as (queue, index,
since), the feature values set as (key, bytes), the channels stopped by R369 or not yet started, the channels starting with when they
began, the parameter pages by 8 × channel + chip enable, the LUNs whose REVIVE failed (R386), when the present round began, and the programs
that ended with FAIL and whose item has not been submitted again (R343). -/
structure Fc where
  nand : List Stride
  ops : List FcOp
  waits : List (Nat × Nat × Nat)
  features : List (Nat × Bytes)
  stopped : List Nat
  starting : List (Nat × Nat)
  pages : List (Nat × Bytes)
  reviveFailed : List Nat
  roundAt : Nat
  failedProgs : List Stride
  deriving DecidableEq, Repr

/-! ### Staging cache and DRAM controller (11) -/

/-- A line of the staging cache (R390, R391): its line address A[47:8], way, allocating requester, DIRTY, CORRECTED, its bytes. -/
structure ScLine where
  line : Nat
  way : Nat
  rid : Nat
  dirty : Bool
  corrected : Bool
  data : Bytes
  deriving DecidableEq, Repr

/-- An access at a port of the cache (R395): requester, the crew core that makes it where one does, address, length, the bytes of a write,
whether it is an instruction fetch, and what ECC finds on the way (0 nothing, 1 corrected in the cache, 2 uncorrectable in the cache,
3 corrected in DRAM, 4 uncorrectable in DRAM). -/
structure ScReq where
  rid : Nat
  core : Nat
  addr : Nat
  len : Nat
  write : Option Bytes
  fetch : Bool
  err : Nat
  deriving DecidableEq, Repr

/-- A port with a read miss outstanding, or a request held under R397: its requester, the line, and the accesses that wait from
the one that missed. -/
structure ScPort where
  rid : Nat
  line : Nat
  waiting : List ScReq
  deriving DecidableEq, Repr

/-- A maintenance operation (R400): OP and the lines of its range that were held at GO and are not yet visited. -/
structure ScMaint where
  op : Nat
  all : Bool
  first : Nat
  last : Nat
  left : List Nat
  deriving DecidableEq, Repr

/-- The staging cache: lines, eviction buffer, ports, detectors as (requester, count, last line), the accesses of each way in its
window of R398, the ways being disabled with whether an uncorrectable error is the cause, the maintenance operation, the hints as
(first line, lines, requester), and the line addresses that a write has reached in DRAM under a held line since the cache was switched off (R405). -/
structure Sc where
  lines : List ScLine
  evict : List ScLine
  ports : List ScPort
  streams : List (Nat × Nat × Nat)
  windows : List (Nat × Nat)
  disabling : List (Nat × Bool)
  maint : Option ScMaint
  hints : List (Nat × Nat × Nat)
  stale : List Nat
  deriving DecidableEq, Repr


/-! ### Work queues (12) -/

/-- An entry taken whose completion is not yet settled: its queue, first index and bytes, its batch as (first index, position)
with whether it is the LAST of it, the result (12 bytes, and whether it failed) once its work is done, and whether it has
ended. Entries that have ended stand after the others, in the order in which they ended. -/
structure Taken where
  queue : Nat
  index : Nat
  bytes : Bytes
  batch : Option (Nat × Nat)
  last : Bool
  result : Option (Bytes × Bool)
  ended : Bool
  deriving DecidableEq, Repr

/-- One work queue (R412, R430): state of Table 12-7 (1 RUNNING, 2 ERROR, 3 DESTROYING), direction, poll interval (0 in
doorbell mode), ring sizes and bases, its indices as last read or written, the completions held under R425, the batch
being taken as (first index, entries so far) and the batches in which an entry has failed. -/
structure Queue where
  num : Nat
  state : Nat
  fromBlock : Bool
  poll : Nat
  log2s : Nat
  log2c : Nat
  vector : Nat
  irqEn : Bool
  ring : Nat
  cq : Nat
  idx : Nat
  sqPi : Nat
  sqCi : Nat
  cqPi : Nat
  cqCi : Nat
  held : List Bytes
  holdback : Bool
  batch : Option (Nat × Nat)
  failedBatches : List Nat
  errIndex : Nat
  deriving DecidableEq, Repr

/-- The work queue manager (12): its queues, the entries taken, the DESTROY under way as (queue, index of its entry on
queue 0), and for legacy mode the credits left in the round and, for each block, the queue visited with the entries
taken at this visit (R434). -/
structure Wq where
  queues : List Queue
  taken : List Taken
  destroying : Option (Nat × Nat)
  credits : List (Nat × Nat)
  visits : List (Nat × Nat × Nat)
  deriving DecidableEq, Repr

/-! ### DMA engine (13) -/

/-- A burst read and not yet written: its first byte's number within the descriptor and its bytes. -/
structure DmaBurst where
  start : Nat
  data : Bytes
  deriving DecidableEq, Repr

/-- A channel of the DMA engine beyond its registers (R440 to R451): the descriptor read at its start, the bytes written, the bytes whose read has
been issued, the bursts not yet written, the byte at which LAST ends the descriptor, whether STOP is being carried out, the
bytes covered by earlier wrap records, the records that wait to be appended, what follows once they are appended (0 nothing,
1 the LINK, 2 IDLE), whether IRQ_PEND is set after them, and the DMA_RUN entry served as (queue, index). -/
structure DmaCh where
  num : Nat
  desc : Option Bytes
  done : Nat
  issued : Nat
  bursts : List DmaBurst
  last : Option Nat
  stopping : Bool
  covered : Nat
  records : List (Nat × Nat)
  follow : Nat
  irqAfter : Bool
  run : Option (Nat × Nat)
  deriving DecidableEq, Repr

/-- The DMA engine: its channels that have run, and the channel served last of each class (R438). -/
structure Dma where
  chans : List DmaCh
  lastHigh : Nat
  lastLow : Nat
  deriving DecidableEq, Repr


/-! ### Palette (14) -/

/-- A unit of a bank: 128 value bits and 128 mask bits (R454). A unit not listed is all zero. -/
structure AsuUnit where
  bank : Nat
  unit : Nat
  value : Nat
  mask : Nat
  deriving DecidableEq, Repr

/-- What an entry has besides its units (R454). An entry not listed is invalid, its PRIO and ADATA 0. -/
structure AsuEnt where
  bank : Nat
  index : Nat
  valid : Bool
  prio : Nat
  adata : Nat
  deriving DecidableEq, Repr

/-- A crew port (R461, R462): the search that runs as (key, banks, WIDTH), whether its result is READY, the matches latched for
stepping in order, and the NEXT writes since. -/
structure AsuPort where
  core : Nat
  running : Option (Nat × Nat × Nat)
  latched : List (Nat × Nat)
  steps : Nat
  deriving DecidableEq, Repr

/-- A running move (R466, R467): its bank, block, direction and the entries copied so far. -/
structure AsuMove where
  bank : Nat
  first : Nat
  last : Nat
  down : Bool
  copied : Nat
  deriving DecidableEq, Repr

/-- The Palette. -/
structure Asu where
  units : List AsuUnit
  ents : List AsuEnt
  ports : List AsuPort
  move : Option AsuMove
  deriving DecidableEq, Repr


/-! ### Cipher and digest (15) -/

/-- A key slot that is not EMPTY (R478): kind of Table 15-3 (1 GCM, 2 XTS, 3 WRAP), EXPORTABLE, NSID, KEY_GEN and the key. -/
structure KeySlot where
  slot : Nat
  kind : Nat
  exportable : Bool
  nsid : Nat
  keyGen : Nat
  key : Bytes
  deriving DecidableEq, Repr

/-- A digest context in use (R490): its number, whether it is SHA-384, and the message so far. -/
structure DigCtx where
  ctx : Nat
  sha384 : Bool
  msg : Bytes
  deriving DecidableEq, Repr

/-- CIP and DIG: the key slots, the device key-encryption key and the owner escrow key (R481), the digest contexts. -/
structure Cip where
  slots : List KeySlot
  kek : Option Bytes
  escrow : Option Bytes
  ctxs : List DigCtx
  deriving DecidableEq, Repr


/-! ### Data ports and pair link (16) -/

/-- A frame held in a port's receive store for a ring (R505): the ring, its bytes without FCS, its time stamp, the class of the
Palette's answer and whether it hit, and when it arrived. -/
structure MacStored where
  ring : Nat
  data : Bytes
  stamp : Nat
  cls : Nat
  hit : Bool
  arrived : Nat
  deriving DecidableEq, Repr

/-- A frame a port is sending or has cut (R500, R503): its queue, whether it is its crew ring's, its bytes without FCS, the bytes of
frame data sent when the present fragment began, its stamp, whether it is discarded because the link is down, and a TSTAT that
stopped it before it was sent. -/
structure MacTx where
  queue : Nat
  crew : Bool
  data : Bytes
  fragFrom : Nat
  stamp : Nat
  drop : Bool
  tstat : Nat
  deriving DecidableEq, Repr

/-- A data port beyond its registers (0 A, 1 B): the receive store, the frame being sent and the one cut, the queues paused with the end
of the pause, whether each queue's last frame was the engine's, the verify frames sent with the next time, and the time-stamp
queue as (TS_ID, stamp). -/
structure MacPort where
  num : Nat
  store : List MacStored
  sending : Option MacTx
  cutFrame : Option MacTx
  paused : List (Nat × Nat)
  lastEngine : List Nat
  verifySent : Nat
  verifyAt : Nat
  tsq : List (Nat × Nat)
  deriving DecidableEq, Repr

/-- The data ports and the PTP clock (R509): its nanoseconds since its origin at the moment given. -/
structure Net where
  ports : List MacPort
  ptpNs : Nat
  ptpAt : Nat
  deriving DecidableEq, Repr


/-! ### Service port (17) -/

/-- A frame of the service port on its way out (R517): its bytes without FCS, whether it is the transmit ring's, the collisions so far,
the end of its back-off while one runs, and the TSTAT that stopped it (0 while none did). -/
structure SvcTx where
  data : Bytes
  crew : Bool
  collisions : Nat
  backoff : Option Nat
  tstat : Nat
  deriving DecidableEq, Repr

/-- The service port beyond its registers: the responder's replies queued, the frame being sent, the frame held in the wake buffer with
its pattern (R519), the requests for the responder and for crew firmware in arrival order, and the pieces of a bundle and of a
container gathered in DRAM as (offset, bytes) (R525), and the TAG of the administrative change that a TENANT_INIT waits for (0 one taken up here). -/
structure Svc where
  replies : List Bytes
  sending : Option SvcTx
  held : Option (Bytes × Nat)
  responder : List Bytes
  requests : List Bytes
  image : List (Nat × Bytes)
  rig : List (Nat × Bytes)
  init : Option Nat
  deriving DecidableEq, Repr


/-! ### Power, always-on domain (18) -/

/-- Power states, counters and thermal logic (18): domains on; the device state of Table 18-4; the power state being moved to;
the wake latched during a power-down as (cause, pattern); the operating seconds at a moment; the moments from which AON_MS and
IRQ_MTIME count; the counter ring of R541 as (OPSEC, PCYCLES, sequence); the time of the last counter record; the watchdog's
expiry while it counts; the moment since which TJ has been below the leave temperature; the cause of a reset that is held
(R548); the step reached of Table 18-2; whether a start from sleep is under way; whether the next start runs the full scan
(R525); whether SERVICE was entered; the docking notices sent; the first WAKE and the next for each docked seat needed as
(hull number, first, next) (R538). -/
structure Pwr where
  on : List Domain
  dev : Nat
  move : Option PState
  wakeLatched : Option (Nat × Nat)
  opsecBase : Nat
  opsecAt : Nat
  msAt : Nat
  mtimeAt : Nat
  ring : List (Nat × Nat × Nat)
  recordAt : Nat
  wdogAt : Option Nat
  coolSince : Option Nat
  resetHold : Option Nat
  start : Nat
  waking : Bool
  fullScan : Bool
  notices : Nat
  wakes : List (Nat × Nat × Nat)
  deriving DecidableEq, Repr


/-! ### Cox (19) -/

/-- A record of the configuration store (R567): KEY, DELETE flag, SEQ, data. -/
structure CfgRec where
  key : Nat
  del : Bool
  seq : Nat
  data : Bytes
  deriving DecidableEq, Repr

/-- A configuration store copy: 0 A, 1 B; FORMAT, GEN and its records, oldest first, and the bytes used. -/
structure CfgCopy where
  copy : Nat
  format : Nat
  gen : Nat
  recs : List CfgRec
  used : Nat
  deriving DecidableEq, Repr

/-- A restore of the fallback under way or an image being written: none of its bytes are the image yet (R563, R565). -/
structure FallbackMap where
  entries : List Nat
  len : Nat
  crc : Nat
  svn : Nat
  deriving DecidableEq, Repr

/-- Cox and the NOR regions it alone uses (R554 to R570): the active image region ([] while erased), the configuration store copies, the copy
kept untouched through a trial, the fuses burnt (SVN_FUSED and revoked key sets), the update phase of COX_STATE.PHASE, the boot attempts,
the fallback map, the enclosure key, the debug challenge, the last channel served,
the FC_LOAD in progress as (mailbox channel, flash channels still starting), the peer ephemeral contexts as (CTX, private key), the next
CTX, the last service SEQ accepted, whether Cox dropped its identity and enclosure keys (R570), the log clear granted, whether the values of
R555 are locked, the release time of crew cores 0 and 1, whether the active image has verified since the last reset, the owner escrow key stored as a
Cox key, and the board values stored as Cox keys by the low digit of the key that CFG_WRITE uses for each (1 ES_RTEST, 2 ES_VMIN, 3 ES_EFF, 4 to 6
T1 to T3). -/
structure Cox where
  image : Bytes
  copies : List CfgCopy
  keptOld : Option Nat
  svnFused : Nat
  revoked : List Nat
  phase : Nat
  attempt : Nat
  fallback : Option FallbackMap
  enclosure : Option Bytes
  challenge : Option Bytes
  lastServed : Nat
  loading : Option (Nat × List Nat)
  ephs : List (Nat × Bytes)
  nextCtx : Nat
  svcSeq : Nat
  dropped : Bool
  clearGranted : Option Nat
  locked : Bool
  releasedAt : Option Nat
  verified : Bool
  escrowKey : Option Bytes
  board : List (Nat × Nat)
  deriving DecidableEq, Repr


/-! ### Logbook and Pentimento (20) -/

/-- A logbook record, Table 20-1, without its CRC, which is computed when the record is laid out. -/
structure LogRec where
  seq : Nat
  code : Nat
  source : Nat
  rflags : Nat
  opsec : Nat
  pcycles : Nat
  subsec : Nat
  suppressed : Nat
  calendar : Nat
  p0 : Nat
  p1 : Nat
  p2 : Nat
  p3 : Nat
  deriving DecidableEq, Repr

/-- A code's token bucket (R577): bucket number, tokens spent, when the next token returns, and the suppressed count. -/
structure TokenBucket where
  bucket : Nat
  spent : Nat
  refillAt : Nat
  suppressed : Nat
  sat : Bool
  deriving DecidableEq, Repr

/-- The logbook (R574 to R584): the record buffer with each record's acceptance time, the kept area, the ring's records by
slot and the next slot, the control records of R581 as (LOW, control sequence), and the next SEQ. -/
structure Logbook where
  buffer : List (Nat × LogRec)
  kept : List LogRec
  ring : List (Nat × LogRec)
  ringNext : Nat
  ctl : List (Nat × Nat)
  nextSeq : Nat
  buckets : List TokenBucket
  deriving DecidableEq, Repr

/-- A Pentimento snapshot, Table 20-3. -/
structure PentSnap where
  slot : Nat
  causes : Nat
  pseq : Nat
  opsec : Nat
  pcycles : Nat
  aonMs : Nat
  fatalCode : Nat
  logHead : Nat
  regValid : Nat
  regs : List Nat
  logTail : List LogRec
  scratch : Bytes
  coxArea : Bytes
  complete : Bool
  deriving DecidableEq, Repr

/-- Pentimento (R588, R589): the snapshots held in NOR by slot, the snapshot being written, whether slot NEXT is erased, and
the Cox firmware's own 4 KiB area. -/
structure Pent where
  slots : List PentSnap
  writing : Option PentSnap
  nextErased : Bool
  coxArea : Bytes
  deriving DecidableEq, Repr

/-! ### Pins, SMBus, JTAG (21) -/

/-- Pins and side buses (21): the input levels, the outputs driven, the SMBus target's address and latched read, and the JTAG
port's state. -/
structure Pins where
  pfailN : Bool
  wakeN : Bool
  suppliesValid : Bool
  flashPwrEn : Bool
  esDisch : Bool
  smbAlertN : Bool
  smbAddr1 : Bool
  smbAddr0 : Bool
  smbAddress : Nat
  smbLatch : Bytes
  jtagIr : Nat
  jtagLevel : Nat
  jtagDr : Bytes
  deriving DecidableEq, Repr

/-! ### Faults and refusals -/

/-- Why a command ends in a fault: in every case the spec says that the result is undefined (R13), as misuse whose
outcome the device does not decide. Each constructor names the rule that lists the case and the number of the case in
that list, from 1. All are safe: the model stops where the hardware may do anything. -/
inductive Fault where
  /-- Raised by register writes and by structures that crew firmware or Cox supply: a nonzero value in a reserved field,
  or a field value its table calls reserved (R10). Safe: the model stops. -/
  | reservedNonzero
  /-- Raised by register writes and engine entries: a case of R46 (architecture). Safe. -/
  | undefined46 (item : Nat)
  /-- Raised by host session commands: a case of R92. Safe. -/
  | undefined92 (item : Nat)
  /-- Raised by index commands: a case of R176. Safe. -/
  | undefined176 (item : Nat)
  /-- Raised by stripe group commands: a case of R219. Safe. -/
  | undefined219 (item : Nat)
  /-- Raised by journal commands: a case of R258. Safe. -/
  | undefined258 (item : Nat)
  /-- Raised by rebuild commands: a case of R287. Safe. -/
  | undefined287 (item : Nat)
  /-- Raised by rig and erasure engine commands: a case of R314. Safe. -/
  | undefined314 (item : Nat)
  /-- Raised by media commands: a case of R361. Safe. -/
  | undefined361 (item : Nat)
  /-- Raised by flash channel commands: a case of R389. Safe. -/
  | undefined389 (item : Nat)
  /-- Raised by staging cache and DRAM controller commands: a case of R411. Safe. -/
  | undefined411 (item : Nat)
  /-- Raised by work queue commands: a case of R436. Safe. -/
  | undefined436 (item : Nat)
  /-- Raised by DMA commands: a case of R453. Safe. -/
  | undefined453 (item : Nat)
  /-- Raised by Palette commands: a case of R473. Safe. -/
  | undefined473 (item : Nat)
  /-- Raised by cipher and digest commands: a case of R495. Safe. -/
  | undefined495 (item : Nat)
  /-- Raised by network port commands: a case of R515. Safe. -/
  | undefined515 (item : Nat)
  /-- Raised by service port commands: a case of R529. Safe. -/
  | undefined529 (item : Nat)
  /-- Raised by power commands: a case of R553. Safe. -/
  | undefined553 (item : Nat)
  /-- Raised by Cox and mailbox commands: a case of R571. Safe. -/
  | undefined571 (item : Nat)
  /-- Raised by logbook and snapshot commands: a case of R591. Safe. -/
  | undefined591 (item : Nat)
  /-- Raised by register writes: a case of R619. Safe. -/
  | undefined619 (item : Nat)
  deriving DecidableEq, Repr

/-- Why a command is refused: only that it has no meaning yet. -/
inductive Refusal where
  /-- The command has no meaning in the model yet; raised by exec's arm alone. Safe: nothing runs. -/
  | notModelled (mnemonic : String)
  deriving DecidableEq, Repr


/-- The device as the spec gives it (Table 01-1), every piece of state in one place, and the queue of commands that
wait. Plain data: two states can be compared and written out. -/
structure State where
  /-- Nanoseconds of the model's clock (log entry 1). -/
  now : Nat
  /-- The counter that makes each free value a fresh one (log entry 3); the model's own field. -/
  free : Nat
  /-- What the device has sent, oldest first. -/
  out : List Out
  /-- The register fields that differ from being unlisted: key address × 64 + lowest bit, and value. -/
  regs : List (Nat × Nat)
  /-- The shadow of each counter latched by the snapshot (R586), by the same key. -/
  shadow : List (Nat × Nat)
  /-- The SRAM windows and DRAM of Table 01-7 by address; an unlisted byte reads 0 (log entry 4). -/
  mem : List Host.Cell
  /-- The DRAM lines of 256 bytes poisoned under R399 and R409, by line address. -/
  poison : List Nat
  /-- The interrupt distributor. -/
  irq : Irq
  /-- The crew cores. -/
  cores : Cores
  /-- The work queue manager. -/
  wq : Wq
  /-- Power states, counters and device state. -/
  pwr : Pwr
  /-- The logbook. -/
  lb : Logbook
  /-- Pentimento. -/
  pent : Pent
  /-- Pins, SMBus and JTAG. -/
  pins : Pins
  /-- The protected journal, intents and the pair channel. -/
  pj : Pj
  /-- The host transport engine. -/
  hte : Hte
  /-- Namespaces, tenants, slices and clocks. -/
  kv : Kv
  /-- The groups this device sits in. -/
  groups : List Group
  /-- The epoch change. -/
  epoch : Epoch
  /-- Cox and the mailbox. -/
  cox : Cox
  /-- The flash channels and the NAND. -/
  fc : Fc
  /-- The DMA engine. -/
  dma : Dma
  /-- The Palette. -/
  asu : Asu
  /-- The cipher and digest engines. -/
  cip : Cip
  /-- The staging cache. -/
  sc : Sc
  /-- The data ports. -/
  net : Net
  /-- The service port. -/
  svc : Svc
  /-- The rig loader and the containers kept. -/
  rig : Rig
  /-- Media management. -/
  media : Media
  /-- The commands that wait, first in first out. -/
  pending : List Sys2Proof.Instr
  deriving DecidableEq, Repr

/-- The power domain logic after a power-on reset: AON alone is on, the device state is BOOT, Table 18-2 stands at step 1. -/
def Pwr.reset : Pwr where
  on := [.aon]
  dev := 1
  move := none
  wakeLatched := none
  opsecBase := 0
  opsecAt := 0
  msAt := 0
  mtimeAt := 0
  ring := []
  recordAt := 0
  wdogAt := none
  coolSince := none
  resetHold := none
  start := 1
  waking := false
  fullScan := false
  notices := 0
  wakes := []

/-- The logbook after the first power-on reset: H is 0, so the first SEQ is 257 (R574); EV_START with reset cause 1 and no wake is in the
buffer (Tables 20-4 and 20-5). -/
def Logbook.reset : Logbook where
  buffer := [(0, ⟨257, 0x1001, 0, 1, 0, 1, 0, 0, 0, 1, 0, 0, 0⟩)]
  kept := []
  ring := []
  ringNext := 0
  ctl := []
  nextSeq := 258
  buckets := []

/-- The register fields that differ from their reset value after the first power-on reset: AON_PCYCLES counts this power-on (R541), and
LOG_HEAD, LOG_STATUS.NEW and LOG_CNT_ACCEPTED show the EV_START record. -/
def regsReset : List (Nat × Nat) := [(0x4010000100, 1), (0x438000011F, 1), (0x4380000200, 257), (0x4380000C00, 1)]

/-- The pins after a power-on reset: PFAIL_N and WAKE_N high, flash power off. -/
def Pins.reset : Pins where
  pfailN := true
  wakeN := true
  suppliesValid := false
  flashPwrEn := false
  esDisch := false
  smbAlertN := true
  smbAddr1 := false
  smbAddr0 := false
  smbAddress := 0x58
  smbLatch := []
  jtagIr := 0
  jtagLevel := 0
  jtagDr := []


/-- Cox as it leaves manufacture, as far as the spec says: no image in the NOR, no configuration copy, no fuse burnt (log entry 2). -/
def Cox.reset : Cox where
  image := []
  copies := []
  keptOld := none
  svnFused := 0
  revoked := []
  phase := 0
  attempt := 0
  fallback := none
  enclosure := none
  challenge := none
  lastServed := 3
  loading := none
  ephs := []
  nextCtx := 0
  svcSeq := 0
  dropped := false
  clearGranted := none
  locked := false
  releasedAt := none
  verified := false
  escrowKey := none
  board := []

/-- Media management before any format: nothing written, nothing retired, the settings at their defaults (Tables 09-1 and 07-1). -/
def Media.reset : Media where
  wseq := 0
  frags := []
  notes := []
  buckets := []
  opens := []
  nextLun := 0
  retired := []
  failed := []
  eraseFails := []
  format := none
  readOnly := none
  sparesLow := false
  ckpt := none
  ckptAt := 0
  since := []
  victims := []
  sweepBsn := 0
  sweepPage := 0
  sweepAt := 0
  sweepRead := 0
  sweepMarked := 0
  sweepBad := []
  heaps := []
  repairRates := []
  repairAt := 0
  repaired := 0
  collecting := []
  stuck := []
  sweepSaved := (0, 0, 0, 0)
  settings := ⟨14, 6, 365, 2, 8, 16, 10, 12, 1, 3000, 8192, 60, 2000, 4000, 50, 32, 8000, 1000, 35⟩

/-- The protected journal before any record. -/
def Pj.reset : Pj where
  units := 0
  rx := []
  rseq := 1
  ports := []
  intents := []
  opens := []
  chans := []
  vault := []
  armMark := 0
  cleanMark := 0
  lost := false
  dumping := none
  testAt := none
  restoring := none
  loading := false
  replay := 0
  leases := []
  taken := []
  kept := []
  reserved := []

/-- The machine right after a power-on reset (R11, R547, Table 18-2 step 1): every register at the value of its table,
the blocks empty, memory with nothing listed and no command waiting. The values the spec does not give are named in
log entry 2. -/
def State.reset : State where
  now := 0
  free := 0
  out := []
  regs := regsReset
  shadow := []
  mem := []
  poison := []
  irq := ⟨[], []⟩
  cores := ⟨[], [], [], [], []⟩
  wq := ⟨[], [], none, [], []⟩
  pwr := Pwr.reset
  lb := Logbook.reset
  pent := ⟨[], none, true, []⟩
  pins := Pins.reset
  pj := Pj.reset
  hte := ⟨[], [], [], 0, [], [], [], [], [], 1⟩
  kv := ⟨[], [], [], [], [], [], [], 0, 0, none, none, 0, none, [], [], [], [], [], []⟩
  groups := []
  epoch := ⟨0, 0, 0, [], 0, [], true, [], 0, false, none, [], []⟩
  cox := Cox.reset
  fc := ⟨[], [], [], [], [], [], [], [], 0, []⟩
  dma := ⟨[], 31, 31⟩
  asu := ⟨[], [], [], none⟩
  cip := ⟨[], none, none, []⟩
  sc := ⟨[], [], [], [], [], [], none, [], []⟩
  net := ⟨[], 0, 0⟩
  svc := ⟨[], none, none, [], [], [], [], none⟩
  rig := ⟨none, [], false, false, [], 0⟩
  media := Media.reset
  pending := []

end Sys2Proof.Machine
end

