-- ==== Sys2Proof/Machine/Ops.lean ====
section
/-! DEFINITION. The operations every command shares: register fields, memory, the fabric and its error recorder, free
values, outputs, time, interrupt pulses and the logbook front end. -/

namespace Sys2Proof.Machine

/-- The outcome of a command. -/
abbrev Res := Host.Outcome State Fault Refusal

/-- What follows a command's first part when that part ends in a next state. -/
def andThen (r : Res) (k : State → Res) : Res :=
  match r with
  | .next s => k s
  | .fault f => .fault f
  | .refused x => .refused x

/-! ### Sparse stores -/

/-- The value listed under a key. -/
def kvGet : List (Nat × Nat) → Nat → Option Nat
  | [], _ => none
  | (k, v) :: t, a => if k = a then some v else kvGet t a

/-- The store without a key. -/
def kvDel : List (Nat × Nat) → Nat → List (Nat × Nat)
  | [], _ => []
  | (k, v) :: t, a => if k = a then kvDel t a else (k, v) :: kvDel t a

/-- The store with a value under a key, keys rising. -/
def kvPut : List (Nat × Nat) → Nat → Nat → List (Nat × Nat)
  | [], a, x => [(a, x)]
  | (k, v) :: t, a, x =>
    if a < k then (a, x) :: (k, v) :: t else if k = a then (a, x) :: t else (k, v) :: kvPut t a x

/-- A store's form: its keys strictly rise. -/
abbrev kvWf (l : List (Nat × Nat)) : Prop := (l.map Prod.fst).Pairwise (· < ·)

/-! ### Register fields -/

/-- The key of a field in the register store. -/
def fldKey (f : Fld) : Nat := f.addr * 64 + f.lo

/-- The value of a register field: its reset value (R11) until something sets it. -/
def getF (s : State) (f : Fld) : Nat := (kvGet s.regs (fldKey f)).getD f.reset

/-- A register field set, cut to its width. -/
def setF (s : State) (f : Fld) (v : Nat) : State :=
  { s with regs := kvPut s.regs (fldKey f) (v % 2 ^ f.width) }

/-- A one-bit field is 1. -/
def flag (s : State) (f : Fld) : Bool := getF s f == 1

/-! ### Free values, outputs, time -/

/-- A value the spec leaves open, and the state in which the next one will be another. -/
def fresh (s : State) : Nat × State := (Config.freeNat s.free, { s with free := s.free + 1 })

/-- A string of `n` bytes the spec leaves open. -/
def freshBytes (s : State) (n : Nat) : Bytes × State :=
  ((List.range n).map (Config.freeByte s.free), { s with free := s.free + 1 })

/-- Something sent. -/
def emit (s : State) (o : Out) : State := { s with out := s.out ++ [o] }

/-- Several things sent, in order. -/
def emitAll (s : State) (os : List Out) : State := { s with out := s.out ++ os }

/-- The clock brought up to a moment: the expiry of a time means that the time has come (log entry 1). -/
def reach (s : State) (t : Nat) : State := { s with now := max s.now t }

/-- Nanoseconds in a microsecond, a millisecond and a second. -/
def us : Nat := 1000
/-- Nanoseconds in a millisecond. -/
def ms : Nat := 1000000
/-- Nanoseconds in a second. -/
def sec : Nat := 1000000000

/-- A counter field raised by `n`. What a counter reads past its width the spec does not state: a free value. -/
def countF (s : State) (f : Fld) (n : Nat) : State :=
  if getF s f + n < 2 ^ f.width then setF s f (getF s f + n)
  else setF (fresh s).2 f (fresh s).1

/-- A free-running index field raised by `n` modulo its width (R413). -/
def bumpF (s : State) (f : Fld) (n : Nat) : State := setF s f (getF s f + n)

/-! ### Memory -/

/-- The byte at an address: 0 where nothing has been written (log entry 4). -/
def memGet : List Host.Cell → Nat → Byte
  | [], _ => 0
  | (k, v) :: t, a => if k = a then v else memGet t a

/-- The cells of a byte string laid from an address, zero bytes left unlisted. -/
def cellsOf : Nat → Bytes → List Host.Cell
  | _, [] => []
  | a, b :: bs => if b = 0 then cellsOf (a + 1) bs else (a, b) :: cellsOf (a + 1) bs

/-- Memory with a byte string written from an address. -/
def memPut (m : List Host.Cell) (a : Nat) (bs : Bytes) : List Host.Cell :=
  m.filter (fun c => decide (c.1 < a)) ++ cellsOf a bs ++ m.filter (fun c => decide (a + bs.length ≤ c.1))

/-- Memory's canonical form: addresses strictly rise and no listed byte is the 0 that an unlisted one reads as. -/
abbrev Memory.wf (m : List Host.Cell) : Prop := (m.map Prod.fst).Pairwise (· < ·) ∧ ∀ c ∈ m, c.2 ≠ 0

/-- The first `n` bytes of rising cells from an address. -/
def memRun : List Host.Cell → Nat → Nat → Bytes
  | _, _, 0 => []
  | [], a, n + 1 => 0 :: memRun [] (a + 1) n
  | (k, v) :: t, a, n + 1 => if k = a then v :: memRun t (a + 1) n else 0 :: memRun ((k, v) :: t) (a + 1) n

/-- `n` bytes of memory from an address. -/
def memRead (s : State) (a n : Nat) : Bytes := memRun (s.mem.dropWhile (fun c => decide (c.1 < a))) a n

/-- The state with a byte string written to memory. -/
def memWrite (s : State) (a : Nat) (bs : Bytes) : State := { s with mem := memPut s.mem a bs }

/-- A little-endian number of `n` bytes in memory. -/
def memNat (s : State) (a n : Nat) : Nat := leNat (memRead s a n)

/-! ### Domains -/

/-- A domain is on. -/
def domainOn (s : State) (d : Domain) : Bool := s.pwr.on.contains d

/-- CORE is on, and neither a power-down (R532 step 1) nor a vault dump (Table 06-11 steps 2 and 3) has stopped it. -/
def coreLive (s : State) : Bool :=
  domainOn s .core && s.pwr.move != some .dock && s.pwr.move != some .deepDock && s.pj.dumping.isNone

/-- What crew firmware or a block of CORE does, while CORE runs. -/
def whileCore (s : State) (k : State → Res) : Res := if coreLive s then k s else .next s

/-! ### Address map (R35, R36, Tables 01-5 and 01-7) -/

/-- The base of DRAM and of the protected journal (R29). -/
def dramBase : Nat := 0x1000000000
/-- The size of DRAM, 32 GiB. -/
def dramSize : Nat := 0x800000000
/-- The rig memory window. -/
def rigBase : Nat := 0x01000000
/-- The session context window. -/
def sessBase : Nat := 0x02000000
/-- The packet buffer window. -/
def pktBase : Nat := 0x03000000
/-- The free-pool heap window. -/
def heapBase : Nat := 0x04000000

/-- The domain of a byte of the SRAM windows or DRAM, none where nothing is mapped. Core memories of cores 2 to 7 are of
CREW2 (R531). -/
def memDomain (a : Nat) : Option Domain :=
  if a < 0x800000 then (if a < 0x200000 then some .core else some .crew2)
  else if rigBase ≤ a ∧ a < rigBase + 0x1000000 then some .core
  else if sessBase ≤ a ∧ a < sessBase + 0x800000 then some .core
  else if pktBase ≤ a ∧ a < pktBase + 0x800000 then some .core
  else if heapBase ≤ a ∧ a < heapBase + 0x3F0000 then some .core
  else if dramBase ≤ a ∧ a < dramBase + dramSize then some .dram
  else none

/-- The index of an offset in nested strides: the offset left in the innermost element. -/
def dimOffset : List (Nat × Nat) → Nat → Option Nat
  | [], o => some o
  | (n, st) :: ds, o => if o / st < n then dimOffset ds (o % st) else none

/-- The register of a family that holds an address: the register's own address. -/
def famHit (r : RegFam) (a : Nat) : Option Nat :=
  if a < r.base then none else
    match dimOffset r.dims (a - r.base) with
    | some o => if o < (if r.wide then 8 else 4) then some (a - o) else none
    | none => none

/-- The register that holds an address, and its table row. -/
def regFind : List RegFam → Nat → Option (Nat × RegFam)
  | [], _ => none
  | r :: t, a =>
    match famHit r a with
    | some b => some (b, r)
    | none => regFind t a

/-- The register at an address of the map. -/
def regAt (a : Nat) : Option (Nat × RegFam) := regFind regTable a

/-- The field of a register's table row at its place. The reset values of LOG_RL_OVR depend on the bucket (R585). -/
def fieldAt (d : FDef) (a : Nat) : Fld :=
  ⟨a, d.lo, d.width, if 0x10E020000 ≤ a ∧ a < 0x10E020E00 then F.ovrReset ((a - 0x10E020000) / 4) else d.reset⟩

/-- The domain of a register window of Table 01-7. -/
def regDomain (a : Nat) : Domain :=
  if a < 0x0100000000 then .core
  else if a < 0x0100800000 then .aon
  else if a < 0x0108000000 then .core
  else if a < 0x010B000000 then .flash
  else if a < 0x010C000000 then .dram
  else if a < 0x010C100000 then .lane0
  else if a < 0x010C300000 then .lanes
  else if a < 0x010D000000 then .core
  else if a < 0x010E000000 then .svc
  else if a < 0x010F000000 then .aon
  else if a < 0x010F100000 then .core
  else if a < 0x010F200000 then .cox
  else if a < 0x010F300000 then .core
  else .aon

/-- How an access to the SRAM windows or DRAM fails, as a kind of Table 01-12; none where it succeeds (R38). -/
def memFault (s : State) (a n : Nat) (wr : Bool) : Option Nat :=
  match memDomain a, memDomain (a + n - 1) with
  | some d, some e =>
    if wr && decide (rigBase ≤ a) && decide (a < rigBase + 0x1000000) then some 1
    else if !(domainOn s d && domainOn s e) then some 5
    else none
  | _, _ => some (if (regAt a).isSome then 2 else 0)

/-! ### Logbook front end (R572 to R578) -/

/-- AON_OPSEC: every second with power counts, saturating (R539). -/
def opsec (s : State) : Nat := min 0xFFFFFFFF (s.pwr.opsecBase + (s.now - s.pwr.opsecAt) / sec)

/-- AON_MS: milliseconds since the power-on reset, modulo 2^32 (R539). -/
def aonMs (s : State) : Nat := (s.now - s.pwr.msAt) / ms % 2 ^ 32

/-- IRQ_MTIME: counts at 100 MHz from the last power-up of CORE (R17). -/
def mtime (s : State) : Nat := (s.now - s.pwr.mtimeAt) / 10 % 2 ^ 64

/-- Crystal cycles elapsed within the present operating second (Table 20-1). -/
def subsec (s : State) : Nat := (s.now - s.pwr.opsecAt) % sec * 32768 / sec

/-- The bucket of a code, R578; none where the code is refused. -/
def codeBucket (c : Nat) : Option Nat :=
  if c / 0x1000 = 0 ∨ c / 0x1000 > 7 ∨ bits c 7 5 ≠ 0 then none else some ((c / 0x1000 - 1) * 128 + c % 128)

/-- The capacity of a bucket: none where the code is exempt (R577). -/
def bucketBurst (s : State) (b : Nat) : Option Nat :=
  let o := getF s (F.LOG_RL_OVR_BURST b)
  if o = 255 then none else if o = 0 then some (getF s F.LOG_RL_BURST) else some o

/-- The interval after which a token returns, in nanoseconds: PERIOD_S × 32,768 / BURST crystal cycles. -/
def refillNs (s : State) (burst : Nat) : Nat := getF s F.LOG_RL_PERIOD_S * sec / max burst 1

/-- The token bucket of a number, full and with nothing suppressed where it has never been used. -/
def bucketOf (s : State) (b : Nat) : TokenBucket :=
  (s.lb.buckets.find? (fun t => t.bucket == b)).getD ⟨b, 0, 0, 0, false⟩

/-- The logbook with a token bucket replaced. -/
def putBucket (s : State) (t : TokenBucket) : State :=
  { s with lb := { s.lb with buckets := t :: s.lb.buckets.filter (fun u => u.bucket != t.bucket) } }

/-- What became of a submission. -/
inductive LogAnswer where
  | accepted (seq : Nat)
  | suppressed
  | refused
  deriving DecidableEq, Repr

/-- The record the front end makes of an accepted submission (Table 20-1, R576). -/
def logStamp (s : State) (source code p0 p1 p2 p3 : Nat) (t : TokenBucket) : LogRec :=
  let cal := flag s F.LOG_CAL_CTRL_VALID
  ⟨s.lb.nextSeq, code, source,
   b2n (decide (s.lb.kept.length + s.lb.buffer.length < 4096)) + 2 * b2n cal + 4 * b2n t.sat,
   opsec s, getF s F.AON_PCYCLES_COUNT, subsec s, t.suppressed,
   if cal then (getF s F.LOG_CAL_SEC_SECONDS + opsec s + 2 ^ 64 - getF s F.LOG_CAL_AT_OPSEC) % 2 ^ 64 else 0,
   p0 % 2 ^ 64, p1 % 2 ^ 64, p2 % 2 ^ 64, p3 % 2 ^ 32⟩

/-- A submission suppressed: the code's count rises, saturating at 65,535 (R577). -/
def logSuppress (s : State) (t : TokenBucket) : State :=
  countF (putBucket s { t with suppressed := min 65535 (t.suppressed + 1), sat := t.sat || decide (t.suppressed ≥ 65535) })
    F.LOG_CNT_SUPPRESSED_COUNT 1

/-- A submission accepted: the next SEQ, the stamp of the moment, a place in the buffer (R574, R575). -/
def logAccept (s : State) (source code p0 p1 p2 p3 : Nat) (t : TokenBucket) : State :=
  let r := logStamp s source code p0 p1 p2 p3 t
  let s := putBucket s { t with suppressed := 0, sat := false }
  let s := { s with lb := { s.lb with buffer := s.lb.buffer ++ [(s.now, r)], nextSeq := s.lb.nextSeq + 1 } }
  countF (setF (setF s F.LOG_HEAD_SEQ r.seq) F.LOG_STATUS_NEW 1) F.LOG_CNT_ACCEPTED_COUNT 1

/-- A submission to the front end: accepted, suppressed or refused (R574 to R578). -/
def logSubmit (s : State) (source code p0 p1 p2 p3 : Nat) : State × LogAnswer :=
  match codeBucket code with
  | none => (s, .refused)
  | some b =>
    let t := bucketOf s b
    if s.lb.buffer.length ≥ 256 then (logSuppress s t, .suppressed)
    else
      match bucketBurst s b with
      | none => (logAccept s source code p0 p1 p2 p3 t, .accepted s.lb.nextSeq)
      | some burst =>
        if t.spent ≥ burst then (logSuppress s t, .suppressed)
        else
          let t' := { t with spent := t.spent + 1, refillAt := if t.spent = 0 then s.now + refillNs s burst else t.refillAt }
          (logAccept s source code p0 p1 p2 p3 t', .accepted s.lb.nextSeq)

/-- An event that a block, Cox or the AON domain records (SOURCE 0, R573). -/
def logEv (s : State) (code p0 p1 p2 : Nat) : State := (logSubmit s 0 code p0 p1 p2 0).1

/-- An event that crew firmware records on core 0's port (SOURCE 1); the spec gives its parameter words no meaning (R573), so
they are free values. -/
def logCrew (s : State) (code : Nat) : State :=
  let p0 := fresh s
  let p1 := fresh p0.2
  let p2 := fresh p1.2
  let p3 := fresh p2.2
  (logSubmit p3.2 1 code p0.1 p1.1 p2.1 p3.1).1

/-- An event that Cox records (SOURCE 2). -/
def logCox (s : State) (code p0 p1 p2 : Nat) : State := (logSubmit s 2 code p0 p1 p2 0).1

/-! ### Fabric error recorder (R44) -/

/-- A failed access recorded: the first is latched, later ones are counted, each posts EV_FABRIC_ERROR. -/
def fabLatch (s : State) (kind rid : Nat) (wr : Bool) (a : Nat) : State :=
  let info := kind * 256 + b2n wr * 16 + rid
  let s :=
    if flag s F.FAB_ERR_STATUS_VALID then
      setF (setF s F.FAB_ERR_COUNT_COUNT (min 0xFFFF (getF s F.FAB_ERR_COUNT_COUNT + 1))) F.FAB_ERR_STATUS_OVERFLOW 1
    else
      setF (setF (setF (setF (setF s F.FAB_ERR_INFO_KIND kind) F.FAB_ERR_INFO_DIR (b2n wr)) F.FAB_ERR_INFO_RID rid)
        F.FAB_ERR_ADDR_ADDR a) F.FAB_ERR_STATUS_VALID 1
  logEv s EV.fabricError a info 0

/-! ### Interrupt pulses (R43) -/

/-- An edge source pulses: its latch is set, and stays set where it was. -/
def pulse (s : State) (src : Nat) : State :=
  if s.irq.latch.contains src then s else { s with irq := { s.irq with latch := s.irq.latch ++ [src] } }

end Sys2Proof.Machine
end

