-- ==== Sys2Proof/Machine/CacheOps.lean ====
section
/-! DEFINITION. The staging cache and the DRAM behind it as every access meets them (R30, R31, R390 to R399, R409), and the reads
and writes of memory that the engines make. -/

namespace Sys2Proof.Machine

/-! ### DRAM (R409) -/

/-- A DRAM address lies in the configured protected journal (R29, R31). -/
def inJournal (s : State) (a : Nat) : Bool := decide (dramBase ≤ a) && decide (a < dramBase + s.pj.units * 0x10000000)

/-- A DRAM read that ECC cannot correct, or of a poisoned location: counted and the first latched. The channel of an address the spec
does not give: a free value. -/
def dmcLatch (s : State) (rid a : Nat) (scrub : Bool) : State :=
  let s := countF s F.DMC_CNT_UE_COUNT 1
  if flag s F.DMC_ERR_INFO_VALID then s
  else
    let p := fresh s
    let s := setF (setF (setF p.2 F.DMC_ERR_INFO_SCRUB (b2n scrub)) F.DMC_ERR_INFO_RID rid) F.DMC_ERR_INFO_CHANNEL p.1
    setF (setF s F.DMC_ERR_ADDR_ADDR a) F.DMC_ERR_INFO_VALID 1

/-- A read of bytes of one line from DRAM: none where the line is poisoned. -/
def dramLine (s : State) (rid a n : Nat) : State × Option Bytes :=
  if s.poison.contains (a / 256) then (dmcLatch s rid a false, none)
  else (countF s F.DMC_CNT_RD_BYTES_COUNT n, some (memRead s a n))

/-- A write of bytes of one line to DRAM; one that covers the line lifts its poison. -/
def dramStore (s : State) (a : Nat) (b : Bytes) : State :=
  let s := countF (memWrite s a b) F.DMC_CNT_WR_BYTES_COUNT b.length
  if a % 256 = 0 ∧ b.length = 256 then { s with poison := s.poison.filter (· != a / 256) } else s

/-! ### Lines, ways, detectors -/

/-- The cache is in use. -/
def scOn (s : State) : Bool := flag s F.SC_STATUS_ENABLED

/-- The line held for a line address. -/
def heldLine (s : State) (la : Nat) : Option ScLine := s.sc.lines.find? fun l => l.line == la

/-- A line no longer held. -/
def scDrop (s : State) (la : Nat) : State := { s with sc := { s.sc with lines := s.sc.lines.filter fun l => l.line != la } }

/-- A line held, in place of what was held for its address. -/
def scHold (s : State) (l : ScLine) : State :=
  { s with sc := { s.sc with lines := l :: s.sc.lines.filter fun m => m.line != l.line } }

/-- Allocation into a way has stopped: it is disabled, or being disabled (R398). -/
def wayOut (s : State) (w : Nat) : Bool := bitAt (getF s F.SC_WAY_STATUS_DISABLED) w || s.sc.disabling.any fun p => p.1 == w

/-- The ways a requester may allocate into (R392). -/
def allowedWays (s : State) (rid : Nat) : List Nat := (bitList (getF s (F.SC_WAYMASK_MASK rid)) 16).filter fun w => !(wayOut s w)

/-- The detector's count and last line of a requester (R393). -/
def streamOf (s : State) (rid : Nat) : Nat × Nat :=
  match s.sc.streams.find? fun t => t.1 == rid with
  | some (_, c, l) => (c, l)
  | none => (0, 0)

/-- The detector stops allocation for a requester. -/
def streamStops (s : State) (rid : Nat) : Bool := (streamOf s rid).1 == 64

/-- One line of a write seen by the detector (R393). -/
def streamWrite (s : State) (rid la : Nat) : State :=
  let put := fun (c l : Nat) => { s with sc := { s.sc with streams := (rid, c, l) :: s.sc.streams.filter fun t => t.1 != rid } }
  let p := streamOf s rid
  if !(bitAt (getF s F.SC_STREAM_DETECT) rid) then put 0 la
  else if p.1 = 0 then put 1 la
  else if la = p.2 then s
  else if la = p.2 + 1 then put (min 64 (p.1 + 1)) la
  else put 1 la

/-- A miss of a requester allocates (R392). -/
def mayAlloc (s : State) (rid : Nat) : Bool := scOn s && !(allowedWays s rid).isEmpty && !(streamStops s rid)

/-- An access of a way counted in its window; a full window starts again with no corrected errors (R398). -/
def wayVisit (s : State) (w : Nat) : State :=
  let n := (kvGet s.sc.windows w).getD 0 + 1
  if n < 2 ^ 20 then { s with sc := { s.sc with windows := kvPut s.sc.windows w n } }
  else setF { s with sc := { s.sc with windows := kvDel s.sc.windows w } } (F.SC_WAY_CE_COUNT w) 0

/-- A way begins to be disabled: it takes no more lines (R398, step 1). -/
def wayFail (s : State) (w : Nat) (ue : Bool) : State :=
  if wayOut s w then s else { s with sc := { s.sc with disabling := s.sc.disabling ++ [(w, ue)] } }

/-- A corrected error found in a way (R398). -/
def wayCorrected (s : State) (w : Nat) : State :=
  let n := getF s (F.SC_WAY_CE_COUNT w) + 1
  let s := setF (countF s F.SC_CNT_CE_COUNT 1) (F.SC_WAY_CE_COUNT w) (min 15 n)
  if n ≥ 8 then wayFail s w false else s

/-- A DIRTY line lost to an uncorrectable error (R399): the latch, source 10, the poison in DRAM, the way's failure. -/
def lineLost (s : State) (l : ScLine) (rid : Nat) : State :=
  let info := 2 ^ 31 + 2 ^ 30 + l.way * 16 + rid
  let s :=
    if flag s F.SC_UE_INFO_VALID then s
    else setF (setF (setF (setF (setF s F.SC_UE_INFO_DIRTY 1) F.SC_UE_INFO_WAY l.way) F.SC_UE_INFO_RID rid) F.SC_UE_ADDR_LINE l.line)
      F.SC_UE_INFO_VALID 1
  let s := logEv s EV.cacheUncorrectable (l.line * 256) info 0
  let s := scDrop { s with poison := if s.poison.contains l.line then s.poison else l.line :: s.poison } l.line
  wayFail s l.way true

/-! ### Eviction and allocation (R392, R396) -/

/-- A displaced line: DIRTY or CORRECTED it enters the eviction buffer, else the controller declines it (R396). -/
def scEvict (s : State) (l : ScLine) : State :=
  let s := scDrop s l.line
  if l.dirty || l.corrected then { s with sc := { s.sc with evict := s.sc.evict ++ [l] } }
  else countF s F.SC_CNT_DECLINED_COUNT 1

/-- The controller writes an evicted line to DRAM and its entry is free (R396). -/
def evictWrite (s : State) (l : ScLine) : State :=
  let s := { s with sc := { s.sc with evict := s.sc.evict.filter fun m => m.line != l.line } }
  countF (dramStore s (l.line * 256) l.data) F.SC_CNT_WB_COUNT 1

/-- The line being evicted for an address. -/
def evicting (s : State) (la : Nat) : Option ScLine := s.sc.evict.find? fun l => l.line == la

/-- The way a new line goes to: the lowest invalid one allowed, else one of the allowed ways, which a free value picks, since
the order of use is approximated in a way nothing may depend on (R392). With it the line displaced. -/
def scVictim (s : State) (ways : List Nat) (la : Nat) : State × Nat × Option ScLine :=
  let inSet := s.sc.lines.filter fun l => l.line % 16384 == la % 16384
  match ways.find? fun w => !(inSet.any fun l => l.way == w) with
  | some w => (s, w, none)
  | none =>
    let p := fresh s
    let w := (ways[p.1 % ways.length]?).getD 0
    (p.2, w, inSet.find? fun l => l.way == w)

/-- A line allocated for a requester among the given ways, displacing another where none is invalid. -/
def scAlloc (s : State) (ways : List Nat) (rid la : Nat) (data : Bytes) (dirty corrected : Bool) : State :=
  let v := scVictim s ways la
  let s := match v.2.2 with | some l => scEvict v.1 l | none => v.1
  scHold (wayVisit s v.2.1) ⟨la, v.2.1, rid, dirty, corrected, data⟩

/-- The oldest entry of a full eviction buffer written, so that an allocation finds room. -/
def evictRoom (s : State) : State :=
  if s.sc.evict.length < 32 then s
  else match s.sc.evict with
    | l :: _ => evictWrite s l
    | [] => s

/-! ### Whole accesses -/

/-- A held line's data read on a hit. -/
def scHit (s : State) (rid : Nat) (l : ScLine) : State := countF (wayVisit s l.way) (F.SC_CNT_HIT_COUNT rid) 1

/-- Bytes of one line read by a requester: from the cache, or on a miss from DRAM with allocation where R392 allows it. -/
def scRead (s : State) (rid a n : Nat) : State × Option Bytes :=
  if !(scOn s) then dramLine s rid a n
  else
    let la := a / 256
    match heldLine s la with
    | some l => (scHit s rid l, some (slice l.data (a % 256) n))
    | none =>
      let s := match evicting s la with | some l => evictWrite s l | none => s
      let s := countF s (F.SC_CNT_MISS_COUNT rid) 1
      if mayAlloc s rid then
        match dramLine s rid (la * 256) 256 with
        | (s, none) => (s, none)
        | (s, some d) => (scAlloc (evictRoom s) (allowedWays s rid) rid la d false false, some (slice d (a % 256) n))
      else dramLine (countF s F.SC_CNT_NOALLOC_COUNT 1) rid a n

/-- A write reaches DRAM while the cache is off; a held line of its address is stale from then on (R404, R405). -/
def offStore (s : State) (a : Nat) (b : Bytes) : State :=
  let s := dramStore s a b
  if (heldLine s (a / 256)).isSome then { s with sc := { s.sc with stale := a / 256 :: s.sc.stale.filter (· != a / 256) } } else s

/-- Some line held now is stale. -/
def staleHeld (s : State) : Bool := s.sc.lines.any fun l => s.sc.stale.contains l.line

/-- Bytes of one line written by a requester (R393, R394): write-back outside the journal, write-through inside it. -/
def scWrite (s : State) (rid a : Nat) (b : Bytes) : State :=
  if !(scOn s) then offStore s a b
  else
    let la := a / 256
    let s := streamWrite s rid la
    let jn := inJournal s a
    match heldLine s la with
    | some l =>
      let s := if jn then dramStore s a b else s
      scHold (scHit s rid l) { l with data := patch l.data (a % 256) b, dirty := l.dirty || !jn }
    | none =>
      let s := match evicting s la with | some l => evictWrite s l | none => s
      let s := if jn then dramStore s a b else s
      let s := countF s (F.SC_CNT_MISS_COUNT rid) 1
      let full := b.length = 256
      if mayAlloc s rid && (full || !(s.poison.contains la)) then
        let p := if full then (s, some b) else dramLine s rid (la * 256) 256
        let d := patch (p.2.getD (zeros 256)) (a % 256) b
        scAlloc (evictRoom p.1) (allowedWays p.1 rid) rid la d (!jn) false
      else
        let s := countF s F.SC_CNT_NOALLOC_COUNT 1
        if jn then s else dramStore s a b

/-- A byte range cut at line boundaries: address and length of each piece. -/
def linePieces : Nat → Nat → Nat → List (Nat × Nat)
  | 0, _, _ => []
  | k + 1, a, n => if n = 0 then [] else let m := min n (256 - a % 256); (a, m) :: linePieces k (a + m) (n - m)

/-- A range of DRAM read piece by piece. -/
def scReadAll : List (Nat × Nat) → State → Nat → State × Option Bytes
  | [], s, _ => (s, some [])
  | (a, n) :: ps, s, rid =>
    match scRead s rid a n with
    | (s, none) => (s, none)
    | (s, some b) =>
      match scReadAll ps s rid with
      | (s, none) => (s, none)
      | (s, some c) => (s, some (b ++ c))

/-- A range of DRAM written piece by piece, in ascending address order. -/
def scWriteAll : List (Nat × Nat) → State → Nat → Bytes → State
  | [], s, _, _ => s
  | (a, n) :: ps, s, rid, b => scWriteAll ps (scWrite s rid a (b.take n)) rid (b.drop n)

/-- An address is DRAM's. -/
def isDram (a : Nat) : Bool := decide (dramBase ≤ a) && decide (a < dramBase + dramSize)

/-- The bytes of one line as an access would find them, without the access: from the line held, else the line being evicted, else memory. -/
def peekLine (s : State) (a n : Nat) : Bytes :=
  match (if scOn s then heldLine s (a / 256) else none), evicting s (a / 256) with
  | some l, _ => slice l.data (a % 256) n
  | none, some l => slice l.data (a % 256) n
  | none, none => memRead s a n

/-- Bytes of memory as crew firmware or an engine would read them, without counting the access (log entry 21). -/
def peek (s : State) (a n : Nat) : Bytes :=
  if isDram a then ((linePieces (n / 256 + 2) a n).map fun p => peekLine s p.1 p.2).flatten else memRead s a n

/-- A little-endian number so read. -/
def peekNat (s : State) (a n : Nat) : Nat := leNat (peek s a n)

/-- An engine's read of memory: the bytes, or none where it failed, which is recorded (R30, R38, R44). -/
def fabRead (s : State) (rid a n : Nat) : State × Option Bytes :=
  if n = 0 then (s, some []) else
  match memFault s a n false with
  | some k => (fabLatch s k rid false a, none)
  | none =>
    if isDram a then
      match scReadAll (linePieces (n / 256 + 2) a n) s rid with
      | (s, none) => (fabLatch s 3 rid false a, none)
      | r => r
    else (s, some (memRead s a n))

/-- An engine's write to memory: a failed write has no effect and is recorded (R38, R44). -/
def fabWrite (s : State) (rid a : Nat) (bs : Bytes) : State × Bool :=
  if bs = [] then (s, true) else
  match memFault s a bs.length true with
  | some k => (fabLatch s k rid true a, false)
  | none =>
    if isDram a then (scWriteAll (linePieces (bs.length / 256 + 2) a bs.length) s rid bs, true)
    else (memWrite s a bs, true)

/-- Bytes stored by a requester of Table 01-8. -/
def storeAs (s : State) (rid a : Nat) (b : Bytes) : State := (fabWrite s rid a b).1

/-- Bytes stored by crew firmware (requester 0). -/
def crewStore (s : State) (a : Nat) (b : Bytes) : State := storeAs s 0 a b

/-- Memory read by a requester that takes the bytes as `peek` gives them: what the read leaves in the cache and its counters (R30, R39). -/
def touch (s : State) (rid a n : Nat) : State := (fabRead s rid a n).1

end Sys2Proof.Machine
end

