-- ==== Sys2Proof/Machine/Queues.lean ====
section
/-! DEFINITION. The operations of the work queue manager that its commands and the blocks share (R412 to R434): finding a
queue, the block it is bound to, taking an entry, ending it, writing completions, and posting entries of a block. -/

namespace Sys2Proof.Machine

/-- Difference of free-running indices (R413). -/
def idxSub (a b : Nat) : Nat := (a + 2 ^ 32 - b % 2 ^ 32) % 2 ^ 32

/-- Sum on a free-running index. -/
def idxAdd (a n : Nat) : Nat := (a + n) % 2 ^ 32

/-- The phase of an index in a ring of 2^s slots: 1 minus bit s (R414). -/
def phaseOf (s i : Nat) : Nat := 1 - i / 2 ^ s % 2

/-- Legacy queue q of R433. -/
def legacyQueue (s : State) (q : Nat) : Queue :=
  let b := getF s F.WQ_LBASE_ADDR * 2 ^ 21 + 0x8000 * q
  ⟨q, 1, false, 0, 8, 8, q, true, b, b + 0x4000, b + 0x5000, 0, 0, 0, 0, [], false, none, [], 0⟩

/-- Queue 0 in native mode, as the WQ_ADMIN registers describe it (R430). -/
def adminQueue (s : State) : Queue :=
  ⟨0, 1, false, 0, getF s F.WQ_ADMIN_CFG_LOG2S, getF s F.WQ_ADMIN_CFG_LOG2S, getF s F.WQ_ADMIN_CFG_VECTOR,
   flag s F.WQ_ADMIN_CFG_IRQ_EN, getF s F.WQ_ADMIN_RING_ADDR * 4096, getF s F.WQ_ADMIN_CQ_ADDR * 4096,
   getF s F.WQ_ADMIN_IDX_ADDR * 64, 0, 0, 0, 0, [], false, none, [], 0⟩

/-- Legacy mode is on. -/
def wqLegacy (s : State) : Bool := flag s F.WQ_CTRL_LEGACY

/-- A queue that is not ABSENT. -/
def queueOf (s : State) (q : Nat) : Option Queue :=
  match s.wq.queues.find? (fun x => x.num == q) with
  | some x => some x
  | none =>
    if !(flag s F.WQ_CTRL_ENABLE) then none
    else if wqLegacy s then (if q < 64 then some (legacyQueue s q) else none)
    else if q = 0 then some (adminQueue s) else none

/-- A queue put in place of the one of its number. -/
def putQueue (s : State) (x : Queue) : State :=
  { s with wq := { s.wq with queues := x :: s.wq.queues.filter (fun y => y.num != x.num) } }

/-- The entries of a queue taken and not yet ended, each counted as one (T of R425). -/
def takenOpen (s : State) (q : Nat) : Nat := (s.wq.taken.filter fun t => t.queue == q && !t.ended).length

/-- Entries of a batch that have ended without failure, not the last, count in T no longer; those that ended and wait for
their completion count as held. -/
def dueCount (s : State) (q : Nat) : Nat := (s.wq.taken.filter fun t =>
    t.queue == q && t.ended && !(t.batch.isSome && !t.last && !(t.result.getD ([], false)).2)).length

/-- Free completion slots by the CQ_CI last read (F of R425). -/
def cqFree (x : Queue) : Nat := 2 ^ x.log2c - idxSub x.cqPi x.cqCi

/-- One of four binding registers names the queue. -/
def bindsAny (s : State) (valid num : Nat → Fld) (q : Nat) : Bool :=
  (List.range 4).any fun i => flag s (valid i) && getF s (num i) == q

/-- The flash channel that binds a queue. -/
def fcBinding (s : State) (q : Nat) : Option Nat :=
  (List.range 32).find? fun n => bindsAny s (F.FC_QBIND_VALID n) (F.FC_QBIND_QUEUE n) q

/-- The opcode range of the block a queue is bound to, as the upper digit of its opcodes (R418); the Palette, which has no
binding register, serves the queues that no other block binds (log entry 10). -/
def queueBlock (s : State) (q : Nat) : Nat :=
  if bindsAny s F.DMA_QBIND_VALID F.DMA_QBIND_QUEUE q then 1
  else if bindsAny s F.CIP_QBIND_VALID F.CIP_QBIND_QUEUE q then 2
  else if bindsAny s F.DIG_QBIND_VALID F.DIG_QBIND_QUEUE q then 3
  else if (fcBinding s q).isSome then 4
  else if bindsAny s F.EC_QBIND_VALID F.EC_QBIND_QUEUE q then 6
  else if bindsAny s F.HTE_QBIND_VALID F.HTE_QBIND_QUEUE q then 7
  else 5

/-- Some block binds the queue, or HTE_EXC_QUEUE names it (ASTATUS 4 of R431). -/
def queueBound (s : State) (q : Nat) : Bool :=
  queueBlock s q != 5 || (flag s F.HTE_EXC_QUEUE_VALID && getF s F.HTE_EXC_QUEUE_QUEUE == q)

/-- The slots of an opcode of to-block queues; none where it is unassigned. -/
def opSlots (op : Nat) : Option Nat :=
  if op = 0x00 then some 1
  else if 0x01 ≤ op ∧ op ≤ 0x03 then some 1
  else if op = 0x10 then some 1
  else if 0x20 ≤ op ∧ op ≤ 0x27 then some 1
  else if op = 0x30 then some 1
  else if 0x40 ≤ op ∧ op ≤ 0x45 then some 1
  else if op = 0x50 then some 2
  else if 0x60 ≤ op ∧ op ≤ 0x62 then some 1
  else if 0x73 ≤ op ∧ op ≤ 0x78 then some 1
  else none

/-- The opcode may stand on the queue (code 1 of Table 12-5). -/
def opAllowed (s : State) (q op : Nat) : Bool :=
  op == 0 || (if q = 0 && !(wqLegacy s) then op / 16 == 0 else op / 16 == queueBlock s q)

/-- The address of a slot of the entry ring. -/
def sqSlot (x : Queue) (i : Nat) : Nat := x.ring + 64 * (i % 2 ^ x.log2s)

/-- The bytes of `n` slots of the entry ring from index `i`, wrapping as the indices do (R416). -/
def readSlots (s : State) (x : Queue) : Nat → Nat → State × Option Bytes
  | _, 0 => (s, some [])
  | i, n + 1 =>
    match fabRead s 5 (sqSlot x i) 64 with
    | (s, none) => (s, none)
    | (s, some b) =>
      match readSlots s x (idxAdd i 1) n with
      | (s, none) => (s, none)
      | (s, some c) => (s, some (b ++ c))

/-! ### Completions (R417, R424, R425) -/

/-- The COMMON word of a completion, without its phase. -/
def cqCommon (wqstat : Nat) (failed : Bool) (count index : Nat) : Nat :=
  wqstat * 2 ^ 27 + b2n failed * 2 ^ 26 + (count - 1) * 2 ^ 16 + index % 65536

/-- One completion record written at CQ_PI, then CQ_PI (R415, R417). -/
def cqWrite (s : State) (x : Queue) (rec : Bytes) : State × Queue :=
  let w := fld rec 12 4 + phaseOf x.log2c x.cqPi * 2 ^ 31
  let s := (fabWrite s 5 (x.cq + 16 * (x.cqPi % 2 ^ x.log2c)) (rec.take 12 ++ le 4 w)).1
  let x := { x with cqPi := idxAdd x.cqPi 1 }
  let s := (fabWrite s 5 (x.idx + 8) (le 4 x.cqPi)).1
  (countF s F.WQ_CNT_COMPL_COUNT 1, x)

/-- The held completions written in order as room appears. -/
def cqFlush : Nat → State → Queue → State × Queue
  | 0, s, x => (s, x)
  | n + 1, s, x =>
    match x.held with
    | [] => (s, x)
    | r :: rs =>
      if cqFree x = 0 then (s, x) else
        let p := cqWrite s { x with held := rs } r
        cqFlush n p.1 p.2

/-- A completion that has become due: written when none is held and a slot is free, otherwise held (R425). -/
def cqDue (s : State) (x : Queue) (rec : Bytes) : State × Queue :=
  if x.held.isEmpty && decide (cqFree x > 0) then cqWrite s x rec
  else (s, { x with held := x.held ++ [rec] })

/-- A completion of a queue made due and the queue put back. -/
def cqPost (s : State) (q : Nat) (rec : Bytes) : State :=
  match queueOf s q with
  | some x => let p := cqDue s x rec; putQueue p.1 p.2
  | none => s

/-- A queue that runs stops in ERROR: the WQSTAT 1 completion where it has a completion ring, the latch of the first stop, EV_WQ_ERROR (R428);
one that does not run stands as it is (Table 12-7). -/
def wqStop (s : State) (x : Queue) (code index : Nat) : State :=
  if x.state ≠ 1 then putQueue s x else
  let x := { x with state := 2, errIndex := index }
  let p := if x.fromBlock then (s, x) else cqDue s x (zeros 12 ++ le 4 (cqCommon 1 false 1 index))
  let s := putQueue p.1 p.2
  let s :=
    if flag s F.WQ_ERR_INFO_VALID then setF s F.WQ_ERR_INFO_OVERFLOW 1
    else setF (setF (setF (setF s F.WQ_ERR_INFO_CODE code) F.WQ_ERR_INFO_QUEUE x.num) F.WQ_ERR_INDEX_INDEX index)
      F.WQ_ERR_INFO_VALID 1
  logEv s EV.wqError x.num code index

/-! ### Ending an entry -/

/-- The first entry of a queue taken whose work is not yet done. -/
def firstOpen (s : State) (q : Nat) : Option Taken :=
  s.wq.taken.find? fun t => t.queue == q && !t.ended && t.result.isNone

/-- The first entry of a queue taken, not yet done, whose opcode is given; the administrative ones wait behind a DESTROY under way (R432). -/
def openEntry (s : State) (q op : Nat) : Option Taken :=
  match (if q = 0 ∧ s.wq.destroying.isSome = true then none else firstOpen s q) with
  | some t => if fld t.bytes 0 1 = op then some t else none
  | none => none

/-- The entry at an index of a queue, taken and not yet done, with the opcode. -/
def openAt (s : State) (q i op : Nat) : Option Taken :=
  s.wq.taken.find? fun t => t.queue == q && t.index == i && !t.ended && t.result.isNone && fld t.bytes 0 1 == op

/-- An entry's record replaced in place. -/
def putTaken (s : State) (t : Taken) : State :=
  { s with wq := { s.wq with taken := s.wq.taken.map fun u => if u.queue == t.queue && u.index == t.index && !u.ended then t else u } }

/-- An entry's work is done with a result of 12 bytes; it has not yet ended. -/
def entryResult (s : State) (t : Taken) (res : Bytes) (failed : Bool) : State :=
  putTaken s { t with result := some (fit res 12, failed) }

/-- An entry ends: it moves behind the others, and its batch remembers a failure (R424). -/
def entryEnd (s : State) (t : Taken) (res : Bytes) (failed : Bool) : State :=
  let others := s.wq.taken.filter fun u => !(u.queue == t.queue && u.index == t.index && !u.ended)
  let done : Taken := { t with result := some (fit res 12, failed), ended := true }
  let s := { s with wq := { s.wq with taken := others ++ [done] } }
  match failed, t.batch, queueOf s t.queue with
  | true, some (b, _), some x => putQueue s { x with failedBatches := b :: x.failedBatches }
  | _, _, _ => s

/-- The first entry of a queue whose work is done and which has not yet ended, its opcode in a range. -/
def doneEntry (s : State) (q lo hi : Nat) : Option Taken :=
  s.wq.taken.find? fun t =>
    t.queue == q && !t.ended && t.result.isSome && decide (lo ≤ fld t.bytes 0 1) && decide (fld t.bytes 0 1 ≤ hi)

/-- An entry whose work is done ends with its result. -/
def endDone (s : State) (t : Taken) : State :=
  let r := t.result.getD (zeros 12, false)
  entryEnd s t r.1 r.2

/-- Some entry's work is done or under way in a block whose opcodes are `16 × b` and above, so that the block is not idle. -/
def blockBusy (s : State) (b : Nat) : Bool :=
  s.wq.taken.any fun t => !t.ended && t.result.isSome && fld t.bytes 0 1 / 16 == b

/-- The entries of a batch with an index before the LAST are all gone. -/
def batchDrained (s : State) (q b : Nat) : Bool :=
  !(s.wq.taken.any fun t => t.queue == q && !t.last && (match t.batch with | some (c, _) => c == b | none => false))

/-- The completions of the first entry of a queue that has ended: its own where it stands alone or failed, the batch's where it
is the LAST and the others have ended, none where it ended well inside a batch (R424). A LAST that failed has its own at once, while the batch's waits. -/
def wqComplete (s : State) (q : Nat) : State :=
  let drained := fun (t : Taken) => !t.last || (match t.batch with | some (b, _) => batchDrained s q b | none => true)
  let failed := fun (t : Taken) => (t.result.getD ([], false)).2
  match s.wq.taken.find? fun t => t.queue == q && t.ended && (drained t || failed t) with
  | none => s
  | some t =>
    if drained t = false then
      let r := t.result.getD (zeros 12, false)
      let told := s.wq.taken.map fun u => if u.queue == t.queue && u.index == t.index && u.ended then { u with result := some (r.1, false) } else u
      cqPost { s with wq := { s.wq with taken := told } } q (r.1 ++ le 4 (cqCommon 0 false 1 t.index))
    else
    let s := { s with wq := { s.wq with taken := s.wq.taken.filter fun u => !(u.queue == t.queue && u.index == t.index && u.ended) } }
    let r := t.result.getD (zeros 12, false)
    match t.batch with
    | none => cqPost s q (r.1 ++ le 4 (cqCommon 0 false 1 t.index))
    | some (b, pos) =>
      let s := if r.2 then cqPost s q (r.1 ++ le 4 (cqCommon 0 false 1 t.index)) else s
      if t.last then
        match queueOf s q with
        | some x =>
          let s := cqPost s q (r.1 ++ le 4 (cqCommon 0 (x.failedBatches.contains b) (pos + 1) t.index))
          match queueOf s q with
          | some x => putQueue s { x with failedBatches := x.failedBatches.filter (· != b) }
          | none => s
        | none => s
      else s

/-! ### Legacy arbitration (R434) -/

/-- The credit left to a legacy queue in the round. -/
def creditOf (s : State) (q : Nat) : Nat := (kvGet s.wq.credits q).getD (getF s (F.WQ_LWEIGHT_WEIGHT q))

/-- A legacy queue has something posted. -/
def legacyPosted (s : State) (q : Nat) : Bool :=
  match queueOf s q with
  | some x => x.state == 1 && x.sqPi != x.sqCi
  | none => false

/-- The queue the arbiter of a block serves next, and whether that begins a new round: the visited queue while its burst and
credit last, else the next bound queue in ascending cyclic order with credit and something posted. -/
def legacyPick (s : State) (block : Nat) : Option (Nat × Bool) :=
  let bound := (List.range 64).filter fun q => queueBlock s q == block && legacyPosted s q
  let cur := (s.wq.visits.find? fun v => v.1 == block).getD (block, 63, 0)
  let stays := bound.contains cur.2.1 && decide (cur.2.2 < getF s (F.WQ_LWEIGHT_BURST cur.2.1)) &&
    decide (cur.2.2 > 0) && decide (creditOf s cur.2.1 > 0)
  if stays then some (cur.2.1, false)
  else
    let ring := bound.filter (fun q => decide (q > cur.2.1)) ++ bound.filter (fun q => decide (q ≤ cur.2.1))
    match ring.find? fun q => decide (creditOf s q > 0) with
    | some q => some (q, false)
    | none => ring.head?.map fun q => (q, true)

/-- The arbiter's books after it took an entry of a queue. -/
def legacyTook (s : State) (block q : Nat) (newRound : Bool) : State :=
  let cr := if newRound then s.wq.credits.filter (fun c => queueBlock s c.1 != block) else s.wq.credits
  let left := ((kvGet cr q).getD (getF s (F.WQ_LWEIGHT_WEIGHT q))) - 1
  let cur := (s.wq.visits.find? fun v => v.1 == block).getD (block, 63, 0)
  let n := if cur.2.1 = q ∧ cur.2.2 < getF s (F.WQ_LWEIGHT_BURST q) then cur.2.2 + 1 else 1
  { s with wq := { s.wq with credits := kvPut cr q left, visits := (block, q, n) :: s.wq.visits.filter fun v => v.1 != block } }

/-! ### Entries of a block (R426) -/

/-- A block posts a 64-byte entry on a from-block queue: the slot with its phase, then SQ_PI. False while the queue is full, or
not there to take it. -/
def wqPost (s : State) (q : Nat) (entry : Bytes) : State × Bool :=
  match queueOf s q with
  | some x =>
    if x.fromBlock && x.state == 1 && decide (idxSub x.sqPi x.sqCi < 2 ^ x.log2s) then
      let e := patch (fit entry 64) 3 (le 1 (phaseOf x.log2s x.sqPi))
      let s := (fabWrite s 5 (sqSlot x x.sqPi) e).1
      let x := { x with sqPi := idxAdd x.sqPi 1 }
      ((fabWrite (putQueue s x) 5 x.idx (le 4 x.sqPi)).1, true)
    else (s, false)
  | none => (s, false)

end Sys2Proof.Machine
end

