-- ==== Sys2Proof/Machine/Cipher.lean ====
section
/-! DEFINITION. CIP and DIG (15): key slots, the eight cipher operations, digests, and the ends of their entries. -/

namespace Sys2Proof.Machine

/-! ### Key slots (R478 to R480) -/

/-- A slot's content; none when it is EMPTY. -/
def slotOf (s : State) (k : Nat) : Option KeySlot := s.cip.slots.find? fun x => x.slot == k

/-- CIP_SLOT_INFO of a slot and SLOTS_USED shown as they are. -/
def slotShow (s : State) (k : Nat) : State :=
  let x := (slotOf s k).getD ⟨k, 0, false, 0, 0, []⟩
  let s := setF (setF s (F.CIP_SLOT_INFO_KIND k) x.kind) (F.CIP_SLOT_INFO_EXPORTABLE k) (b2n x.exportable)
  let s := setF (setF s (F.CIP_SLOT_INFO_NSID k) x.nsid) (F.CIP_SLOT_INFO_KEY_GEN k) x.keyGen
  setF s F.CIP_STATUS_SLOTS_USED s.cip.slots.length

/-- A slot loaded. -/
def setSlot (s : State) (x : KeySlot) : State :=
  slotShow { s with cip := { s.cip with slots := x :: s.cip.slots.filter fun y => y.slot != x.slot } } x.slot

/-- A slot made EMPTY. -/
def clearSlot (s : State) (k : Nat) : State :=
  slotShow { s with cip := { s.cip with slots := s.cip.slots.filter fun y => y.slot != k } } k

/-- The kind of a slot, 0 for EMPTY. -/
def slotKind (s : State) (k : Nat) : Nat := match slotOf s k with | some x => x.kind | none => 0

/-- A slot number in the range of the kinds GCM and WRAP, 16 to 4,095 (Table 15-3). -/
def slotOpen (k : Nat) : Bool := decide (16 ≤ k) && decide (k < 4096)

/-- The 48-byte key record of Table 15-4. -/
def keyRecord (x : KeySlot) : Bytes :=
  le 4 0x334B5A41 ++ [1, 0] ++ le 2 x.nsid ++ le 4 x.keyGen ++ zeros 4 ++ fit x.key 32

/-- The 64-byte blob of Table 15-5 over a record. -/
def keyBlob (kek : Bytes) (wrapper : Nat) (rec : Bytes) : Bytes := fit (fit (kwpWrap kek rec) 56 ++ le 1 wrapper) 64

/-- A blob unwrapped to its record: none where the integrity check fails. -/
def blobRecord (kek blob : Bytes) : Option Bytes :=
  match kwpUnwrap kek (blob.take 56) with
  | some r => if r.length = 48 then some r else none
  | none => none

/-- A key record has the right MAGIC and KKIND (CSTATUS 6). -/
def recordOk (r : Bytes) : Bool := fld r 0 4 == 0x334B5A41 && fld r 4 1 == 1

/-- The slot content of a key record. -/
def recordSlot (k : Nat) (r : Bytes) : KeySlot := ⟨k, 1, true, fld r 6 2, fld r 8 4, slice r 16 32⟩

/-! ### Entries (Tables 15-7 to 15-9) -/

/-- The first fabric failure of CIP latched, under the rule of R310. -/
def cipLatch (s : State) (q : Nat) (wr : Bool) (a : Nat) : State :=
  if flag s F.CIP_ERR_INFO_VALID then s
  else setF (setF (setF (setF s F.CIP_ERR_INFO_DIR (b2n wr)) F.CIP_ERR_INFO_QUEUE q) F.CIP_ERR_ADDR_ADDR a) F.CIP_ERR_INFO_VALID 1

/-- A CIP read (requester 9); a failure is latched. -/
def cipRead (s : State) (q a n : Nat) : State × Option Bytes :=
  match fabRead s 9 a n with
  | (s, none) => (cipLatch s q false a, none)
  | r => r

/-- A CIP write; a failure is latched. -/
def cipWrite (s : State) (q a : Nat) (b : Bytes) : State × Bool :=
  match fabWrite s 9 a b with
  | (s, false) => (cipLatch s q true a, false)
  | r => r

/-- The operation of a CIP entry is done with a CSTATUS; the entry ends by CIP_ENTRY_END. -/
def cipDone (s : State) (t : Taken) (cstatus : Nat) (tail : Bytes) : Res :=
  .next (setF (entryResult s t (slice t.bytes 56 8 ++ le 1 cstatus ++ fit tail 3) (cstatus != 0)) F.CIP_STATUS_IDLE 0)

/-- The CIP entry at the front of a queue with the opcode, while the engine is enabled. -/
def cipEntry (s : State) (q op : Nat) : Option Taken := if flag s F.CIP_CTRL_ENABLE then openEntry s q op else none

/-- The fields of a GCM entry. -/
structure GcmEntry where
  slot : Nat
  aadLen : Nat
  len : Nat
  iv : Bytes
  src : Nat
  dst : Nat
  aad : Nat

/-- A GCM entry laid out (Table 15-8). -/
def gcmEntry (b : Bytes) : GcmEntry :=
  ⟨fld b 8 2, fld b 10 2, fld b 12 4, slice b 16 12, fld b 32 8, fld b 40 8, fld b 48 8⟩

/-- The overlaps of a GCM entry that R495 lists, with the tag's address. -/
def gcmOverlap (e : GcmEntry) (tag : Nat) : Bool :=
  (e.src != e.dst && overlaps e.src e.len e.dst e.len) || overlaps e.src e.len e.aad e.aadLen || overlaps e.dst e.len e.aad e.aadLen ||
    overlaps e.src e.len tag 16 || overlaps e.dst e.len tag 16

/-- A GCM entry's checks of CSTATUS 3 and 2: the key where they pass (Tables 15-2 and 15-9). -/
def gcmKey (s : State) (e : GcmEntry) : Nat × Bytes :=
  match slotOf s e.slot with
  | some x =>
    if !(slotOpen e.slot) || x.kind != 1 then (3, [])
    else if e.len = 0 ∨ e.len > 65536 ∨ e.aadLen > 256 then (2, [])
    else (0, x.key)
  | none => (3, [])

/-- CIP_GCM_ENC (R491): the ciphertext at DST and the tag behind it. -/
def execCipGcmEnc (queue : Nat) (s : State) : Res := whileCore s fun s =>
  match cipEntry s queue 0x20 with
  | none => .next s
  | some t =>
    let e := gcmEntry t.bytes
    let k := gcmKey s e
    if fld t.bytes 28 4 ≠ 0 then .fault .reservedNonzero
    else if k.1 ≠ 0 then cipDone s t k.1 []
    else if gcmOverlap e (e.dst + e.len) then .fault (.undefined495 1)
    else
      match cipRead s queue e.aad e.aadLen with
      | (s, none) => cipDone s t 4 []
      | (s, some aad) =>
        match cipRead s queue e.src e.len with
        | (s, none) => cipDone s t 4 []
        | (s, some p) =>
          let c := gcmEnc k.2 e.iv aad p
          let s := countF s F.CIP_CNT_GCM_BYTES_COUNT (e.len + e.aadLen)
          match cipWrite s queue e.dst (c.1 ++ c.2) with
          | (s, false) => cipDone s t 4 []
          | (s, true) => cipDone s t 0 []

/-- CIP_GCM_DEC (R476, R491): a wrong tag zeroes the whole destination and ends with AUTH. -/
def execCipGcmDec (queue : Nat) (s : State) : Res := whileCore s fun s =>
  match cipEntry s queue 0x21 with
  | none => .next s
  | some t =>
    let e := gcmEntry t.bytes
    let k := gcmKey s e
    if fld t.bytes 28 4 ≠ 0 then .fault .reservedNonzero
    else if k.1 ≠ 0 then cipDone s t k.1 []
    else if gcmOverlap e (e.src + e.len) then .fault (.undefined495 1)
    else
      match cipRead s queue e.aad e.aadLen with
      | (s, none) => cipDone s t 4 []
      | (s, some aad) =>
        match cipRead s queue e.src (e.len + 16) with
        | (s, none) => cipDone s t 4 []
        | (s, some c) =>
          let p := gcmDec k.2 e.iv aad (c.take e.len) (c.drop e.len)
          let s := countF s F.CIP_CNT_GCM_BYTES_COUNT (e.len + e.aadLen)
          match cipWrite s queue e.dst (p.getD (zeros e.len)) with
          | (s, false) => cipDone s t 4 []
          | (s, true) => cipDone s t (if p.isSome then 0 else 1) []

/-- XTS of an entry in either direction (R491). -/
def cipXts (enc : Bool) (t : Taken) (queue : Nat) (s : State) : Res :=
  let b := t.bytes
  let len := fld b 12 4
  let src := fld b 32 8
  let dst := fld b 40 8
  let unit := if fld b 10 1 = 0 then 4096 else 16384
  if fld b 11 1 ≠ 0 ∨ fld b 48 8 ≠ 0 then .fault .reservedNonzero
  else
    match slotOf s (fld b 8 2) with
    | none => cipDone s t 3 []
    | some x =>
      if fld b 8 2 ≠ 1 ∨ x.kind ≠ 2 ∨ fld b 10 1 > 1 then cipDone s t 3 []
      else if len = 0 ∨ len % unit ≠ 0 ∨ len > 262144 then cipDone s t 2 []
      else if src ≠ dst ∧ overlaps src len dst len = true then .fault (.undefined495 1)
      else
        match cipRead s queue src len with
        | (s, none) => cipDone s t 4 []
        | (s, some p) =>
          let s := countF s F.CIP_CNT_XTS_BYTES_COUNT len
          match cipWrite s queue dst (xtsRun enc x.key unit (len / unit) (fld b 16 16) p) with
          | (s, false) => cipDone s t 4 []
          | (s, true) => cipDone s t 0 []

/-- CIP_XTS_ENC (R491). -/
def execCipXtsEnc (queue : Nat) (s : State) : Res := whileCore s fun s =>
  match cipEntry s queue 0x22 with
  | none => .next s
  | some t => cipXts true t queue s

/-- CIP_XTS_DEC (R491). -/
def execCipXtsDec (queue : Nat) (s : State) : Res := whileCore s fun s =>
  match cipEntry s queue 0x23 with
  | none => .next s
  | some t => cipXts false t queue s

/-- A reserved field of a key operation is nonzero. -/
def keyopReserved (b : Bytes) : Bool := fld b 11 1 != 0 || !(allZero (slice b 20 12)) || !(allZero (slice b 40 16))

/-- WSLOT is allowed: a transport slot with WRAPPER 3, otherwise 0 (Table 15-8). -/
def wslotOk (s : State) (wrapper wslot : Nat) : Bool :=
  if wrapper = 3 then slotOpen wslot && slotKind s wslot == 3 else wslot == 0

/-- The key that a WRAPPER names: the device key-encryption key, the escrow key or the transport key; CSTATUS 5 where it is not
loaded. -/
def wrapperKey (s : State) (wrapper wslot : Nat) : Option Bytes :=
  if wrapper = 1 then s.cip.kek
  else if wrapper = 2 then s.cip.escrow
  else (slotOf s wslot).map KeySlot.key

/-- CIP_UNWRAP (R491): the blob at BLOB into SLOT, kind GCM, EXPORTABLE 1; its completion holds KKIND and NSID. -/
def execCipUnwrap (queue : Nat) (s : State) : Res := whileCore s fun s =>
  match cipEntry s queue 0x24 with
  | none => .next s
  | some t =>
    let b := t.bytes
    let w := fld b 10 1
    if keyopReserved b then .fault .reservedNonzero
    else if !(slotOpen (fld b 8 2)) || !(w == 1 || w == 3) || !(wslotOk s w (fld b 12 2)) || fld b 32 8 % 64 != 0 then cipDone s t 3 []
    else
      match wrapperKey s w (fld b 12 2) with
      | none => cipDone s t 5 []
      | some kek =>
        match cipRead s queue (fld b 32 8) 64 with
        | (s, none) => cipDone s t 4 []
        | (s, some blob) =>
          match blobRecord kek blob with
          | none => cipDone s t 1 []
          | some r =>
            if recordOk r then cipDone (setSlot s (recordSlot (fld b 8 2) r)) t 0 (slice r 4 1 ++ slice r 6 2)
            else cipDone s t 6 []

/-- CIP_GENKEY (R491): a random key into SLOT. What the random source draws is a free value. -/
def execCipGenkey (queue : Nat) (s : State) : Res := whileCore s fun s =>
  match cipEntry s queue 0x25 with
  | none => .next s
  | some t =>
    let b := t.bytes
    if keyopReserved b then .fault .reservedNonzero
    else if !(slotOpen (fld b 8 2)) || fld b 10 1 != 0 || fld b 12 2 != 0 || fld b 16 4 != 1 || fld b 32 8 % 64 != 0 then cipDone s t 3 []
    else if flag s F.CIP_STATUS_RNG_FAIL then cipDone s t 7 []
    else
      let k := freshBytes s 32
      cipDone (setSlot k.2 ⟨fld b 8 2, 1, true, fld b 14 2, 1, k.1⟩) t 0 []

/-- CIP_EXPORT (R491): the key record of SLOT wrapped under WRAPPER, the blob at BLOB. -/
def execCipExport (queue : Nat) (s : State) : Res := whileCore s fun s =>
  match cipEntry s queue 0x26 with
  | none => .next s
  | some t =>
    let b := t.bytes
    let w := fld b 10 1
    match slotOf s (fld b 8 2) with
    | none => if keyopReserved b then .fault .reservedNonzero else cipDone s t 3 []
    | some x =>
      if keyopReserved b then .fault .reservedNonzero
      else if !(slotOpen x.slot) || x.kind != 1 || !x.exportable || w == 0 || decide (w > 3) || !(wslotOk s w (fld b 12 2)) ||
          fld b 32 8 % 64 != 0 then cipDone s t 3 []
      else
        match wrapperKey s w (fld b 12 2) with
        | none => cipDone s t 5 []
        | some kek =>
          match cipWrite s queue (fld b 32 8) (keyBlob kek w (keyRecord x)) with
          | (s, false) => cipDone s t 4 []
          | (s, true) => cipDone s t 0 []

/-- CIP_CLEAR (R491): SLOT becomes EMPTY; any slot may be cleared (Table 15-3). -/
def execCipClear (queue : Nat) (s : State) : Res := whileCore s fun s =>
  match cipEntry s queue 0x27 with
  | none => .next s
  | some t =>
    let b := t.bytes
    if keyopReserved b then .fault .reservedNonzero
    else if fld b 8 2 ≥ 4096 ∨ fld b 10 1 ≠ 0 ∨ fld b 12 2 ≠ 0 ∨ fld b 32 8 % 64 ≠ 0 then cipDone s t 3 []
    else cipDone (clearSlot s (fld b 8 2)) t 0 []

/-- A CIP entry ends (R492): its completion becomes due, and the counters of Table 15-10 rise. -/
def execCipEntryEnd (queue : Nat) (s : State) : Res := whileCore s fun s =>
  match doneEntry s queue 0x20 0x27 with
  | none => .next s
  | some t =>
    let c := fld (t.result.getD (zeros 12, false)).1 8 1
    let s := endDone s t
    let s := if c = 1 then countF s F.CIP_CNT_AUTH_FAIL_COUNT 1 else if c = 2 then countF s F.CIP_CNT_LENGTH_COUNT 1 else s
    let s := if fld t.bytes 0 1 ≥ 0x24 then countF s F.CIP_CNT_KEYOPS_COUNT 1 else s
    .next (setF s F.CIP_STATUS_IDLE (b2n !(blockBusy s 2)))

/-! ### Digests (R490) -/

/-- A context in use. -/
def ctxOf (s : State) (c : Nat) : Option DigCtx := s.cip.ctxs.find? fun x => x.ctx == c

/-- A context put in place, or made idle, and the registers that show it. -/
def putCtx (s : State) (c : Nat) (x : Option DigCtx) : State :=
  let rest := s.cip.ctxs.filter fun y => y.ctx != c
  let ctxs := match x with | some y => y :: rest | none => rest
  let s := { s with cip := { s.cip with ctxs := ctxs } }
  let s := setF (setF s (F.DIG_CTX_STATE_OPEN c) (b2n x.isSome)) (F.DIG_CTX_STATE_SHA384 c)
    (b2n (match x with | some y => y.sha384 | none => false))
  setF s F.DIG_STATUS_OPEN s.cip.ctxs.length

/-- The first fabric failure of DIG latched. -/
def digLatch (s : State) (q : Nat) (wr : Bool) (a : Nat) : State :=
  if flag s F.DIG_ERR_INFO_VALID then s
  else setF (setF (setF (setF s F.DIG_ERR_INFO_DIR (b2n wr)) F.DIG_ERR_INFO_QUEUE q) F.DIG_ERR_ADDR_ADDR a) F.DIG_ERR_INFO_VALID 1

/-- The operation of a DIG entry is done with a CSTATUS. -/
def digDone (s : State) (t : Taken) (cstatus : Nat) : Res :=
  .next (setF (entryResult s t (slice t.bytes 32 8 ++ le 1 cstatus ++ zeros 3) (cstatus != 0)) F.DIG_STATUS_IDLE 0)

/-- Another entry on the context stands on another queue (R495). -/
def digShared (s : State) (q c : Nat) : Bool :=
  s.wq.taken.any fun t => t.queue != q && !t.ended && t.result.isNone && fld t.bytes 0 1 == 0x30 && fld t.bytes 8 1 == c

/-- DIG_UPDATE (R490). -/
def execDigUpdate (queue : Nat) (s : State) : Res := whileCore s fun s =>
  match (if flag s F.DIG_CTRL_ENABLE then openEntry s queue 0x30 else none) with
  | none => .next s
  | some t =>
    let b := t.bytes
    let c := fld b 8 1
    let first := bitAt (fld b 9 1) 0
    let last := bitAt (fld b 9 1) 1
    let sha := bitAt (fld b 9 1) 2
    let len := fld b 12 4
    let old := if first then some ⟨c, sha, []⟩ else ctxOf s c
    let out := if sha then 48 else 32
    if fld b 9 1 ≥ 8 ∨ fld b 10 2 ≠ 0 ∨ !(allZero (slice b 40 24)) then .fault .reservedNonzero
    else if digShared s queue c then .fault (.undefined495 2)
    else if last && overlaps (fld b 16 8) len (fld b 24 8) out then .fault (.undefined495 1)
    else
      match old with
      | none => digDone s t 3
      | some x =>
        if c ≥ 64 ∨ x.sha384 ≠ sha then digDone s t 3
        else
          match fabRead s 9 (fld b 16 8) len with
          | (s, none) => digDone (digLatch s queue false (fld b 16 8)) t 4
          | (s, some m) =>
            let s := countF s F.DIG_CNT_BYTES_COUNT len
            let msg := x.msg ++ m
            if last then
              match fabWrite s 9 (fld b 24 8) (if sha then sha384 msg else sha256 msg) with
              | (s, false) => digDone (digLatch s queue true (fld b 24 8)) t 4
              | (s, true) => digDone (putCtx (countF s F.DIG_CNT_DIGESTS_COUNT 1) c none) t 0
            else digDone (putCtx s c (some { x with msg := msg })) t 0

/-- A DIG entry ends and its completion becomes due (R492). -/
def execDigEntryEnd (queue : Nat) (s : State) : Res := whileCore s fun s =>
  match doneEntry s queue 0x30 0x30 with
  | none => .next s
  | some t =>
    let s := endDone s t
    .next (setF s F.DIG_STATUS_IDLE (b2n !(blockBusy s 3)))

end Sys2Proof.Machine
end

