-- ==== Sys2Proof/Machine/ConfigStore.lean ====
section
/-! DEFINITION. The configuration store of Cox (R567): its copies, lookups, appending and compacting, and the records that crew firmware keeps in it. -/

namespace Sys2Proof.Machine

/-- SETTINGS_VER of the active image. -/
def settingsVer (s : State) : Nat := fld s.cox.image 14 2

/-- The copy of highest GEN among some. -/
def newestCopy : List CfgCopy → Option CfgCopy
  | [] => none
  | c :: cs => some (cs.foldl (fun a b => if b.gen > a.gen then b else a) c)

/-- The copy in use: the valid copy with the highest GEN whose FORMAT the image understands. -/
def cfgInUse (s : State) : Option CfgCopy := newestCopy (s.cox.copies.filter fun c => decide (c.format ≤ settingsVer s))

/-- A copy put in place. -/
def putCopy (s : State) (c : CfgCopy) : State := { s with cox := { s.cox with copies := c :: s.cox.copies.filter fun x => x.copy != c.copy } }

/-- The newest record of a key in a copy. -/
def cfgFind (c : CfgCopy) (key : Nat) : Option CfgRec := (c.recs.filter fun r => r.key == key).getLast?

/-- The bytes of a record. -/
def cfgSize (r : CfgRec) : Nat := 24 + alignUp r.data.length 8

/-- The copy kept untouched through a trial. -/
def cfgKept (s : State) : Option CfgCopy := s.cox.keptOld.bind fun n => s.cox.copies.find? fun c => c.copy == n

/-- The record CFG_READ answers with, and the FORMAT of its copy: of the copy in use where the key is there, else of the copy kept. -/
def cfgLookup (s : State) (key : Nat) : Option (CfgRec × Nat) :=
  let at_ := fun (o : Option CfgCopy) => o.bind fun c => (cfgFind c key).map fun r => (r, c.format)
  match at_ (cfgInUse s) with
  | some r => some r
  | none => at_ (cfgKept s)

/-- The newest record of each live key. -/
def cfgLive (c : CfgCopy) : List CfgRec := c.recs.filter fun r => !r.del && cfgFind c r.key == some r

/-- A copy compacted into the other one with GEN + 1. -/
def cfgCompact (c : CfgCopy) : CfgCopy :=
  let rs := cfgLive c
  ⟨1 - c.copy, c.format, c.gen + 1, rs, 64 + (rs.map cfgSize).sum⟩

/-- The size of a copy. -/
def cfgMax : Nat := 0x400000

/-- A record appended: compacting first where it would not fit and after it passes half; none where the store stays full. -/
def cfgAppend (s : State) (key : Nat) (del : Bool) (data : Bytes) : Option State :=
  let base := (cfgInUse s).getD ⟨0, settingsVer s, 1, [], 64⟩
  let r : CfgRec := ⟨key, del, ((base.recs.map CfgRec.seq).foldl max 0) + 1, data⟩
  let trial := s.cox.keptOld.isSome
  let full := decide (base.used + cfgSize r > cfgMax)
  let c := if full && !trial then cfgCompact base else base
  if c.used + cfgSize r > cfgMax then none
  else
    let d : CfgCopy := { c with recs := c.recs ++ [r], used := c.used + cfgSize r }
    let half := decide (c.used ≤ cfgMax / 2) && decide (d.used > cfgMax / 2)
    some (putCopy s (if half && !trial then cfgCompact d else d))

/-- A key is a Cox key. -/
def coxKey (key : Nat) : Bool := key / 2 ^ 28 == 0

/-! ### What crew firmware keeps there (R126) -/

/-- The key under which crew firmware saves the retention clock. DESIGN CHOICE: the spec names the store and not the key (log entry 67). -/
def retentionKey : Nat := 0x20000000

/-- The saved pair of the retention clock: its value and the operating seconds at the save; 0 and 0 where none was ever saved (R126). -/
def savedPair (s : State) : Nat × Nat :=
  match cfgLookup s retentionKey with
  | some (r, _) => if r.del then (0, 0) else (fld r.data 0 8, fld r.data 8 8)
  | none => (0, 0)

end Sys2Proof.Machine
end

