-- ==== Sys2Proof/Machine/Flags.lean ====
section
/-! DEFINITION. The levels of the interrupt sources (Table 01-9 and each block's list), the distributor's view of them (R41 to
R43), and the registers whose value is computed from other state. -/

namespace Sys2Proof.Machine

/-- The edge sources of R43. -/
def edgeSources : List Nat := [4, 136, 137, 257, 292, 294]

/-- The size of the record ring of a journal of the configured size (Table 06-3: 16 MiB for each 256 MiB). -/
def pjRingBytes (s : State) : Nat := s.pj.units * 0x1000000

/-- Some queue holds vector v high (R427). -/
def vectorHigh (s : State) (v : Nat) : Bool :=
  s.wq.queues.any fun x => x.irqEn && x.vector == v && (if x.fromBlock then x.sqPi != x.sqCi else x.cqPi != x.cqCi)

/-- The level of a source of a data port, numbered from its first (ch. 16, Registers). -/
def macLevel (s : State) (chg rx tx ts ov ver err : Fld) (k : Nat) : Bool :=
  if k = 0 then flag s chg
  else if k = 1 then getF s rx != 0
  else if k = 2 then getF s tx != 0
  else if k = 3 then getF s ts != 0
  else if k = 4 then flag s ov
  else if k = 5 then flag s ver
  else if k = 6 then flag s err
  else false

/-- The level of an interrupt source: the latch of an edge source (R43), the condition its block's chapter gives for
every other; a source of a block whose domain is off is low (R26). -/
def srcLevel (s : State) (i : Nat) : Bool :=
  if edgeSources.contains i then s.irq.latch.contains i
  else if i = 1 then flag s F.PWR_THERM_STEP_CHG
  else if i = 2 then !s.pins.pfailN
  else if i = 3 then flag s F.FAB_ERR_STATUS_VALID
  else if i = 5 then flag s F.AON_STATUS_DUE
  else if i = 6 then flag s F.SNAP_STATUS_DONE
  else if i = 8 then flag s F.SC_MAINT_STATUS_DONE
  else if i = 9 then getF s F.SC_WAY_STATUS_DISABLED != 0
  else if i = 10 then flag s F.SC_UE_INFO_VALID
  else if 16 ≤ i ∧ i < 80 then vectorHigh s (i - 16)
  else if 80 ≤ i ∧ i < 112 then getF s (F.DMA_CH_STATUS_STATE (i - 80)) == 3 || flag s (F.DMA_CH_STATUS_IRQ_PEND (i - 80))
  else if i = 112 then flag s F.ASU_MOVE_STATUS_DONE
  else if i = 120 then flag s F.CIP_ERR_INFO_VALID
  else if i = 121 then flag s F.DIG_ERR_INFO_VALID
  else if i = 128 then flag s F.EC_ERR_INFO_VALID
  else if 144 ≤ i ∧ i < 208 then
    let n := (i - 144) / 2
    if i % 2 = 0 then flag s (F.FC_STATUS_INIT_DONE n)
    else flag s (F.FC_STATUS_SEQ_FAULT n) || flag s (F.FC_ERR_INFO_VALID n) || flag s (F.FC_STATUS_LUN_DEAD n)
  else if i = 208 then flag s F.DMC_ERR_INFO_VALID
  else if i = 209 then flag s F.DMC_STATUS_TEMP_HIGH
  else if 216 ≤ i ∧ i < 232 then
    macLevel s F.MACA_STATUS_LINK_CHG F.MACA_IRQ_RX F.MACA_IRQ_TX F.MACA_TSQ_STATUS_COUNT F.MACA_TSQ_STATUS_OVERFLOW
      F.MACA_STATUS_VERIFY_CHG F.MACA_ERR_INFO_VALID (i - 216)
  else if 232 ≤ i ∧ i < 248 then
    macLevel s F.MACB_STATUS_LINK_CHG F.MACB_IRQ_RX F.MACB_IRQ_TX F.MACB_TSQ_STATUS_COUNT F.MACB_TSQ_STATUS_OVERFLOW
      F.MACB_STATUS_VERIFY_CHG F.MACB_ERR_INFO_VALID (i - 232)
  else if i = 248 then flag s F.PLK_STATUS_LINK_CHG
  else if i = 256 then flag s F.HTE_SESS_HOLD_HELD
  else if i = 272 then getF s F.SVC_IRQ_RX != 0
  else if i = 273 then getF s F.SVC_IRQ_TX != 0
  else if i = 274 then flag s F.SVC_WAKE_STATUS_WOKE
  else if i = 280 then flag s F.LOG_STATUS_NEW && flag s F.LOG_CTRL_IRQ_EN
  else if i = 281 then flag s F.LOG_STATUS_CLEARED
  else if i = 282 then flag s F.PENT_STATUS_TAKEN
  else if 288 ≤ i ∧ i < 292 then flag s (F.COX_MBc_STATUS_DONE (i - 288))
  else if i = 293 then
    decide ((getF s F.PJ_HEAD_OFFSET - getF s F.PJ_TAIL_OFFSET) * 100 > pjRingBytes s * getF s F.PJ_RING_HWM_PCT)
  else false

/-- A source is pending: its level is high, it is enabled and it is not in service (R41). -/
def srcPending (s : State) (i : Nat) : Bool :=
  i != 0 && srcLevel s i && flag s (F.IRQ_SRC_ROUTE_ENABLE i) && !(s.irq.inService.any fun p => p.1 == i)

/-- The sources that can be enabled at all; the others are low. -/
def allSources : List Nat := (List.range 296).drop 1

/-- The pending sources routed to a core whose priority is above its threshold (R41); priority 0 is never delivered. -/
def eligible (s : State) (c : Nat) : List Nat :=
  allSources.filter fun i =>
    flag s (F.IRQ_SRC_ROUTE_ENABLE i) && getF s (F.IRQ_SRC_ROUTE_CORE i) == c &&
      decide (getF s (F.IRQ_SRC_ROUTE_PRIO i) > getF s (F.IRQ_THRESH_LEVEL c)) && srcPending s i

/-- The source of highest priority, the lowest ID among equals (R41). -/
def bestSource (s : State) : List Nat → Option Nat
  | [] => none
  | i :: is =>
    match bestSource s is with
    | none => some i
    | some j => if getF s (F.IRQ_SRC_ROUTE_PRIO j) > getF s (F.IRQ_SRC_ROUTE_PRIO i) then some j else some i

/-- The machine timer interrupt of a core is pending (R17). -/
def timerPending (s : State) (c : Nat) : Bool := decide (mtime s ≥ getF s (F.IRQ_MTIMECMP_TIME c))

/-- A core is in WFI: it executed WFI and no interrupt has been asserted to it since (R17, PWR_CORES). -/
def inWfi (s : State) (c : Nat) : Bool := s.cores.waiting.contains c && (eligible s c).isEmpty && !(timerPending s c)

/-- A crew core executes an access or instruction: it waits no longer and its instruction cache holds lines. -/
def coreActs (s : State) (c : Nat) : State :=
  { s with cores := { s.cores with
      waiting := s.cores.waiting.filter (· != c),
      icacheHeld := if s.cores.icacheHeld.contains c then s.cores.icacheHeld else c :: s.cores.icacheHeld } }

/-- A crew core has written memory: no core has executed FENCE.I since (R32), nor has this one executed FENCE (R33). -/
def coreWrote (s : State) (c a n : Nat) : State :=
  { s with cores := { s.cores with written := (a, n, 255) :: s.cores.written, unfenced := (c, a, n) :: s.cores.unfenced } }

/-- FENCE on a core: its earlier writes are ordered before whatever it does next (R17, R33). -/
def coreFence (s : State) (c : Nat) : State :=
  { s with cores := { s.cores with unfenced := s.cores.unfenced.filter fun w => w.1 != c } }

/-- FENCE.I on a core: its instruction cache holds no line fetched before, so it fetches what has been written (R32). -/
def coreFenceI (s : State) (c : Nat) : State :=
  let seen := s.cores.written.map fun w => (w.1, w.2.1, w.2.2 - (w.2.2 &&& 2 ^ c))
  { s with cores := { s.cores with icacheHeld := s.cores.icacheHeld.filter (· != c), written := seen.filter fun w => w.2.2 != 0 } }

/-- A core would run code that crew firmware has written without FENCE.I on that core (R46, first case). -/
def staleCode (s : State) (c a n : Nat) : Bool :=
  s.cores.written.any fun w => bitAt w.2.2 c && overlaps a n w.1 w.2.1

/-- A block that crew firmware starts would read memory which a core has written without a fence since (R33; R46, second case). -/
def unfencedHit (s : State) (ranges : List (Nat × Nat)) : Bool :=
  s.cores.unfenced.any fun w => ranges.any fun r => overlaps r.1 r.2 w.2.1 w.2.2

/-- What follows a start of a block that reads the given memory, where every write to it is fenced. -/
def whenFenced (s : State) (ranges : List (Nat × Nat)) (k : Res) : Res :=
  if unfencedHit s ranges then .fault (.undefined46 2) else k

/-- A crew core runs: its domain is on (R26, R531), Cox has released it (R555), and CORE has not been stopped. -/
def coreOn (s : State) (c : Nat) : Bool := decide (c < 8) && coreLive s && s.cox.releasedAt.isSome && (decide (c < 2) || domainOn s .crew2)

/-- What a crew core executes, where it runs at all: a core that is off or stopped executes nothing. -/
def coreRuns (s : State) (c : Nat) (k : State → Res) : Res := if coreOn s c then k (coreActs s c) else .next s

/-- A store of a crew core to a register that has a row of its own: with the register's domain off it fails with kind 5 and the core
takes a store access fault (R17, R38), else the core acts and the row's effect follows. -/
def coreStore (s : State) (core a : Nat) (k : State → Res) : Res :=
  coreRuns s core fun s =>
    if domainOn s (regDomain a) then k s
    else .next (emit (fabLatch s 5 (core / 4) true a) (.accessFault core 7 a))

/-- The mask of the crew cores in WFI, PWR_CORES.WFI. -/
def wfiMask (s : State) : Nat := ((List.range 8).map fun c => if inWfi s c then 2 ^ c else 0).sum

/-- The value of a register word composed of its stored fields. -/
def composed (s : State) (a : Nat) (fs : List FDef) : Nat :=
  (fs.map fun d => if d.ty = .wo then 0 else getF s (fieldAt d a) * 2 ^ d.lo).sum

/-- The states of a queue as WQ_QSTATE shows them. -/
def qstateValue (s : State) (q : Nat) : Nat :=
  match queueOf s q with
  | some x => x.state * 2 ^ 29 + b2n x.holdback * 2 ^ 28 + x.held.length * 2 ^ 22 + takenOpen s q * 2 ^ 11
  | none => 0

/-- The value a read of a register returns: the stored fields, or what the register shows of other state. -/
def regValue (s : State) (a : Nat) (r : RegFam) : Nat :=
  if a = 0x0100000008 then wfiMask s
  else if a = 0x010F300004 then composed s a r.fields ||| (2 ^ 28 * b2n (!s.pins.pfailN))
  else if 0x010D000020 ≤ a ∧ a < 0x010D000040 ∧ !(domainOn s .cox) then 0
  else if a = 0x0100400000 then opsec s
  else if a = 0x0100400008 then aonMs s
  else if a = 0x0100803000 then mtime s
  else if 0x0100801000 ≤ a ∧ a < 0x0100801040 then
    let w := (a - 0x0100801000) / 4
    ((List.range 32).map fun b => if srcPending s (32 * w + b) ||
      (edgeSources.contains (32 * w + b) && srcLevel s (32 * w + b)) then 2 ^ b else 0).sum
  else if a = 0x0101000004 then
    getF s F.SC_STATUS_ENABLED * 2 ^ 31 + b2n (s.sc.lines.any ScLine.dirty) * 2 ^ 30 + s.sc.lines.length
  else if a = 0x0101000008 then (s.sc.lines.filter ScLine.dirty).length
  else if a = 0x0101000010 then ((s.sc.streams.filter fun t => t.2.1 == 64).map fun t => 2 ^ t.1).sum
  else if a = 0x010100030C then s.sc.hints.length
  else if a = 0x0102000004 then
    b2n (s.wq.taken.all Taken.ended && s.wq.queues.all fun x => x.held.isEmpty) * 2 ^ 31 + s.wq.queues.length +
      ((List.range 64).filter fun q => (queueOf s q).isSome && !(s.wq.queues.any fun x => x.num == q)).length
  else if a = 0x0102000064 then qstateValue s (getF s F.WQ_QSEL_QUEUE)
  else if a = 0x0102000068 then (match queueOf s (getF s F.WQ_QSEL_QUEUE) with | some x => x.sqCi | none => 0)
  else if a = 0x010200006C then (match queueOf s (getF s F.WQ_QSEL_QUEUE) with | some x => x.cqPi | none => 0)
  else if a = 0x0102000070 ∨ a = 0x0102000074 then
    let w := (a - 0x0102000070) / 4
    ((List.range 32).map fun b => if vectorHigh s (32 * w + b) then 2 ^ b else 0).sum
  else composed s a r.fields

/-- The value of the register at an address of the map, 0 where there is none. -/
def readReg (s : State) (a : Nat) : Nat :=
  match regAt a with
  | some (b, r) => regValue s b r
  | none => 0

end Sys2Proof.Machine
end

