-- ==== Sys2Proof/Machine/Rig.lean ====
section
/-! DEFINITION. The rig (08): its tables as the container and the image hold them, the loader's checks and its image, staging,
activation and discarding. -/

namespace Sys2Proof.Machine

/-! ### Tables (R288, R290 to R299) -/

/-- The entry size of each kind, Table 08-2. -/
def rigEntrySize (kind : Nat) : Nat :=
  ([0, 160, 64, 8, 128, 24, 16, 80, 128, 16448, 65920][kind]?).getD 0

/-- A count lies inside Table 08-2. -/
def rigCountOk (kind n : Nat) : Bool :=
  if kind = 1 ∨ kind = 2 then decide (1 ≤ n) && decide (n ≤ 16384)
  else if kind = 3 then n == 65536
  else if kind = 4 then decide (n ≤ 65536)
  else if kind = 6 then decide (n ≤ 256)
  else if kind = 8 then decide (1 ≤ n) && decide (n ≤ 64)
  else if kind = 9 ∨ kind = 10 then decide (1 ≤ n) && decide (n ≤ 16)
  else true

/-- How the tables of a rig are read: the count of a kind, and `n` bytes at an offset of an entry. -/
structure RigView where
  count : Nat → Nat
  bytes : Nat → Nat → Nat → Nat → Bytes

/-- Directory entry i of a container: kind, count, offset, size (Table 08-1). -/
def rigDirAt (c : Bytes) (i : Nat) : Nat × Nat × Nat × Nat :=
  let o := 64 + 16 * i
  (fld c o 1, fld c (o + 4) 4, fld c (o + 8) 4, fld c (o + 12) 4)

/-- The directory. -/
def rigDir (c : Bytes) : List (Nat × Nat × Nat × Nat) := (List.range 12).map (rigDirAt c)

/-- The table of a kind as (count, offset). -/
def rigTable (c : Bytes) (kind : Nat) : Nat × Nat :=
  match (rigDir c).find? fun d => d.1 == kind with
  | some d => (d.2.1, d.2.2.1)
  | none => (0, 0)

/-- A container's tables. -/
def containerView (c : Bytes) : RigView where
  count := fun k => (rigTable c k).1
  bytes := fun k i o n => slice c ((rigTable c k).2 + rigEntrySize k * i + o) n

/-- The active image's tables, in the rig memory window (R301). -/
def activeView (s : State) : RigView where
  count := fun k => getF s (F.RIG_TBL_CNT_COUNT (k - 1))
  bytes := fun k i o n => memRead s (rigBase + getF s (F.RIG_TBL_OFF_OFFSET (k - 1)) + rigEntrySize k * i + o) n

/-- A field of a table entry. -/
def RigView.num (v : RigView) (kind i o n : Nat) : Nat := leNat (v.bytes kind i o n)

/-- A rig is active (R307). -/
def rigActive (s : State) : Bool := getF s F.RIG_EPOCH_EPOCH != 0

/-- The hull number of a device index. -/
def RigView.hull (v : RigView) (dev : Nat) : Nat := v.num 1 dev 0 8

/-- The device index of a hull number. -/
def RigView.devOfHull (v : RigView) (hull : Nat) : Option Nat := (List.range (v.count 1)).find? fun i => v.hull i == hull

/-- A group's entries: identity, seats, flags, sets, writing set, first set. -/
def RigView.groupId (v : RigView) (g : Nat) : Nat := v.num 2 g 0 4
/-- The seats of a group. -/
def RigView.seats (v : RigView) (g : Nat) : Nat := v.num 2 g 4 1
/-- The RESUME flag of a group. -/
def RigView.resume (v : RigView) (g : Nat) : Bool := v.num 2 g 5 1 % 2 == 1
/-- The generator sets of a group. -/
def RigView.nsets (v : RigView) (g : Nat) : Nat := v.num 2 g 6 1
/-- The GEN_ID of the writing set. -/
def RigView.writing (v : RigView) (g : Nat) : Nat := v.num 2 g 7 1
/-- The first generator set of a group. -/
def RigView.setFirst (v : RigView) (g : Nat) : Nat := v.num 2 g 8 4
/-- The device in a seat. -/
def RigView.seatDev (v : RigView) (g seat : Nat) : Nat := v.num 2 g (16 + 2 * seat) 2
/-- The GROUPS entry of a GROUP_ID. -/
def RigView.groupOfId (v : RigView) (id : Nat) : Option Nat := (List.range (v.count 2)).find? fun g => v.groupId g == id
/-- The seat of a device in a group. -/
def RigView.seatOf (v : RigView) (g dev : Nat) : Option Nat := (List.range (v.seats g)).find? fun t => v.seatDev g t == dev
/-- The groups in which a device sits. -/
def RigView.groupsOf (v : RigView) (dev : Nat) : List Nat := (List.range (v.count 2)).filter fun g => (v.seatOf g dev).isSome

/-- A placement entry (Table 08-6): GROUPS index, stroke seat, bow seat, B. -/
structure Place where
  group : Nat
  stroke : Nat
  bow : Nat
  log2b : Nat

/-- The placement of a slice. -/
def RigView.place (v : RigView) (slice : Nat) : Place :=
  ⟨v.num 3 slice 0 2, v.num 3 slice 2 1, v.num 3 slice 3 1, v.num 3 slice 4 1⟩

/-- The device that is the stroke of a slice. -/
def RigView.strokeDev (v : RigView) (slice : Nat) : Nat := v.seatDev (v.place slice).group (v.place slice).stroke

/-- The device that is the bow of a slice, none in a group of one seat. -/
def RigView.bowDev (v : RigView) (slice : Nat) : Option Nat :=
  if (v.place slice).bow = 0xFF then none else some (v.seatDev (v.place slice).group (v.place slice).bow)

/-- A generator set (Table 08-7). -/
structure GenSet where
  group : Nat
  genId : Nat
  k : Nat
  m : Nat
  geom : Nat
  rotFirst : Nat
  rows : Nat
  skew : Nat
  g : Bytes

/-- Generator set i. -/
def RigView.genSet (v : RigView) (i : Nat) : GenSet :=
  let b := v.bytes 4 i 0 128
  ⟨fld b 0 4, fld b 4 1, fld b 5 1, fld b 6 1, fld b 7 1, fld b 8 4, fld b 12 2, fld b 14 2, slice b 16 80⟩

/-- The set of a group with a GEN_ID, as its GENSETS index; none where the group has none. -/
def RigView.setOf (v : RigView) (g genId : Nat) : Option Nat :=
  if v.setFirst g = 0xFFFFFFFF then none
  else ((List.range (v.nsets g)).map (· + v.setFirst g)).find? fun i => (v.genSet i).genId == genId

/-- Byte p of a rotation row: the seat of position p (R293). -/
def RigView.rot (v : RigView) (row p : Nat) : Nat := v.num 5 row p 1

/-- Coefficient G[i][j] of a set. -/
def GenSet.coef (x : GenSet) (i j : Nat) : Nat := ((x.g[20 * i + j]?).getD 0).toNat

/-- A product in GF(2^8) with polynomial 0x11D (R172). -/
def gfMul (a b : Nat) : Nat := gfMulPoly 0x1D 8 a b

/-- A byte string scaled by a coefficient. -/
def gfScale (c : Nat) (b : Bytes) : Bytes := b.map fun x => BitVec.ofNat 8 (gfMul c x.toNat)

/-- The sum of units each scaled by its coefficient, all of `n` bytes. -/
def gfSum (n : Nat) (terms : List (Nat × Bytes)) : Bytes :=
  terms.foldl (fun acc t => xorBytes acc (fit (gfScale t.1 t.2) n)) (zeros n)

/-- Parity unit i over the k data units, all of `n` bytes (R172). -/
def parityUnit (x : GenSet) (n i : Nat) (data : List Bytes) : Bytes :=
  gfSum n ((List.range x.k).map fun j => (x.coef i j, (data[j]?).getD (zeros n)))

/-- Binomial coefficients. -/
def choose : Nat → Nat → Nat
  | _, 0 => 1
  | 0, _ + 1 => 0
  | n + 1, k + 1 => choose n k + choose n (k + 1)

/-- The rank of an excluded set in ascending order (R294). -/
def rankFrom : Nat → List Nat → Nat
  | _, [] => 0
  | i, e :: es => choose e (i + 1) + rankFrom (i + 1) es

/-- The excluded set of a pattern: the pattern and the highest parity positions outside it, m in all (R296). -/
def excluded (k m : Nat) (pattern : List Nat) : List Nat :=
  let extra := (((List.range (k + m)).drop k).filter fun p => !(pattern.contains p)).reverse.take (m - pattern.length)
  (List.range (k + m)).filter fun p => pattern.contains p || extra.contains p

/-- The DECODE entry of an excluded set under a generator set (R294). -/
def RigView.decodeIndex (v : RigView) (x : GenSet) (ex : List Nat) : Nat := v.num 6 x.geom 4 4 + rankFrom 0 ex

/-- Data unit d of an excluded set rebuilt from the used units, read by position (R295). -/
def decodeUnit (v : RigView) (x : GenSet) (ex : List Nat) (n d : Nat) (unitAt : Nat → Bytes) : Bytes :=
  let e := v.bytes 7 (v.decodeIndex x ex) 0 80
  let used := (List.range (x.k + x.m)).filter fun p => !(ex.contains p)
  let i := (ex.filter fun p => decide (p < d)).length
  gfSum n ((List.range x.k).map fun j => (((e[20 * i + j]?).getD 0).toNat, unitAt ((used[j]?).getD 0)))

/-! ### Rates, rounds, retries (R297 to R299) -/

/-- Step `st` of a rate table: the limit in Mbit/s (0 none) and the recovery interval in microseconds. A table at or above the count has no
limit and its interval is not stated. -/
def rateStep (s : State) (table st : Nat) : Nat × Nat :=
  let v := activeView s
  if table < v.count 8 then (v.num 8 table (8 * st) 4, v.num 8 table (8 * st + 4) 4) else (0, 0)

/-- The number of rounds of a schedule of the device's POWER profile, and their length in microseconds. -/
def powerRounds (s : State) (sched : Nat) : Nat × Nat :=
  let v := activeView s
  (v.num 9 0 sched 1, v.num 9 0 (4 + 2 * sched) 2)

/-- A round of a schedule lets a LUN start a program or an erase (R298). -/
def roundAllows (s : State) (sched round lun : Nat) : Bool :=
  bitAt ((activeView s).num 9 0 ((if sched = 0 then 64 else 8256) + 128 * round + lun / 8) 1) (lun % 8)

/-- The number of edges at or below a value. -/
def edgesBelow (edges : List Nat) (v : Nat) : Nat := (edges.filter fun e => decide (e ≤ v)).length

/-- The cell of the RETRY profile for a wear, an age in hours and a die temperature (R299). -/
def retryCell (s : State) (wear age : Nat) (temp : Int) : Nat :=
  let v := activeView s
  let w := edgesBelow ((List.range 7).map fun i => v.num 10 0 (4 + 4 * i) 4) wear
  let a := edgesBelow ((List.range 7).map fun i => v.num 10 0 (32 + 4 * i) 4) age
  let t := ((List.range 3).filter fun i => decide (toSigned (v.num 10 0 (60 + i) 1) 8 ≤ temp)).length
  32 * w + 4 * a + t

/-- The steps of a cell, each as the signed offsets of its read levels. -/
def retrySteps (s : State) (cell : Nat) : List Bytes :=
  let v := activeView s
  (List.range (v.num 10 0 (128 + cell) 1)).map fun st => v.bytes 10 0 (384 + 256 * cell + 16 * st) (v.num 10 0 0 1)

/-- The refresh threshold of a program-erase count (Table 08-9). -/
def refreshBits (s : State) (wear : Nat) : Nat :=
  let v := activeView s
  v.num 10 0 (64 + 2 * edgesBelow ((List.range 7).map fun i => v.num 10 0 (4 + 4 * i) 4) wear) 2

/-! ### Loading (R289, R300) -/

/-- A range read line by line, a line that fails reading as zeros (R38); whether one failed. -/
def readLoose : List (Nat × Nat) → State → Nat → State × Bytes × Bool
  | [], s, _ => (s, [], false)
  | (a, n) :: ps, s, rid =>
    let r := fabRead s rid a n
    let t := readLoose ps r.1 rid
    (t.1, r.2.getD (zeros n) ++ t.2.1, r.2.isNone || t.2.2)

/-- The index of the device's hull number among DEVICES. -/
def rigSelf (c : Bytes) : Option Nat :=
  (containerView c).devOfHull Config.hull

/-- The kept generator sets: those of the device's groups, in container order, with their container index. -/
def keptSets (v : RigView) (self : Nat) : List Nat :=
  let ids := (v.groupsOf self).map v.groupId
  (List.range (v.count 4)).filter fun i => ids.contains (v.genSet i).group

/-- The rotation rows of the kept sets, in the order of the sets (R300). -/
def keptRows (v : RigView) (sets : List Nat) : List Nat :=
  (sets.map fun i => (List.range (v.genSet i).rows).map (· + (v.genSet i).rotFirst)).flatten

/-- The geometries the kept sets name, in container order. -/
def keptGeoms (v : RigView) (sets : List Nat) : List Nat :=
  (List.range (v.count 6)).filter fun g => sets.any fun i => (v.genSet i).m != 0 && (v.genSet i).geom == g

/-- The decode entries of the kept geometries. -/
def keptDecode (v : RigView) (geoms : List Nat) : List Nat :=
  (geoms.map fun g => (List.range (v.num 6 g 8 4)).map (· + v.num 6 g 4 4)).flatten

/-- The image index of a kept container index. -/
def newIndex (l : List Nat) (i : Nat) : Nat := (l.findIdx? (· == i)).getD 0

/-- The entries of each table of the image, in kind order, with every change R300 makes. -/
def imageTables (c : Bytes) (self : Nat) : List Bytes :=
  let v := containerView c
  let whole := fun k => v.bytes k 0 0 (rigEntrySize k * v.count k)
  let entry := fun k i => v.bytes k i 0 (rigEntrySize k)
  let sets := keptSets v self
  let rows := keptRows v sets
  let geoms := keptGeoms v sets
  let decs := keptDecode v geoms
  let profile := v.num 1 self 40 1 % 16
  let groups := ((List.range (v.count 2)).map fun g =>
    let e := entry 2 g
    if (v.seatOf g self).isSome then patch e 8 (le 4 (newIndex sets (v.setFirst g))) else patch e 8 (le 4 0xFFFFFFFF)).flatten
  let setsOut := (sets.map fun i =>
    let x := v.genSet i
    let e := patch (entry 4 i) 8 (le 4 (newIndex rows x.rotFirst))
    if x.m = 0 then e else patch e 7 (le 1 (newIndex geoms x.geom))).flatten
  let geomsOut := (geoms.map fun g => patch (entry 6 g) 4 (le 4 (newIndex decs (v.num 6 g 4 4)))).flatten
  [whole 1, groups, whole 3, setsOut, (rows.map (entry 5)).flatten, geomsOut, (decs.map (entry 7)).flatten, whole 8,
   entry 9 profile, entry 10 profile]

/-- The image of the tables, each from a multiple of 64, and the offset of each. -/
def imageLay : List Bytes → Nat → Bytes × List Nat
  | [], _ => ([], [])
  | t :: ts, o =>
    let r := imageLay ts (alignUp (o + t.length) 64)
    (t ++ zeros (alignUp (o + t.length) 64 - (o + t.length)) ++ r.1, o :: r.2)

/-- The condition of code 4 of Table 08-3. -/
def rigDirBad (c : Bytes) : Bool :=
  let d := rigDir c
  let ks := d.map (·.1)
  !((List.range 10).all fun k => ks.count (k + 1) == 1) || ks.any (fun k => decide (k > 10)) ||
    d.any fun e => e.1 != 0 &&
      (e.2.2.1 % 64 != 0 || e.2.2.2 != e.2.1 * rigEntrySize e.1 || decide (e.2.2.1 + e.2.2.2 > c.length) || !(rigCountOk e.1 e.2.1))

/-- The compiler's cases of R314 that the loader would follow out of a table: a PROFILE with no profile, a set, row, geometry or decode
entry named outside its table. -/
def rigBroken (c : Bytes) (self : Nat) : Bool :=
  let v := containerView c
  let p := v.num 1 self 40 1 % 16
  let sets := keptSets v self
  decide (p ≥ v.count 9) || decide (p ≥ v.count 10) ||
    (v.groupsOf self).any (fun g => decide (v.setFirst g + v.nsets g > v.count 4) ||
      (List.range (v.nsets g)).any fun i => (v.genSet (v.setFirst g + i)).group != v.groupId g) ||
    sets.any (fun i => let x := v.genSet i
      decide (x.rotFirst + x.rows > v.count 5) || (x.m != 0 && decide (x.geom ≥ v.count 6))) ||
    (keptGeoms v sets).any (fun g => decide (v.num 6 g 4 4 + v.num 6 g 8 4 > v.count 7) ||
      v.num 6 g 8 4 != choose (v.num 6 g 0 1 + v.num 6 g 1 1) (v.num 6 g 1 1)) ||
    (List.range (v.count 3)).any (fun x => decide ((v.place x).group ≥ v.count 2)) ||
    (List.range (v.count 2)).any fun g => (List.range (v.seats g)).any fun t => decide (v.seatDev g t ≥ v.count 1)

/-- Entries of a list that stand in it twice. -/
def hasTwice (l : List Nat) : Bool := l.eraseDups.length != l.length

/-- Numbers in ascending order; edges may be equal. -/
def ascending : List Nat → Bool
  | a :: b :: l => decide (a ≤ b) && ascending (b :: l)
  | _ => true

/-- Numbers in ascending order with none twice, as those of entries are. -/
def ascendingKeys (l : List Nat) : Bool := ascending l && !(hasTwice l)

/-- Tables or profile edges of a container out of ascending order (R314, third case). The order of the temperatures is that of signed bytes. -/
def rigDisorder (v : RigView) (profile : Nat) : Bool :=
  let edges := fun (o n : Nat) => (List.range 7).map fun i => v.num 10 profile (o + n * i) n
  let temps := (List.range 3).map fun i => (v.num 10 profile (60 + i) 1 + 128) % 256
  !(ascendingKeys ((List.range (v.count 1)).map v.hull)) || !(ascendingKeys ((List.range (v.count 2)).map v.groupId)) ||
    !(ascending (edges 4 4)) || !(ascending (edges 32 4)) || !(ascending temps)

/-- The K, M and G of a generator set as one number (R293). -/
def GenSet.shape (x : GenSet) : Nat := leNat (le 1 x.k ++ le 1 x.m ++ x.g)

/-- Two generator sets of one K, M and G name different geometries (R314, fourth case). -/
def rigGeomsDiffer (v : RigView) : Bool :=
  let sets := ((List.range (v.count 4)).map fun i => let x := v.genSet i; (x.shape, x.geom)).eraseDups
  hasTwice (sets.map Prod.fst)

/-- The listed undefined result that a container brings a device (R219, R258, R314): a rotation row that names a seat twice or a seat outside the group; a
slice whose stroke is its bow or whose seats lie outside its group; more than 8 geometries; more than 4 bows of its stroke slices in one group. -/
def rigMisuse (c : Bytes) (self : Nat) : Option Fault :=
  let v := containerView c
  let sets := keptSets v self
  let seatsOf := fun i => v.seats ((v.groupOfId (v.genSet i).group).getD 0)
  let row := fun i r => (List.range ((v.genSet i).k + (v.genSet i).m)).map fun p => v.rot ((v.genSet i).rotFirst + r) p
  let rowBad := fun i r => hasTwice (row i r) || (row i r).any fun t => decide (t ≥ seatsOf i)
  let geoms := (sets.map fun i => let x := v.genSet i
    leNat (le 1 x.k ++ le 1 x.m ++ ((List.range x.m).map fun a => (List.range x.k).map fun b => BitVec.ofNat 8 (x.coef a b)).flatten)).eraseDups
  let bows := fun (g : Nat) => (((List.range (v.count 3)).filter fun x => (v.place x).group == g && v.strokeDev x == self).map v.bowDev).eraseDups
  if sets.any fun i => (List.range (v.genSet i).rows).any (rowBad i) then some (.undefined219 1)
  else if (List.range (v.count 3)).any fun x => let p := v.place x
      decide (p.stroke ≥ v.seats p.group) || (if p.bow = 0xFF then v.seats p.group != 1 else p.bow == p.stroke || decide (p.bow ≥ v.seats p.group)) then some (.undefined219 2)
  else if geoms.length > 8 then some (.undefined219 3)
  else if (v.groupsOf self).any fun g => decide ((bows g).length > 4) then some (.undefined258 6)
  else if rigDisorder v (v.num 1 self 40 1 % 16) then some (.undefined314 3)
  else if rigGeomsDiffer v then some (.undefined314 4)
  else none

/-- The first check of Table 08-3 that fails, 0 where none does. -/
def rigCheck (s : State) (c : Bytes) (srcLen : Nat) (failed : Bool) : Nat :=
  let len := fld c 8 4
  if fld c 0 4 ≠ 0x33525A41 ∨ fld c 4 1 ≠ 3 then 1
  else if len ≠ srcLen ∨ len > 0x10000000 ∨ len % 64 ≠ 0 then 2
  else if crc32c (patch (c.take len) 52 (zeros 4)) ≠ fld c 52 4 then 3
  else if rigDirBad (c.take len) = true then 4
  else if fld c 16 8 = 0 ∨ fld c 16 8 ≤ getF s F.RIG_EPOCH_EPOCH then 5
  else
    match rigSelf c with
    | none => 6
    | some self => if (imageLay (imageTables c self) 0).1.length > 0x1000000 then 7 else if failed then 8 else 0

/-- A container kept on NAND under its epoch (R307). -/
def keepContainer (s : State) (epoch : Nat) (c : Bytes) : State :=
  { s with rig := { s.rig with kept := (epoch, c) :: s.rig.kept.filter fun k => k.1 != epoch } }

/-- Staging ends (R302): STAGED with the image at RIG_IMAGE_ADDR, or ERROR with the code; source 136 rises. -/
def rigStageEnd (s : State) : Res :=
  let srcLen := getF s F.RIG_SRC_LEN_BYTES
  let a := getF s F.RIG_SRC_ADDR_ADDR
  let n := max 256 (min srcLen 0x10000000)
  let r := readLoose (linePieces (n / 256 + 2) a n) s 10
  let c := r.2.1
  let code := rigCheck s c srcLen r.2.2
  let s := setF r.1 F.RIG_STATUS_BUSY 0
  if code ≠ 0 then
    .next (pulse (logCrew (setF (setF s F.RIG_STATUS_ERROR 1) F.RIG_STATUS_ERRCODE code) EV.rigRejected) 136)
  else
    let self := (rigSelf c).getD 0
    if rigBroken c self then .fault (.undefined314 2)
    else
      match rigMisuse c self with
      | some f => .fault f
      | none =>
      let tables := imageTables c self
      let img := imageLay tables 0
      let counts := (List.range 10).map fun k => ((tables[k]?).getD []).length / rigEntrySize (k + 1)
      let s := (fabWrite s 10 (getF s F.RIG_IMAGE_ADDR_ADDR) img.1).1
      let s := { s with rig := { s.rig with staged := some ⟨img.2, counts, img.1.length, self⟩ } }
      let s := keepContainer s (fld c 16 8) (c.take (fld c 8 4))
      let s := setF (setF (setF s F.RIG_STATUS_STAGED 1) F.RIG_STAGED_EPOCH_EPOCH (fld c 16 8)) F.RIG_STAGED_CRC_CRC (fld c 52 4)
      .next (pulse (logCrew s EV.rigStaged) 136)

/-- RIG_CTRL.STAGE (R302): the loader starts. While it works or a swap runs, the write starts nothing more (log entry 20). -/
def execRigCtrlStage (core : Nat) (s : State) : Res :=
  coreStore s core F.RIG_CTRL_STAGE.addr fun s =>
    if flag s F.RIG_STATUS_BUSY || flag s F.RIG_STATUS_SWAPPING then .next s
    else if getF s F.RIG_SRC_ADDR_ADDR % 64 ≠ 0 ∨ getF s F.RIG_IMAGE_ADDR_ADDR % 65536 ≠ 0 then .fault (.undefined314 5)
    else whenFenced s [(getF s F.RIG_SRC_ADDR_ADDR, getF s F.RIG_SRC_LEN_BYTES)] (.next (setF s F.RIG_STATUS_BUSY 1))

/-- The staged image begins to be copied into rig memory (R305). -/
def rigActivate (s : State) : State :=
  if flag s F.RIG_STATUS_SWAPPING then s
  else if !(flag s F.RIG_STATUS_STAGED) || flag s F.RIG_STATUS_BUSY then
    setF (setF s F.RIG_STATUS_ERROR 1) F.RIG_STATUS_ERRCODE 9
  else setF s F.RIG_STATUS_SWAPPING 1

/-- RIG_CTRL.ACTIVATE (R305). -/
def execRigCtrlActivate (core : Nat) (s : State) : Res :=
  coreStore s core F.RIG_CTRL_ACTIVATE.addr fun s => .next (rigActivate s)

/-- The staged image dropped (R304). -/
def rigDiscard (s : State) : State :=
  if flag s F.RIG_STATUS_SWAPPING then s
  else setF (setF { s with rig := { s.rig with staged := none } } F.RIG_STATUS_STAGED 0) F.RIG_STAGED_EPOCH_EPOCH 0

/-- The directory registers of the active image set. -/
def rigTables (offs cnts : List Nat) : List Nat → State → State
  | [], s => s
  | k :: ks, s =>
    rigTables offs cnts ks
      (setF (setF s (F.RIG_TBL_OFF_OFFSET k) ((offs[k]?).getD 0)) (F.RIG_TBL_CNT_COUNT k) ((cnts[k]?).getD 0))

/-- The swap ends (R305, R306): rig memory shows the image; epoch, CRC and index change together; crew firmware records the active epoch (R307). -/
def rigSwapEnd (s : State) (st : RigStaged) : State :=
  let r := readLoose (linePieces (st.length / 256 + 2) (getF s F.RIG_IMAGE_ADDR_ADDR) st.length) s 10
  let s := memWrite r.1 rigBase (fit r.2.1 0x1000000)
  let s := rigTables st.offsets st.counts (List.range 10) s
  let s := setF (setF (setF s F.RIG_EPOCH_EPOCH (getF s F.RIG_STAGED_EPOCH_EPOCH)) F.RIG_CRC_CRC (getF s F.RIG_STAGED_CRC_CRC))
    F.RIG_SELF_INDEX st.self
  let s := setF (setF (setF s F.RIG_STATUS_SWAPPING 0) F.RIG_STATUS_STAGED 0) F.RIG_STAGED_EPOCH_EPOCH 0
  let s := setF { s with rig := { s.rig with staged := none, newSchedule := true, active := getF s F.RIG_EPOCH_EPOCH } } F.EC_STATUS_HOLD 0
  pulse (logCrew s EV.rigActivated) 137

end Sys2Proof.Machine
end

