-- ==== Sys2Proof/Machine/Vault.lean ====
section
/-! DEFINITION. The vault on NAND (R240, R241): the block sets that the vault map names, the pages that a dump programs there, and how they read. -/

namespace Sys2Proof.Machine

/-- The block set that an entry of the vault map names; ROW is taken as the block number (log entry 23). -/
def vmapBsn (s : State) (i : Nat) : Nat :=
  512 * (32 * getF s (F.PJ_VMAP_CHANNEL i) + 4 * getF s (F.PJ_VMAP_CE i) + getF s (F.PJ_VMAP_LUN i)) + getF s (F.PJ_VMAP_ROW i)

/-- The block sets named in PJ_VMAP (R318). -/
def vaultBsns (s : State) : List Nat := ((List.range 512).filter fun i => flag s (F.PJ_VMAP_VALID i)).map (vmapBsn s)

/-- An image is complete: its trailers are programmed and none of its block sets has been erased or written since (R241). -/
def VaultImage.complete (i : VaultImage) : Bool := i.ended && i.gone.isEmpty

/-- The data pages of an image on each LUN (R240). -/
def VaultImage.pages (i : VaultImage) : Nat := 64 * i.units

/-- The vault header page of a LUN (Table 06-12). -/
def vaultHeader (i : VaultImage) (lun : Nat) : Bytes :=
  let b := le 4 0x33565A41 ++ [3] ++ le 1 i.vset ++ le 2 lun ++ le 8 Config.hull ++ le 8 i.seq ++ le 4 i.cycles ++ le 4 i.opsec ++ le 4 i.units ++
    le 4 i.pages ++ zeros 20
  fit (b ++ le 4 (crc32c b)) 16384

/-- Data page 1 + `n` of a LUN: page 256 n + LUN of the journal under the device index key (R240). -/
def vaultData (i : VaultImage) (lun n : Nat) : Bytes :=
  let j := 256 * n + lun
  let a := dramBase + 16384 * j
  xtsUnit true (fit (Config.deriveKey 1 Config.deviceSecret) 64) (i.seq * 2 ^ 64 + j) (memRun (i.cells.dropWhile fun c => decide (c.1 < a)) a 16384)

/-- The vault trailer page of a LUN (Table 06-13). -/
def vaultTrailer (i : VaultImage) (lun : Nat) : Bytes :=
  let b := le 4 0x33545A41 ++ le 4 i.pages ++ le 8 i.seq ++ zeros 48 ++ ((List.range i.pages).map fun n => le 4 (crc32c (vaultData i lun n))).flatten
  fit (b ++ le 4 (crc32c b)) 16384

/-- Page `p` of a LUN's vault block set: header, data, trailer, zero bytes. -/
def vaultPage (i : VaultImage) (lun p : Nat) : Bytes :=
  if p = 0 then vaultHeader i lun else if p ≤ i.pages then vaultData i lun (p - 1) else if p = i.pages + 1 then vaultTrailer i lun else zeros 16384

/-- The SLC pages that a dump has programmed in each block set, four pages of the vault on each: all once it has ended, the first alone where it was cut short
(log entry 71). -/
def vaultStrides (i : VaultImage) : Nat := if i.ended then (i.pages + 5) / 4 else 1

/-- A stride of a vault block set: its four pages, with spare bytes that the spec does not give. -/
def vaultStride (i : VaultImage) (bsn page : Nat) : Stride :=
  ⟨bsn, page, (List.range 4).map fun q => (vaultPage i (i.bsns.idxOf bsn) (4 * page + q), (List.range 64).map Config.vaultSpare)⟩

/-- The image that lies in a block set. -/
def vaultIn (s : State) (bsn : Nat) : Option VaultImage := s.pj.vault.find? fun i => i.bsns.contains bsn && !(i.gone.contains bsn)

/-- What the vault holds of a block set is no longer there. -/
def vaultGone (s : State) (bsn : Nat) : State :=
  if (vaultIn s bsn).isNone then s
  else { s with pj := { s.pj with vault := s.pj.vault.map fun (i : VaultImage) => if i.bsns.contains bsn then { i with gone := bsn :: i.gone } else i } }

end Sys2Proof.Machine
end

