-- ==== Sys2Proof/Machine/Flash.lean ====
section
/-! DEFINITION. The flash channels (10): starting them, their operations on LUNs of the NAND, the power schedule, timeouts. -/

namespace Sys2Proof.Machine

/-! ### NAND and LUNs (R317, R365) -/

/-- The LUN index of a channel and LUN slot (R298). -/
def lunIndex (n slot : Nat) : Nat := 32 * n + slot

/-- The stride at a page of a block set; none while it is erased. A vault dump's strides are read from its image. -/
def strideAt (s : State) (bsn page : Nat) : Option Stride :=
  match s.fc.nand.find? fun x => x.bsn == bsn && x.page == page with
  | some x => some x
  | none => (vaultIn s bsn).bind fun i => if page < vaultStrides i then some (vaultStride i bsn page) else none

/-- The strides programmed in a block set. -/
def blockStrides (s : State) (bsn : Nat) : List Stride :=
  s.fc.nand.filter (fun x => x.bsn == bsn) ++ ((vaultIn s bsn).map fun i => (List.range (vaultStrides i)).map (vaultStride i bsn)).getD []

/-- A stride programmed. -/
def nandPut (s : State) (x : Stride) : State :=
  let s := vaultGone s x.bsn
  { s with fc := { s.fc with nand := x :: s.fc.nand.filter fun y => !(y.bsn == x.bsn && y.page == x.page) } }

/-- A block set erased. -/
def nandErase (s : State) (bsn : Nat) : State :=
  let s := vaultGone s bsn
  { s with fc := { s.fc with nand := s.fc.nand.filter fun y => y.bsn != bsn } }

/-- Four pages whose content nothing defines. -/
def freePlanes : Nat → State → List (Bytes × Bytes) × State
  | 0, s => ([], s)
  | n + 1, s =>
    let d := freshBytes s 16384
    let h := freshBytes d.2 64
    let r := freePlanes n h.2
    ((d.1, h.1) :: r.1, r.2)

/-- A stride left in no defined state (R385). -/
def nandSpoil (s : State) (bsn page : Nat) : State :=
  let r := freePlanes 4 s
  nandPut r.2 ⟨bsn, page, r.1⟩

/-- The strides of a block set left in no defined state by an erase that failed. -/
def spoilAll : List Stride → State → State
  | [], s => s
  | x :: xs, s => spoilAll xs (nandSpoil s x.bsn x.page)

/-- A LUN takes operations: present, neither OFFLINE nor DEAD. -/
def lunUp (s : State) (n slot : Nat) : Bool :=
  flag s (F.FC_LUN_STATUS_PRESENT n slot) && !(flag s (F.FC_LUN_CTRL_OFFLINE n slot)) && !(flag s (F.FC_LUN_STATUS_DEAD n slot))

/-- The operation on a LUN. -/
def lunOp (s : State) (n slot : Nat) : Option FcOp := s.fc.ops.find? fun o => o.chan == n && o.slot == slot

/-- Nothing runs or waits on a channel (FC_STATUS.IDLE). -/
def fcIdle (s : State) (n : Nat) : Bool :=
  !(s.fc.ops.any fun o => o.chan == n) && !(s.wq.taken.any fun t => !t.ended && fcBinding s t.queue == some n)

/-- IDLE shown as it is. -/
def showIdle (s : State) (n : Nat) : State := setF s (F.FC_STATUS_IDLE n) (b2n (fcIdle s n))

/-- The channel has started, runs and is not stopped, and no dump has taken the channels over (R369, R384). -/
def fcRuns (s : State) (n : Nat) : Bool :=
  flag s (F.FC_STATUS_READY n) && flag s (F.FC_CTRL_RUN n) && !(s.fc.stopped.contains n) && !(flag s F.PJ_STATUS_DUMPING)

/-- The operation of a LUN removed and BUSY cleared. -/
def lunFree (s : State) (n slot : Nat) : State :=
  let s := { s with fc := { s.fc with ops := s.fc.ops.filter fun o => !(o.chan == n && o.slot == slot) } }
  showIdle (setF s (F.FC_LUN_STATUS_BUSY n slot) 0) n

/-! ### Entries (Tables 10-3 to 10-6) -/

/-- The completion of a flash entry: COOKIE, FCSTATUS, MAXBITS, PLANE_INFO, and the temperature of its LUN (Table 10-5). -/
def fcResultAt (s : State) (n slot : Nat) (b : Bytes) (status maxbits planes : Nat) : Bytes :=
  slice b 32 8 ++ le 1 status ++ le 1 maxbits ++ le 1 planes ++ le 1 (getF s (F.FC_LUN_TEMP_TEMP n slot))

/-- Step 1 of Table 10-6 for the RETRY field. -/
def fcRetryBad (s : State) (r : Nat) : Bool :=
  r != 0xFFFF && (decide (r / 4096 ≠ 0) || !(rigActive s) || decide (r % 16 ≥ (retrySteps s (r / 16 % 256)).length))

/-- Step 1 of Table 10-6: a field breaks Table 10-3 or 10-4. -/
def fcFieldBad (s : State) (b : Bytes) : Bool :=
  let op := fld b 0 1
  let planes := fld b 9 1 % 16
  let reserved := decide (fld b 8 1 ≥ 32) || decide (fld b 9 1 ≥ 32) || decide (fld b 41 1 ≥ 4) || !(allZero (slice b 42 22))
  let bufs := decide (fld b 16 8 % 64 ≠ 0) || decide (fld b 24 8 % 64 ≠ 0)
  reserved ||
    (if op = 0x40 then planes == 0 || fcRetryBad s (fld b 10 2) || bufs
     else if op = 0x43 then planes == 0 || fcRetryBad s (fld b 10 2) || decide (fld b 24 8 % 64 ≠ 0)
     else if op = 0x41 then planes != 15 || bufs
     else if op = 0x42 then planes != 15 || fld b 14 2 != 0
     else false)

/-- The buffers of an entry, as address and length. -/
def fcBuffers (b : Bytes) : List (Nat × Nat) :=
  let op := fld b 0 1
  let ps := if op = 0x41 then [0, 1, 2, 3] else bitList (fld b 9 1) 4
  let data := ps.map fun q => (fld b 16 8 + 16384 * q, 16384)
  let hdrs := ps.map fun q => (fld b 24 8 + 64 * q, 64)
  if op = 0x40 ∨ op = 0x41 then data ++ hdrs
  else if op = 0x43 then hdrs
  else if op = 0x44 then [(fld b 16 8, 4)]
  else []

/-- A buffer of an entry overlaps another of its own or one of an operation under way (R389). -/
def fcOverlap (s : State) (b : Bytes) : Bool :=
  let mine := fcBuffers b
  let others := (s.fc.ops.map fun o => fcBuffers o.entry).flatten
  mine.any (fun x => others.any fun y => overlaps x.1 x.2 y.1 y.2) ||
    (List.range mine.length).any fun i => (List.range i).any fun j =>
      match mine[i]?, mine[j]? with
      | some x, some y => overlaps x.1 x.2 y.1 y.2
      | _, _ => false

/-- A fabric failure of a channel latched, the first only (Table 10-7). -/
def fcLatch (s : State) (n slot : Nat) (wr : Bool) (a : Nat) : State :=
  if flag s (F.FC_ERR_INFO_VALID n) then s
  else setF (setF (setF (setF s (F.FC_ERR_INFO_DIR n) (b2n wr)) (F.FC_ERR_INFO_SLOT n) slot) (F.FC_ERR_ADDR_ADDR n) a)
    (F.FC_ERR_INFO_VALID n) 1

/-- The buffers of a program fetched into the channel (R377). -/
def fcFetch (n slot : Nat) : List (Nat × Nat) → State → State × Option (List Bytes)
  | [], s => (s, some [])
  | (a, len) :: r, s =>
    match fabRead s 11 a len with
    | (s, none) => (fcLatch s n slot false a, none)
    | (s, some b) =>
      match fcFetch n slot r s with
      | (s, none) => (s, none)
      | (s, some c) => (s, some (b :: c))

/-- Buffers written; false where an access failed, which is latched. -/
def fcStore (n slot : Nat) : List (Nat × Bytes) → State → State × Bool
  | [], s => (s, true)
  | (a, b) :: r, s =>
    match fabWrite s 11 a b with
    | (s, false) => (fcLatch s n slot true a, false)
    | (s, true) => fcStore n slot r s

/-- Destination buffers that hold no defined content (R377). -/
def fcSpoil : List (Nat × Nat) → State → State
  | [], s => s
  | (a, n) :: r, s =>
    let p := freshBytes s n
    fcSpoil r (fabWrite p.2 11 a p.1).1

/-- The block set of an entry on its LUN. -/
def fcBsn (n : Nat) (b : Bytes) : Nat := 512 * lunIndex n (fld b 8 1) + fld b 12 2

/-- A LUN is named in PJ_VMAP while DUMP_ARM is 1 (R389). -/
def vaultLun (s : State) (n slot : Nat) : Bool :=
  flag s F.PJ_CTRL_DUMP_ARM && (List.range 512).any fun i =>
    flag s (F.PJ_VMAP_VALID i) && getF s (F.PJ_VMAP_CHANNEL i) == n && getF s (F.PJ_VMAP_CE i) * 4 + getF s (F.PJ_VMAP_LUN i) == slot

/-- The ONFI command an operation begins with (Table 10-1). -/
def onfiCode (b : Bytes) : Nat :=
  let op := fld b 0 1
  if op = 0x41 then 0x80
  else if op = 0x42 then 0x60
  else if op = 0x44 then
    (if bitAt (fld b 41 1) 1 then (if bitAt (fld b 41 1) 0 then 0xD5 else 0xD4) else (if bitAt (fld b 41 1) 0 then 0xEF else 0xEE))
  else if op = 0x45 then 0xFA
  else 0x00

/-- An operation issued to its LUN: its wait for a round counted, the LUN busy. -/
def fcIssue (s : State) (n : Nat) (t : Taken) (data : List (Bytes × Bytes)) : State :=
  let slot := fld t.bytes 8 1
  let s := match s.fc.waits.find? fun w => w.1 == t.queue && w.2.1 == t.index with
    | some w => countF s (F.FC_CNT_SCHED_WAIT_MICROS n) ((s.now - w.2.2) / us)
    | none => s
  let op : FcOp := ⟨n, slot, t.queue, t.index, fld t.bytes 0 1, s.now, t.bytes, data⟩
  let s := { s with fc := { s.fc with ops := s.fc.ops ++ [op], waits := s.fc.waits.filter fun w => !(w.1 == t.queue && w.2.1 == t.index) } }
  let s := setF (setF s (F.FC_LUN_STATUS_BUSY n slot) 1) (F.FC_STATUS_IDLE n) 0
  emit s (.onfi n slot (onfiCode t.bytes) (fld t.bytes 12 2 * 65536 + fld t.bytes 14 2))

/-- The entry stands at the head of its LUN's order and the LUN is free (R381). -/
def fcHead (s : State) (n : Nat) (t : Taken) : Bool :=
  (lunOp s n (fld t.bytes 8 1)).isNone &&
    (s.wq.taken.find? fun u => u.queue == t.queue && !u.ended && u.result.isNone && fld u.bytes 8 1 == fld t.bytes 8 1).map Taken.index
      == some t.index

/-- The round in force lets a LUN start a program or an erase (R382); with no rig active, one at a time on the channel (R383). -/
def fcRoundOpen (s : State) (n slot : Nat) : Bool :=
  if rigActive s then roundAllows s (getF s (F.FC_ROUND_SCHED n)) (getF s (F.FC_ROUND_ROUND n)) (lunIndex n slot)
  else !(s.fc.ops.any fun o => o.chan == n && (o.op == 0x41 || o.op == 0x42))

/-- An entry waits for its round from now on. -/
def fcWait (s : State) (t : Taken) : State :=
  if s.fc.waits.any fun w => w.1 == t.queue && w.2.1 == t.index then s
  else { s with fc := { s.fc with waits := s.fc.waits ++ [(t.queue, t.index, s.now)] } }

/-- An entry ends without a NAND operation. -/
def fcEndAt (s : State) (n : Nat) (t : Taken) (status : Nat) : State :=
  let s := if status = 3 then countF s (F.FC_CNT_REFUSED_COUNT n) 1 else s
  showIdle (entryEnd s t (fcResultAt s n (fld t.bytes 8 1) t.bytes status 0 0) true) n

/-- An entry considered by its channel: steps 1 and 2 of Table 10-6, then `start` once it is at the head of its LUN's order. -/
def fcStart (queue index op : Nat) (s : State) (start : State → Nat → Taken → Res) : Res :=
  match openAt s queue index op, fcBinding s queue with
  | some t, some n =>
    if ((List.range 32).filter fun m => bindsAny s (F.FC_QBIND_VALID m) (F.FC_QBIND_QUEUE m) queue).length > 1 then .fault (.undefined389 5)
    else if !(fcRuns s n) then .next s
    else if fcFieldBad s t.bytes then .next (fcEndAt s n t 7)
    else if !(lunUp s n (fld t.bytes 8 1)) then .next (fcEndAt s n t 4)
    else if !(fcHead s n t) then .next s
    else if fcOverlap s t.bytes then .fault (.undefined389 2)
    else start s n t
  | _, _ => .next s

/-- The offsets of a read applied to its LUN (R379). -/
def fcApply (s : State) (n : Nat) (t : Taken) : State := setF s (F.FC_LUN_STATUS_APPLIED n (fld t.bytes 8 1)) (fld t.bytes 10 2)

/-- FC_READ (R374, R379). -/
def execFcRead (queue index : Nat) (s : State) : Res := whileCore s fun s =>
  fcStart queue index 0x40 s fun s n t => .next (fcIssue (fcApply s n t) n t [])

/-- FC_READ_HEADER (R374). -/
def execFcReadHeader (queue index : Nat) (s : State) : Res := whileCore s fun s =>
  fcStart queue index 0x43 s fun s n t => .next (fcIssue (fcApply s n t) n t [])

/-- The block-table STATE of a block set, read through the staging cache (R376). -/
def fcBlockState (s : State) (n slot bsn : Nat) : State × Option Nat :=
  let a := getF s (F.FC_BT_BASE_ADDR n) * 4096 + 32 * bsn
  match fabRead s 11 a 1 with
  | (s, none) => (fcLatch s n slot false a, none)
  | (s, some b) => (s, some (leNat b))

/-- What a program and an erase share: the round, then step 3 of Table 10-6 and the block-table read. -/
def fcGated (s : State) (n : Nat) (t : Taken) (go : State → Nat → Option Nat → Res) : Res :=
  let slot := fld t.bytes 8 1
  if !(fcRoundOpen s n slot) then .next (fcWait s t)
  else if fld t.bytes 12 2 > 511 then .next (fcEndAt s n t 3)
  else
    match fcBlockState s n slot (fcBsn n t.bytes) with
    | (s, none) => .next (fcEndAt s n t 6)
    | (s, some st) => if st = 0 ∨ st = 5 then .next (fcEndAt s n t 3) else go s slot (some st)

/-- The block set that an entry of the fallback map names (R565). -/
def fallbackBsn (e : Nat) : Nat := 512 * lunIndex (bits e 35 5) (4 * bits e 32 3 + bits e 30 2) + bits e 0 24

/-- A block set is one of the recorded fallback copies, which crew firmware may neither write nor erase (R571). -/
def fallbackHeld (s : State) (bsn : Nat) : Bool := s.cox.fallback.any fun m => m.entries.any fun e => fallbackBsn e == bsn

/-- FC_PROGRAM (R376, R377): a stride into the next page of an OPEN block set, or of one held as VAULT. -/
def execFcProgram (queue index : Nat) (s : State) : Res := whileCore s fun s =>
  fcStart queue index 0x41 s fun s n t =>
    fcGated s n t fun s slot st =>
      let bsn := fcBsn n t.bytes
      match fcFetch n slot (fcBuffers t.bytes) s with
      | (s, none) => .next (fcEndAt s n t 6)
      | (s, some bs) =>
        if fallbackHeld s bsn then .fault (.undefined571 2)
        else if (st ≠ some 2 ∧ st ≠ some 6) ∨ fld t.bytes 14 2 ≠ (blockStrides s bsn).length then .fault (.undefined361 3)
        else .next (fcIssue s n t (List.zip (bs.take 4) (bs.drop 4)))

/-- FC_ERASE (R376). -/
def execFcErase (queue index : Nat) (s : State) : Res := whileCore s fun s =>
  fcStart queue index 0x42 s fun s n t => fcGated s n t fun s _ _ =>
    if fallbackHeld s (fcBsn n t.bytes) then .fault (.undefined571 2) else .next (fcIssue s n t [])

/-- Feature addresses that ONFI gives to the data interface, timing mode and drive strength (PRESUMED, log entry 22). -/
def fixedFeatures : List Nat := [0x01, 0x02, 0x10]

/-- FC_FEATURE (R374): Get or Set Features of a target or a LUN. -/
def execFcFeature (queue index : Nat) (s : State) : Res := whileCore s fun s =>
  fcStart queue index 0x44 s fun s n t =>
    if fixedFeatures.contains (fld t.bytes 40 1) then .fault (.undefined389 3)
    else if bitAt (fld t.bytes 41 1) 0 then
      match fcFetch n (fld t.bytes 8 1) [(fld t.bytes 16 8, 4)] s with
      | (s, none) => .next (fcEndAt s n t 6)
      | (s, some bs) => .next (fcIssue s n t (bs.map fun b => (b, [])))
    else .next (fcIssue s n t [])

/-- FC_RESET_LUN (R374). -/
def execFcResetLun (queue index : Nat) (s : State) : Res := whileCore s fun s =>
  fcStart queue index 0x45 s fun s n t =>
    if vaultLun s n (fld t.bytes 8 1) then .fault (.undefined389 4) else .next (fcIssue s n t [])

/-! ### Ends of operations (R375, R378) -/

/-- A read's planes: what each gives, by whether its codewords decode; whether it is erased; whether it failed. -/
def fcReadPlane (s : State) (bsn page bad q : Nat) : State × Bytes × Bytes × Bool × Bool :=
  match strideAt s bsn page with
  | none => (s, erased 16384, zeros 64, true, false)
  | some x =>
    if bitAt bad q then
      let d := freshBytes s 16384
      let h := freshBytes d.2 64
      (h.2, d.1, h.1, false, true)
    else
      let p := (x.planes[q]?).getD ([], [])
      (s, fit p.1 16384, fit p.2 64, false, false)

/-- The planes of a read in order: the buffers to write, the planes erased and failed. -/
def fcReadPlanes (bsn page bad : Nat) (b : Bytes) : List Nat → State → State × List (Nat × Bytes) × Nat × Nat
  | [], s => (s, [], 0, 0)
  | q :: qs, s =>
    let r := fcReadPlane s bsn page bad q
    let t := fcReadPlanes bsn page bad b qs r.1
    let data := if fld b 0 1 = 0x40 then [(fld b 16 8 + 16384 * q, r.2.1)] else []
    (t.1, data ++ (fld b 24 8 + 64 * q, r.2.2.1) :: t.2.1, t.2.2.1 + (if r.2.2.2.1 then 2 ^ q else 0),
     t.2.2.2 + (if r.2.2.2.2 then 2 ^ q else 0))

/-- The bytes a read moves from the NAND: 18,432 for each page read whole; of a header read the spec does not say how many. -/
def fcReadMoved (s : State) (n : Nat) (b : Bytes) : State :=
  if fld b 0 1 = 0x40 then countF s (F.FC_CNT_BYTES_RD_COUNT n) (18432 * popcount (fld b 9 1) 4)
  else let p := fresh s; countF p.2 (F.FC_CNT_BYTES_RD_COUNT n) p.1

/-- A read or header read ends: its buffers are written, then its counts and status. -/
def fcReadEnd (s : State) (o : FcOp) (bits corrected bad badWords : Nat) : State × Nat × Nat × Nat :=
  let b := o.entry
  let n := o.chan
  let r := fcReadPlanes (fcBsn n b) (fld b 14 2) bad b (bitList (fld b 9 1) 4) s
  let w := fcStore n o.slot r.2.1 r.1
  let s := if w.2 then w.1 else fcSpoil (fcBuffers b) w.1
  let s := fcReadMoved (countF (countF s (F.FC_CNT_READ_COUNT n) 1) (F.FC_LUN_CNT_READ_COUNT n o.slot) 1) n b
  let s := if fld b 10 2 ≠ 0xFFFF then countF s (F.FC_CNT_RETRY_COUNT n) 1 else s
  let failed := r.2.2.2
  let s := countF (countF s (F.FC_LUN_CNT_CORR_COUNT n o.slot) corrected) (F.FC_LUN_CNT_UNCORR_COUNT n o.slot) badWords
  let status := if !w.2 then 6 else if failed ≠ 0 then 1 else 0
  let s := if status = 1 then countF s (F.FC_CNT_UNCORR_COUNT n) 1 else s
  (s, status, min 255 bits, failed + 16 * r.2.2.1)

/-- A program or erase ends with FAIL or without (Table 10-6, step 6). -/
def fcWriteEnd (s : State) (o : FcOp) (fail : Bool) : State × Nat × Nat × Nat :=
  let b := o.entry
  let n := o.chan
  let bsn := fcBsn n b
  let s :=
    if o.op = 0x41 then
      let s := countF (countF s (F.FC_CNT_PROG_COUNT n) 1) (F.FC_LUN_CNT_PROG_COUNT n o.slot) 1
      let s := countF s (F.FC_CNT_BYTES_WR_COUNT n) 73728
      let lost := ⟨bsn, fld b 14 2, o.data⟩ :: s.fc.failedProgs
      if fail then nandSpoil { s with fc := { s.fc with failedProgs := lost } } bsn (fld b 14 2) else nandPut s ⟨bsn, fld b 14 2, o.data⟩
    else
      let s := countF (countF s (F.FC_CNT_ERASE_COUNT n) 1) (F.FC_LUN_CNT_ERASE_COUNT n o.slot) 1
      if fail then spoilAll (blockStrides s bsn) s else nandErase s bsn
  (s, if fail then 2 else 0, 0, if fail then 15 else 0)

/-- The key of a feature: its target or its LUN, and its address. -/
def featureKey (o : FcOp) : Nat :=
  let lun := bitAt (fld o.entry 41 1) 1
  ((o.chan * 2 + b2n lun) * 32 + (if lun then o.slot else o.slot / 4)) * 256 + fld o.entry 40 1

/-- A feature operation ends. What a feature reads that nothing set is not stated: free bytes. -/
def fcFeatureEnd (s : State) (o : FcOp) : State × Nat × Nat × Nat :=
  let key := featureKey o
  if bitAt (fld o.entry 41 1) 0 then
    let v := fit (((o.data.head?).map Prod.fst).getD []) 4
    ({ s with fc := { s.fc with features := (key, v) :: s.fc.features.filter fun f => f.1 != key } }, 0, 0, 0)
  else
    let p := match s.fc.features.find? fun f => f.1 == key with
      | some f => (f.2, s)
      | none => freshBytes s 4
    let w := fcStore o.chan o.slot [(fld o.entry 16 8, p.1)] p.2
    (if w.2 then w.1 else fcSpoil [(fld o.entry 16 8, 4)] w.1, if w.2 then 0 else 6, 0, 0)

/-- An operation ends on its LUN and its entry with it (R375): `bits` the highest and `corrected` the total of corrected bits, `bad` the
planes with a codeword that does not decode and `badWords` their number, `fail` the status bit of a program or erase. -/
def fcEnd (s : State) (o : FcOp) (fail bits corrected bad badWords : Nat) : State :=
  let s := lunFree s o.chan o.slot
  if o.op = 0x7F then s
  else
    let r :=
      if o.op = 0x40 ∨ o.op = 0x43 then fcReadEnd s o bits corrected bad badWords
      else if o.op = 0x41 ∨ o.op = 0x42 then fcWriteEnd s o (fail == 1)
      else if o.op = 0x44 then fcFeatureEnd s o
      else (setF s (F.FC_LUN_STATUS_APPLIED o.chan o.slot) 0xFFFF, 0, 0, 0)
    match openAt r.1 o.queue o.index o.op with
    | none => r.1
    | some t =>
      showIdle (entryEnd r.1 t (fcResultAt r.1 o.chan o.slot o.entry r.2.1 r.2.2.1 r.2.2.2) (r.2.1 != 0)) o.chan

/-! ### Timeouts and faults of LUNs and sequencers (R369, R385, R386) -/

/-- The time after which an operation on a LUN times out (R385). -/
def fcLimit (s : State) (o : FcOp) : Nat :=
  if o.op = 0x40 ∨ o.op = 0x43 then getF s (F.FC_TO_READ_MICROS o.chan) * us
  else if o.op = 0x41 then getF s (F.FC_TO_PROG_MICROS o.chan) * us
  else if o.op = 0x42 then getF s (F.FC_TO_ERASE_MICROS o.chan) * us
  else 10 * ms

/-- What an operation cut short leaves on the NAND: a program's stride and an erase's block set in no defined state. -/
def fcCut (s : State) (o : FcOp) : State :=
  if o.op = 0x41 then nandSpoil s (fcBsn o.chan o.entry) (fld o.entry 14 2)
  else if o.op = 0x42 then spoilAll (blockStrides s (fcBsn o.chan o.entry)) s
  else s

/-- An operation ends short with a status (5 or 8). -/
def fcShort (s : State) (o : FcOp) (status : Nat) : State :=
  let s := lunFree (fcCut s o) o.chan o.slot
  match openAt s o.queue o.index o.op with
  | none => s
  | some t => showIdle (entryEnd s t (fcResultAt s o.chan o.slot o.entry status 0 0) true) o.chan

/-- A Reset LUN sent to a LUN, which stays busy until it is ready; it returns to zero offsets (R379). -/
def fcReset (s : State) (n slot : Nat) : State :=
  let s := { s with fc := { s.fc with ops := s.fc.ops ++ [⟨n, slot, 0, 0, 0x7F, s.now, [], []⟩] } }
  let s := setF (setF s (F.FC_LUN_STATUS_BUSY n slot) 1) (F.FC_LUN_STATUS_APPLIED n slot) 0xFFFF
  emit (setF s (F.FC_STATUS_IDLE n) 0) (.onfi n slot 0xFA 0)

/-- A LUN stays busy beyond its timeout (R385); a program that times out is one that failed (R343). -/
def execFcLunTimeout (channel slot : Nat) (s : State) : Res :=
  match lunOp s channel slot with
  | none => .next s
  | some o =>
    if o.op = 0x7F then .next s
    else
      let s := reach s (o.since + fcLimit s o)
      let s := if o.op = 0x41 then
          { s with fc := { s.fc with failedProgs := ⟨fcBsn o.chan o.entry, fld o.entry 14 2, o.data⟩ :: s.fc.failedProgs } }
        else s
      let s := fcReset (fcShort s o 5) channel slot
      .next (logCrew (countF s (F.FC_LUN_CNT_TIMEOUT_COUNT channel slot) 1) EV.flashTimeout)

/-- A LUN is still busy 10 ms after its reset: DEAD (R385). -/
def execLunResetTimeout (channel slot : Nat) (s : State) : Res :=
  match lunOp s channel slot with
  | none => .next s
  | some o =>
    if o.op ≠ 0x7F then .next s
    else
      let s := lunFree (reach s (o.since + 10 * ms)) channel slot
      let s := setF (setF s (F.FC_LUN_STATUS_DEAD channel slot) 1) (F.FC_STATUS_LUN_DEAD channel) 1
      .next (logCrew s EV.lunUnresponsive)

/-- A REVIVE of a LUN (R386): on a DEAD one DEAD clears where the LUN is ready within 10 ms. -/
def lunRevive (s : State) (channel slot ready : Nat) : State :=
  if !(flag s (F.FC_LUN_STATUS_DEAD channel slot)) then s
  else
    let s := emit (setF s (F.FC_LUN_STATUS_APPLIED channel slot) 0xFFFF) (.onfi channel slot 0xFA 0)
    let k := lunIndex channel slot
    if ready = 1 then
      setF { s with fc := { s.fc with reviveFailed := s.fc.reviveFailed.filter (· != k) } } (F.FC_LUN_STATUS_DEAD channel slot) 0
    else
      let s := reach s (s.now + 10 * ms)
      { s with fc := { s.fc with reviveFailed := k :: s.fc.reviveFailed.filter (· != k) } }

/-- FC_LUN_CTRL.REVIVE written with 1 by a crew core (R386). -/
def execFcRevive (core channel slot ready : Nat) (s : State) : Res :=
  coreStore s core (F.FC_LUN_CTRL_REVIVE channel slot).addr fun s => .next (lunRevive s channel slot ready)

/-- Every operation of a channel completed short. -/
def fcShortAll (status : Nat) : List FcOp → State → State
  | [], s => s
  | o :: os, s => fcShortAll status os (fcShort s o status)

/-- A sequencer fault (R369). -/
def execSequencerFault (channel : Nat) (s : State) : Res :=
  if !(domainOn s .flash) || !(flag s (F.FC_CTRL_RUN channel)) then .next s
  else
    let s := fcShortAll 8 (s.fc.ops.filter fun o => o.chan == channel) s
    let s := { s with fc := { s.fc with stopped := channel :: s.fc.stopped.filter (· != channel),
                                        starting := s.fc.starting.filter fun p => p.1 != channel } }
    .next (logCrew (setF s (F.FC_STATUS_SEQ_FAULT channel) 1) EV.flashSeqFault)

/-- The temperature of a LUN read by the microcode while the LUN is not busy (R380). -/
def execLunTempPoll (channel slot valid temp : Nat) (s : State) : Res :=
  if !(flag s (F.FC_LUN_STATUS_PRESENT channel slot)) || (lunOp s channel slot).isSome || s.fc.stopped.contains channel then .next s
  else if valid = 1 then
    .next (setF (setF s (F.FC_LUN_TEMP_TEMP channel slot) temp) (F.FC_LUN_TEMP_VALID channel slot) 1)
  else .next (setF (setF s (F.FC_LUN_TEMP_TEMP channel slot) 0x80) (F.FC_LUN_TEMP_VALID channel slot) 0)

/-! ### Rounds (R306, R382) -/

/-- SCHED and ROUND set on every channel: they share one round counter. -/
def roundSet (sched round : Nat) : List Nat → State → State
  | [], s => s
  | n :: ns, s => roundSet sched round ns (setF (setF s (F.FC_ROUND_SCHED n) sched) (F.FC_ROUND_ROUND n) round)

/-- The schedule of the present power state: 0 in RACE, 1 in PADDLE and from thermal step 1 on (R382, Table 18-6). -/
def wantedSched (s : State) : Nat := if domainOn s .lanes && getF s F.PWR_THERM_STEP == 0 then 0 else 1

/-- The shared round counter moves on: to the next round, or to round 0 of the schedule that a change of power state or a rig swap puts
in force. -/
def execFcRoundTick (s : State) : Res :=
  if !(domainOn s .flash) || !(rigActive s) then .next s
  else
    let sched := getF s (F.FC_ROUND_SCHED 0)
    let s := reach s (s.fc.roundAt + (powerRounds s sched).2 * us)
    let round := getF s (F.FC_ROUND_ROUND 0)
    let s := { s with fc := { s.fc with roundAt := s.now } }
    let all := List.range 32
    if s.rig.newSchedule || sched != wantedSched s then
      .next (roundSet (wantedSched s) 0 all { s with rig := { s.rig with newSchedule := false } })
    else .next (roundSet sched (if round + 1 < (powerRounds s sched).1 then round + 1 else 0) all s)

/-! ### Starting (R364 to R369) -/

/-- The section of a kind in an image bundle: its VERSION and bytes (Table 19-4). -/
def bundleSection (img : Bytes) (kind : Nat) : Option (Nat × Bytes) :=
  ((List.range (fld img 6 1)).find? fun i => fld img (64 + 64 * i) 1 == kind).map fun i =>
    let o := 64 + 64 * i
    (fld img (o + 4) 4, slice img (fld img (o + 8) 4) (fld img (o + 12) 4))

/-- The window of a channel (R370). -/
def fcWindow (n : Nat) : Nat := 0x0108000000 + 0x100000 * n

/-- The verified microcode loaded into a channel, RUN set, and its start begun (R364, R368). -/
def fcLoad (s : State) (n : Nat) : State :=
  let m := (bundleSection s.cox.image 3).getD (0, [])
  let s := memWrite s (fcWindow n + 0x80000) (fit m.2 0x4000)
  let s := setF (setF (setF s (F.FC_SEQ_VER_VERSION n) m.1) (F.FC_SEQ_CRC_CRC n) (crc32c (fit m.2 0x4000))) (F.FC_CTRL_RUN n) 1
  let s := setF s (F.FC_STATUS_READY n) 0
  { s with fc := { s.fc with stopped := s.fc.stopped.filter (· != n), starting := (n, s.now) :: s.fc.starting.filter fun p => p.1 != n } }

/-- Several channels loaded. -/
def fcLoadAll : List Nat → State → State
  | [], s => s
  | n :: ns, s => fcLoadAll ns (fcLoad s n)

/-- The FLASH domain has powered up: FLASH_PWR_EN rises, every channel is loaded through the broadcast window and identifies its targets. -/
def execChannelStart (s : State) : Res :=
  if !(domainOn s .flash) || !s.cox.verified then .next s
  else .next (fcLoadAll (List.range 32) { s with pins := { s.pins with flashPwrEn := true } })

/-- A target as its identification leaves it: the parameter page that passed its CRC ([] where the target is not noted), the highest
NV-LPDDR4 rate it reports in MT/s (0 none), and whether its training completed. -/
abbrev FcTarget := Bytes × Nat × Nat

/-- A target meets R365 and Table 10-1: rate, page size, spare bytes, four planes. Offsets are those of the ONFI parameter page (PRESUMED, log
entry 22). -/
def targetMeets (t : FcTarget) : Bool :=
  !t.1.isEmpty && decide (t.2.1 ≥ 800) && fld t.1 80 4 == 16384 && decide (fld t.1 84 2 ≥ 2048) && fld t.1 113 1 % 16 == 2

/-- The target is present. -/
def targetPresent (t : FcTarget) : Bool := targetMeets t && t.2.2 == 1

/-- The LUN registers of a slot after identification. -/
def lunIdentify (s : State) (n slot : Nat) (t : FcTarget) : State :=
  let there := targetPresent t && decide (slot % 4 < min 4 (fld t.1 100 1))
  let put := fun (s : State) (f : Fld) (v : Nat) => setF s f (if there then v else 0)
  let planes := 2 ^ (fld t.1 113 1 % 16)
  let s := put s (F.FC_LUN_STATUS_PRESENT n slot) 1
  let s := setF (setF s (F.FC_LUN_STATUS_DEAD n slot) 0) (F.FC_LUN_STATUS_APPLIED n slot) 0xFFFF
  let s := put (put (put s (F.FC_LUN_GEOM_BPC n slot) (fld t.1 102 1)) (F.FC_LUN_GEOM_PLANES n slot) planes) (F.FC_LUN_GEOM_PPB n slot) (fld t.1 92 4)
  put (put s (F.FC_LUN_BLOCKS_BPP n slot) (fld t.1 96 4 / planes)) (F.FC_LUN_ENDUR_CYCLES n slot) (fld t.1 105 1 * 10 ^ fld t.1 106 1)

/-- The 32 LUN slots of a channel after identification. -/
def lunIdentifyAll (n : Nat) (ts : List FcTarget) : List Nat → State → State
  | [], s => s
  | l :: ls, s => lunIdentifyAll n ts ls (lunIdentify s n l ((ts[l / 4]?).getD ([], 0, 0)))

/-- EV_FLASH_INIT_FAILED for each target that failed training. -/
def initFailed : List FcTarget → State → State
  | [], s => s
  | t :: ts, s => initFailed ts (if targetMeets t && t.2.2 != 1 then logCrew s EV.flashInitFailed else s)

/-- A channel's start ends (R364 to R366): LUNs, parameter pages, the rate in use, READY and INIT_DONE. -/
def channelReady (s : State) (n : Nat) (ts : List FcTarget) : State :=
  let s := initFailed (ts.take 8) (lunIdentifyAll n ts (List.range 32) s)
  let present := (ts.take 8).filter targetPresent
  let limit := getF s (F.FC_TIMING_LIMIT n)
  let s := setF s (F.FC_TIMING_MTS n) ((present.map fun t => t.2.1).foldl min limit)
  let luns := ((List.range 32).filter fun l => flag s (F.FC_LUN_STATUS_PRESENT n l)).length
  let pages := (List.range 8).filterMap fun e =>
    match ts[e]? with
    | some t => if targetPresent t then some (8 * n + e, t.1) else none
    | none => none
  let s := { s with fc := { s.fc with pages := pages ++ s.fc.pages.filter (fun p => p.1 / 8 != n),
                                      starting := s.fc.starting.filter fun p => p.1 != n } }
  setF (setF (setF s (F.FC_STATUS_LUNS n) luns) (F.FC_STATUS_READY n) 1) (F.FC_STATUS_INIT_DONE n) 1

end Sys2Proof.Machine
end

