-- ==== Sys2Proof/Machine/MediaOps.lean ====
section
/-! DEFINITION. Operations of media management (09): the block table, heaps, page headers, placing strides, closing block sets, notes, the
authority rule, capacity. -/

namespace Sys2Proof.Machine

/-! ### Clocks -/

/-- The calendar clock in nanoseconds, where it is known: the nanoseconds it was set to and those that have passed since (R126, R127). -/
def calendarNs (s : State) : Option Nat := s.kv.calendar.map fun c => c.1 + (s.now - c.2)

/-- The calendar clock in seconds, where it is known. -/
def calendar (s : State) : Option Nat := (calendarNs s).map fun n => n / sec % 2 ^ 64

/-- The calendar clock, 0 where it is not known. -/
def calendarOr0 (s : State) : Nat := (calendar s).getD 0

/-! ### Block table (Table 09-2) -/

/-- The address of a block set's entry; every channel's FC_BT_BASE names the one table. -/
def btAddr (s : State) (bsn : Nat) : Nat := getF s (F.FC_BT_BASE_ADDR 0) * 4096 + 32 * bsn

/-- A field of an entry. -/
def btGet (s : State) (bsn o n : Nat) : Nat := peekNat s (btAddr s bsn + o) n

/-- A field of an entry written by crew firmware. -/
def btSet (s : State) (bsn o n v : Nat) : State := crewStore s (btAddr s bsn + o) (le n v)

/-- STATE of a block set. -/
def btState (s : State) (bsn : Nat) : Nat := btGet s bsn 0 1
/-- A flag of BFLAGS: 0 SLC, 1 SYSTEM, 2 NO_SUMMARY, 3 RETIRE_AFTER, 4 REFRESH. -/
def btFlag (s : State) (bsn i : Nat) : Bool := bitAt (btGet s bsn 1 1) i
/-- A flag of BFLAGS set. -/
def btMark (s : State) (bsn i : Nat) : State := if btFlag s bsn i then s else btSet s bsn 1 1 (btGet s bsn 1 1 + 2 ^ i)
/-- WEAR. -/
def btWear (s : State) (bsn : Nat) : Nat := btGet s bsn 4 4
/-- VALID. -/
def btValid (s : State) (bsn : Nat) : Nat := btGet s bsn 8 4
/-- WRITTEN. -/
def btWritten (s : State) (bsn : Nat) : Nat := btGet s bsn 12 4
/-- FIRST_SEQ. -/
def btFirst (s : State) (bsn : Nat) : Nat := btGet s bsn 16 8

/-- The LUN index of a block set. -/
def bsnLun (bsn : Nat) : Nat := bsn / 512

/-- VALID raised or lowered by one; a LUN on which collection found nothing to free takes intake again once some VALID falls (R340). -/
def btLive (s : State) (bsn : Nat) (up : Bool) : State :=
  if up then btSet s bsn 8 4 (btValid s bsn + 1)
  else btSet { s with media := { s.media with stuck := s.media.stuck.filter (· != bsnLun bsn) } } bsn 8 4 (btValid s bsn - 1)

/-- The block sets of a LUN that media management uses (R316). -/
def lunBsns (l : Nat) : List Nat := (List.range 504).map (· + 512 * l)

/-- The parameter page of a LUN's target is the one that crew firmware recorded at format, none before a format (R367). -/
def pageKnown (s : State) (l : Nat) : Bool :=
  match s.media.format with
  | none => true
  | some f =>
    let page := fun (ps : List (Nat × Bytes)) => (ps.find? fun p => p.1 == l / 4).map Prod.snd
    page f.pages == page s.fc.pages

/-- A LUN is in use: present with four planes and 256 to 32,768 pages per block, not declared failed, its parameter page the one recorded at format (R316,
R351, R367). -/
def lunUsed (s : State) (l : Nat) : Bool :=
  let n := l / 32
  let t := l % 32
  pageKnown s l &&
  flag s (F.FC_LUN_STATUS_PRESENT n t) && getF s (F.FC_LUN_GEOM_PLANES n t) == 4 && decide (256 ≤ getF s (F.FC_LUN_GEOM_PPB n t)) &&
    decide (getF s (F.FC_LUN_GEOM_PPB n t) ≤ 32768) && !(s.media.failed.contains l)

/-- The LUNs in use, and every block set of theirs. -/
def usedLuns (s : State) : List Nat := (List.range 1024).filter (lunUsed s)
/-- The block sets of the LUNs in use. -/
def usedBsns (s : State) : List Nat := ((usedLuns s).map lunBsns).flatten

/-- The strides N of a block set in native or SLC mode (R317). -/
def strideCount (s : State) (l : Nat) (slc : Bool) : Nat :=
  let ppb := getF s (F.FC_LUN_GEOM_PPB (l / 32) (l % 32))
  if slc then ppb / getF s (F.FC_LUN_GEOM_BPC (l / 32) (l % 32)) else ppb

/-- The data strides D of a block set closed in full (R329). -/
def dataStrides (s : State) (l : Nat) (slc : Bool) : Nat := strideCount s l slc - ceilDiv (strideCount s l slc) 1024

/-! ### Heaps (R321 to R323) -/

/-- The entries of a heap, lowest KEY first, then lowest VALUE. -/
def heapOf (s : State) (h : Nat) : List (Nat × Nat) := ((s.media.heaps.find? fun x => x.1 == h).map (·.2)).getD []

/-- The bytes of heap entries: KEY in [63:32], VALUE in [31:0] (R321). -/
def heapBytes (es : List (Nat × Nat)) : Bytes := (es.map fun e => le 4 e.2 ++ le 4 e.1).flatten

/-- A heap's entries replaced and COUNT shown; the entry places of the heap window hold them. DESIGN CHOICE: in the order in which the heap returns them, the
places behind them left as they are (log entry 74). -/
def putHeap (s : State) (h : Nat) (es : List (Nat × Nat)) : State :=
  let base := getF s (F.FPH_HEAP_BASE h)
  let s := memWrite s (heapBase + 8 * base) (heapBytes (es.take (516096 - base)))
  setF { s with media := { s.media with heaps := (h, es) :: s.media.heaps.filter fun x => x.1 != h } } (F.FPH_HEAP_COUNT h) es.length

/-- An entry in its place. -/
def heapInsert (e : Nat × Nat) : List (Nat × Nat) → List (Nat × Nat)
  | [] => [e]
  | x :: xs => if e.1 < x.1 ∨ (e.1 = x.1 ∧ e.2 ≤ x.2) then e :: x :: xs else x :: heapInsert e xs

/-- PUSH: none where it fails. -/
def heapPush (s : State) (h key value : Nat) : Option State :=
  if !(flag s (F.FPH_HEAP_VALID h)) || decide ((heapOf s h).length ≥ getF s (F.FPH_HEAP_CAPACITY h)) then none
  else some (putHeap s h (heapInsert (key, value) (heapOf s h)))

/-- POP: none where it fails. -/
def heapPop (s : State) (h : Nat) : Option ((Nat × Nat) × State) :=
  match heapOf s h with
  | [] => none
  | e :: es => if flag s (F.FPH_HEAP_VALID h) then some (e, putHeap s h es) else none

/-! ### Page headers (Tables 09-5 and 09-6) -/

/-- What a page header says beside its plane and check. -/
structure PageHead where
  kind : Nat
  flags : Nat
  wseq : Nat
  ident : Nat
  group : Nat
  pos : Nat
  genId : Nat
  k : Nat
  m : Nat
  ucrc : Nat
  wear : Nat
  aux : Nat

/-- The 64 bytes of a page header. -/
def headBytes (h : PageHead) (plane : Nat) : Bytes :=
  let b := le 4 0x33475A41 ++ le 1 h.kind ++ le 1 plane ++ le 1 h.flags ++ [0] ++ le 8 h.wseq ++ le 8 h.ident ++ le 4 h.group ++ le 1 h.pos ++
    le 1 h.genId ++ le 1 h.k ++ le 1 h.m ++ le 4 h.ucrc ++ le 4 h.wear ++ le 8 h.aux ++ le 8 Config.hull ++ zeros 4
  b ++ le 4 (crc32c b)

/-- A page header read: none where its check is wrong. -/
def readHead (b : Bytes) : Option PageHead :=
  if fld b 60 4 = crc32c (b.take 60) ∧ fld b 0 4 = 0x33475A41 then
    some ⟨fld b 4 1, fld b 6 1, fld b 8 8, fld b 16 8, fld b 24 4, fld b 28 1, fld b 29 1, fld b 30 1, fld b 31 1, fld b 32 4, fld b 36 4, fld b 40 8⟩
  else none

/-- The four headers of a complete stride, none of a torn one (R326). -/
def strideHeads (x : Stride) : Option (List PageHead) :=
  let hs := x.planes.filterMap fun p => readHead p.2
  match hs with
  | h :: _ =>
    if hs.length = 4 ∧ hs.all (fun g => g.wseq == h.wseq && g.kind == h.kind && (h.kind == 2 || g.ident == h.ident)) = true then some hs else none
  | [] => none

/-- The bytes of a stride. -/
def strideBytes (x : Stride) : Bytes := (x.planes.map fun p => fit p.1 16384).flatten

/-- The planes of a stride of one item. -/
def itemPlanes (h : PageHead) (body : Bytes) : List (Bytes × Bytes) :=
  (List.range 4).map fun q => (fit (slice body (16384 * q) 16384) 16384, headBytes h q)

/-! ### Programming strides (R328, R329, R336) -/

/-- A stride programmed by crew firmware: the NAND, the counts of its channel and LUN, WRITTEN and FIRST_SEQ. -/
def programStride (s : State) (bsn page wseq : Nat) (planes : List (Bytes × Bytes)) : State :=
  let l := bsnLun bsn
  let s := nandPut s ⟨bsn, page, planes⟩
  let s := countF (countF s (F.FC_CNT_PROG_COUNT (l / 32)) 1) (F.FC_LUN_CNT_PROG_COUNT (l / 32) (l % 32)) 1
  let s := countF s (F.FC_CNT_BYTES_WR_COUNT (l / 32)) 73728
  let n := (kvGet s.media.since l).getD 0
  let s := { s with media := { s.media with since := kvPut s.media.since l (n + 1) } }
  let s := btSet s bsn 12 4 (page + 1)
  if page = 0 then btSet s bsn 16 8 wseq else s

/-- The next write sequence number (R328). -/
def nextSeq (s : State) : Nat × State := (s.media.wseq, { s with media := { s.media with wseq := s.media.wseq + 1 } })

/-- A summary entry of a data stride: bytes 4 to 35 of its page-0 header, and for BUCKET the identities of pages 1 to 3. -/
def summaryEntry (s : State) (bsn page : Nat) : Bytes :=
  match strideAt s bsn page with
  | none => zeros 64
  | some x =>
    match strideHeads x with
    | none => zeros 64
    | some hs =>
      let h0 := ((x.planes.head?).map Prod.snd).getD []
      let ids := if fld h0 4 1 = 2 then ((hs.drop 1).map fun h => le 8 h.ident).flatten else zeros 24
      slice h0 4 32 ++ fit ids 24 ++ zeros 8

/-- The body of summary stride j (Table 09-7). -/
def summaryBody (s : State) (bsn j count seq : Nat) : Bytes :=
  let head := le 4 0x33535A41 ++ le 4 bsn ++ le 2 j ++ le 2 count ++ le 4 (1023 * j) ++ le 8 seq ++ le 4 (opsec s % 2 ^ 32) ++
    le 4 (calendarOr0 s / 3600 % 2 ^ 32) ++ le 4 (btWear s bsn) ++ zeros 24
  let entries := ((List.range count).map fun e => summaryEntry s bsn (1023 * j + e)).flatten
  let body := fit (head ++ zeros 4 ++ entries) 65536
  patch body 60 (le 4 (crc32c body))

/-- The summary strides of a block set with `d` data strides, from stride `j` of `n` on, each on the next page. -/
def programSummaries (bsn d : Nat) : Nat → Nat → State → State
  | 0, _, s => s
  | n + 1, j, s =>
    let q := nextSeq s
    let s := q.2
    let h : PageHead := ⟨6, b2n (btFlag s bsn 0), q.1, bsn, 0, 0, 0, 0, 0, 0, btWear s bsn, 0⟩
    let body := summaryBody s bsn j (min 1023 (d - 1023 * j)) q.1
    programSummaries bsn d n (j + 1) (programStride s bsn (btWritten s bsn) q.1 (itemPlanes h body))

/-- A block set no longer open for a stream. -/
def dropOpen (s : State) (bsn : Nat) : State := { s with media := { s.media with opens := s.media.opens.filter fun o => o.2.2 != bsn } }

/-- A block set closed with the times of its closing. -/
def markClosed (s : State) (bsn : Nat) : State :=
  btSet (btSet (btSet (dropOpen s bsn) bsn 24 4 (opsec s % 2 ^ 32)) bsn 28 4 (calendarOr0 s / 3600 % 2 ^ 32)) bsn 0 1 3

/-- An OPEN block set closed with its summary strides (R320, R329). -/
def closeBlock (s : State) (bsn : Nat) : State :=
  let d := btWritten s bsn
  markClosed (programSummaries bsn d (ceilDiv d 1023) 0 s) bsn

/-- The SLC target S_T (R337). -/
def slcTarget (s : State) (h : Nat) : Nat :=
  let set := s.media.settings
  let states := (usedBsns s).map (btState s)
  let u := (states.filter fun x => decide (1 ≤ x) && decide (x ≤ 4)).length
  let f := (states.filter fun x => x == 1).length
  let cf := ((s.media.format).map MediaFormat.cfrag).getD 0
  let fill := if cf = 0 then 100 else 100 * h / cf
  min (u * set.slcMaxPct / 100) ((f - 2 * set.gcHigh * (usedLuns s).length) * (100 - fill) / 100)

/-- The SLC block sets in use: OPEN, CLOSED and VICTIM. -/
def slcInUse (s : State) : Nat :=
  ((usedBsns s).filter fun b => decide (2 ≤ btState s b) && decide (btState s b ≤ 4) && btFlag s b 0).length

/-- Fragments held, H of Table 09-9. -/
def heldCount (s : State) : Nat := (s.media.frags.filter fun f => f.kind == 0).length

/-- The OPEN block set of a LUN's stream. -/
def openOf (s : State) (l stream : Nat) : Option Nat := (s.media.opens.find? fun o => o.1 == l && o.2.1 == stream).map (·.2.2)

/-- The OPEN block set of a stream, one being popped from the LUN's heap where none is open (R320, R336); none where the heap is empty. -/
def openStream (s : State) (l stream : Nat) : Option (Nat × State) :=
  match openOf s l stream with
  | some b => some (b, s)
  | none =>
    match heapPop s l with
    | none => none
    | some (e, s) =>
      let b := e.2
      let slc := stream == 0 && decide (slcInUse s < slcTarget s (heldCount s))
      let s := btSet (btSet (btSet (btSet s b 0 1 2) b 1 1 (b2n slc + (if stream = 2 then 2 else 0))) b 8 4 0) b 12 4 0
      some (b, { s with media := { s.media with opens := (l, stream, b) :: s.media.opens } })

/-- A stride of one item placed in a LUN's stream: where it went, its WSEQ, and the state; the block set closes behind its last data stride.
None where the LUN has no room. -/
def placeStride (s : State) (l stream : Nat) (h : Nat → Nat → List (Bytes × Bytes)) : Option ((Nat × Nat × Nat) × State) :=
  match openStream s l stream with
  | none => none
  | some (b, s) =>
    let q := nextSeq s
    let page := btWritten q.2 b
    let s := programStride q.2 b page q.1 (h q.1 b)
    let s := if page + 1 ≥ dataStrides s l (btFlag s b 0) then closeBlock s b else s
    some ((b, page, q.1), s)

/-- The LUN the reference crew firmware gives an arriving fragment: round robin among those whose round permits a program and whose free pool
is above 2 block sets (R336), none on which collection can free nothing (R340). -/
def intakeLun (s : State) : Option Nat :=
  let ok := fun l => lunUsed s l && decide ((heapOf s l).length > 2) && !(s.media.stuck.contains l) && fcRoundOpen s (l / 32) (l % 32)
  let ring := (List.range 1024).drop s.media.nextLun ++ (List.range 1024).take s.media.nextLun
  ring.find? ok

/-! ### Items (R330, R332) -/

/-- The fragment identity's item. -/
def fragOf (s : State) (group stripe : Nat) : Option FragItem := s.media.frags.find? fun f => f.group == group && f.stripe == stripe

/-- An item put in place of the one of its identity; VALID follows the strides. -/
def putFrag (s : State) (f : FragItem) : State :=
  let s := match fragOf s f.group f.stripe with
    | some o => if o.kind = 0 then btLive s o.bsn false else s
    | none => s
  let s := { s with media := { s.media with frags := f :: s.media.frags.filter fun g => !(g.group == f.group && g.stripe == f.stripe) } }
  if f.kind = 0 then btLive s f.bsn true else s

/-- The item of an identity gone. -/
def dropFrag (s : State) (group stripe : Nat) : State :=
  match fragOf s group stripe with
  | none => s
  | some o =>
    let s := { s with media := { s.media with frags := s.media.frags.filter fun g => !(g.group == group && g.stripe == stripe) } }
    if o.kind = 0 then btLive s o.bsn false else s

/-- The identities a TRIM's run covers are gone. -/
def trimRun (group stripe : Nat) : Nat → State → State
  | 0, s => s
  | n + 1, s => trimRun group (stripe + 32) n (dropFrag s group stripe)

/-- A note recorded in the buffer with the next sequence number, and its effect on the fragment map (R330, R332). A run longer than the items
held is walked over those items only. -/
def addNote (s : State) (kind pos group ident run : Nat) : State :=
  let q := nextSeq s
  let s := { q.2 with media := { q.2.media with notes := q.2.media.notes ++ [⟨kind, pos, group, ident, run, q.1, []⟩] } }
  if kind = 1 then
    let hit := s.media.frags.filter fun f => f.group == group && decide (ident ≤ f.stripe) && decide (f.stripe < ident + 32 * run)
    hit.foldl (fun s f => dropFrag s f.group f.stripe) s
  else if kind = 2 ∨ kind = 3 ∨ kind = 4 then
    let o := (fragOf s group ident).getD ⟨group, ident, pos, kind, 0, 0, 0, 0, 0, 0, 0⟩
    putFrag s { o with pos := pos, kind := kind, bsn := 0, page := 0, seq := q.1 }
  else if kind = 5 then
    { s with media := { s.media with buckets := s.media.buckets.filter fun b => b.slice != ident } }
  else s

/-- A fragment programmed by crew firmware into the intake stream, or as a copy into a LUN's copy stream (R336, R341); none without room. -/
def programFrag (s : State) (copyTo : Option Nat) (f : FragItem) (unit : Bytes) : Option State :=
  match (match copyTo with | some l => some l | none => intakeLun s) with
  | none => none
  | some l =>
    let stream := if copyTo.isSome then 1 else 0
    let head := fun wseq b => itemPlanes ⟨1, b2n (btFlag s b 0) + (if copyTo.isSome then 2 else 0), wseq, f.stripe, f.group, f.pos, f.genId, f.k,
      f.m, f.ucrc, btWear s b, 0⟩ unit
    match placeStride s l stream head with
    | none => none
    | some ((b, page, seq), s) =>
      let s := if copyTo.isSome then s else { s with media := { s.media with nextLun := (l + 1) % 1024 } }
      some (putFrag s { f with kind := 0, bsn := b, page := page, seq := seq })

/-- The note entry of Table 09-8. -/
def noteBytes (n : NoteRec) : Bytes := le 1 n.kind ++ le 1 n.pos ++ zeros 2 ++ le 4 n.group ++ le 8 n.ident ++ le 8 n.run ++ le 8 n.seq

/-- A stride of the SYSTEM stream written twice, on LUNs of two different channels, the second with DUP (R331); where it went, none without
room. -/
def placeTwice (s : State) (h : Nat → PageHead) (body : Bytes) : Option (List (Nat × Nat) × State) :=
  let room := fun (s : State) l => lunUsed s l && ((openOf s l 2).isSome || !(heapOf s l).isEmpty)
  match (List.range 1024).find? (room s) with
  | none => none
  | some l1 =>
    match placeStride s l1 2 fun w _ => itemPlanes (h w) body with
    | none => none
    | some ((b1, p1, _), s) =>
      let s := btLive s b1 true
      match (List.range 1024).find? fun l => room s l && l / 32 != l1 / 32 with
      | none => some ([(b1, p1)], s)
      | some l2 =>
        match placeStride s l2 2 fun w _ => itemPlanes { h w with flags := 4 } body with
        | none => some ([(b1, p1)], s)
        | some ((b2, p2, _), s) => some ([(b1, p1), (b2, p2)], btLive s b2 true)

end Sys2Proof.Machine
end

