-- ==== Sys2Proof/Machine/Palette.lean ====
section
/-! DEFINITION. The Palette (14): the ternary array, searches by ports, queues and internal users, stepping, entry writes and
reads, and moves. -/

namespace Sys2Proof.Machine

/-! ### The array (R454, R455) -/

/-- Units of an entry of a bank by its WIDTH: 1, 2 or 4. -/
def bankUnits (s : State) (b : Nat) : Nat := 2 ^ getF s (F.ASU_BANK_CFG_WIDTH b)

/-- The entries of a bank (R454). -/
def bankEntries (s : State) (b : Nat) : Nat := 2048 / bankUnits s b

/-- A unit's value and mask. -/
def asuUnit (s : State) (b u : Nat) : Nat × Nat :=
  match s.asu.units.find? fun x => x.bank == b && x.unit == u with
  | some x => (x.value, x.mask)
  | none => (0, 0)

/-- An entry's VALID, PRIO and ADATA. -/
def asuEnt (s : State) (b i : Nat) : AsuEnt :=
  (s.asu.ents.find? fun x => x.bank == b && x.index == i).getD ⟨b, i, false, 0, 0⟩

/-- A unit written. -/
def putUnit (s : State) (x : AsuUnit) : State :=
  { s with asu := { s.asu with units := x :: s.asu.units.filter fun y => !(y.bank == x.bank && y.unit == x.unit) } }

/-- An entry's VALID, PRIO and ADATA written. -/
def putEnt (s : State) (x : AsuEnt) : State :=
  { s with asu := { s.asu with ents := x :: s.asu.ents.filter fun y => !(y.bank == x.bank && y.index == x.index) } }

/-- An entry matches a key of its width: VALID, and every key bit whose mask bit is 1 equals the value bit (R455). -/
def entMatch (s : State) (key : Nat) (e : AsuEnt) : Bool :=
  let n := bankUnits s e.bank
  e.valid && (List.range n).all fun j =>
    let u := asuUnit s e.bank (e.index * n + j)
    (bits key (128 * j) 128 ^^^ u.1) &&& u.2 == 0

/-- The bank takes part in a search (R457). -/
def bankSearched (s : State) (banks width b : Nat) : Bool :=
  bitAt banks b && flag s (F.ASU_BANK_CFG_ENABLE b) && getF s (F.ASU_BANK_CFG_WIDTH b) == width

/-- The matching entries of a search. -/
def asuMatches (s : State) (key banks width : Nat) : List AsuEnt :=
  s.asu.ents.filter fun e => bankSearched s banks width e.bank && entMatch s key e

/-- One match is better than another: higher PRIO, then the lower bank, then the lower index (R458). -/
def betterMatch (a b : AsuEnt) : Bool :=
  decide (a.prio > b.prio) || (a.prio == b.prio && (decide (a.bank < b.bank) || (a.bank == b.bank && decide (a.index < b.index))))

/-- The best of a list of matches. -/
def bestMatch : List AsuEnt → Option AsuEnt
  | [] => none
  | e :: es =>
    match bestMatch es with
    | none => some e
    | some f => if betterMatch f e then some f else some e

/-! ### Moves (R466 to R468) -/

/-- The entries of a move's block. -/
def moveCount (m : AsuMove) : Nat := m.last + 1 - m.first

/-- One entry of a bank copied over another place. -/
def copyEnt (s : State) (b src dst : Nat) : State :=
  let n := bankUnits s b
  let e := asuEnt s b src
  let s := (List.range n).foldl (fun s j => let u := asuUnit s b (src * n + j); putUnit s ⟨b, dst * n + j, u.1, u.2⟩) s
  putEnt s { e with index := dst }

/-- Copies of a move up to `k` entries, the far end first (R467). -/
def moveCopy : Nat → State → State
  | 0, s => s
  | k + 1, s =>
    match s.asu.move with
    | none => s
    | some m =>
      if m.copied ≥ moveCount m then s
      else
        let src := if m.down then m.first + m.copied else m.last - m.copied
        let s := copyEnt s m.bank src (if m.down then src - 1 else src + 1)
        moveCopy k { s with asu := { s.asu with move := some { m with copied := m.copied + 1 } } }

/-- The array as a search finds it: a running move has reached some step that the spec does not fix, so a free number of further
entries is copied (R459, R468). -/
def moveProgress (s : State) : State :=
  match s.asu.move with
  | none => s
  | some m => let p := fresh s; moveCopy (p.1 % (moveCount m - m.copied + 1)) p.2

/-! ### Searches (R457 to R460) -/

/-- What a search reports (R458). -/
structure AsuHit where
  hit : Bool
  multi : Bool
  bank : Nat
  index : Nat
  prio : Nat
  adata : Nat
  matched : List (Nat × Nat)

/-- The places of matches in ascending order of bank, then index (R462). -/
def sortPlaces (l : List (Nat × Nat)) : List (Nat × Nat) :=
  let ins := fun (p : Nat × Nat) (acc : List (Nat × Nat)) =>
    acc.takeWhile (fun q => decide (q.1 < p.1) || (q.1 == p.1 && decide (q.2 < p.2))) ++ [p] ++
      acc.dropWhile (fun q => decide (q.1 < p.1) || (q.1 == p.1 && decide (q.2 < p.2)))
  l.foldr ins []

/-- A search of the whole array in one engine cycle, counted (R457 to R459). While the Palette serves no searches it finds nothing. -/
def asuSearch (s : State) (key banks width : Nat) : State × AsuHit :=
  if !(flag s F.ASU_CTRL_ENABLE) then (s, ⟨false, false, 0, 0, 0, 0, []⟩)
  else
    let s := moveProgress s
    let ms := asuMatches s key banks width
    let s := countF s F.ASU_CNT_SEARCH_COUNT 1
    match bestMatch ms with
    | none => (s, ⟨false, false, 0, 0, 0, 0, []⟩)
    | some e =>
      let multi := decide (ms.length > 1)
      let s := countF s F.ASU_CNT_HIT_COUNT 1
      (if multi then countF s F.ASU_CNT_MULTI_COUNT 1 else s,
       ⟨true, multi, e.bank, e.index, e.prio, e.adata, sortPlaces (ms.map fun x => (x.bank, x.index))⟩)

/-- A search by an internal user of Table 14-2 in the banks of its ASU_USE_BANKS register (R470). -/
def asuUse (s : State) (user : Nat) (key : Bytes) (width : Nat) : State × AsuHit :=
  asuSearch s (leNat key) (getF s (F.ASU_USE_BANKS_BANKS user)) width

/-- The access-rule key of Table 14-1. -/
def accessKey (tag nsid op : Nat) : Bytes := fit (le 4 tag ++ le 2 nsid ++ le 1 op) 16

/-- The key of placement overrides and prefix holds, Table 14-1, with the length gauge. -/
def prefixKey (nsid : Nat) (key : Bytes) : Bytes :=
  fit (le 2 nsid ++ zeros 2 ++ fit key 48 ++ le 6 (2 ^ min key.length 48 - 1)) 64

/-! ### Ports (R461 to R463) -/

/-- A core's port. -/
def portOf (s : State) (c : Nat) : AsuPort := (s.asu.ports.find? fun p => p.core == c).getD ⟨c, none, [], 0⟩

/-- A port put in place, and ASU_STATUS.IDLE. -/
def putPort (s : State) (p : AsuPort) : State :=
  let s := { s with asu := { s.asu with ports := p :: s.asu.ports.filter fun q => q.core != p.core } }
  setF s F.ASU_STATUS_IDLE (b2n (s.asu.move.isNone && s.asu.ports.all fun q => q.running.isNone))

/-- The result registers of a port all 0: a search runs. -/
def clearResult (s : State) (c : Nat) : State :=
  let s := setF (setF (setF s (F.ASU_RESULT_READY c) 0) (F.ASU_RESULT_HIT c) 0) (F.ASU_RESULT_MULTI c) 0
  let s := setF (setF s (F.ASU_RESULT_BANK c) 0) (F.ASU_RESULT_INDEX c) 0
  setF (setF s (F.ASU_RESULT_PRIO_PRIO c) 0) (F.ASU_RESULT_DATA_ADATA c) 0

/-- Bytes of 16 consecutive port words. -/
def portBytes (s : State) (f : Nat → Nat → Fld) (c : Nat) : Bytes := ((List.range 16).map fun i => le 4 (getF s (f c i))).flatten

/-- 16 consecutive port words set from a number. -/
def setPortBytes (s : State) (f : Nat → Nat → Fld) (c v : Nat) : State :=
  (List.range 16).foldl (fun s i => setF s (f c i) (bits v (32 * i) 32)) s

/-- ASU_SEARCH with GO 1: key, banks and WIDTH are latched, a running search of the port is replaced (R461). -/
def execAsuSearchGo (core width : Nat) (s : State) : Res :=
  coreStore s core (F.ASU_SEARCH_GO core).addr fun s =>
    let s := setF s (F.ASU_SEARCH_WIDTH core) width
    .next (putPort (clearResult s core)
      { portOf s core with running := some (leNat (portBytes s F.ASU_KEY_BYTES core), getF s (F.ASU_SEARCH_BANKS_BANKS core), width % 4) })

/-- The running search of a port is evaluated: the best match in the result registers, the matches latched for stepping (R458, R461,
R462). -/
def execAsuSearchResult (core : Nat) (s : State) : Res := whileCore s fun s =>
  match (portOf s core).running with
  | none => .next s
  | some (key, banks, width) =>
    if !(flag s F.ASU_CTRL_ENABLE) then .next s
    else
      let p := asuSearch s key banks width
      let h := p.2
      let s := setF (setF (setF p.1 (F.ASU_RESULT_READY core) 1) (F.ASU_RESULT_HIT core) (b2n h.hit)) (F.ASU_RESULT_MULTI core) (b2n h.multi)
      let s := setF (setF s (F.ASU_RESULT_BANK core) h.bank) (F.ASU_RESULT_INDEX core) h.index
      let s := setF (setF s (F.ASU_RESULT_PRIO_PRIO core) h.prio) (F.ASU_RESULT_DATA_ADATA core) h.adata
      let s := setF (setF (setF s (F.ASU_STEP_RESULT_VALID core) 0) (F.ASU_STEP_RESULT_END core) 0) (F.ASU_STEP_RESULT_STALE core) 0
      .next (putPort s ⟨core, none, h.matched, 0⟩)

/-- ASU_STEP_PRIO and ASU_STEP_DATA show the present PRIO and ADATA of the place reported (R462, R463). -/
def stepRefresh (s : State) (c : Nat) : State :=
  if flag s (F.ASU_STEP_RESULT_VALID c) then
    let e := asuEnt s (getF s (F.ASU_STEP_RESULT_BANK c)) (getF s (F.ASU_STEP_RESULT_INDEX c))
    setF (setF s (F.ASU_STEP_PRIO_PRIO c) e.prio) (F.ASU_STEP_DATA_ADATA c) e.adata
  else s

/-- ASU_STEP_CTRL.NEXT: the next latched match, or END beyond the last; ignored before READY (R462). -/
def execAsuStepNext (core : Nat) (s : State) : Res :=
  coreStore s core (F.ASU_STEP_CTRL_NEXT core).addr fun s =>
    if !(flag s (F.ASU_RESULT_READY core)) then .next s
    else
      let p := portOf s core
      match p.latched[p.steps]? with
      | some (b, i) =>
        let s := putPort (moveProgress s) { p with steps := p.steps + 1 }
        let s := setF (setF (setF s (F.ASU_STEP_RESULT_VALID core) 1) (F.ASU_STEP_RESULT_BANK core) b) (F.ASU_STEP_RESULT_INDEX core) i
        .next (stepRefresh s core)
      | none => .next (setF (setF s (F.ASU_STEP_RESULT_VALID core) 0) (F.ASU_STEP_RESULT_END core) 1)

/-- A bank has been touched: STALE on each port with a latched match in it, and the stepped places shown as they now are (R463). -/
def touchBank (s : State) (b : Nat) : State :=
  (List.range 8).foldl (fun s c =>
    let s := if (portOf s c).latched.any fun p => p.1 == b then setF s (F.ASU_STEP_RESULT_STALE c) 1 else s
    stepRefresh s c) s

/-! ### Entry writes and reads (R464, R465) -/

/-- ASU_WENTRY with GO 1 and READ 0 (R464). -/
def execAsuEntryWrite (core valid bank index : Nat) (s : State) : Res :=
  coreStore s core (F.ASU_WENTRY_GO core).addr fun s =>
    let s := setF (setF (setF (setF s (F.ASU_WENTRY_VALID core) valid) (F.ASU_WENTRY_READ core) 0) (F.ASU_WENTRY_BANK core) bank)
      (F.ASU_WENTRY_INDEX core) index
    let s := setF s (F.ASU_WSTATUS_DONE core) 0
    let refuse := fun (cause : Nat) => setF (setF s (F.ASU_WSTATUS_REJECTED core) 1) (F.ASU_WSTATUS_CAUSE core) cause
    let b := bank % 64
    let i := index % 2048
    if (match s.asu.move with | some m => m.bank == b | none => false) then .next (refuse 1)
    else if i ≥ bankEntries s b then .next (refuse 2)
    else
      let n := bankUnits s b
      let key := leNat (portBytes s F.ASU_KEY_BYTES core)
      let mask := leNat (portBytes s F.ASU_WMASK_BYTES core)
      let s := (List.range n).foldl (fun s j => putUnit s ⟨b, i * n + j, bits key (128 * j) 128, bits mask (128 * j) 128⟩) s
      let s := putEnt s ⟨b, i, valid % 2 == 1, getF s (F.ASU_WPRIO_PRIO core), getF s (F.ASU_WDATA_ADATA core)⟩
      .next (touchBank (setF s (F.ASU_WSTATUS_DONE core) 1) b)

/-- ASU_WENTRY with GO 1 and READ 1: the entry copied into the port's registers (R465). Words beyond the entry's width stay as they are. A
place beyond the bank holds no entry, and the spec states nothing of what a read of it copies: free values. -/
def execAsuEntryRead (core bank index : Nat) (s : State) : Res :=
  coreStore s core (F.ASU_WENTRY_GO core).addr fun s =>
    let s := moveProgress s
    let b := bank % 64
    let i := index % 2048
    let s := setF (setF (setF s (F.ASU_WENTRY_READ core) 1) (F.ASU_WENTRY_BANK core) b) (F.ASU_WENTRY_INDEX core) i
    if i ≥ bankEntries s b then
      let p := fresh s
      let q := fresh (setPortBytes (setPortBytes p.2 F.ASU_KEY_BYTES core p.1) F.ASU_WMASK_BYTES core (p.1 / 2 ^ 512))
      let s := setF (setF q.2 (F.ASU_WPRIO_PRIO core) q.1) (F.ASU_WDATA_ADATA core) (q.1 / 65536)
      .next (setF (setF s (F.ASU_WENTRY_VALID core) (q.1 / 2 ^ 48)) (F.ASU_WSTATUS_DONE core) 1)
    else
    let n := bankUnits s b
    let e := asuEnt s b i
    let s := (List.range (4 * n)).foldl (fun s w =>
      let u := asuUnit s b (i * n + w / 4)
      setF (setF s (F.ASU_KEY_BYTES core w) (bits u.1 (32 * (w % 4)) 32)) (F.ASU_WMASK_BYTES core w) (bits u.2 (32 * (w % 4)) 32)) s
    let s := setF (setF s (F.ASU_WPRIO_PRIO core) e.prio) (F.ASU_WDATA_ADATA core) e.adata
    .next (setF (setF s (F.ASU_WENTRY_VALID core) (b2n e.valid)) (F.ASU_WSTATUS_DONE core) 1)

/-- ASU_MOVE_CTRL with GO 1 (R466). -/
def execAsuMove (core dir bank last first : Nat) (s : State) : Res :=
  coreStore s core F.ASU_MOVE_CTRL_GO.addr fun s =>
    let s := setF (setF (setF (setF s F.ASU_MOVE_CTRL_DIR dir) F.ASU_MOVE_CTRL_BANK bank) F.ASU_MOVE_CTRL_LAST last) F.ASU_MOVE_CTRL_FIRST first
    let b := bank % 64
    let l := last % 2048
    let f := first % 2048
    let down := dir % 2 == 1
    if s.asu.move.isSome ∨ l < f ∨ (if down then f = 0 ∨ f > bankEntries s b else l + 1 ≥ bankEntries s b) then
      .next (setF s F.ASU_MOVE_STATUS_REJECTED 1)
    else
      let s := { s with asu := { s.asu with move := some ⟨b, f, l, down, 0⟩ } }
      .next (touchBank (setF (setF s F.ASU_MOVE_STATUS_BUSY 1) F.ASU_STATUS_IDLE 0) b)

/-- A move ends: the copies left, the vacated place invalid, BUSY clear and DONE set (R466, R467). -/
def execAsuMoveEnd (s : State) : Res := whileCore s fun s =>
  match s.asu.move with
  | none => .next s
  | some m =>
    let s := moveCopy (moveCount m) s
    let place := if m.down then m.last else m.first
    let s := putEnt s { asuEnt s m.bank place with valid := false }
    let s := { s with asu := { s.asu with move := none } }
    let s := setF s F.ASU_STATUS_IDLE (b2n (s.asu.ports.all fun q => q.running.isNone))
    .next (touchBank (countF (setF (setF s F.ASU_MOVE_STATUS_BUSY 0) F.ASU_MOVE_STATUS_DONE 1) F.ASU_CNT_MOVE_COUNT 1) m.bank)

/-- A write of ASU_BANK_CFG: a changed WIDTH invalidates every entry of the bank (R456). During a move of the bank it is R473. -/
def execAsuBankCfgWrite (core bank value : Nat) (s : State) : Res :=
  coreStore s core (F.ASU_BANK_CFG_ENABLE bank).addr fun s =>
    if bits value 2 29 ≠ 0 ∨ value % 4 = 3 then .fault .reservedNonzero
    else if (match s.asu.move with | some m => m.bank == bank | none => false) then .fault (.undefined473 2)
    else
      let changed := getF s (F.ASU_BANK_CFG_WIDTH bank) != value % 4
      let s := setF (setF s (F.ASU_BANK_CFG_ENABLE bank) (value / 2 ^ 31)) (F.ASU_BANK_CFG_WIDTH bank) value
      if changed then
        let s := { s with asu := { s.asu with ents := s.asu.ents.map fun e => if e.bank == bank then { e with valid := false } else e } }
        .next (touchBank s bank)
      else .next s

/-- ASU_SEARCH through a work queue (R469). -/
def execAsuSearch (queue : Nat) (s : State) : Res := whileCore s fun s =>
  match openEntry s queue 0x50 with
  | none => .next s
  | some t =>
    let w := fld t.bytes 16 1
    if !(allZero (slice t.bytes 17 47)) then .fault .reservedNonzero
    else if w ≥ 3 then .next (entryEnd s t (zeros 10 ++ [1, 0]) true)
    else if !(flag s F.ASU_CTRL_ENABLE) then .next s
    else
      let p := asuSearch s (leNat (slice t.bytes 64 64)) (fld t.bytes 8 8) w
      let h := p.2
      .next (entryEnd p.1 t (le 4 h.adata ++ le 2 h.prio ++ le 1 h.bank ++ le 1 (b2n h.hit + 2 * b2n h.multi) ++ le 2 h.index ++ zeros 2) false)

end Sys2Proof.Machine
end

