-- ==== Sys2Proof/Machine/Logbook.lean ====
section
/-! DEFINITION. The logbook, the counter snapshot and Pentimento (20): submissions and reads through the crew's ports,
programming to NOR, clearing, the strobe, and the snapshots of the black box. -/

namespace Sys2Proof.Machine

/-- The 64 bytes of a record, Table 20-1. -/
def recBytes (r : LogRec) : Bytes :=
  let b := le 8 r.seq ++ le 2 r.code ++ le 1 r.source ++ le 1 r.rflags ++ le 4 r.opsec ++ le 4 r.pcycles ++ le 2 r.subsec ++
    le 2 r.suppressed ++ le 8 r.calendar ++ le 8 r.p0 ++ le 8 r.p1 ++ le 8 r.p2 ++ le 4 r.p3
  b ++ le 4 (crc32c b)

/-- LOG_SUB_CTRL.GO with CODE on the submit port of a core (R574, R577, R578, R590). -/
def execLogSubmit (core code : Nat) (s : State) : Res :=
  coreRuns s core fun s =>
  let p := logSubmit s (1 + 16 * core) code (getF s (F.LOG_SUB_P_WORD core 0)) (getF s (F.LOG_SUB_P_WORD core 1))
    (getF s (F.LOG_SUB_P_WORD core 2)) (getF s (F.LOG_SUB_P3_WORD core))
  let s := setF p.1 (F.LOG_SUB_STAT_DONE core) 1
  let s := setF s (F.LOG_SUB_STAT_SUPPRESSED core) (b2n (p.2 == .suppressed))
  let s := setF s (F.LOG_SUB_STAT_REFUSED core) (b2n (p.2 == .refused))
  .next (setF s (F.LOG_SUB_SEQ_SEQ core) (match p.2 with | .accepted q => q | _ => 0))

/-- The records a read can return: every kept record, every ring record at or above LOW, every buffered one (R582). -/
def logReadable (s : State) : List LogRec :=
  let low := getF s F.LOG_LOW_SEQ
  s.lb.kept ++ ((s.lb.ring.map Prod.snd).filter fun r => decide (r.seq ≥ low)) ++ s.lb.buffer.map Prod.snd

/-- Records put in ascending SEQ. -/
def insertRec (r : LogRec) : List LogRec → List LogRec
  | [] => [r]
  | q :: t => if r.seq ≤ q.seq then r :: q :: t else q :: insertRec r t

/-- Records in ascending SEQ. -/
def sortRecs (l : List LogRec) : List LogRec := l.foldr insertRec []

/-- A read of the logbook: the first `n` records with SEQ at or above `start`, ascending (R582). -/
def logRead (s : State) (start n : Nat) : List LogRec :=
  (sortRecs ((logReadable s).filter fun r => decide (r.seq ≥ start))).take n

/-- The words of a byte string set in consecutive 32-bit register fields. -/
def setWords (s : State) (f : Nat → Fld) (b : Bytes) : State :=
  (List.range (b.length / 4)).foldl (fun s i => setF s (f i) (fld b (4 * i) 4)) s

/-- LOG_RD_CTRL.GO on the read port of a core (R582, R583, R590). -/
def execLogRdGo (core : Nat) (s : State) : Res :=
  coreRuns s core fun s =>
  let recs := logRead s (getF s (F.LOG_RD_FROM_SEQ core)) (min 16 (getF s (F.LOG_RD_CTRL_COUNT core)))
  let s := setWords s (F.LOG_RD_DATA_BYTES core) (recs.map recBytes).flatten
  let s := setF (setF s (F.LOG_RD_STAT_DONE core) 1) (F.LOG_RD_STAT_RETURNED core) recs.length
  .next (setF s (F.LOG_RD_LOW_SEQ core) (getF s F.LOG_LOW_SEQ))

/-- A control record of R581 appended; when the sector is full, its newest record is kept in the first slot. -/
def putControl (s : State) (low : Nat) : State :=
  let q := ((s.lb.ctl.map Prod.snd).foldl max 0) + 1
  let keep := if s.lb.ctl.length ≥ 2048 then s.lb.ctl.drop (s.lb.ctl.length - 1) else s.lb.ctl
  { s with lb := { s.lb with ctl := keep ++ [(low, q)] } }

/-- A record programmed: to the kept area while it has a free slot, then to the ring, whose next sector is erased when writing
into the present one begins, dropping its records and raising LOW (R579, R580). -/
def programRec (s : State) (r : LogRec) : State :=
  if s.lb.kept.length < 4096 then
    let s := { s with lb := { s.lb with kept := s.lb.kept ++ [r] } }
    if s.lb.kept.length = 4096 then setF s F.LOG_STATUS_KEPT_FULL 1 else s
  else
    let slot := s.lb.ringNext % 66560
    let sector := (slot / 1024 + 1) % 65
    let dropped := slot % 1024 = 0 && s.lb.ring.any fun e => e.1 / 1024 == sector
    let ring := if slot % 1024 = 0 then s.lb.ring.filter (fun e => e.1 / 1024 != sector) else s.lb.ring
    let ring := ring.filter (fun e => e.1 != slot) ++ [(slot, r)]
    let s := { s with lb := { s.lb with ring := ring, ringNext := (slot + 1) % 66560 } }
    if dropped then
      setF s F.LOG_LOW_SEQ (max (getF s F.LOG_LOW_SEQ) ((ring.map fun e => e.2.seq).foldl min r.seq))
    else s

/-- The oldest buffered record is programmed to NOR (R575, R579, R580). -/
def execLogRecordProgram (s : State) : Res :=
  match s.lb.buffer with
  | [] => .next s
  | (_, r) :: rest => .next (programRec { s with lb := { s.lb with buffer := rest } } r)

/-- The buffered records programmed one after another. -/
def programAll : List (Nat × LogRec) → State → State
  | [], s => s
  | (_, r) :: rest, s => programAll rest (programRec s r)

/-- The record buffer programmed to its end. -/
def programBuffer (s : State) : State := programAll s.lb.buffer { s with lb := { s.lb with buffer := [] } }

/-- The ring after a clear: the sectors that hold only cleared records are erased (R584). -/
def ringCleared (ring : List (Nat × LogRec)) (low : Nat) : List (Nat × LogRec) :=
  ring.filter fun e => ring.any fun d => d.1 / 1024 == e.1 / 1024 && decide (d.2.seq ≥ low)

/-- Cox's write of LOG_CLEAR_UPTO (R584): EV_LOG_CLEARED is accepted and programmed at once, after the records that wait before it, a control record
carries the new LOW, and CLEARED is set. Cox writes only the UPTO of a LOG_CLEAR request whose check has passed. While the buffer is full the
record is not accepted and the clear does not begin. -/
def execLogClearUptoWrite (upto : Nat) (s : State) : Res :=
  if s.cox.clearGranted ≠ some upto then .next s
  else
    let old := getF s F.LOG_LOW_SEQ
    let low := max old (min upto (getF s F.LOG_HEAD_SEQ) + 1)
    let s := setF s F.LOG_CLEAR_UPTO_SEQ upto
    let p := logSubmit s 2 EV.logCleared old low upto 0
    match p.2 with
    | .accepted _ =>
      let s := programBuffer { p.1 with cox := { p.1.cox with clearGranted := none } }
      let s := setF (putControl s low) F.LOG_LOW_SEQ (max (getF s F.LOG_LOW_SEQ) low)
      .next (setF { s with lb := { s.lb with ring := ringCleared s.lb.ring low } } F.LOG_STATUS_CLEARED 1)
    | _ => .next p.1

/-- A token returns to a code's bucket (R577): only a bucket that is not full is refilled, and the next token is one interval
later until it is full again. -/
def execLogTokenRefill (code : Nat) (s : State) : Res :=
  match codeBucket code with
  | none => .next s
  | some b =>
    let t := bucketOf s b
    match bucketBurst s b with
    | some burst =>
      if t.spent = 0 then .next s
      else .next (putBucket (reach s t.refillAt) { t with spent := t.spent - 1, refillAt := t.refillAt + refillNs s burst })
    | none => .next s

/-! ### Counter snapshot (R586, R587) -/

/-- The RC fields that take part in the snapshot: every RC counter of the chapters, not IRQ_CLAIM, FAB_ERR_COUNT or PJ_ALLOC. -/
def snapCounter (key : Nat) : Bool :=
  let a := key / 64
  match regAt a with
  | some (_, r) =>
    (r.fields.any fun d => d.lo == key % 64 && d.ty == .rc) &&
      !(decide (0x0100802000 ≤ a ∧ a < 0x0100901000)) && !(decide (0x010F200000 ≤ a ∧ a < 0x010F300000))
  | none => false

/-- The counters a strobe latches and clears: those of domains that are on. -/
def snapTakes (s : State) (key : Nat) : Bool := snapCounter key && domainOn s (regDomain (key / 64))

/-- The mask of the domains on, SNAP_DOMAINS.ON. -/
def domainMask (s : State) : Nat :=
  let d := [Domain.aon, .svc, .cox, .core, .crew2, .dram, .flash, .lane0, .lanes]
  ((List.range 9).map fun i => if domainOn s (d.getD i .aon) then 2 ^ i else 0).sum

/-- SNAP_CTRL.STROBE (R586): every participating counter copies its value into its shadow and clears in one cycle. -/
def execSnapStrobe (core : Nat) (s : State) : Res :=
  coreRuns s core fun s =>
  let s := { s with shadow := s.regs.filter fun e => snapTakes s e.1, regs := s.regs.filter fun e => !(snapTakes s e.1) }
  let s := bumpF s F.SNAP_SEQ_SEQ 1
  let s := setF (setF s F.SNAP_OPSEC_SECONDS (opsec s)) F.SNAP_MS_MS (aonMs s)
  .next (setF (setF s F.SNAP_DOMAINS_ON (domainMask s)) F.SNAP_STATUS_DONE 1)

/-! ### Pentimento (R588, R589) -/

/-- The registers a snapshot captures, in the order of Table 20-3. -/
def pentRegs : List Nat :=
  [0x0100000004, 0x0100000008, 0x0100000010, 0x0100000020, 0x0100000024, 0x010040001C, 0x010F300004, 0x010F300020,
   0x010F200000, 0x010F200008, 0x010F200028, 0x010F200020, 0x0100900004, 0x0100900008, 0x010F108000, 0x0101000100,
   0x0102000050, 0x010D0000A8]

/-- The records a snapshot's log tail holds: the last 256 accepted, buffered ones included, ascending. -/
def logTail (s : State) : List LogRec :=
  let all := sortRecs (s.lb.kept ++ s.lb.ring.map Prod.snd ++ s.lb.buffer.map Prod.snd)
  all.drop (all.length - 256)

/-- The bytes of the Pentimento scratch area. -/
def scratchBytes (s : State) : Bytes := ((List.range 4096).map fun i => le 4 (getF s (F.PENT_SCRATCH_BYTES i))).flatten

/-- What a snapshot captures at its first trigger (Table 20-3). -/
def pentCapture (s : State) (causes fatal : Nat) : PentSnap :=
  let on := fun a => domainOn s (regDomain a)
  ⟨getF s F.PENT_STATUS_NEXT, causes, getF s F.PENT_PSEQ_PSEQ + 1, opsec s, getF s F.AON_PCYCLES_COUNT, aonMs s, fatal,
   getF s F.LOG_HEAD_SEQ, ((List.range 18).map fun i => if on (pentRegs.getD i 0) then 2 ^ i else 0).sum,
   pentRegs.map fun a => if on a then readReg s a else 0, logTail s, scratchBytes s, s.pent.coxArea, false⟩

/-- A trigger of the black box (R588, R589): a snapshot begins, or the cause joins the one being written, or it is missed because
slot NEXT is not yet erased. -/
def pentTrigger (s : State) (cause fatal : Nat) : State :=
  match s.pent.writing with
  | some w =>
    let code := if cause = 1 then fatal else w.fatalCode
    { s with pent := { s.pent with writing := some { w with causes := w.causes ||| 2 ^ cause, fatalCode := code } } }
  | none =>
    if s.pent.nextErased then
      setF { s with pent := { s.pent with writing := some (pentCapture s (2 ^ cause) fatal) } } F.PENT_STATUS_BUSY 1
    else logEv (setF s F.PENT_STATUS_MISSED 1) EV.pentMissed (2 ^ cause) 0 0

/-- The snapshot being written completes with its PCRC (R588): NEXT advances modulo 64 and TAKEN is set. -/
def execPentSnapshotEnd (s : State) : Res :=
  match s.pent.writing with
  | none => .next s
  | some w =>
    let s := { s with pent := { s.pent with writing := none, nextErased := false, slots := s.pent.slots ++ [{ w with complete := true }] } }
    let s := setF (setF s F.PENT_STATUS_BUSY 0) F.PENT_STATUS_NEXT ((w.slot + 1) % 64)
    .next (setF (setF s F.PENT_PSEQ_PSEQ w.pseq) F.PENT_STATUS_TAKEN 1)

/-- The front end erases slot NEXT in the background (R588). -/
def execPentSlotErase (s : State) : Res :=
  .next { s with pent := { s.pent with nextErased := true,
                                       slots := s.pent.slots.filter fun p => p.slot != getF s F.PENT_STATUS_NEXT } }

/-- The 65,536 bytes of a slot as PENT_WINDOW and PENT_READ show them (Table 20-3); an erased slot reads erased bytes. -/
def pentBytes (s : State) (slot : Nat) : Bytes :=
  match s.pent.slots.find? fun p => p.slot == slot with
  | none => erased 65536
  | some p =>
    let head := le 4 0x33585A41 ++ le 1 3 ++ le 1 p.slot ++ le 2 p.causes ++ le 8 p.pseq ++ le 4 p.opsec ++ le 4 p.pcycles ++
      le 4 p.aonMs ++ le 4 p.fatalCode ++ le 8 p.logHead ++ le 4 p.regValid ++ zeros 20 ++ (p.regs.map (le 8)).flatten ++ zeros 3888
    let tail := (p.logTail.map recBytes).flatten
    let body := head ++ tail ++ erased (16384 - tail.length) ++ fit p.scratch 16384 ++ fit p.coxArea 4096 ++ erased 24572
    if p.complete then body ++ le 4 (crc32c body) else body ++ erased 4

end Sys2Proof.Machine
end

