-- ==== Sys2Proof/Machine/PowerOps.lean ====
section
/-! DEFINITION. Operations of the always-on domain that several chapters use (18): power codes, the counter ring, wakes. -/

namespace Sys2Proof.Machine

/-- The POWER code of Table 17-4: 0 DOCK, 1 PADDLE, 2 RACE. -/
def powerCode (s : State) : Nat := if domainOn s .lanes then 2 else if domainOn s .core then 1 else 0

/-- A power state coded as PWR_CTRL.TARGET (Table 18-7). -/
def pstateCode : PState → Nat
  | .deepDock => 0
  | .dock => 1
  | .paddle => 2
  | .race => 3

/-- The domains that Table 01-4 lists as on in a power state; FLASH counts as needed in PADDLE. -/
def pstateDomains : PState → List Domain
  | .deepDock => [.aon]
  | .dock => [.aon, .svc]
  | .paddle => [.aon, .svc, .cox, .core, .dram, .flash, .lane0]
  | .race => [.aon, .svc, .cox, .core, .crew2, .dram, .flash, .lane0, .lanes]

/-- The device sleeps: PWR_STATUS.STATE is DOCK or DEEP DOCK. -/
def asleep (s : State) : Bool := decide (getF s F.PWR_STATUS_STATE ≤ 1)

/-- A record of OPSEC and PCYCLES appended to the counter ring of 65,536 records (R541). -/
def counterRecord (s : State) : State :=
  let q := ((s.pwr.ring.map fun r => r.2.2).foldl max 0) + 1
  let keep := if s.pwr.ring.length ≥ 65536 then s.pwr.ring.drop 4096 else s.pwr.ring
  { s with pwr := { s.pwr with ring := keep ++ [(opsec s, getF s F.AON_PCYCLES_COUNT, q)], recordAt := s.now } }

/-- The operating-seconds counter set to count on from a value. -/
def opsecSet (s : State) (v : Nat) : State := { s with pwr := { s.pwr with opsecBase := v, opsecAt := s.now } }

/-- The service frame WAKE for a hull number, to every node of the segment (R538, Table 17-1), without FCS. XID is the sender's choice. -/
def wakeFrame (s : State) (hull : Nat) : Bytes :=
  List.replicate 6 0xFF ++ le 6 (getF s F.SVC_ADDR_ADDR) ++ [0x88, 0xB6] ++ le 4 0x33515A41 ++ [2, 0, 0, 0] ++ le 8 hull ++ zeros 24 ++ zeros 6

/-- A wake from DOCK or DEEP DOCK (R540, R545, Table 18-3 step 1): the cause is latched, AON_WAKE_AT cleared, EV_WAKE recorded, the
watchdog counts again, and the start from sleep begins. -/
def wakeDevice (s : State) (cause pattern : Nat) : State :=
  let s := setF (setF s F.PWR_WAKE_CAUSE_CAUSE cause) F.AON_WAKE_AT_SECONDS 0
  let s := logEv s EV.wake cause (if cause = 2 then pattern else 0) 0
  let wdog := if flag s F.AON_WDOG_ENABLE then some (s.now + getF s F.AON_WDOG_SECONDS * sec) else none
  { s with pwr := { s.pwr with waking := true, wakeLatched := none, wdogAt := wdog } }

/-- A wake event: asleep it starts the device, during a power-down it is latched, awake it does nothing (R532). -/
def wakeEvent (s : State) (cause pattern : Nat) : State :=
  match s.pwr.move with
  | some .dock | some .deepDock =>
    if s.pwr.wakeLatched.isSome then s
    else setF { s with pwr := { s.pwr with wakeLatched := some (cause, pattern) } } F.PWR_WAKE_CAUSE_CAUSE cause
  | _ => if asleep s && !s.pwr.waking then wakeDevice s cause pattern else s

end Sys2Proof.Machine
end

