-- ==== Sys2Proof/Machine/Hte.lean ====
section
/-! DEFINITION. Operations of the host transport engine (02): session contexts, replies, the ends of commands and sessions, entries for
crew firmware, and the state words of R64. -/

namespace Sys2Proof.Machine

/-! ### Status codes (Table 03-1) -/

/-- ST_OK. -/
def ST.ok : Nat := 0x0000
/-- ST_OK_DEGRADED. -/
def ST.okDegraded : Nat := 0x0001
/-- ST_PENDING. -/
def ST.pending : Nat := 0x0002
/-- ST_MALFORMED. -/
def ST.malformed : Nat := 0x0100
/-- ST_UNKNOWN_OPCODE. -/
def ST.unknownOpcode : Nat := 0x0101
/-- ST_STATE_CONFLICT. -/
def ST.stateConflict : Nat := 0x0102
/-- ST_AUTH_FAILED. -/
def ST.authFailed : Nat := 0x0103
/-- ST_NOT_PERMITTED. -/
def ST.notPermitted : Nat := 0x0104
/-- ST_TOO_LARGE. -/
def ST.tooLarge : Nat := 0x0105
/-- ST_LENGTH. -/
def ST.length : Nat := 0x0106
/-- ST_NOT_FOUND. -/
def ST.notFound : Nat := 0x0200
/-- ST_EXISTS. -/
def ST.exists : Nat := 0x0201
/-- ST_VERSION_MISMATCH. -/
def ST.versionMismatch : Nat := 0x0202
/-- ST_RETAINED. -/
def ST.retained : Nat := 0x0203
/-- ST_REDIRECT. -/
def ST.redirect : Nat := 0x0204
/-- ST_NO_SPACE. -/
def ST.noSpace : Nat := 0x0300
/-- ST_READ_ONLY. -/
def ST.readOnly : Nat := 0x0301
/-- ST_BUSY. -/
def ST.busy : Nat := 0x0302
/-- ST_DATA_LOST. -/
def ST.dataLost : Nat := 0x0400
/-- ST_INTEGRITY. -/
def ST.integrity : Nat := 0x0401
/-- ST_GROUP_SUSPENDED. -/
def ST.groupSuspended : Nat := 0x0402

/-! ### Session contexts (R50, R54, Table 02-3) -/

/-- A field of a session's attributes. -/
def sessAt (s : State) (id o n : Nat) : Nat := memNat s (sessBase + 128 * id + o) n

/-- A field of a session's attributes written. -/
def sessPut (s : State) (id o n v : Nat) : State := memWrite s (sessBase + 128 * id + o) (le n v)

/-- STATE of a session (R51): 0 FREE, 1 CONNECTED, 2 OPENED, 3 AUTHENTICATED, 4 CLOSING. -/
def sessState (s : State) (id : Nat) : Nat := sessAt s id 64 1
/-- KIND of a session: 0 host, 1 peer, 2 pair fall-back. -/
def sessKind (s : State) (id : Nat) : Nat := sessAt s id 65 1
/-- PEER_HULL of a session. -/
def sessHull (s : State) (id : Nat) : Nat := sessAt s id 72 8
/-- A session is neither FREE nor CLOSING. -/
def sessLive (s : State) (id : Nat) : Bool := decide (1 ≤ sessState s id) && decide (sessState s id ≤ 3)

/-- What a session has beyond its attributes. -/
def sessRec (s : State) (id : Nat) : Option Sess := s.hte.sessions.find? fun x => x.id == id

/-- A session's record replaced. -/
def putSess (s : State) (x : Sess) : State :=
  { s with hte := { s.hte with sessions := x :: s.hte.sessions.filter fun y => y.id != x.id } }

/-- A session's record changed, where it has one. -/
def modSess (s : State) (id : Nat) (f : Sess → Sess) : State :=
  match sessRec s id with
  | some x => putSess s (f x)
  | none => s

/-- A new session's record: the device's own REQ gives 7 retries, 7 RNR retries and no shorter timeout than it must (log entry 12), until a REQ of
the peer gives others. -/
def newSess (id comm : Nat) (initiator : Bool) : Sess :=
  { id := id, comm := comm, initiator := initiator, ready := false, nonce := [], peerNonce := [], handshakeAt := none, cause := 0, stepAt := 0, cnpTx := none,
    cnpRx := none, retries := 0, key := none, txSeq := 0, rxSeq := 0, ephCtx := 0, ephPub := [], peerEph := [], reads := [], raisedAt := none,
    retryMax := 7, rnrMax := 7, ackExp := 1, timerAt := 0, rnrs := 0, rnrWait := false }

/-- The first of `n` numbers from `i` on that passes a test. -/
def firstIdx (p : Nat → Bool) : Nat → Nat → Option Nat
  | 0, _ => none
  | n + 1, i => if p i then some i else firstIdx p n (i + 1)

/-- The first FREE session context that no request of this device waits for. -/
def freeSession (s : State) : Option Nat :=
  firstIdx (fun id => sessState s id == 0 && !(s.hte.sessions.any fun x => x.id == id)) 65536 0

/-- The AUTHENTICATED session of a kind with a peer. -/
def peerSession (s : State) (kind hull : Nat) : Option Nat :=
  (s.hte.sessions.find? fun x => sessState s x.id == 3 && sessKind s x.id == kind && sessHull s x.id == hull).map Sess.id

/-- A session of a kind with a peer in any state but FREE and CLOSING. -/
def anySession (s : State) (kind hull : Nat) : Option Nat :=
  (s.hte.sessions.find? fun x => sessLive s x.id && sessKind s x.id == kind && sessHull s x.id == hull).map Sess.id

/-! ### Entries for crew firmware (R85 to R88) -/

/-- An entry for the exception queue: posted, or held while the queue is full or entries are held before it (R85). -/
def postExc (s : State) (e : Bytes) : State :=
  let hold := { s with hte := { s.hte with excHeld := s.hte.excHeld ++ [fit e 64] } }
  if !s.hte.excHeld.isEmpty || !(flag s F.HTE_EXC_QUEUE_VALID) then hold
  else
    let p := wqPost s (getF s F.HTE_EXC_QUEUE_QUEUE) (fit e 64)
    if p.2 then p.1 else hold

/-- Held entries posted in order while there is room. -/
def excDrain : List Bytes → State → State
  | [], s => { s with hte := { s.hte with excHeld := [] } }
  | e :: es, s =>
    let p := if flag s F.HTE_EXC_QUEUE_VALID then wqPost s (getF s F.HTE_EXC_QUEUE_QUEUE) e else (s, false)
    if p.2 then excDrain es p.1 else { s with hte := { s.hte with excHeld := e :: es } }

/-! ### Ends of sessions and commands (R51, R53, R91) -/

/-- COMMON of an entry that the engine posts: every HTE entry is SIZE 1 (R85, Table 12-2); the queue manager sets the phase. -/
def hteCommon (op : Nat) : Bytes := le 1 op ++ [0, 1] ++ zeros 5

/-- CLOSING with OUTSTANDING 0 becomes FREE: HTE_CLOSED is posted and the context cleared (Table 02-2, Table 02-12). -/
def sessFree (s : State) (id : Nat) : State :=
  if sessState s id = 4 ∧ sessAt s id 70 2 = 0 then
    let kind := sessKind s id
    let cause := ((sessRec s id).map Sess.cause).getD 0
    let s := postExc s (hteCommon 0x71 ++ le 2 id ++ le 1 kind ++ le 1 cause ++ le 2 (if kind = 0 then sessAt s id 66 2 else 0) ++
      zeros 2 ++ le 8 (if kind = 0 then 0 else sessHull s id))
    let s := if kind = 0 then setF s F.HTE_SESSIONS_OPEN (getF s F.HTE_SESSIONS_OPEN - 1) else s
    let s := memWrite s (sessBase + 128 * id) (zeros 128)
    { s with hte := { s.hte with sessions := s.hte.sessions.filter fun x => x.id != id } }
  else s

/-- The command of a slot. -/
def cmdOf (s : State) (i : Nat) : Option Cmd := s.hte.cmds.find? fun c => c.index == i

/-- A command's record replaced. -/
def putCmd (s : State) (c : Cmd) : State :=
  { s with hte := { s.hte with cmds := s.hte.cmds.map fun d => if d.index == c.index then c else d } }

/-- A command ends: it counts no longer, its slot and capsule copy are free (R91). -/
def endCmd (s : State) (c : Cmd) : State :=
  let s := { s with hte := { s.hte with cmds := s.hte.cmds.filter fun d => d.index != c.index,
                                        fetches := s.hte.fetches.filter fun f => f.user != c.index } }
  let s := sessPut s c.session 70 2 (sessAt s c.session 70 2 - 1)
  sessFree (setF s F.HTE_OUTSTANDING_COUNT (getF s F.HTE_OUTSTANDING_COUNT - 1)) c.session

/-- The OPCODE of a capsule. -/
def capOp (b : Bytes) : Nat := fld b 0 1
/-- FLAGS bit i of a capsule. -/
def capFlag (b : Bytes) (i : Nat) : Bool := bitAt (fld b 1 1) i
/-- KEY_LEN. -/
def capKeyLen (b : Bytes) : Nat := fld b 2 2
/-- NSID. -/
def capNsid (b : Bytes) : Nat := fld b 4 2
/-- VALUE_LEN. -/
def capVlen (b : Bytes) : Nat := fld b 16 4
/-- BUF_LEN. -/
def capBufLen (b : Bytes) : Nat := fld b 32 4
/-- PARAM0. -/
def capP0 (b : Bytes) : Nat := fld b 36 4
/-- PARAM1. -/
def capP1 (b : Bytes) : Nat := fld b 40 8
/-- PARAM2. -/
def capP2 (b : Bytes) : Nat := fld b 48 8
/-- The key. -/
def capKey (b : Bytes) : Bytes := slice b 64 (capKeyLen b)
/-- The inline value. -/
def capInline (b : Bytes) : Bytes := b.drop (64 + alignUp (capKeyLen b) 8)

/-- The command takes its value by RDMA READ and has not all of it. -/
def valueShort (c : Cmd) : Bool :=
  (capOp c.capsule == 0x10 || capOp c.capsule == 0x14) && !(capFlag c.capsule 0) && decide (c.value.length < capVlen c.capsule)

/-- The commands of a session that end when it enters CLOSING: a PUT of the engine whose value is not read in full has no effect, and a detached
command whose operation has ended waits for no release (R53). A command handed on stays outstanding until crew firmware ends it (R91). -/
def closeCmds : List Cmd → State → State
  | [], s => s
  | c :: cs, s =>
    closeCmds cs (if (valueShort c && c.reason == 0) || c.ended then endCmd s c else putCmd s { c with handle := none, result := none, released := true })

/-- An HTE entry ends with its completion of Table 02-14: COOKIE and HSTATUS. -/
def hteDone (s : State) (t : Taken) (hstatus : Nat) : State :=
  entryEnd s t (slice t.bytes 24 8 ++ le 1 hstatus ++ zeros 3) (hstatus != 0)

/-- The HTE_RDMA_READ entries whose requests are outstanding on a session end with an HSTATUS. -/
def endReads (s : State) (id hstatus : Nat) : State :=
  let l := (((sessRec s id).map Sess.reads).getD []).filter fun r => decide (r.1 ≥ 2 ^ 20)
  let s := l.foldl (fun s r => match openAt s (r.1 - 2 ^ 20) r.2.1 0x74 with | some t => hteDone s t hstatus | none => s) s
  modSess s id fun x => { x with reads := [] }

/-- A session enters CLOSING with a cause of Table 02-12 (R53). -/
def sessClose (s : State) (id cause : Nat) : State :=
  if sessLive s id then
    let s := endReads s id (if cause = 2 then 3 else 2)
    let s := modSess (sessPut s id 64 1 4) id fun x => { x with cause := cause, handshakeAt := none, ready := false }
    sessFree (closeCmds (s.hte.cmds.filter fun c => c.session == id) s) id
  else s

/-- DREQ sent. -/
def sendDreq (s : State) (id : Nat) : State := emit s (.cm 4 id 0 [])

/-- A session closed by the device: CLOSING, then DREQ. -/
def sessDrop (s : State) (id cause : Nat) : State := if sessLive s id then sendDreq (sessClose s id cause) id else s

/-! ### Replies (R63, R64, R67) -/

/-- A reply message (Table 02-7). -/
def replyBytes (cap : Bytes) (status flags vlen r0 r1 : Nat) (body : Bytes) : Bytes :=
  fit (slice cap 8 8) 8 ++ le 2 status ++ le 1 (capOp cap) ++ le 1 flags ++ le 4 vlen ++ le 8 r0 ++ le 8 r1 ++ body

/-- The reply counters of Table 02-9. -/
def countStatus (s : State) (status : Nat) : State :=
  if status = ST.busy then countF s F.HTE_CNT_BUSY_COUNT 1
  else if status = ST.malformed then countF s F.HTE_CNT_MALFORMED_COUNT 1
  else if status = ST.redirect then countF s F.HTE_CNT_REDIRECT_COUNT 1
  else if status = ST.authFailed then countF s F.HTE_CNT_AUTH_FAIL_COUNT 1
  else s

/-- A reply sent on a host session that the engine itself refuses a capsule of, and counted. -/
def refuse (s : State) (id : Nat) (msg : Bytes) : State := countStatus (emit s (.host id msg)) (fld msg 8 2)

/-- A reply sent on a host session; none on a session that is CLOSING or FREE (R53). -/
def hostSend (s : State) (id : Nat) (msg : Bytes) : State :=
  if sessLive s id then refuse s id msg else s

/-- The final reply of a command: sent, and the command ends; a detached command keeps it as its result until it is released, and
discards it if it was (R79, R82). -/
def finish (s : State) (c : Cmd) (msg : Bytes) : State :=
  if c.handle.isSome && !c.released && sessLive s c.session then putCmd s { c with result := some msg, ended := true }
  else if c.released then endCmd s c
  else endCmd (hostSend s c.session msg) c

/-- A final reply without data. -/
def answer (s : State) (c : Cmd) (status r0 r1 : Nat) : State := finish s c (replyBytes c.capsule status 0 0 r0 r1 [])

/-- A final reply that returns data (R67). -/
def answerData (s : State) (c : Cmd) (status r0 r1 : Nat) (d : Bytes) : State :=
  if capFlag c.capsule 0 && decide (d.length ≤ 4096) then finish s c (replyBytes c.capsule status 1 d.length r0 r1 d)
  else if capBufLen c.capsule ≥ d.length then
    let s := if d = [] || !(sessLive s c.session) then s else emit s (.rdmaWrite c.session (fld c.capsule 24 8) (fld c.capsule 20 4) d)
    finish s c (replyBytes c.capsule status 0 d.length r0 r1 [])
  else finish s c (replyBytes c.capsule ST.tooLarge 0 d.length 0 (if capOp c.capsule = 0x11 then r1 else 0) [])

/-- RESULT0 of R64: device state, group state (0xFF where none is concerned), session state. -/
def stateWord (s : State) (gstate sess : Nat) : Nat := s.pwr.dev + 256 * gstate + 65536 * sess

/-- A command handle (R86). -/
def cmdId (c : Cmd) : Nat := c.index + 2 ^ 18 * (c.gen % 2 ^ 14)

/-- A final ST_STATE_CONFLICT, ST_READ_ONLY or ST_GROUP_SUSPENDED reply (R64, R140). -/
def conflict (s : State) (c : Cmd) (status gstate hint : Nat) : State :=
  answer s c status (stateWord s gstate (sessState s c.session)) hint

/-- The accepted command of a slot with an opcode, not yet ended. -/
def cmdWith (s : State) (i op : Nat) : Option Cmd :=
  match cmdOf s i with
  | some c => if capOp c.capsule = op ∧ c.ended = false then some c else none
  | none => none

/-- A command with ORDERED 1 waits while an earlier command of its session has not replied (R72). -/
def orderedWaits (s : State) (c : Cmd) : Bool :=
  capFlag c.capsule 2 && s.hte.cmds.any fun d => d.session == c.session && decide (d.order < c.order) && d.handle.isNone && !d.released && !d.ended

/-- An earlier command of the session on the same namespace and key has not ended (R71). -/
def keyWaits (s : State) (c : Cmd) : Bool :=
  decide (capKeyLen c.capsule > 0) && s.hte.cmds.any fun d =>
    d.session == c.session && decide (d.order < c.order) && !d.ended && decide (capKeyLen d.capsule > 0) &&
      capNsid d.capsule == capNsid c.capsule && capKey d.capsule == capKey c.capsule

/-- The entry of a command handed on still waits for room in the exception queue (R85). -/
def entryHeld (s : State) (c : Cmd) : Bool := s.hte.excHeld.any fun e => fld e 0 1 == 0x70 && fld e 8 4 == cmdId c

/-- The mark, in place of a reason, of a command whose capsule the engine holds until a rig swap has ended (R306). -/
def heldForSwap : Nat := 254

/-- A command of a slot may start: not before the earlier commands of R71 and R72, nor before crew firmware has its entry, nor while a swap holds it. -/
def cmdReady (s : State) (c : Cmd) : Bool := !(orderedWaits s c) && !(keyWaits s c) && !(entryHeld s c) && c.reason != heldForSwap

/-- The meaning of a session or key-value opcode for the command of a slot: nothing where no such command is accepted or its turn has not
come (log entry 30). -/
def onCmd (s : State) (i op : Nat) (run : State → Cmd → Res) : Res :=
  whileCore s fun s =>
  match cmdWith s i op with
  | some c => if cmdReady s c then run s { c with started := true } else .next s
  | none => .next s

end Sys2Proof.Machine
end

