-- ==== Sys2Proof/Machine/Index.lean ====
section
/-! DEFINITION. The object index (04): hashes, the slice table, directory words, buckets and their changes. -/

namespace Sys2Proof.Machine

/-! ### Keys (R142, R143) -/

/-- The namespace of an NSID. -/
def nsOf (s : State) (nsid : Nat) : Option Namespace := s.kv.nss.find? fun n => n.nsid == nsid

/-- The salt of a namespace; namespace 0 has the all-zero salt. -/
def saltOf (s : State) (nsid : Nat) : Bytes := if nsid = 0 then zeros 16 else fit (((nsOf s nsid).map Namespace.salt).getD []) 16

/-- The fingerprint H of a key. -/
def keyHash (s : State) (nsid : Nat) (key : Bytes) : Nat := sipHash24 (saltOf s nsid) key

/-- The key check KC. -/
def keyCheck (s : State) (nsid : Nat) (key : Bytes) : Nat :=
  let t := saltOf s nsid
  sipHash24 (t.drop 8 ++ t.take 8) key % 2 ^ 21

/-- The slice of a fingerprint. -/
def hashSlice (h : Nat) : Nat := h / 2 ^ 48 % 65536

/-- The bucket of a fingerprint in a slice of 2^B buckets (R145). -/
def hashBucket (h b : Nat) : Nat := bits h (48 - b) b

/-! ### Slice table and directory (Tables 04-1 and 04-2) -/

/-- The address of a slice's entry. -/
def sliceAddr (s : State) (x : Nat) : Nat := getF s F.HTE_SLICE_BASE_ADDR * 4096 + 8 * x
/-- The slice table entry of a slice. -/
def sliceWord (s : State) (x : Nat) : Nat := peekNat s (sliceAddr s x) 8
/-- VALID. -/
def sliceHeld (s : State) (x : Nat) : Bool := bitAt (sliceWord s x) 63
/-- ACTING. -/
def sliceActing (s : State) (x : Nat) : Bool := bitAt (sliceWord s x) 62
/-- LOG2B. -/
def sliceB (s : State) (x : Nat) : Nat := bits (sliceWord s x) 32 5
/-- DIR_START. -/
def sliceDir (s : State) (x : Nat) : Nat := bits (sliceWord s x) 0 25

/-- A slice table entry written by crew firmware (R148). -/
def putSliceWord (s : State) (x w : Nat) : State := crewStore s (sliceAddr s x) (le 8 w)

/-- ACTING of a held slice set or cleared; a slice gained is no longer one that SLICE_DISOWN has named. -/
def setActing (s : State) (x : Nat) (on : Bool) : State :=
  let s := if on then { s with kv := { s.kv with disowned := s.kv.disowned.filter (· != x) } } else s
  let w := sliceWord s x
  if bitAt w 62 = on then s else putSliceWord s x (if on then w + 2 ^ 62 else w - 2 ^ 62)

/-- The directory index of a bucket (R147). -/
def dirIndex (s : State) (x bucket : Nat) : Nat := sliceDir s x + bucket
/-- The address of a directory word. -/
def dirAddr (s : State) (x bucket : Nat) : Nat := getF s F.HTE_DIR_BASE_ADDR * 4096 + 8 * dirIndex s x bucket
/-- A directory word. -/
def dirWord (s : State) (x bucket : Nat) : Nat := peekNat s (dirAddr s x bucket) 8
/-- STATE: 0 EMPTY, 1 FLASH, 2 CLEAN, 3 DIRTY. -/
def dirState (s : State) (x bucket : Nat) : Nat := bits (dirWord s x bucket) 62 2
/-- BUSY. -/
def dirBusy (s : State) (x bucket : Nat) : Bool := bitAt (dirWord s x bucket) 61
/-- SLOT. -/
def dirSlot (s : State) (x bucket : Nat) : Nat := bits (dirWord s x bucket) 25 19

/-- A directory word written by a requester. -/
def putDir (s : State) (rid x bucket st busy count holds slot : Nat) : State :=
  storeAs s rid (dirAddr s x bucket) (le 8 (st * 2 ^ 62 + busy * 2 ^ 61 + count * 2 ^ 51 + holds * 2 ^ 44 + slot * 2 ^ 25 + bits (dirWord s x bucket) 0 25))

/-- The slices this device holds. -/
def heldSlices (s : State) : List Nat := (s.kv.slices.map Slice.slice).filter (sliceHeld s)

/-- The buckets of a slice in ascending order. -/
def bucketsOf (s : State) (x : Nat) : List Nat := List.range (2 ^ sliceB s x)

/-- A bucket cache slot that no resident bucket has, the lowest (log entry 31). -/
def freeSlot (s : State) : Option Nat :=
  let used := ((heldSlices s).map fun x => ((bucketsOf s x).filter fun b => decide (dirState s x b ≥ 2)).map (dirSlot s x)).flatten
  (List.range 524288).find? fun i => !(used.contains i)

/-! ### Buckets (Tables 04-4 to 04-6) -/

/-- The address of a resident bucket. -/
def bucketAddr (s : State) (slot : Nat) : Nat := getF s F.HTE_BCACHE_BASE_ADDR * 16384 + 16384 * slot

/-- COUNT of a bucket. -/
def bkCount (b : Bytes) : Nat := fld b 6 2
/-- HOLDS of a bucket. -/
def bkHolds (b : Bytes) : Nat := fld b 8 2
/-- WRITE_SEQ. -/
def bkSeq (b : Bytes) : Nat := fld b 24 8
/-- VERSION_MAX. -/
def bkVersion (b : Bytes) : Nat := fld b 32 8

/-- A bucket's CRC brought up to date. -/
def bkSeal (b : Bytes) : Bytes := patch b 16368 (le 4 (crc32c (b.take 16368)))

/-- An empty bucket of a slice. -/
def newBucket (s : State) (x bucket group : Nat) : Bytes :=
  bkSeal (fit (le 4 0x33425A41 ++ [3, 0] ++ zeros 4 ++ le 1 (sliceB s x) ++ [0] ++ le 4 group ++ le 2 x ++ zeros 2 ++ le 4 bucket) 16384)

/-- An index entry with its slot word (Table 04-5). -/
structure Entry where
  nsid : Nat
  kc : Nat
  fpLow : Nat
  seat : Nat
  serial : Nat
  unit : Nat
  length : Nat
  version : Nat

/-- The 24 bytes of an entry. -/
def entryBytes (e : Entry) : Bytes :=
  le 8 (e.nsid * 2 ^ 52 + e.kc % 8192 * 2 ^ 39 + e.fpLow % 2 ^ 39) ++ le 8 (e.seat * 2 ^ 59 + e.serial * 32 + e.unit) ++
    le 8 (e.length * 2 ^ 32 + e.version % 2 ^ 32)

/-- The slot word of an entry. -/
def entrySlotWord (e : Entry) : Nat := e.version / 2 ^ 32 * 256 + e.kc / 8192

/-- An entry read from its 24 bytes and slot word. -/
def readEntry (b : Bytes) (w : Nat) : Entry :=
  let a := fld b 0 8
  let l := fld b 8 8
  let v := fld b 16 8
  ⟨bits a 52 12, w % 256 * 8192 + bits a 39 13, bits a 0 39, bits l 59 5, bits l 5 54, bits l 0 5, bits v 32 32, w / 256 * 2 ^ 32 + bits v 0 32⟩

/-- STRIPE_ID with UNIT 0 of an entry's first stripe. -/
def Entry.stripe (e : Entry) : Nat := e.seat * 2 ^ 59 + e.serial * 32

/-- Entry i of a bucket. -/
def bkEntry (b : Bytes) (i : Nat) : Entry := readEntry (slice b (64 + 24 * i) 24) (fld b (12352 + 4 * i) 4)

/-- The entries of a bucket in stored order. -/
def bkEntries (b : Bytes) : List Entry := (List.range (bkCount b)).map (bkEntry b)

/-- The entry of a key in a bucket (R158). -/
def bkFind (b : Bytes) (nsid fpLow kc : Nat) : Option Nat :=
  (List.range (bkCount b)).find? fun i => let e := bkEntry b i; e.nsid == nsid && e.fpLow == fpLow && e.kc == kc

/-- An entry's place in a bucket written. -/
def bkPut (b : Bytes) (i : Nat) (e24 : Bytes) (w : Nat) : Bytes := patch (patch b (64 + 24 * i) (fit e24 24)) (12352 + 4 * i) (le 4 w)

/-- A hold record: entry, HKIND, HOLD_SERIAL, EXPIRY. -/
structure Hold where
  slot : Nat
  kind : Nat
  serial : Nat
  expiry : Nat

/-- Hold record i of a bucket. -/
def bkHold (b : Bytes) (i : Nat) : Hold := let o := 14400 + 16 * i; ⟨fld b o 2, fld b (o + 2) 1, fld b (o + 4) 4, fld b (o + 8) 8⟩

/-- The hold record of an entry. -/
def bkHoldOf (b : Bytes) (slot : Nat) : Option Nat := (List.range (bkHolds b)).find? fun i => (bkHold b i).slot == slot

/-- A hold record's bytes. -/
def holdBytes (h : Hold) : Bytes := le 2 h.slot ++ le 1 h.kind ++ [0] ++ le 4 h.serial ++ le 8 h.expiry

/-- The hold records laid out anew. -/
def bkSetHolds (b : Bytes) (hs : List Hold) : Bytes :=
  patch (patch b 8 (le 2 hs.length)) 14400 (fit ((hs.map holdBytes).flatten) 1968)

/-- The hold records of a bucket. -/
def bkHoldList (b : Bytes) : List Hold := (List.range (bkHolds b)).map (bkHold b)

/-- Entry i removed: the last entry takes its place, holds follow (R154). -/
def bkRemove (b : Bytes) (i : Nat) : Bytes :=
  let n := bkCount b - 1
  let hs := (bkHoldList b).filter fun h => h.slot != i
  let hs := hs.map fun h => if h.slot = n then { h with slot := i } else h
  let b := if i = n then b else bkPut b i (slice b (64 + 24 * n) 24) (fld b (12352 + 4 * n) 4)
  bkSetHolds (patch (bkPut b n (zeros 24) 0) 6 (le 2 n)) hs

/-! ### Index changes (Table 06-5) -/

/-- The 64 bytes of an index change. -/
def changeBytes (op hkind slice bucket : Nat) (entry : Bytes) (slotWord holdSerial expiry version : Nat) : Bytes :=
  le 1 op ++ le 1 hkind ++ le 2 slice ++ le 4 bucket ++ zeros 8 ++ fit entry 24 ++ le 4 slotWord ++ le 4 holdSerial ++ le 8 expiry ++ le 8 version

/-- OP, slice and bucket of a change. -/
def chOp (c : Bytes) : Nat := fld c 0 1
/-- SLICE of a change. -/
def chSlice (c : Bytes) : Nat := fld c 2 2
/-- BUCKET of a change. -/
def chBucket (c : Bytes) : Nat := fld c 4 4
/-- WSEQ of a change. -/
def chWseq (c : Bytes) : Nat := fld c 8 8

/-- The entry key of a change in a bucket: its place, where it is in use. -/
def chFind (b c : Bytes) : Option Nat :=
  if chOp c = 1 then let e := readEntry (slice c 16 24) (fld c 40 4); bkFind b e.nsid e.fpLow e.kc
  else (List.range (bkCount b)).find? fun i =>
    fld b (64 + 24 * i) 8 == fld c 16 8 && (chOp c == 2 || chOp c == 3) && fld b (12352 + 4 * i) 1 % 256 == fld c 40 4 % 256

/-- A change applied to a bucket; none where it needs a place that the bucket does not have. VERSION_MAX rises to its VERSION (R154, R157,
R163). `expired` says whether a hold record with an expiry may be reused. -/
def applyChange (expired : Hold → Bool) (b c : Bytes) : Option Bytes :=
  let b := patch b 32 (le 8 (max (bkVersion b) (fld c 56 8)))
  if chOp c = 1 then
    match chFind b c with
    | some i => some (bkSeal (bkPut b i (slice c 16 24) (fld c 40 4)))
    | none =>
      let n := bkCount b
      if n ≥ 512 then none else some (bkSeal (patch (bkPut b n (slice c 16 24) (fld c 40 4)) 6 (le 2 (n + 1))))
  else if chOp c = 2 then
    match chFind b c with
    | some i => some (bkSeal (bkRemove b i))
    | none => some (bkSeal b)
  else if chOp c = 3 then
    match chFind b c with
    | none => some (bkSeal b)
    | some i =>
      let h : Hold := ⟨i, fld c 1 1, fld c 44 4, fld c 48 8⟩
      let hs := (bkHoldList b).filter fun x => x.slot != i
      if h.kind = 0 then some (bkSeal (bkSetHolds b hs))
      else
        let hs := if hs.length < 123 then hs else
          match hs.find? expired with
          | some x => hs.filter fun y => y.slot != x.slot
          | none => hs
        if hs.length ≥ 123 then none else some (bkSeal (bkSetHolds b (hs ++ [h])))
  else some b

/-! ### Resident buckets -/

/-- The device index key (R156), which Cox keeps in slot 1. -/
def indexKey (s : State) : Bytes := fit (((slotOf s 1).map KeySlot.key).getD []) 64

/-- The bytes of a bucket's newest NAND page, decrypted; none where there is none or its CRC is wrong. -/
def bucketNand (s : State) (x bucket : Nat) : Option Bytes :=
  match s.media.buckets.find? fun i => i.slice == x && i.bucket == bucket with
  | none => none
  | some i =>
    match strideAt s i.bsn i.page with
    | none => none
    | some st =>
      let b := xtsUnit false (indexKey s) (x * 2 ^ 32 + bucket) (fit ((st.planes[i.plane]?.map Prod.fst).getD []) 16384)
      if fld b 0 4 = 0x33425A41 ∧ fld b 16368 4 = crc32c (b.take 16368) then some b else none

/-- A resident bucket's bytes stored with its directory word by a requester. -/
def storeBucket (s : State) (rid x bucket slot st : Nat) (b : Bytes) : State :=
  putDir (storeAs s rid (bucketAddr s slot) b) rid x bucket st 0 (bkCount b) (bkHolds b) slot

/-- The bytes of a bucket for an access by the HTE command path, which reads the directory word and a resident bucket (R22, R30, requester 3): loaded from NAND
into a free slot where it is on flash only, and empty where it is EMPTY, which needs no slot (R149, R158). None while BUSY, or with no slot free
for a load, or where its NAND copy cannot be read. -/
def bucketGet (s : State) (x bucket : Nat) : Option (Bytes × State) :=
  if dirBusy s x bucket then none
  else
    let t := touch s 3 (dirAddr s x bucket) 8
    if dirState s x bucket ≥ 2 then
      some (peek s (bucketAddr s (dirSlot s x bucket)) 16384, touch t 3 (bucketAddr s (dirSlot s x bucket)) 16384)
    else if dirState s x bucket = 1 then
      match bucketNand s x bucket, freeSlot s with
      | some b, some slot => some (b, storeBucket t 0 x bucket slot 2 b)
      | _, _ => none
    else some (newBucket s x bucket ((activeView s).groupId ((activeView s).place x).group), t)

/-- A bucket that is about to be changed: an EMPTY one takes a free slot, where it is newer than any NAND copy (Table 04-2: DIRTY). -/
def bucketOpen (s : State) (x bucket : Nat) : Option (Bytes × State) :=
  match bucketGet s x bucket with
  | none => none
  | some (b, t) =>
    if dirState s x bucket = 0 then (freeSlot s).map fun slot => (b, storeBucket t 3 x bucket slot 3 b) else some (b, t)

/-- The bucket's bytes without loading it: [] where it is EMPTY or cannot be read. -/
def bucketLook (s : State) (x bucket : Nat) : Bytes :=
  if dirState s x bucket ≥ 2 then peek s (bucketAddr s (dirSlot s x bucket)) 16384
  else if dirState s x bucket = 1 then (bucketNand s x bucket).getD []
  else []

/-- A hold record's dated hold is over and it has no indefinite hold (R122, R163). -/
def holdOver (s : State) (h : Hold) : Bool :=
  h.kind % 2 == 0 && (match s.kv.retention with
    | some (v, at_) => decide (h.expiry ≤ v + (opsec s - at_))
    | none => false)

/-- The requester that writes a change: the HTE command path an entry, crew firmware a hold or a purge (Table 01-8; log entry 66). -/
def changeRid (c : Bytes) : Nat := if chOp c ≤ 2 then 3 else 0

/-- A change applied to the resident bucket (R159): none where the bucket has no place; its WSEQ is WRITE_SEQ plus 1 (R229). -/
def changeBucket (s : State) (c : Bytes) : Option (Bytes × State) :=
  match bucketOpen s (chSlice c) (chBucket c) with
  | none => none
  | some (b, s) =>
    match applyChange (holdOver s) b c with
    | none => none
    | some b' => some (patch c 8 (le 8 (bkSeq b + 1)), storeBucket s (changeRid c) (chSlice c) (chBucket c) (dirSlot s (chSlice c) (chBucket c)) 3 b')

/-- A change noted for a slice that has been copied in bulk for an epoch change (R214). -/
def noteDelta (s : State) (c : Bytes) : State :=
  if s.kv.copied.contains (chSlice c) then { s with kv := { s.kv with deltas := s.kv.deltas ++ [c] } } else s

/-- The PURGE change of a slice (Table 06-5). -/
def notePurge (s : State) (c : Bytes) : State :=
  { s with kv := { s.kv with slices := s.kv.slices.map fun x => if x.slice = chSlice c then { x with purge := fld c 48 8 } else x } }

/-- The hold serial of a slice, which is mirrored with its index, follows a HOLD change (R169). -/
def noteHold (s : State) (c : Bytes) : State :=
  let raise := fun (x : Slice) => if x.slice = chSlice c then { x with holdSerial := max x.holdSerial (fld c 44 4) } else x
  if chOp c = 3 then { s with kv := { s.kv with slices := s.kv.slices.map raise } } else s

/-- Changes applied one after another; those that find no place are recorded as EV_INDEX_BUCKET_FULL and left out (R162). The PURGE change
sets the slice's purge version. -/
def changeAll : List Bytes → State → State × List Bytes
  | [], s => (s, [])
  | c :: cs, s =>
    if chOp c = 4 then
      let r := changeAll cs (notePurge s c)
      (r.1, c :: r.2)
    else
      match changeBucket s c with
      | some (d, s) => let r := changeAll cs (noteHold (noteDelta s c) c); (r.1, d :: r.2)
      | none => let r := changeAll cs (logCrew s EV.indexBucketFull); (r.1, c :: r.2)

/-- The version counter of a slice: the greatest VERSION_MAX of its buckets (R157). -/
def sliceVersion (s : State) (x : Nat) : Nat := ((bucketsOf s x).map fun b => bkVersion (bucketLook s x b)).foldl max 0

/-! ### A key's place -/

/-- Where a key lies: slice, bucket, and the fields that compare. -/
structure KeyPlace where
  hash : Nat
  kc : Nat
  slice : Nat
  bucket : Nat

/-- The place of a key. The number of buckets is that of the slice table where the device holds the slice, else that of the rig. -/
def keyPlace (s : State) (nsid : Nat) (key : Bytes) : KeyPlace :=
  let h := keyHash s nsid key
  let x := hashSlice h
  ⟨h, keyCheck s nsid key, x, hashBucket h (if sliceHeld s x then sliceB s x else ((activeView s).place x).log2b)⟩

/-- The entry of a key in a bucket's bytes. -/
def entryOf (b : Bytes) (nsid : Nat) (p : KeyPlace) : Option Entry := (bkFind b nsid (p.hash % 2 ^ 39) p.kc).map (bkEntry b)

/-- The hold of a key in a bucket's bytes. -/
def keyHold (b : Bytes) (nsid : Nat) (p : KeyPlace) : Option Hold :=
  match bkFind b nsid (p.hash % 2 ^ 39) p.kc with
  | some i => (bkHoldOf b i).map (bkHold b)
  | none => none

/-- The slice record of crew firmware. -/
def sliceRec (s : State) (x : Nat) : Option Slice := s.kv.slices.find? fun y => y.slice == x

/-- What is kept of a slice that the device begins to hold. -/
def newSlice (x since : Nat) : Slice := ⟨x, 0, none, 0, 0, false, since, [], false⟩

/-- A slice record replaced. -/
def putSlice (s : State) (x : Slice) : State :=
  { s with kv := { s.kv with slices := x :: s.kv.slices.filter fun y => y.slice != x.slice } }

end Sys2Proof.Machine
end

