-- ==== Sys2Proof/Machine/Groups.lean ====
section
/-! DEFINITION. Peer messages and stripe groups (05, 07): message headers and trailers, requests, group states, lost seats, the rotation,
majority contact. -/

namespace Sys2Proof.Machine

/-! ### Peer messages (Tables 05-3 and 05-4, R201) -/

/-- A peer message header. -/
structure PeerHdr where
  op : Nat
  pflags : Nat := 0
  status : Nat := 0
  group : Nat := 0
  epoch : Nat := 0
  stripe : Nat := 0
  pos : Nat := 0
  gen : Nat := 0
  k : Nat := 0
  m : Nat := 0
  tag : Nat := 0
  arg0 : Nat := 0
  arg1 : Nat := 0

/-- The header and body of a message. -/
def peerBytes (h : PeerHdr) (body : Bytes) : Bytes :=
  let b := le 1 h.op ++ le 1 h.pflags ++ le 2 h.status ++ le 4 h.group ++ le 8 h.epoch ++ le 8 h.stripe ++ le 1 h.pos ++ le 1 h.gen ++
    le 1 h.k ++ le 1 h.m ++ le 4 body.length ++ le 8 h.tag ++ le 8 h.arg0 ++ le 8 h.arg1
  b ++ le 4 (crc32c b) ++ zeros 4 ++ body

/-- The header of a message. -/
def readPeer (b : Bytes) : PeerHdr :=
  ⟨fld b 0 1, fld b 1 1, fld b 2 2, fld b 4 4, fld b 8 8, fld b 16 8, fld b 24 1, fld b 25 1, fld b 26 1, fld b 27 1, fld b 32 8, fld b 40 8,
    fld b 48 8⟩

/-- LENGTH of a message. -/
def peerLen (b : Bytes) : Nat := fld b 28 4
/-- The body of a message. -/
def peerBody (b : Bytes) : Bytes := slice b 64 (peerLen b)

/-- The control opcodes of Tables 05-4 and 07-4. -/
def peerControl (op : Nat) : Bool := (decide (0x86 ≤ op) && decide (op ≤ 0x8F)) || op == 0x91 || op == 0x92

/-- The assigned peer opcodes. -/
def peerAssigned (op : Nat) : Bool := decide (0x80 ≤ op) && decide (op ≤ 0x93)

/-- The MAC of a control message: the first 16 bytes of HMAC-SHA-384 over direction, SEQ and the message with the MAC field zero. -/
def peerMac (key : Bytes) (dir seq : Nat) (msg : Bytes) : Bytes := (hmacSha384 key (le 1 dir ++ le 8 seq ++ msg ++ le 8 seq ++ zeros 16)).take 16

/-- A message sent on a session; a control message takes the next SEQ and its trailer. -/
def peerEmit (s : State) (id : Nat) (msg : Bytes) : State :=
  match sessRec s id with
  | none => s
  | some x =>
    if peerControl (fld msg 0 1) then
      let seq := x.txSeq + 1
      let s := putSess s { x with txSeq := seq }
      emit s (.peer id (msg ++ le 8 seq ++ peerMac (x.key.getD []) (if x.initiator then 0 else 1) seq msg))
    else emit s (.peer id msg)

/-- The session number a request bears while no session carries it. -/
def noSession : Nat := 65536

/-- The active rig epoch. -/
def activeEpoch (s : State) : Nat := getF s F.RIG_EPOCH_EPOCH

/-! ### Groups -/

/-- The group of a GROUP_ID on this device. -/
def groupRec (s : State) (id : Nat) : Option Group := s.groups.find? fun g => g.id == id

/-- A group's record replaced. -/
def putGroup (s : State) (g : Group) : State := { s with groups := s.groups.map fun h => if h.id == g.id then g else h }

/-- A seat is marked lost. -/
def Group.isLost (g : Group) (seat : Nat) : Bool := bitAt g.lost seat

/-- This device's own seat is marked lost in the group. -/
def Group.ownLost (g : Group) : Bool := g.isLost g.seat

/-- The GROUPS entry of a group under the active rig. -/
def groupIdx (s : State) (id : Nat) : Nat := ((activeView s).groupOfId id).getD 0

/-- The seats of a group. -/
def groupSeats (s : State) (id : Nat) : Nat := (activeView s).seats (groupIdx s id)

/-- The hull number at a seat of a group. -/
def seatHull (s : State) (id seat : Nat) : Nat := (activeView s).hull ((activeView s).seatDev (groupIdx s id) seat)

/-- The seat of a hull number in a group. -/
def hullSeat (s : State) (id hull : Nat) : Option Nat := (List.range (groupSeats s id)).find? fun t => seatHull s id t == hull

/-- The generator set of a GEN_ID in a group. -/
def genOf (s : State) (id gen : Nat) : Option GenSet := ((activeView s).setOf (groupIdx s id) gen).map (activeView s).genSet

/-- The seat of each position of a stripe (R188). -/
def stripeSeats (s : State) (id gen stripe : Nat) : List Nat :=
  match genOf s id gen with
  | none => []
  | some x =>
    let row := (bits stripe 5 54 + stripe / 2 ^ 59 * x.skew) % max x.rows 1
    (List.range (x.k + x.m)).map fun p => (activeView s).rot (x.rotFirst + row) p

/-- The writing set of a group. -/
def writingSet (s : State) (id : Nat) : Option GenSet := genOf s id ((activeView s).writing (groupIdx s id))

/-- What a seat's latest GROUP_STATUS said. -/
def Group.info (g : Group) (seat : Nat) : Option SeatInfo := g.seats.find? fun i => i.seat == seat

/-- A seat's report replaced. -/
def Group.setInfo (g : Group) (i : SeatInfo) : Group := { g with seats := i :: g.seats.filter fun j => j.seat != i.seat }

/-- A seat never heard from. -/
def noInfo (seat at_ : Nat) : SeatInfo := ⟨seat, at_, 0, 0, 0, 0, 0, 0, 0, [], []⟩

/-- A device is docked (R535): the latest GROUP_STATUS of its seat in some group reports 0x08. -/
def docked (s : State) (hull : Nat) : Bool := s.groups.any fun g => g.seats.any fun i => i.dev == 8 && seatHull s g.id i.seat == hull

/-- A docked seat that is needed is sent the service opcode WAKE, unless that has begun already (R538). -/
def wakeSeat (s : State) (hull : Nat) : State :=
  if s.pwr.wakes.any fun w => w.1 == hull then s
  else { s with pwr := { s.pwr with wakes := s.pwr.wakes ++ [(hull, s.now, s.now + 500 * ms)] },
                svc := { s.svc with replies := s.svc.replies ++ [wakeFrame s hull] } }

/-- The requests that R538 holds for a docked seat: FRAG_WRITE, FRAG_READ, ADMIN_FORWARD, ADMIN_RECORD, INVENTORY. -/
def wakeOps : List Nat := [0x81, 0x82, 0x88, 0x89, 0x90]

/-- The requests of this device outstanding on a session. -/
def outstanding (s : State) (id : Nat) : Nat := (s.hte.requests.filter fun r => r.session == id).length

/-- The session that carries a further request to a device: there is one, and fewer than 1,024 requests are outstanding on it (R202). -/
def requestSession (s : State) (hull : Nat) : Nat :=
  match peerSession s 1 hull with
  | some id => if outstanding s id < 1024 then id else noSession
  | none => noSession

/-- A request sent to a device, or kept until a session with it opens or has room (R202) or, of a docked one, until it wakes (R538); its TAG. -/
def peerRequest (s : State) (hull : Nat) (h : PeerHdr) (body : Bytes) : State × Nat :=
  let tag := s.hte.nextTag
  let held := docked s hull && wakeOps.contains h.op
  let s := if held then wakeSeat s hull else s
  let id := if held then noSession else requestSession s hull
  let msg := peerBytes { h with epoch := activeEpoch s, tag := tag } body
  let s := { s with hte := { s.hte with nextTag := tag + 1,
                                        requests := s.hte.requests ++ [⟨id, tag, h.op, msg, s.now, s.now, hull⟩] } }
  (peerEmit s id msg, tag)

/-- Requests answered or given up. -/
def dropRequests (s : State) (p : PeerReq → Bool) : State :=
  { s with hte := { s.hte with requests := s.hte.requests.filter fun r => !(p r) } }

/-- A request sent again (R208, R212, R231). -/
def resendRequest (s : State) (r : PeerReq) : State :=
  let id := (peerSession s 1 r.hull).getD noSession
  let s := { s with hte := { s.hte with requests := s.hte.requests.map fun q => if q.tag == r.tag then { q with sentAt := s.now, session := id } else q } }
  peerEmit s id r.msg

/-- A reply to a message of a session. -/
def peerReply (s : State) (id : Nat) (req : Bytes) (status : Nat) (arg0 arg1 : Nat) (body : Bytes) (void : Bool := false) : State :=
  let h := readPeer req
  if !(sessLive s id) then s
  else peerEmit s id (peerBytes { h with pflags := 1 + 2 * b2n void, status := status, epoch := activeEpoch s, arg0 := arg0, arg1 := arg1 } body)

/-- A seat was heard from within 500 ms. -/
def Group.heard (g : Group) (s : State) (seat : Nat) : Bool :=
  match g.info seat with
  | some i => i.dev != 0 && decide (s.now < i.heardAt + 500 * ms)
  | none => false

/-- Majority contact (R251). -/
def majority (s : State) (g : Group) : Bool :=
  let n := groupSeats s g.id
  let up := ((List.range n).filter fun t => t == g.seat || g.heard s t).length
  decide (2 * up > n)

/-- A frozen seat of a reading device (R263). The own one counts as frozen from its declaration on, which comes while the device that is about to be READ_ONLY is
still READY (log entry 72). -/
def frozen (s : State) (g : Group) (seat : Nat) : Bool :=
  g.isLost seat && (if seat = g.seat then s.pwr.dev == 5 || (s.pwr.dev == 4 && s.media.readOnly.isSome) else
    (match g.info seat with | some i => i.dev == 5 | none => false) && (peerSession s 1 (seatHull s g.id seat)).isSome)

/-- A position counts in the erasure pattern for its seat alone: marked lost and not frozen (R259). -/
def seatGone (s : State) (g : Group) (seat : Nat) : Bool := g.isLost seat && !(frozen s g seat)

/-- The lowest serial of a stripe kept in the group, the next one where none is kept. -/
def groupLow (g : Group) : Nat := (g.kept.map fun x => bits x.stripe 5 54).foldl min g.nextSerial

/-- PHASE as GROUP_STATUS carries it (Table 05-5). A leader in PREPARING shows STAGED, one in COMMIT shows ACTIVE (log entry 32). -/
def shownPhase (s : State) : Nat := if s.epoch.phase = 5 then 1 else if s.epoch.phase = 6 then 0 else s.epoch.phase

/-- The body of GROUP_STATUS (Table 05-5), with a DEV_STATE. -/
def statusBody (s : State) (g : Group) (dev : Nat) : Bytes :=
  le 1 dev ++ le 1 g.gstate ++ le 1 g.seat ++ le 1 (shownPhase s) ++ le 4 g.gserial ++ le 8 (getF s F.RIG_STAGED_EPOCH_EPOCH) ++
    le 3 g.lost ++ zeros 5 ++ le 8 (groupLow g) ++ le 4 g.cycleDone ++ zeros 4

/-- A message sent on each session of a list of devices. -/
def tellHulls (h : PeerHdr) (body : Bytes) : List Nat → State → State
  | [], s => s
  | d :: ds, s =>
    match peerSession s 1 d with
    | some id => tellHulls h body ds (peerEmit s id (peerBytes { h with epoch := activeEpoch s } body))
    | none => tellHulls h body ds s

/-- The hull numbers at the other seats of a group. -/
def otherHulls (s : State) (g : Group) : List Nat := ((List.range (groupSeats s g.id)).filter (· != g.seat)).map (seatHull s g.id)

/-- GROUP_STATUS of a group sent to each peer of the group (R206). -/
def sendStatusAs (s : State) (id dev : Nat) : State :=
  match groupRec s id with
  | none => s
  | some g =>
    let b := statusBody s g dev
    tellHulls { op := 0x86, group := id } b (otherHulls s g) (putGroup s { g with sentAt := s.now, told := b.take 24 })

/-- GROUP_STATUS with the device's state. -/
def sendStatus (s : State) (id : Nat) : State := sendStatusAs s id s.pwr.dev

/-- GROUP_STATUS at once of each group of which a field other than LOW and CYCLE_DONE has changed since it was last sent (R206). -/
def tellChanged (s : State) : State :=
  (s.groups.filter fun g => g.told != (statusBody s g s.pwr.dev).take 24).foldl (fun s g => sendStatus s g.id) s

/-- GROUP_STATUS of every group. -/
def sendAllStatus (s : State) : State := (s.groups.map Group.id).foldl sendStatus s

/-- A group takes a state: a transition raises G_SERIAL, except one into FORMING, is sent at once and recorded (R209). -/
def setGState (s : State) (id st : Nat) : State :=
  match groupRec s id with
  | none => s
  | some g =>
    if g.gstate = st then s
    else
      let g := { g with gstate := st, gserial := g.gserial + (if st = 1 then 0 else 1), formingAt := if st = 1 then s.now else g.formingAt }
      logCrew (sendStatus (putGroup s g) id) EV.groupState

/-- The most positions any rotation row of a group has on seats of a predicate, less its m: above 0 means some row exceeds m (R275). -/
def rowExceeds (s : State) (g : Group) (gone : Nat → Bool) : Bool :=
  let v := activeView s
  let gi := groupIdx s g.id
  (List.range (v.nsets gi)).any fun i =>
    let x := v.genSet (v.setFirst gi + i)
    (List.range x.rows).any fun r =>
      decide (((List.range (x.k + x.m)).filter fun p => gone (v.rot (x.rotFirst + r) p)).length > x.m)

/-- A fetch replaced. -/
def putFetch (s : State) (f : Fetch) : State :=
  { s with hte := { s.hte with fetches := f :: s.hte.fetches.filter fun g =>
    !(g.user == f.user && g.group == f.group && g.stripe == f.stripe && g.pos == f.pos) } }

/-- The number of fetches of crew work for a group: 2^20 and above, apart for each kind of work. -/
def crewUser (s : State) (kind group : Nat) : Nat := 2 ^ 20 + 64 * kind + groupIdx s group

/-- The stripes a device plans in a group, as (STRIPE_ID, GEN_ID): those it keeps, and those it holds a fragment of whose keeper is marked lost
and of which its seat is the lowest not lost (R275). -/
def planned (s : State) (g : Group) : List (Nat × Nat) :=
  let kept := (g.kept.filter fun x => !x.lost).map fun x => (x.stripe, x.genId)
  let held := (s.media.frags.filter fun f => f.group == g.id && f.kind != 3 && g.isLost (f.stripe / 2 ^ 59) &&
    (((stripeSeats s g.id f.genId f.stripe).filter fun t => !(g.isLost t)).foldl min 99 == g.seat)).map fun f => (f.stripe, f.genId)
  kept ++ held

/-- A lost marker for a position at this seat (R274), with the generator set of its stripe. -/
def lostMarker (s : State) (pos group stripe gen : Nat) : State :=
  let s := addNote s 3 pos group stripe 1
  { s with media := { s.media with frags := s.media.frags.map fun f =>
    if f.group = group ∧ f.stripe = stripe then { f with genId := gen } else f } }

/-- Stripes marked lost (R274): STRIPE_LOST goes to each seat of theirs not marked lost, and a stripe kept is marked. -/
def markLost (s : State) (id : Nat) : List (Nat × Nat) → State
  | [] => s
  | (stripe, gen) :: rest =>
    match groupRec s id with
    | none => s
    | some g =>
      let s := putGroup s { g with kept := g.kept.map fun x => if x.stripe = stripe then { x with lost := true } else x }
      let seats := (stripeSeats s id gen stripe).eraseDups.filter fun t => !(g.isLost t)
      let body := le 8 stripe ++ le 1 gen ++ zeros 7
      let s := (seats.filter (· != g.seat)).foldl (fun s t => (peerRequest s (seatHull s id t) { op := 0x92, group := id, arg0 := 1 } body).1) s
      let s := if seats.contains g.seat then
          lostMarker s ((stripeSeats s id gen stripe).findIdx (· == g.seat)) id stripe gen
        else s
      markLost (logCrew s EV.stripeLost) id rest

/-- The positions of a stripe at seats that are frozen or rebuilding: they are probed before they are counted (R275). -/
def unsurePositions (s : State) (g : Group) (gen stripe : Nat) : List (Nat × Nat) :=
  ((List.range 24).zip (stripeSeats s g.id gen stripe)).filter fun q =>
    q.2 != g.seat && (frozen s g q.2 || g.rebuilding.any fun r => r.1 == q.2)

/-- The positions of a stripe at seats that are gone (R259). -/
def goneCount (s : State) (g : Group) (gen stripe : Nat) : Nat := ((stripeSeats s g.id gen stripe).filter (seatGone s g)).length

/-- The probes of R275 for a stripe: FRAG_READ of offset 0 and length 64 at every seat that may not hold its position. -/
def probeStripe (s : State) (id : Nat) (st : Nat × Nat) : State :=
  match groupRec s id, genOf s id st.2 with
  | some g, some x =>
    (unsurePositions s g st.2 st.1).foldl (fun s q =>
      let p := peerRequest s (seatHull s id q.2)
        { op := 0x82, group := id, stripe := st.1, pos := q.1, gen := st.2, k := x.k, m := x.m, arg0 := 64 * 2 ^ 32 } []
      putFetch p.1 ⟨crewUser s 4 id, id, st.1, q.1, q.2, s.now, p.2, none, false⟩) s
  | _, _ => s

/-- The row comparison of R275: SUSPENDED where some row exceeds m, the planned stripes whose weight exceeds m are marked lost, and those whose weight
depends on seats that are frozen or rebuilding are probed. -/
def compareRows (s : State) (id : Nat) : State :=
  match groupRec s id with
  | none => s
  | some g =>
    if g.gstate ≥ 2 && g.gstate ≤ 4 && rowExceeds s g g.isLost then
      let s := setGState s id 5
      let beyond := fun (more : Nat × Nat → Nat) (st : Nat × Nat) => match genOf s id st.2 with
        | some x => decide (goneCount s g st.2 st.1 + more st > x.m)
        | none => false
      let lostNow := (planned s g).filter (beyond fun _ => 0)
      let unsure := ((planned s g).filter fun st => !(lostNow.contains st)).filter (beyond fun st => (unsurePositions s g st.2 st.1).length)
      unsure.foldl (fun s st => probeStripe s id st) (markLost s id lostNow)
    else s

/-- A group that has become DEGRADED passes on at once (R276): to ACTIVE with no seat marked lost, to REBUILDING where a rebuild runs (log entry 72). -/
def afterDegraded (s : State) (id : Nat) : State :=
  match groupRec s id with
  | none => s
  | some g =>
    if g.gstate ≠ 3 then s
    else if !g.rebuilding.isEmpty || g.rebuild.any Rebuild.running then setGState s id 4
    else if g.lost = 0 then setGState s id 2
    else s

/-- The strokes' solo running begins for a bow whose seat is marked lost while this device has majority contact (R252). -/
def soloCheck (s : State) (id : Nat) : State :=
  match groupRec s id with
  | none => s
  | some g =>
    let v := activeView s
    let bows := ((heldSlices s).filter fun x => (v.place x).group == groupIdx s id && (v.place x).stroke == g.seat && (v.place x).bow != 0xFF).map
      fun x => (v.place x).bow
    let now := if majority s g then (bows.eraseDups.filter g.isLost).map (seatHull s id) else []
    let s := putGroup s { g with solo := now }
    if now.any (fun h => !(g.solo.contains h)) then logCrew s EV.pairSolo else s

/-- A slice of the group has stroke and bow both marked lost (R278). -/
def orphanCheck (s : State) (id : Nat) (before : Nat) : State :=
  match groupRec s id with
  | none => s
  | some g =>
    let v := activeView s
    if (List.range (v.count 3)).any fun x => let p := v.place x
      p.group == groupIdx s id && p.bow != 0xFF && g.isLost p.stroke && g.isLost p.bow && !(bitAt before p.stroke && bitAt before p.bow) then
      logCrew s EV.sliceOrphaned
    else s

/-- This device has a recovery in progress in a group (R261): a rebuild of its seat, a fragment of its own to repair, or fetches of a read around a fault. -/
def recovering (s : State) (g : Group) : Bool :=
  g.rebuild.any Rebuild.running || (s.media.frags.any fun f => f.group == g.id && f.kind == 4) ||
    s.hte.fetches.any fun f => f.group == g.id && (decide (f.user ≥ 2 ^ 20) || decide (f.pos ≥ ((writingSet s g.id).map GenSet.k).getD 0) ||
      f.reply.any fun r => r.1 != 0)

/-- A fault detected re-plans the recoveries in progress in its group, which is recorded (R261); the plans themselves are made anew at each of their
steps. -/
def replan (s : State) (id : Nat) : State :=
  match groupRec s id with
  | none => s
  | some g => if recovering s g then logCrew s EV.faultReplan else s

/-- A seat declared lost (R262, R263): its bit, G_SERIAL, the transition of Table 05-7, GROUP_STATUS at once, EV_SEAT_LOST, EV_SEAT_FROZEN where
it reads READ_ONLY, and the comparison of R275. -/
def declareLost (s : State) (id seat : Nat) : State :=
  match groupRec s id with
  | none => s
  | some g =>
    if g.isLost seat then s
    else
      let g' := { g with lost := g.lost + 2 ^ seat, gserial := g.gserial + 1,
                         rebuilding := g.rebuilding.filter fun r => r.1 != seat }
      let s := putGroup s g'
      let s := if g.gstate = 2 then
          logCrew (putGroup s { g' with gstate := 3 }) EV.groupState
        else s
      let s := logCrew (sendStatus s id) EV.seatLost
      let s := if frozen s g' seat then logCrew s EV.seatFrozen else s
      let s := replan s id
      orphanCheck (soloCheck (compareRows s id) id) id g.lost

/-- A device declares a seat lost only with majority contact and outside FORMING (R262), and no docked one (R537). -/
def tryDeclare (s : State) (id seat : Nat) : State :=
  match groupRec s id with
  | none => s
  | some g => if g.gstate != 1 && seat != g.seat && majority s g && !((g.info seat).any fun i => i.dev == 8) then declareLost s id seat else s

/-- The device's own seat declared lost in every group (R263). -/
def declareSelf (s : State) : State := s.groups.foldl (fun s g => declareLost s g.id g.seat) s

/-- The device enters READ_ONLY for a reason (1 SPARES, 2 FULL, 3 energy): its own seats are declared lost first, before it leaves READY (R263). -/
def enterReadOnly (s : State) (reason : Nat) : State :=
  let s := { s with media := { s.media with readOnly := some reason } }
  if s.pwr.dev = 5 then s
  else
    let s := declareSelf s
    sendAllStatus (logCrew { s with pwr := { s.pwr with dev := 5 } } EV.readOnly)

/-! ### Acting (R73, R252, R253) -/

/-- This device's index in the active rig. -/
def selfIndex (s : State) : Nat := getF s F.RIG_SELF_INDEX

/-- A rig is active. -/
def rigOn (s : State) : Bool := rigActive s

/-- The device is acting stroke of a slice: the rig names it stroke and its bow has not taken over, or it is the bow and has (R73). -/
def actsFor (s : State) (x : Nat) : Bool :=
  let v := activeView s
  let t := ((sliceRec s x).map Slice.takeover).getD 0
  if v.strokeDev x = selfIndex s then t != 4 else v.bowDev x == some (selfIndex s) && (t == 2 || t == 5)

/-- The hull number of the acting stroke as this device knows it. -/
def actingHull (s : State) (x : Nat) : Nat :=
  let v := activeView s
  let t := ((sliceRec s x).map Slice.takeover).getD 0
  if (v.strokeDev x = selfIndex s ∧ t = 4) ∨ (v.bowDev x = some (selfIndex s) ∧ (t = 2 ∨ t = 5)) then
    v.hull ((v.bowDev x).getD 0)
  else v.hull (v.strokeDev x)

/-- GROUP_ID of a slice. -/
def sliceGroup (s : State) (x : Nat) : Nat := (activeView s).groupId ((activeView s).place x).group

/-- The pair channel with a partner. -/
def chanWith (s : State) (hull : Nat) : Option PairCh := s.pj.chans.find? fun c => c.partner == hull

/-- The bow of a slice by hull number, none where it has none; for a bow acting by takeover, none: the stroke becomes its bow once it rejoins. -/
def sliceBow (s : State) (x : Nat) : Option Nat :=
  let v := activeView s
  match v.bowDev x with
  | none => none
  | some b => some (if v.strokeDev x = selfIndex s then v.hull b else v.hull (v.strokeDev x))

/-- The seat of a partner is marked lost in a group of this device. -/
def hullLost (s : State) (id hull : Nat) : Bool :=
  match groupRec s id, hullSeat s id hull with
  | some g, some t => g.isLost t
  | _, _ => false

/-- The stroke may act for a slice now (R252, R253). -/
def leaseHolds (s : State) (x : Nat) : Bool :=
  let id := sliceGroup s x
  match groupRec s id with
  | none => false
  | some g =>
    match sliceBow s x with
    | none => true
    | some b =>
      if (activeView s).strokeDev x = selfIndex s then
        !g.ownLost && ((match chanWith s b with
          | some c => (match c.lastAckAt with | some t => decide (s.now < t + 500 * ms) | none => false)
          | none => false) || (hullLost s id b && majority s g))
      else !g.ownLost && majority s g

/-- The slice-view generation rises (R118). -/
def raiseView (s : State) : State := { s with kv := { s.kv with view := s.kv.view + 1 } }

/-- The stripe kept under an identity. -/
def keptOf (g : Group) (stripe : Nat) : Option KeptStripe := g.kept.find? fun x => x.stripe == stripe

/-- New commands that would open an intent are held: the device is preparing, PREPARED or committing (R215). -/
def intentsHeld (s : State) : Bool := s.epoch.phase == 2 || s.epoch.phase == 5 || s.epoch.phase == 6 || s.epoch.preparer.isSome

/-- A stripe kept from the moment its INTENT is journaled (R286). -/
def addKept (s : State) (id : Nat) (x : KeptStripe) : State :=
  match groupRec s id with
  | some g => putGroup s { g with kept := x :: g.kept.filter fun y => y.stripe != x.stripe }
  | none => s

/-- A stripe kept no longer. -/
def dropKept (s : State) (id stripe : Nat) : State :=
  match groupRec s id with
  | some g => putGroup s { g with kept := g.kept.filter fun y => y.stripe != stripe }
  | none => s

end Sys2Proof.Machine
end

