-- ==== Sys2Proof/Machine/JournalOps.lean ====
section
/-! DEFINITION. Operations of the protected journal and the pair channel (06): records in the ring, slots, fragments at their seat, pair frames
and mirroring. -/

namespace Sys2Proof.Machine

/-! ### The ring (Tables 06-2 and 06-3) -/

/-- The start of the record ring. -/
def ringBase : Nat := dramBase + 65536

/-- The address of a free-running ring offset. -/
def ringAddr (s : State) (off : Nat) : Nat := ringBase + off % max (pjRingBytes s) 1

/-- The address of a unit slot. -/
def slotAddr64 (s : State) (i : Nat) : Nat := ringBase + pjRingBytes s + 65536 * i

/-- The number of unit slots. -/
def slotCount (s : State) : Nat := (s.pj.units * 0x10000000 - 65536 - pjRingBytes s) / 65536

/-- RCRC of a record: bytes 5 and 56 to 59 taken as 0. -/
def recordCrc (b : Bytes) : Nat := crc32c (patch (patch b 5 [0]) 56 (zeros 4))

/-- A record's bytes. -/
def pjRecord (kind rflags group rseq source intent epoch : Nat) (body : Bytes) : Bytes :=
  let n := alignUp (64 + body.length) 64
  let b := fit (le 4 0x334A5A41 ++ le 1 kind ++ [0] ++ le 2 rflags ++ le 4 n ++ le 4 group ++ le 8 rseq ++ le 8 source ++ le 8 intent ++
    le 8 epoch ++ zeros 16 ++ body) n
  patch b 56 (le 4 (recordCrc b))

/-- RKIND of a record. -/
def rkKind (b : Bytes) : Nat := fld b 4 1
/-- RETIRED. -/
def rkRetired (b : Bytes) : Bool := fld b 5 1 == 1
/-- MIRROR. -/
def rkMirror (b : Bytes) : Bool := fld b 6 2 % 2 == 1
/-- LENGTH. -/
def rkLen (b : Bytes) : Nat := fld b 8 4
/-- GROUP_ID. -/
def rkGroup (b : Bytes) : Nat := fld b 12 4
/-- RSEQ. -/
def rkSeq (b : Bytes) : Nat := fld b 16 8
/-- SOURCE_HULL. -/
def rkSource (b : Bytes) : Nat := fld b 24 8
/-- INTENT_ID. -/
def rkIntent (b : Bytes) : Nat := fld b 32 8
/-- The body of a record. -/
def rkBody (b : Bytes) : Bytes := b.drop 64

/-- The record at a ring offset, where a valid one lies there, whether or not its place is still reserved. -/
def recordIn (s : State) (off : Nat) : Option Bytes :=
  let h := peek s (ringAddr s off) 64
  let n := rkLen h
  if fld h 0 4 = 0x334A5A41 ∧ n % 64 = 0 ∧ n ≥ 64 ∧ off % max (pjRingBytes s) 1 + n ≤ pjRingBytes s then
    let b := peek s (ringAddr s off) n
    if fld b 56 4 = recordCrc b then some b else none
  else none

/-- A free-running ring offset lies in space reserved through an allocation port that holds no record yet. -/
def ringReserved (s : State) (off : Nat) : Bool := s.pj.reserved.any fun r => decide (r.1 ≤ off) && decide (off < r.1 + r.2)

/-- The record at a ring offset, where a valid one lies there (R245 step 1); space reserved holds none until it is written. -/
def recordAt (s : State) (off : Nat) : Option Bytes := if ringReserved s off then none else recordIn s off

/-- The records from an offset up to the head: where none lies, the scan moves on 64 bytes. -/
def scanFrom (s : State) : Nat → Nat → Nat → List (Nat × Bytes)
  | 0, _, _ => []
  | n + 1, off, head =>
    if off ≥ head then [] else
      match recordAt s off with
      | some b => (off, b) :: scanFrom s n (off + rkLen b) head
      | none => scanFrom s n (off + 64) head

/-- PJ_TAIL. -/
def pjTail (s : State) : Nat := getF s F.PJ_TAIL_OFFSET
/-- PJ_HEAD. -/
def pjHead (s : State) : Nat := getF s F.PJ_HEAD_OFFSET

/-- Every record between tail and head, by offset. -/
def pjScan (s : State) : List (Nat × Bytes) := scanFrom s ((pjHead s - pjTail s) / 64 + 1) (pjTail s) (pjHead s)

/-- The live records, in ring order, which is that of RSEQ. -/
def pjLive (s : State) : List (Nat × Bytes) := (pjScan s).filter fun r => !(rkRetired r.2) && rkKind r.2 != 7

/-- The live records of a kind. -/
def pjKind (s : State) (kind : Nat) : List (Nat × Bytes) := (pjLive s).filter fun r => rkKind r.2 == kind

/-- The tail moved over retired and PAD records (R226). -/
def tailMove : Nat → State → State
  | 0, s => s
  | n + 1, s =>
    if pjTail s ≥ pjHead s then s else
      match recordAt s (pjTail s) with
      | some b => if rkRetired b || rkKind b == 7 then tailMove n (setF s F.PJ_TAIL_OFFSET (pjTail s + rkLen b)) else s
      | none => s

/-- The tail moved as far as it goes. -/
def tailStep (s : State) : State := tailMove ((pjHead s - pjTail s) / 64 + 1) s

/-- A record retired in place (R226). -/
def pjRetire (s : State) (off : Nat) : State := tailStep (crewStore s (ringAddr s off + 5) [1])

/-- Crew firmware has written the ring: space reserved whose record is valid now is reserved no longer, and the tail moves (R226, R255). -/
def ringWritten (s : State) : State :=
  tailStep { s with pj := { s.pj with reserved := s.pj.reserved.filter fun r => (recordIn s r.1).isNone } }

/-- The bytes a record needs at the head: a PAD record first where it would pass the end of the ring (R225). -/
def padNeeded (s : State) (n : Nat) : Nat :=
  let o := pjHead s % max (pjRingBytes s) 1
  if o + n > pjRingBytes s then pjRingBytes s - o else 0

/-- The ring has room for a record of `n` bytes. -/
def ringRoom (s : State) (n : Nat) : Bool :=
  flag s F.PJ_CTRL_ENABLE && decide (pjHead s - pjTail s + padNeeded s n + n ≤ pjRingBytes s)

/-- The next RSEQ taken. -/
def nextRseq (s : State) : Nat × State := (s.pj.rseq, { s with pj := { s.pj with rseq := s.pj.rseq + 1 } })

/-- The requester that writes a record: crew firmware its FRAGMENT and FRAG_OUTCOME records, the protected journal every other (R39, R89; log
entry 66). -/
def recordRid (b : Bytes) : Nat := if !(rkMirror b) && (rkKind b == 5 || rkKind b == 6) then 0 else 12

/-- A record written at the head; its RSEQ is given. -/
def putRecord (s : State) (b : Bytes) : State :=
  let s := storeAs s (recordRid b) (ringAddr s (pjHead s)) b
  setF s F.PJ_HEAD_OFFSET (pjHead s + b.length)

/-- The PAD record that has to come before a record of `n` bytes written, where one has (R225); the tail moves over it at once (R226). -/
def padRecord (s : State) (n : Nat) : State :=
  let pad := padNeeded s n
  if pad = 0 then s
  else
    let q := nextRseq s
    tailStep (putRecord q.2 (pjRecord 7 0 0 q.1 Config.hull 0 (activeEpoch s) (zeros (pad - 64))))

/-- A record appended to the ring, behind a PAD record where needed; none without room. -/
def pjAppend (s : State) (kind rflags group source intent : Nat) (body : Bytes) : Option State :=
  let n := alignUp (64 + body.length) 64
  if !(ringRoom s n) then none
  else
    let q := nextRseq (padRecord s n)
    some (putRecord q.2 (pjRecord kind rflags group q.1 source intent (activeEpoch s) body))

/-- A record of this device appended; without room the state is unchanged (the callers make sure of room). -/
def pjWrite (s : State) (kind group intent : Nat) (body : Bytes) : State := (pjAppend s kind 0 group Config.hull intent body).getD s

/-! ### Slots and fragments (Tables 06-8 and 06-9) -/

/-- The slots that live records name (R245 step 2). -/
def slotsUsed (s : State) : List Nat :=
  ((pjLive s).map fun r =>
    if rkKind r.2 = 5 then [fld r.2 80 4]
    else if rkKind r.2 = 4 then (List.range 20).map fun j => fld r.2 (104 + 4 * j) 4
    else []).flatten

/-- The first `n` free slots; none where there are fewer. -/
def slotsFree (s : State) (n : Nat) : Option (List Nat) :=
  let used := slotsUsed s
  let free := ((List.range (slotCount s)).filter fun i => !(used.contains i)).take n
  if free.length = n then some free else none

/-- A FRAGMENT body (Table 06-9). -/
def fragmentBody (stripe pos void gen k m slot ucrc keeper : Nat) : Bytes :=
  le 8 stripe ++ le 1 pos ++ le 1 void ++ le 1 gen ++ le 1 k ++ le 1 m ++ zeros 3 ++ le 4 slot ++ le 4 ucrc ++ le 8 keeper ++ zeros 32

/-- STRIPE_ID with UNIT 0. -/
def unit0 (stripe : Nat) : Nat := stripe / 32 * 32

/-- The newest live FRAGMENT record of a stripe at this seat. -/
def journaled (s : State) (group stripe : Nat) : Option (Nat × Bytes) :=
  ((pjKind s 5).filter fun r => rkGroup r.2 == group && unit0 (fld r.2 64 8) == unit0 stripe).getLast?

/-- What a seat holds of a stripe: kind (0 a fragment, 2 a void marker, 3 a lost marker, 4 missing, 9 nothing), position, GEN_ID, k, m, UCRC. -/
structure Holding where
  kind : Nat
  pos : Nat
  gen : Nat
  k : Nat
  m : Nat
  ucrc : Nat

/-- What this seat holds of a stripe: the journal before NAND, but a lost marker before both. -/
def holding (s : State) (group stripe : Nat) : Holding :=
  let nand := fragOf s group (unit0 stripe)
  let fromNand := match nand with
    | some f => (⟨f.kind, f.pos, f.genId, f.k, f.m, f.ucrc⟩ : Holding)
    | none => ⟨9, 0, 0, 0, 0, 0⟩
  if fromNand.kind = 3 then fromNand
  else
    match journaled s group stripe with
    | some (_, r) => let b := rkBody r; ⟨if fld b 9 1 % 2 = 1 then 2 else 0, fld b 8 1, fld b 10 1, fld b 11 1, fld b 12 1, fld b 20 4⟩
    | none => fromNand

/-- A unit's bytes at this seat, from the journal or from NAND: none where it is not readable; a void unit has no bytes. -/
def holdingBytes (s : State) (group stripe : Nat) : Option Bytes :=
  match journaled s group stripe with
  | some (_, r) => if fld (rkBody r) 9 1 % 2 = 1 then some [] else some (peek s (slotAddr64 s (fld (rkBody r) 16 4)) 65536)
  | none =>
    match fragOf s group (unit0 stripe) with
    | some f => if f.kind = 2 then some [] else if f.kind = 0 then (strideAt s f.bsn f.page).map strideBytes else none
    | none => none

/-- A fragment journaled at this seat (R207, R231 step 3): its slot, its bytes, its FRAGMENT record; none without room. -/
def journalFragment (s : State) (group stripe pos gen k m ucrc keeper intent : Nat) (void : Bool) (unit : Bytes) : Option State :=
  if void then pjAppend s 5 0 group Config.hull intent (fragmentBody stripe pos 1 gen k m 0xFFFFFFFF ucrc keeper)
  else
    match slotsFree s 1 with
    | some [i] =>
      if !(ringRoom s 128) then none
      else pjAppend (crewStore s (slotAddr64 s i) (fit unit 65536)) 5 0 group Config.hull intent (fragmentBody stripe pos 0 gen k m i ucrc keeper)
    | _ => none

/-- A stripe lies in the run of serials from a first stripe. -/
def inRun (first run stripe : Nat) : Bool :=
  decide (first / 2 ^ 59 = stripe / 2 ^ 59) && decide (unit0 first ≤ unit0 stripe) && decide (unit0 stripe < unit0 first + 32 * run)

/-- A seat's fragment is on NAND as its FRAGMENT record has it, or its VOID note is recorded (R330). -/
def onNand (s : State) (group stripe ucrc : Nat) : Bool :=
  match fragOf s group (unit0 stripe) with
  | some f => (f.kind == 0 && f.ucrc == ucrc) || (f.kind == 2 && s.media.notes.any fun n => n.kind == 2 && n.seq == f.seq && !n.places.isEmpty)
  | none => false

/-- A FRAG_OUTCOME record comes after a FRAGMENT record and its run covers the fragment. -/
def covers (o r : Nat × Bytes) : Bool :=
  decide (o.1 > r.1) && rkGroup o.2 == rkGroup r.2 && inRun (fld (rkBody o.2) 0 8) (fld (rkBody o.2) 8 8) (fld (rkBody r.2) 0 8)

/-- The condition of a FRAGMENT record (Table 06-4): a rollback or free is journaled, or a commit and the fragment is on NAND. -/
def fragmentDone (s : State) (r : Nat × Bytes) : Bool :=
  (pjKind s 6).any fun o => covers o r &&
    (fld (rkBody o.2) 16 1 != 1 || onNand s (rkGroup r.2) (fld (rkBody r.2) 0 8) (fld (rkBody r.2) 20 4))

/-- The condition of a FRAG_OUTCOME record: it goes with the last fragment it decides (Table 06-4), one of RESULT 2 or 4 not before its TRIM is recorded
(R330). -/
def fragOutcomeDone (s : State) (o : Nat × Bytes) : Bool :=
  let d := rkBody o.2
  let trimWaits := fld d 16 1 != 1 && s.media.notes.any fun n =>
    n.kind == 1 && n.places.isEmpty && n.group == rkGroup o.2 && n.ident == unit0 (fld d 0 8) && n.run == fld d 8 8
  !trimWaits && !((pjKind s 5).any fun r => covers o r && !(fragmentDone s r))

/-- The FRAGMENT and FRAG_OUTCOME records whose conditions hold are retired. -/
def settleFragments (s : State) : State :=
  (((pjKind s 5).filter (fragmentDone s) ++ (pjKind s 6).filter (fragOutcomeDone s)).map Prod.fst).foldl pjRetire s

/-- A seat journals an outcome for a run of stripes that it holds something of (R205, R234): 1 commit, 2 rollback, 4 free; a rollback or free
drops the copies on NAND, with a TRIM note, and the lost markers. None while the ring has no room (R227). -/
def seatOutcome (s : State) (group stripe run result : Nat) : Option State :=
  let hasJ := (pjKind s 5).any fun r => rkGroup r.2 == group && inRun stripe run (fld (rkBody r.2) 0 8)
  let hasN := result != 1 && s.media.frags.any fun f => f.group == group && inRun stripe run f.stripe
  if !hasJ && !hasN then some s
  else
    (pjAppend s 6 0 group Config.hull 0 (le 8 (unit0 stripe) ++ le 8 run ++ le 1 result ++ zeros 47)).map fun s =>
      settleFragments (if hasN then addNote s 1 0 group (unit0 stripe) run else s)

/-! ### Pair frames (R247 to R249, R621) -/

/-- A pair channel's record replaced. -/
def putChan2 (s : State) (c : PairCh) : State := { s with pj := { s.pj with chans := s.pj.chans.map fun d => if d.ctx == c.ctx then c else d } }

/-- The direction byte of a channel. -/
def pairDir (c : PairCh) : Nat := if Config.hull < c.partner then 0 else 1

/-- The path that a channel's frames take now: the pair link only while it is powered and up, else the fall-back session where there is one (R27,
R247). -/
def pathNow (s : State) (c : PairCh) : Nat :=
  if c.path = 1 ∧ flag s F.PLK_STATUS_LINK = false then (if (peerSession s 2 c.partner).isSome then 2 else 0) else c.path

/-- The 40-byte header of a pair frame (Table 06-14). -/
def pairHeader (s : State) (c : PairCh) (ptype seq len : Nat) : Bytes :=
  le 4 0x33505A41 ++ le 1 ptype ++ le 1 (b2n (ptype == 2) + (if pathNow s c = 2 then 2 else 0)) ++ le 2 len ++ le 8 Config.hull ++ le 8 c.partner ++
    le 8 seq ++ le 8 (activeEpoch s)

/-- The initial value of a frame: direction, stream, SEQ. -/
def pairIv (dir ptype seq : Nat) : Bytes := le 1 dir ++ le 1 (b2n (ptype == 2)) ++ zeros 2 ++ le 8 seq

/-- The source address of the pair link. -/
def plkAddr (s : State) : Bytes := le 6 (getF s F.PLK_ADDR_ADDR)

/-- A sealed frame from its destination address, without FCS. -/
def sealFrame (s : State) (c : PairCh) (key : Bytes) (ptype seq : Nat) (body : Bytes) : Bytes :=
  let h := pairHeader s c ptype seq body.length
  let e := gcmEnc key (pairIv (pairDir c) ptype seq) h body
  fit (c.addr.getD (List.replicate 6 0xFF)) 6 ++ plkAddr s ++ [0x88, 0xB5] ++ h ++ e.1 ++ e.2

/-- A frame sent on the channel's path. -/
def pairOut (s : State) (c : PairCh) (f : Bytes) : State :=
  match pathNow s c with
  | 1 => countF (countF (emit s (.pair true f)) F.PLK_CNT_TX_FRAMES_COUNT 1) F.PLK_CNT_TX_BYTES_COUNT (f.length + 4)
  | 2 => emit s (.pair false f)
  | _ => s

/-- The key K_P of a channel, in its slot. -/
def pairKey (s : State) (c : PairCh) : Option Bytes := (slotOf s c.slot).map KeySlot.key

/-- The frames of a channel that wait sent while the window of 256 has room, the key is loaded and there is a path; a frame already sealed is left alone. -/
def pairFlush (s : State) (c : PairCh) : List (Nat × Nat × Bytes × Bytes) → State × List (Nat × Nat × Bytes × Bytes)
  | [] => (s, [])
  | (seq, pt, body, sealed) :: rest =>
    match pairKey s c with
    | none => (s, (seq, pt, body, sealed) :: rest)
    | some key =>
      if sealed = [] ∧ c.st = 2 ∧ seq ≤ c.acked + 256 ∧ pathNow s c ≠ 0 then
        let f := sealFrame s c key pt seq body
        let r := pairFlush (pairOut s c f) c rest
        (r.1, (seq, pt, body, f) :: r.2)
      else
        let r := pairFlush s c rest
        (r.1, (seq, pt, body, sealed) :: r.2)

/-- The waiting frames of the channel with a partner sent. -/
def pairPush (s : State) (hull : Nat) : State :=
  match chanWith s hull with
  | none => s
  | some c =>
    let r := pairFlush s c c.sent
    putChan2 r.1 { c with sent := r.2, movedAt := if c.sent.isEmpty then s.now else c.movedAt }

/-- This device has taken over, or is about to take over, a slice of a stroke's (R253). -/
def takesFrom (s : State) (hull : Nat) : Bool :=
  let v := activeView s
  s.kv.slices.any fun x => (x.takeover == 1 || x.takeover == 2 || x.takeover == 5) && v.hull (v.strokeDev x.slice) == hull

/-- A device's seat is marked lost in some group. -/
def lostSomewhere (s : State) (hull : Nat) : Bool := s.groups.any fun g => hullLost s g.id hull

/-- A new channel record in the first free context; SEQ 1 is kept for PAIR_HELLO (R621). To a stroke that is lost and taken over it sends no ACK (R253). -/
def newChan (s : State) (hull : Nat) : PairCh :=
  let ctx := ((List.range 64).find? fun i => !(s.pj.chans.any fun c => c.ctx == i)).getD 0
  ⟨ctx, 1, 0, 0, 0, hull, 2, 0, 0, 0, none, 1, 0, s.now, [], s.now, none, false, takesFrom s hull && lostSomewhere s hull, 0, false⟩

/-- The channel with a partner, there from now on. -/
def pairChannel (s : State) (hull : Nat) : State :=
  if (chanWith s hull).isSome then s else { s with pj := { s.pj with chans := s.pj.chans ++ [newChan s hull] } }

/-- A data frame for a partner; its number for the mirroring tests. -/
def pairSend (s : State) (hull ptype : Nat) (body : Bytes) : State × Nat :=
  let s := pairChannel s hull
  match chanWith s hull with
  | none => (s, 0)
  | some c =>
    let s := putChan2 s { c with txSeq := c.txSeq + 1, sent := c.sent ++ [(c.txSeq, ptype, body, [])] }
    (pairPush s hull, c.base + c.txSeq)

/-- A frame for each partner of a list; the (partner, number) pairs. -/
def pairSendAll (ptype : Nat) (body : Bytes) : List Nat → State → State × List (Nat × Nat)
  | [], s => (s, [])
  | h :: hs, s =>
    let p := pairSend s h ptype body
    let r := pairSendAll ptype body hs p.1
    (r.1, (h, p.2) :: r.2)

/-- A frame is mirrored: acknowledged, or its partner's seat is marked lost in the group and this device has majority contact there (R252, R232). -/
def mirrored (s : State) (group : Nat) (p : Nat × Nat) : Bool :=
  (match chanWith s p.1 with | some c => decide (p.2 ≤ c.base + c.acked) | none => false) ||
    (hullLost s group p.1 && ((groupRec s group).any (majority s)))

/-- Every frame of a list is mirrored. -/
def allMirrored (s : State) (group : Nat) (l : List (Nat × Nat)) : Bool := l.all (mirrored s group)

/-- The whole record last written, as a pair frame carries it. -/
def lastRecord (s : State) : Bytes := ((pjScan s).getLast?.map Prod.snd).getD []

/-- The record last written read by the pair link (requester 13, Table 01-2 step 7) and sent to partners; the frames to be mirrored. -/
def mirrorLast (ptype : Nat) (hulls : List Nat) (s : State) : State × List (Nat × Nat) :=
  let s := if hulls = [] then s else match (pjScan s).getLast? with | some r => touch s 13 (ringAddr s r.1) r.2.length | none => s
  pairSendAll ptype (lastRecord s) hulls s

/-- ACK sent on a channel (R249). -/
def pairAck (s : State) (c : PairCh) : State :=
  match pairKey s c with
  | none => s
  | some key =>
    if c.mute || c.st != 2 || pathNow s c == 0 then s
    else
      let s := pairOut s c (sealFrame s c key 2 c.ackTx (le 8 c.rxSeq))
      putChan2 s { c with ackTx := c.ackTx + 1, ackSentAt := s.now }

end Sys2Proof.Machine
end

