-- ==== Sys2Proof/Machine/Stripes.lean ====
section
/-! DEFINITION. Stripes in the making (04, 05, 06): units and records, serials, open packed stripes, intents and the commit protocol of Table
06-10, and the progress of the commands that wait for them. -/

namespace Sys2Proof.Machine

/-! ### Units and records (Tables 04-7 to 04-9) -/

/-- Plaintext bytes of a data unit. -/
def plainLen : Nat := 65456

/-- The initial value of a unit (R164): GROUP_ID, then STRIPE_ID. -/
def unitIv (group stripe : Nat) : Bytes := le 4 group ++ le 8 stripe

/-- A chunk header (Table 04-8). -/
def chunkHeader (cipher : Bool) (nsid group k m gen stripe keyGen first : Nat) : Bytes :=
  let b := le 4 0x33435A41 ++ [3] ++ le 1 (b2n cipher) ++ le 2 nsid ++ le 4 group ++ le 1 k ++ le 1 m ++ le 1 gen ++ [0] ++ le 8 stripe ++
    unitIv group stripe ++ le 4 keyGen ++ le 2 first ++ zeros 18
  b ++ le 4 (crc32c b)

/-- A data unit over a plaintext area: ciphertext and tag under a key, or clear with its CRC (R164). -/
def dataUnit (key : Option Bytes) (head plain : Bytes) : Bytes :=
  match key with
  | some k => let e := gcmEnc k (slice head 24 12) head (fit plain plainLen); head ++ e.1 ++ e.2
  | none => let p := fit plain plainLen; head ++ p ++ le 4 (crc32c p) ++ zeros 12

/-- The data key of a namespace: the key slot loaded for it. -/
def nsKey (s : State) (nsid : Nat) : Option Bytes := (s.cip.slots.find? fun x => x.kind == 1 && x.nsid == nsid).map KeySlot.key

/-- The plaintext area of a data unit that checks: none where its tag or CRC is wrong. A unit of zeros is a void unit and has none. -/
def openUnit (s : State) (u : Bytes) : Option Bytes :=
  let h := u.take 64
  if fld h 0 4 ≠ 0x33435A41 ∨ fld h 60 4 ≠ crc32c (h.take 60) then none
  else if bitAt (fld h 5 1) 0 then
    match nsKey s (fld h 6 2) with
    | some k => gcmDec k (slice h 24 12) h (slice u 64 plainLen) (slice u 65520 16)
    | none => none
  else if fld u 65520 4 = crc32c (slice u 64 plainLen) then some (slice u 64 plainLen) else none

/-- An object header (Table 04-9). -/
structure RecHdr where
  kind : Nat
  hflags : Nat := 0
  keyLen : Nat
  nsid : Nat
  length : Nat := 0
  version : Nat
  fprint : Nat
  created : Nat
  user : Nat := 0
  expiry : Nat := 0
  holdSerial : Nat := 0

/-- The bytes of an object header. -/
def recHeader (h : RecHdr) (recLen : Nat) : Bytes :=
  let b := le 4 0x334F5A41 ++ le 1 h.kind ++ le 1 h.hflags ++ le 2 h.keyLen ++ le 2 h.nsid ++ zeros 2 ++ le 4 h.length ++ le 8 h.version ++
    le 8 h.fprint ++ le 8 h.created ++ le 8 h.user ++ le 8 h.expiry ++ le 4 h.holdSerial ++ le 4 recLen ++ zeros 56
  b ++ le 4 (crc32c b) ++ zeros 4

/-- An object header read, where MAGIC and HCRC are right. -/
def readRecHeader (b : Bytes) : Option RecHdr :=
  if fld b 0 4 = 0x334F5A41 ∧ fld b 120 4 = crc32c (b.take 120) then
    some ⟨fld b 4 1, fld b 5 1, fld b 6 2, fld b 8 2, fld b 12 4, fld b 16 8, fld b 24 8, fld b 32 8, fld b 40 8, fld b 48 8, fld b 56 4⟩
  else none

/-- A string padded with zeros to a multiple of 8. -/
def pad8 (b : Bytes) : Bytes := fit b (alignUp b.length 8)

/-- A packed record (R168). -/
def packedRecord (h : RecHdr) (key value : Bytes) : Bytes :=
  let n := 128 + alignUp key.length 8 + alignUp value.length 8
  recHeader h n ++ pad8 key ++ pad8 value

/-- The stream of a large record (R168): header, key area of 256 bytes, value. -/
def largeStream (h : RecHdr) (key value : Bytes) : Bytes := recHeader { h with hflags := h.hflags + 1 } 0 ++ fit key 256 ++ value

/-- The records of a plaintext area as (offset, header, whole record bytes): the walk stops at a MAGIC of 0 (R168). -/
def walkRecords (p : Bytes) : Nat → Nat → List (Nat × RecHdr × Bytes)
  | 0, _ => []
  | n + 1, o =>
    match readRecHeader (slice p o 128) with
    | none => []
    | some h =>
      let len := fld p (o + 60) 4
      if len < 128 then [(o, h, slice p o 128)] else (o, h, slice p o len) :: walkRecords p n (o + alignUp len 8)

/-- The records of a plaintext area from the first that begins in it. -/
def recordsOf (p : Bytes) (first : Nat) : List (Nat × RecHdr × Bytes) := if first = 0xFFFF then [] else walkRecords p 512 first

/-! ### Serials (R185 to R187) -/

/-- `n` consecutive serials of a group taken in one step, the ceiling recorded before it is reached: the first, or none past 2^54 − 1. -/
def takeSerials (s : State) (g : Group) (n : Nat) : Option (Nat × State) :=
  if g.nextSerial + n > 2 ^ 54 then none
  else
    let next := g.nextSerial + n
    let ceil := if next ≥ g.ceiling then (next / 2 ^ 24 + 1) * 2 ^ 24 else g.ceiling
    some (g.nextSerial, putGroup s { g with nextSerial := next, ceiling := ceil })

/-- STRIPE_ID with UNIT 0 of a seat and serial. -/
def stripeId (seat serial : Nat) : Nat := seat * 2 ^ 59 + serial * 32

/-! ### Intents (R230 to R233, Table 06-10) -/

/-- The units of one stripe: data units with void units as [], then parity; each with its seat. -/
def stripeUnits (s : State) (group stripe : Nat) (x : GenSet) (data : List Bytes) : List IntentUnit :=
  let seats := stripeSeats s group x.genId stripe
  let par := (List.range x.m).map fun i => parityUnit x 65536 i data
  let all := (List.range x.k).map (fun j => (data[j]?).getD []) ++ par
  (List.range (x.k + x.m)).map fun p => ⟨stripe, p, (seats[p]?).getD 0, (all[p]?).getD [], false⟩

/-- The INTENT body (Table 06-6). -/
def intentBody (run k m gen iflags nsid keyGen : Nat) (changes : List Bytes) : Bytes :=
  le 4 run ++ le 1 k ++ le 1 m ++ le 1 gen ++ le 1 iflags ++ le 2 nsid ++ le 2 changes.length ++ le 4 keyGen ++ zeros 48 ++ changes.flatten

/-- The OUTCOME body (Table 06-7). -/
def outcomeBody (result run : Nat) (changes : List Bytes) : Bytes :=
  le 1 result ++ zeros 3 ++ le 4 run ++ le 2 changes.length ++ zeros 54 ++ changes.flatten

/-- An intent's record replaced. -/
def putIntent (s : State) (i : Intent) : State :=
  { s with pj := { s.pj with intents := s.pj.intents.map fun j => if j.group == i.group && j.stripe == i.stripe then i else j } }

/-- The intent of an identity. -/
def intentOf (s : State) (group stripe : Nat) : Option Intent := s.pj.intents.find? fun i => i.group == group && i.stripe == stripe

/-- The stripes of a run. -/
def runStripes (stripe run : Nat) : List Nat := (List.range run).map fun j => stripe + 32 * j

/-- A seat counts for an intent: it is not marked lost. -/
def seatCounts (s : State) (group seat : Nat) : Bool :=
  match groupRec s group with
  | some g => !(g.isLost seat)
  | none => false

/-- Every unit of an intent at a seat not marked lost is acknowledged: the full-unit condition under ALL. -/
def allAcked (s : State) (i : Intent) : Bool := i.units.all fun u => u.acked || !(seatCounts s i.group u.seat)

/-- Every stripe of an intent has k units acknowledged by seats not marked lost: the condition under QUORUM (Table 03-8, R210). -/
def quorumAcked (s : State) (i : Intent) : Bool :=
  (runStripes i.stripe i.run).all fun st => decide ((i.units.filter fun u => u.stripe == st && u.acked && seatCounts s i.group u.seat).length ≥ i.k)

/-- The position of this seat in a stripe journaled, when it has a unit there (R231 step 3). -/
def ownUnit (s : State) (i : Intent) (u : IntentUnit) : State × IntentUnit :=
  let h := holding s i.group u.stripe
  if h.kind = 0 ∨ h.kind = 2 then (s, { u with acked := true })
  else
    match journalFragment s i.group u.stripe u.pos i.genId i.k i.m (if u.unit = [] then 0 else crc32c u.unit) Config.hull i.stripe
        (u.unit == []) u.unit with
    | some s => (s, { u with acked := true })
    | none => (s, u)

/-- FRAG_WRITE of a unit (Table 05-4). -/
def fragWrite (s : State) (i : Intent) (u : IntentUnit) : State :=
  (peerRequest s (seatHull s i.group u.seat)
    { op := 0x81, pflags := if u.unit = [] then 2 else 0, group := i.group, stripe := u.stripe, pos := u.pos, gen := i.genId, k := i.k, m := i.m,
      arg0 := i.stripe, arg1 := if u.unit = [] then 0 else crc32c u.unit } u.unit).1

/-- The units of an intent sent, first time or not: own positions are journaled, others sent once, seats marked lost skipped. -/
def sendUnits (i : Intent) (own : Nat) (first : Bool) : List IntentUnit → State → State × List IntentUnit
  | [], s => (s, [])
  | u :: us, s =>
    let p :=
      if u.acked || !(seatCounts s i.group u.seat) then (s, u)
      else if u.seat = own then ownUnit s i u
      else if first then (fragWrite s i u, u) else (s, u)
    let r := sendUnits i own first us p.1
    (r.1, p.2 :: r.2)

/-- The device's seat in a group. -/
def ownSeat (s : State) (group : Nat) : Nat := ((groupRec s group).map Group.seat).getD 0

/-- The outcome of an intent journaled at own seat, where it is among the seats still to answer and there is room; the seats left. -/
def ownOutcome (s : State) (i : Intent) (seats : List Nat) : State × List Nat :=
  let own := ownSeat s i.group
  if !(seats.contains own) then (s, seats)
  else
    match seatOutcome s i.group i.stripe i.run (if i.outcome = 2 then 2 else 1) with
    | some s => (s, seats.filter (· != own))
    | none => (s, seats)

/-- The outcome message of an intent sent to every seat of the run not marked lost; own seat is dealt with at once (Table 06-10 step 6). -/
def sendOutcome (s : State) (i : Intent) : State × List Nat :=
  let seats := (((runStripes i.stripe i.run).map fun st => stripeSeats s i.group i.genId st).flatten).eraseDups.filter (seatCounts s i.group)
  let s := (seats.filter (· != ownSeat s i.group)).foldl (fun s t => (peerRequest s (seatHull s i.group t)
    { op := if i.outcome = 2 then 0x84 else 0x83, group := i.group, stripe := i.stripe, gen := i.genId, k := i.k, m := i.m,
      arg0 := i.stripe, arg1 := i.run } []).1) s
  ownOutcome s i seats

/-- A record's change concerns the present copy of its slice's index (R162, R174): the slice is held, and the record is no older than that copy. -/
def changeLives (s : State) (rseq : Nat) (c : Bytes) : Bool :=
  sliceHeld s (chSlice c) && decide (chBucket c < 2 ^ sliceB s (chSlice c)) &&
    (match sliceRec s (chSlice c) with | some x => decide (rseq ≥ x.since) | none => true)

/-- The conditions of a bucket record: each bucket it names has a NAND copy with WRITE_SEQ at least the WSEQ of its change (Table 06-4); while the copy of
a slice is not whole its records stay. -/
def changesStored (s : State) (rseq : Nat) : Nat → Bytes → Bool
  | 0, _ => true
  | n + 1, b =>
    let c := b.take 64
    let stored := chOp c == 4 || !(changeLives s rseq c) ||
      (!(((sliceRec s (chSlice c)).map Slice.rebuilding).getD false) &&
        (match s.media.buckets.find? fun i => i.slice == chSlice c && i.bucket == chBucket c with
        | some i => decide (i.writeSeq ≥ chWseq c)
        | none => false))
    stored && changesStored s rseq n (b.drop 64)

/-- A live record of a kind has the group and intent identity of a record. -/
def sameIntent (s : State) (kind : Nat) (r : Bytes) : Bool := (pjKind s kind).any fun q => rkGroup q.2 == rkGroup r && rkIntent q.2 == rkIntent r

/-- The condition of an OUTCOME record (Table 06-4). -/
def outcomeDone (s : State) (r : Bytes) : Bool := !(sameIntent s 1 r) && changesStored s (rkSeq r) (fld (rkBody r) 8 2) ((rkBody r).drop 64)

/-- The condition of an INDEX record (Table 06-4). -/
def indexDone (s : State) (r : Bytes) : Bool := changesStored s (rkSeq r) (fld (rkBody r) 0 2) ((rkBody r).drop 64)

/-- The condition of Table 06-4 under which a record at an offset may be retired; that of an INTENT is met only in the step that retires it. -/
def recordDone (s : State) (r : Nat × Bytes) : Bool :=
  match rkKind r.2 with
  | 2 => outcomeDone s r.2
  | 3 => indexDone s r.2
  | 4 => sameIntent s 2 r.2
  | 5 => fragmentDone s r
  | 6 => fragOutcomeDone s r
  | 7 => true
  | _ => false

/-- OUTCOME and INDEX records whose conditions hold are retired (Table 06-4). An INDEX record stays, beyond its condition, while an OPEN_STRIPE of its group
and source that is older than it is live, for that stripe may hold the record it names (R238). -/
def settleIndexRecords (s : State) : State :=
  let opens := pjKind s 4
  let named := fun (r : Bytes) => opens.any fun o => rkGroup o.2 == rkGroup r && rkSource o.2 == rkSource r && decide (rkSeq o.2 < rkSeq r)
  let done := (pjLive s).filter fun r => (rkKind r.2 == 2 && outcomeDone s r.2) || (rkKind r.2 == 3 && !(named r.2) && indexDone s r.2)
  (done.map Prod.fst).foldl pjRetire s

/-- The records of an intent retired: INTENT, and OPEN_STRIPE of its stripe. -/
def retireIntent (s : State) (group stripe : Nat) : State :=
  let rs := (pjLive s).filter fun r => (rkKind r.2 == 1 || rkKind r.2 == 4) && rkGroup r.2 == group && rkIntent r.2 == stripe
  settleIndexRecords ((rs.map Prod.fst).foldl pjRetire s)

/-- The stripes of a run whose outcome is written: after a rollback they are kept no longer, else they are OPEN no longer (R286). -/
def keptDecided (s : State) (group stripe run result : Nat) : State :=
  match groupRec s group with
  | some g =>
    let left := if result = 2 then g.kept.filter (fun x => !(inRun stripe run x.stripe))
      else g.kept.map (fun x => if inRun stripe run x.stripe then { x with open_ := false } else x)
    putGroup s { g with kept := left }
  | none => s

/-- The OUTCOME of an intent written and mirrored, its OPEN_STRIPE retired (Table 06-10 step 5, R232). Without ring room the outcome stands and is
written later (R227). -/
def writeOutcome (s : State) (i : Intent) (result : Nat) : State :=
  let chs := if result = 2 then [] else i.changes
  match pjAppend s 2 0 i.group Config.hull i.stripe (outcomeBody result i.run chs) with
  | none => putIntent s { i with outcome := result, changes := chs }
  | some s =>
    let r := mirrorLast 0x11 (i.bows.filter fun h => !(hullLost s i.group h)) s
    let s := ((pjKind r.1 4).filter fun x => rkGroup x.2 == i.group && rkIntent x.2 == i.stripe && !(rkMirror x.2)).foldl (fun s x => pjRetire s x.1) r.1
    putIntent (keptDecided s i.group i.stripe i.run result) { i with outcome := result, outMirror := r.2, step := 5, changes := chs }

/-- A change of a rewrite still finds the version it copies as the current one. -/
def stillCurrent (s : State) (c : Bytes) : Bool :=
  let e := readEntry (slice c 16 24) (fld c 40 4)
  let b := bucketLook s (chSlice c) (chBucket c)
  match bkFind b e.nsid e.fpLow e.kc with
  | some i => (bkEntry b i).version == e.version
  | none => false

/-- The index changes of an intent applied to the buckets, with the WSEQ they got. A rewrite points the index at its copies only where the version
copied is still the current one. -/
def applyIntent (s : State) (i : Intent) : State × Intent :=
  let r := changeAll (if i.rewrite then i.changes.filter (stillCurrent s) else i.changes) s
  (r.1, { i with changes := r.2 })

/-- The commands whose condition an intent decides, with RESULT1[0] when ALL holds (R108, R110). -/
def answerWaiting (all : Bool) : List Cmd → State → State
  | [], s => s
  | c :: cs, s =>
    match c.reply with
    | none => answerWaiting all cs s
    | some msg => answerWaiting all cs (finish s c (if all then patch msg 24 (le 8 (fld msg 24 8 / 2 * 2 + 1)) else msg))

/-- The commands that wait for an intent under a condition. -/
def waitingFor (s : State) (group stripe : Nat) (kinds : List Nat) : List Cmd :=
  s.hte.cmds.filter fun c => c.intent == some (group, stripe) && kinds.contains c.waits && c.changes.isEmpty

/-- One step of an intent's progress through Table 06-10. -/
def intentStep (s : State) (i : Intent) : State :=
  let suspended := ((groupRec s i.group).map Group.gstate).getD 5 == 5
  if i.resolving && i.step < 5 then s
  else if i.outcome ≠ 0 ∧ i.step < 5 then writeOutcome s i i.outcome
  else if i.step = 2 then
    if allMirrored s i.group i.mirror && !suspended then
      let r := sendUnits i (ownSeat s i.group) true i.units s
      putIntent r.1 { i with step := 3, units := r.2, firstAt := s.now, sentAt := s.now }
    else s
  else if i.step = 3 ∨ i.step = 4 then
    if suspended then s
    else
      let r := sendUnits i (ownSeat s i.group) false i.units s
      let i := { i with units := r.2 }
      let s := putIntent r.1 i
      let all := allAcked s i
      let p := if i.step = 3 ∧ ((!i.durAll && quorumAcked s i) || all) = true then
          let a := applyIntent s i
          (putIntent a.1 { a.2 with step := 4 }, { a.2 with step := 4 })
        else (s, i)
      let s := p.1
      let i := p.2
      if i.step = 4 then
        let s := answerWaiting all (waitingFor s i.group i.stripe (if all then [1, 2] else if i.packed then [] else [1])) s
        if all then writeOutcome s i 1 else s
      else s
  else if i.step = 5 then
    if allMirrored s i.group i.outMirror then
      let r := sendOutcome s i
      putIntent r.1 { i with step := 6, seatsLeft := r.2, sentAt := s.now, firstAt := s.now }
    else s
  else if i.step = 6 then
    let r := ownOutcome s i i.seatsLeft
    let i := { i with seatsLeft := r.2 }
    let s := putIntent r.1 i
    if (i.seatsLeft.filter (seatCounts s i.group)).isEmpty then
      let s := retireIntent { s with pj := { s.pj with intents := s.pj.intents.filter fun j => !(j.group == i.group && j.stripe == i.stripe) } } i.group i.stripe
      (pairSendAll 0x15 (le 8 i.stripe ++ le 4 i.group) (i.bows.filter fun h => !(hullLost s i.group h)) s).1
    else s
  else s

/-- An intent taken as far as it goes now. -/
def advanceIntent (s : State) (group stripe : Nat) : State :=
  (List.range 6).foldl (fun s _ => match intentOf s group stripe with | some i => intentStep s i | none => s) s

/-- An intent opened (Table 06-10 steps 1 and 2): INTENT journaled, mirrored to the bows not marked lost, the stripes kept. None without ring
room. -/
def openIntent (s : State) (i : Intent) : Option State :=
  let iflags := b2n i.packed + 2 * b2n i.rewrite + 4 * b2n i.durAll
  match pjAppend s 1 0 i.group Config.hull i.stripe (intentBody i.run i.k i.m i.genId iflags i.nsid i.keyGen i.changes) with
  | none => none
  | some s =>
    let r := mirrorLast 0x10 (i.bows.filter fun h => !(hullLost s i.group h)) s
    let s := (runStripes i.stripe i.run).foldl
      (fun s st => addKept s i.group ⟨st, i.genId, i.nsid, i.packed, false, true,
        if i.packed then 65536 else ((i.changes.head?).map chSlice).getD 65536⟩) r.1
    let s := { s with pj := { s.pj with intents := s.pj.intents ++ [{ i with mirror := r.2, step := 2 }] } }
    some (advanceIntent s i.group i.stripe)

/-- An intent with nothing done yet. -/
def newIntent (group stripe run : Nat) (x : GenSet) (packed rewrite : Bool) (nsid keyGen : Nat) (changes : List Bytes) (bows : List Nat)
    (units : List IntentUnit) : Intent :=
  ⟨group, stripe, run, x.k, x.m, x.genId, packed, rewrite, nsid, keyGen, changes, bows, [], units, 1, 0, [], [], 0, 0, false, [], [], false⟩

/-- The stripes of a large record: the stream cut into plaintext areas, encrypted, with parity and void units (R168, R170, R192). -/
def largeUnits (s : State) (group nsid seat serial : Nat) (x : GenSet) (key : Bytes) (stream : Bytes) (run : Nat) : List IntentUnit :=
  ((List.range run).map fun j =>
    let st := stripeId seat (serial + j)
    let data := (List.range x.k).map fun u =>
      let n := j * x.k + u
      let part := slice stream (plainLen * n) plainLen
      if part = [] ∧ u ≠ 0 then []
      else dataUnit (some key) (chunkHeader true nsid group x.k x.m x.genId (st + u) 1 (if n = 0 then 0 else 0xFFFF)) part
    stripeUnits s group st x data).flatten

/-! ### Open packed stripes (R189 to R192, R235 to R237) -/

/-- The bows of a packed stripe: the distinct bows of the slices of the group for which the device acts (R236). -/
def packBows (s : State) (group : Nat) : List Nat :=
  (((heldSlices s).filter fun x => sliceGroup s x == group && actsFor s x).filterMap (sliceBow s)).eraseDups

/-- The address of a byte of the plaintext area of unit u of an open stripe. -/
def openAddr (s : State) (o : OpenStripe) (u off : Nat) : Nat := slotAddr64 s ((o.slots[u]?).getD 0) + 64 + off

/-- An open stripe's record replaced. -/
def putOpen (s : State) (o : OpenStripe) : State :=
  { s with pj := { s.pj with opens := s.pj.opens.map fun p => if p.group == o.group && p.stripe == o.stripe then o else p } }

/-- The open stripe of a group and namespace that still takes records. -/
def openFor (s : State) (group nsid : Nat) : Option OpenStripe := s.pj.opens.find? fun o => o.group == group && o.nsid == nsid && !o.sealing

/-- The OPEN_STRIPE body (Table 06-8). -/
def openBody (o : OpenStripe) : Bytes :=
  le 2 o.nsid ++ le 1 o.k ++ le 1 o.m ++ le 1 o.genId ++ le 1 o.bows.length ++ zeros 2 ++ fit ((o.bows.map (le 8)).flatten) 32 ++
    (((List.range 20).map fun j => le 4 ((o.slots[j]?).getD 0xFFFFFFFF)).flatten) ++ zeros 8

/-- The plaintext area of unit u of an open stripe. -/
def openPlain (s : State) (o : OpenStripe) (u : Nat) : Bytes := peek s (openAddr s o u 0) plainLen

/-- Where the first record of a plaintext area begins: at its first multiple of 8 that is not zero; 0xFFFF where it holds none. Records zeroed under R237 and
R238 are none, so the stroke and each bow find the same (log entry 70). -/
def firstRec (p : Bytes) : Nat := match p.findIdx? (· != 0) with | some i => i / 8 * 8 | none => 0xFFFF

/-- The sealed units of an open stripe: the units that hold records, void units after the last of them, parity (R192). -/
def sealedUnits (s : State) (o : OpenStripe) (x : GenSet) (key : Option Bytes) : List IntentUnit :=
  let areas := (List.range o.k).map (openPlain s o)
  let last := ((List.range o.k).filter fun u => firstRec ((areas[u]?).getD []) != 0xFFFF).foldl max 0
  let data := (List.range o.k).map fun u =>
    let p := (areas[u]?).getD []
    if u > last then []
    else dataUnit key (chunkHeader key.isSome o.nsid o.group o.k o.m o.genId (o.stripe + u) (if key.isSome then 1 else 0) (firstRec p)) p
  stripeUnits s o.group o.stripe x data

/-- Data units read by the cipher engine and, as ciphertext, by the erasure engine (Table 01-2 steps 5 and 6). -/
def codeUnits (s : State) (units : List Nat) : State := units.foldl (fun s a => touch (touch s 9 a 65536) 8 a 65536) s

/-- A stripe sealed once every APPEND is acknowledged: its packed intent opens (R237, R230). Not while the group is SUSPENDED, the data key is
missing or the ring has no room: the stripe stays as it is. -/
def sealNow (s : State) (o : OpenStripe) (clear : Bool) : State :=
  let suspended := ((groupRec s o.group).map Group.gstate).getD 5 == 5
  match genOf s o.group o.genId with
  | none => s
  | some x =>
    if suspended || !(allMirrored s o.group o.mirror) || (!clear && (nsKey s o.nsid).isNone) then s
    else
      let key := if clear then none else nsKey s o.nsid
      let s := if clear then s else codeUnits s (o.slots.map (slotAddr64 s))
      let i := newIntent o.group o.stripe 1 x true false o.nsid (if clear then 0 else 1) [] o.bows (sealedUnits s o x key)
      match openIntent s i with
      | some s => { s with pj := { s.pj with opens := s.pj.opens.filter fun p => !(p.group == o.group && p.stripe == o.stripe) } }
      | none => s

/-- A stripe takes no more records and is sealed as soon as it can be (R191). The clear descriptor stripe is known by KEY_GEN 0. -/
def sealStripe (s : State) (o : OpenStripe) : State :=
  let o := { o with sealing := true }
  sealNow (putOpen s o) o (o.keyGen == 0)

/-- A new open stripe: k slots zeroed, a serial, OPEN_STRIPE journaled and mirrored (R235); none without slots, ring room or serial. -/
def openPacked (s : State) (g : Group) (nsid sealUs keyGen : Nat) : Option (OpenStripe × State) :=
  match writingSet s g.id with
  | none => none
  | some x =>
    match slotsFree s x.k, ringRoom s 256 with
    | some slots, true =>
      match takeSerials s g 1 with
      | none => none
      | some (serial, s) =>
        let s := slots.foldl (fun s i => storeAs s 4 (slotAddr64 s i) (zeros 65536)) s
        let o : OpenStripe := ⟨g.id, nsid, stripeId g.seat serial, x.k, x.m, x.genId, keyGen, packBows s g.id, slots, List.replicate x.k 0,
          List.replicate x.k 0xFFFF, none, sealUs, [], [], false⟩
        let s := pjWrite s 4 g.id o.stripe (openBody o)
        let r := mirrorLast 0x13 (o.bows.filter fun h => !(hullLost s g.id h)) s
        let o := { o with mirror := r.2 }
        some (o, { r.1 with pj := { r.1.pj with opens := r.1.pj.opens ++ [o] } })
    | _, _ => none

/-- The place a record of `n` bytes takes in an open stripe: unit and offset (R190). -/
def packSpot (o : OpenStripe) (n : Nat) : Option (Nat × Nat) :=
  let cur := ((List.range o.k).filter fun u => decide ((o.used[u]?).getD 0 > 0)).foldl max 0
  let off := alignUp ((o.used[cur]?).getD 0) 8
  if off + n ≤ plainLen then some (cur, off) else if cur + 1 < o.k then some (cur + 1, 0) else none

/-- APPEND frames of at most 8,192 bytes for bytes at a place, to the bows of the stripe. -/
def appendFrames (o : OpenStripe) (u : Nat) : Nat → Nat → Bytes → State → State × List (Nat × Nat)
  | 0, _, _, s => (s, [])
  | n + 1, off, b, s =>
    if b = [] then (s, [])
    else
      let part := b.take 8192
      let body := le 8 (o.stripe + u) ++ le 4 off ++ le 4 part.length ++ zeros 48 ++ part
      let r := pairSendAll 0x14 body (o.bows.filter fun h => !(hullLost s o.group h)) s
      let t := appendFrames o u n (off + part.length) (b.drop 8192) r.1
      (t.1, r.2 ++ t.2)

/-- Bytes written at a place of an open stripe and mirrored (R235 steps 1 and 2). -/
def writeOpen (s : State) (o : OpenStripe) (u off : Nat) (b : Bytes) : State × OpenStripe :=
  let s := storeAs s 4 (openAddr s o u off) b
  let r := appendFrames o u (b.length / 8192 + 1) off b s
  let o := { o with mirror := o.mirror ++ r.2 }
  (putOpen r.1 o, o)

/-- A record packed into an open stripe of its group and namespace, which is opened where there is none and sealed where it is full; the stripe,
unit and offset. None while there is no room: the oldest open stripe is then sealed (R191). -/
def packInto : Nat → State → Nat → Nat → Nat → Nat → Nat → Nat → Bytes → Option ((Nat × Nat × Nat) × State)
  | 0, _, _, _, _, _, _, _, _ => none
  | n + 1, s, group, nsid, keyGen, sealUs, slice, owner, rec_ =>
    match groupRec s group with
    | none => none
    | some g =>
      match openFor s group nsid with
      | none =>
        match openPacked s g nsid sealUs keyGen with
        | none => none
        | some (_, s) => packInto n s group nsid keyGen sealUs slice owner rec_
      | some o =>
        match packSpot o rec_.length with
        | none => packInto n (sealStripe s o) group nsid keyGen sealUs slice owner rec_
        | some (u, off) =>
          let o := { o with used := o.used.set u (off + rec_.length),
                            first := if (o.first[u]?).getD 0xFFFF = 0xFFFF then o.first.set u off else o.first,
                            firstAt := some (o.firstAt.getD s.now), sealUs := if o.firstAt.isNone then sealUs else o.sealUs,
                            recs := o.recs ++ [(u, off, rec_.length, slice, owner)] }
          let r := writeOpen s o u off rec_
          some ((o.stripe, u, off), r.1)

/-- Records of namespace 0 written in the clear in a stripe of their own, which is sealed at once (R171); none without room. -/
def clearStripe (s : State) (g : Group) (recs : Bytes) : Option State :=
  (openPacked s g 0 2000 0).map fun p =>
    let o := { p.1 with used := p.1.used.set 0 recs.length, first := p.1.first.set 0 0, recs := [(0, 0, recs.length, 65536, 2 ^ 20)] }
    let r := writeOpen p.2 o 0 0 recs
    sealStripe r.1 r.2

/-- SEAL_US of a namespace, 2,000 where it gives 0. -/
def sealUsOf (s : State) (nsid : Nat) : Nat := let v := ((nsOf s nsid).map Namespace.sealUs).getD 0; if v = 0 then 2000 else v

/-- A record packed for a slice (R189). -/
def packRecord (s : State) (slice nsid owner : Nat) (rec_ : Bytes) : Option ((Nat × Nat × Nat) × State) :=
  packInto 4 s (sliceGroup s slice) nsid 1 (sealUsOf s nsid) slice owner rec_

/-- The bows of a stripe that is open or being committed; none where it is neither. -/
def stripeBows (s : State) (group stripe : Nat) : List Nat :=
  match s.pj.opens.find? fun o => o.group == group && o.stripe == stripe with
  | some o => o.bows
  | none => ((intentOf s group stripe).map Intent.bows).getD []

/-- An INDEX record of changes, mirrored to every bow of the stripe that holds their records and to the bow of the slice, and the frames to wait for (R235 steps
3 and 4, R238). -/
def indexRecord (s : State) (slice stripe : Nat) (changes : List Bytes) : Option (State × List (Nat × Nat)) :=
  let group := sliceGroup s slice
  match pjAppend s 3 0 group Config.hull 0 (le 2 changes.length ++ zeros 62 ++ changes.flatten) with
  | none => none
  | some s =>
    let bows := ((sliceBow s slice).toList ++ stripeBows s group stripe).eraseDups
    some (mirrorLast 0x12 (bows.filter fun h => !(hullLost s group h)) s)

/-- A change with the WSEQ its bucket would give it now (R229). -/
def stampChange (s : State) (c : Bytes) : Bytes := patch c 8 (le 8 (bkSeq (bucketLook s (chSlice c) (chBucket c)) + 1))

/-- The most index changes that one record carries (NIREC, Tables 06-5 to 06-7). -/
def nirecMax : Nat := 126

/-- Changes of a slice journaled in INDEX records that are not mirrored, as many as each takes, and applied (R159); none without ring room. -/
def journalParts (slice : Nat) : Nat → List Bytes → State → Option State
  | 0, _, s => some s
  | n + 1, cs, s =>
    if cs = [] then some s
    else
      let part := (cs.take nirecMax).map (stampChange s)
      match pjAppend s 3 0 (sliceGroup s slice) Config.hull 0 (le 2 part.length ++ zeros 62 ++ part.flatten) with
      | none => none
      | some s => journalParts slice n (cs.drop nirecMax) (changeAll part s).1

/-- Changes that this device makes in its own copy of a slice's index; none without ring room or while a bucket cannot be changed. -/
def journalApply (s : State) (slice : Nat) (changes : List Bytes) : Option State :=
  if changes.any fun c => chOp c != 4 && (bucketOpen s (chSlice c) (chBucket c)).isNone then none
  else journalParts slice (changes.length / nirecMax + 1) changes s

/-! ### Progress -/

/-- The stripe that holds a record is durable under ALL: it is sealed and its intent has committed. -/
def stripeDurable (s : State) (p : Nat × Nat) : Bool :=
  !(s.pj.opens.any fun o => o.group == p.1 && o.stripe == p.2) &&
    !(s.pj.intents.any fun i => i.group == p.1 && i.stripe == p.2 && decide (i.step < 5))

/-- The commands whose record or hold is journaled and mirrored: their changes take effect, and those that wait for nothing more reply (R108,
R235); under ALL they wait for the stripe, unless it has committed meanwhile. -/
def cmdProgress : List Cmd → State → State
  | [], s => s
  | c :: cs, s =>
    if c.changes.isEmpty || !(allMirrored s (((c.intent.map Prod.fst)).getD 0) c.mirror) then cmdProgress cs s
    else
      let s := (changeAll c.changes s).1
      let c := { c with changes := [], mirror := [] }
      let s := putCmd s c
      match c.waits, c.reply with
      | 3, some msg => cmdProgress cs (finish s c msg)
      | 2, some msg => cmdProgress cs (if (c.intent.map (stripeDurable s)).getD false then finish s c (patch msg 24 (le 8 (fld msg 24 8 / 2 * 2 + 1))) else s)
      | _, _ => cmdProgress cs s

/-- Stripes waiting to be sealed. -/
def openProgress (s : State) : State := (s.pj.opens.filter (·.sealing)).foldl (fun s o => sealNow s o (o.keyGen == 0)) s

/-- The open stripe of a group and namespace in which the device may no longer pack (R189, R191): it acts for no slice of the group, or not for a slice
whose record the stripe holds. -/
def openStale (s : State) (o : OpenStripe) : Bool :=
  !((heldSlices s).any fun x => sliceGroup s x == o.group && actsFor s x) ||
    o.recs.any fun r => decide (r.2.2.2.1 < 65536) && !(actsFor s r.2.2.2.1)

/-- The open stripes sealed that the device must not keep open: every one where it is neither READY nor in REPLAY, else the stale ones (R189, R191). -/
def sealStale (s : State) : State :=
  (s.pj.opens.filter fun o => !o.sealing && ((s.pwr.dev != 4 && s.pwr.dev != 3) || openStale s o)).foldl sealStripe s

/-- The oldest open stripe sealed where another one needs its journal room (R191). -/
def sealOldest (s : State) : State :=
  match s.pj.opens.filter fun o => !o.sealing with
  | o :: _ => sealStripe s o
  | [] => s

/-- Everything under way taken as far as it goes now: open stripes, commands, intents. -/
def advance (s : State) : State :=
  let s := openProgress (sealStale s)
  let s := cmdProgress s.hte.cmds s
  (s.pj.intents.map fun i => (i.group, i.stripe)).foldl (fun s p => advanceIntent s p.1 p.2) s

/-- The seal conditions of R191 that hold for every open stripe of the device. -/
def sealAll (s : State) : State := (s.pj.opens.filter fun o => !o.sealing).foldl sealStripe s

/-- The greatest version that a change still pending gives in a slice. -/
def pendingVersion (s : State) (x : Nat) : Nat :=
  let cs := (s.pj.intents.map Intent.changes).flatten ++ (s.hte.cmds.map Cmd.changes).flatten
  ((cs.filter fun c => chSlice c == x && chOp c != 4).map fun c => fld c 56 8).foldl max 0

/-- The next version of a slice (R106, R157); a change still pending has spent its own. -/
def nextVersion (s : State) (x : Nat) : Nat := max (sliceVersion s x) (pendingVersion s x) + 1

/-! ### What is free (R161, R162, R187) -/

/-- The greatest version a slice's counter can reach (R161). -/
def versionTop : Nat := 2 ^ 56 - 1

/-- The changes not yet applied to their buckets. -/
def pendingChanges (s : State) : List Bytes :=
  ((s.pj.intents.filter fun i => decide (i.step < 4)).map Intent.changes).flatten ++ (s.hte.cmds.map Cmd.changes).flatten

/-- A discard's removal is durable: its record and index change are journaled and mirrored (R120). -/
def discardDone (s : State) (d : Discarded) : Bool :=
  match d.mirror with
  | some l => allMirrored s (sliceGroup s d.slice) l
  | none => false

/-- The places of a bucket in use: its entries, those of removals by DISCARD not yet durable (R162), and new entries of changes under way. -/
def placesUsed (s : State) (p : KeyPlace) (b : Bytes) : Nat :=
  bkCount b + (s.kv.discards.filter fun d => d.slice == p.slice && d.bucket == p.bucket && !(discardDone s d)).length +
    ((pendingChanges s).filter fun c => chOp c == 1 && chSlice c == p.slice && chBucket c == p.bucket && (chFind b c).isNone).length

/-- A run of serials is past the last one (R187). -/
def serialsOut (s : State) (group run : Nat) : Bool :=
  match groupRec s group with
  | some g => decide (g.nextSerial + run > 2 ^ 54)
  | none => false

/-- A record of at most `n` bytes needs a serial past the last one: no open stripe of the group and namespace takes it (R187). -/
def packOut (s : State) (group nsid n : Nat) : Bool :=
  serialsOut s group 1 && !((openFor s group nsid).any fun o => (packSpot o n).isSome)

end Sys2Proof.Machine
end

