-- ==== Sys2Proof/Machine/Slices.lean ====
section
/-! DEFINITION. The copies of slices that this device holds (04): directory runs, copies begun anew, the index changes that carry a slice, SLICE_COPY. -/

namespace Sys2Proof.Machine

/-! ### Directory runs (R146, R147) -/

/-- The directory words in use: 2^B for each slice held. -/
def dirUsed (s : State) : Nat := ((heldSlices s).map fun x => 2 ^ sliceB s x).sum

/-- A first directory index, a multiple of 2^b, for a run of 2^b words that overlaps no held slice's run. -/
def dirFree (s : State) (b : Nat) : Option Nat :=
  let runs := (heldSlices s).map fun x => (sliceDir s x, 2 ^ sliceB s x)
  let n := 2 ^ b
  ((List.range (2 ^ 25 / n)).find? fun i => !(runs.any fun r => overlaps r.1 r.2 (i * n) n)).map (· * n)

/-- A held slice with its B and directory words, put in descending order of B. -/
def insertRun (e : Nat × Nat × Bytes) : List (Nat × Nat × Bytes) → List (Nat × Nat × Bytes)
  | [] => [e]
  | h :: t => if e.2.1 > h.2.1 then e :: h :: t else h :: insertRun e t

/-- Slices laid one after another from a directory index with the words they had. -/
def layRuns : List (Nat × Nat × Bytes) → Nat → State → State
  | [], _, s => s
  | (x, b, w) :: t, d, s =>
    let s := crewStore s (getF s F.HTE_DIR_BASE_ADDR * 4096 + 8 * d) w
    layRuns t (d + 2 ^ b) (putSliceWord s x (sliceWord s x / 2 ^ 25 * 2 ^ 25 + d))

/-- The held slices placed anew from index 0, the greatest runs first, so that the words free lie together (R147, R156). -/
def dirCompact (s : State) : State :=
  layRuns (((heldSlices s).map fun x => (x, sliceB s x, peek s (dirAddr s x 0) (8 * 2 ^ sliceB s x))).foldr insertRun []) 0 s

/-- A slice this device begins to hold: its directory words EMPTY, its table entry, its record. Unchanged where the directory has no room for it. -/
def holdSlice (s : State) (x b : Nat) : State :=
  if dirUsed s + 2 ^ b > 2 ^ 25 then s
  else
    let s := if (dirFree s b).isNone then dirCompact s else s
    match dirFree s b with
    | none => s
    | some d =>
      let s := crewStore s (getF s F.HTE_DIR_BASE_ADDR * 4096 + 8 * d) (zeros (8 * 2 ^ b))
      putSlice (putSliceWord s x (2 ^ 63 + b * 2 ^ 32 + d)) ((sliceRec s x).getD (newSlice x s.pj.rseq))

/-- A slice this device no longer holds: its words cleared, its buckets on NAND dropped (R330). -/
def leaveSlice (s : State) (x : Nat) : State :=
  let s := crewStore s (getF s F.HTE_DIR_BASE_ADDR * 4096 + 8 * sliceDir s x) (zeros (8 * 2 ^ sliceB s x))
  let s := putSliceWord s x 0
  addNote { s with kv := { s.kv with slices := s.kv.slices.filter fun y => y.slice != x } } 5 0 0 x 0

/-- A held slice's copy dropped and begun anew, empty and not whole, with 2^b buckets; its role and what is recorded of it stand. -/
def renewSlice (s : State) (x b : Nat) : State :=
  let act := bitAt (sliceWord s x) 62
  let old := (sliceRec s x).getD (newSlice x 0)
  let s := holdSlice (leaveSlice s x) x b
  setActing (putSlice s { old with since := s.pj.rseq, rebuilding := true, refill := [], redo := false }) x act

/-! ### Index copies (R214) -/

/-- The changes that carry a slice's index: for each bucket its VERSION_MAX, one for each entry and one for each hold (Table 06-5). -/
def sliceChanges (s : State) (x : Nat) : List Bytes :=
  ((bucketsOf s x).map fun b =>
    let k := bucketLook s x b
    let vs := if bkVersion k = 0 then [] else [changeBytes 2 0 x b [] 0 0 0 (bkVersion k)]
    let es := (List.range (bkCount k)).map fun i => changeBytes 1 0 x b (slice k (64 + 24 * i) 24) (fld k (12352 + 4 * i) 4) 0 0 (bkVersion k)
    let hs := (bkHoldList k).map fun h =>
      changeBytes 3 h.kind x b (slice k (64 + 24 * h.slot) 24) (fld k (12352 + 4 * h.slot) 4) h.serial h.expiry (bkVersion k)
    vs ++ es ++ hs).flatten

/-- SLICE_COPY of changes to a device, 1,024 in a message; the last message of a copy, which may be empty, carries fewer. DESIGN CHOICE: the spec does not say
how a receiver knows that a copy has ended (log entry 68). -/
def sendCopy (s : State) (hull x : Nat) : Nat → List Bytes → State
  | 0, _ => s
  | n + 1, cs =>
    let s := (peerRequest s hull { op := 0x8A, group := sliceGroup s x, arg0 := x } ((cs.take 1024).flatten)).1
    if cs.length < 1024 then s else sendCopy s hull x n (cs.drop 1024)

/-- The changes of a slice sent to a device whole. -/
def copyTo (s : State) (hull x : Nat) (cs : List Bytes) : State := sendCopy s hull x (cs.length / 1024 + 1) cs

/-- A copy of a slice asked of its acting stroke: a SLICE_COPY with no body. DESIGN CHOICE: the spec names no message for it (log entry 68). -/
def askCopy (s : State) (x : Nat) : State := (peerRequest s (actingHull s x) { op := 0x8A, group := sliceGroup s x, arg0 := x } []).1

/-- The first changes of a list that concern one bucket, as many as a record takes. -/
def firstChunk (cs : List Bytes) : List Bytes :=
  match cs with
  | [] => []
  | c :: _ => (cs.takeWhile fun d => chBucket d == chBucket c && (chOp d == 4) == (chOp c == 4)).take nirecMax

/-- Changes of a slice journaled and applied bucket by bucket for as long as there is room; those left (R159). -/
def fillSlice (x : Nat) : Nat → List Bytes → State → State × List Bytes
  | 0, cs, s => (s, cs)
  | n + 1, cs, s =>
    if cs = [] then (s, [])
    else
      let part := firstChunk cs
      match journalApply s x part with
      | none => (s, cs)
      | some s => fillSlice x n (cs.drop part.length) s

/-- The bucket of an index change of a slice of 2^b buckets, in one of 2^b' (R155). -/
def rebucket (b b' : Nat) (c : Bytes) : Bytes :=
  patch c 4 (le 4 (hashBucket (chBucket c * 2 ^ (48 - b) + fld c 16 8 % 2 ^ 39 % 2 ^ (48 - b)) b'))

/-- A held slice whose placement has another B under a new rig (R145): its copy is laid out anew, and what is under way follows. -/
def relaySlice (s : State) (x b' : Nat) : State :=
  let b := sliceB s x
  let cs := (sliceChanges s x).map (rebucket b b')
  let move := fun (c : Bytes) => if chSlice c = x ∧ chOp c ≠ 4 then rebucket b b' c else c
  let s := renewSlice s x b'
  let s := match sliceRec s x with | some r => putSlice s { r with refill := cs } | none => s
  let s := { s with hte := { s.hte with cmds := s.hte.cmds.map fun (c : Cmd) => { c with changes := c.changes.map move } } }
  let follow := fun (d : Discarded) => if d.slice = x then { d with change := move d.change, bucket := chBucket (move d.change) } else d
  { s with kv := { s.kv with discards := s.kv.discards.map follow } }

/-- A copy that is whole: writes run, and after a rebuild from stripes EV_INDEX_REBUILT is recorded and the bow is sent the slice (R174, R175). -/
def refillEnd (s : State) (r : Slice) : State :=
  let s := putSlice s { r with refill := [], rebuilding := false, redo := false }
  if r.redo then
    let s := logCrew s EV.indexRebuilt
    match sliceBow s r.slice with
    | some h => if hullLost s (sliceGroup s r.slice) h then s else copyTo s h r.slice (sliceChanges s r.slice)
    | none => s
  else s

/-- The changes that a slice's new copy still lacks written, as far as there is room. -/
def refillStep (s : State) (x : Nat) : State :=
  match sliceRec s x with
  | none => s
  | some r =>
    if r.refill = [] && !r.redo then s
    else
      let f := fillSlice x r.refill.length r.refill s
      match sliceRec f.1 x with
      | none => f.1
      | some r => if f.2 = [] then refillEnd f.1 r else putSlice f.1 { r with refill := f.2 }

/-- Every copy that is not whole taken as far as it goes. -/
def refillAll (s : State) : State := (s.kv.slices.map Slice.slice).foldl refillStep s

end Sys2Proof.Machine
end

