-- ==== Sys2Proof/Machine/Journal.lean ====
section
/-! DEFINITION. The commands of the energy store and the protected journal (06): test discharge, size, vault map, restore, allocation ports, and
replay; the vault image that a dump leaves. -/

namespace Sys2Proof.Machine

/-! ### Energy store (R220 to R222) -/

/-- E of R220 in millijoules, rounded down. -/
def esEnergy (testMs v0 v1 vmin r eff : Nat) : Nat :=
  if r = 0 ∨ v1 ≥ v0 ∨ v0 ≤ vmin then 0 else eff * testMs * (v0 + v1) * (v0 * v0 - vmin * vmin) / (400000 * r * (v0 - v1))

/-- E_req of a journal of u units does not exceed an energy in millijoules (R221). -/
def esEnough (u mj : Nat) : Bool :=
  let t := 200000000 + u * 0x10000000
  decide (5 * (190 * t + (3200000000 - t)) ≤ 800000000 * mj)

/-- P_V: the least number of pages of a vault block set (R240); 0 with no valid entry. -/
def vaultPages (s : State) : Nat :=
  let ps := (List.range 512).filterMap fun i =>
    if flag s (F.PJ_VMAP_VALID i) then
      let n := getF s (F.PJ_VMAP_CHANNEL i)
      let t := 4 * getF s (F.PJ_VMAP_CE i) + getF s (F.PJ_VMAP_LUN i)
      some (4 * (getF s (F.FC_LUN_GEOM_PPB n t) / max (getF s (F.FC_LUN_GEOM_BPC n t)) 1))
    else none
  match ps with
  | [] => 0
  | p :: rest => rest.foldl min p

/-- PJ_LIMIT.UNITS (R221). -/
def pjLimit (s : State) : Nat :=
  ((List.range 17).drop 1).foldl (fun best u => if esEnough u (getF s F.ES_ENERGY_MJ) && decide (64 * u + 2 ≤ vaultPages s) then u else best) 0

/-- PJ_LIMIT computed anew. -/
def setLimit (s : State) : State := setF s F.PJ_LIMIT_UNITS (pjLimit s)

/-- The control block of the journal written (Table 06-2). -/
def controlBlock (s : State) : State := crewStore s dramBase (fit (le 4 0x33485A41 ++ le 4 s.pj.units ++ le 8 Config.hull) 65536)

/-- The size that the restored records held given up once the journal is empty, for the configured one (R223; log entry 71). -/
def journalResize (s : State) : State :=
  if s.pj.restoring.isNone || pjTail s != pjHead s then s
  else controlBlock { s with pj := { s.pj with restoring := none, units := min (getF s F.PJ_CTRL_SIZE) (getF s F.PJ_LIMIT_UNITS) } }

/-- The configured size set (R222, R223): while restored records remain the size recorded with them stays. -/
def setJournalSize (s : State) : State :=
  let u := min (getF s F.PJ_CTRL_SIZE) (getF s F.PJ_LIMIT_UNITS)
  let s := { s with pj := { s.pj with units := s.pj.restoring.getD u } }
  if u < getF s F.PJ_CTRL_SIZE then logCrew s EV.journalLimited else s

/-- A test discharge begins: the discharge-test control closes and V0 is sampled. While a test runs it starts nothing (log entry 33). -/
def esTestStart (s : State) (v0 : Nat) : State :=
  if flag s F.ES_STATUS_BUSY then s
  else
    let s := setF (setF (setF s F.ES_STATUS_BUSY 1) F.ES_V0_MV v0) F.ES_SENSE_MV v0
    { s with pj := { s.pj with testAt := some (s.now + getF s F.ES_CTRL_TEST_MS * ms) }, pins := { s.pins with esDisch := true } }

/-- ES_CTRL.TEST (R220). -/
def execEsTest (core v0 : Nat) (s : State) : Res :=
  coreStore s core F.ES_CTRL_TEST.addr fun s => .next (esTestStart s v0)

/-- The test ends (R220, R221): the control opens, V1 is sampled, ES_ENERGY and PJ_LIMIT follow; source 4 pulses. -/
def esTestEnd (s : State) (v1 : Nat) : State :=
  match s.pj.testAt with
  | none => s
  | some t =>
    let s := reach s t
    let s := setF (setF s F.ES_V1_MV v1) F.ES_SENSE_MV v1
    let e := esEnergy (getF s F.ES_CTRL_TEST_MS) (getF s F.ES_V0_MV) (getF s F.ES_V1_MV) (getF s F.ES_VMIN_MV) (getF s F.ES_RTEST_MILLIOHM)
      (getF s F.ES_EFF_PCT)
    let s := setLimit (setF s F.ES_ENERGY_MJ e)
    let s := setF (setF s F.ES_STATUS_BUSY 0) F.ES_STATUS_DONE 1
    pulse { s with pj := { s.pj with testAt := none }, pins := { s.pins with esDisch := false } } 4

/-- ES_TEST_END (R220). -/
def execEsTestEnd (v1 : Nat) (s : State) : Res := whileCore s fun s => .next (esTestEnd s v1)

/-- What crew firmware keeps of the vault map and the size it requests. -/
def keepVault (s : State) (entry value : Nat) : State := { s with pj := { s.pj with kept := kvPut s.pj.kept entry value } }

/-- PJ_CTRL.ENABLE set (R222, R224): the configured size is fixed and the control block written. With no unit ENABLE stays 0; the device records
EV_ENERGY_LOW and will be READ_ONLY. -/
def pjEnable (s : State) : State :=
  if flag s F.PJ_CTRL_ENABLE then s
  else
    let s := setJournalSize (keepVault s 512 (getF s F.PJ_CTRL_SIZE))
    if getF s F.PJ_LIMIT_UNITS = 0 then logCrew { s with media := { s.media with readOnly := some 3 } } EV.energyLow
    else setF (controlBlock s) F.PJ_CTRL_ENABLE 1

/-- PJ_ENABLE (R222). -/
def execPjEnable (core : Nat) (s : State) : Res := coreStore s core F.PJ_CTRL_ENABLE.addr fun s => .next (pjEnable s)

/-- The fields of a vault map entry set. -/
def putVmap (s : State) (entry value : Nat) : State :=
  let s := setF (setF (setF s (F.PJ_VMAP_VALID entry) (bits value 63 1)) (F.PJ_VMAP_CHANNEL entry) (bits value 35 5)) (F.PJ_VMAP_CE entry) (bits value 32 3)
  setF (setF s (F.PJ_VMAP_LUN entry) (bits value 30 2)) (F.PJ_VMAP_ROW entry) (bits value 0 24)

/-- A LUN named by a vault map value is present. -/
def vmapLun (s : State) (v : Nat) : Bool := flag s (F.FC_LUN_STATUS_PRESENT (bits v 35 5) (4 * bits v 32 3 + bits v 30 2))

/-- A write to a PJ_VMAP entry (R240): PJ_LIMIT is computed anew and the configured size set again. Undefined while DUMP_ARM is 1, for a LUN
that is absent, and for a LUN named twice in a set (R258, third case). -/
def execPjVmapWrite (core entry value : Nat) (s : State) : Res :=
  coreStore s core (F.PJ_VMAP_VALID entry).addr fun s =>
    let same := fun i => i != entry && i / 256 == entry / 256 && flag s (F.PJ_VMAP_VALID i) && getF s (F.PJ_VMAP_CHANNEL i) == bits value 35 5 &&
      getF s (F.PJ_VMAP_CE i) == bits value 32 3 && getF s (F.PJ_VMAP_LUN i) == bits value 30 2
    if entry ≥ 512 then .next s
    else if bits value 40 23 ≠ 0 ∨ bits value 24 6 ≠ 0 then .fault .reservedNonzero
    else if flag s F.PJ_CTRL_DUMP_ARM || (bitAt value 63 && (!(vmapLun s value) || (List.range 512).any same)) then .fault (.undefined258 3)
    else
      let s := setLimit (keepVault (putVmap s entry value) entry value)
      .next (if flag s F.PJ_CTRL_ENABLE then setJournalSize s else s)

/-! ### Vault images (R240 to R242) -/

/-- The cells of the journal range of the configured size, as a read through the cache finds them (R30). -/
def journalCells (s : State) : List Host.Cell :=
  let top := dramBase + s.pj.units * 0x10000000
  let dirty := (s.sc.evict ++ s.sc.lines).filter fun l => l.dirty && decide (dramBase ≤ l.line * 256) && decide (l.line * 256 < top)
  let m := dirty.foldl (fun m l => memPut m (l.line * 256) l.data) s.mem
  (m.dropWhile fun c => decide (c.1 < dramBase)).takeWhile fun c => decide (c.1 < top)

/-- The newest image by DUMP_SEQ among those of which a header is left. -/
def newestImage (s : State) : Option VaultImage :=
  match s.pj.vault.filter fun i => i.bsns.any fun b => !(i.gone.contains b) with
  | [] => none
  | i :: rest => some (rest.foldl (fun a b => if b.seq > a.seq then b else a) i)

/-- The newest complete image. -/
def newestComplete (s : State) : Option VaultImage :=
  match s.pj.vault.filter VaultImage.complete with
  | [] => none
  | i :: rest => some (rest.foldl (fun a b => if b.seq > a.seq then b else a) i)

/-- Cells kept in their order outside a range, with others put in it. -/
def replaceCells (m : List Host.Cell) (lo hi : Nat) (cells : List Host.Cell) : List Host.Cell :=
  m.filter (fun c => decide (c.1 < lo)) ++ cells.filter (fun c => decide (lo ≤ c.1) && decide (c.1 < hi)) ++ m.filter fun c => decide (hi ≤ c.1)

/-- Head, tail and next RSEQ of a restored ring: the oldest and the newest valid record by RSEQ (R227, R245). -/
def ringFound (s : State) : State :=
  let n := pjRingBytes s
  let rs := scanFrom s (n / 64 + 1) 0 n
  match rs with
  | [] => setF (setF s F.PJ_TAIL_OFFSET 0) F.PJ_HEAD_OFFSET 0
  | r :: rest =>
    let oldest := rest.foldl (fun a b => if rkSeq b.2 < rkSeq a.2 then b else a) r
    let newest := rest.foldl (fun a b => if rkSeq b.2 > rkSeq a.2 then b else a) r
    let stop := newest.1 + rkLen newest.2
    let s := setF (setF s F.PJ_TAIL_OFFSET oldest.1) F.PJ_HEAD_OFFSET (if stop ≤ oldest.1 then stop + n else stop)
    tailMove (n / 64 + 1) { s with pj := { s.pj with rseq := rkSeq newest.2 + 1 } }

/-- PJ_CTRL.RESTORE (R242): the headers are read and the newest image begins to load. It needs ENABLE 0 and DUMP_ARM 0; otherwise, or while a
restore runs, nothing starts (log entry 33). -/
def execPjRestore (core : Nat) (s : State) : Res :=
  coreStore s core F.PJ_CTRL_RESTORE.addr fun s =>
    if flag s F.PJ_CTRL_ENABLE || flag s F.PJ_CTRL_DUMP_ARM || s.pj.loading then .next s
    else .next { s with pj := { s.pj with loading := true } }

/-- A restore ends (R242): RESTORED with the image in the journal range at its size, or INCOMPLETE; source 292 rises. -/
def restoreEnd (s : State) : State :=
  let s := { s with pj := { s.pj with loading := false } }
  match newestImage s with
  | none => pulse (setF s F.PJ_FOUND_SEQ_SEQ 0) 292
  | some i =>
    let s := setF s F.PJ_FOUND_SEQ_SEQ i.seq
    if !i.complete then pulse (setF s F.PJ_STATUS_INCOMPLETE 1) 292
    else
      let top := dramBase + i.units * 0x10000000
      let inside := fun (l : ScLine) => decide (dramBase ≤ l.line * 256) && decide (l.line * 256 < top)
      let cells := replaceCells s.mem dramBase top i.cells
      let fresh := fun (l : ScLine) => memRun (cells.dropWhile fun c => decide (c.1 < l.line * 256)) (l.line * 256) 256
      let lines := s.sc.lines.map fun l => if inside l then { l with data := fresh l, dirty := false } else l
      let s := { s with mem := cells, sc := { s.sc with lines := lines, evict := s.sc.evict.filter fun l => !(inside l) }, pj := { s.pj with units := i.units, restoring := some i.units } }
      pulse (ringFound (setF (setF s F.PJ_STATUS_RESTORED 1) F.PJ_STATUS_IMAGE_UNITS i.units)) 292

/-! ### Allocation ports (R255) -/

/-- A write to PJ_ALLOC_REQ: ring space reserved for the core's port, its RSEQ taken, a PAD record first where the end of the ring is too near;
FULL without room. A length that is no multiple of 64 reserves its bytes rounded up (log entry 33). -/
def execPjAllocReq (core bytes : Nat) (s : State) : Res :=
  coreStore s core (F.PJ_ALLOC_REQ_BYTES core).addr fun s =>
    let n := alignUp bytes 64
    if n = 0 ∨ !(ringRoom s n) then .next (setF s (F.PJ_ALLOC_FULL core) 1)
    else
      let q := nextRseq (padRecord s n)
      let s := { q.2 with pj := { q.2.pj with reserved := q.2.pj.reserved ++ [(pjHead q.2, n)] } }
      let off := pjHead s % max (pjRingBytes s) 1
      let s := setF (setF s (F.PJ_ALLOC_FULL core) 0) (F.PJ_ALLOC_OFFSET core) off
      let s := setF (setF s (F.PJ_ALLOC_SEQ_RSEQ core) q.1) F.PJ_HEAD_OFFSET (pjHead s + n)
      .next { s with pj := { s.pj with ports := (core, off) :: s.pj.ports.filter fun p => p.1 != core } }

/-- What a read of PJ_ALLOC of a core's port returns and leaves: a 64-bit read returns the offset or FULL and clears the offset (R255). -/
def allocRead (s : State) (core width : Nat) : State × Nat :=
  let v := getF s (F.PJ_ALLOC_FULL core) * 2 ^ 63 + getF s (F.PJ_ALLOC_OFFSET core)
  if width = 8 then
    ({ setF s (F.PJ_ALLOC_OFFSET core) 0 with pj := { s.pj with ports := s.pj.ports.filter fun p => p.1 != core } }, v)
  else (s, v % 2 ^ 32)

/-- A read of PJ_ALLOC of the core's port by the core (R255). -/
def execPjAllocRead (core width : Nat) (s : State) : Res :=
  coreRuns s core fun s =>
    .next (emit (allocRead s core width).1 (.readValue (F.PJ_ALLOC_OFFSET core).addr (allocRead s core width).2))

/-! ### Replay (R243 to R246) -/

/-- The newest image is obsolete: its DUMP_SEQ is below the clean mark (R243). -/
def imageObsolete (s : State) : Bool := decide (getF s F.PJ_FOUND_SEQ_SEQ < s.pj.cleanMark)

/-- The journal is lost at this start (R244). -/
def journalLost (s : State) : Bool :=
  let f := getF s F.PJ_FOUND_SEQ_SEQ
  (flag s F.PJ_STATUS_INCOMPLETE && !(imageObsolete s)) || (decide (s.pj.armMark > s.pj.cleanMark) && decide (f < s.pj.armMark))

/-- The ring emptied. -/
def emptyJournal (s : State) : State :=
  let s := setF s F.PJ_TAIL_OFFSET (pjHead s)
  { s with pj := { s.pj with intents := [], opens := [] } }

/-- A body's index changes. -/
def bodyChanges : Nat → Bytes → List Bytes
  | 0, _ => []
  | n + 1, b => b.take 64 :: bodyChanges n (b.drop 64)

/-- The records of a plaintext area wherever they begin: bytes that begin none are passed over, 8 at a time, so that a zeroed record hides none behind it. -/
def findRecords (p : Bytes) : Nat → Nat → List (Nat × RecHdr × Bytes)
  | 0, _ => []
  | n + 1, o =>
    match readRecHeader (slice p o 128) with
    | none => findRecords p n (o + 8)
    | some h => let len := max 128 (fld p (o + 60) 4); (o, h, slice p o len) :: findRecords p n (o + alignUp len 8)

/-- The records that the plaintext areas in some slots hold, as (unit, offset, header, bytes). -/
def slotRecords (s : State) (slots : List Nat) : List (Nat × Nat × RecHdr × Bytes) :=
  ((List.range slots.length).map fun u =>
    (findRecords (peek s (slotAddr64 s ((slots[u]?).getD 0) + 64) plainLen) 8182 0).map fun x => (u, x)).flatten

/-- An open stripe told by an OPEN_STRIPE record: what its slots hold decides how far it is filled. A stripe with a PRIMER is in the clear (R171). -/
def openOfRecord (s : State) (r : Bytes) : OpenStripe :=
  let b := rkBody r
  let slots := (List.range (fld b 2 1)).map fun j => fld b (40 + 4 * j) 4
  let bows := (List.range (fld b 5 1)).map fun j => fld b (8 + 8 * j) 8
  let recs := slotRecords s slots
  let used := (List.range slots.length).map fun u => (recs.filter fun x => x.1 == u).foldl (fun a x => max a (x.2.1 + x.2.2.2.length)) 0
  let first := (List.range slots.length).map fun u => ((recs.find? fun x => x.1 == u).map fun x => x.2.1).getD 0xFFFF
  let clear := recs.any fun x => x.2.2.1.kind == 6 || x.2.2.1.kind == 7
  let list := recs.map fun x => (x.1, x.2.1, x.2.2.2.length, if clear then 65536 else hashSlice x.2.2.1.fprint, 2 ^ 20)
  ⟨rkGroup r, fld b 0 2, rkIntent r, fld b 2 1, fld b 3 1, fld b 4 1, if clear then 0 else 1, bows, slots, used, first, none, 2000, [], list, false⟩

/-- The slices whose records an open stripe holds. -/
def openSlices (o : OpenStripe) : List Nat := ((o.recs.map fun r => r.2.2.2.1).filter (· < 65536)).eraseDups

/-- The live OPEN_STRIPE record of a stripe, as the open stripe it tells. -/
def openTold (s : State) (group stripe : Nat) : Option OpenStripe :=
  ((pjKind s 4).find? fun r => rkGroup r.2 == group && rkIntent r.2 == stripe).map fun r => openOfRecord s r.2

/-- The intent an INTENT record tells, with its outcome where an OUTCOME record is live. -/
def intentOfRecord (s : State) (r : Bytes) : Intent :=
  let b := rkBody r
  let group := rkGroup r
  let id := rkIntent r
  let out := ((pjKind s 2).filter fun o => rkGroup o.2 == group && rkIntent o.2 == id).getLast?.map Prod.snd
  let chs := match out with
    | some o => bodyChanges (fld (rkBody o) 8 2) ((rkBody o).drop 64)
    | none => bodyChanges (fld b 10 2) (b.drop 64)
  let bows := if bitAt (fld b 7 1) 0 then ((openTold s group id).map OpenStripe.bows).getD (packBows s group) else ((chs.head?).map fun c => (sliceBow s (chSlice c)).toList).getD []
  ⟨group, id, fld b 0 4, fld b 4 1, fld b 5 1, fld b 6 1, bitAt (fld b 7 1) 0, bitAt (fld b 7 1) 1, fld b 8 2, fld b 12 4, chs, bows, [], [],
   if out.isSome then 5 else 3, (out.map fun o => fld (rkBody o) 0 1).getD 0, [], [], s.now, s.now, out.isNone, [], [], bitAt (fld b 7 1) 2⟩

/-- An INDEX record in this device's journal names a record by NSID, fingerprint and version (R238). -/
def namedByIndex (s : State) (h : RecHdr) : Bool :=
  (pjKind s 3).any fun r => (bodyChanges (fld (rkBody r.2) 0 2) ((rkBody r.2).drop 64)).any fun c =>
    bits (fld c 16 8) 52 12 == h.nsid && chSlice c == hashSlice h.fprint && bits (fld c 16 8) 0 39 == h.fprint % 2 ^ 39 && fld c 56 8 == h.version

/-- One record of a restored open stripe zeroed where no INDEX record names it, and mirrored so (R237, R238); a descriptor so lost is written anew (R171). -/
def zeroUnnamed (p : State × OpenStripe) (x : Nat × Nat × RecHdr × Bytes) : State × OpenStripe :=
  if namedByIndex p.1 x.2.2.1 then p
  else
    let r := writeOpen p.1 p.2 x.1 x.2.1 (zeros x.2.2.2.length)
    match groupRec r.1 p.2.group with
    | some g => if x.2.2.1.kind = 6 ∨ x.2.2.1.kind = 7 then (putGroup r.1 { g with descriptor := none }, r.2) else r
    | none => r

/-- A restored open stripe without an INTENT finished (R238): the records that no INDEX record names are zeroed, it is sealed, and its packed intent commits
(R232); EV_INTENT_RESOLVED. -/
def finishOpen (s : State) (o : OpenStripe) : State :=
  let s := { s with pj := { s.pj with opens := s.pj.opens ++ [o] } }
  let r := (slotRecords s o.slots).foldl zeroUnnamed (s, o)
  logCrew (sealStripe r.1 r.2) EV.intentResolved

/-- The index changes of live INDEX and OUTCOME records newer than the NAND copies applied again, in order (R159, R229). -/
def indexReplay (s : State) : State :=
  let chs := ((pjLive s).filter fun r => rkKind r.2 == 2 || rkKind r.2 == 3).map fun r =>
    (bodyChanges (fld (rkBody r.2) (if rkKind r.2 = 3 then 0 else 8) 2) ((rkBody r.2).drop 64)).filter fun c =>
      chOp c == 4 || changeLives s (rkSeq r.2) c
  let newer := chs.flatten.filter fun c => chOp c == 4 ||
    (match s.media.buckets.find? fun i => i.slice == chSlice c && i.bucket == chBucket c with
      | some i => decide (chWseq c > i.writeSeq)
      | none => true)
  (changeAll newer s).1

/-- The dump armed again (R241, R245 step 3): PJ_DUMP_SEQ above PJ_FOUND_SEQ and the clean mark, the arm mark recorded; a journal without units is
not armed. -/
def armDump (s : State) : State :=
  let q := max (max (getF s F.PJ_FOUND_SEQ_SEQ) s.pj.cleanMark) (getF s F.PJ_DUMP_SEQ_SEQ) + 1
  if s.pj.units = 0 then s
  else
    let s := setF { s with pj := { s.pj with armMark := q } } F.PJ_DUMP_SEQ_SEQ q
    let keep := (newestComplete s).map VaultImage.vset
    setF { s with pj := { s.pj with vault := s.pj.vault.filter fun i => keep == some i.vset && i.complete } } F.PJ_CTRL_DUMP_ARM 1

/-- The TRIMs of restored FRAG_OUTCOME records of RESULT 2 and 4 noted again where the fragment is still found on NAND (R330). -/
def trimsAgain (s : State) : State :=
  (pjKind s 6).foldl (fun s o =>
    let d := rkBody o.2
    let hit := s.media.frags.any fun f => f.group == rkGroup o.2 && inRun (fld d 0 8) (fld d 8 8) f.stripe && f.kind != 3
    if fld d 16 1 != 1 && hit && !(s.media.notes.any fun n => n.kind == 1 && n.group == rkGroup o.2 && n.ident == unit0 (fld d 0 8) && n.run == fld d 8 8) then
      addNote s 1 0 (rkGroup o.2) (unit0 (fld d 0 8)) (fld d 8 8)
    else s) s

/-- Steps 1 to 3 of R245: whether the journal is lost, the records found, the index brought up to date, the dump armed (R244). -/
def replayScan (s : State) : State :=
  let s := { s with pj := { s.pj with replay := 1 } }
  let s :=
    if journalLost s then logCrew (declareSelf { emptyJournal s with pj := { (emptyJournal s).pj with lost := true } }) EV.vaultIncomplete
    else if imageObsolete s then emptyJournal s
    else if flag s F.PJ_STATUS_RESTORED then logCrew s EV.vaultRestored
    else s
  armDump (indexReplay (trimsAgain s))

end Sys2Proof.Machine
end

