-- ==== Sys2Proof/Machine/Pair.lean ====
section
/-! DEFINITION. The pair channel's commands (06): frames received, timers, takeover and hand-back, the resolution of intents, and replay. -/

namespace Sys2Proof.Machine

/-! ### Resolution (R232, R233) -/

/-- Probes of every position of a run at seats not marked lost; positions held by this seat count at once (R232 step 2). -/
def startProbes (s : State) (i : Intent) : State :=
  let own := ownSeat s i.group
  let all := ((runStripes i.stripe i.run).map fun st =>
    let seats := stripeSeats s i.group i.genId st
    (List.range seats.length).map fun p => (st, p, (seats[p]?).getD 0)).flatten
  let all := all.filter fun q => seatCounts s i.group q.2.2
  let mine := all.filter fun q => q.2.2 == own
  let held := (mine.filter fun q => let h := holding s i.group q.1; (h.kind == 0 || h.kind == 2) && h.pos == q.2.1).map fun q => (q.1, q.2.1)
  let others := all.filter fun q => q.2.2 != own
  let s := others.foldl (fun s q => (peerRequest s (seatHull s i.group q.2.2)
    { op := 0x82, group := i.group, stripe := q.1, pos := q.2.1, gen := i.genId, k := i.k, m := i.m, arg0 := 64 * 2 ^ 32 } []).1) s
  putIntent s { i with probes := others.map (fun q => (q.1, q.2.1)), held := held, sentAt := s.now, firstAt := s.now }

/-- An intent under resolution whose generator set its group no longer has (R219, fourth case). -/
def resolvesNoSet (s : State) : Bool := s.pj.intents.any fun i => i.resolving && (genOf s i.group i.genId).isNone

/-- The outcome of an intent whose probes are all in (R232 steps 3 to 5): 1 COMMIT, 2 ROLLBACK, 3 LOST. -/
def probeResult (s : State) (i : Intent) : Nat :=
  let full := (runStripes i.stripe i.run).all fun st => decide ((i.held.filter fun q => q.1 == st).length ≥ i.k)
  let seats := ((runStripes i.stripe i.run).map fun st => stripeSeats s i.group i.genId st).flatten
  if full then 1 else if seats.all (seatCounts s i.group) then 2 else 3

/-- An intent decided: its OUTCOME written and mirrored, changes applied, lost stripes marked; EV_INTENT_RESOLVED (R232). -/
def decideIntent (s : State) (i : Intent) (result : Nat) : State :=
  let a := if result = 2 then (s, i) else applyIntent s i
  let s := writeOutcome a.1 { a.2 with resolving := false } result
  let s := if result = 3 then
      let lostNow := (runStripes i.stripe i.run).filter fun st => decide ((i.held.filter fun q => q.1 == st).length < i.k)
      markLost s i.group (lostNow.map fun st => (st, i.genId))
    else s
  advanceIntent (logCrew s EV.intentResolved) i.group i.stripe

/-- This device opened the intent: its seat in the group is the one that the identity names. -/
def intentOwn (s : State) (i : Intent) : Bool := (groupRec s i.group).any fun g => i.stripe / 2 ^ 59 == g.seat

/-- The slices that an intent concerns: those of its changes, of a packed one those of the records that the stripe holds (R233, R238). -/
def intentSlices (s : State) (i : Intent) : List Nat :=
  if i.packed then ((openTold s i.group i.stripe).map openSlices).getD []
  else ((i.changes.filter fun c => chOp c != 4).map chSlice).eraseDups

/-- This device resolves an intent or open stripe of its own or of a lost stroke's that concerns slices (R233, R238): its own where it acts for all of them,
another's where it acts for one of them. -/
def resolvesFor (s : State) (own : Bool) (xs : List Nat) : Bool := if own then xs.all (actsFor s) else xs.isEmpty || xs.any (actsFor s)

/-- A bow resolves only while its own seat is not marked lost and it has majority contact (R253). -/
def mayResolve (s : State) (i : Intent) : Bool := intentOwn s i || (groupRec s i.group).any fun g => !g.ownLost && majority s g

/-- The units of a restored packed intent, made again from the stripe's slots (R232, R238); none while its data key is missing. -/
def packedUnits (s : State) (i : Intent) : Option (List IntentUnit) :=
  match openTold s i.group i.stripe, genOf s i.group i.genId with
  | some o, some x =>
    if i.keyGen = 0 then some (sealedUnits s o x none) else (nsKey s i.nsid).map fun k => sealedUnits s o x (some k)
  | _, _ => none

/-- A resolved intent goes on: a packed one writes its units again and commits; another is decided once every probe is answered or its seat
marked lost. -/
def resolveStep (s : State) (i : Intent) : State :=
  if !i.resolving || !(mayResolve s i) then s
  else if i.packed then
    match packedUnits s i with
    | none => s
    | some us =>
      let i := { i with units := us, resolving := false, step := 2 }
      logCrew (advanceIntent (putIntent s i) i.group i.stripe) EV.intentResolved
  else
    let left := i.probes.filter fun q => seatCounts s i.group (((stripeSeats s i.group i.genId q.1)[q.2]?).getD 0)
    if left.isEmpty then decideIntent s i (probeResult s i) else putIntent s { i with probes := left }

/-- The resolution of an intent taken up (R232). -/
def resolveBegin (s : State) (i : Intent) : State :=
  if i.packed then resolveStep s i
  else
    let s := startProbes s i
    match intentOf s i.group i.stripe with
    | some i => resolveStep s i
    | none => s

/-- A probe's answer taken into account. -/
def probeAnswered (s : State) (i : Intent) (stripe pos : Nat) (isHeld : Bool) : State :=
  let i := { i with probes := i.probes.filter (fun q => !(q.1 == stripe && q.2 == pos)), held := if isHeld then (stripe, pos) :: i.held else i.held }
  resolveStep (putIntent s i) i

/-- A missed read deadline counted against a seat; READ_FAIL_LIMIT of them within 1,000 ms declare it lost (Table 07-2). -/
def missDeadline (s : State) (group seat : Nat) : State :=
  match groupRec s group with
  | none => s
  | some g =>
    let x := (g.info seat).getD (noInfo seat 0)
    let m := s.now :: x.missed.filter fun m => decide (s.now < m + sec)
    let s := putGroup s (g.setInfo { x with missed := m })
    if m.length ≥ s.media.settings.readFailLimit then tryDeclare s group seat else s

/-- PROBE_RESEND: the unanswered probes of an intent are sent again after FRAG_READ_MS, and each counts as a missed deadline (R232). -/
def execProbeResend (group stripe : Nat) (s : State) : Res := whileCore s fun s =>
  match intentOf s group stripe with
  | none => .next s
  | some i =>
    if !i.resolving || i.probes.isEmpty then .next s
    else
      let s := reach s (i.sentAt + s.media.settings.fragReadMs * ms)
      let rs := s.hte.requests.filter fun r => r.op == 0x82 && fld r.msg 4 4 == group && i.probes.contains (unit0 (fld r.msg 16 8), fld r.msg 24 1)
      let s := rs.foldl resendRequest s
      let seats := i.probes.map fun q => ((stripeSeats s group i.genId q.1)[q.2]?).getD 0
      let s := seats.foldl (fun s t => missDeadline s group t) s
      match intentOf s group stripe with
      | some i => .next (resolveStep (putIntent s { i with sentAt := s.now }) { i with sentAt := s.now })
      | none => .next s

/-- FRAG_COMMIT_RESEND: unanswered outcome messages are sent again every 100 ms (R231). -/
def execFragCommitResend (group stripe : Nat) (s : State) : Res := whileCore s fun s =>
  match intentOf s group stripe with
  | none => .next s
  | some i =>
    let left := i.seatsLeft.filter (seatCounts s group)
    if i.step ≠ 6 ∨ left = [] then .next s
    else
      let s := reach s (i.sentAt + 100 * ms)
      let rs := s.hte.requests.filter fun r => (r.op == 0x83 || r.op == 0x84) && fld r.msg 4 4 == group && fld r.msg 40 8 == stripe
      .next (putIntent (rs.foldl resendRequest s) { i with sentAt := s.now })

/-! ### Keys and paths (R247, R248, R621) -/

/-- The body of PAIR_HELLO (Table 06-15). -/
def pairHello (s : State) (hull : Nat) : Bytes :=
  let v := activeView s
  let byTakeover := fun x => (match sliceRec s x with | some r => r.takeover == 2 || r.takeover == 5 | none => false) && v.hull (v.strokeDev x) == hull
  let xs := (s.kv.slices.map Slice.slice).filter byTakeover
  le 1 (b2n s.pj.lost) ++ zeros 63 ++ (List.range 8192).map fun i => BitVec.ofNat 8 ((List.range 8).map fun b => if xs.contains (8 * i + b) then 2 ^ b else 0).sum

/-- The channel with a partner takes a new key from its slot (R621): both streams start afresh with PAIR_HELLO, then the frames not mirrored. -/
def pairRekey (s : State) (hull : Nat) : State :=
  let s := pairChannel s hull
  match chanWith s hull with
  | none => s
  | some c =>
    let body := pairHello s hull
    let old := (c.sent.filter fun f => f.2.1 != 1).map fun f => (f.2.1, f.2.2.1)
    let sent := (1, 1, body, ([] : Bytes)) :: (List.range old.length).map fun i => let f := (old[i]?).getD (0, []); (i + 2, f.1, f.2, [])
    let base := if c.acked = 0 then c.base else c.base + c.acked - 1
    let c := { c with st := 2, txSeq := old.length + 2, acked := 0, base := base, rxSeq := 0, ackTx := 1, ackRx := 0, sent := sent, helloSent := true,
                      mute := c.mute && s.groups.any fun g => hullLost s g.id hull }
    pairPush (putChan2 s c) hull

/-- The frames a channel has sealed sent again, oldest first and byte for byte (R249). -/
def pairResend (s : State) (c : PairCh) : State :=
  let s := (c.sent.filter fun f => f.2.2.2 != []).foldl (fun s f => pairOut s c f.2.2.2) s
  putChan2 s { c with movedAt := s.now }

/-- A channel's path becomes the pair link when the partner is at its far end and the link is up, else the fall-back session, else none; a change resends,
is recorded as EV_PAIR_PATH, and source 294 pulses (R247). -/
def choosePath (s : State) (partner : Nat) (farEnd : Bool) : State :=
  match chanWith s partner with
  | none => s
  | some c =>
    let fall := peerSession s 2 partner
    let path := if farEnd && flag s F.PLK_STATUS_LINK then 1 else if fall.isSome then 2 else 0
    if path = c.path then s
    else
      let c := { c with path := path, fallback := fall.getD c.fallback }
      pulse (logCrew (pairPush (pairResend (putChan2 s c) c) partner) EV.pairPath) 294

/-- The pair link has fallen: the channels that used it take the fall-back session (R27, R247). -/
def pathsFall (s : State) : State := (s.pj.chans.filter fun c => c.path == 1).foldl (fun s c => choosePath s c.partner true) s

/-- PAIR_PATH_CHANGE: the path of a channel chosen anew, with what is found at the far end of the link (R247). -/
def execPairPathChange (partner linkEnd : Nat) (s : State) : Res := whileCore s fun s => .next (choosePath s partner (linkEnd == 1))

/-- K_P of a peer session key (R248). -/
def pairKeyOf (key : Bytes) : Bytes := (hmacSha384 key [0x41, 0x5A, 0x4B, 0x2D, 0x50, 0x41, 0x49, 0x52, 0x2D, 0x4B]).take 32

/-- A key slot of crew firmware that is EMPTY. -/
def freeKeySlot (s : State) : Option Nat := ((List.range 4096).drop 16).find? fun k => (slotOf s k).isNone

/-- K_P of a session key loaded in the KEY_SLOT of the channel with a partner, which starts afresh under it (R248, R621). -/
def keyChannel (s : State) (hull : Nat) (key : Bytes) : State :=
  match chanWith s hull with
  | none => s
  | some c =>
    let k := if c.slot = 0 then (freeKeySlot s).getD 0 else c.slot
    pairRekey (setSlot (putChan2 s { c with slot := k }) ⟨k, 1, false, 0, 0, pairKeyOf key⟩) hull

/-! ### Frames received (R248, R249) -/

/-- A frame discarded whose tag fails. -/
def pairReject (s : State) : Res := .next (logCrew s EV.pairFrameRejected)

/-- The oldest pair frame received, where it is of the type: opened, checked for its SEQ, processed and acknowledged. A data frame out of
order is discarded, as is an INTENT of another rig epoch (R24; log entry 70); one without journal room stays (R249). -/
def pairTake (ptype : Nat) (s : State) (run : State → PairCh → Bytes → Option State) : Res :=
  match s.pj.rx with
  | [] => .next s
  | f :: rest =>
    let b := f.drop 14
    if fld b 4 1 ≠ ptype then .next s
    else
      let s0 := s
      let s := { s with pj := { s.pj with rx := rest } }
      match chanWith s (fld b 8 8) with
      | none => pairReject s
      | some c =>
        let n := fld b 6 2
        let seq := fld b 24 8
        let open_ := match pairKey s c with
          | some key => gcmDec key (pairIv (1 - pairDir c) ptype seq) (b.take 40) (slice b 40 n) (slice b (40 + n) 16)
          | none => none
        match open_ with
        | none => pairReject s
        | some body =>
          let c := if c.addr.isNone then { c with addr := some (slice f 6 6) } else c
          let s := putChan2 s c
          if ptype = 2 then
            if seq ≤ c.ackRx then .next s
            else match run s { c with ackRx := seq } body with
              | some s => .next s
              | none => .next s
          else if seq ≠ c.rxSeq + 1 ∨ fld b 16 8 ≠ Config.hull ∨ (ptype = 0x10 ∧ fld b 32 8 ≠ activeEpoch s) then .next s
          else
            match run s c body with
            | none => .next s0
            | some s =>
              match chanWith s c.partner with
              | some c => let c := { c with rxSeq := seq }; .next (advance (pairAck (putChan2 s c) c))
              | none => .next s

/-- A record of a frame journaled with MIRROR, unless a LIVE record of its kind, source, group and identity is held (R249, R621). -/
def mirrorRecord (s : State) (r body : Bytes) : Option State :=
  let dup := (pjLive s).any fun q => rkKind q.2 == rkKind r && rkSource q.2 == rkSource r && rkGroup q.2 == rkGroup r && rkIntent q.2 == rkIntent r &&
    rkKind r != 3
  if dup then some s else pjAppend s (rkKind r) 1 (rkGroup r) (rkSource r) (rkIntent r) body

/-- ACK (R249): ACK_SEQ advances the frames acknowledged, the lease is renewed, waiting frames go out, and what waited for them goes on. -/
def execAck (s : State) : Res := whileCore s fun s =>
  pairTake 2 s fun s c body =>
    let n := fld body 0 8
    let moved := decide (n > c.acked)
    let c := { c with acked := max c.acked n, sent := c.sent.filter (fun f => decide (f.1 > n)), lastAckAt := some s.now,
                      movedAt := if moved then s.now else c.movedAt }
    let s := putChan2 { s with pj := { s.pj with leases := s.pj.leases.filter fun l => l.1 != c.partner } } c
    some (advance (pairPush s c.partner))

/-- INTENT_FRAME (R249): the record is journaled with MIRROR. -/
def execIntentFrame (s : State) : Res := whileCore s fun s => pairTake 0x10 s fun s _ body => mirrorRecord s body (rkBody body)

/-- Mirrored changes applied one after another to the bow's buckets (R162, R228): the changes with the WSEQ they got, and the slices in which one found no
place, which is recorded and left out. None while a bucket cannot be changed. -/
def takeChanges : List Bytes → State → Option (State × List Bytes × List Nat)
  | [], s => some (s, [], [])
  | c :: cs, s =>
    if chOp c = 4 then (takeChanges cs (notePurge s c)).map fun r => (r.1, c :: r.2.1, r.2.2)
    else
      match bucketOpen s (chSlice c) (chBucket c), changeBucket s c with
      | none, _ => none
      | some _, some (d, s) => (takeChanges cs (noteHold (noteDelta s c) c)).map fun r => (r.1, d :: r.2.1, r.2.2)
      | some _, none => (takeChanges cs (logCrew s EV.indexBucketFull)).map fun r => (r.1, c :: r.2.1, chSlice c :: r.2.2)

/-- The changes of a frame that concern slices this device holds. -/
def heldChanges (s : State) (n : Nat) (b : Bytes) : List Bytes := (bodyChanges n b).filter fun c => changeLives s (2 ^ 64) c

/-- The copies of slices dropped whose bucket had no place for a mirrored change, and asked for again (R162). -/
def dropCopies (s : State) (xs : List Nat) : State :=
  xs.eraseDups.foldl (fun s x => askCopy (renewSlice s x (sliceB s x)) x) s

/-- OUTCOME_FRAME (R249): journaled with MIRROR; its changes are applied to the bow's buckets under its own WSEQ (R228). -/
def execOutcomeFrame (s : State) : Res := whileCore s fun s =>
  pairTake 0x11 s fun s _ body =>
    let b := rkBody body
    if !(ringRoom s (alignUp body.length 64)) then none
    else
      match takeChanges (heldChanges s (fld b 8 2) (b.drop 64)) s with
      | none => none
      | some (s, chs, full) => mirrorRecord (dropCopies s full) body (b.take 8 ++ le 2 chs.length ++ slice b 10 54 ++ chs.flatten)

/-- INDEX_FRAME (R249, R162): journaled with the changes applied to the bow's buckets; a change that finds no place leaves the slice to be copied
again. -/
def execIndexFrame (s : State) : Res := whileCore s fun s =>
  pairTake 0x12 s fun s _ body =>
    let b := rkBody body
    if !(ringRoom s (alignUp body.length 64)) then none
    else
      match takeChanges (heldChanges s (fld b 0 2) (b.drop 64)) s with
      | none => none
      | some (s, chs, full) => mirrorRecord (dropCopies s full) body (le 2 chs.length ++ zeros 62 ++ chs.flatten)

/-- OPEN_STRIPE_FRAME (R235): journaled as a mirrored OPEN_STRIPE record with slots of this device, zeroed. -/
def execOpenStripeFrame (s : State) : Res := whileCore s fun s =>
  pairTake 0x13 s fun s _ body =>
    let b := rkBody body
    let dup := (pjKind s 4).any fun q => rkSource q.2 == rkSource body && rkGroup q.2 == rkGroup body && rkIntent q.2 == rkIntent body
    if dup then some s
    else
      match slotsFree s (fld b 2 1) with
      | none => none
      | some slots =>
        let s := slots.foldl (fun s i => crewStore s (slotAddr64 s i) (zeros 65536)) s
        mirrorRecord s body (b.take 40 ++ ((List.range 20).map fun j => le 4 ((slots[j]?).getD 0xFFFFFFFF)).flatten ++ zeros 8)

/-- APPEND (R249): the bytes are written into the receiver's slot of the open stripe, the newest of the sender's with the identity. -/
def execAppend (s : State) : Res := whileCore s fun s =>
  pairTake 0x14 s fun s c body =>
    let id := fld body 0 8
    let off := fld body 8 4
    match ((pjKind s 4).filter fun q => rkMirror q.2 && rkSource q.2 == c.partner && rkIntent q.2 == unit0 id).getLast? with
    | none => some s
    | some q => some (crewStore s (slotAddr64 s (fld (rkBody q.2) (40 + 4 * (id % 32)) 4) + 64 + off) (slice body 64 (fld body 12 4)))

/-- RETIRE (R231 step 7): the bow retires the intent, its open stripe and, with its buckets stored, its outcome. -/
def execRetire (s : State) : Res := whileCore s fun s =>
  pairTake 0x15 s fun s _ body => some (retireIntent s (fld body 8 4) (fld body 0 8))

/-- INTENT_QUERY sent about an intent. -/
def askIntent (s : State) (hull group stripe : Nat) : State := (pairSend s hull 0x30 (le 8 stripe ++ le 4 group)).1

/-- The devices that resolve in this one's place what concerns some slices: the acting strokes of those that it does not act for. -/
def resolvers (s : State) (xs : List Nat) : List Nat := ((xs.filter fun x => !(actsFor s x)).map (actingHull s)).eraseDups

/-- INTENT_QUERY sent to each resolver of an own intent or open stripe (R245, R250). -/
def askResolvers (s : State) (group stripe : Nat) (xs : List Nat) : State := (resolvers s xs).foldl (fun s h => askIntent s h group stripe) s

/-- The OPEN_STRIPE records of this device's own stripes that are neither sealed by it nor under an intent of it. -/
def strayOpens (s : State) : List OpenStripe :=
  let told := (pjKind s 4).filter fun r => !(rkMirror r.2) && !(sameIntent s 1 r.2) &&
    !(s.pj.opens.any fun o => o.group == rkGroup r.2 && o.stripe == rkIntent r.2)
  told.map fun r => openOfRecord s r.2

/-- PAIR_HELLO (R250, R252): JOURNAL_LOST and the slices the sender acts for are noted; a stroke stops acting for those slices at once; a bow
queries its live mirrored intents and open stripes, a device in replay its own of which the sender is a resolver. -/
def execPairHello (s : State) : Res := whileCore s fun s =>
  pairTake 1 s fun s c body =>
    let c := { c with lost := bitAt (fld body 0 1) 0 }
    let s := putChan2 s c
    let v := activeView s
    let named := (s.kv.slices.filter fun x => bitAt (fld body (64 + x.slice / 8) 1) (x.slice % 8) && v.strokeDev x.slice == selfIndex s)
    let s := named.foldl (fun s x => setActing (putSlice s { x with takeover := 4 }) x.slice false) s
    let s := if named.any fun x => x.takeover != 4 then raiseView s else s
    let mine := ((pjKind s 1 ++ pjKind s 4).filter fun r => rkMirror r.2 && rkSource r.2 == c.partner).map fun r => (rkGroup r.2, rkIntent r.2)
    let s := mine.eraseDups.foldl (fun s q => askIntent s c.partner q.1 q.2) s
    let own := if s.pj.replay ≠ 2 then [] else
      (s.pj.intents.filter fun i => i.resolving && intentOwn s i).map (fun i => (i.group, i.stripe, intentSlices s i)) ++
        (strayOpens s).map fun o => (o.group, o.stripe, openSlices o)
    some ((own.filter fun q => (resolvers s q.2.2).contains c.partner).foldl (fun s q => askIntent s c.partner q.1 q.2.1) s)

/-- INTENT_QUERY (R250): answered from the journal: 0 open, the RESULT, or 4 unknown. -/
def execIntentQuery (s : State) : Res := whileCore s fun s =>
  pairTake 0x30 s fun s c body =>
    let id := fld body 0 8
    let group := fld body 8 4
    let same := fun (r : Nat × Bytes) => rkGroup r.2 == group && rkIntent r.2 == id
    let ans := match ((pjKind s 2).filter same).getLast? with
      | some o => fld (rkBody o.2) 0 1
      | none => if (pjKind s 1).any same || (pjKind s 4).any same then 0 else 4
    some (pairSend s c.partner 0x31 (le 8 id ++ le 4 group ++ le 1 ans)).1

/-- INTENT_ANSWER (R233, R250): a result is adopted, an unknown intent is retired unless the answering device set JOURNAL_LOST, an open one is
kept. -/
def execIntentAnswer (s : State) : Res := whileCore s fun s =>
  pairTake 0x31 s fun s c body =>
    let id := fld body 0 8
    let group := fld body 8 4
    let ans := fld body 12 1
    let busy := s.pj.intents.any fun i => i.group == group && i.stripe == id && !i.resolving
    let told := (pjKind s 1).find? fun r => rkGroup r.2 == group && rkIntent r.2 == id
    let run := (told.map fun r => fld (rkBody r.2) 0 4).getD 1
    let drop := fun (s : State) => { s with pj := { s.pj with intents := s.pj.intents.filter fun i => !(i.group == group && i.stripe == id) } }
    let settled := fun (s : State) => retireIntent (drop s) group id
    if ans = 0 || busy then some s
    else if ans = 4 then if c.lost then some s else some (settled (keptDecided s group id run 1))
    else
      match told with
      | none => some (if s.pj.opens.any fun o => o.group == group && o.stripe == id then s else settled s)
      | some r =>
        let b := rkBody r.2
        let hasOut := (pjKind s 2).any fun o => rkGroup o.2 == group && rkIntent o.2 == id
        if hasOut then some s
        else
          let chs := if ans = 2 then [] else bodyChanges (fld b 10 2) (b.drop 64)
          let a := changeAll (chs.filter fun ch => sliceHeld s (chSlice ch)) s
          match pjAppend a.1 2 (b2n (rkMirror r.2)) group (rkSource r.2) id (outcomeBody ans (fld b 0 4) a.2) with
          | none => none
          | some s =>
            let s := keptDecided s group id run ans
            some (if rkMirror r.2 then s else settled s)

/-! ### Slices gained (R197) -/

/-- The copying of R197 begins for slices gained in a group: every other seat is asked for the stripes it keeps, target by target. -/
def startCopyingIn (s : State) (group : Nat) (xs : List Nat) : State :=
  let n := groupSeats s group
  ((List.range n).filter (· != ownSeat s group)).foldl (fun s t =>
    let old := s.kv.copying.find? fun c => c.group == group && c.seat == t
    let c : Copying := ⟨group, t, (((old.map Copying.slices).getD []) ++ xs).eraseDups, List.range n, (old.map Copying.left).getD []⟩
    let s := { s with kv := { s.kv with copying := c :: s.kv.copying.filter fun d => !(d.group == group && d.seat == t) } }
    (List.range n).foldl (fun s u => (peerRequest s (seatHull s group t) { op := 0x90, group := group, arg0 := u + 256 } []).1) s) s

/-- The copying of R197 begins for slices gained. -/
def startCopying (s : State) (xs : List Nat) : State :=
  (xs.map (sliceGroup s)).eraseDups.foldl (fun s id => startCopyingIn s id (xs.filter fun x => sliceGroup s x == id)) s

/-! ### Takeover begun (R253, Table 06-16 step 1) -/

/-- Takeovers begin: for each stroke of slices this device is bow of whose seat is marked lost, own seat not lost, with majority contact, ACKs stop
and TAKEOVER_PENDING is recorded (step 1). -/
def takeoverStart (s : State) : State :=
  let v := activeView s
  let ready := s.kv.slices.filter fun x =>
    x.takeover == 0 && sliceHeld s x.slice && v.bowDev x.slice == some (selfIndex s) &&
      hullLost s (sliceGroup s x.slice) (v.hull (v.strokeDev x.slice)) &&
      (match groupRec s (sliceGroup s x.slice) with | some g => !g.ownLost && majority s g | none => false)
  let hulls := (ready.map fun x => v.hull (v.strokeDev x.slice)).eraseDups
  let s := ready.foldl (fun s x => putSlice s { x with takeover := 1 }) s
  hulls.foldl (fun s h =>
    let at_ := match chanWith s h with | some c => c.ackSentAt | none => s.now
    let s := match chanWith s h with | some c => putChan2 s { c with mute := true } | none => s
    { s with pj := { s.pj with taken := (h, 1, at_) :: s.pj.taken.filter fun t => t.1 != h } }) s

/-! ### Hand-back (R254, Table 06-17) -/

/-- The slice numbers of a hand-back body. -/
def handSlices (body : Bytes) : List Nat := (List.range (fld body 0 2)).map fun i => fld body (2 + 2 * i) 2

/-- HANDBACK_READY (step 3): the stroke records the slices as its own, sets ACTING, raises the slice-view generation, answers HANDBACK_ACK and
records EV_HANDBACK; a repeated one is answered. -/
def execHandbackReady (s : State) : Res := whileCore s fun s =>
  pairTake 0x20 s fun s c body =>
    let xs := handSlices body
    let back := s.kv.slices.filter fun x => xs.contains x.slice && x.takeover == 4
    let s := back.foldl (fun s x => setActing (putSlice s { x with takeover := 0 }) x.slice true) s
    let s := if back.isEmpty then s else startCopying (logCrew (raiseView s) EV.handback) (back.map Slice.slice)
    some (pairSend s c.partner 0x21 body).1

/-- HANDBACK_ACK (step 4): the bow clears HANDING; the commands it held run again. -/
def execHandbackAck (s : State) : Res := whileCore s fun s =>
  pairTake 0x21 s fun s _ body =>
    let xs := handSlices body
    some ((s.kv.slices.filter fun x => xs.contains x.slice && x.takeover == 3).foldl (fun s x => putSlice s { x with takeover := 0 }) s)

/-- The slices of a partner's that this device acts for by takeover, at given stages. -/
def takenSlices (s : State) (hull : Nat) (stages : List Nat) : List Slice :=
  let v := activeView s
  s.kv.slices.filter fun x => stages.contains x.takeover && v.hull (v.strokeDev x.slice) == hull && v.bowDev x.slice == some (selfIndex s)

/-- HANDBACK_READY for slices, its time noted. -/
def sendHandback (s : State) (hull : Nat) (xs : List Nat) : State :=
  let s := (pairSend s hull 0x20 (le 2 xs.length ++ (xs.map (le 2)).flatten)).1
  match chanWith s hull with
  | some c => putChan2 s { c with muteAt := s.now }
  | none => s

/-- A stroke has rejoined a slice's group and left REPLAY, as its GROUP_STATUS tells. -/
def strokeBack (s : State) (group hull : Nat) : Bool :=
  !(hullLost s group hull) && match groupRec s group, hullSeat s group hull with
    | some g, some t => (g.info t).any fun i => i.dev == 4
    | _, _ => false

/-- The slices taken from a stroke that has rejoined sent to it, those not yet sent (R254). -/
def handCopies (s : State) (hull : Nat) (xs : List Nat) : State :=
  let new := xs.filter fun x => !(s.kv.handed.contains x)
  let s := new.foldl (fun s x => copyTo s hull x (sliceChanges s x)) s
  { s with kv := { s.kv with handed := s.kv.handed ++ new } }

/-- HANDBACK_START (steps 1 and 2): once the stroke has rejoined, left REPLAY and taken the copies of the slices, the bow holds new intents for the slices and
seals its open stripes in their groups; when its intents there have their OUTCOME mirrored it records HANDING, clears ACTING and sends HANDBACK_READY. -/
def execHandbackStart (partner : Nat) (s : State) : Res := whileCore s fun s =>
  let xs := takenSlices s partner [2, 5]
  let back := xs.all fun x => strokeBack s (sliceGroup s x.slice) partner
  let s' := handCopies s partner (xs.map Slice.slice)
  if xs.isEmpty || !back then .next s
  else if s'.hte.requests.any fun r => r.op == 0x8A && r.hull == partner then .next s'
  else
    let s := s'
    let s := (xs.filter fun x => x.takeover == 2).foldl (fun s x => putSlice s { x with takeover := 5 }) s
    let groups := (xs.map fun x => sliceGroup s x.slice).eraseDups
    let s := advance ((s.pj.opens.filter fun o => groups.contains o.group && !o.sealing).foldl sealStripe s)
    let busy := s.pj.opens.any (fun o => groups.contains o.group) ||
      s.pj.intents.any fun i => groups.contains i.group && (decide (i.step < 5) || !(allMirrored s i.group i.outMirror))
    if busy then .next s
    else
      let s := xs.foldl (fun s x => setActing (putSlice s { x with takeover := 3 }) x.slice false) s
      let s := { s with kv := { s.kv with handed := s.kv.handed.filter fun x => !(xs.any fun y => y.slice == x) } }
      .next (sendHandback (raiseView s) partner (xs.map Slice.slice))

/-- HANDBACK_RESEND: in HANDING the bow sends HANDBACK_READY again every 100 ms; with the stroke marked lost it takes over again (Table 06-17). -/
def execHandbackResend (partner : Nat) (s : State) : Res := whileCore s fun s =>
  let xs := takenSlices s partner [3]
  if xs.isEmpty then .next s
  else if xs.any fun x => hullLost s (sliceGroup s x.slice) partner then
    .next (takeoverStart (xs.foldl (fun s x => putSlice s { x with takeover := 0 }) s))
  else
    let s := reach s (((chanWith s partner).map PairCh.muteAt).getD 0 + 100 * ms)
    .next (sendHandback s partner (xs.map Slice.slice))

/-! ### Takeover (R253, Table 06-16) -/

/-- A restored open stripe of a lost stroke's finished by this bow (R238): the bow of lowest hull number among those not marked lost keeps it and seals it, the
others journal their fragments as seats. -/
def takeOpen (s : State) (o : OpenStripe) : State :=
  let keeper := (o.bows.filter fun h => !(hullLost s o.group h)).foldl min (2 ^ 64)
  let o := { o with bows := [] }
  if keeper = Config.hull then finishOpen s o
  else
    let r := (slotRecords s o.slots).foldl zeroUnnamed (s, o)
    match genOf r.1 o.group o.genId with
    | some x =>
      let key := if o.keyGen = 0 then none else nsKey r.1 o.nsid
      let us := (sealedUnits r.1 o x key).filter fun u => u.seat == ownSeat r.1 o.group
      if o.keyGen ≠ 0 ∧ key = none then r.1
      else us.foldl (fun s u => (ownUnit s (newIntent o.group o.stripe 1 x true false o.nsid o.keyGen [] [] []) u).1) r.1
    | none => r.1

/-- The stroke's mirrored intents and open stripes taken up by the acting bow where it resolves them (step 3, R232, R238). -/
def takeoverResolve (s : State) (hull : Nat) : State :=
  let mirr := fun (kind : Nat) => (pjKind s kind).filter fun r => rkMirror r.2 && rkSource r.2 == hull &&
    !(s.pj.intents.any fun i => i.group == rkGroup r.2 && i.stripe == rkIntent r.2)
  let ints := (mirr 1).map fun r => { intentOfRecord s r.2 with bows := [] }
  let ints := ints.filter fun i => !i.resolving || resolvesFor s false (intentSlices s i)
  let opens := ((mirr 4).filter fun r => !(sameIntent s 1 r.2)).map fun r => openOfRecord s r.2
  let opens := opens.filter fun o => resolvesFor s false (openSlices o) && !(s.pj.opens.any fun p => p.group == o.group && p.stripe == o.stripe)
  let s := { s with pj := { s.pj with intents := s.pj.intents ++ ints } }
  let s := opens.foldl takeOpen s
  ints.foldl (fun s i => if i.resolving then resolveBegin s i else advanceIntent s i.group i.stripe) s

/-- TAKEOVER_TIMER (step 2): 1,000 ms after its last ACK the bow records TAKEN with the slices, sets ACTING, raises the slice-view generation,
records EV_TAKEOVER and resolves the stroke's intents. -/
def execTakeoverTimer (partner : Nat) (s : State) : Res := whileCore s fun s =>
  let s := takeoverStart s
  match s.pj.taken.find? fun t => t.1 == partner && t.2.1 == 1 with
  | none => .next s
  | some (_, _, at_) =>
    let s := reach s (at_ + 1000 * ms)
    let xs := takenSlices s partner [1]
    let ok := xs.all fun x => hullLost s (sliceGroup s x.slice) partner &&
      (match groupRec s (sliceGroup s x.slice) with | some g => !g.ownLost && majority s g | none => false)
    if !ok then .next s
    else
      let s := xs.foldl (fun s x => setActing (putSlice s { x with takeover := 2 }) x.slice true) s
      let s := { s with pj := { s.pj with taken := (partner, 2, s.now) :: s.pj.taken.filter fun t => t.1 != partner } }
      let s := takeoverResolve (startCopying (logCrew (raiseView s) EV.takeover) (xs.map Slice.slice)) partner
      if resolvesNoSet s then .fault (.undefined219 4) else .next (advance s)

/-! ### Timers (R249, R251, R252) -/

/-- PAIR_RESEND_TIMER: ACK_SEQ has not advanced for 100 µs on the link or 1 ms on the fall-back session, and the sender resends from the oldest
frame. -/
def execPairResendTimer (partner : Nat) (s : State) : Res := whileCore s fun s =>
  match chanWith s partner with
  | none => .next s
  | some c =>
    if c.st ≠ 2 ∨ !(c.sent.any fun f => f.2.2.2 != []) then .next s
    else .next (pairResend (reach s (c.movedAt + (if c.path = 1 then 100 * us else ms))) c)

/-- PAIR_ACK_TIMER: an ACK at least every 50 ms. -/
def execPairAckTimer (partner : Nat) (s : State) : Res := whileCore s fun s =>
  match chanWith s partner with
  | none => .next s
  | some c => if c.st = 2 ∧ c.mute = false then .next (pairAck (reach s (c.ackSentAt + 50 * ms)) c) else .next s

/-- LEASE_LAPSE: 500 ms pass without an ACK from the bow and no solo running holds: the stroke stops acting and records EV_LEASE_LOST; source
294 pulses. -/
def execLeaseLapse (partner : Nat) (s : State) : Res := whileCore s fun s =>
  match chanWith s partner with
  | none => .next s
  | some c =>
    match c.lastAckAt with
    | none => .next s
    | some t =>
      let solo := s.groups.any fun g => g.solo.contains partner
      let mine := (heldSlices s).any fun x => (activeView s).strokeDev x == selfIndex s && sliceBow s x == some partner
      if solo || !mine || s.pj.leases.any fun l => l.1 == partner then .next s
      else
        let s := reach s (t + 500 * ms)
        .next (pulse (logCrew { s with pj := { s.pj with leases := (partner, true) :: s.pj.leases } } EV.leaseLost) 294)

/-- MAJORITY_CONTACT_LOSS: the moment at which more than half the seats were last heard from within 500 ms passes; solo running ends, and a
bow acting by takeover stops acting while it lasts (R251 to R253). -/
def execMajorityContactLoss (group : Nat) (s : State) : Res := whileCore s fun s =>
  match groupRec s group with
  | none => .next s
  | some g =>
    let times := (g.seats.map fun i => i.heardAt + 500 * ms).filter fun t => decide (t ≥ s.now)
    let lapse := (times.filter fun t => !(majority { s with now := t } g)).foldl (fun a t => match a with | none => some t | some u => some (min u t)) none
    let ends := fun (s : State) =>
      let s := putGroup s { g with solo := [] }
      if g.solo.isEmpty then s else pulse (logCrew s EV.leaseLost) 294
    if !(majority s g) then .next (ends s)
    else
      match lapse with
      | none => .next s
      | some t => .next (ends (reach s t))

end Sys2Proof.Machine
end

