-- ==== Sys2Proof/Machine/Seat.lean ====
section
/-! DEFINITION. A fragment at its seat (05, 07): the checks of Table 05-6, the requests a seat answers, and inventories. -/

namespace Sys2Proof.Machine

/-- The row of a peer opcode: the oldest message of it that has been delivered is taken and dealt with; none waits, nothing happens (log entry
30). -/
def onPeer (op : Nat) (s : State) (run : State → Nat → Bytes → Res) : Res :=
  whileCore s fun s =>
  let held := (s.hte.excHeld.filter fun e => fld e 0 1 == 0x72).length
  match (s.hte.peerIn.take (s.hte.peerIn.length - held)).find? fun p => fld p.2 0 1 == op with
  | none => .next s
  | some p => run { s with hte := { s.hte with peerIn := s.hte.peerIn.erase p } } p.1 p.2

/-- A message put back at its place at the front: its row has to run again. -/
def putBack (s : State) (id : Nat) (b : Bytes) : State := { s with hte := { s.hte with peerIn := (id, b) :: s.hte.peerIn } }

/-- A failed check: status, ARG0, ARG1. -/
abbrev FragFail := Option (Nat × Nat × Nat)

/-- Checks 1 to 3 of Table 05-6. -/
def fragCheck3 (s : State) (b : Bytes) (replace : Bool) : FragFail :=
  let h := readPeer b
  let void := bitAt h.pflags 1
  let len := peerLen b
  let badSet := match groupRec s h.group with
    | none => false
    | some _ => match genOf s h.group h.gen with
      | none => true
      | some x => x.k != h.k || x.m != h.m
  if (len ≠ 65536 ∧ !(len = 0 && void && !replace)) ∨ h.pos ≥ h.k + h.m ∨ (void ∧ (h.pos = 0 ∨ h.pos ≥ h.k ∨ h.arg1 ≠ 0)) ∨ badSet = true ∨
      (replace ∧ void) then some (ST.malformed, 0, 0)
  else if (groupRec s h.group).isNone then some (ST.notPermitted, 0, 0)
  else if h.epoch ≠ activeEpoch s then some (ST.stateConflict, activeEpoch s, shownPhase s)
  else none

/-- Checks 4 and 5 of Table 05-6. -/
def fragCheck5 (s : State) (id : Nat) (b : Bytes) : FragFail :=
  let h := readPeer b
  match groupRec s h.group with
  | none => some (ST.notPermitted, 0, 0)
  | some g =>
    if (stripeSeats s h.group h.gen h.stripe)[h.pos]? ≠ some g.seat then some (ST.notPermitted, 0, 0)
    else if s.pwr.dev = 5 then some (ST.readOnly, stateWord s g.gstate (sessState s id), 0)
    else if g.gstate = 5 then some (ST.groupSuspended, stateWord s g.gstate (sessState s id), 0)
    else if s.pwr.dev ≠ 4 then some (ST.stateConflict, stateWord s g.gstate (sessState s id), 0)
    else none

/-- FRAG_WRITE (R207): checks 4 to 8, the engine having made the first three; a fragment that passes is journaled before ST_OK. -/
def execFragWrite (s : State) : Res :=
  onPeer 0x81 s fun s id b =>
    let h := readPeer b
    let void := bitAt h.pflags 1
    let crc := h.arg1 % 2 ^ 32
    match fragCheck5 s id b with
    | some (st, a0, a1) => .next (peerReply s id b st a0 a1 [])
    | none =>
      let x := holding s h.group h.stripe
      if x.kind = 3 then .next (peerReply s id b ST.dataLost 0 0 [])
      else if (x.kind = 0 ∨ x.kind = 2) ∧ x.pos = h.pos then
        if x.ucrc = crc then .next (peerReply s id b ST.ok 0 0 [])
        else .next (peerReply (logCrew s EV.fragmentConflict) id b ST.exists 0 0 [])
      else if void = false ∧ crc32c (peerBody b) ≠ crc then .next (peerReply s id b ST.integrity 0 0 [])
      else
        match journalFragment s h.group (unit0 h.stripe) h.pos h.gen h.k h.m crc (sessHull s id) h.arg0 void (peerBody b) with
        | none => .next (peerReply s id b ST.busy 3 (getF s F.HTE_BUSY_HINT_MICROS) [])
        | some s => .next (peerReply s id b ST.ok 0 0 [])

/-- The container this device holds for an epoch: the active or the staged one (R303). -/
def containerFor (s : State) (epoch : Nat) : Option Bytes :=
  if epoch ≠ 0 ∧ (epoch = activeEpoch s ∨ epoch = getF s F.RIG_STAGED_EPOCH_EPOCH) then
    (s.rig.kept.find? fun k => k.1 == epoch).map Prod.snd
  else none

/-- FRAG_READ (R205, R265, R274, R303): bytes of a fragment from the journal or NAND, a void unit, the statuses of what is not there; or a rig
fetch. -/
def execFragRead (s : State) : Res :=
  onPeer 0x82 s fun s id b =>
    let h := readPeer b
    let off := h.arg0 % 2 ^ 32
    let len := h.arg0 / 2 ^ 32
    if h.group = 0 ∧ h.pos = 0xFF then
      match containerFor s h.arg1 with
      | none => .next (peerReply s id b ST.notFound 0 0 [])
      | some c =>
        let start := 65536 * h.stripe + off
        if start ≥ c.length then .next (peerReply s id b ST.notFound 0 0 [])
        else .next (peerReply s id b ST.ok 0 0 (slice c start (if len = 0 then 65536 - off else len)))
    else if off ≥ 65536 then .next (peerReply s id b ST.length 0 0 [])
    else
      let x := holding s h.group h.stripe
      if x.kind = 3 then .next (peerReply s id b ST.dataLost 0 0 [])
      else if x.kind = 9 ∨ x.pos ≠ h.pos then .next (peerReply s id b ST.notFound 0 0 [])
      else if x.kind = 4 then .next (peerReply s id b ST.integrity 0 0 [])
      else if x.kind = 2 then .next (peerReply s id b ST.ok 0 0 [] true)
      else
        match holdingBytes s h.group h.stripe with
        | none => .next (peerReply s id b ST.integrity 0 0 [])
        | some u => .next (peerReply s id b ST.ok 0 0 (slice u off (if len = 0 then 65536 - off else min len (65536 - off))))

/-- An outcome request: a run of 0 is ST_MALFORMED, else the outcome is journaled and answered ST_OK (R205, R234); it waits for ring room (R227). -/
def outcomeRow (op result : Nat) (s : State) : Res :=
  onPeer op s fun s id b =>
    let h := readPeer b
    if h.arg1 = 0 then .next (peerReply s id b ST.malformed 0 0 [])
    else
      match seatOutcome s h.group h.stripe h.arg1 result with
      | some s => .next (peerReply s id b ST.ok 0 0 [])
      | none => .next (putBack s id b)

/-- FRAG_COMMIT (R234). -/
def execFragCommit (s : State) : Res := outcomeRow 0x83 1 s

/-- FRAG_ROLLBACK (R234). -/
def execFragRollback (s : State) : Res := outcomeRow 0x84 2 s

/-- FRAG_FREE (R205). -/
def execFragFree (s : State) : Res := outcomeRow 0x85 4 s

/-- FRAG_REPLACE (R268): for a position held or recorded missing; checks 1 to 5, 7 and 8; journaled with its commit. -/
def execFragReplace (s : State) : Res :=
  onPeer 0x93 s fun s id b =>
    let h := readPeer b
    let crc := h.arg1 % 2 ^ 32
    match fragCheck5 s id b with
    | some (st, a0, a1) => .next (peerReply s id b st a0 a1 [])
    | none =>
      let x := holding s h.group h.stripe
      if !((x.kind = 0 || x.kind = 2 || x.kind = 4) && x.pos == h.pos) then .next (peerReply s id b ST.notFound 0 0 [])
      else if crc32c (peerBody b) ≠ crc then .next (peerReply s id b ST.integrity 0 0 [])
      else
        match (journalFragment s h.group (unit0 h.stripe) h.pos h.gen h.k h.m crc (sessHull s id) h.arg0 false (peerBody b)).bind fun s =>
          seatOutcome s h.group h.stripe 1 1 with
        | none => .next (peerReply s id b ST.busy 3 (getF s F.HTE_BUSY_HINT_MICROS) [])
        | some s => .next (peerReply s id b ST.ok 0 0 [])

/-- FRAG_WRITE_RESEND (R208): a FRAG_WRITE refused with ST_BUSY or ST_STATE_CONFLICT is sent again after its hint, as sentAt holds it. -/
def execFragWriteResend (tag : Nat) (s : State) : Res := whileCore s fun s =>
  match s.hte.requests.find? fun r => r.tag == tag && r.op == 0x81 && decide (r.sentAt > s.now) with
  | none => .next s
  | some r => .next (resendRequest (reach s r.sentAt) r)

/-! ### Lost markers (R274) -/

/-- The stripes of a STRIPE_LOST body with their GEN_IDs. -/
def lostEntries (body : Bytes) : Nat → List (Nat × Nat)
  | 0 => []
  | n + 1 => (fld body 0 8, fld body 8 1) :: lostEntries (body.drop 16) n

/-- The lost-marker note of a stripe, once it is recorded on NAND (R330). -/
def markerRecorded (s : State) (group stripe : Nat) : Bool :=
  s.media.notes.any fun n => n.kind == 3 && n.group == group && n.ident == unit0 stripe && !n.places.isEmpty

/-- STRIPE_LOST (R274): a lost marker is noted for this seat's position in each named stripe; the message waits until every marker is recorded and is
then answered ST_OK. -/
def execStripeLost (s : State) : Res :=
  onPeer 0x92 s fun s id b =>
    let h := readPeer b
    match groupRec s h.group with
    | none => .next (peerReply s id b ST.notPermitted 0 0 [])
    | some g =>
      let mine := (lostEntries (peerBody b) (h.arg0 % 65536)).filter fun e => (stripeSeats s h.group e.2 e.1).contains g.seat
      let new := mine.filter fun e => !(s.media.notes.any fun n => n.kind == 3 && n.group == h.group && n.ident == unit0 e.1)
      let s := new.foldl (fun s e =>
        lostMarker (logCrew s EV.stripeLost) ((stripeSeats s h.group e.2 e.1).findIdx (· == g.seat)) h.group (unit0 e.1) e.2) s
      if mine.all fun e => markerRecorded s h.group e.1 then .next (peerReply s id b ST.ok 0 0 []) else .next (putBack s id b)

/-! ### Inventories (R286) -/

/-- An INVENTORY entry (Table 07-5). -/
def inventoryEntry (stripe gen pos flags : Nat) : Bytes := le 8 stripe ++ le 1 gen ++ le 1 pos ++ le 1 flags ++ zeros 5

/-- The stripes of a group this seat holds something of: (STRIPE_ID, GEN_ID). -/
def heldStripes (s : State) (group : Nat) : List (Nat × Nat) :=
  let j := ((pjKind s 5).filter fun r => rkGroup r.2 == group).map fun r => (unit0 (fld (rkBody r.2) 0 8), fld (rkBody r.2) 10 1)
  let n := (s.media.frags.filter fun f => f.group == group).map fun f => (f.stripe, f.genId)
  (j ++ n).eraseDups

/-- Stripes in ascending order. -/
def insertStripe (e : Nat × Nat) : List (Nat × Nat) → List (Nat × Nat)
  | [] => [e]
  | x :: xs => if e.1 ≤ x.1 then e :: x :: xs else x :: insertStripe e xs

/-- The flags and position with which a stripe is listed. -/
def inventoryLine (s : State) (g : Group) (e : Nat × Nat) : Bytes :=
  let x := holding s g.id e.1
  let kept := keptOf g e.1
  let lost := x.kind == 3 || (kept.map KeptStripe.lost).getD false
  let open_ := (kept.map KeptStripe.open_).getD ((journaled s g.id e.1).isSome &&
    !((pjKind s 6).any fun r => rkGroup r.2 == g.id && fld (rkBody r.2) 16 1 == 1 && inRun (fld (rkBody r.2) 0 8) (fld (rkBody r.2) 8 8) e.1))
  inventoryEntry e.1 e.2 (if x.kind = 0 ∨ x.kind = 2 ∨ x.kind = 4 then x.pos else 0xFF) (b2n lost + 2 * b2n (x.kind == 4) + 4 * b2n open_)

/-- INVENTORY (R286): the stripes held or kept that place a position at the target seat, ascending, at most 4,096; it waits while the target is
marked lost and does not rejoin: it reports neither FORMING nor READY. -/
def execInventory (s : State) : Res :=
  onPeer 0x90 s fun s id b =>
    let h := readPeer b
    match groupRec s h.group with
    | none => .next (peerReply s id b ST.notPermitted 0 0 [])
    | some g =>
      let t := h.arg0 % 32
      let rejoins := (g.info t).any fun i => i.gstate == 1 || i.dev == 4
      if g.isLost t && !rejoins then .next (putBack s id b)
      else
        let all := if bitAt h.arg0 8 then g.kept.map fun x => (x.stripe, x.genId) else heldStripes s h.group
        let all := (all.filter fun e => (stripeSeats s h.group e.2 e.1).contains t && decide (e.1 > h.arg1 || h.arg1 == 0)).foldr insertStripe []
        let part := all.take 4096
        let next := if all.length > 4096 then ((part.getLast?).map Prod.fst).getD 0 else 2 ^ 64 - 1
        .next (peerReply s id b ST.ok 0 next (part.map (inventoryLine s g)).flatten)

end Sys2Proof.Machine
end

