-- ==== Sys2Proof/Machine/GroupRows.lean ====
section
/-! DEFINITION. The commands of stripe groups (05, 07): GROUP_STATUS, timers and declarations, notices, slice copies. -/

namespace Sys2Proof.Machine

/-- A body of GROUP_STATUS. -/
structure StatusBody where
  dev : Nat
  gstate : Nat
  seat : Nat
  phase : Nat
  gserial : Nat
  staged : Nat
  lost : Nat
  low : Nat
  cycle : Nat

/-- GROUP_STATUS read. -/
def readStatus (b : Bytes) : StatusBody :=
  ⟨fld b 0 1, fld b 1 1, fld b 2 1, fld b 3 1, fld b 4 4, fld b 8 8, fld b 16 3, fld b 24 8, fld b 32 4⟩

/-- The generator rows of a descriptor (Table 04-11). -/
def descriptorRows (x : GenSet) : Bytes := ((List.range x.m).map fun i => (List.range x.k).map fun j => BitVec.ofNat 8 (x.coef i j)).flatten

/-- The body of a group descriptor (Table 04-11). -/
def descriptorBody (s : State) (id : Nat) (x : GenSet) : Bytes :=
  let n := groupSeats s id
  le 4 id ++ le 1 x.k ++ le 1 x.m ++ le 1 x.genId ++ le 1 n ++ le 2 0x11D ++ zeros 6 ++ le 8 (activeEpoch s) ++
    fit (((List.range n).map fun t => le 8 (seatHull s id t)).flatten) 192 ++ descriptorRows x

/-- What a descriptor says of a generator set, as a number: GEN_ID, geometry and generator rows. -/
def descriptorOf (x : GenSet) : Nat := leNat (le 1 x.k ++ le 1 x.m ++ le 1 x.genId ++ descriptorRows x)

/-- The PRIMER text (R173): the PRIMER section of the active image (R560), 7-bit ASCII. DESIGN CHOICE: at most 49,152 bytes of it, so that both records
lie in one data unit (log entry 34). -/
def primerText (s : State) : Bytes :=
  ((((bundleSection s.cox.image 4).map Prod.snd).getD []).take 49152).map fun (b : Byte) => (b.setWidth 7).setWidth 8

/-- The PRIMER and GROUP_DESCRIPTOR records of a group (R171): each with the record key of 4 bytes GROUP_ID. -/
def descriptorRecords (s : State) (id : Nat) (x : GenSet) : Bytes :=
  let key := le 4 id
  let h := { kind := 6, keyLen := 4, nsid := 0, length := (primerText s).length, version := 0, fprint := keyHash s 0 key, created := calendarOr0 s : RecHdr }
  let body := descriptorBody s id x
  packedRecord h key (primerText s) ++ packedRecord { h with kind := 7, length := body.length } key body

/-- The descriptor stripe of the writing set of a group past FORMING (R171, R218): seat 0 writes it where the newest one says otherwise than the set, with
PRIMER and GROUP_DESCRIPTOR in namespace 0, in the clear, as soon as it is READY and has room; the other seats note that there is one. The open stripe of
namespace 0 is sealed first (R189). -/
def descriptorStripe (s : State) (id : Nat) : State :=
  match groupRec s id, writingSet s id with
  | some g, some x =>
    if g.gstate < 2 ∨ g.gstate > 4 ∨ g.descriptor = some (descriptorOf x) then s
    else if g.seat ≠ 0 then putGroup s { g with descriptor := some (descriptorOf x) }
    else if s.pwr.dev ≠ 4 then s
    else if s.pj.opens.any (fun o => o.group == id && o.nsid == 0) then
      (s.pj.opens.filter fun o => o.group == id && o.nsid == 0 && !o.sealing).foldl sealStripe s
    else
      match clearStripe s g (descriptorRecords s id x) with
      | none => s
      | some s =>
        match groupRec s id with
        | some g => putGroup s { g with descriptor := some (descriptorOf x) }
        | none => s
  | _, _ => s

/-- The descriptor stripes that groups still lack written. -/
def descriptors (s : State) : State := (s.groups.map Group.id).foldl descriptorStripe s

/-- FORMING ends for ACTIVE: every seat is reached, reports this epoch and READY or READ_ONLY, and none is lost (Table 05-7). -/
def formed (s : State) (g : Group) : Bool :=
  g.lost == 0 && (List.range (groupSeats s g.id)).all fun t =>
    t == g.seat || ((peerSession s 1 (seatHull s g.id t)).isSome &&
      (match g.info t with | some i => i.epoch == activeEpoch s && (i.dev == 4 || i.dev == 5) | none => false))

/-- A group becomes ACTIVE when it has formed. -/
def tryForm (s : State) (id : Nat) : State :=
  match groupRec s id with
  | none => s
  | some g =>
    if g.gstate = 1 && !g.returning && formed s g && (s.pwr.dev == 4 || s.pwr.dev == 5) then
      setGState s id 2
    else s

/-- Every group that has formed becomes ACTIVE. -/
def tryForms (s : State) : State := (s.groups.map Group.id).foldl tryForm s

/-- PURGE of a slice advances when every seat has reported two more cycles than its candidate recorded (R196). -/
def purgeAdvance (s : State) (g : Group) : State :=
  s.kv.slices.foldl (fun s x =>
    match x.cand with
    | none => s
    | some (c0, base) =>
      let done := (List.range (groupSeats s g.id)).all fun t =>
        !(g.isLost t) && (match base.find? fun b => b.1 == t with
          | some b => decide ((if t = g.seat then g.cycleDone else ((g.info t).map SeatInfo.cycle).getD 0) ≥ b.2 + 2)
          | none => false)
      if sliceGroup s x.slice == g.id && done then putSlice s { x with purge := c0, cand := none } else s) s

/-- PURGE of the slices of every group advanced. -/
def purgeAdvances (s : State) : State := s.groups.foldl purgeAdvance s

/-- The cycle of R196 looked at: it ends when no stripe kept at its start is left, and the next begins with the stripes kept now, and with the
candidates of the slices that have none. -/
def cycleStep (s : State) (group : Nat) : State :=
  match groupRec s group with
  | none => s
  | some g =>
    let left := g.cycleLeft.filter fun st => g.kept.any fun x => x.stripe == st
    if !left.isEmpty then putGroup s { g with cycleLeft := left }
    else
      let s := putGroup s { g with cycleDone := g.cycleDone + 1, cycleLeft := g.kept.map KeptStripe.stripe }
      let base := (List.range (groupSeats s group)).map fun t =>
        (t, if t = g.seat then g.cycleDone + 1 else ((g.info t).map SeatInfo.cycle).getD 0)
      let xs := s.kv.slices.filter fun x => x.cand.isNone && actsFor s x.slice && sliceGroup s x.slice == group
      xs.foldl (fun s x => putSlice s { x with cand := some (sliceVersion s x.slice, base) }) s

/-- JOURNAL_LOST is told no longer once every group has brought this device's seat back (R244). -/
def journalFound (s : State) : State :=
  if s.pj.lost && !(s.groups.any fun g => g.ownLost || g.returning) then { s with pj := { s.pj with lost := false } } else s

/-- ACKs go again to a stroke that has rejoined (R253, R254). -/
def unmute (s : State) : State :=
  { s with pj := { s.pj with chans := s.pj.chans.map fun (c : PairCh) => if c.mute && !(lostSomewhere s c.partner) then { c with mute := false } else c } }

/-- Everything that follows from a change of a group: groups form, stripes, intents and commands go on, takeovers begin, resolutions are decided, copies
are filled, descriptors written, versions to purge raised, the journal's size is taken up, and what has changed is told at once. -/
def settle (s : State) : State :=
  let s := unmute (takeoverStart (tryForms s))
  let s := (s.pj.intents.filter fun i => i.resolving && !i.probes.isEmpty).foldl (fun s i => resolveStep s i) s
  tellChanged (journalFound (journalResize (purgeAdvances (descriptors (refillAll (advance s))))))

/-- The PUTs and CASs of a group whose reply has not been sent when it enters SUSPENDED: a large one is rolled back, a packed one in an open
stripe is zeroed; both end ST_GROUP_SUSPENDED (R273). -/
def suspendCommands (s : State) (id : Nat) : State :=
  let large := s.pj.intents.filter fun i => i.group == id && !i.packed && !i.rewrite && decide (i.step < 5) && !i.resolving &&
    s.hte.cmds.any fun c => c.intent == some (i.group, i.stripe)
  let s := large.foldl (fun s i =>
    let cs := s.hte.cmds.filter fun c => c.intent == some (i.group, i.stripe)
    let s := advanceIntent (writeOutcome s { i with changes := [] } 2) i.group i.stripe
    cs.foldl (fun s c => conflict s { c with intent := none } ST.groupSuspended 5 0) s) s
  let packed := s.hte.cmds.filter fun c => (c.intent.map Prod.fst) == some id && !c.changes.isEmpty &&
    s.pj.opens.any fun o => c.intent == some (o.group, o.stripe)
  packed.foldl (fun s c =>
    let s := s.pj.opens.foldl (fun s o => (o.recs.filter fun r => r.2.2.2.2 == c.index && c.intent == some (o.group, o.stripe)).foldl
      (fun s r => match s.pj.opens.find? fun p => p.group == o.group && p.stripe == o.stripe with
        | some o => (writeOpen s o r.1 r.2.1 (zeros r.2.2.1)).1
        | none => s) s) s
    conflict s { c with intent := none, changes := [], mirror := [] } ST.groupSuspended 5 0) s

/-- The device's own seat is found lost with a G_SERIAL above its own: it stops acting, its group is FORMING, and it rejoins (R264, R211). -/
def ownSeatLost (s : State) (id : Nat) : State :=
  match groupRec s id with
  | none => s
  | some g => if g.gstate = 1 then putGroup s { g with returning := true } else
      setGState (putGroup s { g with returning := true, keptState := some g.gstate, joins := [] }) id 1

/-- The G_STATE and LOST that a device's own and a peer's come to (R209): the peer's with a higher G_SERIAL; with an equal one the set LOST bits of both, and
SUSPENDED, else the state of the one that has every set bit, else that of the lower hull number. -/
def mergeStatus (g : Group) (x : StatusBody) (senderHull : Nat) : Nat × Nat :=
  let lost := x.lost ||| g.lost
  if x.gserial > g.gserial then (x.gstate, x.lost)
  else if x.gserial < g.gserial then (g.gstate, g.lost)
  else if x.gstate = 5 ∨ g.gstate = 5 then (5, lost)
  else if lost = g.lost ∧ x.lost ≠ g.lost then (g.gstate, lost)
  else if lost = x.lost ∧ x.lost ≠ g.lost then (x.gstate, lost)
  else (if senderHull < Config.hull then x.gstate else g.gstate, lost)

/-- A peer's G_STATE and LOST adopted (R209): FORMING never is, and a returning device keeps the state pending. -/
def adoptStatus (s : State) (g : Group) (x : StatusBody) (senderHull : Nat) : State :=
  let m := mergeStatus g x senderHull
  let st := if x.gstate = 1 then g.gstate else m.1
  if x.gserial < g.gserial ∨ (x.gserial = g.gserial ∧ st = g.gstate ∧ m.2 = g.lost) then s
  else
    let old := g.gstate
    let gained := (List.range 24).filter fun t => bitAt m.2 t && !(bitAt g.lost t)
    let pends := decide (g.gstate = 1) && g.returning
    let new := if pends then 1 else st
    let keep := if pends ∧ x.gstate ≠ 1 then some m.1 else g.keptState
    let higher := decide (x.gserial > g.gserial)
    let g := { g with gserial := x.gserial, lost := m.2, gstate := new, keptState := keep,
                      rebuilding := g.rebuilding.filter fun r => !(gained.contains r.1) }
    let s := putGroup s g
    let s := if new = old then s else logCrew s EV.groupState
    let s := if gained.any (frozen s g) then logCrew s EV.seatFrozen else s
    let s := if gained.isEmpty then s else replan s g.id
    let s := if g.ownLost && higher then ownSeatLost s g.id else s
    let s := soloCheck (compareRows s g.id) g.id
    if new = 5 ∧ old ≠ 5 then suspendCommands s g.id else s

/-- A docked seat has reported another state (R538): what was held for it goes out, its time limits counted from now. -/
def seatAwake (s : State) (hull : Nat) : State :=
  if docked s hull then s
  else
    let s := { s with pwr := { s.pwr with wakes := s.pwr.wakes.filter fun w => w.1 != hull } }
    let held := s.hte.requests.filter fun r => r.hull == hull && r.session == noSession && (r.op == 0x81 || r.op == 0x90)
    held.foldl (fun s r =>
      let q := { r with firstAt := s.now }
      resendRequest { s with hte := { s.hte with requests := s.hte.requests.map fun p => if p.tag == r.tag then q else p } } q) s

/-- What a device last reported staged, noted whether or not it shares a group with this one under the active rig (R214). -/
def noteReport (s : State) (hull epoch phase : Nat) : State :=
  { s with epoch := { s.epoch with reports := (hull, epoch, phase) :: s.epoch.reports.filter fun r => r.1 != hull } }

/-- GROUP_STATUS (R206, R209, R214, R262): what it reports staged is noted for its sender; from a device that sits in the seat it is noted for that seat,
and adopted by G_SERIAL and the tie rules; a seat that reports READ_ONLY, SERVICE or HALTED is declared lost. -/
def execGroupStatus (s : State) : Res :=
  onPeer 0x86 s fun s id b =>
    let h := readPeer b
    let x := readStatus (peerBody b)
    let hull := sessHull s id
    let s := noteReport s hull x.staged x.phase
    match groupRec s h.group, hullSeat s h.group hull with
    | some g, some seat =>
      if x.seat ≠ seat then .next (settle s)
      else
        let i := (g.info seat).getD (noInfo seat s.now)
        let g := g.setInfo { i with heardAt := s.now, dev := x.dev, gstate := x.gstate, phase := x.phase, staged := x.staged, epoch := h.epoch,
                                    low := x.low, cycle := x.cycle }
        let froze := x.dev = 5 ∧ i.dev ≠ 5 ∧ g.isLost seat = true
        let s := putGroup s g
        let s := if froze ∧ frozen s g seat = true then logCrew s EV.seatFrozen else s
        let s := if i.dev = 8 ∧ x.dev ≠ 8 then seatAwake s hull else s
        let s := adoptStatus s g x hull
        let s := if x.dev = 5 ∨ x.dev = 6 ∨ x.dev = 7 then tryDeclare s h.group seat else s
        .next (settle s)
    | _, _ => .next (settle s)

/-- GROUP_STATUS_TIMER: every 100 ms the group's status goes to each of its peers (R206); a device that keeps no stripe in the group has then completed a
compaction cycle (R196; log entry 69). -/
def execGroupStatusTimer (group : Nat) (s : State) : Res := whileCore s fun s =>
  match groupRec s group with
  | none => .next s
  | some g =>
    let s := reach s (g.sentAt + 100 * ms)
    let s := if g.kept.isEmpty then cycleStep s group else s
    .next (settle (sendStatus s group))

/-- FORMING_TIMEOUT: 60 s in FORMING with a descriptor stripe, at most m seats failing and majority contact: the failing seats are marked lost and
the group is DEGRADED (Table 05-7). -/
def execFormingTimeout (group : Nat) (s : State) : Res := whileCore s fun s =>
  match groupRec s group, writingSet s group with
  | some g, some x =>
    if g.gstate ≠ 1 ∨ g.returning then .next s
    else
      let s := reach s (g.formingAt + 60 * sec)
      let fails := (List.range (groupSeats s group)).filter fun t => t != g.seat &&
        (g.isLost t || (peerSession s 1 (seatHull s group t)).isNone ||
          !(match g.info t with | some i => i.epoch == activeEpoch s && (i.dev == 4 || i.dev == 5) | none => false))
      if g.descriptor.isNone || decide (fails.length > x.m) || !(majority s g) then .next s
      else
        let s := fails.foldl (fun s t => declareLost s group t) s
        .next (settle (afterDegraded (setGState s group 3) group))
  | _, _ => .next s

/-- SEAT_SILENCE_EXPIRY: no GROUP_STATUS from a seat for SEAT_SILENCE_MS; with majority contact it is declared lost (Table 07-2). -/
def execSeatSilenceExpiry (group seat : Nat) (s : State) : Res := whileCore s fun s =>
  match groupRec s group with
  | none => .next s
  | some g =>
    if seat ≥ groupSeats s group ∨ seat = g.seat then .next s
    else
      let at_ := ((g.info seat).map SeatInfo.heardAt).getD g.formingAt
      .next (settle (tryDeclare (reach s (at_ + s.media.settings.seatSilenceMs * ms)) group seat))

/-- WRITE_LIMIT_EXPIRY: a FRAG_WRITE, FRAG_COMMIT or FRAG_ROLLBACK has no acknowledgement WRITE_LIMIT_MS after it was first sent (Table 07-2). -/
def execWriteLimitExpiry (tag : Nat) (s : State) : Res := whileCore s fun s =>
  match s.hte.requests.find? fun r => r.tag == tag && (r.op == 0x81 || r.op == 0x83 || r.op == 0x84) with
  | none => .next s
  | some r =>
    let s := reach s (r.firstAt + s.media.settings.writeLimitMs * ms)
    let group := fld r.msg 4 4
    match hullSeat s group r.hull with
    | some t => .next (settle (tryDeclare s group t))
    | none => .next s

/-- REBUILD_NOTICE (R280, R284): BEGUN clears the LOST bit and makes the group REBUILDING, CURRENT and ENDED end it, PROGRESS is noted. -/
def execRebuildNotice (s : State) : Res :=
  onPeer 0x91 s fun s id b =>
    let h := readPeer b
    match groupRec s h.group with
    | none => .next (peerReply s id b ST.notPermitted 0 0 [])
    | some g =>
      let seat := h.arg0 % 32
      let phase := bits h.arg0 8 8
      let done := h.arg1 % 2 ^ 32
      let found := h.arg1 / 2 ^ 32
      let others := g.rebuilding.filter fun r => r.1 != seat
      let wasLost := g.isLost seat
      let g := if phase ≤ 3 ∧ wasLost then { g with lost := g.lost - 2 ^ seat, gserial := g.gserial + 1 } else g
      let g := { g with rebuilding := if phase = 1 ∨ phase = 4 then (seat, done, found) :: others else others }
      let s := putGroup s g
      let next := if g.gstate = 1 ∨ g.gstate = 5 then g.gstate else if !g.rebuilding.isEmpty || g.rebuild.isSome then 4
        else if g.lost = 0 then 2 else g.gstate
      let next := if g.gstate = 5 ∧ !(rowExceeds s g g.isLost) ∧ wasLost ∧ phase ≤ 3 then 3 else next
      .next (peerReply (settle (afterDegraded (setGState s h.group next) h.group)) id b ST.ok 0 0 [])

/-! ### Keepers -/

/-- The sessions' groups: the groups two devices share. -/
def sharedGroups (s : State) (hull : Nat) : List Group := s.groups.filter fun g => (hullSeat s g.id hull).isSome

/-- A stripe freed: FRAG_FREE to every seat of it not marked lost, own seat at once (R194 step 4); unchanged without ring room for that. -/
def freeStripe (s : State) (group stripe run gen : Nat) : State :=
  let seats := (((runStripes stripe run).map fun st => stripeSeats s group gen st).flatten).eraseDups.filter (seatCounts s group)
  let own := ownSeat s group
  match (if seats.contains own then seatOutcome s group stripe run 4 else some s) with
  | none => s
  | some s =>
    let s := (seats.filter (· != own)).foldl (fun s t =>
      (peerRequest s (seatHull s group t) { op := 0x85, group := group, stripe := stripe, gen := gen, arg1 := run } []).1) s
    (runStripes stripe run).foldl (fun s st => dropKept s group st) s

/-- SLICE_DISOWN (R193, R197): every record of the slice in this keeper's stripes counts as dead; it answers ST_OK. -/
def execSliceDisown (s : State) : Res :=
  onPeer 0x8B s fun s id b =>
    let x := (readPeer b).arg0 % 65536
    let s := if actsFor s x || s.kv.disowned.contains x then s else { s with kv := { s.kv with disowned := x :: s.kv.disowned } }
    .next (peerReply s id b ST.ok 0 0 [])

end Sys2Proof.Machine
end

