-- ==== Sys2Proof/Machine/Replay.lean ====
section
/-! DEFINITION. Replay (R245, R246): the steps from the scan of the ring to READY or READ_ONLY. -/

namespace Sys2Proof.Machine

/-- PAIR_HELLO has come on every pair channel under its present key, but for partners marked lost (R245 step 4). -/
def hellosIn (s : State) : Bool := s.pj.chans.all fun c => decide (c.rxSeq ≥ 1) || lostSomewhere s c.partner

/-- The journal holds an INTENT or OPEN_STRIPE record of this device's own. -/
def ownJournaled (s : State) : Bool := (pjLive s).any fun r => !(rkMirror r.2) && (rkKind r.2 == 1 || rkKind r.2 == 4)

/-- Steps 5 to 7 of R245 begun: own intents with an OUTCOME are carried out, those without one resolved or asked about, restored open stripes finished or
asked about, and what a takeover had begun to resolve is taken up again (R246, Table 06-16). -/
def replayLoad (s : State) : State :=
  let ints := ((pjKind s 1).filter fun r => !(rkMirror r.2)).map fun r => intentOfRecord s r.2
  let opens := strayOpens s
  let s := { s with pj := { s.pj with replay := 2, intents := s.pj.intents ++ ints } }
  let s := (ints.filter fun i => !i.resolving).foldl (fun s i => advanceIntent s i.group i.stripe) s
  let s := (ints.filter fun i => i.resolving).foldl (fun s i =>
    let xs := intentSlices s i
    if resolvesFor s true xs then resolveBegin s i else askResolvers s i.group i.stripe xs) s
  let s := opens.foldl (fun s o =>
    let xs := openSlices o
    if resolvesFor s true xs then finishOpen s o else askResolvers s o.group o.stripe xs) s
  (s.pj.taken.filter fun t => t.2.1 == 2 && !(takenSlices s t.1 [2, 5]).isEmpty).foldl (fun s t => takeoverResolve s t.1) s

/-- Own packed intents under resolution whose units could not be made yet. -/
def replayAgain (s : State) : State :=
  (s.pj.intents.filter fun i => i.resolving && i.packed && resolvesFor s (intentOwn s i) (intentSlices s i)).foldl resolveStep s

/-- Own intents or open stripes are still unsettled (R245). -/
def replayLeft (s : State) : Bool :=
  (s.pj.intents.any fun i => intentOwn s i && decide (i.step < 5)) || s.pj.opens.any (·.sealing) || !(strayOpens s).isEmpty

/-- The device leaves REPLAY for READY, or for READ_ONLY where a reason stands; with no unit of journal EV_ENERGY_LOW is recorded (R222, R245). -/
def leaveReplay (s : State) : State :=
  let low := getF s F.PJ_LIMIT_UNITS == 0
  let s := if low && s.media.readOnly != some 3 then logCrew s EV.energyLow else s
  match (if low then some (s.media.readOnly.getD 3) else s.media.readOnly) with
  | some r => settle (enterReadOnly s r)
  | none => settle (sendAllStatus { s with pwr := { s.pwr with dev := 4 } })

/-- REPLAY (R245): the ring is scanned and the dump armed once; the hellos of the pair channels are awaited where the journal holds own intents or open stripes;
these are settled; then the device leaves REPLAY. Undefined with an intent whose generator set is gone (R219, fourth case). -/
def execReplay (s : State) : Res := whileCore s fun s =>
  if s.pwr.dev ≠ 3 then .next s
  else
    let s := if s.pj.replay = 0 then replayScan s else s
    if s.pj.replay = 1 && ownJournaled s && !(hellosIn s) then .next s
    else
      let s := if s.pj.replay = 1 then replayLoad s else s
      if resolvesNoSet s then .fault (.undefined219 4)
      else
        let s := settle (replayAgain s)
        .next (if replayLeft s then s else leaveReplay s)

end Sys2Proof.Machine
end

