-- ==== Sys2Proof/Machine/Fetch.lean ====
section
/-! DEFINITION. Reading stripes around faults (07): fragments fetched from seats, erasure patterns, decoding with the rig's decode table, the
choices of R270; and the rewriting of stripes (05). -/

namespace Sys2Proof.Machine

/-! ### Fetches -/

/-- The fetch of a position by a user. -/
def fetchOf (s : State) (user group stripe pos : Nat) : Option Fetch :=
  s.hte.fetches.find? fun f => f.user == user && f.group == group && f.stripe == stripe && f.pos == pos

/-- The fetches of a user given up. -/
def dropFetches (s : State) (user : Nat) : State :=
  { s with hte := { s.hte with fetches := s.hte.fetches.filter fun f => f.user != user } }

/-- FRAG_READ of a whole unit at its seat (R269); of a docked seat it counts as missed at once (R538). -/
def askUnit (s : State) (user group stripe : Nat) (x : GenSet) (pos seat : Nat) (retried : Bool) : State :=
  let hull := seatHull s group seat
  if docked s hull then putFetch (wakeSeat s hull) ⟨user, group, stripe, pos, seat, s.now, 0, some (0xFFFF, false, []), retried⟩ else
  let p := peerRequest s hull
    { op := 0x82, group := group, stripe := stripe, pos := pos, gen := x.genId, k := x.k, m := x.m } []
  putFetch p.1 ⟨user, group, stripe, pos, seat, s.now, p.2, none, retried⟩

/-- How a position of a stripe stands for a reader: not asked, asked, its unit, in the pattern because it is missing, in the pattern because its
unit fails its check, not available because of a deadline, marked lost at its seat. -/
inductive UnitState where
  | unasked
  | waiting
  | have (b : Bytes)
  | missing
  | failed
  | late
  | marked

/-- A data unit passes: its tag or CRC is right, or it is a void unit (R192, R269 step 4). -/
def unitPasses (s : State) (b : Bytes) : Bool := allZero b || (openUnit s b).isSome

/-- A unit that arrived: a data unit that fails its check enters the pattern; a parity unit has none. -/
def unitArrived (s : State) (x : GenSet) (pos : Nat) (b : Bytes) : UnitState :=
  if pos < x.k && !(unitPasses s b) then .failed else .have b

/-- The unit of a position that an intent of this device still holds until its outcome. -/
def unitInFlight (s : State) (group stripe pos : Nat) : Option Bytes :=
  (((s.pj.intents.filter fun i => i.group == group && !i.resolving).map Intent.units).flatten.find? fun u =>
    u.stripe == stripe && u.pos == pos).map IntentUnit.unit

/-- A position of a stripe as a user finds it (R259, R260). -/
def unitState (s : State) (g : Group) (user stripe : Nat) (x : GenSet) (pos seat : Nat) : UnitState :=
  if (unitInFlight s g.id stripe pos).isSome then .have (fit ((unitInFlight s g.id stripe pos).getD []) 65536)
  else if seatGone s g seat then .missing
  else if seat = g.seat then
    let h := holding s g.id stripe
    if h.kind = 3 then .marked
    else if h.pos ≠ pos ∨ h.kind = 9 ∨ h.kind = 4 then .missing
    else if h.kind = 2 then .have (zeros 65536)
    else match holdingBytes s g.id stripe with
      | some b => unitArrived s x pos (fit b 65536)
      | none => .missing
  else
    match fetchOf s user g.id stripe pos with
    | none => .unasked
    | some f =>
      match f.reply with
      | none => .waiting
      | some (st, void, b) =>
        if st = ST.ok then (if void then .have (zeros 65536) else unitArrived s x pos (fit b 65536))
        else if st = ST.dataLost then .marked
        else if st = ST.notFound ∨ st = ST.integrity then .missing
        else .late

/-- The unit a state holds. -/
def UnitState.bytes : UnitState → Option Bytes
  | .have b => some b
  | .unasked | .waiting | .missing | .failed | .late | .marked => none

/-- A position counts in the erasure pattern. -/
def UnitState.bad : UnitState → Bool
  | .missing | .failed | .marked => true
  | .unasked | .waiting | .have _ | .late => false

/-- A position has not been asked for. -/
def UnitState.isUnasked : UnitState → Bool
  | .unasked => true
  | .waiting | .have _ | .missing | .failed | .late | .marked => false

/-- A position is asked for and not answered. -/
def UnitState.isWaiting : UnitState → Bool
  | .waiting => true
  | .unasked | .have _ | .missing | .failed | .late | .marked => false

/-- A unit failed its own check. -/
def UnitState.isFailed : UnitState → Bool
  | .failed => true
  | .unasked | .waiting | .have _ | .missing | .late | .marked => false

/-- A deadline was missed. -/
def UnitState.isLate : UnitState → Bool
  | .late => true
  | .unasked | .waiting | .have _ | .missing | .failed | .marked => false

/-- The seat answered that the stripe is marked lost. -/
def UnitState.isMarked : UnitState → Bool
  | .marked => true
  | .unasked | .waiting | .have _ | .missing | .failed | .late => false

/-! ### Reading a stripe (R269 to R271) -/

/-- How a read of a stripe stands: it waits; its data units, with whether any was decoded and the parity positions to repair with their units; a seat
answers that it is marked lost; it is lost for missing units; it is lost with a failed check; sources are unavailable; its set does not exist
(R219). -/
inductive StripeRead where
  | waits
  | units (data : List Bytes) (decoded : Bool) (repair : List (Nat × Bytes))
  | marked
  | dataLost
  | integrity
  | unavailable
  | noSet

/-- The choices of `n` positions from a list, in ascending order. -/
def choicesOf : Nat → List Nat → List (List Nat)
  | 0, _ => [[]]
  | _ + 1, [] => []
  | n + 1, p :: ps => (choicesOf n ps).map (p :: ·) ++ choicesOf (n + 1) ps

/-- The data units decoded from the units held and a choice of parity positions (R269 step 3, R295): none where one fails its check. -/
def decodeChoice (s : State) (x : GenSet) (us : List UnitState) (choice : List Nat) : Option (List Bytes) :=
  let unit := fun p => ((us[p]?).bind UnitState.bytes).getD (zeros 65536)
  let used := (List.range x.k).filter (fun p => ((us[p]?).bind UnitState.bytes).isSome) ++ choice
  let ex := (List.range (x.k + x.m)).filter fun p => !(used.contains p)
  let data := (List.range x.k).map fun d => if used.contains d then unit d else decodeUnit (activeView s) x ex 65536 d unit
  if data.all (unitPasses s) then some data else none

/-- The first choice that passes, with the parity positions of failed choices that it leaves out (R270). -/
def tryChoices (s : State) (x : GenSet) (us : List UnitState) : List (List Nat) → List Nat → Option (List Bytes × List Nat)
  | [], _ => none
  | c :: cs, used =>
    match decodeChoice s x us c with
    | some d => some (d, used.filter fun p => !(c.contains p))
    | none => tryChoices s x us cs (used ++ c)

/-- The positions asked for among a list that are not asked yet. -/
def askAll (s : State) (user group stripe : Nat) (x : GenSet) (seats : List Nat) (us : List UnitState) (ps : List Nat) : State :=
  (ps.filter fun p => ((us[p]?).map UnitState.isUnasked).getD false).foldl (fun s p => askUnit s user group stripe x p ((seats[p]?).getD 0) false) s

/-- A read of the wanted data units of a stripe taken as far as it goes (R269 to R271): fragments are asked for, parity when a data unit is missing,
and decoded. -/
def readStripe (s : State) (user group gen stripe : Nat) (want : List Nat) : State × StripeRead :=
  match groupRec s group, genOf s group gen with
  | some g, some x =>
    let seats := stripeSeats s group gen stripe
    let n := x.k + x.m
    let us := (List.range n).map fun p => unitState s g user stripe x p ((seats[p]?).getD 0)
    let st := fun (p : Nat) => (us[p]?).getD .missing
    let data := List.range x.k
    let par := (List.range n).drop x.k
    if us.any UnitState.isMarked then (s, .marked)
    else if (us.filter UnitState.bad).length > x.m then (s, if us.any UnitState.isFailed then .integrity else .dataLost)
    else if want.all fun p => (st p).bytes.isSome then (s, .units (data.map fun p => ((st p).bytes).getD []) false [])
    else if want.all fun p => (st p).bytes.isSome || (st p).isWaiting || (st p).isUnasked then (askAll s user group stripe x seats us want, .waits)
    else if data.any fun p => (st p).isUnasked || (st p).isWaiting then (askAll s user group stripe x seats us data, .waits)
    else
      let need := x.k - (data.filter fun p => (st p).bytes.isSome).length
      let cand := par.filter fun p => !((st p).bad || (st p).isLate)
      let first := cand.take need
      if cand.length < need then (s, if us.any UnitState.isLate then .unavailable else if us.any UnitState.isFailed then .integrity else .dataLost)
      else if first.any fun p => (st p).isUnasked || (st p).isWaiting then (askAll s user group stripe x seats us first, .waits)
      else
        match decodeChoice s x us first with
        | some d => (s, .units d true [])
        | none =>
          if cand.any fun p => (st p).isUnasked || (st p).isWaiting then (askAll s user group stripe x seats us cand, .waits)
          else
            match tryChoices s x us ((choicesOf need cand).take 6) [] with
            | some (d, bad) => (s, .units d true (bad.map fun p => (p, parityUnit x 65536 (p - x.k) d)))
            | none => (s, .integrity)
  | some _, none => (s, .noSet)
  | none, _ => (s, .dataLost)

/-- FRAG_REPLACE of a parity unit at its seat (R267), the own seat's journaled here. -/
def replaceUnit (s : State) (group gen stripe : Nat) (p : Nat × Bytes) : State :=
  match genOf s group gen with
  | none => s
  | some x =>
    let seat := ((stripeSeats s group gen stripe)[p.1]?).getD 0
    let s := logCrew s EV.parityRepaired
    if seat = ownSeat s group then
      match journalFragment s group stripe p.1 gen x.k x.m (crc32c p.2) Config.hull stripe false p.2 with
      | some s => (seatOutcome s group stripe 1 1).getD s
      | none => s
    else (peerRequest s (seatHull s group seat)
      { op := 0x93, group := group, stripe := stripe, pos := p.1, gen := gen, k := x.k, m := x.m, arg0 := stripe, arg1 := crc32c p.2 } p.2).1

/-- A stripe found lost while it is read (R271, R274): marked, and the group is SUSPENDED. -/
def stripeLostNow (s : State) (group gen stripe : Nat) : State :=
  if ((groupRec s group).bind fun g => (keptOf g (unit0 stripe)).map KeptStripe.lost) == some true then s else
  let s := markLost s group [(stripe, gen)]
  match groupRec s group with
  | some g => if g.gstate ≥ 2 ∧ g.gstate ≤ 4 then suspendCommands (setGState s group 5) group else s
  | none => s

/-- The records of a stripe's data units as (unit, offset, header, bytes). -/
def stripeRecords (s : State) (data : List Bytes) : List (Nat × Nat × RecHdr × Bytes) :=
  ((List.range data.length).map fun u =>
    let b := (data[u]?).getD []
    match openUnit s b with
    | some p => (recordsOf p (fld b 40 2)).map fun r => (u, r.1, r.2.1, r.2.2)
    | none => []).flatten

/-! ### Rewriting stripes (R193 to R197) -/

/-- Where the key of a record lies, by its fingerprint and key. -/
def recPlace (s : State) (h : RecHdr) (key : Bytes) : KeyPlace := keyPlace s h.nsid key

/-- The key of a record. -/
def recKey (h : RecHdr) (b : Bytes) : Bytes := slice b 128 h.keyLen

/-- The stripes a large value takes (R187). -/
def largeRun (k len : Nat) : Nat := ceilDiv (384 + len) (plainLen * k)

/-- A record is live for this device by its own index (R193 first case, R195). -/
def recCurrent (s : State) (stripe unit : Nat) (h : RecHdr) (b : Bytes) : Bool :=
  let p := recPlace s h (recKey h b)
  let e := entryOf (bucketLook s p.slice p.bucket) h.nsid p
  if h.kind = 1 then match e with | some e => e.stripe == stripe && e.unit == unit && e.version == h.version | none => false
  else if h.kind = 2 then decide (h.version ≥ ((sliceRec s p.slice).map Slice.purge).getD 0)
  else match e with | some e => e.version == h.version | none => false

/-- A record is live: 0 not, 1 by the first case of R193, 2 by the second, 3 as a record of a descriptor stripe. -/
def recLive (s : State) (stripe unit : Nat) (h : RecHdr) (b : Bytes) : Nat :=
  let x := hashSlice h.fprint
  if h.kind = 6 ∨ h.kind = 7 then 3
  else if actsFor s x then b2n (recCurrent s stripe unit h b)
  else if s.kv.disowned.contains x then 0 else 2

/-- An index entry of a slice this device acts for names a stripe, alone or as one of a large object's run. -/
def indexNames (s : State) (group stripe : Nat) : Bool :=
  ((heldSlices s).filter fun x => sliceGroup s x == group && actsFor s x).any fun x => (bucketsOf s x).any fun b =>
    (bkEntries (bucketLook s x b)).any fun e =>
      inRun e.stripe (if e.length ≤ 65072 then 1 else largeRun (((writingSet s group).map GenSet.k).getD 1) e.length) stripe

/-- A command still reads from a stripe (R194 step 3). -/
def stripeInUse (s : State) (group stripe : Nat) : Bool :=
  s.hte.fetches.any fun f => f.group == group && f.stripe == stripe && decide (f.user < 2 ^ 20)

/-- What a rewrite has copied in a group has committed: no open stripe holds a copy, no intent of it is open, and every partner has acknowledged. -/
def copiesCommitted (s : State) (group : Nat) : Bool :=
  !(s.pj.opens.any fun o => o.group == group && o.recs.any fun r => r.2.2.2.2 ≥ 2 ^ 20) &&
    !(s.pj.intents.any fun i => i.group == group && (i.rewrite || i.packed) && decide (i.step < 5)) &&
    s.pj.chans.all fun c => c.sent.isEmpty || hullLost s group c.partner

/-- One live record copied into an open stripe, its index entry pointed at the copy; VERSION and the rest stay (R194 steps 1 and 2). None without
room, or while the entry's bucket cannot be changed. -/
def copyRecord (s : State) (h : RecHdr) (b : Bytes) : Option State :=
  let p := recPlace s h (recKey h b)
  match if !(ringRoom s 1024) || (h.kind == 1 && (bucketOpen s p.slice p.bucket).isNone) then none else packRecord s p.slice h.nsid (2 ^ 20) b with
  | none => none
  | some ((stripe, unit, _), s) =>
    if h.kind ≠ 1 then some s
    else
      let e : Entry := ⟨h.nsid, p.kc, p.hash % 2 ^ 39, stripe / 2 ^ 59, bits stripe 5 54, unit, h.length, h.version⟩
      let c := stampChange s (changeBytes 1 0 p.slice p.bucket (entryBytes e) (entrySlotWord e) 0 0 h.version)
      match indexRecord s p.slice stripe [c] with
      | none => none
      | some (s, _) => some (changeAll [c] s).1

/-- Live records copied one after another as long as there is room; whether all were. -/
def copyRecords : List (RecHdr × Bytes) → State → State × Bool
  | [], s => (s, true)
  | (h, b) :: rest, s =>
    match copyRecord s h b with
    | some s => copyRecords rest s
    | none => (s, false)

/-- The stream of a large object read stripe by stripe: the plaintext areas, or how the read stands. -/
def readRun (s : State) (user group gen : Nat) (k : Nat) : List Nat → State × Option (List Bytes) × Bool
  | [] => (s, some [], true)
  | st :: rest =>
    let r := readStripe s user group gen st (List.range k)
    let t := readRun r.1 user group gen k rest
    match r.2, t.2.1 with
    | .units d _ _, some ds => (t.1, some (d ++ ds), t.2.2)
    | .waits, _ => (t.1, none, t.2.2)
    | .units _ _ _, none => (t.1, none, t.2.2)
    | _, _ => (t.1, none, false)

/-- A large object copied into new stripes under a REWRITE intent with its index change (R194, R197). -/
def copyLarge (s : State) (group : Nat) (h : RecHdr) (key : Bytes) (stream : Bytes) : Option State :=
  let p := recPlace s h key
  match groupRec s group, writingSet s group, nsKey s h.nsid with
  | some g, some x, some dk =>
    let run := largeRun x.k h.length
    match takeSerials s g run with
    | none => none
    | some (serial, s) =>
      let e : Entry := ⟨h.nsid, p.kc, p.hash % 2 ^ 39, g.seat, serial, 0, h.length, h.version⟩
      let c := changeBytes 1 0 p.slice p.bucket (entryBytes e) (entrySlotWord e) 0 0 h.version
      openIntent s (newIntent group (stripeId g.seat serial) run x false true h.nsid 1 [c] ((sliceBow s p.slice).toList)
        (largeUnits s group h.nsid g.seat serial x dk stream run))
  | _, _, _ => none

/-- SLICE_DISOWN to a keeper whose stripes are all visited (R197). -/
def disownDone (s : State) (c : Copying) : State :=
  if !c.asked.isEmpty || !c.left.isEmpty || !(copiesCommitted s c.group) then s
  else
    let s := { s with kv := { s.kv with copying := s.kv.copying.filter fun d => !(d.group == c.group && d.seat == c.seat) } }
    c.slices.foldl (fun s x => (peerRequest s (seatHull s c.group c.seat) { op := 0x8B, group := c.group, arg0 := x } []).1) s

/-- A stripe of another keeper visited for the slices gained (R197): its live records are copied, a large object whole. -/
def copyOut (s : State) (c : Copying) (stripe gen : Nat) : Res :=
  let user := crewUser s 0 c.group
  let visited := fun (s : State) =>
    let c := { c with left := c.left.filter fun q => q.1 != stripe }
    let s := { s with kv := { s.kv with copying := s.kv.copying.map fun d => if d.group == c.group && d.seat == c.seat then c else d } }
    disownDone (dropFetches s user) c
  match genOf s c.group gen with
  | none => .fault (.undefined219 4)
  | some x =>
    let r := readStripe s user c.group gen stripe (List.range x.k)
    match r.2 with
    | .waits => .next r.1
    | .unavailable => .next (dropFetches r.1 user)
    | .noSet => .fault (.undefined219 4)
    | .marked => .next (visited r.1)
    | .dataLost | .integrity => .next (visited (stripeLostNow r.1 c.group gen stripe))
    | .units d _ _ =>
      let live := (stripeRecords s d).filter fun q => c.slices.contains (hashSlice q.2.2.1.fprint) && recLive s stripe q.1 q.2.2.1 q.2.2.2 == 1
      match live.find? fun q => bitAt q.2.2.1.hflags 0 with
      | none =>
        let w := copyRecords (live.map fun q => (q.2.2.1, q.2.2.2)) r.1
        .next (if w.2 then visited w.1 else advance (sealOldest w.1))
      | some q =>
        let h := q.2.2.1
        let run := readRun r.1 user c.group gen x.k (runStripes stripe (largeRun x.k h.length))
        match run.2.1 with
        | none => .next (if run.2.2 then run.1 else visited run.1)
        | some us =>
          let stream := (us.map fun u => ((openUnit s u).getD (zeros plainLen))).flatten
          match copyLarge run.1 c.group h (slice stream 128 h.keyLen) (stream.take (384 + h.length)) with
          | some s => .next (visited s)
          | none => .next run.1

/-- A stripe this device keeps whose records no longer decide anything: freed once what was copied has committed and nothing reads it (R194 steps 3
and 4, R277). -/
def freeDead (s : State) (group : Nat) (x : KeptStripe) : State :=
  if stripeInUse s group x.stripe || !(copiesCommitted s group) then s
  else cycleStep (freeStripe s group x.stripe 1 x.genId) group

/-- A stripe's live records are copied: it is freed once the copies have committed. -/
def markCopied (s : State) (group stripe : Nat) : State :=
  match groupRec s group with
  | some g => putGroup s { g with kept := g.kept.map fun y => if y.stripe = stripe then { y with slice := 65537 } else y }
  | none => s

/-- The records of a descriptor stripe copied into a new one (R171, R194), once the open stripe of namespace 0 is sealed. -/
def copyDescriptor (s : State) (group stripe : Nat) (recs : Bytes) : State :=
  if s.pj.opens.any fun o => o.group == group && o.nsid == 0 then
    advance ((s.pj.opens.filter fun o => o.group == group && o.nsid == 0 && !o.sealing).foldl sealStripe s)
  else
    match (groupRec s group).bind fun g => clearStripe s g recs with
    | some s => markCopied s group stripe
    | none => advance (sealOldest s)

/-- A packed stripe rewritten (R194, R195): live records are copied when they fill less than COMPACT_PCT of the stripe; none while a record is live by
the second case of R193. -/
def rewritePacked (s : State) (group : Nat) (x : KeptStripe) : Res :=
  let user := crewUser s 0 group
  match genOf s group x.genId with
  | none => .fault (.undefined219 4)
  | some set =>
    let r := readStripe s user group x.genId x.stripe (List.range set.k)
    match r.2 with
    | .waits => .next r.1
    | .unavailable => .next (dropFetches r.1 user)
    | .noSet => .fault (.undefined219 4)
    | .marked => .next (dropFetches r.1 user)
    | .dataLost | .integrity => .next (stripeLostNow (dropFetches r.1 user) group x.genId x.stripe)
    | .units d _ _ =>
      let s := dropFetches r.1 user
      let recs := (stripeRecords s d).map fun q => (recLive s x.stripe q.1 q.2.2.1 q.2.2.2, q.2.2)
      let live := recs.filter fun q => q.1 == 1 || q.1 == 3
      if recs.any fun q => q.1 == 2 then .next (cycleStep s group)
      else if live.isEmpty then .next (freeDead s group x)
      else if (live.map fun q => alignUp q.2.2.length 8).sum * 100 ≥ s.media.settings.compactPct * set.k * plainLen then .next (cycleStep s group)
      else if recs.any fun q => q.1 == 3 then .next (cycleStep (copyDescriptor s group x.stripe (live.map fun q => q.2.2).flatten) group)
      else
        let w := copyRecords (live.map fun q => q.2) s
        .next (cycleStep (if w.2 then markCopied w.1 group x.stripe else advance (sealOldest w.1)) group)

/-- STRIPE_REWRITE: a stripe this device keeps is compacted or freed (R194, R277), or one that another keeps is visited for the slices gained
(R197). It waits while intents are held (R216). -/
def execStripeRewrite (group stripe : Nat) (s : State) : Res := whileCore s fun s =>
  let st := unit0 stripe
  if intentsHeld s then .next s else
  match groupRec s group with
  | none => .next s
  | some g =>
    match keptOf g st with
    | none =>
      match s.kv.copying.find? fun c => c.group == group && c.left.any fun q => q.1 == st with
      | none => .next (s.kv.copying.foldl disownDone s)
      | some c => copyOut s c st (((c.left.find? fun q => q.1 == st).map Prod.snd).getD 0)
    | some x =>
      if x.open_ then .next s
      else if x.lost then
        .next (if indexNames s group st || (!x.packed && x.slice != 65536 && !(actsFor s x.slice) && !(s.kv.disowned.contains x.slice)) then s
          else freeDead s group x)
      else if x.slice = 65537 then .next (freeDead s group x)
      else if x.packed then rewritePacked s group x
      else if (if actsFor s x.slice then indexNames s group st else !(s.kv.disowned.contains x.slice)) then .next (cycleStep s group)
      else .next (freeDead s group x)

end Sys2Proof.Machine
end

