-- ==== Sys2Proof/Machine/Epoch.lean ====
section
/-! DEFINITION. Rig epochs (05, 08): copies of slices, the two-phase change, and what a device does when a rig becomes active. -/

namespace Sys2Proof.Machine

/-! ### Index copies (R214) -/

/-- The container of the staged epoch. -/
def stagedRig (s : State) : Option Bytes := (s.rig.kept.find? fun k => k.1 == getF s F.RIG_STAGED_EPOCH_EPOCH).map Prod.snd

/-- The hull numbers of the stroke and bow of a slice under a rig. -/
def roleHulls (v : RigView) (x : Nat) : List Nat := v.hull (v.strokeDev x) :: ((v.bowDev x).toList.map v.hull)

/-- The devices that gain a role for a slice under the staged rig. -/
def gainers (s : State) (v : RigView) (x : Nat) : List Nat :=
  (roleHulls v x).filter fun h => !((roleHulls (activeView s) x).contains h) && h != Config.hull

/-- The bulk of each slice this device acts for, copied to the devices that gain a role (R214). -/
def bulkCopies (s : State) (v : RigView) : State :=
  let xs := (heldSlices s).filter fun x => actsFor s x && !(gainers s v x).isEmpty && !(s.kv.copied.contains x)
  let s := xs.foldl (fun s x => (gainers s v x).foldl (fun s h => copyTo s h x (sliceChanges s x)) s) s
  { s with kv := { s.kv with copied := s.kv.copied ++ xs } }

/-- The last changes of the slices copied (Table 05-8 step 2). -/
def lastDeltas (s : State) (v : RigView) : State :=
  let xs := s.kv.copied.filter fun x => s.kv.deltas.any fun c => chSlice c == x
  let s := xs.foldl (fun s x => (gainers s v x).foldl (fun s h => copyTo s h x (s.kv.deltas.filter fun c => chSlice c == x)) s) s
  { s with kv := { s.kv with deltas := [] } }

/-- A slice's copy on this device is whole. -/
def sliceWhole (s : State) (x : Nat) : Bool := sliceHeld s x && !(((sliceRec s x).map Slice.rebuilding).getD false)

/-- The slices this device gains under a rig of which it does not hold a whole copy yet (R214). -/
def unheldRoles (s : State) (v : RigView) : List Nat :=
  (List.range (v.count 3)).filter fun x => (roleHulls v x).contains Config.hull && !((roleHulls (activeView s) x).contains Config.hull) && !(sliceWhole s x)

/-- The changes of a slice that mirrored records brought since its copy was begun, oldest first. -/
def mirroredSince (s : State) (x : Nat) : List Bytes :=
  (((pjLive s).filter fun r => rkMirror r.2 && (rkKind r.2 == 2 || rkKind r.2 == 3)).map fun r =>
    (bodyChanges (fld (rkBody r.2) (if rkKind r.2 = 3 then 0 else 8) 2) ((rkBody r.2).drop 64)).filter fun c =>
      chSlice c == x && chOp c != 4 && changeLives s (rkSeq r.2) c).flatten

/-- A message of a slice's copy taken (R214, R254): the copy is begun, or where another device acts for the slice by takeover begun anew, its changes are
journaled and applied, and with the last message what was mirrored meanwhile is applied over it. None while there is no room. -/
def takeCopy (s : State) (x b : Nat) (changes : List Bytes) : State × Bool :=
  let stale := ((sliceRec s x).map Slice.takeover).getD 0 == 4 && sliceWhole s x
  let s := if sliceHeld s x then (if stale then renewSlice s x b else s)
    else let t := holdSlice s x b
      match sliceRec t x with | some r => putSlice t { r with rebuilding := true } | none => t
  if !(sliceHeld s x) then (s, false)
  else
    let purges := changes.filter fun c => chOp c == 4 && chSlice c == x
    let chs := changes.filter fun c => chOp c != 4 && changeLives s (2 ^ 64) c && chSlice c == x
    let f := fillSlice x chs.length chs (purges.foldl notePurge s)
    if f.2 ≠ [] then (f.1, false)
    else if changes.length ≥ 1024 ∨ sliceWhole f.1 x then (f.1, true)
    else
      let ms := mirroredSince f.1 x
      let g := fillSlice x ms.length ms f.1
      if g.2 ≠ [] then (g.1, false)
      else (match sliceRec g.1 x with | some r => refillEnd g.1 { r with redo := false } | none => g.1, true)

/-- SLICE_COPY (R162, R214, R254): its changes are taken into this device's copy where the active or the staged rig gives it a role, and it answers ST_OK; it
waits for journal room, a directory run or a cache slot. At the acting stroke one with no body, from a device with a role, asks for a copy. A device
without a role answers ST_NOT_PERMITTED, and so does the acting stroke to a body. DESIGN CHOICE: the spec gives neither answer (log entry 68). -/
def execSliceCopy (s : State) : Res :=
  onPeer 0x8A s fun s id b =>
    let x := (readPeer b).arg0 % 65536
    let staged := (stagedRig s).map containerView
    let role := fun (v : RigView) (h : Nat) => (roleHulls v x).contains h
    let view := fun (h : Nat) => if role (activeView s) h then some (activeView s) else staged.filter fun v => role v h
    if actsFor s x && sliceWhole s x && peerLen b == 0 && (view (sessHull s id)).isSome then
      .next (copyTo (peerReply s id b ST.ok 0 0 []) (sessHull s id) x (sliceChanges s x))
    else
      match if actsFor s x then none else view Config.hull with
      | none => .next (peerReply s id b ST.notPermitted 0 0 [])
      | some v =>
        let r := takeCopy s x (v.place x).log2b (bodyChanges (peerLen b / 64) (peerBody b))
        .next (if r.2 then peerReply r.1 id b ST.ok 0 0 [] else putBack r.1 id b)

/-- The partners of this device under a rig: the other role of each slice for which it is stroke or bow. -/
def pairPartners (v : RigView) : List Nat :=
  let xs := (List.range (v.count 3)).filter fun x => (roleHulls v x).contains Config.hull
  ((xs.map (roleHulls v)).flatten.eraseDups).filter (· != Config.hull)

/-- The channel with a partner, there from now on, with K_P of the peer session where one is open. -/
def openChannel (s : State) (hull : Nat) : State :=
  if (chanWith s hull).isSome then s
  else
    let s := pairChannel s hull
    match ((peerSession s 1 hull).bind (sessRec s)).bind Sess.key with
    | some k => keyChannel s hull k
    | none => s

/-- The pair channels of the device: one for each partner under the active or the staged rig; one whose partner neither names ends once nothing of it is
unacknowledged (R247). -/
def rigChannels (s : State) : State :=
  let hulls := pairPartners (activeView s) ++ ((stagedRig s).map fun c => pairPartners (containerView c)).getD []
  let s := hulls.foldl openChannel s
  { s with pj := { s.pj with chans := s.pj.chans.filter fun c => hulls.contains c.partner || c.st != 2 || !c.sent.isEmpty } }

/-- What follows when another rig is staged: its pair channels (R247), and STAGED_EPOCH is told (R206). -/
def stagedNow (s : State) : State := tellChanged (rigChannels s)

/-- The loader has checked the container and built the image (R302). -/
def execRigStageEnd (s : State) : Res := whileCore s fun s =>
  if flag s F.RIG_STATUS_BUSY then andThen (rigStageEnd s) fun s => .next (stagedNow s) else .next s

/-- RIG_CTRL.DISCARD (R304). -/
def execRigCtrlDiscard (core : Nat) (s : State) : Res :=
  coreStore s core F.RIG_CTRL_DISCARD.addr fun s => .next (stagedNow (rigDiscard s))

/-! ### The change (R213 to R217) -/

/-- The hull numbers of the other devices with which this device shares a group under a rig (R198). -/
def rigPeers (v : RigView) : List Nat :=
  match v.devOfHull Config.hull with
  | none => []
  | some self => (((v.groupsOf self).map fun g => (List.range (v.seats g)).map fun t => v.hull (v.seatDev g t)).flatten.eraseDups).filter (· != Config.hull)

/-- The hull numbers of the other devices that a rig names. -/
def rigDevices (v : RigView) : List Nat := ((List.range (v.count 1)).map v.hull).filter (· != Config.hull)

/-- A device is marked lost in every group it shares with this one, of which there is some. -/
def lostEverywhere (s : State) (hull : Nat) : Bool :=
  let gs := sharedGroups s hull
  !gs.isEmpty && gs.all fun g => hullLost s g.id hull

/-- The devices that take part in the change to the staged epoch (R214). -/
def changePeers (s : State) (v : RigView) : List Nat :=
  ((rigPeers (activeView s) ++ rigPeers v).eraseDups).filter fun h => !(lostEverywhere s h)

/-- The epoch leader that a container names. -/
def rigLeader (c : Bytes) : Nat := fld c 24 8

/-- An outcome recorded; those of the last 16 epochs staged here are kept (R217). -/
def recordOutcome (s : State) (e : Nat) (commit : Bool) : State :=
  { s with epoch := { s.epoch with outcomes := ((e, commit) :: s.epoch.outcomes.filter fun o => o.1 != e).take 16 } }

/-- ABORTED recorded for an epoch that was never staged here (BEHIND of Table 05-9). -/
def recordBehind (s : State) (e : Nat) : State :=
  { s with epoch := { s.epoch with behind := e :: s.epoch.behind.filter (· != e) } }

/-- The outcome recorded for an epoch. -/
def outcomeOf (s : State) (e : Nat) : Option Bool :=
  match s.epoch.outcomes.find? fun o => o.1 == e with
  | some o => some o.2
  | none => if s.epoch.behind.contains e then some false else none

/-- A device last reported PHASE STAGED of an epoch. -/
def reportsStaged (s : State) (e hull : Nat) : Bool := s.epoch.reports.contains (hull, e, 1)

/-- GROUP_STATUS of the groups in which this device sits under the staged rig alone, to the devices there: it reports STAGED as FORMING, with no LOST bit and
G_SERIAL 0. DESIGN CHOICE: the spec gives no other message that carries the PHASE of such a device (log entry 69). -/
def tellStaged (s : State) (v : RigView) : State :=
  match v.devOfHull Config.hull with
  | none => s
  | some self => ((v.groupsOf self).filter fun g => (groupRec s (v.groupId g)).isNone).foldl (fun s g =>
      let body := le 1 s.pwr.dev ++ [1] ++ le 1 ((v.seatOf g self).getD 0) ++ le 1 (shownPhase s) ++ zeros 4 ++ le 8 (getF s F.RIG_STAGED_EPOCH_EPOCH) ++ zeros 24
      tellHulls { op := 0x86, group := v.groupId g } body (((List.range (v.seats g)).map fun t => v.hull (v.seatDev g t)).filter (· != Config.hull)) s) s

/-- The device takes PHASE STAGED once the staged rig is there and the slices it gains are copied, and reports it (R214). -/
def enterStaged (s : State) (v : RigView) : State :=
  let e := getF s F.RIG_STAGED_EPOCH_EPOCH
  if (s.epoch.phase = 0 ∨ s.epoch.phase = 3) ∧ outcomeOf s e = none ∧ unheldRoles s v = [] then
    tellStaged (sendAllStatus { s with epoch := { s.epoch with phase := 1, epoch := e, crc := getF s F.RIG_STAGED_CRC_CRC, since := s.now } }) v
  else s

/-- A request of the change sent to each of a list of devices. -/
def sendChange (s : State) (op : Nat) (hulls : List Nat) : State :=
  hulls.foldl (fun s h => (peerRequest s h { op := op, arg0 := s.epoch.epoch, arg1 := s.epoch.crc } []).1) s

/-- Every fragment of the active epoch is acknowledged and no stripe is open (Table 05-8 step 2). -/
def drained (s : State) : Bool := s.pj.opens.isEmpty && s.pj.intents.all fun i => decide (i.step ≥ 5)

/-- EPOCH_CHANGE_START (R214, Table 05-8 steps 0 and 1): a device with a staged rig copies its slices to those that gain them and becomes STAGED;
the leader, once a rig is active and every device of the change reports STAGED, records PREPARING and sends EPOCH_PREPARE. -/
def execEpochChangeStart (s : State) : Res := whileCore s fun s =>
  match stagedRig s with
  | none => .next s
  | some c =>
    if !(flag s F.RIG_STATUS_STAGED) then .next s
    else
      let v := containerView c
      let s := enterStaged (bulkCopies s v) v
      let peers := changePeers s v
      if s.epoch.phase = 1 && rigOn s && rigLeader c == Config.hull && peers.all (reportsStaged s s.epoch.epoch) then
        let s := { s with epoch := { s.epoch with phase := 5, since := s.now, waiting := peers, allOk := true } }
        .next (advance (sealAll (sendChange s 0x8C peers)))
      else .next s

/-- The leader aborts: EPOCH_ABORT to all, ACTIVE of the old epoch, EV_EPOCH_ABORTED (Table 05-8 step 3). -/
def epochAbort (s : State) : State :=
  let e := s.epoch.epoch
  let s := { recordOutcome s e false with epoch := { (recordOutcome s e false).epoch with phase := 0, waiting := [], refusing := false, preparer := none } }
  let s := if getF s F.RIG_STAGED_EPOCH_EPOCH = e then rigDiscard s else s
  let s := { s with kv := { s.kv with copied := [], deltas := [] } }
  sendAllStatus (logCrew s EV.epochAborted)

/-- The swap to the staged rig begins for a commit. -/
def commitSwap (s : State) : State := rigActivate { s with rig := { s.rig with commit := true } }

/-- The leader's decision (Table 05-8 step 3): COMMIT once every reply is ST_OK and it is drained itself; ABORT once one is not, or at the limit. -/
def epochDecide (s : State) (limit : Bool) : State :=
  if s.epoch.phase ≠ 5 then s
  else
    let peers := match stagedRig s with | some c => changePeers s (containerView c) | none => []
    if s.epoch.allOk && s.epoch.waiting.isEmpty && drained s then
      let s := match stagedRig s with | some c => lastDeltas s (containerView c) | none => s
      let s := recordOutcome s s.epoch.epoch true
      let s := { s with epoch := { s.epoch with phase := 6, waiting := peers, since := s.now } }
      commitSwap (sendChange s 0x8D peers)
    else if limit || !s.epoch.allOk then epochAbort (sendChange s 0x8E peers)
    else s

/-- EPOCH_LEADER_LIMIT: 2,000 ms after EPOCH_PREPARE the leader commits or aborts. -/
def execEpochLeaderLimit (s : State) : Res := whileCore s fun s =>
  if s.epoch.phase = 5 then .next (settle (epochDecide (reach s (s.epoch.since + 2000 * ms)) true)) else .next s

/-- EPOCH_PREPARE (R215, R304): refused where the staged rig is another or ABORTED is recorded; else new intents are held, open stripes sealed,
and once every fragment is acknowledged the last changes are sent, PREPARED is recorded and ST_OK answered. The message waits until then. -/
def execEpochPrepare (s : State) : Res :=
  onPeer 0x8C s fun s id b =>
    let h := readPeer b
    let e := h.arg0
    if s.epoch.phase = 2 ∧ s.epoch.epoch = e then .next (peerReply s id b ST.ok 0 0 [])
    else if getF s F.RIG_STAGED_EPOCH_EPOCH ≠ e ∨ getF s F.RIG_STAGED_CRC_CRC ≠ h.arg1 % 2 ^ 32 ∨ (outcomeOf s e).isSome = true then
      .next (peerReply s id b ST.stateConflict 0 0 [])
    else
      let s := advance (sealAll { s with epoch := { s.epoch with preparer := some (id, h.tag) } })
      if !(drained s) then .next (putBack s id b)
      else
        let s := match stagedRig s with | some c => lastDeltas s (containerView c) | none => s
        let s := { s with epoch := { s.epoch with phase := 2, epoch := e, crc := h.arg1 % 2 ^ 32, since := s.now, askedAt := 0, queried := [],
                                                  refusing := false, preparer := none } }
        .next (peerReply (sendAllStatus s) id b ST.ok 0 0 [])

/-- EPOCH_COMMIT (R216, Table 05-8 step 4): the swap begins; the message waits and is answered ST_OK once the device is ACTIVE in that epoch. -/
def execEpochCommit (s : State) : Res :=
  onPeer 0x8D s fun s id b =>
    let e := (readPeer b).arg0
    if activeEpoch s = e then .next (peerReply s id b ST.ok 0 0 [])
    else if getF s F.RIG_STAGED_EPOCH_EPOCH ≠ e then .next (peerReply s id b ST.stateConflict 0 0 [])
    else .next (putBack (commitSwap (recordOutcome s e true)) id b)

/-- EPOCH_ABORT (R304): the device returns to ACTIVE in the old epoch, discards the staged rig and records EV_EPOCH_ABORTED; ST_OK. -/
def execEpochAbort (s : State) : Res :=
  onPeer 0x8E s fun s id b =>
    let e := (readPeer b).arg0
    let s := if getF s F.RIG_STAGED_EPOCH_EPOCH = e ∧ activeEpoch s ≠ e ∧ outcomeOf s e ≠ some true then
        epochAbort { s with epoch := { s.epoch with epoch := e } }
      else s
    .next (settle (peerReply s id b ST.ok 0 0 []))

/-- The answer to EPOCH_QUERY (Table 05-9), and whether ABORTED is recorded before it is given. -/
def epochAnswer (s : State) (e : Nat) : Nat × Bool :=
  let out := outcomeOf s e
  let staged := getF s F.RIG_STAGED_EPOCH_EPOCH == e && flag s F.RIG_STATUS_STAGED
  if activeEpoch s = e then (0, false)
  else if (s.epoch.phase = 6 ∧ s.epoch.epoch = e) ∨ (activeEpoch s > e ∧ out = some true) then (6, false)
  else if s.epoch.phase = 5 ∧ s.epoch.epoch = e then (5, false)
  else if s.epoch.phase = 2 ∧ s.epoch.epoch = e ∧ out = none then (2, false)
  else if out = some false then (3, false)
  else if staged = true ∧ out = none then (1, true)
  else if activeEpoch s < e ∧ staged = false ∧ out = none then (7, true)
  else (4, false)

/-- EPOCH_QUERY (R217): the first row of Table 05-9 that applies is answered, ABORTED recorded first where the row requires it. -/
def execEpochQuery (s : State) : Res :=
  onPeer 0x8F s fun s id b =>
    let e := (readPeer b).arg0
    let a := epochAnswer s e
    let s := if a.1 = 7 then recordBehind s e else if a.2 then recordOutcome s e false else s
    let s := if a.1 = 1 then sendAllStatus { s with epoch := { s.epoch with phase := 3, epoch := e, preparer := none } } else s
    .next (peerReply s id b ST.ok 0 a.1 [])

/-- An answer to this device's EPOCH_QUERY (R215): a commit or an abort where it decides; the device keeps waiting, and refuses, once every query
is answered with none that decides. -/
def epochAnswered (s : State) (hull code : Nat) : State :=
  if s.epoch.phase ≠ 2 then s
  else
    let s := { s with epoch := { s.epoch with queried := (hull, code) :: s.epoch.queried } }
    if code = 0 ∨ code = 6 then commitSwap (recordOutcome s s.epoch.epoch true)
    else if code = 1 ∨ code = 3 ∨ code = 7 then epochAbort s
    else { s with epoch := { s.epoch with refusing := s.epoch.refusing || !(s.hte.requests.any fun r => r.op == 0x8F) } }

/-- EPOCH_PREPARED_TIMEOUT (R215): 10 s PREPARED without an outcome, and every 10 s after, the device queries every device named in either rig; where the
last queries brought answers, none of which decided, it refuses from now on. -/
def execEpochPreparedTimeout (s : State) : Res := whileCore s fun s =>
  if s.epoch.phase ≠ 2 then .next s
  else
    let s := reach s ((if s.epoch.askedAt = 0 then s.epoch.since else s.epoch.askedAt) + 10 * sec)
    let v := match stagedRig s with | some c => rigDevices (containerView c) | none => []
    let hulls := (rigDevices (activeView s) ++ v).eraseDups
    let s := dropRequests s fun r => r.op == 0x8F
    let refuse := s.epoch.refusing || !s.epoch.queried.isEmpty
    .next (sendChange { s with epoch := { s.epoch with askedAt := s.now, queried := [], refusing := refuse } } 0x8F hulls)

/-! ### A rig becomes active (R178, R218, Tables 05-7 and 05-8) -/

/-- A group's record under the active rig: kept where the device already sat in it, else FORMING with the serial ceiling recorded for it. -/
def groupUnder (s : State) (id seat : Nat) : Group :=
  match groupRec s id with
  | some g =>
    { g with seat := seat, seats := g.seats.filter fun i => decide (i.seat < groupSeats s id) }
  | none =>
    let c := (kvGet s.rig.ceilings id).getD 0
    ⟨id, seat, 1, 0, 0, s.now, false, none, [], max c 1, c, (List.range (groupSeats s id)).map fun t => noInfo t s.now, 0, [], [], none, [], [], none, s.now, []⟩

/-- Groups in ascending order of GROUP_ID (R178). -/
def insertGroup (g : Group) : List Group → List Group
  | [] => [g]
  | h :: hs => if g.id ≤ h.id then g :: h :: hs else h :: insertGroup g hs

/-- The groups of the device under the active rig (R178, R209); what the old rig named and the new does not is left. -/
def rigGroups (s : State) : State :=
  let v := activeView s
  let self := selfIndex s
  let new := (v.groupsOf self).map fun g => groupUnder s (v.groupId g) ((v.seatOf g self).getD 0)
  let gone := s.groups.filter fun g => !(new.any fun h => h.id == g.id)
  let ceil := gone.foldl (fun c g => kvPut c g.id g.ceiling) s.rig.ceilings
  let s := { s with groups := new.foldr insertGroup [], rig := { s.rig with ceilings := ceil } }
  let resumed := (v.groupsOf self).filter fun g => v.resume g && ((groupRec s (v.groupId g)).map Group.gstate).getD 0 == 5
  resumed.foldl (fun s g =>
    let s := setGState s (v.groupId g) 3
    afterDegraded (compareRows s (v.groupId g)) (v.groupId g)) s

/-- The slices of the device under the active rig: those gained begin, those lost end, those of another B are laid out anew (R145), ACTING follows the rig (R148,
R218). -/
def rigSlices (s : State) (acted : List Nat) (sameTaken : List Nat) : State × List Nat :=
  let v := activeView s
  let mine := (List.range (v.count 3)).filter fun x => (roleHulls v x).contains Config.hull
  let s := ((heldSlices s).filter fun x => !(mine.contains x)).foldl leaveSlice s
  let s := (mine.filter fun x => sliceHeld s x && decide (sliceB s x ≠ (v.place x).log2b)).foldl (fun s x => relaySlice s x (v.place x).log2b) s
  let s := (mine.filter fun x => !(sliceHeld s x)).foldl (fun s x => holdSlice s x (v.place x).log2b) s
  let s := mine.foldl (fun s x =>
    match sliceRec s x with
    | some r => putSlice s (if sameTaken.contains x then r else { r with takeover := 0 })
    | none => s) s
  let s := mine.foldl (fun s x => setActing s x (actsFor s x)) s
  (s, mine.filter fun x => actsFor s x && !(acted.contains x))

/-- A redirect reply (R74, Table 02-8). -/
def redirectBytes (s : State) (cap : Bytes) (x : Nat) : Bytes :=
  let hull := actingHull s x
  let dev := ((activeView s).devOfHull hull).getD 0
  let body := le 8 hull ++ (activeView s).bytes 1 dev 8 16 ++ le 2 x ++ le 2 (b2n (hull != (activeView s).hull ((activeView s).strokeDev x))) ++ zeros 4
  replyBytes cap ST.redirect 0 0 (activeEpoch s) x body

/-- Held commands run check 8 again under the new epoch (R216). -/
def rerunHeld (s : State) : State :=
  let keyed := s.hte.cmds.filter fun c => !c.started && !c.ended && decide (capKeyLen c.capsule > 0) && capOp c.capsule != 0x15 &&
    !((capOp c.capsule == 0x17 || capOp c.capsule == 0x18) && capFlag c.capsule 4)
  keyed.foldl (fun s c =>
    let x := hashSlice (keyHash s (capNsid c.capsule) (capKey c.capsule))
    if actsFor s x then s else finish s c (redirectBytes s c.capsule x)) s

/-- A rig has become active: groups, slices and channels follow it, the slice-view generation rises, descriptors are written where a writing set
changed, slices gained are copied unless it is the first rig, and what was held goes on (R118, R171, R197, R216, R218). -/
def applyRig (s : State) (first : Bool) (acted sameTaken : List Nat) : State :=
  let s := rigGroups s
  let r := rigSlices s acted sameTaken
  let s := rigChannels (raiseView r.1)
  settle (rerunHeld (if first then s else startCopying s r.2))

/-- The leader is ACTIVE in the new epoch once it has swapped and every reply is in (Table 05-8 step 5). -/
def leaderDone (s : State) : State :=
  if s.epoch.phase = 6 && activeEpoch s == s.epoch.epoch && s.epoch.waiting.isEmpty then
    sendAllStatus (logCrew { s with epoch := { s.epoch with phase := 0 } } EV.epochChanged)
  else s

/-- A rig gives this device more directory words than there are (R146). -/
def rigCrowded (v : RigView) : Bool :=
  decide ((((List.range (v.count 3)).filter fun x => (roleHulls v x).contains Config.hull).map fun x => 2 ^ (v.place x).log2b).sum > 2 ^ 25)

/-- A new rig drops a group, or a generator set, in which this device keeps a stripe (R219, fourth case). -/
def rigDropsLive (s : State) (v : RigView) : Bool :=
  s.groups.any fun g => g.kept.any fun x => match v.groupOfId g.id with
    | none => true
    | some i => (v.setOf i x.genId).isNone

end Sys2Proof.Machine
end

