-- ==== Sys2Proof/Machine/Admin.lean ====
section
/-! DEFINITION. Administration (03, 05, 15): the records of namespace 0, changes ordered by their acting stroke and sent to every device,
namespaces and their data keys, tenants, prefix holds, and the two clocks. -/

namespace Sys2Proof.Machine

/-! ### Clocks (R126 to R128) -/

/-- The predicted retention clock P (R126). -/
def predicted (s : State) : Nat :=
  match s.kv.retention with
  | some (v, at_) => v + (opsec s - at_)
  | none => (savedPair s).1 + (opsec s - (savedPair s).2)

/-- The retention clock saved in the configuration store as a pair with the operating seconds, where it is known (R126); a store without room leaves the
earlier pair. -/
def saveRetention (s : State) : State :=
  match s.kv.retention with
  | some _ =>
    let s := { s with kv := { s.kv with savedAt := s.now } }
    (cfgAppend s retentionKey false (le 8 (predicted s) ++ le 8 (opsec s))).getD s
  | none => s

/-- The clocks set (R127): the state, whether the retention clock ends below SECONDS, and the retention clock. The calendar clock takes SECONDS plus NANOS;
the logbook's own base, in whole seconds, takes SECONDS (R576). -/
def clockSet (s : State) (seconds nanos : Nat) (force : Bool) : State × Bool × Nat :=
  let p := predicted s
  let spent := match s.kv.advancedAt with | some a => decide (opsec s < a + 3600) | none => false
  let r := if force then max p seconds else if spent then p else max p (min seconds (p + 3600))
  let adv := if !force && decide (r > p) then some (opsec s) else s.kv.advancedAt
  let s := setF (setF (setF s F.LOG_CAL_SEC_SECONDS seconds) F.LOG_CAL_AT_OPSEC (opsec s)) F.LOG_CAL_CTRL_VALID 1
  let s := { s with kv := { s.kv with retention := some (r, opsec s), advancedAt := adv, calendar := some (seconds * sec + nanos, s.now) } }
  (logCrew s (if force then EV.clockForced else EV.clockSet), decide (r < seconds), r)

/-- CLOCK_SET (R127). -/
def execClockSet (cmd : Nat) (s : State) : Res :=
  onCmd s cmd 0x30 fun s c =>
    let r := clockSet s (capP1 c.capsule) (capP0 c.capsule) (capFlag c.capsule 4)
    .next (answer r.1 c ST.ok (b2n r.2.1) r.2.2)

/-- PTP_TIME_APPLY (R128): time taken from IEEE 1588 applied as a CLOCK_SET with FORCE 0; the retention clock counts whole seconds alone. -/
def execPtpTimeApply (seconds nanos : Nat) (s : State) : Res := whileCore s fun s => .next (clockSet s (seconds + nanos / sec) (nanos % sec) false).1

/-- RETENTION_CLOCK_SAVE (R126): 60 s after the last save, while the clock is known. -/
def execRetentionClockSave (s : State) : Res := whileCore s fun s =>
  if s.kv.retention.isSome then .next (saveRetention (reach s (s.kv.savedAt + 60 * sec))) else .next s

/-! ### Rights (R104) -/

/-- A tenant. -/
def tenantOf (s : State) (id : Nat) : Option Tenant := s.kv.tenants.find? fun t => t.id == id

/-- The right that Table 03-2 names for an opcode in a namespace: a bit of the namespace rights or of the tenant rights of Table 03-7, none where it
names none. -/
inductive NeedRight where
  | free
  | inNs (bit : Nat)
  | tenant (bit : Nat)

/-- The right an opcode from 0x10 on needs. STAT with NSID 0 is the STAT of the device, and LIFE names no right. -/
def needRight (op nsid : Nat) : NeedRight :=
  if op = 0x11 ∨ op = 0x13 ∨ op = 0x15 ∨ op = 0x19 then .inNs 0
  else if op = 0x1A then (if nsid = 0 then .free else .inNs 0)
  else if op = 0x10 ∨ op = 0x12 ∨ op = 0x14 then .inNs 1
  else if op = 0x16 then .inNs 2
  else if op = 0x17 then .inNs 3
  else if op = 0x18 then .inNs 4
  else if op = 0x20 ∨ op = 0x21 ∨ op = 0x22 then .tenant 0
  else if op = 0x28 ∨ op = 0x29 ∨ op = 0x2A then .tenant 1
  else if op = 0x30 then .tenant 2
  else .free

/-- A namespace from 1 to 4,095 that exists (R99). -/
def nsThere (s : State) (nsid : Nat) : Bool := decide (1 ≤ nsid) && (nsOf s nsid).isSome

/-- What R99 and R104 require of check 7: the tenant exists and holds the right for the opcode, in a namespace that exists where it is one of the
namespace rights. -/
def tenantMayOp (s : State) (id nsid op : Nat) : Bool :=
  match tenantOf s id, needRight op nsid with
  | none, _ => false
  | some _, .free => true
  | some t, .tenant i => bitAt t.rights i
  | some t, .inNs i => nsThere s nsid && t.grants.any fun g => (g.1 == nsid || g.1 == 0xFFFF) && bitAt g.2 i

/-- The same for a capsule; the PREFIX forms of RETAIN and RELEASE need the right that the key forms need (R99). -/
def tenantMay (s : State) (id : Nat) (cap : Bytes) : Bool := tenantMayOp s id (capNsid cap) (capOp cap)

/-! ### Access rules in the Palette (R99, R104, R470, R471) -/

/-- The opcodes that check 7 searches, as far as Table 03-2 assigns them. -/
def accessOps : List Nat := [0x10, 0x11, 0x12, 0x13, 0x14, 0x15, 0x16, 0x17, 0x18, 0x19, 0x1A, 0x1B, 0x20, 0x21, 0x22, 0x28, 0x29, 0x2A, 0x30]

/-- The banks that serve the access rules: named in ASU_USE_BANKS 0, enabled, of WIDTH 128 bits, and not in a move. -/
def accessBanks (s : State) : List Nat :=
  (List.range 64).filter fun b => bankSearched s (getF s (F.ASU_USE_BANKS_BANKS 0)) 0 b && !(s.asu.move.any fun m => m.bank == b)

/-- Some access-rule entry stands in the banks that check 7 searches. -/
def accessWritten (s : State) : Bool := s.asu.ents.any fun e => e.valid && bankSearched s (getF s (F.ASU_USE_BANKS_BANKS 0)) 0 e.bank

/-- The tenants with an AUTHENTICATED host session, by the RULE_TAG that the session has. -/
def accessTags (s : State) : List (Nat × Nat) :=
  ((s.hte.sessions.filter fun x => sessState s x.id == 3 && sessKind s x.id == 0).map fun x => (sessAt s x.id 80 4, sessAt s x.id 66 2)).eraseDups

/-- The outcomes that check 7 has to give, as (tag, NSID, opcode, whether it passes), for namespace 0 and every one that exists. -/
def accessWanted (s : State) : List (Nat × Nat × Nat × Bool) :=
  let nsids := (0 :: s.kv.nss.map Namespace.nsid).eraseDups
  ((accessTags s).map fun t => (nsids.map fun n => accessOps.map fun op => (t.1, n, op, tenantMayOp s t.2 n op)).flatten).flatten

/-- What the array answers for a tag, a namespace and an opcode now. -/
def accessNow (s : State) (tag nsid op : Nat) : Bool :=
  match bestMatch (asuMatches s (leNat (accessKey tag nsid op)) (getF s (F.ASU_USE_BANKS_BANKS 0)) 0) with
  | some e => e.adata % 2 == 1
  | none => false

/-- An access-rule entry laid at a place: the seven bytes of the key are compared and ADATA[0] is set. -/
def putAccess (s : State) (p : (Nat × Nat) × (Nat × Nat × Nat × Bool)) : State :=
  putEnt (putUnit s ⟨p.1.1, p.1.2, leNat (accessKey p.2.1 p.2.2.1 p.2.2.2.1), 2 ^ 56 - 1⟩) ⟨p.1.1, p.1.2, true, 1, 1⟩

/-- Crew firmware brings the access rules up to date (R471): where the array answers otherwise than it must, every entry of the banks that serve them is
written anew, one for each pass. DESIGN CHOICE: the spec leaves the entries to crew firmware (log entry 67). -/
def accessSync (s : State) : State :=
  let want := accessWanted s
  if (accessBanks s).isEmpty || want.all (fun w => accessNow s w.1 w.2.1 w.2.2.1 == w.2.2.2) then s
  else
    let banks := accessBanks s
    let s := { s with asu := { s.asu with ents := s.asu.ents.filter fun e => !(banks.contains e.bank) } }
    let places := (banks.map fun b => (List.range 2048).map fun i => (b, i)).flatten
    let s := (places.zip (want.filter fun w => w.2.2.2)).foldl putAccess s
    banks.foldl touchBank s

/-- Access-rule entries stand in the array and give a capsule of a session an outcome that R99 and R104 do not allow (R473, third case). A running move shows
each entry at its old place or its new one and is no such case. -/
def accessClash (s : State) (session : Nat) (cap : Bytes) : Bool :=
  let op := capOp cap
  decide (op ≥ 0x10) && sessState s session == 3 && flag s F.ASU_CTRL_ENABLE && s.asu.move.isNone && accessWritten s &&
    accessNow s (sessAt s session 80 4) (capNsid cap) op != tenantMay s (sessAt s session 66 2) cap

/-! ### Records of namespace 0 (R133, R620) -/

/-- The record key ns: of a namespace. -/
def nsRecKey (nsid : Nat) : Bytes := [0x6E, 0x73, 0x3A] ++ le 2 nsid
/-- The record key tn: of a tenant. -/
def tnRecKey (id : Nat) : Bytes := [0x74, 0x6E, 0x3A] ++ le 2 id
/-- The record key ph: of a prefix hold. -/
def phRecKey (nsid : Nat) (pfx : Bytes) : Bytes := [0x70, 0x68, 0x3A] ++ le 2 nsid ++ pfx

/-- The record key that an administrative capsule concerns. -/
def adminKey (cap : Bytes) : Bytes :=
  let op := capOp cap
  if op = 0x17 ∨ op = 0x18 then phRecKey (capNsid cap) (capKey cap)
  else if op ≤ 0x22 then nsRecKey (capP0 cap % 4096)
  else tnRecKey (capP0 cap % 65536)

/-- The inline body of a capsule breaks R98: crew firmware's part of check 3 (R19). -/
def adminBodyBad (cap : Bytes) : Bool :=
  let b := capInline cap
  let op := capOp cap
  if op = 0x20 ∨ op = 0x21 then
    decide (fld b 0 1 > 1) || decide (fld b 1 1 > 1) || (fld b 2 2 != 0 && decide (fld b 2 2 < 100)) || decide (fld b 4 4 ≠ 0) ||
      (fld b 1 1 == 0 && !(allZero (slice b 16 16))) || (op == 0x21 && fld b 1 1 == 1)
  else if op = 0x28 then
    let n := fld b 52 2
    decide (n > 256) || b.length != 56 + 4 * n || decide (fld b 48 4 ≥ 8) || decide (fld b 54 2 ≠ 0) ||
      (capFlag cap 4 && !(allZero (b.take 48))) ||
      (List.range n).any fun i => let ns := fld b (56 + 4 * i) 2
        (ns == 0 || (decide (ns > 4095) && ns != 0xFFFF)) || decide (fld b (58 + 4 * i) 2 ≥ 32)
  else false

/-- The mask of a secret on a peer session for a message's SEQ (R620). -/
def peerMask (key : Bytes) (seq tenant : Nat) : Bytes :=
  hmacSha384 key ([0x41, 0x5A, 0x4B, 0x2D, 0x54, 0x53, 0x45, 0x43, 0x2D, 0x50] ++ le 8 seq ++ le 2 tenant)

/-- The mask of SECRET_WRAPPED on a host session (R137). -/
def hostMask (secret clientNonce serverNonce tag : Bytes) (tenant : Nat) : Bytes :=
  hmacSha384 secret ([0x41, 0x5A, 0x4B, 0x2D, 0x54, 0x53, 0x45, 0x43, 0x2D, 0x57] ++ fit clientNonce 32 ++ fit serverNonce 32 ++ fit tag 8 ++ le 2 tenant)

/-- The session key of a peer session and the SEQ its next control message takes. -/
def nextSeal (s : State) (hull : Nat) : Bytes × Nat :=
  match (peerSession s 1 hull).bind (sessRec s) with
  | some x => (x.key.getD [], x.txSeq + 1)
  | none => ([], 0)

/-- The whole record in the layout of R168. -/
def adminRecord (s : State) (removal : Bool) (key value : Bytes) (version user : Nat) : Bytes :=
  packedRecord { kind := if removal then 2 else 1, keyLen := key.length, nsid := 0, length := if removal then 0 else value.length, version := version,
                 fprint := keyHash s 0 key, created := calendarOr0 s, user := user } key (if removal then [] else value)

/-- The transport key between this device and another (R489). -/
def xportKey (s : State) (hull : Nat) : Bytes :=
  let v := activeView s
  let pub := v.bytes 1 ((v.devOfHull hull).getD 0) 48 97
  (hmacSha384 (Config.ecdh Config.identityKey pub)
    ([0x41, 0x5A, 0x4B, 0x2D, 0x58, 0x50, 0x52, 0x54, 0x2D, 0x4B] ++ le 8 (min hull Config.hull) ++ le 8 (max hull Config.hull))).take 32

/-- The transport key of a peer is loaded in a WRAP slot. -/
def xportLoaded (s : State) (hull : Nat) : Bool := s.cip.slots.any fun x => x.kind == 3 && x.key == xportKey s hull

/-- The device that holds this namespace record as it stands. -/
def nsValue (s : State) (n : Namespace) (hull : Option Nat) : Bytes :=
  let body := le 1 n.durability ++ [1] ++ le 2 n.sealUs ++ zeros 4 ++ le 8 n.quota ++ fit n.salt 16
  let xport := match hull, slotOf s n.slot with
    | some h, some x => keyBlob (xportKey s h) 3 (keyRecord x)
    | _, _ => zeros 64
  body ++ xport ++ fit n.escrow 64

/-- The value of a tenant record. -/
def tenantValue (t : Tenant) : Bytes :=
  fit t.secret 48 ++ le 4 t.rights ++ le 2 t.grants.length ++ zeros 2 ++ (t.grants.map fun g => le 2 g.1 ++ le 2 g.2).flatten

/-- The value of a prefix-hold record. -/
def holdValue (h : PrefixHold) : Bytes := le 8 h.expiry ++ le 1 (b2n h.indef) ++ zeros 7

/-- The value of a record as it goes to a device: a tenant's secret masked for its session, a created namespace's key wrapped for the device. -/
def valueFor (s : State) (cap value : Bytes) (hull : Nat) : Bytes :=
  let k := nextSeal s hull
  if capOp cap = 0x28 then xorBytes (value.take 48) (peerMask k.1 k.2 (capP0 cap % 65536)) ++ value.drop 48
  else if capOp cap = 0x20 then match nsOf s (capP0 cap % 4096) with
    | some n => nsValue s n (some hull)
    | none => value
  else value

/-- The body of ADMIN_RECORD for a change and a device. A CHECK carries the removal record, its USER_WORD 1 with PURGE (log entry 35). -/
def adminBody (s : State) (c : AdminChange) (hull : Nat) : Bytes :=
  adminRecord s c.removal (adminKey c.capsule) (valueFor s c.capsule c.value hull) c.version (if c.stage = 1 then b2n (capFlag c.capsule 4) else 0)

/-! ### Applying records (R485 to R487) -/

/-- A namespace record replaced or added. -/
def putNs (s : State) (n : Namespace) : State := { s with kv := { s.kv with nss := n :: s.kv.nss.filter fun m => m.nsid != n.nsid } }

/-- A namespace as its record's value gives it, with the key slot and blobs it has here. -/
def nsOfValue (s : State) (nsid : Nat) (v : Bytes) (version : Nat) : Namespace :=
  let old := (nsOf s nsid).getD ⟨nsid, 0, 0, 0, [], 1, 0, [], zeros 64, 0⟩
  { old with durability := fld v 0 1, sealUs := fld v 2 2, quota := fld v 8 8, salt := slice v 16 16, version := version }

/-- The entries of a namespace in a bucket, as changes that remove them. -/
def purgeChanges (s : State) (nsid x b : Nat) : List Bytes :=
  let k := bucketLook s x b
  ((List.range (bkCount k)).filter fun i => (bkEntry k i).nsid == nsid).map fun i =>
    changeBytes 2 0 x b (slice k (64 + 24 * i) 24) (fld k (12352 + 4 * i) 4) 0 0 (bkVersion k)

/-- The entries of a namespace taken out of a slice's buckets, each bucket's removals journaled in an INDEX record (R159), and whether all of them are: a
bucket waits while the journal has no room or the bucket cannot be changed. -/
def purgeSlice (nsid x : Nat) : List Nat → State → State × Bool
  | [], s => (s, true)
  | b :: bs, s =>
    let r := match purgeChanges s nsid x b with
      | [] => (s, true)
      | cs => match journalApply s x cs with | some s => (s, true) | none => (s, false)
    let t := purgeSlice nsid x bs r.1
    (t.1, r.2 && t.2)

/-- The entries of a namespace taken out of every slice held, and whether all of them are. -/
def purgeNs (nsid : Nat) : List Nat → State → State × Bool
  | [], s => (s, true)
  | x :: xs, s =>
    let r := purgeSlice nsid x (bucketsOf s x) s
    let t := purgeNs nsid xs r.1
    (t.1, r.2 && t.2)

/-- A namespace removed: its keys cleared, its blobs dropped, then its entries taken out of the slices held, and whether all of them are (R135, R487). Its
prefix holds go with it, in force or not, with PURGE and without. DESIGN CHOICE: the rule names them only under PURGE, where none is in force (log
entry 67). -/
def removeNs (s : State) (nsid : Nat) : State × Bool :=
  let slots := (s.cip.slots.filter fun x => x.kind == 1 && x.nsid == nsid).map KeySlot.slot
  let s := slots.foldl clearSlot s
  let s := if (nsOf s nsid).isSome then addNote s 6 0 0 (nsid * 2 ^ 32) 0 else s
  let s := { s with kv := { s.kv with nss := s.kv.nss.filter (fun n => n.nsid != nsid), holds := s.kv.holds.filter fun h => h.nsid != nsid } }
  purgeNs nsid (heldSlices s) s

/-- Commands of a namespace that were accepted and have not ended, its discards not yet durable, its stripes and intents under way: the removal of the
namespace waits for them, since commands accepted before the reply run to their end (R135). -/
def nsInUse (s : State) (nsid : Nat) : Bool :=
  let prefixForm := fun (c : Cmd) => (capOp c.capsule == 0x17 || capOp c.capsule == 0x18) && capFlag c.capsule 4
  s.hte.cmds.any (fun c => capNsid c.capsule == nsid && decide (0x10 ≤ capOp c.capsule) && decide (capOp c.capsule ≤ 0x1A) && !(prefixForm c) && !c.ended) ||
    s.pj.opens.any (fun o => o.nsid == nsid) || s.pj.intents.any (fun i => i.nsid == nsid && decide (i.step < 5)) ||
    s.kv.discards.any fun d => d.nsid == nsid && !(discardDone s d)

/-- The open stripes of a namespace that is to be removed sealed. -/
def nsSeal (s : State) (nsid : Nat) : State := (s.pj.opens.filter fun o => o.nsid == nsid && !o.sealing).foldl sealStripe s

/-- The host sessions of a tenant closed by HTE_CLOSE, and how many (R138). -/
def closeTenant (s : State) (id : Nat) : State × Nat :=
  let xs := (s.hte.sessions.filter fun x => sessKind s x.id == 0 && sessLive s x.id && decide (2 ≤ sessState s x.id) && sessAt s x.id 66 2 == id).map Sess.id
  (xs.foldl (fun s x => sessDrop s x 5) s, xs.length)

/-- The objects of a namespace in the slices this device acts for. -/
def nsObjects (s : State) (nsid : Nat) : List Entry :=
  (((heldSlices s).filter (actsFor s)).map fun x => ((bucketsOf s x).map fun b => (bkEntries (bucketLook s x b)).filter fun e => e.nsid == nsid).flatten).flatten

/-- A tenant as its record's value gives it. -/
def tenantOfValue (id : Nat) (v : Bytes) (version : Nat) : Tenant :=
  ⟨id, v.take 48, fld v 48 4, (List.range (fld v 52 2)).map fun i => (fld v (56 + 4 * i) 2, fld v (58 + 4 * i) 2), version⟩

/-- A key is the record key of a namespace. -/
def isNsKey (key : Bytes) : Bool := key.take 3 == [0x6E, 0x73, 0x3A]

/-- A record applied on this device, what it counts for the reply (sessions closed or objects purged), and whether it is applied whole. The removal of a
namespace that is already gone goes on with the entries left, and counts nothing again. The access rules follow at once (R105). -/
def applyRecord (s : State) (removal : Bool) (key value : Bytes) (version : Nat) : State × Option Nat × Bool :=
  let id := fld key 3 2
  if isNsKey key then
    if removal then
      let n := if (nsOf s id).isSome then some (nsObjects s id).length else none
      let r := removeNs s id
      (accessSync (if r.2 then logCrew r.1 EV.nsChanged else r.1), n, r.2)
    else (accessSync (logCrew (putNs s (nsOfValue s id value version)) EV.nsChanged), none, true)
  else if key.take 3 = [0x74, 0x6E, 0x3A] then
    let others := s.kv.tenants.filter fun t => t.id != id
    if removal then
      let r := closeTenant { s with kv := { s.kv with tenants := others } } id
      (accessSync (logCrew r.1 EV.tenantChanged), some r.2, true)
    else (accessSync (logCrew { s with kv := { s.kv with tenants := tenantOfValue id value version :: others } } EV.tenantChanged), none, true)
  else
    let pfx := key.drop 5
    let others := s.kv.holds.filter fun h => !(h.nsid == id && h.pfx == pfx)
    let new := if removal then [] else [⟨id, pfx, fld value 0 8, bitAt (fld value 8 1) 0, version⟩]
    (logCrew { s with kv := { s.kv with holds := new ++ others } } EV.nsChanged, none, true)

/-! ### Changes at their acting stroke (R133 to R138) -/

/-- The devices a change goes to: every other device named in the active rig (R133). -/
def adminPeers (s : State) : List Nat := rigDevices (activeView s)

/-- The devices that a change waits for, and that NS_DELETE asks (R133, R135). -/
def awaitedPeers (s : State) : List Nat := (adminPeers s).filter fun h => !(lostSomewhere s h)

/-- What a change comes to at once: a reply as (status, RESULT0 with RESULT1 above it), or the record's value and whether it is a removal, with
the reply to give when it is done. -/
inductive AdminPlan where
  | waits
  | reply (status r0 : Nat)
  | record (value : Bytes) (removal : Bool) (r0 : Nat)

/-- Some tenant but one holds TENANT_ADMIN (R138). -/
def otherAdmin (s : State) (id : Nat) : Bool := s.kv.tenants.any fun t => t.id != id && bitAt t.rights 1

/-- The holds that count against the limit of R125: those in force. -/
def dateInForce (s : State) (expiry : Nat) : Bool :=
  expiry != 0 && (match s.kv.retention with | some _ => decide (predicted s < expiry) | none => true)

/-- The plan of a change whose turn has come (R123, R124, R134 to R138). -/
def adminPlan (s : State) (cap : Bytes) : AdminPlan × State :=
  let op := capOp cap
  let b := capInline cap
  let nsid := capP0 cap % 4096
  let tid := capP0 cap % 65536
  if op = 0x20 then
    if (nsOf s nsid).isSome then (.reply ST.exists 0, s)
    else
      match freeKeySlot s, (adminPeers s).all (xportLoaded s) with
      | some k, true =>
        let salt := if bitAt (fld b 1 1) 0 then (slice b 16 16, s) else freshBytes s 16
        let key := freshBytes salt.2 32
        let x : KeySlot := ⟨k, 1, true, nsid, 1, key.1⟩
        let s := setSlot key.2 x
        let blob := keyBlob (s.cip.kek.getD []) 1 (keyRecord x)
        let esc := match s.cip.escrow with | some e => keyBlob e 2 (keyRecord x) | none => zeros 64
        let n : Namespace := ⟨nsid, fld b 0 1, fld b 2 2, fld b 8 8, salt.1, 1, k, blob, esc, 0⟩
        (.record (nsValue s n none) false 0, putNs s n)
      | _, _ => (.waits, s)
  else if op = 0x21 then
    match nsOf s nsid with
    | none => (.reply ST.notFound 0, s)
    | some n => (.record (nsValue s { n with durability := fld b 0 1, sealUs := fld b 2 2, quota := fld b 8 8 } none) false 0, s)
  else if op = 0x22 then
    if (nsOf s nsid).isNone then (.reply ST.notFound 0, s) else (.record [] true 0, s)
  else if op = 0x28 then
    let old := tenantOf s tid
    let rights := fld b 48 4
    if capFlag cap 4 && old.isNone then (.reply ST.malformed 0, s)
    else if old.isNone && decide (s.kv.tenants.length ≥ 16384) then (.reply ST.noSpace 5, s)
    else if !(bitAt rights 1) && !(otherAdmin s tid) then (.reply ST.notPermitted 1, s)
    else
      let secret := if capFlag cap 4 then fit ((old.map Tenant.secret).getD []) 48 else fit b 48
      (.record (secret ++ b.drop 48) false (b2n old.isNone), s)
  else if op = 0x29 then
    if (tenantOf s tid).isNone then (.reply ST.notFound 0, s)
    else if !(otherAdmin s tid) then (.reply ST.notPermitted 1, s)
    else (.record [] true 0, s)
  else
    let pfx := capKey cap
    let old := s.kv.holds.find? fun h => h.nsid == capNsid cap && h.pfx == pfx
    let h := old.getD ⟨capNsid cap, pfx, 0, false, 0⟩
    if op = 0x17 then
      let exp := capP1 cap
      let full := decide ((s.kv.holds.filter fun h => h.indef || dateInForce s h.expiry).length ≥ 8192)
      let past := exp != 0 && s.kv.retention.isSome && decide (exp ≤ predicted s)
      let n := if exp = 0 then { h with indef := true } else { h with expiry := max h.expiry exp }
      let res := fun (n : PrefixHold) => (if dateInForce s n.expiry then n.expiry else 0) + 2 ^ 64 * b2n n.indef
      if past then (.reply ST.ok (res h), s)
      else if full && !(old.any fun h => h.indef || dateInForce s h.expiry) then (.reply ST.noSpace 4, s)
      else (.record (holdValue n) false (res n), s)
    else if !h.indef then (.reply ST.notFound 0, s)
    else (.record (holdValue { h with indef := false }) (h.expiry == 0) (if dateInForce s h.expiry then h.expiry else 0), s)

/-- A change's record replaced. -/
def putChange (s : State) (c : AdminChange) : State :=
  { s with kv := { s.kv with changes := s.kv.changes.map fun d => if d.id == c.id then c else d } }

/-- A change is over: its reply goes to the host, to the forwarder, or is kept for the service port. -/
def endChange (s : State) (c : AdminChange) (status res : Nat) : State :=
  let s := { s with kv := { s.kv with changes := s.kv.changes.filter fun d => d.id != c.id } }
  let r0 := res % 2 ^ 64
  let r1 := res / 2 ^ 64
  if c.kind = 3 then s
  else if c.kind = 0 then
    match cmdOf s c.owner with
    | some m => answer s m status (if status = ST.ok ∧ (capOp c.capsule = 0x22 ∨ capOp c.capsule = 0x29) then m.missing else r0) r1
    | none => s
  else
    let msg := replyBytes c.capsule status 0 0 r0 r1 []
    if c.kind = 1 then
      let s := { s with kv := { s.kv with forwarded := (c.hull, c.tag, msg) :: s.kv.forwarded } }
      match peerSession s 1 c.hull with
      | some id => peerEmit s id (peerBytes { op := 0x88, pflags := 1, epoch := activeEpoch s, tag := c.tag } msg)
      | none => s
    else { s with kv := { s.kv with forwarded := (2 ^ 64, c.tag, msg) :: s.kv.forwarded } }

/-- ADMIN_RECORD of a change to each of a list of devices: the (hull number, TAG) pairs. -/
def sendRecord (s : State) (c : AdminChange) : List Nat → State × List (Nat × Nat)
  | [] => (s, [])
  | h :: hs =>
    let p := peerRequest s h { op := 0x89, arg0 := if c.stage = 1 then 1 else 0 } (adminBody s c h)
    let r := sendRecord p.1 c hs
    (r.1, (h, p.2) :: r.2)

/-- The count an application gives noted for a host command of this device that waits for the change. -/
def noteCount (s : State) (key : Bytes) : Option Nat → State
  | none => s
  | some n => { s with hte := { s.hte with cmds := s.hte.cmds.map fun c =>
      if (capOp c.capsule = 0x22 ∨ capOp c.capsule = 0x29) ∧ c.started = true ∧ adminKey c.capsule = key then { c with missing := n } else c } }

/-- Why a record cannot be written at all (R161, R175, R187): its slice's index is being rebuilt (1), its bucket has no place or its version counter is at its
end (2), or the group has no serial left (3); 0 where none of these holds. -/
def recordBlocked (s : State) (c : AdminChange) : Nat :=
  let p := keyPlace s 0 (adminKey c.capsule)
  let b := bucketLook s p.slice p.bucket
  if ((sliceRec s p.slice).map Slice.rebuilding).getD false then 1
  else if (!c.removal && (entryOf b 0 p).isNone && decide (placesUsed s p b ≥ 512)) || decide (nextVersion s p.slice > versionTop) then 2
  else if packOut s (sliceGroup s p.slice) 0 512 then 3
  else 0

/-- The record written into a stripe of its slice's group, indexed, applied here and sent to every device (R133, R169). None without room, or while commands
of a namespace to be removed have not ended. -/
def sendOut (s : State) (c : AdminChange) : Option State :=
  let key := adminKey c.capsule
  let p := keyPlace s 0 key
  let version := nextVersion s p.slice
  let c := { c with version := version, stage := 2 }
  if c.removal && isNsKey key && nsInUse s (fld key 3 2) then none
  else
    match packRecord s p.slice 0 (2 ^ 20 - 1) (adminRecord s c.removal key c.value version 0) with
    | none => none
    | some ((stripe, unit, _), s) =>
      let e : Entry := ⟨0, p.kc, p.hash % 2 ^ 39, stripe / 2 ^ 59, bits stripe 5 54, unit, c.value.length, version⟩
      let ch := stampChange s (changeBytes (if c.removal then 2 else 1) 0 p.slice p.bucket (entryBytes e) (entrySlotWord e) 0 0 version)
      match indexRecord s p.slice stripe [ch] with
      | none => none
      | some (s, _) =>
        let s := (changeAll [ch] s).1
        let r := applyRecord s c.removal key c.value version
        let s := noteCount r.1 key r.2.1
        let w := sendRecord s c (adminPeers s)
        some (putChange w.1 { c with waiting := w.2 ++ (if r.2.2 then [] else [(Config.hull, 0)]), sentAt := s.now,
                                     stripe := some (sliceGroup s p.slice, stripe) })

/-- The answer of this device to the CHECK of NS_DELETE (R135). -/
def checkAnswer (s : State) (nsid : Nat) (purge : Bool) : Nat :=
  if purge then
    let held := ((heldSlices s).filter (actsFor s)).any fun x => (bucketsOf s x).any fun b =>
      let k := bucketLook s x b
      (bkHoldList k).any fun h => (bkEntry k h.slot).nsid == nsid && !(holdOver s h)
    if held then ST.retained else ST.ok
  else if (nsObjects s nsid).isEmpty then ST.ok else ST.exists

/-- A prefix hold of a namespace is in force. -/
def prefixHeld (s : State) (nsid : Nat) : Bool := s.kv.holds.any fun h => h.nsid == nsid && (h.indef || dateInForce s h.expiry)

/-- The devices of a change still waited for: not those marked lost since (R133, R212). -/
def stillWaiting (s : State) (c : AdminChange) : List (Nat × Nat) :=
  c.waiting.filter fun w => !(lostSomewhere s w.1)

/-- The holds in force on a namespace as ST_RETAINED of NS_DELETE gives them: the greatest dated expiry known to this device, RESULT1[0] for an indefinite key
hold and RESULT1[1] for a prefix hold. DEDUCED: R103 gives the results of ST_RETAINED for every command; a device answers the CHECK with a status alone, so
the dates and key holds of other devices are not known here (log entry 67). -/
def nsHeld (s : State) (nsid : Nat) : Nat :=
  let hs := (((heldSlices s).filter (actsFor s)).map fun x => ((bucketsOf s x).map fun b =>
    let k := bucketLook s x b
    (bkHoldList k).filter fun h => (bkEntry k h.slot).nsid == nsid && !(holdOver s h)).flatten).flatten
  let dated := (hs.filter fun h => bitAt h.kind 1 && dateInForce s h.expiry).map Hold.expiry ++
    ((s.kv.holds.filter fun h => h.nsid == nsid && dateInForce s h.expiry).map PrefixHold.expiry)
  dated.foldl max 0 + 2 ^ 64 * (b2n (hs.any fun h => bitAt h.kind 0) + 2 * b2n (prefixHeld s nsid))

/-- A change that cannot be written ends with its status (R161, R175, R187). -/
def endBlocked (s : State) (c : AdminChange) : Nat → State
  | 1 =>
    let h := fresh s
    let gs := ((groupRec s (sliceGroup s (keyPlace s 0 (adminKey c.capsule)).slice)).map Group.gstate).getD 0xFF
    endChange h.2 c ST.stateConflict (stateWord s gs 3 + 2 ^ 64 * (h.1 % 2 ^ 32))
  | 2 => endChange (logCrew s EV.indexBucketFull) c ST.noSpace 3
  | _ => endChange s c ST.noSpace 2

/-- The data key of the change's records is there: that of namespace 0, or the change is the one that creates it (R484). -/
def zeroReady (s : State) (c : AdminChange) : Bool :=
  ((nsOf s 0).isSome && (nsKey s 0).isSome) || adminKey c.capsule == nsRecKey 0

/-- A change written and sent, or ended where it cannot be written; `back` is the state it stays in where it must wait, in which the open stripes of a
namespace to be removed are sealed, or the oldest open stripe where there is no room (R191). -/
def tryOut (back s : State) (c : AdminChange) : State :=
  if recordBlocked s c ≠ 0 then endBlocked back c (recordBlocked s c)
  else
    match sendOut s c with
    | some t => t
    | none => if c.removal && isNsKey (adminKey c.capsule) then nsSeal back (fld (adminKey c.capsule) 3 2) else sealOldest back

/-- What is left of a namespace's entries on this device after its removal taken out; this device then acknowledges. -/
def finishRemoval (s : State) (c : AdminChange) : State :=
  if c.waiting.any fun w => w.1 == Config.hull then
    let r := applyRecord s true (adminKey c.capsule) [] c.version
    if r.2.2 then putChange r.1 { c with waiting := c.waiting.filter fun w => w.1 != Config.hull } else r.1
  else s

/-- A change taken as far as it goes: it is held, or refused, while intents are (R215, R216); it waits for the namespace-0 record and its key (R484), asks every device for NS_DELETE (R135), is sent, and
ends once every device has acknowledged and the record is durable. -/
def adminStep (s : State) (c : AdminChange) : State :=
  let nsid := capP0 c.capsule % 4096
  if intentsHeld s && decide (c.stage < 2) then
    if s.epoch.refusing && s.epoch.phase == 2 && c.kind != 3 then endChange s c ST.stateConflict (stateWord s 0xFF 3 + 2 ^ 64 * 1000) else s
  else if c.stage = 0 then
    let first := (s.kv.changes.find? fun d => adminKey d.capsule == adminKey c.capsule).map AdminChange.id
    if !(zeroReady s c) || first != some c.id then s
    else
      match adminPlan s c.capsule with
      | (.waits, _) => s
      | (.reply st r, t) => endChange t c st r
      | (.record v rem r, t) =>
        let c := { c with value := v, removal := rem, reply := (ST.ok, r) }
        if capOp c.capsule = 0x22 then
          let c := { c with stage := 1 }
          let w := sendRecord t c (awaitedPeers t)
          putChange w.1 { c with waiting := w.2, sentAt := t.now, answers := [checkAnswer t nsid (capFlag c.capsule 4)] }
        else tryOut s t c
  else if c.stage = 1 then
    if !(stillWaiting s c).isEmpty then s
    else if c.answers.contains ST.exists then endChange s c ST.exists 0
    else if c.answers.contains ST.retained || (capFlag c.capsule 4 && prefixHeld s nsid) then endChange s c ST.retained (nsHeld s nsid)
    else tryOut s s c
  else
    let s := finishRemoval s c
    match s.kv.changes.find? fun d => d.id == c.id with
    | some c =>
      if (stillWaiting s c).isEmpty && (match c.stripe with | some p => stripeDurable s p | none => true) then endChange s c c.reply.1 c.reply.2 else s
    | none => s

/-- The capsule of the change by which the data key of namespace 0 is created (R484): NS_CREATE of namespace 0 with the zero salt, DURABILITY ALL and SEAL_US at
its default. DESIGN CHOICE: the spec gives the salt and not the other settings of namespace 0 (log entry 67). -/
def zeroCapsule : Bytes := fit (le 1 0x20) 64 ++ [1, 1] ++ le 2 2000 ++ zeros 28

/-- The acting stroke of the record key ns: 0x0000 creates the namespace-0 data key when its group is first ACTIVE and the record does not exist (R484). -/
def zeroChange (s : State) : State :=
  if (nsOf s 0).isSome || s.groups.isEmpty || !(rigOn s) || s.kv.changes.any (fun c => adminKey c.capsule == nsRecKey 0) then s
  else
    let x := (keyPlace s 0 (nsRecKey 0)).slice
    if actsFor s x && (groupRec s (sliceGroup s x)).any (fun g => g.gstate == 2) then
      let c : AdminChange := ⟨s.kv.nextChange, zeroCapsule, 0, 3, 0, 0, 0, [], false, 0, [], s.now, [], (ST.ok, 0), none, 0⟩
      { s with kv := { s.kv with changes := s.kv.changes ++ [c], nextChange := s.kv.nextChange + 1 } }
    else s

/-- Every change taken as far as it goes. -/
def adminProgress (s : State) : State :=
  let s := zeroChange s
  (s.kv.changes.map AdminChange.id).foldl (fun s id => match s.kv.changes.find? fun c => c.id == id with
    | some c => adminStep s c
    | none => s) s

/-- Everything that follows from a change of the device's state: groups, stripes, commands, and the administrative changes. -/
def settleAll (s : State) : State := adminProgress (settle s)

/-- A change taken up by its acting stroke. -/
def newChange (s : State) (cap : Bytes) (tenant kind owner tag : Nat) : State :=
  let hull := if kind = 1 then sessHull s owner else 0
  let c : AdminChange := ⟨s.kv.nextChange, cap, tenant, kind, owner, tag, 0, [], false, 0, [], s.now, [], (ST.ok, 0), none, hull⟩
  adminProgress { s with kv := { s.kv with changes := s.kv.changes ++ [c], nextChange := s.kv.nextChange + 1 } }

/-- A capsule with the secret of TENANT_SET masked or unmasked. -/
def maskCapsule (cap mask : Bytes) : Bytes :=
  if capOp cap = 0x28 && !(capFlag cap 4) then patch cap 64 (xorBytes (slice cap 64 48) mask) else cap

/-- A change goes to its acting stroke: taken up here, or forwarded there with the secret masked as R620 masks it (R133, R212, log entry 36); the
state and the TAG of the request, 0 where it is taken up here. -/
def routeChange (s : State) (cap : Bytes) (tenant kind owner : Nat) : State × Nat :=
  let x := (keyPlace s 0 (adminKey cap)).slice
  if actsFor s x then (newChange s cap tenant kind owner 0, 0)
  else
    let hull := actingHull s x
    let k := nextSeal s hull
    peerRequest s hull { op := 0x88, arg0 := tenant } (maskCapsule cap (peerMask k.1 k.2 (capP0 cap % 65536)))

/-- The capsule of a host command with its secret unmasked (R137). -/
def hostCapsule (s : State) (c : Cmd) : Bytes :=
  let id := c.session
  let secret := ((tenantOf s (sessAt s id 66 2)).map Tenant.secret).getD []
  let nonce := ((sessRec s id).map Sess.nonce).getD []
  maskCapsule c.capsule (hostMask secret nonce (memRead s (sessBase + 128 * id + 88) 32) (slice c.capsule 8 8) (capP0 c.capsule % 65536))

/-- An administrative command of a host (R133): its body checked, then taken to its acting stroke; it stays outstanding until the change is over. -/
def adminRow (cmd op : Nat) (s : State) : Res :=
  onCmd s cmd op fun s c =>
    let taken := (cmdOf s cmd).any Cmd.started
    if taken then .next (settleAll s)
    else if adminBodyBad c.capsule then .next (answer s c ST.malformed 0 0)
    else if s.epoch.refusing && s.epoch.phase == 2 then .next (conflict s c ST.stateConflict 0xFF 1000)
    else if intentsHeld s then .next s
    else
      let cap := hostCapsule s c
      let tid := sessAt s c.session 66 2
      let s := putCmd s c
      let r := routeChange s cap tid 0 cmd
      .next (match cmdOf r.1 cmd with
        | some d => if r.2 = 0 then r.1 else putCmd r.1 { d with asked := r.2 }
        | none => r.1)

/-- NS_CREATE (R134, R484). -/
def execNsCreate (cmd : Nat) (s : State) : Res := adminRow cmd 0x20 s
/-- NS_SET (R134). -/
def execNsSet (cmd : Nat) (s : State) : Res := adminRow cmd 0x21 s
/-- NS_DELETE (R135, R487). -/
def execNsDelete (cmd : Nat) (s : State) : Res := adminRow cmd 0x22 s
/-- TENANT_SET (R136, R137). -/
def execTenantSet (cmd : Nat) (s : State) : Res := adminRow cmd 0x28 s
/-- TENANT_DELETE (R138). -/
def execTenantDelete (cmd : Nat) (s : State) : Res := adminRow cmd 0x29 s

/-- TENANT_QUERY (R136): the tenant's body with its secret zero. -/
def execTenantQuery (cmd : Nat) (s : State) : Res :=
  onCmd s cmd 0x2A fun s c =>
    match tenantOf s (capP0 c.capsule % 65536) with
    | none => .next (answer s c ST.notFound 0 0)
    | some t => .next (answerData s c ST.ok 0 0 (tenantValue { t with secret := [] }))

/-! ### Messages between devices -/

/-- The reply kept for a forwarded change with a TAG from a device (R212). -/
def forwardReply (s : State) (hull tag : Nat) : Option Bytes :=
  (s.kv.forwarded.find? fun f => f.1 == hull && f.2.1 == tag).map fun f => f.2.2

/-- ADMIN_FORWARD (R212): run once, under the rights of the tenant named, or as the TENANT_INIT of a first tenant (R526); a repeated one gets the reply given, or waits for it. -/
def execAdminForward (s : State) : Res :=
  onPeer 0x88 s fun s id b =>
    let h := readPeer b
    let hull := sessHull s id
    let body := peerBody b
    match forwardReply s hull h.tag with
    | some msg => .next (peerEmit s id (peerBytes { op := 0x88, pflags := 1, epoch := activeEpoch s, tag := h.tag } msg))
    | none =>
      match s.kv.changes.find? fun c => c.kind == 1 && c.tag == h.tag && c.hull == hull with
      | some c => .next (settleAll (putChange s { c with owner := id }))
      | none =>
        let key := ((sessRec s id).bind Sess.key).getD []
        let cap := maskCapsule body (peerMask key (fld b (64 + peerLen b) 8) (capP0 body % 65536))
        if !(actsFor s (keyPlace s 0 (adminKey cap)).slice) then .next (peerReply s id b ST.redirect 0 0 [])
        else if !(tenantMay s (h.arg0 % 65536) cap || (s.kv.tenants.isEmpty && capOp cap == 0x28 && h.arg0 == capP0 cap)) then
          .next (peerEmit s id (peerBytes { op := 0x88, pflags := 1, epoch := activeEpoch s, tag := h.tag } (replyBytes cap ST.notPermitted 0 0 0 0 [])))
        else if s.epoch.refusing && s.epoch.phase == 2 then
          .next (peerEmit s id (peerBytes { op := 0x88, pflags := 1, epoch := activeEpoch s, tag := h.tag } (replyBytes cap ST.stateConflict 0 0
            (stateWord s 0xFF 3) 1000 [])))
        else .next (newChange s cap (h.arg0 % 65536) 1 id h.tag)

/-- The data key of a created namespace taken from an XPORT_BLOB (R486): the record's slot, device blob and escrow blob; none where it does not
unwrap. -/
def takeKey (s : State) (hull : Nat) (v : Bytes) : Option (Nat × Bytes × State) :=
  match freeKeySlot s, blobRecord (xportKey s hull) (slice v 32 64) with
  | some k, some r =>
    if recordOk r then
      let x := recordSlot k r
      some (k, keyBlob (s.cip.kek.getD []) 1 (keyRecord x), setSlot s x)
    else none
  | _, _ => none

/-- ADMIN_RECORD (R133, R135, R485, R486, R620): with CHECK the device only answers; else it applies the record, with its key unwrapped and its secret
unmasked, and acknowledges. It waits for the sender's transport key, and before
it removes a namespace for the commands accepted on it. -/
def execAdminRecord (s : State) : Res :=
  onPeer 0x89 s fun s id b =>
    let body := peerBody b
    match readRecHeader body with
    | none => .next (peerReply s id b ST.malformed 0 0 [])
    | some h =>
      let key := slice body 128 h.keyLen
      let value := slice body (128 + alignUp h.keyLen 8) h.length
      let isNs := isNsKey key
      if bitAt ((readPeer b).arg0) 0 then .next (peerReply s id b (checkAnswer s (fld key 3 2) (h.user == 1)) 0 0 [])
      else if isNs && h.kind == 1 && !(allZero (slice value 32 64)) && (nsOf s (fld key 3 2)).isNone then
        let hull := sessHull s id
        if !(xportLoaded s hull) then .next (putBack s id b)
        else match takeKey s hull value with
          | none => .next (peerReply (logCrew s EV.keyUnwrapFailed) id b ST.integrity 0 0 [])
          | some (k, blob, s) =>
            let n := nsOfValue s (fld key 3 2) value h.version
            let s := accessSync (logCrew (putNs s { n with slot := k, blob := blob, escrow := slice value 96 64 }) EV.nsChanged)
            .next (settleAll (peerReply s id b ST.ok 0 0 []))
      else
        let sk := ((sessRec s id).bind Sess.key).getD []
        let value := if key.take 3 = [0x74, 0x6E, 0x3A] ∧ h.kind = 1 then
            xorBytes (value.take 48) (peerMask sk (fld b (64 + peerLen b) 8) (fld key 3 2)) ++ value.drop 48
          else value
        if h.kind = 2 ∧ isNsKey key = true ∧ nsInUse s (fld key 3 2) = true then .next (putBack (nsSeal s (fld key 3 2)) id b)
        else
          let r := applyRecord s (h.kind == 2) key value h.version
          let s := noteCount r.1 key r.2.1
          .next (settleAll (if r.2.2 then peerReply s id b ST.ok 0 0 [] else putBack s id b))

/-- An unanswered ADMIN_RECORD made anew for its session and sent (R212). -/
def resendRecord (s : State) (c : AdminChange) (hull : Nat) : State :=
  match c.waiting.find? fun w => w.1 == hull with
  | none => s
  | some w =>
    let s := dropRequests s fun r => r.tag == w.2
    let r := sendRecord s c [hull]
    putChange r.1 { c with waiting := r.2 ++ c.waiting.filter fun w => w.1 != hull }

/-- ADMIN_RECORD_RESEND (R212): an ADMIN_RECORD unanswered for 1,000 ms is sent again. -/
def execAdminRecordResend (change hull : Nat) (s : State) : Res := whileCore s fun s =>
  match s.kv.changes.find? fun c => c.id == change && c.waiting.any fun w => w.1 == hull with
  | none => .next s
  | some c =>
    let s := reach s (c.sentAt + 1000 * ms)
    .next (settleAll (resendRecord s { c with sentAt := s.now } hull))

/-- The namespace-0 records of which this device is acting stroke, as (key, value for a device, version). -/
def ownRecords (s : State) (hull : Nat) : List (Bytes × Bytes × Nat) :=
  let mine := fun (key : Bytes) => actsFor s (keyPlace s 0 key).slice
  let ns := (s.kv.nss.filter fun n => mine (nsRecKey n.nsid)).map fun n => (nsRecKey n.nsid, nsValue s n (some hull), n.version)
  let ph := (s.kv.holds.filter fun h => mine (phRecKey h.nsid h.pfx)).map fun h => (phRecKey h.nsid h.pfx, holdValue h, h.version)
  ns ++ ph

/-- ADMIN_RECORD of every own record to a joining device (R211 step 4). -/
def sendOwn (s : State) (hull : Nat) : State :=
  let send := fun (s : State) (r : Bytes × Bytes × Nat) => (peerRequest s hull { op := 0x89 } (adminRecord s false r.1 r.2.1 r.2.2 0)).1
  let s := (ownRecords s hull).foldl send s
  (s.kv.tenants.filter fun t => actsFor s (keyPlace s 0 (tnRecKey t.id)).slice).foldl (fun s t =>
    let k := nextSeal s hull
    let v := tenantValue t
    send s (tnRecKey t.id, xorBytes (v.take 48) (peerMask k.1 k.2 t.id) ++ v.drop 48, t.version)) s

/-- JOIN (R211): every namespace-0 record of this device goes to the joining one as ADMIN_RECORD, once its transport key is loaded, then ST_OK. -/
def execJoin (s : State) : Res :=
  onPeer 0x87 s fun s id b =>
    let hull := sessHull s id
    if !(xportLoaded s hull) && s.kv.nss.any (fun n => actsFor s (keyPlace s 0 (nsRecKey n.nsid)).slice) then .next (putBack s id b)
    else .next (peerReply (sendOwn s hull) id b ST.ok 0 0 [])

end Sys2Proof.Machine
end

