-- ==== Sys2Proof/Machine/Arch.lean ====
section
/-! DEFINITION. The commands of the crew cores and of the interrupt distributor (01): fences, WFI, the claim and completion
of interrupts, the machine timer and the fabric error recorder's release. -/

namespace Sys2Proof.Machine

/-- The requester ID of a crew core, Table 01-8. -/
def coreRid (core : Nat) : Nat := core / 4

/-- mhartid of a crew core: its number (R17). -/
def mhartid (core : Nat) : Nat := core

/-- The time CSR of every crew core: IRQ_MTIME (R17). -/
def timeCsr (s : State) : Nat := mtime s

/-- A physical memory protection entry of a crew core, its configuration byte and its address register (R17): zero where not listed. -/
def pmpEntry (s : State) (core entry : Nat) : Nat × Nat :=
  ((s.cores.pmp.find? fun p => p.1 == core && p.2.1 == entry).map fun p => p.2.2).getD (0, 0)

/-- FENCE (R17, R33, R34): commands act one after another, so every access before it is already ordered before every access
after it; the core executes it, waits no longer, and what it has written is fenced. -/
def execFence (core : Nat) (s : State) : Res := coreRuns s core fun s => .next (coreFence s core)

/-- FENCE.I (R17, R32): the core's instruction cache holds no line fetched before it. -/
def execFenceI (core : Nat) (s : State) : Res :=
  coreRuns s core fun s => .next (coreFenceI s core)

/-- WFI (R17): the core waits until an interrupt is asserted to it, at once where one is asserted already; PWR_CORES shows it. -/
def execWfi (core : Nat) (s : State) : Res :=
  coreRuns s core fun s =>
  if (eligible s core).isEmpty && !(timerPending s core) then
    .next { s with cores := { s.cores with waiting := core :: s.cores.waiting } }
  else .next s

/-- What a read of IRQ_CLAIM of a core returns and leaves (R41, R42, R43): the ID of its best source, which is then in service, an edge
source's latch cleared; with nothing eligible 0. -/
def claimRead (s : State) (core : Nat) : State × Nat :=
  match bestSource s (eligible s core) with
  | none => (s, 0)
  | some i => ({ s with irq := { inService := s.irq.inService ++ [(i, core)], latch := s.irq.latch.filter (· != i) } }, i)

/-- A read of IRQ_CLAIM by the core whose register it is (R41, R42, R43). -/
def execIrqClaim (core : Nat) (s : State) : Res :=
  coreRuns s core fun s => .next (emit (claimRead s core).1 (.readValue (F.IRQ_CLAIM_ID core).addr (claimRead s core).2))

/-- A write of IRQ_COMPLETE by the core whose register it is: the service of a source in service on that core ends; any other ID is
ignored (R41, R42). -/
def execIrqComplete (core id : Nat) (s : State) : Res :=
  coreRuns s core fun s =>
  .next { s with irq := { s.irq with inService := s.irq.inService.filter (· != (id, core)) } }

/-- IRQ_MTIME reaches IRQ_MTIMECMP of a core (R17): the machine timer interrupt is pending and a core in WFI waits no longer. -/
def execMachineTimerExpiry (core : Nat) (s : State) : Res := whileCore s fun s =>
  if !(coreOn s core) then .next s else
  let s := reach s (s.pwr.mtimeAt + 10 * getF s (F.IRQ_MTIMECMP_TIME core))
  .next { s with cores := { s.cores with waiting := s.cores.waiting.filter (· != core) } }

/-- A write of 1 to FAB_ERR_STATUS.VALID by a crew core frees the latch (R45). -/
def execFabErrClear (core : Nat) (s : State) : Res :=
  coreRuns s core fun s => .next (setF s F.FAB_ERR_STATUS_VALID 0)

end Sys2Proof.Machine
end

