-- ==== Sys2Proof/Machine/Cache.lean ====
section
/-! DEFINITION. The commands of the staging cache and the DRAM controller (11): accesses with their misses and fills, evictions,
way disabling, range maintenance, prefetch hints, switching off and on, scrubbing. -/

namespace Sys2Proof.Machine

/-! ### Accesses (R392 to R399) -/

/-- A requester's port with something outstanding. -/
def scPort (s : State) (rid : Nat) : Option ScPort := s.sc.ports.find? fun p => p.rid == rid

/-- A port put in place, or with nothing outstanding. -/
def putScPort (s : State) (rid : Nat) (p : Option ScPort) : State :=
  let rest := s.sc.ports.filter fun q => q.rid != rid
  { s with sc := { s.sc with ports := match p with | some q => rest ++ [q] | none => rest } }

/-- The exception code of an access that fails (R17): 7 for a store, 1 for an instruction fetch, 5 for a load. -/
def accessCode (r : ScReq) : Nat := if r.write.isSome then 7 else if r.fetch then 1 else 5

/-- The answer to a read: its bytes as a number to the agent, with 0 and an access fault of the crew core that made it where it failed (R38). -/
def scAnswer (s : State) (r : ScReq) (kind : Option Nat) (b : Bytes) : State :=
  match kind with
  | none => if r.write.isSome then s else emit s (.readValue r.addr (leNat b))
  | some k =>
    let s := fabLatch s k r.rid r.write.isSome r.addr
    let s := if r.write.isSome then s else emit s (.readValue r.addr 0)
    if r.rid ≤ 1 then emit s (.accessFault r.core (accessCode r) r.addr) else s

/-- A read or write served from a held line, with what ECC finds in the cache SRAM: a corrected error sets CORRECTED and counts
against the way; an uncorrectable one refetches a clean line and loses a DIRTY one (R398, R399). -/
def scServe (s : State) (r : ScReq) (l : ScLine) : State :=
  let off := r.addr % 256
  let s := match r.write with | some _ => streamWrite s r.rid l.line | none => s
  let s := scHit s r.rid l
  if r.err = 2 ∧ l.dirty = true then scAnswer (lineLost s l r.rid) r (some 3) []
  else
    let refetch := r.err = 2
    let p := if refetch then dramLine s r.rid (l.line * 256) 256 else (s, some l.data)
    let s := if refetch then wayFail p.1 l.way true else if r.err = 1 then wayCorrected p.1 l.way else p.1
    match p.2 with
    | none => scAnswer (scDrop s l.line) r (some 3) []
    | some d =>
      let l := { l with data := d, corrected := l.corrected || r.err == 1 }
      match r.write with
      | none => scAnswer (scHold s l) r none (slice d off r.len)
      | some b =>
        let jn := inJournal s r.addr
        let s := if jn then dramStore s r.addr b else s
        scHold s { l with data := patch d off b, dirty := l.dirty || !jn }

/-- A DRAM read of a line for an access with what ECC finds there (R409). -/
def dramFetch (s : State) (r : ScReq) (a n : Nat) : State × Option Bytes :=
  if r.err = 4 then (dmcLatch s r.rid a false, none)
  else
    let p := dramLine s r.rid a n
    if r.err = 3 then (countF p.1 F.DMC_CNT_CE_COUNT 1, p.2) else p

/-- An allocation would have to wait for the eviction buffer (R396). -/
def evictFull (s : State) : Bool := decide (s.sc.evict.length ≥ 32)

/-- An access on a port with nothing outstanding: a hit, a miss that begins, or a request held behind an eviction (R395 to R397). -/
def scIssue (s : State) (r : ScReq) : State :=
  let la := r.addr / 256
  if !(scOn s) then
    match r.write with
    | some b => offStore s r.addr b
    | none => let p := dramFetch s r r.addr r.len; scAnswer p.1 r (if p.2.isSome then none else some 3) (p.2.getD [])
  else
    match heldLine s la with
    | some l => scServe s r l
    | none =>
      if (evicting s la).isSome then putScPort s r.rid (some ⟨r.rid, la, [r]⟩)
      else
        match r.write with
        | none =>
          let s := countF s (F.SC_CNT_MISS_COUNT r.rid) 1
          putScPort s r.rid (some ⟨r.rid, la, [r]⟩)
        | some b =>
          if mayAlloc (streamWrite s r.rid la) r.rid && evictFull s then putScPort s r.rid (some ⟨r.rid, la, [r]⟩)
          else scWrite s r.rid r.addr b

/-- The accesses that waited on a port issued one after another; from the first that misses again they go on waiting. -/
def scReplay : List ScReq → State → State
  | [], s => s
  | r :: rs, s =>
    match scPort s r.rid with
    | some p => putScPort s r.rid (some { p with waiting := p.waiting ++ [r] }) |> scReplay rs
    | none => scReplay rs (scIssue s r)

/-- What an access of a requester leaves before the cache looks it up: a crew core acts, and what it writes is not fenced. -/
def scActs (s : State) (rid core addr n : Nat) (wr : Bool) : State :=
  if rid ≤ 1 then (if wr then coreWrote (coreActs s core) core addr n else coreActs s core) else s

/-- One access of a requester to DRAM within one line (R392, R395), `write` 0 a read, 1 a write, 2 an instruction fetch: looked up, a hit served
while a miss is outstanding, else behind it. `err` 5 is a target that does not answer. Outside DRAM the row does not apply; it fails where the
fabric fails it (R38). A fetch of code written without FENCE.I is R46. -/
def execScAccess (rid core addr len write : Nat) (data : Bytes) (err : Nat) (s : State) : Res := whileCore s fun s =>
  if rid ≤ 1 && !(coreOn s core) then .next s else
  let n := min len (256 - addr % 256)
  let s := scActs s rid core addr n (write == 1)
  let r : ScReq := ⟨rid, core, addr, n, if write = 1 then some (fit data n) else none, write == 2, err⟩
  match (if err = 5 then some ((memFault s addr n (write == 1)).getD 4) else memFault s addr n (write == 1)) with
  | some k => .next (scAnswer s r (some k) [])
  | none =>
    if !(isDram addr) ∨ n = 0 then .next s
    else if rid ≤ 1 ∧ write = 2 ∧ staleCode s core addr n = true then .fault (.undefined46 1)
    else if write = 1 ∧ (match s.sc.maint with
        | some m => (m.op == 2 || m.op == 3) && (m.all || (decide (m.first ≤ addr / 256) && decide (addr / 256 ≤ m.last)))
        | none => false) = true then .fault (.undefined411 2)
    else
      match scPort s rid with
      | none => .next (scIssue s r)
      | some p =>
        let secondMiss := p.waiting.any fun q => q.addr / 256 != p.line
        match heldLine s (addr / 256) with
        | some l => if addr / 256 ≠ p.line ∧ !secondMiss then .next (scServe s r l)
          else .next (putScPort s rid (some { p with waiting := p.waiting ++ [r] }))
        | none =>
          if write = 1 ∧ addr / 256 ≠ p.line ∧ !secondMiss ∧ (evicting s (addr / 256)).isNone ∧
              !(mayAlloc (streamWrite s rid (addr / 256)) rid && evictFull s) then
            .next (scWrite s rid addr (fit data n))
          else .next (putScPort s rid (some { p with waiting := p.waiting ++ [r] }))

/-- The outstanding read miss of a port is filled from DRAM (R392, R395): the line is allocated where R392 allows it, every port that
missed on it completes, and the accesses that waited go on. With the eviction buffer full the allocation waits (R396). -/
def execScFillComplete (rid : Nat) (s : State) : Res := whileCore s fun s =>
  match scPort s rid with
  | none => .next s
  | some p =>
    match p.waiting with
    | [] => .next (putScPort s rid none)
    | r :: rest =>
      if (evicting s p.line).isSome ∨ (mayAlloc s rid ∧ evictFull s = true) then .next s
      else if (heldLine s p.line).isSome ∨ r.write.isSome then .next (scReplay p.waiting (putScPort s rid none))
      else
        let alloc := mayAlloc s rid
        let a := if alloc then p.line * 256 else r.addr
        let f := dramFetch s r a (if alloc then 256 else r.len)
        let s := putScPort f.1 rid none
        let s :=
          match f.2 with
          | none => scAnswer s r (some 3) []
          | some d =>
            if alloc then
              scAnswer (scAlloc s (allowedWays s rid) rid p.line d false (r.err == 3)) r none (slice d (r.addr % 256) r.len)
            else scAnswer (countF s F.SC_CNT_NOALLOC_COUNT 1) r none d
        let others := s.sc.ports.filter fun q => q.line == p.line
        let s := if alloc && f.2.isSome then
            others.foldl (fun s q => scReplay q.waiting (putScPort s q.rid none)) s
          else s
        .next (scReplay rest s)

/-- The controller is done with an evicted line (R396, R397): it is written to DRAM, or its loss is found and the location poisoned
(R399), and the requests held for it are looked up again. -/
def execScEvictionDone (line err : Nat) (s : State) : Res := whileCore s fun s =>
  match evicting s line with
  | none => .next s
  | some l =>
    let s :=
      if err = 2 then
        let s := { s with sc := { s.sc with evict := s.sc.evict.filter fun m => m.line != line } }
        if l.dirty then lineLost s l l.rid else wayFail s l.way true
      else if err = 1 then wayCorrected (evictWrite s l) l.way
      else evictWrite s l
    let held := s.sc.ports.filter fun p => p.line == line || p.waiting.any fun r => r.write.isSome
    .next (held.foldl (fun s p => scReplay p.waiting (putScPort s p.rid none)) s)

/-! ### Ways (R398) -/

/-- A way being disabled has been flushed (R398, steps 2 to 4). -/
def execScWayDisableEnd (way : Nat) (s : State) : Res := whileCore s fun s =>
  match s.sc.disabling.find? fun p => p.1 == way with
  | none => .next s
  | some (_, ue) =>
    let mine := s.sc.lines.filter fun l => l.way == way
    let s := mine.foldl (fun s l => let s := if l.dirty || l.corrected then dramStore s (l.line * 256) l.data else s; scDrop s l.line) s
    let s := { s with sc := { s.sc with disabling := s.sc.disabling.filter fun p => p.1 != way } }
    let s := setF s F.SC_WAY_STATUS_DISABLED (getF s F.SC_WAY_STATUS_DISABLED ||| 2 ^ way)
    let s := if ue then setF s F.SC_WAY_STATUS_CAUSE_UE (getF s F.SC_WAY_STATUS_CAUSE_UE ||| 2 ^ way) else s
    .next (logEv s EV.cacheWayDisabled way (b2n ue) 0)

/-- Writing 1 to DISABLED bits enables the ways again and clears their error counts (R398). -/
def execScWayEnable (core ways : Nat) (s : State) : Res :=
  coreStore s core F.SC_WAY_STATUS_DISABLED.addr fun s =>
    let d := getF s F.SC_WAY_STATUS_DISABLED
    let on := d &&& (ways % 65536)
    let s := (bitList on 16).foldl (fun s w => setF s (F.SC_WAY_CE_COUNT w) 0) s
    let s := setF s F.SC_WAY_STATUS_CAUSE_UE (getF s F.SC_WAY_STATUS_CAUSE_UE &&& (65535 ^^^ on))
    .next (setF s F.SC_WAY_STATUS_DISABLED (d ^^^ on))

/-! ### Range maintenance (R400 to R402) -/

/-- One held line visited by a maintenance operation of Table 11-1; what reached the eviction path keeps its data. -/
def maintVisit (op : Nat) (s : State) (la : Nat) : State :=
  match heldLine s la with
  | none => s
  | some l =>
    let s := wayVisit s l.way
    if op = 1 then
      if l.dirty then countF (scHold (dramStore s (la * 256) l.data) { l with dirty := false }) F.SC_CNT_WB_COUNT 1 else s
    else if op = 2 then scDrop s la
    else
      let s := if l.dirty then countF (dramStore s (la * 256) l.data) F.SC_CNT_WB_COUNT 1 else s
      scDrop s la

/-- A GO of a maintenance operation (R400, R401): ignored while one runs, with its OP and ALL. Which of the lines held now are visited before and which after later accesses the
spec leaves open: a free value splits them between now and the operation's end. -/
def maintGo (core op all : Nat) (s : State) : Res :=
  coreStore s core F.SC_MAINT_CTRL_GO.addr fun s =>
    if s.sc.maint.isSome then .next (setF s F.SC_MAINT_STATUS_REJECTED 1)
    else
      let s := setF (setF s F.SC_MAINT_CTRL_OP op) F.SC_MAINT_CTRL_ALL all
      let lo := getF s F.SC_MAINT_START_LINE
      let hi := getF s F.SC_MAINT_END_LINE
      let ok := all % 2 = 1 ∨ (isDram (lo * 256) = true ∧ isDram (hi * 256) = true ∧ lo ≤ hi)
      if ¬ ok then .next (setF s F.SC_MAINT_STATUS_REJECTED 1)
      else
        let range := (s.sc.lines.map ScLine.line).filter fun l => all % 2 == 1 || (decide (lo ≤ l) && decide (l ≤ hi))
        let p := fresh s
        let now := (range.zipIdx.filter fun x => bitAt p.1 x.2).map Prod.fst
        let s := now.foldl (maintVisit op) p.2
        let m : ScMaint := ⟨op, all % 2 == 1, lo, hi, range.filter fun l => !(now.contains l)⟩
        .next (setF { s with sc := { s.sc with maint := some m } } F.SC_MAINT_STATUS_BUSY 1)

/-- SC_MAINT_CTRL with GO and OP 1 (Table 11-1). -/
def execScClean (core all : Nat) (s : State) : Res := whileCore s fun s => maintGo core 1 all s

/-- SC_MAINT_CTRL with GO and OP 2. -/
def execScInvalidate (core all : Nat) (s : State) : Res := whileCore s fun s => maintGo core 2 all s

/-- SC_MAINT_CTRL with GO and OP 3. -/
def execScCleanInvalidate (core all : Nat) (s : State) : Res := whileCore s fun s => maintGo core 3 all s

/-- What ECC finds in a line that a maintenance operation is about to visit (R398, R399): corrected, it counts against the way; uncorrectable,
a DIRTY line is lost to the poison and a clean one dropped, and the way is to be disabled. -/
def maintEcc (s : State) (left : List Nat) (la err : Nat) : State :=
  match (if left.contains la then heldLine s la else none) with
  | none => s
  | some l =>
    if err = 1 then wayCorrected (scHold s { l with corrected := true }) l.way
    else if err = 2 then (if l.dirty then lineLost s l l.rid else wayFail (scDrop s la) l.way true)
    else s

/-- A maintenance operation ends: the lines left are visited, BUSY clears, DONE is set (R400, R401); `err` is what ECC finds in `line` on
its visit. -/
def execScMaintEnd (line err : Nat) (s : State) : Res := whileCore s fun s =>
  match s.sc.maint with
  | none => .next s
  | some m =>
    let s := maintEcc s m.left line err
    let s := m.left.foldl (maintVisit m.op) s
    .next (setF (setF { s with sc := { s.sc with maint := none } } F.SC_MAINT_STATUS_BUSY 0) F.SC_MAINT_STATUS_DONE 1)

/-! ### Prefetch hints (R403) -/

/-- SC_PF_CTRL with GO: a hint queued, or dropped and counted while the FIFO is full; while the cache is off hints are discarded. -/
def execScPrefetchHint (core lines rid : Nat) (s : State) : Res :=
  coreStore s core F.SC_PF_CTRL_GO.addr fun s =>
    let s := setF (setF s F.SC_PF_CTRL_LINES lines) F.SC_PF_CTRL_RID rid
    if s.sc.hints.length ≥ 16 then .next (countF s F.SC_CNT_PF_DROP_COUNT 1)
    else if !(scOn s) then .next s
    else .next { s with sc := { s.sc with hints := s.sc.hints ++ [(getF s F.SC_PF_ADDR_LINE, lines % 512, rid % 16)] } }

/-- One line of a hint fetched into an invalid or a clean, not CORRECTED way among those the mask allows; otherwise skipped. -/
def prefetchLine (rid : Nat) (s : State) (la : Nat) : State :=
  if !(isDram (la * 256)) || (heldLine s la).isSome || (evicting s la).isSome || s.poison.contains la then s
  else
    let busy := (s.sc.lines.filter fun l => l.line % 16384 == la % 16384 && (l.dirty || l.corrected)).map ScLine.way
    let ways := (allowedWays s rid).filter fun w => !(busy.contains w)
    if ways.isEmpty then s
    else scAlloc (countF s F.DMC_CNT_RD_BYTES_COUNT 256) ways rid la (memRead s (la * 256) 256) false false

/-- The engine fetches the lines of the oldest hint. -/
def execScPrefetchFetch (s : State) : Res := whileCore s fun s =>
  match s.sc.hints with
  | [] => .next s
  | (l, n, rid) :: rest =>
    let s := { s with sc := { s.sc with hints := rest } }
    .next (if scOn s then ((List.range n).map (l + ·)).foldl (prefetchLine rid) s else s)

/-! ### Off and on (R404, R405) -/

/-- Every access that waits at a port completed at once. -/
def drainPorts : List ScReq → State → State
  | [], s => s
  | r :: rs, s =>
    let s := match r.write with
      | some b => scWrite s r.rid r.addr b
      | none => let p := scRead s r.rid r.addr r.len; scAnswer p.1 r (if p.2.isSome then none else some 3) (p.2.getD [])
    drainPorts rs s

/-- SC_CTRL.ENABLE 0: once the accesses looked up have completed the cache is off; queued hints are discarded (R404). -/
def execScDisable (core : Nat) (s : State) : Res :=
  coreStore s core F.SC_CTRL_ENABLE.addr fun s =>
    let s := setF s F.SC_CTRL_ENABLE 0
    if !(scOn s) then .next s
    else
      let reqs := (s.sc.ports.map ScPort.waiting).flatten
      let s := drainPorts reqs { s with sc := { s.sc with ports := [] } }
      let s := s.sc.evict.foldl evictWrite s
      .next (setF { s with sc := { s.sc with hints := [], stale := [] } } F.SC_STATUS_ENABLED 0)

/-- SC_CTRL.ENABLE 1: the cache is on with its lines as held; with a stale line held it is R411 (R405). -/
def execScEnable (core : Nat) (s : State) : Res :=
  coreStore s core F.SC_CTRL_ENABLE.addr fun s =>
    if scOn s then .next (setF s F.SC_CTRL_ENABLE 1)
    else if staleHeld s = true then .fault (.undefined411 1)
    else .next (setF (setF s F.SC_CTRL_ENABLE 1) F.SC_STATUS_ENABLED 1)

/-! ### DRAM controller (R409) -/

/-- The patrol scrubber reads a location: corrected data is written back, an uncorrectable one is poisoned and latched with SCRUB. -/
def execDmcScrub (addr err : Nat) (s : State) : Res :=
  if !(flag s F.DMC_SCRUB_ENABLE) || !(domainOn s .dram) || !(isDram addr) then .next s
  else if err = 2 then
    let la := addr / 256
    .next (dmcLatch { s with poison := if s.poison.contains la then s.poison else la :: s.poison } 0 addr true)
  else if err = 1 then .next (countF s F.DMC_CNT_CE_COUNT 1)
  else .next s

/-- The controller raises or restores the refresh rate; TEMP_HIGH shows it. -/
def execDmcTempRefresh (high : Nat) (s : State) : Res := .next (if domainOn s .dram then setF s F.DMC_STATUS_TEMP_HIGH high else s)

end Sys2Proof.Machine
end

