-- ==== Sys2Proof/Machine/Capacity.lean ====
section
/-! DEFINITION. Capacity (09): the quantities of Table 09-9 as they stand now, the free space of a stroke, the life percentage. -/

namespace Sys2Proof.Machine

/-- Usable block sets now: UNUSED ones, vault block sets and those retired are none of them (Table 09-9). -/
def usableSets (s : State) : List Nat := (usedBsns s).filter fun b => decide (1 ≤ btState s b) && decide (btState s b ≤ 4)

/-- C_FRAG, 0 before any format. -/
def capFrags (s : State) : Nat := ((s.media.format).map MediaFormat.cfrag).getD 0

/-- SP (Table 09-9). -/
def spareSets (s : State) : Int :=
  match s.media.format with
  | none => 0
  | some f => ((usableSets s).length : Int) - (ceilDiv f.cfrag f.dn : Nat) - (f.rsys : Nat) - (4 * (usedLuns s).length : Nat)

/-- J: fragments journaled and not yet programmed, and one for each open stripe whose row places a position at the device's own seat. -/
def journaledCount (s : State) : Nat :=
  let frs := (pjKind s 5).filter fun r => let b := rkBody r.2; fld b 9 1 % 2 == 0 && !(onNand s (rkGroup r.2) (fld b 0 8) (fld b 20 4))
  let opens := s.pj.opens.filter fun o => (stripeSeats s o.group o.genId o.stripe).contains (ownSeat s o.group)
  frs.length + opens.length

/-- M of R354. -/
def reserveFrags (s : State) : Nat := ceilDiv (capFrags s * s.media.settings.noSpacePct) 100

/-- FF is below M (R354); never before a format. -/
def lacksSpace (s : State) : Bool :=
  s.media.format.isSome && decide (capFrags s < reserveFrags s + heldCount s + journaledCount s)

/-- The second value of LIFE (R354); where no format or no group gives it, the spec states no value and it is free. -/
def lifeBytes (s : State) : Nat × State :=
  let sets := s.groups.filterMap fun g => writingSet s g.id
  match s.media.format, sets with
  | some _, x :: xs =>
    let low := xs.foldl (fun (a : GenSet) b => if b.k * (a.k + a.m) < a.k * (b.k + b.m) then b else a) x
    ((capFrags s - heldCount s - journaledCount s - reserveFrags s) * plainLen * low.k / max 1 (low.k + low.m), s)
  | _, _ => (Config.lifeEstimate s.free, { s with free := s.free + 1 })

/-- The life percentage (R356). -/
def lifePercent (s : State) : Nat :=
  let u := usableSets s
  let wear := (u.map (btWear s)).sum
  let w := ceilDiv (100 * wear) (max 1 (4 * s.media.settings.peRated * u.length))
  let sp := spareSets s
  let sp0 := ((s.media.format).map MediaFormat.sp0).getD 0
  let p := if sp ≤ 0 then 100 else ceilDiv (100 * (sp0 - sp).toNat) (max 1 sp0.toNat)
  if s.media.readOnly = some 1 then 0 else 100 - min 100 (max w p)

end Sys2Proof.Machine
end

