-- ==== Sys2Proof/Machine/Kv.lean ====
section
/-! DEFINITION. Commands that change objects and holds (03, 04): values taken in, PUT and CAS, DELETE and DISCARD, RETAIN and RELEASE, EXISTS, and the
crew's work on buckets and open stripes. -/

namespace Sys2Proof.Machine

/-! ### Values to the device (R65, R66) -/

/-- The bytes of value staging (Table 01-7). -/
def stagingSize : Nat := 0x400000000

/-- Where the value of a command is staged, one 64 KiB stripe unit at a time (Table 01-2 step 4). DESIGN CHOICE: the region is that of Table 01-6, and each
command slot has one unit of it (log entry 66). -/
def stagingSlot (index : Nat) : Nat := 0x1400000000 + 65536 * index

/-- A command takes its value by RDMA READ. -/
def valueByRead (cap : Bytes) : Bool := (capOp cap == 0x10 || capOp cap == 0x14) && !(capFlag cap 0) && decide (capVlen cap > 0)

/-- The bytes of data units in one stripe of the group of a command's slice. -/
def stageUnit (s : State) (cap : Bytes) : Nat :=
  65536 * ((writingSet s (sliceGroup s (hashSlice (keyHash s (capNsid cap) (capKey cap))))).map GenSet.k).getD 1

/-- Value staging in use: a stripe of data units for each command that reads its value, and what it has asked for beyond. -/
def stagedBytes (s : State) : Nat :=
  ((s.hte.cmds.filter fun c => valueByRead c.capsule).map fun c => max (stageUnit s c.capsule) (alignUp c.asked 65536)).sum

/-- RDMA READ requests of a command's value, as many as may be outstanding: at most 64 KiB each, in ascending order, 16 on a session (R66). -/
def readMore : Nat → State → Nat → State
  | 0, s, _ => s
  | n + 1, s, idx =>
    match cmdOf s idx with
    | none => s
    | some c =>
      let cap := c.capsule
      let out := ((sessRec s c.session).map fun x => x.reads.length).getD 16
      if !(valueByRead cap) || c.asked ≥ capVlen cap || out ≥ 16 || !(sessLive s c.session) ||
          (decide (c.asked ≥ stageUnit s cap) && decide (stagedBytes s + 65536 > stagingSize)) then s
      else
        let len := min 65536 (capVlen cap - c.asked)
        let s := emit s (.rdmaRead c.session ((fld cap 24 8 + c.asked) % 2 ^ 64) (fld cap 20 4) len)
        let s := modSess s c.session fun x => { x with reads := x.reads ++ [(idx, c.asked, len)] }
        readMore n (putCmd s { c with asked := c.asked + len }) idx

/-! ### Commands handed on (R86, R87) -/

/-- A capsule carries a key, for which the device computes a slice: not LIST, and not a PREFIX form (R100). -/
def isKeyed (cap : Bytes) : Bool :=
  let op := capOp cap
  decide (capKeyLen cap > 0) && decide (0x10 ≤ op) && op != 0x15 && !((op == 0x17 || op == 0x18) && capFlag cap 4)

/-- The HTE_CMD entry of Table 02-10. -/
def cmdEntry (s : State) (c : Cmd) (reason adata missing : Nat) : Bytes :=
  let p := keyPlace s (capNsid c.capsule) (capKey c.capsule)
  let keyed := isKeyed c.capsule && rigOn s && sliceHeld s p.slice
  hteCommon 0x70 ++ le 4 (cmdId c) ++ le 2 c.session ++ le 1 reason ++ le 1 (b2n keyed) ++ le 2 (if keyed then p.slice else 0) ++ zeros 2 ++
    le 4 adata ++ le 4 (if keyed then dirIndex s p.slice p.bucket else 0) ++ le 3 missing ++ zeros 1 ++
    le 8 (4096 * getF s F.HTE_CAP_BASE_ADDR + 4608 * c.index) ++ le 2 c.capsule.length ++ zeros 22

/-- A command handed on for a reason of Table 02-11: its capsule copied, its entry posted. -/
def handOn (s : State) (c : Cmd) (reason adata missing : Nat) : State :=
  let s := (fabWrite s 3 (4096 * getF s F.HTE_CAP_BASE_ADDR + 4608 * c.index) c.capsule).1
  let c := { c with reason := reason }
  postExc (putCmd s c) (cmdEntry s c reason adata missing)

/-! ### Commands on a key -/

/-- The group state of a slice's group as R64 shows it. -/
def sliceGState (s : State) (x : Nat) : Nat := ((groupRec s (sliceGroup s x)).map Group.gstate).getD 0xFF

/-- A command on a key whose turn has come and which this device answers: it is redirected where another device acts for the slice, held while the
slice changes hands, refused while the stroke may not act (R73, R252). Nothing while it is already under way. -/
def keyRow (cmd op : Nat) (s : State) (run : State → Cmd → KeyPlace → Res) : Res :=
  onCmd s cmd op fun s c =>
    let p := keyPlace s (capNsid c.capsule) (capKey c.capsule)
    let t := ((sliceRec s p.slice).map Slice.takeover).getD 0
    if c.reply.isSome then .next s
    else if !(actsFor s p.slice) then .next (finish s c (redirectBytes s c.capsule p.slice))
    else if t = 3 ∨ t = 5 then .next s
    else if !(leaseHolds s p.slice) then .next (conflict s c ST.stateConflict (sliceGState s p.slice) 500)
    else run s c p

/-- A capsule asks for a change of its key. -/
def changesKey (cap : Bytes) : Bool := let op := capOp cap; isKeyed cap && op != 0x11 && op != 0x13 && op != 0x19 && op != 0x1A

/-- Another command's change of the same key comes first (R71): accepted earlier, on whichever session, and not ended, or still under way. -/
def keyPending (s : State) (c : Cmd) : Bool :=
  s.hte.cmds.any fun d => d.index != c.index && capNsid d.capsule == capNsid c.capsule && capKey d.capsule == capKey c.capsule && !d.ended &&
    ((changesKey d.capsule && decide (d.order < c.order)) || !d.changes.isEmpty || (match d.intent with
      | some q => (match intentOf s q.1 q.2 with | some i => !i.packed && decide (i.step < 4) | none => false)
      | none => false))

/-- The frames to be mirrored for a stripe: those of its open stripe. -/
def openMirror (s : State) (group stripe : Nat) : List (Nat × Nat) :=
  ((s.pj.opens.find? fun o => o.group == group && o.stripe == stripe).map OpenStripe.mirror).getD []

/-- A discard's removal written to the stroke's journal and sent to the bow (R120); none without room. -/
def journalDiscard (s : State) (d : Discarded) : Option State :=
  if d.mirror.isSome then some s
  else if !(ringRoom s 1024) then none
  else
    match packRecord s d.slice d.nsid (2 ^ 20 - 1) d.removal with
    | none => none
    | some ((stripe, _, _), s) =>
      match indexRecord s d.slice stripe [d.change] with
      | none => none
      | some (s, fs) =>
        let e := { d with mirror := some (openMirror s (sliceGroup s d.slice) stripe ++ fs) }
        some { s with kv := { s.kv with discards := s.kv.discards.map fun x => if x == d then e else x } }

/-- The discards of a bucket journaled, so that index records stand in the order of the changes; none without room. -/
def flushDiscards : List Discarded → State → Option State
  | [], s => some s
  | d :: ds, s =>
    match journalDiscard s d with
    | none => none
    | some s => flushDiscards ds s

/-- A change of a key whose turn has come: held while intents are (R215), while another change of the key is under way or the bucket is busy, refused
while the slice's index is rebuilt (R175). -/
def changeRow (cmd op : Nat) (s : State) (run : State → Cmd → KeyPlace → Bytes → Res) : Res :=
  keyRow cmd op s fun s c p =>
    if ((sliceRec s p.slice).map Slice.rebuilding).getD false then
      let h := fresh s
      .next (conflict h.2 c ST.stateConflict (sliceGState s p.slice) (h.1 % 2 ^ 32))
    else if s.epoch.refusing && s.epoch.phase == 2 then .next (conflict s c ST.stateConflict (sliceGState s p.slice) 1000)
    else if intentsHeld s || keyPending s c then .next s
    else
      match flushDiscards (s.kv.discards.filter fun d => d.slice == p.slice && d.bucket == p.bucket) s with
      | none => .next s
      | some s =>
        match bucketOpen s p.slice p.bucket with
        | none => .next s
        | some (b, s) => run s c p b

/-! ### Holds (R122) -/

/-- The prefix holds in force on a key. -/
def prefixHolds (s : State) (nsid : Nat) (key : Bytes) : List PrefixHold :=
  s.kv.holds.filter fun h => h.nsid == nsid && key.take h.pfx.length == h.pfx && (h.indef || dateInForce s h.expiry)

/-- The holds on a key: the greatest dated expiry in force of the key hold and the prefix holds or 0 (DESIGN CHOICE: R103 has one expiry; log entry 67), whether its key hold is indefinite, whether a prefix hold applies. -/
def keyHolds (s : State) (b : Bytes) (nsid : Nat) (p : KeyPlace) (key : Bytes) : Nat × Bool × Bool :=
  let dated := fun e => if dateInForce s e then e else 0
  let h := keyHold b nsid p
  let kd := match h with | some h => if bitAt h.kind 1 then dated h.expiry else 0 | none => 0
  let pre := prefixHolds s nsid key
  ((pre.map fun x => dated x.expiry).foldl max kd, h.any fun h => bitAt h.kind 0, !pre.isEmpty)

/-- The result of ST_RETAINED where a hold is in force on a key (R103). -/
def retainedBy (s : State) (b : Bytes) (nsid : Nat) (p : KeyPlace) (key : Bytes) : Option (Nat × Nat) :=
  let h := keyHolds s b nsid p key
  if h.1 > 0 || h.2.1 || h.2.2 then some (h.1, b2n h.2.1 + 2 * b2n h.2.2) else none

/-- The holds under way that will each take a hold record of their own: HOLD changes not yet applied whose entry has no record in its bucket, one for each
entry (R125, R163). -/
def pendingHolds (s : State) : List Bytes :=
  let cs := (pendingChanges s).filter fun c => chOp c == 3 && fld c 1 1 != 0
  let new := cs.filter fun c =>
    let b := bucketLook s (chSlice c) (chBucket c)
    match chFind b c with
    | some i => (bkHoldOf b i).isNone
    | none => true
  (new.map fun c => slice c 2 6 ++ slice c 16 8 ++ slice c 40 1).eraseDups

/-- A key hold counts against the limit of R125: it is in force, or its clock is unknown, or a RETAIN accepted and not yet applied makes it. -/
def keyHoldCount (s : State) : Nat :=
  (((heldSlices s).filter (actsFor s)).map fun x =>
    ((bucketsOf s x).map fun k => ((bkHoldList (bucketLook s x k)).filter fun h => !(holdOver s h)).length).sum).sum +
    ((pendingHolds s).filter fun h => actsFor s (fld h 0 2)).length

/-- The hold records of a bucket in use or about to be (R163). -/
def holdsUsed (s : State) (p : KeyPlace) (b : Bytes) : Nat :=
  bkHolds b + ((pendingHolds s).filter fun h => fld h 0 2 == p.slice && fld h 2 4 == p.bucket).length

/-! ### Places and records -/

/-- The index entry of an object. -/
def entryAt (nsid : Nat) (p : KeyPlace) (stripe unit len version : Nat) : Entry :=
  ⟨nsid, p.kc, p.hash % 2 ^ 39, stripe / 2 ^ 59, bits stripe 5 54, unit, len, version⟩

/-- A packed command of R235: the record goes into the open stripe, the change into an INDEX record, and the command waits for the mirror, and under
ALL for the stripe; without a serial for a stripe that it needs it ends with ST_NO_SPACE, reason 2 (R187). `change` gives the change from the record's stripe and unit. Unchanged while there is no room; the oldest open stripe is
then sealed (R191). `done` is what else the command leaves behind. -/
def packCommand (s : State) (c : Cmd) (p : KeyPlace) (nsid : Nat) (rec_ : Bytes) (change : Nat → Nat → Bytes) (reply : Bytes) (waits : Nat)
    (done : State → State) : Res :=
  let stuck := settleAll (sealOldest s)
  if packOut s (sliceGroup s p.slice) nsid rec_.length then .next (answer s c ST.noSpace 2 0)
  else if !(ringRoom s 1024) then .next s
  else
    match packRecord s p.slice nsid c.index rec_ with
    | none => .next stuck
    | some ((stripe, unit, _), s1) =>
      let ch := stampChange s1 (change stripe unit)
      match indexRecord s1 p.slice stripe [ch] with
      | none => .next s
      | some (s1, fs) =>
        let group := sliceGroup s p.slice
        let c := { c with intent := some (group, stripe), changes := [ch], mirror := openMirror s1 group stripe ++ fs, reply := some reply,
                          waits := waits }
        .next (settleAll (putCmd (done s1) c))

/-! ### PUT and CAS (R108 to R112) -/

/-- A large object written under an intent of its own (R230, R231); unchanged while its data key is missing or the ring has no room. -/
def putLarge (s : State) (c : Cmd) (p : KeyPlace) (h : RecHdr) (value : Bytes) (all : Bool) : Res :=
  let group := sliceGroup s p.slice
  match groupRec s group, writingSet s group, nsKey s h.nsid with
  | some g, some x, some key =>
    let run := largeRun x.k h.length
    match takeSerials s g run with
    | none => .next (answer s c ST.noSpace 2 0)
    | some (serial, s1) =>
      let s1 := if capFlag c.capsule 0 then s1 else codeUnits s1 [stagingSlot c.index]
      let stripe := stripeId g.seat serial
      let e := entryAt h.nsid p stripe 0 h.length h.version
      let ch := stampChange s1 (changeBytes 1 0 p.slice p.bucket (entryBytes e) (entrySlotWord e) 0 0 h.version)
      let i := newIntent group stripe run x false false h.nsid 1 [ch] ((sliceBow s p.slice).toList)
        (largeUnits s group h.nsid g.seat serial x key (largeStream h (capKey c.capsule) value) run)
      let c := { c with intent := some (group, stripe), reply := some (replyBytes c.capsule ST.ok 0 0 h.version 0 []), waits := if all then 2 else 1 }
      match openIntent (putCmd s1 c) { i with durAll := all } with
      | none => .next s
      | some s1 => .next (settleAll s1)
  | _, _, _ => .next s

/-- The value of a PUT or CAS stored as a new version (R111). -/
def storeValue (s : State) (c : Cmd) (p : KeyPlace) (version : Nat) : Res :=
  let cap := c.capsule
  let nsid := capNsid cap
  let value := if capFlag cap 0 then capInline cap else c.value
  let all := capFlag cap 5 || ((nsOf s nsid).map Namespace.durability).getD 0 == 1
  let h : RecHdr := { kind := 1, keyLen := capKeyLen cap, nsid := nsid, length := value.length, version := version, fprint := p.hash,
                      created := calendarOr0 s, user := if capOp cap = 0x10 then capP2 cap else 0 }
  if value.length > 65072 then putLarge s c p h value all
  else
    packCommand s c p nsid (packedRecord h (capKey cap) value)
      (fun stripe unit => let e := entryAt nsid p stripe unit value.length version
        changeBytes 1 0 p.slice p.bucket (entryBytes e) (entrySlotWord e) 0 0 version)
      (replyBytes cap ST.ok 0 0 version 0 []) (if all then 2 else 3) id

/-- The value would exceed the quota of its namespace (R111). -/
def quotaExceeded (s : State) (nsid old new : Nat) : Bool :=
  let q := ((nsOf s nsid).map Namespace.quota).getD 0
  q != 0 && decide (((nsObjects s nsid).map Entry.length).sum - old + new > q)

/-- PUT and CAS once the value is in: the conditions of R111, R112, R161, R187 and R354, then the new version. -/
def putRow (cmd op : Nat) (s : State) : Res :=
  changeRow cmd op s fun s c p b =>
    let cap := c.capsule
    let nsid := capNsid cap
    if valueShort c then .next (if sessLive s c.session then readMore 16 s c.index else endCmd s c)
    else
      let e := entryOf b nsid p
      let cur := (e.map Entry.version).getD 0
      match retainedBy s b nsid p (capKey cap) with
      | some r => .next (answer s c ST.retained r.1 r.2)
      | none =>
        if sliceGState s p.slice = 5 then .next (conflict s c ST.groupSuspended 5 0)
        else if op = 0x10 ∧ capFlag cap 4 = true ∧ e.isSome = true then .next (answer s c ST.exists 0 0)
        else if op = 0x14 ∧ capP2 cap ≠ cur then .next (answer s c ST.versionMismatch cur 0)
        else if quotaExceeded s nsid ((e.map Entry.length).getD 0) (capVlen cap) then .next (answer s c ST.noSpace 1 0)
        else if lacksSpace s then .next (answer s c ST.noSpace 2 0)
        else if e.isNone && decide (placesUsed s p b ≥ 512) then .next (answer (logCrew s EV.indexBucketFull) c ST.noSpace 3 0)
        else if nextVersion s p.slice > versionTop then .next (answer s c ST.noSpace 3 0)
        else storeValue s c p (nextVersion s p.slice)

/-- PUT (R111). -/
def execPut (cmd : Nat) (s : State) : Res := putRow cmd 0x10 s

/-- CAS (R112): the match and the replacement are one step. -/
def execCas (cmd : Nat) (s : State) : Res := putRow cmd 0x14 s

/-! ### DELETE, DISCARD, EXISTS (R115, R120) -/

/-- A REMOVAL record of a key. -/
def removalRecord (cap : Bytes) (p : KeyPlace) (hflags version created : Nat) : Bytes :=
  packedRecord { kind := 2, hflags := hflags, keyLen := capKeyLen cap, nsid := capNsid cap, version := version, fprint := p.hash, created := created }
    (capKey cap) []

/-- The REMOVE_ENTRY change of an entry. -/
def removeChange (p : KeyPlace) (e : Entry) (version : Nat) : Bytes :=
  changeBytes 2 0 p.slice p.bucket (entryBytes e) (entrySlotWord e) 0 0 version

/-- DELETE (R107, R115, R122). -/
def execDelete (cmd : Nat) (s : State) : Res :=
  changeRow cmd 0x12 s fun s c p b =>
    let cap := c.capsule
    match retainedBy s b (capNsid cap) p (capKey cap), entryOf b (capNsid cap) p with
    | some r, _ => .next (answer s c ST.retained r.1 r.2)
    | none, none => .next (answer s c ST.notFound 0 0)
    | none, some e =>
      let v := nextVersion s p.slice
      if capP2 cap ≠ 0 ∧ capP2 cap ≠ e.version then .next (answer s c ST.versionMismatch e.version 0)
      else if v > versionTop then .next (answer s c ST.noSpace 3 0)
      else
        packCommand s c p (capNsid cap) (removalRecord cap p 0 v (calendarOr0 s)) (fun _ _ => removeChange p e v)
          (replyBytes cap ST.ok 0 0 e.version 0 []) 3 id

/-- DISCARD (R120): the version is removed in the resident bucket and the reply goes out at once. -/
def execDiscard (cmd : Nat) (s : State) : Res :=
  changeRow cmd 0x16 s fun s c p b =>
    let cap := c.capsule
    match retainedBy s b (capNsid cap) p (capKey cap), entryOf b (capNsid cap) p with
    | some r, _ => .next (answer s c ST.retained r.1 r.2)
    | none, none => .next (answer s c ST.ok 0 0)
    | none, some e =>
      let v := nextVersion s p.slice
      if capP2 cap ≠ 0 ∧ capP2 cap ≠ e.version then .next (answer s c ST.versionMismatch e.version 0)
      else if v > versionTop then .next (answer s c ST.noSpace 3 0)
      else
        let ch := stampChange s (removeChange p e v)
        let d : Discarded := ⟨p.slice, p.bucket, capNsid cap, ch, removalRecord cap p 2 v (calendarOr0 s), s.now, none⟩
        let s := (changeAll [ch] s).1
        .next (answer { s with kv := { s.kv with discards := s.kv.discards ++ [d] } } c ST.ok e.version 0)

/-- DISCARD_DURABLE (R120, R162): the oldest removal not yet journaled is journaled and mirrored; those that are durable free their places. It waits
while intents are held (R216), and seals the oldest open stripe where there is no room (R191). -/
def execDiscardDurable (s : State) : Res := whileCore s fun s =>
  let s := { s with kv := { s.kv with discards := s.kv.discards.filter fun d => !(discardDone s d) } }
  match s.kv.discards.find? fun d => d.mirror.isNone with
  | none => .next s
  | some d => .next (if intentsHeld s then s else settleAll ((journalDiscard s d).getD (sealOldest s)))

/-- EXISTS (R115): from the index alone. -/
def execExists (cmd : Nat) (s : State) : Res :=
  keyRow cmd 0x13 s fun s c p =>
    match bucketGet s p.slice p.bucket with
    | none => .next s
    | some (b, s) =>
      match entryOf b (capNsid c.capsule) p with
      | none => .next (answer s c ST.notFound 0 0)
      | some e => .next (answer s c ST.ok e.version e.length)

/-! ### RETAIN and RELEASE (R122 to R125, R163) -/

/-- A key hold changed: its hold record takes the next hold serial of the slice, its index change sets kind and expiry (R169). -/
def holdCommand (s : State) (c : Cmd) (p : KeyPlace) (e : Entry) (recKind hkind expiry recExpiry : Nat) (reply : Bytes) : Res :=
  let cap := c.capsule
  let r := (sliceRec s p.slice).getD (newSlice p.slice 0)
  let serial := (r.holdSerial + 1) % 2 ^ 32
  let h : RecHdr := { kind := recKind, keyLen := capKeyLen cap, nsid := capNsid cap, version := e.version, fprint := p.hash,
                      created := calendarOr0 s, expiry := recExpiry, holdSerial := serial }
  packCommand s c p (capNsid cap) (packedRecord h (capKey cap) [])
    (fun _ _ => changeBytes 3 hkind p.slice p.bucket (entryBytes e) (entrySlotWord e) serial expiry e.version) reply 3
    (fun s => putSlice s { r with holdSerial := serial })

/-- RETAIN of a key (R123), or of a prefix, which is an administrative change (R133). -/
def execRetain (cmd : Nat) (s : State) : Res :=
  match cmdWith s cmd 0x17 with
  | none => .next s
  | some c0 =>
    if capFlag c0.capsule 4 then adminRow cmd 0x17 s
    else
      changeRow cmd 0x17 s fun s c p b =>
        let cap := c.capsule
        match entryOf b (capNsid cap) p with
        | none => .next (answer s c ST.notFound 0 0)
        | some e =>
          let h := (keyHold b (capNsid cap) p).getD ⟨0, 0, 0, 0⟩
          let exp := capP1 cap
          let newExp := max (if bitAt h.kind 1 then h.expiry else 0) exp
          let past := exp != 0 && s.kv.retention.isSome && decide (exp ≤ predicted s)
          let same := if exp = 0 then bitAt h.kind 0 else past || (bitAt h.kind 1 && decide (newExp = h.expiry))
          let kind := if exp = 0 then h.kind / 2 * 2 + 1 else h.kind % 2 + 2
          let expiry := if exp = 0 then h.expiry else newExp
          let res := fun kind expiry => replyBytes cap ST.ok 0 0 (if bitAt kind 1 && dateInForce s expiry then expiry else 0) (kind % 2) []
          let needNew := h.kind = 0 ∨ holdOver s h = true
          let expired := ((bkHoldList b).filter (holdOver s)).length
          let full := decide (holdsUsed s p b ≥ 123 + expired) && h.kind == 0
          if same then .next (finish s c (res h.kind h.expiry))
          else if needNew ∧ keyHoldCount s ≥ 1048576 then .next (answer s c ST.noSpace 4 0)
          else if full then .next (answer s c ST.noSpace 4 0)
          else holdCommand s c p e (if exp = 0 then 4 else 3) kind expiry (if exp = 0 then 0 else exp) (res kind expiry)

/-- RELEASE of a key (R124), or of a prefix, which is an administrative change (R133). -/
def execRelease (cmd : Nat) (s : State) : Res :=
  match cmdWith s cmd 0x18 with
  | none => .next s
  | some c0 =>
    if capFlag c0.capsule 4 then adminRow cmd 0x18 s
    else
      changeRow cmd 0x18 s fun s c p b =>
        let cap := c.capsule
        match entryOf b (capNsid cap) p, keyHold b (capNsid cap) p with
        | some e, some h =>
          if !(bitAt h.kind 0) then .next (answer s c ST.notFound 0 0)
          else
            holdCommand s c p e 5 (h.kind - 1) h.expiry 0
              (replyBytes cap ST.ok 0 0 (if bitAt h.kind 1 && dateInForce s h.expiry then h.expiry else 0) 0 [])
        | _, _ => .next (answer s c ST.notFound 0 0)

/-! ### Crew work on open stripes and buckets -/

/-- SEAL_TIMER_EXPIRY (R109): SEAL_US after the first value of an open stripe arrived, it is sealed. -/
def execSealTimerExpiry (group nsid : Nat) (s : State) : Res := whileCore s fun s =>
  match openFor s group nsid with
  | none => .next s
  | some o =>
    match o.firstAt with
    | none => .next s
    | some t =>
      let s := reach s (t + o.sealUs * us)
      .next (settleAll (sealStripe s o))

/-- BUCKET_LOAD (R150): a bucket in state FLASH becomes resident; unchanged where it is BUSY, resident, not readable or no slot is free. -/
def execBucketLoad (slice bucket : Nat) (s : State) : Res := whileCore s fun s =>
  if sliceHeld s slice && decide (bucket < 2 ^ sliceB s slice) && dirState s slice bucket == 1 then
    match bucketGet s slice bucket with
    | some (_, s) => .next s
    | none => .next s
  else .next s

/-- A bucket's newest page replaced by a new one; VALID follows the strides. -/
def putBucketItem (s : State) (i : BucketItem) : State :=
  let old := s.media.buckets.find? fun x => x.slice == i.slice && x.bucket == i.bucket
  let rest := s.media.buckets.filter fun x => !(x.slice == i.slice && x.bucket == i.bucket)
  let s := btLive { s with media := { s.media with buckets := i :: rest } } i.bsn true
  match old with
  | some o => if rest.any fun x => x.bsn == o.bsn && x.page == o.page then s else btLive s o.bsn false
  | none => s

/-- A BUCKET stride with one bucket in plane 0 and three empty pages (R327). -/
def bucketPlanes (wseq slice bucket writeSeq wear : Nat) (slc : Bool) (b : Bytes) : List (Bytes × Bytes) :=
  (List.range 4).map fun q =>
    let h : PageHead := ⟨2, b2n slc + (if q = 0 then 0 else 8), wseq, if q = 0 then slice + 65536 * bucket else 0, 0, 0, 0, 0, 0, 0, wear,
      if q = 0 then writeSeq else 0⟩
    (if q = 0 then fit b 16384 else zeros 16384, headBytes h q)

/-- The LUN whose SYSTEM stream takes a bucket: the first with room (R336). -/
def systemLun (s : State) : Option Nat := (List.range 1024).find? fun l => lunUsed s l && ((openOf s l 2).isSome || !(heapOf s l).isEmpty)

/-- BUCKET_WRITEBACK (R153, R156, R159): WRITE_SEQ rises, the bucket is encrypted with its identity as tweak and programmed, its state becomes
CLEAN, and index records it covers are retired. It waits while a change of the bucket is journaled but not applied. -/
def execBucketWriteback (slice bucket : Nat) (s : State) : Res := whileCore s fun s =>
  let waits := (pendingChanges s).any fun c => chSlice c == slice && chBucket c == bucket
  if !(sliceHeld s slice) || decide (bucket ≥ 2 ^ sliceB s slice) || dirState s slice bucket != 3 || dirBusy s slice bucket || waits then .next s
  else
    let slot := dirSlot s slice bucket
    let b := peek s (bucketAddr s slot) 16384
    let b := bkSeal (patch b 24 (le 8 (bkSeq b + 1)))
    let e := xtsUnit true (indexKey s) (slice * 2 ^ 32 + bucket) b
    match systemLun s with
    | none => .next s
    | some l =>
      match placeStride s l 2 fun w k => bucketPlanes w slice bucket (bkSeq b) (btWear s k) (btFlag s k 0) e with
      | none => .next s
      | some ((bsn, page, seq), s) =>
        let s := storeBucket s 0 slice bucket slot 2 b
        .next (settleIndexRecords (putBucketItem s ⟨slice, bucket, bsn, page, 0, bkSeq b, seq⟩))

/-- BUCKET_EVICT (R150): a CLEAN bucket leaves the cache, but for one that a change under way still needs; one without NAND copy is EMPTY. -/
def execBucketEvict (slice bucket : Nat) (s : State) : Res := whileCore s fun s =>
  if !(sliceHeld s slice) || decide (bucket ≥ 2 ^ sliceB s slice) || dirState s slice bucket != 2 || dirBusy s slice bucket ||
      (pendingChanges s).any (fun c => chSlice c == slice && chBucket c == bucket) then .next s
  else
    let b := peek s (bucketAddr s (dirSlot s slice bucket)) 16384
    let stored := s.media.buckets.any fun i => i.slice == slice && i.bucket == bucket
    .next (putDir s 0 slice bucket (if stored then 1 else 0) 0 (bkCount b) (bkHolds b) 0)

end Sys2Proof.Machine
end

