-- ==== Sys2Proof/Machine/Objects.lean ====
section
/-! DEFINITION. Reading objects (04, 07): from an open stripe of the journal, from sealed stripes around faults, and the retry of what missed its
deadline. -/

namespace Sys2Proof.Machine

/-- The generator set of a stripe: that of the stripe kept, else of what this seat holds of it, else the writing set. -/
def genFor (s : State) (group stripe : Nat) : Nat :=
  match (groupRec s group).bind fun g => keptOf g stripe with
  | some k => k.genId
  | none =>
    let h := holding s group stripe
    if h.kind = 0 then h.gen else ((writingSet s group).map GenSet.genId).getD 0

/-- Units of several stripes read together: the units by their number in the run, whether any was decoded, and the parity units to repair as
(stripe, position, unit). -/
structure Span where
  units : List (Nat × Bytes)
  decoded : Bool
  repairs : List (Nat × Nat × Bytes)

/-- How the read of several stripes stands. -/
inductive SpanRead where
  | waits
  | ok (x : Span)
  | marked
  | lost (integrity : Bool) (stripe : Nat)
  | unavailable
  | noSet

/-- Two parts of a read put together: an end that decides the command goes before a wait, a wait before sources that are unavailable. -/
def SpanRead.join : SpanRead → SpanRead → SpanRead
  | .marked, _ => .marked
  | .lost i st, _ => .lost i st
  | .noSet, _ => .noSet
  | .waits, .marked => .marked
  | .waits, .lost i st => .lost i st
  | .waits, .noSet => .noSet
  | .waits, .waits => .waits
  | .waits, .ok _ => .waits
  | .waits, .unavailable => .waits
  | .unavailable, .marked => .marked
  | .unavailable, .lost i st => .lost i st
  | .unavailable, .noSet => .noSet
  | .unavailable, .waits => .waits
  | .unavailable, .ok _ => .unavailable
  | .unavailable, .unavailable => .unavailable
  | .ok _, .marked => .marked
  | .ok _, .lost i st => .lost i st
  | .ok _, .noSet => .noSet
  | .ok _, .waits => .waits
  | .ok _, .unavailable => .unavailable
  | .ok a, .ok b => .ok ⟨a.units ++ b.units, a.decoded || b.decoded, a.repairs ++ b.repairs⟩

/-- One stripe's read as part of several. -/
def spanOf (stripe j k : Nat) (want : List Nat) : StripeRead → SpanRead
  | .waits => .waits
  | .units d dec rep => .ok ⟨want.map (fun p => (j * k + p, (d[p]?).getD [])), dec, rep.map fun r => (stripe, r.1, r.2)⟩
  | .marked => .marked
  | .dataLost => .lost false stripe
  | .integrity => .lost true stripe
  | .unavailable => .unavailable
  | .noSet => .noSet

/-- The wanted units of a run of stripes read, stripe by stripe. -/
def readSpan (user group gen stripe k : Nat) (wants : List Nat) : List Nat → State → State × SpanRead
  | [], s => (s, .ok ⟨[], false, []⟩)
  | j :: js, s =>
    let want := (wants.filter fun u => u / k == j).map fun u => u % k
    let r := readStripe s user group gen (stripe + 32 * j) want
    let t := readSpan user group gen stripe k wants js r.1
    (t.1, (spanOf (stripe + 32 * j) j k want r.2).join t.2)

/-- How the read of an object stands: it waits; its header, key and the bytes asked for; a unit that checks but holds no header the entry describes
(R144); lost, marked lost, sources unavailable, or a set that does not exist. -/
inductive ObjRead where
  | waits
  | found (h : RecHdr) (key bytes : Bytes) (decoded : Bool) (repairs : List (Nat × Nat × Bytes))
  | badHeader
  | marked
  | lost (integrity : Bool) (stripe : Nat)
  | unavailable
  | noSet

/-- A header is the one an entry of a namespace describes (R144). -/
def headerFits (e : Entry) (fprint : Nat) (large : Bool) (h : RecHdr) : Bool :=
  h.kind == 1 && bitAt h.hflags 0 == large && h.nsid == e.nsid && h.fprint == fprint && h.version == e.version

/-- The packed record of an entry in a plaintext area. -/
def packedFrom (e : Entry) (fprint off len : Nat) (plain : Bytes) (first : Nat) (decoded : Bool) (repairs : List (Nat × Nat × Bytes)) : ObjRead :=
  match (recordsOf plain first).find? fun r => headerFits e fprint false r.2.1 with
  | none => .badHeader
  | some (_, h, b) => .found h (recKey h b) (slice b (128 + alignUp h.keyLen 8 + off) len) decoded repairs

/-- A unit of a span. -/
def Span.unit (x : Span) (u : Nat) : Bytes := ((x.units.find? fun q => q.1 == u).map Prod.snd).getD []

/-- The large record of an entry from its units: unit 0 gives the header, the units from `u0` on the bytes. -/
def largeFrom (s : State) (e : Entry) (fprint off len : Nat) (x : Span) (us : List Nat) : ObjRead :=
  let plain := fun u => (openUnit s (x.unit u)).getD (zeros plainLen)
  match openUnit s (x.unit 0) with
  | none => .badHeader
  | some p =>
    match readRecHeader (p.take 128) with
    | none => .badHeader
    | some h =>
      if headerFits e fprint true h then
        let start := 384 + off - plainLen * (us.head?.getD 0)
        .found h (slice p 128 h.keyLen) (slice ((us.map plain).flatten) start len) x.decoded x.repairs
      else .badHeader

/-- The units, numbered along the run, that hold bytes `off` to `off + len` of an object. -/
def objUnits (e : Entry) (off len : Nat) : List Nat :=
  if e.length ≤ 65072 then [e.unit]
  else if len = 0 then []
  else (List.range ((384 + off + len - 1) / plainLen + 1)).drop ((384 + off) / plainLen)

/-- The units a read of them needs: a large object's first unit holds its header. -/
def objWants (e : Entry) (off len : Nat) : List Nat :=
  let us := objUnits e off len
  if decide (e.length > 65072) && !(us.contains 0) then 0 :: us else us

/-- The data positions that a read needs and whose unit did not arrive or failed its check, as MISSING of Table 02-10. -/
def missingMask (s : State) (user group : Nat) (e : Entry) (off len : Nat) : Nat :=
  match groupRec s group, genOf s group (genFor s group e.stripe) with
  | some g, some x =>
    if s.pj.opens.any fun o => o.group == group && o.stripe == e.stripe then 0
    else
      let bad := (objWants e off len).filter fun u =>
        let stripe := e.stripe + 32 * (u / x.k)
        let seat := ((stripeSeats s group x.genId stripe)[u % x.k]?).getD 0
        let st := unitState s g user stripe x (u % x.k) seat
        st.bad || st.isLate
      (((bad.map fun u => u % x.k).eraseDups).map fun p => 2 ^ p).sum
  | _, _ => 0

/-- Bytes `off` to `off + len` of the object of an entry, with its header and key, read for a user (R168, R170, R269). -/
def readObject (s : State) (user group : Nat) (e : Entry) (fprint off len : Nat) : State × ObjRead :=
  match s.pj.opens.find? fun o => o.group == group && o.stripe == e.stripe with
  | some o => (s, packedFrom e fprint off len (openPlain s o e.unit) ((o.first[e.unit]?).getD 0xFFFF) false [])
  | none =>
    let gen := genFor s group e.stripe
    match genOf s group gen with
    | none => (s, .noSet)
    | some x =>
      let large := decide (e.length > 65072)
      let us := objUnits e off len
      let wants := objWants e off len
      let r := readSpan user group gen e.stripe x.k wants ((wants.map fun u => u / x.k).eraseDups) s
      match r.2 with
      | .waits => (r.1, .waits)
      | .marked => (r.1, .marked)
      | .lost i st => (r.1, .lost i st)
      | .unavailable => (r.1, .unavailable)
      | .noSet => (r.1, .noSet)
      | .ok sp =>
        if large then (r.1, largeFrom s e fprint off len sp us)
        else
          match openUnit s (sp.unit e.unit) with
          | none => (r.1, .badHeader)
          | some p => (r.1, packedFrom e fprint off len p (fld (sp.unit e.unit) 40 2) sp.decoded sp.repairs)

/-- What a completed read leaves: its fetches are done, EV_DEGRADED_READ where it decoded, parity units repaired (R267, R269, R270). -/
def readDone (s : State) (user group : Nat) (decoded : Bool) (repairs : List (Nat × Nat × Bytes)) : State :=
  let s := dropFetches s user
  let s := if decoded then logCrew s EV.degradedRead else s
  repairs.foldl (fun s r => replaceUnit s group (genFor s group r.1) r.1 (r.2.1, r.2.2)) s

/-- A reply of a fetch leaves its position unavailable to its user (R260). -/
def Fetch.isLate (f : Fetch) : Bool :=
  match f.reply with
  | some (st, _, _) => st != ST.ok && st != ST.dataLost && st != ST.notFound && st != ST.integrity
  | none => false

/-- A command whose sources are unavailable: it retries once after 100 ms, then ends with ST_BUSY, reason 4 (R271). -/
def sourcesMissing (s : State) (c : Cmd) : State :=
  let late := s.hte.fetches.filter fun f => f.user == c.index && f.isLate
  if late.all Fetch.retried then answer (dropFetches s c.index) c ST.busy 4 100000
  else if c.retryAt.isSome then s
  else putCmd s { c with retryAt := some (s.now + 100 * ms) }

/-- DEGRADED_READ_RETRY (R271): 100 ms after its sources were found missing, a command asks for the missing positions once more. -/
def execDegradedReadRetry (cmd : Nat) (s : State) : Res := whileCore s fun s =>
  match cmdOf s cmd with
  | none => .next s
  | some c =>
    match c.retryAt with
    | none => .next s
    | some t =>
      let s := putCmd (reach s t) { c with retryAt := none }
      let late := s.hte.fetches.filter fun f => f.user == cmd && f.isLate && !f.retried
      .next (late.foldl (fun s f => match genOf s f.group (genFor s f.group f.stripe) with
        | some x => askUnit s f.user f.group f.stripe x f.pos f.seat true
        | none => s) s)

/-- The probes of a stripe judged once every one is answered (R275): with more than m positions gone, missing or refused it is marked lost. -/
def probesJudged (s : State) (f : Fetch) : State :=
  if f.user ≠ crewUser s 4 f.group then s
  else
    let mine := fun (q : Fetch) => q.user == f.user && q.group == f.group && q.stripe == f.stripe
    let fs := s.hte.fetches.filter mine
    if fs.any fun q => q.reply.isNone then s
    else
      let bad := fs.filter fun q => match q.reply with | some (st, _, _) => st == ST.notFound || st == ST.integrity || st == ST.dataLost | none => false
      let s := { s with hte := { s.hte with fetches := s.hte.fetches.filter fun q => !(mine q) } }
      let gen := genFor s f.group f.stripe
      match groupRec s f.group, genOf s f.group gen with
      | some g, some x => if goneCount s g gen f.stripe + bad.length > x.m then stripeLostNow s f.group gen f.stripe else s
      | _, _ => s

/-- FRAG_READ_DEADLINE (R260, R262): a FRAG_READ without a reply within FRAG_READ_MS leaves its position unavailable to its user and counts against
the seat. -/
def execFragReadDeadline (tag : Nat) (s : State) : Res := whileCore s fun s =>
  match s.hte.fetches.find? fun f => f.tag == tag && f.reply.isNone with
  | none => .next s
  | some f =>
    let s := reach s (f.sentAt + s.media.settings.fragReadMs * ms)
    let s := dropRequests (putFetch s { f with reply := some (0xFFFF, false, []) }) fun r => r.tag == tag
    .next (settleAll (missDeadline (probesJudged s f) f.group f.seat))

end Sys2Proof.Machine
end

