-- ==== Sys2Proof/Machine/Reads.lean ====
section
/-! DEFINITION. Commands that read (03): GET, FIXITY, LIST, STAT and LIFE. -/

namespace Sys2Proof.Machine

/-- The end that a read gives its command (R144, R270, R271): a key other than the stored one is an alias, a lost stripe is marked. `ok` is what the
command does with the bytes; `r1` is RESULT1 of the ends that return no data. -/
def objectEnd (s : State) (c : Cmd) (group : Nat) (e : Entry) (r1 : Nat) (r : ObjRead)
    (ok : Bytes → Bool → List (Nat × Nat × Bytes) → Res) : Res :=
  match r with
  | .waits => .next s
  | .found _ key bytes dec reps =>
    if key = capKey c.capsule then ok bytes dec reps
    else .next (answer (logCrew (readDone s c.index group dec reps) EV.keyAlias) c ST.notFound 0 0)
  | .badHeader => .next (answer (logCrew (dropFetches s c.index) EV.integrityFailed) c ST.integrity e.version r1)
  | .marked => .next (answer (dropFetches s c.index) c ST.dataLost e.version r1)
  | .lost integrity stripe =>
    let s := stripeLostNow (dropFetches s c.index) group (genFor s group stripe) stripe
    .next (if integrity then answer (logCrew s EV.integrityFailed) c ST.integrity e.version r1 else answer s c ST.dataLost e.version r1)
  | .unavailable => .next (sourcesMissing s c)
  | .noSet => .fault (.undefined219 4)

/-- The status of data read whole or decoded (R114). -/
def readStatusCode (decoded : Bool) : Nat := if decoded then ST.okDegraded else ST.ok

/-- GET (R107, R113, R114). On the fast path a data unit missing hands the command to crew firmware (reason 10 of Table 02-11). -/
def execGet (cmd : Nat) (s : State) : Res :=
  keyRow cmd 0x11 s fun s c p =>
    match bucketGet s p.slice p.bucket with
    | none => .next s
    | some (b, s) =>
      let cap := c.capsule
      match entryOf b (capNsid cap) p with
      | none => .next (answer (dropFetches s c.index) c ST.notFound 0 0)
      | some e =>
        let off := capP1 cap
        if capP2 cap ≠ 0 ∧ capP2 cap ≠ e.version then .next (answer (dropFetches s c.index) c ST.versionMismatch e.version e.length)
        else if off > e.length then .next (answer (dropFetches s c.index) c ST.length 0 e.length)
        else
          let len := if capP0 cap = 0 then e.length - off else min (capP0 cap) (e.length - off)
          let group := sliceGroup s p.slice
          let r := readObject s c.index group e p.hash off len
          let miss := missingMask r.1 c.index group e off len
          if c.reason = 0 ∧ miss ≠ 0 then .next (handOn r.1 c 10 0 miss)
          else
            objectEnd r.1 c group e e.length r.2 fun bytes dec reps =>
              .next (answerData (readDone r.1 c.index group dec reps) c (readStatusCode dec) e.version e.length bytes)

/-! ### FIXITY (R129, R267) -/

/-- How the check of the parity of stripes stands: it waits, the parity units that differ as (stripe, position, unit recomputed; none where a data unit failed
its check, so that nothing is repaired by R267), or the read ends otherwise. -/
inductive ParityRead where
  | waits
  | differ (l : List (Nat × Nat × Option Bytes))
  | other (x : SpanRead)

/-- The parity of one stripe read and compared; a parity unit that cannot be read is passed over. -/
def parityOf (s : State) (user group gen stripe : Nat) (x : GenSet) : State × ParityRead :=
  let r := readStripe s user group gen stripe (List.range x.k)
  match r.2, groupRec s group with
  | .units d _ _, some g =>
    let seats := stripeSeats r.1 group gen stripe
    let us := (List.range (x.k + x.m)).map fun p => unitState r.1 g user stripe x p ((seats[p]?).getD 0)
    let par := (List.range (x.k + x.m)).drop x.k
    let st := fun (p : Nat) => (us[p]?).getD .missing
    if par.any fun p => (st p).isUnasked then (askAll r.1 user group stripe x seats us par, .waits)
    else if par.any fun p => (st p).isWaiting then (r.1, .waits)
    else
      let sound := !((us.take x.k).any UnitState.isFailed)
      (r.1, .differ (par.filterMap fun p => match (st p).bytes with
        | some b => let w := parityUnit x 65536 (p - x.k) d; if b = w then none else some (stripe, p, if sound then some w else none)
        | none => none))
  | q, _ => (r.1, .other (spanOf stripe 0 x.k [] q))

/-- The parity of several stripes read and compared. -/
def parityRun (user group gen : Nat) (x : GenSet) : List Nat → State → State × ParityRead
  | [], s => (s, .differ [])
  | st :: rest, s =>
    let a := parityOf s user group gen st x
    let b := parityRun user group gen x rest a.1
    match a.2, b.2 with
    | .other q, _ => (b.1, .other q)
    | .waits, .other q => (b.1, .other q)
    | .differ _, .other q => (b.1, .other q)
    | .waits, _ => (b.1, .waits)
    | .differ _, .waits => (b.1, .waits)
    | .differ l, .differ m => (b.1, .differ (l ++ m))

/-- The reply of FIXITY with the digest of the value. -/
def fixityReply (s : State) (c : Cmd) (e : Entry) (bytes : Bytes) (dec : Bool) (parity mismatch : Nat) : State :=
  answerData s c (readStatusCode dec) e.version (e.length + 2 ^ 32 * parity + 2 ^ 33 * mismatch)
    (if capFlag c.capsule 4 then sha384 bytes else sha256 bytes)

/-- FIXITY (R129): the value read whole and its digest returned; with PARITY every parity unit of its stripes compared, those that differ repaired. -/
def execFixity (cmd : Nat) (s : State) : Res :=
  keyRow cmd 0x19 s fun s c p =>
    match bucketGet s p.slice p.bucket with
    | none => .next s
    | some (b, s) =>
      let cap := c.capsule
      match entryOf b (capNsid cap) p with
      | none => .next (answer (dropFetches s c.index) c ST.notFound 0 0)
      | some e =>
        if capP2 cap ≠ 0 ∧ capP2 cap ≠ e.version then .next (answer (dropFetches s c.index) c ST.versionMismatch e.version 0)
        else
          let group := sliceGroup s p.slice
          let r := readObject s c.index group e p.hash 0 e.length
          let isOpen := s.pj.opens.any fun o => o.group == group && o.stripe == e.stripe
          objectEnd r.1 c group e 0 r.2 fun bytes dec reps =>
            let gen := genFor s group e.stripe
            match capFlag cap 5 && !isOpen, genOf s group gen with
            | true, some x =>
              let run := runStripes e.stripe (if e.length ≤ 65072 then 1 else largeRun x.k e.length)
              let q := parityRun c.index group gen x run r.1
              match q.2 with
              | .waits => .next q.1
              | .differ l =>
                let s := l.foldl (fun s _ => logCrew s EV.parityMismatch) (readDone q.1 c.index group dec reps)
                let s := l.foldl (fun s w => match w.2.2 with | some u => replaceUnit s group gen w.1 (w.2.1, u) | none => s) s
                .next (fixityReply s c e bytes dec 1 (b2n (!l.isEmpty)))
              | .other (.lost i st) => objectEnd q.1 c group e 0 (.lost i st) fun _ _ _ => .next q.1
              | .other .marked => objectEnd q.1 c group e 0 .marked fun _ _ _ => .next q.1
              | .other .noSet => .fault (.undefined219 4)
              | .other .unavailable => .next (sourcesMissing q.1 c)
              | .other .waits => .next q.1
              | .other (.ok _) => .next q.1
            | _, _ => .next (fixityReply (readDone r.1 c.index group dec reps) c e bytes dec 0 0)

/-! ### LIST (R116 to R119) -/

/-- The fingerprint of an entry (R155). -/
def entryPrint (x bucket b : Nat) (e : Entry) : Nat := x * 2 ^ 48 + bucket * 2 ^ (48 - b) + e.fpLow % 2 ^ (48 - b)

/-- The hold flags of an entry: its dated hold in force, its indefinite hold, a prefix hold on its key. -/
def holdFlags (s : State) (b : Bytes) (i nsid : Nat) (key : Bytes) : Nat :=
  let h := ((bkHoldOf b i).map (bkHold b)).getD ⟨0, 0, 0, 0⟩
  b2n (bitAt h.kind 1 && dateInForce s h.expiry) + 2 * b2n (bitAt h.kind 0) + 4 * b2n (!(prefixHolds s nsid key).isEmpty)

/-- A LIST entry (Table 03-9). -/
def listEntry (fprint version len flags : Nat) (key : Bytes) : Bytes :=
  le 8 fprint ++ le 8 version ++ le 4 len ++ le 2 flags ++ le 2 key.length ++ pad8 key

/-- How the keys of a bucket stand: some are awaited, sources are unavailable, a set does not exist, or the entries' bytes and number. -/
inductive ListStep where
  | waits
  | unavailable
  | noSet
  | entries (b : Bytes) (n : Nat)

/-- A key that cannot be read, which the spec gives no value: a free one. -/
def unreadKey (s : State) : Bytes × State :=
  let n := fresh s
  freshBytes n.2 (n.1 % 257)

/-- The entries of a namespace in a bucket from index `i` on, with their keys where they are needed (R116). -/
def listEntries (c : Cmd) (x bucket : Nat) (b : Bytes) (needKey : Bool) : List Nat → State → State × ListStep
  | [], s => (s, .entries [] 0)
  | i :: is, s =>
    let cap := c.capsule
    let e := bkEntry b i
    let fp := entryPrint x bucket (sliceB s x) e
    let r := if needKey then readObject s c.index (sliceGroup s x) e fp 0 0 else (s, .found ⟨0, 0, 0, 0, 0, 0, 0, 0, 0, 0, 0⟩ [] [] false [])
    let t := listEntries c x bucket b needKey is r.1
    let give := fun (s : State) (key : Bytes) (bs : Bytes) (n : Nat) =>
      let hit := key.take (capKeyLen cap) == capKey cap
      let shown := if capFlag cap 4 then key else []
      if hit || !(capFlag cap 4) then
        (s, ListStep.entries (listEntry fp e.version e.length (holdFlags s b i e.nsid key) shown ++ bs) (n + 1))
      else (s, ListStep.entries bs n)
    match r.2, t.2 with
    | .noSet, _ => (t.1, .noSet)
    | .waits, _ => (t.1, .waits)
    | .unavailable, _ => (t.1, .unavailable)
    | .found _ key _ _ _, .entries bs n => give t.1 key bs n
    | .lost _ st, .entries bs n =>
      let k := unreadKey (stripeLostNow t.1 (sliceGroup s x) (genFor s (sliceGroup s x) st) st)
      give k.2 k.1 bs n
    | .marked, .entries bs n => let k := unreadKey t.1; give k.2 k.1 bs n
    | .badHeader, .entries bs n => let k := unreadKey t.1; give k.2 k.1 bs n
    | .found _ _ _ _ _, q => (t.1, q)
    | .lost _ _, q => (t.1, q)
    | .marked, q => (t.1, q)
    | .badHeader, q => (t.1, q)

/-- The first bucket at or after a cursor in the slices this device acts for. -/
def cursorAt (s : State) (x bucket : Nat) : Option (Nat × Nat) :=
  let acting := fun y => sliceHeld s y && actsFor s y
  let from_ := fun n => (((List.range 65536).drop n).find? acting).map fun y => (y, 0)
  if acting x && decide (bucket < 2 ^ sliceB s x) then some (x, bucket) else from_ (x + 1)

/-- How a walk ends: it waits, sources are unavailable, a set does not exist, the first bucket does not fit, or entries with the next place. -/
inductive ListEnd where
  | waits
  | unavailable
  | noSet
  | tooLarge (len : Nat)
  | done (b : Bytes) (n : Nat) (next : Option (Nat × Nat))

/-- The walk of LIST over at most `fuel` buckets (R117). -/
def listWalk (c : Cmd) (limit : Nat) (needKey : Bool) : Nat → State → Option (Nat × Nat) → Bytes → Nat → State × ListEnd
  | _, s, none, acc, n => (s, .done acc n none)
  | 0, s, some q, acc, n => (s, .done acc n (some q))
  | fuel + 1, s, some (x, k), acc, n =>
    let cap := c.capsule
    if dirBusy s x k || (dirState s x k == 1 && (bucketNand s x k).isNone) then (s, .waits)
    else
      let b := bucketLook s x k
      let idx := (List.range (bkCount b)).filter fun i => (bkEntry b i).nsid == capNsid cap
      let r := listEntries c x k b needKey idx s
      match r.2 with
      | .waits => (r.1, .waits)
      | .unavailable => (r.1, .unavailable)
      | .noSet => (r.1, .noSet)
      | .entries bs m =>
        if m > 0 ∧ acc.length + bs.length > limit then
          if acc = [] then (r.1, .tooLarge bs.length) else (r.1, .done acc n (some (x, k)))
        else
          let next := cursorAt r.1 x (k + 1)
          if capP0 cap ≠ 0 ∧ n + m ≥ capP0 cap then (r.1, .done (acc ++ bs) (n + m) next)
          else listWalk c limit needKey fuel r.1 next (acc ++ bs) (n + m)

/-- LIST (R116 to R119). DESIGN CHOICE: CURSOR 0, the start of a walk, names no earlier view and is not compared with the present one (log entry 67). -/
def execList (cmd : Nat) (s : State) : Res :=
  onCmd s cmd 0x15 fun s c =>
    let cap := c.capsule
    let cur := capP1 cap
    let began := if c.asked = 0 then s.kv.view + 1 else c.asked
    let limit := max (if capFlag cap 0 then 4096 else 0) (capBufLen cap)
    let needKey := capFlag cap 4 || prefixHeld s (capNsid cap)
    let r := listWalk c limit needKey 4096 s (cursorAt s (cur % 65536) (bits cur 16 32)) [] 0
    let c := { c with asked := began }
    match r.2 with
    | .waits => .next (putCmd r.1 c)
    | .unavailable => .next (sourcesMissing (putCmd r.1 c) c)
    | .noSet => .fault (.undefined219 4)
    | .tooLarge len => .next (finish (dropFetches r.1 cmd) c (replyBytes cap ST.tooLarge 0 len 0 0 []))
    | .done b n next =>
      let s := dropFetches r.1 cmd
      let changed := began != s.kv.view + 1 || (cur != 0 && bits cur 48 16 != s.kv.view % 65536)
      let nextCur := match next with | some (x, k) => x + 2 ^ 16 * k + 2 ^ 48 * (s.kv.view % 65536) | none => 2 ^ 64 - 1
      .next (answerData s c ST.ok (n + 2 ^ 32 * b2n next.isNone + 2 ^ 33 * b2n changed) nextCur b)

/-! ### STAT and LIFE (R130 to R132) -/

/-- The object body of STAT (Table 03-10); CREATED and USER_WORD come from the header. -/
def statObject (s : State) (c : Cmd) (b : Bytes) (p : KeyPlace) (e : Entry) (created user : Nat) : Bytes :=
  let nsid := capNsid c.capsule
  let i := (bkFind b nsid (p.hash % 2 ^ 39) p.kc).getD 0
  let h := (keyHold b nsid p).getD ⟨0, 0, 0, 0⟩
  let flags := holdFlags s b i nsid (capKey c.capsule) + 8 * b2n (decide (e.length ≤ 65072))
  le 8 e.version ++ le 4 e.length ++ le 4 flags ++ le 8 created ++ le 8 (if bitAt h.kind 1 then h.expiry else 0) ++ le 8 user ++
    le 8 (e.stripe + e.unit)

/-- STAT of an object: the key stored with it is compared as every read of a seat compares it (R144). -/
def statKey (cmd : Nat) (s : State) : Res :=
  keyRow cmd 0x1A s fun s c p =>
    match bucketGet s p.slice p.bucket with
    | none => .next s
    | some (b, s) =>
      match entryOf b (capNsid c.capsule) p with
      | none => .next (answer (dropFetches s c.index) c ST.notFound 0 0)
      | some e =>
        let group := sliceGroup s p.slice
        let r := readObject s c.index group e p.hash 0 0
        let unread := fun (s : State) =>
          let a := fresh s
          let d := fresh a.2
          Host.Outcome.next (answerData (dropFetches d.2 c.index) c ST.ok 0 0 (statObject s c b p e a.1 d.1))
        match r.2 with
        | .waits => .next r.1
        | .unavailable => .next (sourcesMissing r.1 c)
        | .noSet => .fault (.undefined219 4)
        | .found h key _ dec reps =>
          let t := readDone r.1 c.index group dec reps
          if key = capKey c.capsule then .next (answerData t c ST.ok 0 0 (statObject r.1 c b p e h.created h.user))
          else .next (answer (logCrew t EV.keyAlias) c ST.notFound 0 0)
        | .badHeader => unread r.1
        | .marked => unread r.1
        | .lost _ st => unread (stripeLostNow r.1 group (genFor s group st) st)

/-- The namespace body of STAT (Table 03-11). DESIGN CHOICE: KEY_HOLDS counts the holds in force and PREFIX_HOLDS every prefix-hold record, since an expired one
stays until it is released (log entry 67). -/
def statNs (s : State) (n : Namespace) : Bytes :=
  let es := nsObjects s n.nsid
  let holds := (((heldSlices s).filter (actsFor s)).map fun x => ((bucketsOf s x).map fun k =>
    let b := bucketLook s x k
    ((bkHoldList b).filter fun h => (bkEntry b h.slot).nsid == n.nsid && !(holdOver s h)).length).sum).sum
  le 8 es.length ++ le 8 (es.map Entry.length).sum ++ le 8 n.quota ++ le 1 n.durability ++ [0] ++ le 2 (sealUsOf s n.nsid) ++
    le 4 (s.kv.holds.filter fun h => h.nsid == n.nsid).length ++ le 8 holds ++ zeros 8

/-- Progress of a rebuild in tenths of a percent. -/
def permille (done found : Nat) : Nat := if found = 0 then 1000 else min 1000 (done * 1000 / found)

/-- G_REBUILD: the lowest progress of a rebuild in the group (R284), 0 where none runs. -/
def groupRebuild (g : Group) : Nat :=
  let own := match g.rebuild with | some r => if r.running then [permille r.done r.found] else [] | none => []
  match own ++ g.rebuilding.map fun r => permille r.2.1 r.2.2 with
  | [] => 0
  | x :: xs => xs.foldl min x

/-- A group entry of the device body. -/
def statGroup (s : State) (i : Nat) (g : Group) : Bytes :=
  let x := writingSet s g.id
  le 1 i ++ le 1 g.gstate ++ le 1 g.seat ++ le 1 ((x.map GenSet.k).getD 0) ++ le 1 ((x.map GenSet.m).getD 0) ++ le 3 g.lost ++
    le 2 (groupRebuild g) ++ zeros 6

/-- The device body of STAT (Table 03-12). PROGRESS of SCAN and REPLAY and an unknown retention clock have no stated value. -/
def statDevice (s : State) : Bytes × State :=
  let f := fresh s
  let r := fresh f.2
  let acting := (heldSlices s).filter (actsFor s)
  let progress := if s.pwr.dev = 2 ∨ s.pwr.dev = 3 then f.1 % 1001 else 1000
  let ret := if s.kv.retention.isSome then predicted s else r.1
  let clocks := b2n (calendar s).isSome + 2 * b2n s.kv.retention.isSome + 4 * b2n (decide (acting.length = 65536))
  (le 8 Config.hull ++ le 1 s.pwr.dev ++ le 1 (powerCode s) ++ le 1 s.groups.length ++ [0] ++ le 2 progress ++ le 2 acting.length ++
    le 8 (activeEpoch s) ++ le 4 (opsec s) ++ le 4 (getF s F.AON_PCYCLES_COUNT) ++ le 8 (calendarOr0 s) ++ le 8 ret ++ le 1 clocks ++
    le 1 (lifePercent s) ++ zeros 2 ++ le 4 (getF s F.HTE_OUTSTANDING_COUNT) ++ le 4 (getF s F.HTE_SESSIONS_OPEN) ++ zeros 4 ++
    (((List.range s.groups.length).zip s.groups).map fun g => statGroup s g.1 g.2).flatten, r.2)

/-- STAT (R130): of an object, a namespace or the device. A key in namespace 0, which the access-rule search cannot tell from the device form, is refused by
crew firmware (R99). -/
def execStat (cmd : Nat) (s : State) : Res :=
  match cmdWith s cmd 0x1A with
  | none => .next s
  | some c0 =>
    if capKeyLen c0.capsule > 0 ∧ capNsid c0.capsule = 0 then onCmd s cmd 0x1A fun s c => .next (answer s c ST.notPermitted 0 0)
    else if capKeyLen c0.capsule > 0 then statKey cmd s
    else
      onCmd s cmd 0x1A fun s c =>
        if capNsid c.capsule = 0 then
          let d := statDevice s
          .next (answerData d.2 c ST.ok 0 0 d.1)
        else
          match nsOf s (capNsid c.capsule) with
          | some n => .next (answerData s c ST.ok 0 0 (statNs s n))
          | none => .next (answer s c ST.notPermitted 0 0)

/-- LIFE (R132). -/
def execLife (cmd : Nat) (s : State) : Res :=
  onCmd s cmd 0x1B fun s c =>
    let b := lifeBytes s
    .next (answer b.2 c ST.ok (lifePercent s + 256 * b2n (s.pwr.dev == 5)) b.1)

end Sys2Proof.Machine
end

