-- ==== Sys2Proof/Machine/Rebuild.lean ====
section
/-! DEFINITION. Rebuild (05, 07, 04): the return of a seat to its group, its reconciliation and rebuild, local repair, and the rebuild of an index
from the stripes. -/

namespace Sys2Proof.Machine

/-! ### INVENTORY lists -/

/-- An INVENTORY request of a seat (Table 07-4): target, mode 0 HELD or 1 KEPT, cursor. -/
def askInventory (s : State) (group seat target mode cursor : Nat) : State :=
  (peerRequest s (seatHull s group seat) { op := 0x90, group := group, arg0 := target + 256 * mode, arg1 := cursor } []).1

/-- The entries of an INVENTORY body. -/
def inventoryEntries (body : Bytes) : List (Nat × Nat × Nat × Nat) :=
  (List.range (body.length / 16)).map fun i => (fld body (16 * i) 8, fld body (16 * i + 8) 1, fld body (16 * i + 9) 1, fld body (16 * i + 10) 1)

/-- The weight of a stripe for a seat that lacks its own position: that one and those at seats gone (R259). -/
def lackWeight (s : State) (g : Group) (gen stripe own : Nat) : Nat :=
  (((List.range 20).zip (stripeSeats s g.id gen stripe)).filter fun q => q.1 == own || seatGone s g q.2).length

/-- An entry noted for the rebuild of this seat: stripes listed, OPEN seen, lost markers recorded, missing positions found. -/
def rebuildEntry (mode : Nat) (s : State) (group : Nat) (e : Nat × Nat × Nat × Nat) : State :=
  match groupRec s group with
  | none => s
  | some g =>
    match g.rebuild with
    | none => s
    | some r =>
      let stripe := unit0 e.1
      let gen := e.2.1
      let r := if mode = 1 then { r with listed := (stripe, gen) :: r.listed } else r
      let own := (stripeSeats s group gen stripe).findIdx? (· == g.seat)
      let kind := (holding s group stripe).kind
      match own with
      | none => putGroup s { g with rebuild := some r }
      | some pos =>
        if bitAt e.2.2.2 0 then
          let s := putGroup s { g with rebuild := some r }
          if kind = 3 then s else lostMarker (logCrew s EV.stripeLost) pos group stripe gen
        else if bitAt e.2.2.2 2 then putGroup s { g with rebuild := some { r with open_ := true } }
        else if (kind = 9 ∨ kind = 4) ∧ !(r.missing.any fun q => q.1 == stripe) then
          putGroup s { g with rebuild := some { r with missing := (stripe, pos, gen, lackWeight s g gen stripe pos) :: r.missing, found := r.found + 1 } }
        else putGroup s { g with rebuild := some r }

/-! ### The steps of Table 07-3 -/

/-- REBUILD_NOTICE to every other seat (R280, R284): 1 BEGUN, 2 ENDED, 3 CURRENT, 4 PROGRESS. -/
def rebuildNotice (s : State) (g : Group) (phase done found : Nat) : State :=
  tellHulls { op := 0x91, group := g.id, arg0 := g.seat + 256 * phase, arg1 := done % 2 ^ 32 + 2 ^ 32 * (found % 2 ^ 32) } [] (otherHulls s g) s

/-- A pass begins: INVENTORY in both modes to every other seat not marked lost (step 1). -/
def rebuildAsk (s : State) (group : Nat) (r : Rebuild) : State :=
  match groupRec s group with
  | none => s
  | some g =>
    let seats := (List.range (groupSeats s group)).filter fun t => t != g.seat && !(g.isLost t)
    let r := { r with asked := (seats.map fun t => [(t, 0), (t, 1)]).flatten, inventoried := [], listed := [], open_ := false, missing := [] }
    let s := putGroup s { g with rebuild := some r }
    seats.foldl (fun s t => askInventory (askInventory s group t g.seat 0 0) group t g.seat 1 0) s

/-- Fragments held of stripes that a keeper not marked lost does not list are freed (step 1); none while the ring has no room. -/
def freeUnlisted (s : State) (g : Group) (r : Rebuild) : Option State :=
  let gone := (heldStripes s g.id).filter fun e =>
    r.inventoried.contains (e.1 / 2 ^ 59) && !(r.listed.any fun l => l.1 == e.1)
  gone.foldl (fun s e => s.bind fun s => seatOutcome s g.id e.1 1 4) (some s)

/-- The serial ceiling of a replacement (R279): above every serial seen for its seat. -/
def replacementCeiling (s : State) (g : Group) (r : Rebuild) : State :=
  if g.ceiling ≠ 0 then s
  else
    let seen := (r.listed.filter fun l => l.1 / 2 ^ 59 == g.seat).map fun l => bits l.1 5 54
    let mirr := ((pjLive s).filter fun x => (rkKind x.2 == 1 || rkKind x.2 == 4) && rkGroup x.2 == g.id && rkIntent x.2 / 2 ^ 59 == g.seat).map fun x =>
      bits (rkIntent x.2) 5 54
    let h := (seen ++ mirr ++ g.seats.map SeatInfo.low).foldl max 0
    let c := alignUp (h + 1) (2 ^ 24) + 2 ^ 24
    match groupRec s g.id with
    | some g => putGroup s { g with ceiling := c, nextSerial := max g.nextSerial c }
    | none => s

/-- The device's own LOST bit cleared, as the receivers of BEGUN and CURRENT do. -/
def ownCurrent (g : Group) : Group := if g.ownLost then { g with lost := g.lost - 2 ^ g.seat, gserial := g.gserial + 1 } else g

/-- The state of a group as its rebuilds and lost seats give it (Table 05-7). -/
def rebuiltState (g : Group) : Nat :=
  if g.gstate = 1 ∨ g.gstate = 5 then g.gstate
  else if !g.rebuilding.isEmpty || (g.rebuild.any Rebuild.running) then 4
  else if g.lost = 0 then 2 else 3

/-- A pass's lists are complete (steps 2 and 5): what no keeper lists is freed; with nothing missing and nothing OPEN the seat is current, else it
rebuilds. Pass 0 stands for the reconciliation of R349, which ends with the freeing. -/
def rebuildDecide (s : State) (group : Nat) : State :=
  match groupRec s group with
  | none => s
  | some g =>
    match g.rebuild with
    | none => s
    | some r =>
      match freeUnlisted s g r with
      | none => s
      | some t =>
      if !r.asked.isEmpty then s
      else if r.pass = 0 then
        match groupRec t group with | some g => putGroup t { g with rebuild := none } | none => t
      else
        let s := replacementCeiling t g r
        let g := (groupRec s group).getD g
        let clean := r.missing.isEmpty && !r.open_
        if clean then
          let g := ownCurrent { g with rebuild := none }
          let s := rebuildNotice (putGroup s g) g (if r.running then 2 else 3) r.done r.found
          let s := if r.running then logCrew s EV.rebuildEnded else s
          settleAll (setGState s group (rebuiltState g))
        else if r.running then putGroup s { g with rebuild := some { r with pass := r.pass + 1 } }
        else
          let g := ownCurrent { g with rebuild := some { r with running := true, pass := 1, sentAt := s.now } }
          let s := logCrew (rebuildNotice (putGroup s g) g 1 r.done r.found) EV.rebuildBegun
          settleAll (setGState s group (rebuiltState g))

/-- A reply of INVENTORY for a rebuild of this seat: its entries noted, continued at its cursor, or complete. -/
def rebuildInventory (s : State) (group seat mode cursor : Nat) (body : Bytes) : State :=
  let s := (inventoryEntries body).foldl (fun s e => rebuildEntry mode s group e) s
  match groupRec s group with
  | none => s
  | some g =>
    match g.rebuild with
    | none => s
    | some r =>
      if cursor ≠ 2 ^ 64 - 1 then askInventory s group seat g.seat mode cursor
      else
        let r := { r with asked := r.asked.filter (· != (seat, mode)),
                          inventoried := if mode = 1 then seat :: r.inventoried else r.inventoried }
        rebuildDecide (putGroup s { g with rebuild := some r }) group

/-- The newest epoch that a seat of the group reports, with the seat. -/
def newestEpoch (g : Group) : Nat × Nat :=
  g.seats.foldl (fun a i => if i.seat ≠ g.seat ∧ i.epoch > a.1 then (i.epoch, i.seat) else a) (0, 0)

/-- A rig fetch of block `b` of the container of an epoch from a seat (R303). -/
def rigFetch (s : State) (group seat epoch b : Nat) : State :=
  (peerRequest s (seatHull s group seat) { op := 0x82, stripe := b, pos := 0xFF, arg1 := epoch } []).1

/-- R211 once its joins are answered: the group leaves FORMING into the state kept pending. -/
def returnDone (s : State) (g : Group) : State :=
  let g := { g with returning := false, keptState := none }
  setGState (putGroup s g) g.id ((((groupRec s g.id).bind Group.keptState)).getD 3)

/-- REBUILD_START (R211, R280): a device that returns to its seat or takes it up adopts the newer epoch by a rig fetch, has resolved its own
intents, sends JOIN to every device of the rig, leaves FORMING once those not marked lost have answered (log entry 19), and begins its first INVENTORY. -/
def execRebuildStart (group : Nat) (s : State) : Res := whileCore s fun s =>
  match groupRec s group with
  | none => .next s
  | some g =>
    if !g.ownLost || g.rebuild.isSome || !(s.pwr.dev == 4) then .next s
    else
      let e := newestEpoch g
      if e.1 > activeEpoch s then
        if s.hte.requests.any fun r => r.op == 0x82 && fld r.msg 4 4 == 0 && fld r.msg 24 1 == 0xFF then .next s
        else .next (rigFetch s group e.2 e.1 0)
      else if s.pj.intents.any fun i => i.resolving && i.group == group then .next s
      else if g.returning then
        let sent := s.hte.requests.any fun r => r.op == 0x87
        let joins := if sent then g.joins.filter fun h => !(lostSomewhere s h) else awaitedPeers s
        let s := putGroup s { g with joins := joins }
        let s := if sent then s
          else (adminPeers s).foldl (fun s h => (peerRequest s h { op := 0x87, group := group, arg0 := Config.hull } []).1) s
        .next (if joins.isEmpty then rebuildAsk (returnDone s { g with joins := [] }) group ⟨1, false, [], 0, 0, false, [], [], [], 0, s.now⟩ else s)
      else
        let s := rebuildAsk s group ⟨1, false, [], 0, 0, false, [], [], [], 0, s.now⟩
        .next (rebuildDecide s group)

/-- A JOIN answered: once all are, R211 is complete and the first INVENTORY goes out. -/
def joinAnswered (s : State) (hull : Nat) : State :=
  (s.groups.filter fun g => g.returning && g.joins.contains hull).foldl (fun s g =>
    match groupRec s g.id with
    | none => s
    | some g =>
      let g := { g with joins := g.joins.filter (· != hull) }
      let s := putGroup s g
      if g.joins.isEmpty then
        rebuildDecide (rebuildAsk (returnDone s g) g.id ⟨1, false, [], 0, 0, false, [], [], [], 0, s.now⟩) g.id
      else s) s

/-! ### Rebuilding positions (R280 step 3, R282) -/

/-- The missing position that comes first: the greatest weight, then keeper seat, then serial, under the pattern of now (R282). -/
def nextMissing (s : State) (g : Group) (l : List (Nat × Nat × Nat × Nat)) : Option (Nat × Nat × Nat × Nat) :=
  let l := l.map fun q => (q.1, q.2.1, q.2.2.1, lackWeight s g q.2.2.1 q.1 q.2.1)
  l.foldl (fun a q => match a with
    | none => some q
    | some b => if q.2.2.2 > b.2.2.2 ∨ (q.2.2.2 = b.2.2.2 ∧ q.1 < b.1) then some q else some b) none

/-- A position of this seat made again from the units of its stripe and programmed: none while it waits or there is no room, else whether it was. -/
def remake (s : State) (user group stripe pos gen : Nat) : Host.Outcome (State × Option Bool) Fault Refusal :=
  match genOf s group gen with
  | none => .fault (.undefined219 4)
  | some x =>
    let r := readStripe s user group gen stripe (List.range x.k)
    match r.2 with
    | .waits => .next (r.1, none)
    | .noSet => .fault (.undefined219 4)
    | .unavailable => .next (dropFetches r.1 user, some false)
    | .marked => .next (lostMarker (dropFetches r.1 user) pos group stripe gen, some false)
    | .dataLost => .next (stripeLostNow (dropFetches r.1 user) group gen stripe, some false)
    | .integrity => .next (stripeLostNow (logCrew (dropFetches r.1 user) EV.integrityFailed) group gen stripe, some false)
    | .units d _ _ =>
      let unit := if pos < x.k then (d[pos]?).getD [] else parityUnit x 65536 (pos - x.k) d
      if pos < x.k ∧ allZero unit = true then .next (addNote (dropFetches r.1 user) 2 pos group stripe 1, some true)
      else
        match programFrag r.1 none ⟨group, stripe, pos, 0, 0, 0, 0, crc32c unit, gen, x.k, x.m⟩ unit with
        | none => .next (r.1, none)
        | some s => .next (dropFetches s user, some true)

/-- The rate in MB/s of the next unit that a group's rebuild or local repair makes (R283): the measured one, at its greatest for a stripe of weight m; before
the first sample no load is known and the rate is that of none (log entry 72). -/
def repairRate (s : State) (g : Group) (gen weight : Nat) : Nat :=
  let set := s.media.settings
  match genOf s g.id gen with
  | some x => if weight ≥ x.m then set.rebuildMax
    else (g.rebuild.map Rebuild.rate).getD ((kvGet s.media.repairRates g.id).getD (max set.rebuildMin set.rebuildMax))
  | none => set.rebuildMax

/-- A unit rebuilt or repaired takes its time at the rate of R283, which all work on the seat shares: the next one begins no earlier. -/
def repairSpent (s : State) (rate : Nat) : State :=
  { s with media := { s.media with repairAt := s.now + 65536 * 1000 / max rate 1 } }

/-- REBUILD_POSITION (R280 steps 3 to 5): the next missing position of a running rebuild; where none is left, the next pass takes INVENTORY again. -/
def execRebuildPosition (group : Nat) (s : State) : Res := whileCore s fun s =>
  match groupRec s group with
  | none => .next s
  | some g =>
    match g.rebuild with
    | none => .next s
    | some r =>
      if !r.running || !r.asked.isEmpty then .next s
      else
        match nextMissing s g r.missing with
        | none => .next (rebuildDecide (rebuildAsk s group r) group)
        | some q =>
          match remake (reach s s.media.repairAt) (crewUser s 1 group) group q.1 q.2.1 q.2.2.1 with
          | .fault f => .fault f
          | .refused f => .refused f
          | .next (s, none) => .next s
          | .next (s, some ok) =>
            let s := if ok then repairSpent s (repairRate s g q.2.2.1 q.2.2.2) else s
            match groupRec s group with
            | none => .next s
            | some g => .next (putGroup s { g with rebuild := g.rebuild.map fun r =>
                { r with missing := r.missing.filter (fun p => p.1 != q.1), done := r.done + b2n ok } })

/-- The bytes the powered data ports carry in both directions in 100 ms (R283, Table 16-1). -/
def portBytes100ms (s : State) : Nat :=
  let rate := fun f => match getF s f with | 0 => 400 | 1 => 200 | _ => 100
  let gbit := if domainOn s .lanes then rate F.MACA_MODE_RATE + rate F.MACB_MODE_RATE else if domainOn s .lane0 then 100 else 0
  gbit * 25000000

/-- REBUILD_RATE_SAMPLE (R283): every 100 ms, from the host-session bytes of the data ports in that time. -/
def execRebuildRateSample (group hostBytes : Nat) (s : State) : Res := whileCore s fun s =>
  let set := s.media.settings
  if set.rebuildMin > set.rebuildMax then .fault (.undefined287 1)
  else
    match groupRec s group with
    | none => .next s
    | some g =>
      let cap := portBytes100ms s
      let free := if cap = 0 then 0 else set.rebuildMax * (cap - hostBytes) / cap
      let rate := max set.rebuildMin free
      let s := { s with media := { s.media with repairRates := kvPut s.media.repairRates group rate } }
      .next (putGroup s { g with rebuild := g.rebuild.map fun r => { r with rate := rate } })

/-- REBUILD_PROGRESS_TIMER (R284): every 10 s of a rebuild. -/
def execRebuildProgressTimer (group : Nat) (s : State) : Res := whileCore s fun s =>
  match groupRec s group with
  | none => .next s
  | some g =>
    match g.rebuild with
    | none => .next s
    | some r =>
      if !r.running then .next s
      else
        let s := reach s (r.sentAt + 10 * sec)
        .next (rebuildNotice (putGroup s { g with rebuild := some { r with sentAt := s.now } }) g 4 r.done r.found)

/-! ### Local repair (R265, R266) -/

/-- The generator set of a fragment this seat has recorded missing: its own GEN_ID where the map still has it, that of its stripe otherwise. -/
def fragGen (s : State) (f : FragItem) : Nat := if f.k = 0 then genFor s f.group f.stripe else f.genId

/-- The end of a local repair, once no fragment is missing any more (R266). -/
def repairEnds (s : State) : State :=
  if s.media.repaired = 0 ∨ (s.media.frags.any fun f => f.kind == 4) = true then s
  else { logCrew s EV.fragmentRepaired with media := { s.media with repaired := 0 } }

/-- LOCAL_REPAIR (R266, R282, R283): the missing fragment of a group that comes first is made again and programmed. EV_FRAGMENT_REPAIRED is recorded once
per 65,536 fragments and once at the end, which a last fragment found lost also is. -/
def execLocalRepair (group : Nat) (s : State) : Res := whileCore s fun s =>
  match groupRec s group with
  | none => .next s
  | some g =>
    let miss := (s.media.frags.filter fun f => f.group == group && f.kind == 4).map fun f => (f.stripe, f.pos, fragGen s f, 0)
    match nextMissing s g miss with
    | none => .next s
    | some q =>
      match remake (reach s s.media.repairAt) (crewUser s 2 group) group q.1 q.2.1 q.2.2.1 with
      | .fault f => .fault f
      | .refused f => .refused f
      | .next (s, none) => .next s
      | .next (s, some false) => .next (repairEnds s)
      | .next (s, some true) =>
        let n := s.media.repaired + 1
        let s := repairSpent { s with media := { s.media with repaired := n } } (repairRate s g q.2.2.1 q.2.2.2)
        .next (repairEnds (if n % 65536 = 0 then logCrew s EV.fragmentRepaired else s))

/-! ### Rebuilding an index from the stripes (R174, R175) -/

/-- An index rebuild replaced. -/
def putIndexRebuild (s : State) (r : IndexRebuild) : State :=
  { s with kv := { s.kv with rebuilds := s.kv.rebuilds.map fun q => if q.group = r.group then r else q } }

/-- An index rebuild begins (step 1): the slices' old buckets are given up, their writes refused, every seat asked what it holds. -/
def indexRebuildBegin (s : State) (group : Nat) (slices : List Nat) : State :=
  let slices := slices.filter fun x => sliceHeld s x && sliceGroup s x == group && !((sliceRec s x).any fun r => r.redo)
  let s := slices.foldl (fun s x => renewSlice s x (sliceB s x)) s
  let seats := match groupRec s group with
    | some g => (List.range (groupSeats s group)).filter fun t => t != g.seat && !(g.isLost t)
    | none => []
  let r : IndexRebuild := ⟨group, slices, seats, heldStripes s group, []⟩
  seats.foldl (fun s t => askInventory s group t t 0 0) { s with kv := { s.kv with rebuilds := r :: s.kv.rebuilds.filter fun q => q.group != group } }

/-- A reply of INVENTORY for an index rebuild. -/
def indexInventory (s : State) (r : IndexRebuild) (seat cursor : Nat) (body : Bytes) : State :=
  let new := ((inventoryEntries body).map fun e => (unit0 e.1, e.2.1)).filter fun e => !(r.left.any fun l => l.1 == e.1)
  let r := { r with left := r.left ++ new }
  if cursor ≠ 2 ^ 64 - 1 then askInventory (putIndexRebuild s r) r.group seat seat 0 cursor
  else putIndexRebuild s { r with asked := r.asked.filter (· != seat) }

/-- The records of a stripe that a rebuild of slices keeps, each as its stripe with unit and its header and key; clear units are left out (steps 2
and 3). -/
def keptRecords (s : State) (slices : List Nat) (stripe : Nat) (data : List Bytes) : List (Nat × Bytes) :=
  ((List.range data.length).map fun u =>
    let b := (data[u]?).getD []
    if !(bitAt (fld b 5 1) 0) then []
    else
      match openUnit s b with
      | none => []
      | some p => ((recordsOf p (fld b 40 2)).filter fun r => slices.contains (hashSlice r.2.1.fprint)).map fun r => (stripe + u, slice p r.1 384)).flatten

/-- A record that a rebuild kept: its header where it reads, its key. -/
def keptHeader (r : Nat × Bytes) : RecHdr := (readRecHeader (r.2.take 128)).getD ⟨0, 0, 0, 0, 0, 0, 0, 0, 0, 0, 0⟩

/-- Two records are of the same key: namespace and full key (step 4). -/
def sameKey (a b : Nat × Bytes) : Bool :=
  (keptHeader a).nsid == (keptHeader b).nsid && recKey (keptHeader a) a.2 == recKey (keptHeader b) b.2

/-- The index entry and hold of a key written from its records (steps 4 to 6). -/
def indexKeyChanges (s : State) (recs : List (Nat × Bytes)) (top : Nat × Bytes) : List Bytes :=
  let h := keptHeader top
  let p := keyPlace s h.nsid (recKey h top.2)
  let e := entryAt h.nsid p (unit0 top.1) (top.1 % 32) h.length h.version
  if h.kind ≠ 1 then [removeChange p e h.version]
  else
    let holds := recs.filter fun r => sameKey r top && (keptHeader r).version == h.version && decide (3 ≤ (keptHeader r).kind) && decide ((keptHeader r).kind ≤ 5)
    let expiry := ((holds.filter fun r => (keptHeader r).kind == 3).map fun r => (keptHeader r).expiry).foldl max 0
    let last := (holds.filter fun r => (keptHeader r).kind ≥ 4).foldl (fun a r => if (keptHeader r).holdSerial ≥ a.1 then ((keptHeader r).holdSerial, (keptHeader r).kind) else a) (0, 5)
    let serial := (holds.map fun r => (keptHeader r).holdSerial).foldl max 0
    let kind := b2n (last.2 == 4) + 2 * b2n (expiry != 0)
    changeBytes 1 0 p.slice p.bucket (entryBytes e) (entrySlotWord e) 0 0 h.version ::
      (if kind = 0 then [] else [changeBytes 3 kind p.slice p.bucket (entryBytes e) (entrySlotWord e) serial expiry h.version])

/-- Two kept records of different keys that the index cannot tell apart (R143, R175). -/
def aliases (s : State) (a b : Nat × Bytes) : Bool :=
  let x := keptHeader a
  let y := keptHeader b
  !(sameKey a b) && x.nsid == y.nsid && x.fprint == y.fprint && keyCheck s x.nsid (recKey x a.2) == keyCheck s y.nsid (recKey y b.2)

/-- An index rebuild ends (steps 4 to 6): for each key the OBJECT or REMOVAL record of the highest version decides; what the slices' buckets have to hold is
settled, and is written as far as there is room. -/
def indexRebuildEnd (s : State) (r : IndexRebuild) : State :=
  let main := r.recs.filter fun q => (keptHeader q).kind == 1 || (keptHeader q).kind == 2
  let tops := main.filter fun q => main.all fun o => !(sameKey o q) || decide ((keptHeader o).version < (keptHeader q).version) ||
    ((keptHeader o).version == (keptHeader q).version && decide (q.1 ≤ o.1))
  let low := fun q => tops.any fun o => aliases s q o && decide ((keptHeader o).version > (keptHeader q).version)
  let s := (tops.filter low).foldl (fun s _ => logCrew s EV.keyAlias) s
  let chs := ((tops.filter fun q => !(low q)).map fun q => indexKeyChanges s r.recs q).flatten
  let s := r.slices.foldl (fun s x =>
    let serial := ((r.recs.filter fun q => hashSlice (keptHeader q).fprint == x).map fun q => (keptHeader q).holdSerial).foldl max 0
    match sliceRec s x with
    | some y => putSlice s { y with refill := chs.filter (fun c => chSlice c == x), redo := true, holdSerial := serial }
    | none => s) s
  settleAll { s with kv := { s.kv with rebuilds := s.kv.rebuilds.filter fun q => q.group != r.group } }

/-- INDEX_REBUILD_FROM_STRIPES (R174, R175): begins for a set of slices, then reads one stripe of those listed, and ends with the last. -/
def execIndexRebuildFromStripes (group : Nat) (slices : List Nat) (s : State) : Res := whileCore s fun s =>
  match s.kv.rebuilds.find? fun r => r.group == group with
  | none => if (groupRec s group).isNone then .next s else .next (indexRebuildBegin s group slices)
  | some r =>
    match r.left with
    | [] => if r.asked.isEmpty then .next (indexRebuildEnd s r) else .next s
    | (stripe, gen) :: rest =>
      match genOf s group gen with
      | none => .fault (.undefined219 4)
      | some x =>
        let user := crewUser s 3 group
        let q := readStripe s user group gen stripe (List.range x.k)
        match q.2 with
        | .waits => .next q.1
        | .unavailable => .next (dropFetches q.1 user)
        | .noSet => .fault (.undefined219 4)
        | .marked => .next (putIndexRebuild (dropFetches q.1 user) { r with left := rest })
        | .dataLost => .next (putIndexRebuild (stripeLostNow (dropFetches q.1 user) group gen stripe) { r with left := rest })
        | .integrity => .next (putIndexRebuild (stripeLostNow (logCrew (dropFetches q.1 user) EV.integrityFailed) group gen stripe) { r with left := rest })
        | .units d _ _ => .next (putIndexRebuild (dropFetches q.1 user) { r with left := rest, recs := r.recs ++ keptRecords s r.slices stripe d })

end Sys2Proof.Machine
end

