-- ==== Sys2Proof/Machine/Media.lean ====
section
/-! DEFINITION. Media management (09): heaps, collection and migration, failed programs, retirement, failed LUNs, notes, the sweep, read retry,
checkpoints, the scans, full media; and the end of a NAND operation with what crew firmware notes of it (10). Programs that crew firmware makes
in these rows take place within the row (log entry 40). -/

namespace Sys2Proof.Machine

/-! ### Free-pool heaps (R321 to R324) -/

/-- The answer of a heap operation on a core's port: a failed one reads 0 and changes nothing (R323). -/
def heapAnswer (s : State) (core heap : Nat) (r : Option State) (ret : Option (Nat × Nat)) : State :=
  let show_ := fun (s : State) (fail : Nat) (v : Nat × Nat) =>
    let s := setF (setF s (F.FPH_STAT_FAIL core) fail) (F.FPH_STAT_COUNT core) (heapOf s heap).length
    setF (setF s (F.FPH_RES_KEY core) v.1) (F.FPH_RES_VALUE core) v.2
  match r with
  | none => show_ s 1 (0, 0)
  | some t => show_ t 0 (ret.getD (getF s (F.FPH_RES_KEY core), getF s (F.FPH_RES_VALUE core)))

/-- A block set may be pushed on its LUN's heap: FREE, erased and not there yet (R361). -/
def pushOk (s : State) (heap value : Nat) : Bool :=
  decide (heap ≥ 1024) || (btState s value == 1 && (blockStrides s value).isEmpty && !((heapOf s heap).any fun e => e.2 == value))

/-- FPH_CMD PUSH of FPH_ARG (R323). -/
def execFphPush (core heap : Nat) (s : State) : Res :=
  coreStore s core (F.FPH_CMD_OP core).addr fun s =>
    let v := getF s (F.FPH_ARG_VALUE core)
    match heapPush s heap (getF s (F.FPH_ARG_KEY core)) v with
    | none => .next (heapAnswer s core heap none none)
    | some t => if pushOk s heap v then .next (heapAnswer s core heap (some t) none) else .fault (.undefined361 2)

/-- FPH_CMD POP (R323). -/
def execFphPop (core heap : Nat) (s : State) : Res :=
  coreStore s core (F.FPH_CMD_OP core).addr fun s =>
    let r := heapPop s heap
    .next (heapAnswer s core heap (r.map Prod.snd) (r.map Prod.fst))

/-- FPH_CMD PEEK (R323). -/
def execFphPeek (core heap : Nat) (s : State) : Res :=
  coreStore s core (F.FPH_CMD_OP core).addr fun s =>
    let r := heapPop s heap
    .next (heapAnswer s core heap (r.map fun _ => s) (r.map Prod.fst))

/-- FPH_CMD CLEAR (R323). -/
def execFphClear (core heap : Nat) (s : State) : Res :=
  coreStore s core (F.FPH_CMD_OP core).addr fun s =>
    .next (heapAnswer s core heap (if flag s (F.FPH_HEAP_VALID heap) then some (putHeap s heap []) else none) none)

/-! ### Spares, retirement, failed LUNs (R350 to R353) -/

/-- READ_ONLY for a reason; a device that is still starting enters it as it leaves REPLAY (R222, R245, R353). -/
def readOnlyFor (s : State) (reason : Nat) : State :=
  if s.pwr.dev = 4 ∨ s.pwr.dev = 5 then enterReadOnly s reason else { s with media := { s.media with readOnly := some reason } }

/-- SP after a retirement or a LUN failure: EV_SPARES_LOW once, READ_ONLY at 0 (R352, R353). -/
def sparesCheck (s : State) : State :=
  match s.media.format with
  | none => s
  | some f =>
    let sp := spareSets s
    let s := if !s.media.sparesLow && decide (10 * sp < f.sp0) then logCrew { s with media := { s.media with sparesLow := true } } EV.sparesLow else s
    if sp ≤ 0 ∧ s.media.readOnly ≠ some 1 then readOnlyFor s 1 else s

/-- A block set no longer a victim. -/
def dropVictim (s : State) (b : Nat) : State := { s with media := { s.media with victims := s.media.victims.filter fun v => v.1 != b } }

/-- A block set enters the retired skip list (R334, R350). -/
def retireBlock (s : State) (b : Nat) : State :=
  let s := dropVictim (dropOpen { s with media := { s.media with retired := b :: s.media.retired.filter (· != b) } } b) b
  sparesCheck (logCrew (btSet s b 0 1 5) EV.blockRetired)

/-- Fragments found missing (R265): EV_FRAGMENT_MISSING once for the LUN or page that held them, and the recoveries of their groups are re-planned. -/
def foundMissing (s : State) (fs : List FragItem) : State :=
  if fs.isEmpty then s else ((fs.map FragItem.group).eraseDups).foldl replan (logCrew s EV.fragmentMissing)

/-- A LUN declared failed (R351): its skip-list entry, its block sets UNUSED, its fragments missing (R332), its buckets no longer read. -/
def lunFail (s : State) (l : Nat) : State :=
  let on := fun b => bsnLun b == l
  let fs := s.media.frags.filter fun f => f.kind == 0 && on f.bsn
  let s := fs.foldl (fun s f => addNote s 4 f.pos f.group f.stripe 1) (foundMissing s fs)
  let m := s.media
  let s := { s with media := { m with
    failed := l :: m.failed.filter (· != l),
    opens := m.opens.filter fun o => o.1 != l,
    victims := m.victims.filter fun v => !(on v.1),
    collecting := m.collecting.filter (· != l),
    notes := m.notes.map fun n => { n with places := n.places.filter fun p => !(on p.1) },
    buckets := m.buckets.filter fun b => !(on b.bsn) } }
  let s := (lunBsns l).foldl (fun s b => btSet s b 0 1 0) (putHeap s l [])
  sparesCheck (logCrew s EV.lunFailed)

/-- The block sets of a LUN that have been retired. -/
def lunRetired (s : State) (l : Nat) : Nat := (s.media.retired.filter fun b => bsnLun b == l).length

/-- LUN_DECLARE_FAILED (R351): it stops answering, a quarter of its block sets are retired, or it has eight erase failures within 24 hours. -/
def execLunDeclareFailed (lun : Nat) (s : State) : Res := whileCore s fun s =>
  let recent := s.media.eraseFails.filter fun e => e.1 == lun && decide (s.now ≤ e.2 + 86400 * sec)
  let dead := flag s (F.FC_LUN_STATUS_DEAD (lun / 32) (lun % 32)) && s.fc.reviveFailed.contains lun
  if lunUsed s lun && (dead || decide (4 * lunRetired s lun ≥ 504) || decide (recent.length ≥ 8)) then .next (lunFail s lun) else .next s

/-! ### Copies and victims (R338 to R342) -/

/-- The planes of a stride as they are written again: same identity and bytes, a new WSEQ, flags given, native mode. -/
def replane (s : State) (x : Stride) (flags : Nat → Nat) (w b : Nat) : List (Bytes × Bytes) :=
  (List.range 4).map fun q =>
    let p := (x.planes[q]?).getD ([], [])
    match readHead p.2 with
    | some h => (p.1, headBytes { h with wseq := w, flags := flags h.flags, wear := btWear s b } q)
    | none => p

/-- A stride copied into the copy stream of a LUN with COPY set (R341). -/
def copyStride (s : State) (l : Nat) (x : Stride) : Option ((Nat × Nat × Nat) × State) :=
  placeStride s l 1 (replane s x fun f => f / 4 * 4 + 2)

/-- A block set that received a copy of a victim's item. -/
def noteTarget (s : State) (v t : Nat) : State :=
  let ts := ((s.media.victims.find? fun x => x.1 == v).map Prod.snd).getD []
  { s with media := { s.media with victims := (v, if ts.contains t then ts else t :: ts) :: s.media.victims.filter fun x => x.1 != v } }

/-- A live fragment of a victim copied; the state is unchanged where there is no room. -/
def copyFrag (v l : Nat) (s : State) (f : FragItem) : State :=
  match strideAt s f.bsn f.page with
  | none => s
  | some x =>
    match programFrag s (some l) f (strideBytes x) with
    | none => s
    | some s =>
      match fragOf s f.group f.stripe with
      | some g => noteTarget s v g.bsn
      | none => s

/-- A live bucket page of a victim copied. -/
def copyBucket (v l : Nat) (s : State) (i : BucketItem) : State :=
  match strideAt s i.bsn i.page with
  | none => s
  | some x =>
    match copyStride s l x with
    | none => s
    | some ((b, p, w), s) => noteTarget (putBucketItem s { i with bsn := b, page := p, seq := w }) v b

/-- A checkpoint stride of a victim copied. -/
def copyCkpt (v l : Nat) (s : State) (p : Nat × Nat) : State :=
  match strideAt s p.1 p.2, s.media.ckpt with
  | some x, some c =>
    match copyStride s l x with
    | none => s
    | some ((b, q, _), s) =>
      let c := { c with places := (b, q) :: c.places.filter (· != p) }
      noteTarget (btLive (btLive { s with media := { s.media with ckpt := some c } } b true) p.1 false) v b
  | _, _ => s

/-- A note still decides the state of its identity. -/
def noteDecides (s : State) (n : NoteRec) : Bool :=
  decide (2 ≤ n.kind) && decide (n.kind ≤ 4) &&
    (match fragOf s n.group n.ident with | some f => f.kind == n.kind && f.seq == n.seq | none => false)

/-- Collection may drop a note from a victim (R335): it decides no state, and every block set other than the victim whose FIRST_SEQ is below its
NSEQ is FREE, RETIRED or UNUSED. -/
def noteDroppable (s : State) (v : Nat) (n : NoteRec) : Bool :=
  !(noteDecides s n) && !((usedBsns s).any fun b => b != v && decide (2 ≤ btState s b) && decide (btState s b ≤ 4) && decide (btFirst s b < n.seq))

/-- The places of notes changed: `f` on those that lie at a stride; notes left without a place are gone. -/
def moveNotes (s : State) (p : Nat × Nat) (f : NoteRec → List (Nat × Nat) → List (Nat × Nat)) : State :=
  let at_ := fun (n : NoteRec) => n.places.contains p
  let notes := s.media.notes.map fun n => if at_ n then (true, { n with places := f n (n.places.filter (· != p)) }) else (false, n)
  { s with media := { s.media with notes := (notes.filter fun n => !(n.1 && n.2.places.isEmpty)).map Prod.snd } }

/-- A NOTE stride of a victim: notes that may be dropped leave it, the others move with their NSEQ (R335). -/
def copyNotes (v l : Nat) (s : State) (p : Nat × Nat) : State :=
  let here := s.media.notes.filter fun n => n.places.contains p
  let keep := here.filter fun n => !(noteDroppable s v n)
  if keep.isEmpty then btLive (moveNotes s p fun _ ps => ps) v false
  else
    let body := (keep.map noteBytes).flatten
    match placeStride s l 1 fun w b => itemPlanes ⟨4, 2, w, 0, 0, 0, 0, 0, 0, 0, btWear s b, 0⟩ body with
    | none => s
    | some ((b, q, _), s) =>
      let kept := keep.map NoteRec.seq
      let s := moveNotes s p fun n ps => if kept.contains n.seq then (b, q) :: ps else ps
      noteTarget (btLive (btLive s b true) v false) v b

/-- The live items of a victim copied into its LUN's copy stream as far as there is room (R341). -/
def copyVictim (s : State) (v : Nat) : State :=
  let l := bsnLun v
  let s := (s.media.frags.filter fun f => f.kind == 0 && f.bsn == v).foldl (copyFrag v l) s
  let s := (s.media.buckets.filter fun i => i.bsn == v).foldl (copyBucket v l) s
  let s := ((((s.media.notes.map NoteRec.places).flatten).filter fun p => p.1 == v).eraseDups).foldl (copyNotes v l) s
  ((((s.media.ckpt.map Ckpt.places).getD []).filter fun p => p.1 == v)).foldl (copyCkpt v l) s

/-- A read of a block set is in progress. -/
def readsBlock (s : State) (b : Nat) : Bool := s.fc.ops.any fun o => (o.op == 0x40 || o.op == 0x43) && fcBsn o.chan o.entry == b

/-- R342 holds for a victim: nothing live, its copies in block sets that have closed, no read of it. -/
def victimReady (s : State) (v : Nat × List Nat) : Bool :=
  btValid s v.1 == 0 && v.2.all (fun t => btState s t != 2) && !(readsBlock s v.1)

/-- An erased block set becomes FREE: WEAR grows by 4 or 1, and it is pushed to its heap (Table 09-3, R344). -/
def freeBlock (s : State) (b : Nat) : State :=
  let wear := btWear s b + (if btFlag s b 0 then 1 else 4)
  let s := btSet (btSet (btSet (btSet (btSet (btSet (btSet (dropVictim s b) b 4 4 wear) b 1 1 0) b 2 2 0xFFFF) b 8 4 0) b 12 4 0) b 16 8 0) b 0 1 1
  (heapPush s (bsnLun b) wear b).getD s

/-- An erase that failed: the block set is retired and the failure noted (R350, R351). -/
def eraseFailed (s : State) (b : Nat) : State :=
  retireBlock { s with media := { s.media with eraseFails := (bsnLun b, s.now) :: s.media.eraseFails } } b

/-- The first victim among some for which R342 holds erased, or retired without erase. -/
def reapVictim (s : State) (sel : Nat → Bool) (fail : Bool) : State :=
  match s.media.victims.find? fun v => sel v.1 && victimReady s v with
  | none => s
  | some v =>
    let b := v.1
    let l := bsnLun b
    if btFlag s b 3 then retireBlock s b
    else
      let s := countF (countF s (F.FC_CNT_ERASE_COUNT (l / 32)) 1) (F.FC_LUN_CNT_ERASE_COUNT (l / 32) (l % 32)) 1
      if fail then eraseFailed (spoilAll (blockStrides s b) s) b else freeBlock (nandErase s b) b

/-- The data strides programmed in a block set. -/
def dataCount (s : State) (b : Nat) : Nat :=
  ((blockStrides s b).filter fun x => match strideHeads x with | some (h :: _) => h.kind != 6 | _ => true).length

/-- The block set of a list with the least value of a measure. -/
def leastBy (f : Nat → Nat) (l : List Nat) : Option Nat :=
  l.foldl (fun a b => match a with | none => some b | some c => if f b < f c then some b else some c) none

/-- A block set is flagged NO_SUMMARY, RETIRE_AFTER or REFRESH. -/
def collectFlag (s : State) (b : Nat) : Bool := btFlag s b 2 || btFlag s b 3 || btFlag s b 4

/-- The victim of a LUN under R340. -/
def pickVictim (s : State) (l : Nat) (low : Bool) : Option Nat :=
  let closed := (lunBsns l).filter fun b => btState s b == 3
  match leastBy (btFirst s) (closed.filter (collectFlag s)) with
  | some b => some b
  | none =>
    let native := (closed.filter fun b => !(btFlag s b 0))
    match leastBy (fun b => btValid s b * 2 ^ 64 + btFirst s b) native with
    | some b => if low && btValid s b != dataCount s b then some b else none
    | none => none

/-- A block set becomes a victim and its live items are copied. -/
def takeVictim (s : State) (b : Nat) : State :=
  copyVictim (btSet { s with media := { s.media with victims := (b, []) :: s.media.victims } } b 0 1 4) b

/-- The copy stream of a LUN stops: its OPEN block set closes early (Table 09-3). -/
def stopCopies (s : State) (l : Nat) : State :=
  match openOf s l 1 with
  | some b => if btWritten s b = 0 then s else closeBlock s b
  | none => s

/-- COLLECTION on a LUN (R339 to R342): a victim begun goes on, else the next is chosen; with none to take, the copy stream stops; one victim for
which R342 holds is erased, `eraseFail` 1 saying that the erase fails, or retired. -/
def execCollection (lun eraseFail : Nat) (s : State) : Res := whileCore s fun s =>
  if !(lunUsed s lun) then .next s
  else
    let pool := (heapOf s lun).length
    let set := s.media.settings
    let rest := s.media.collecting.filter (· != lun)
    let on := decide (pool < set.gcLow) || (s.media.collecting.contains lun && decide (pool < set.gcHigh))
    let s := { s with media := { s.media with collecting := if on then lun :: rest else rest } }
    let s :=
      match s.media.victims.find? fun v => bsnLun v.1 == lun && decide (btValid s v.1 > 0) with
      | some v => copyVictim s v.1
      | none =>
        match pickVictim s lun on with
        | some b => takeVictim s b
        | none =>
          let full := on && (lunBsns lun).any fun b => btState s b == 3 && !(btFlag s b 0)
          let s := if full then { s with media := { s.media with stuck := lun :: s.media.stuck.filter (· != lun) } } else s
          if s.media.victims.any fun v => bsnLun v.1 == lun then stopCopies s lun else s
    .next (reapVictim s (fun b => bsnLun b == lun) (eraseFail == 1))

/-- MIGRATION (R338): runs while the SLC block sets in use exceed S_T, or half of it with `idle` 1, which says that the load of R283 has stayed
below 0.1 for the last second. -/
def execMigration (idle eraseFail : Nat) (s : State) : Res := whileCore s fun s =>
  let n := slcInUse s
  let t := slcTarget s (heldCount s)
  let run := decide (n > t) || (idle == 1 && decide (2 * n > t))
  let slc := fun b => btFlag s b 0
  let s1 :=
    match s.media.victims.find? fun v => slc v.1 && decide (btValid s v.1 > 0) with
    | some v => copyVictim s v.1
    | none =>
      match (if run then leastBy (btFirst s) ((usedBsns s).filter fun b => btState s b == 3 && slc b) else none) with
      | some b => takeVictim s b
      | none => (s.media.victims.filter fun v => slc v.1).foldl (fun s v => stopCopies s (bsnLun v.1)) s
  .next (reapVictim s1 slc (eraseFail == 1))

/-! ### Reads that fail (R347 to R349) -/

/-- The age of a block set in hours (R348). -/
def blockAge (s : State) (b : Nat) : Nat :=
  let ops := (opsec s - btGet s b 24 4) / 3600
  let c := btGet s b 28 4
  match calendar s with
  | some t => if c = 0 then ops else max ops (t / 3600 - c)
  | none => ops

/-- The retry cell of a block set now (R347). -/
def blockCell (s : State) (b : Nat) : Nat :=
  let l := bsnLun b
  retryCell s (btWear s b / 4) (blockAge s b) (toSigned (getF s (F.FC_LUN_TEMP_TEMP (l / 32) (l % 32))) 8)

/-- The attempts of R347 in order, 0xFFFF being the default read. -/
def retryOrder (s : State) (b : Nat) : List Nat :=
  let first := btGet s b 2 2
  let steps := if rigActive s then List.range (retrySteps s (blockCell s b)).length else []
  ((if first = 0xFFFF then [] else [first]) ++ (0xFFFF :: steps)).eraseDups

/-- A block set marked for refresh (R348). -/
def markRefresh (s : State) (b : Nat) : State :=
  if btFlag s b 4 || !(decide (2 ≤ btState s b) && decide (btState s b ≤ 3)) then s
  else logCrew { btMark s b 4 with media := { (btMark s b 4).media with sweepMarked := s.media.sweepMarked + 1 } } EV.refresh

/-- The reconciliation of every group that follows lost notes: every keeper asked what it keeps, without leaving the groups (R349). -/
def reconcileAll (s : State) : State :=
  (s.groups.filter fun g => g.rebuild.isNone).foldl (fun s g => rebuildAsk s g.id ⟨0, false, [], 0, 0, false, [], [], [], 0, s.now⟩) s

/-- The other copy of a stride of R331 written again, on another channel than the one it lies on: where it went. -/
def rewriteCopy (s : State) (p : Nat × Nat) : Option ((Nat × Nat) × State) :=
  let room := fun l => lunUsed s l && ((openOf s l 2).isSome || !(heapOf s l).isEmpty)
  match strideAt s p.1 p.2, (List.range 1024).find? fun l => room l && l / 32 != bsnLun p.1 / 32 with
  | some x, some l =>
    match placeStride s l 2 (replane s x fun f => f / 2 * 2) with
    | some ((b, q, _), s) => some ((b, q), btLive s b true)
    | none => none
  | _, _ => none

/-- A NOTE stride that cannot be read: the other copy is written again, or its notes are lost (R349). -/
def notesUnreadable (s : State) (p : Nat × Nat) : State :=
  let here := s.media.notes.filter fun n => n.places.contains p
  let others := ((here.map fun n => n.places.filter (· != p)).flatten).eraseDups
  let s := if here.isEmpty then s else btLive s p.1 false
  let lost := here.any fun n => n.places == [p]
  let s := others.foldl (fun s o =>
    match rewriteCopy s o with
    | some (q, s) =>
      let notes := s.media.notes.map fun n => if n.places.contains o && n.places.contains p then { n with places := [o, q] } else n
      { s with media := { s.media with notes := notes } }
    | none => s) s
  let s := moveNotes s p fun _ ps => ps
  if lost then reconcileAll (logCrew s EV.notesLost) else s

/-- A checkpoint stride that cannot be read: the other copy is written again; with both lost, there is no checkpoint (R349). -/
def ckptUnreadable (s : State) (p : Nat × Nat) : State :=
  match s.media.ckpt with
  | none => s
  | some c =>
    if !(c.places.contains p) then s
    else
      let s := btLive s p.1 false
      match c.places.filter (· != p) with
      | [] => { s with media := { s.media with ckpt := none } }
      | o :: _ =>
        match rewriteCopy s o with
        | some (q, s) => { s with media := { s.media with ckpt := some { c with places := [o, q] } } }
        | none => { s with media := { s.media with ckpt := some { c with places := [o] } } }

/-- A bucket whose page cannot be read: a resident copy is written again; otherwise a bow asks for its copy again, and an acting device's index of the slice waits
for its stripes (R349; log entry 74). -/
def bucketUnreadable (s : State) (i : BucketItem) : State :=
  let s := btLive { s with media := { s.media with buckets := s.media.buckets.filter (· != i) } } i.bsn false
  if !(sliceHeld s i.slice) then s
  else if dirState s i.slice i.bucket ≥ 2 then
    let b := peek s (bucketAddr s (dirSlot s i.slice i.bucket)) 16384
    putDir s 0 i.slice i.bucket 3 0 (bkCount b) (bkHolds b) (dirSlot s i.slice i.bucket)
  else if actsFor s i.slice then
    match sliceRec s i.slice with
    | some r => putSlice s { r with rebuilding := true }
    | none => s
  else askCopy (renewSlice s i.slice (sliceB s i.slice)) i.slice

/-- A stride that no attempt decodes (R347 to R350): EV_PAGE_UNCORRECTABLE, the block set marked, each item handled by its kind. -/
def strideUnreadable (s : State) (b p : Nat) : State :=
  let s := markRefresh (logCrew (nandSpoil s b p) EV.pageUncorrectable) b
  let s := if s.media.sweepBad.contains b then btMark s b 3 else { s with media := { s.media with sweepBad := b :: s.media.sweepBad } }
  let fs := s.media.frags.filter fun f => f.kind == 0 && f.bsn == b && f.page == p
  let s := fs.foldl (fun s f => addNote s 4 f.pos f.group f.stripe 1) (foundMissing s fs)
  let s := (s.media.buckets.filter fun i => i.bsn == b && i.page == p).foldl bucketUnreadable s
  ckptUnreadable (notesUnreadable s (b, p)) (b, p)

/-- A stride read (R347, R348): `step` is the attempt that decodes, `bits` the most corrected bits of a codeword; an attempt outside the order
of R347 stands for none. -/
def strideRead (s : State) (b p step bits : Nat) : State :=
  if (retryOrder s b).contains step then
    let s := btSet s b 2 2 step
    let worn := rigActive s && decide (bits ≥ refreshBits s (btWear s b / 4))
    if worn || (step != 0xFFFF && decide (step ≥ s.media.settings.refreshStep)) then markRefresh s b else s
  else strideUnreadable s b p

/-- READ_RETRY (R347): a programmed stride whose ECC failed is read again. -/
def execReadRetry (bsn page step bits : Nat) (s : State) : Res := whileCore s fun s =>
  if (strideAt s bsn page).isSome && lunUsed s (bsnLun bsn) && decide (2 ≤ btState s bsn) && decide (btState s bsn ≤ 4) then
    .next (strideRead s bsn page step bits)
  else .next s

/-! ### The sweep (R345) -/

/-- The next programmed stride at or after the sweep's cursor, in ascending BSN order. -/
def sweepNext (s : State) : Option Stride :=
  let at_ := fun (x : Stride) => x.bsn * 65536 + x.page
  let c := s.media.sweepBsn * 65536 + s.media.sweepPage
  let live := s.fc.nand.filter fun x => decide (at_ x ≥ c) && lunUsed s (bsnLun x.bsn) && decide (2 ≤ btState s x.bsn) && decide (btState s x.bsn ≤ 4)
  live.foldl (fun a x => match a with | none => some x | some y => if at_ x < at_ y then some x else some y) none

/-- One stride of the sweep, or the end of its cycle. -/
def sweepOne (s : State) (r : Nat × Nat) : State :=
  match sweepNext s with
  | none =>
    let s := logCrew s EV.sweepCycle
    { s with media := { s.media with sweepBsn := 0, sweepPage := 0, sweepAt := s.now, sweepRead := 0, sweepMarked := 0, sweepBad := [] } }
  | some x =>
    let s := strideRead s x.bsn x.page r.1 r.2
    let s := if btState s x.bsn = 3 ∧ blockAge s x.bsn ≥ 24 * s.media.settings.refreshAgeDays then markRefresh s x.bsn else s
    { s with media := { s.media with sweepBsn := x.bsn, sweepPage := x.page + 1, sweepRead := s.media.sweepRead + 1 } }

/-- The cursor and start of the sweep saved in the configuration store: every 10 minutes and at each power-state change (R345). -/
def sweepSave (s : State) : State :=
  { s with media := { s.media with sweepSaved := (s.media.sweepBsn, s.media.sweepPage, s.media.sweepAt, s.now) } }

/-- SWEEP (R345, R348): the sweep reads on, one stride for each result given as (attempt that decodes, most corrected bits); past the last
block set the cycle ends and the next begins. -/
def execSweep (reads : List (Nat × Nat)) (s : State) : Res := whileCore s fun s =>
  let s := reads.foldl sweepOne s
  .next (if s.now ≥ s.media.sweepSaved.2.2.2 + 600 * sec then sweepSave s else s)

/-! ### Notes (R330, R331) -/

/-- The VOID notes of journaled void fragments put into the buffer (R330). -/
def voidNotes (s : State) : State :=
  (pjKind s 5).foldl (fun s r =>
    let b := rkBody r.2
    let g := rkGroup r.2
    let has := s.media.notes.any fun n => n.kind == 2 && n.group == g && n.ident == fld b 0 8
    if fld b 9 1 % 2 = 1 ∧ has = false then addNote s 2 (fld b 8 1) g (fld b 0 8) 0 else s) s

/-- NOTE_RECORD (R330, R331): the oldest 2,048 buffered notes are programmed in a NOTE stride written twice, and count as recorded; journal records
that waited for them are retired. -/
def execNoteRecord (s : State) : Res := whileCore s fun s =>
  let s := voidNotes s
  let ns := (s.media.notes.filter fun n => n.places.isEmpty).take 2048
  if ns.isEmpty then .next s
  else
    match placeTwice s (fun w => ⟨4, 0, w, 0, 0, 0, 0, 0, 0, 0, 0, 0⟩) (ns.map noteBytes).flatten with
    | none => .next s
    | some (ps, s) =>
      let seqs := ns.map NoteRec.seq
      let notes := s.media.notes.map fun n => if seqs.contains n.seq then { n with places := ps } else n
      .next (settleFragments { s with media := { s.media with notes := notes } })

/-! ### Failed programs (R343) -/

/-- The stride that a copy was made from: it lies in a victim that has the block set among its targets. -/
def copySource (s : State) (b : Nat) (f : FragItem) : Option (Stride × PageHead) :=
  let vs := (s.media.victims.filter fun v => v.2.contains b).map Prod.fst
  let hits := (s.fc.nand.filter fun x => vs.contains x.bsn).filterMap fun x =>
    match strideHeads x with
    | some (h :: _) => if h.kind = 1 ∧ h.group = f.group ∧ h.ident = f.stripe then some (x, h) else none
    | _ => none
  hits.head?

/-- An unreadable stride of a failed block set: a copy's map points at the source again and the item is copied again; without a source it is
MISSING. Items of other kinds follow R349. -/
def failedStride (b : Nat) (s : State) (p : Nat) : State :=
  let fs := s.media.frags.filter fun f => f.kind == 0 && f.bsn == b && f.page == p
  let s := fs.foldl (fun s f =>
    match copySource s b f with
    | some (x, h) =>
      let s := putFrag s { f with bsn := x.bsn, page := x.page, seq := h.wseq }
      copyFrag x.bsn (bsnLun x.bsn) s { f with bsn := x.bsn, page := x.page, seq := h.wseq }
    | none => addNote s 4 f.pos f.group f.stripe 1) (foundMissing (nandSpoil s b p) (fs.filter fun f => (copySource s b f).isNone))
  let s := (s.media.buckets.filter fun i => i.bsn == b && i.page == p).foldl bucketUnreadable s
  ckptUnreadable (notesUnreadable s (b, p)) (b, p)

/-- The item of a failed program submitted again to a new block set (R343 step 7). -/
def resubmit (s : State) (x : Stride) : State :=
  match strideHeads x with
  | some (h :: _) =>
    if h.kind = 1 then
      let f : FragItem := ⟨h.group, h.ident, h.pos, 0, 0, 0, 0, h.ucrc, h.genId, h.k, h.m⟩
      (programFrag s (if bitAt h.flags 1 then some (bsnLun x.bsn) else none) f (strideBytes x)).getD s
    else
      match placeStride s (bsnLun x.bsn) 2 (replane s x id) with
      | some (_, s) => s
      | none => s
  | _ => s

/-- PROGRAM_FAILURE (R343) of an OPEN block set in which a program ended with FAIL: it is closed with its summary, which may fail too, flagged
RETIRE_AFTER, and read back; `unreadable` names the pages that do not read back. -/
def execProgramFailure (bsn : Nat) (unreadable : List Nat) (summaryFail : Nat) (s : State) : Res := whileCore s fun s =>
  match s.fc.failedProgs.find? fun x => x.bsn == bsn with
  | none => .next s
  | some x =>
    let s := { s with fc := { s.fc with failedProgs := s.fc.failedProgs.filter fun y => y.bsn != bsn } }
    let s := btSet s bsn 12 4 (x.page + 1)
    let s := if summaryFail = 1 then btMark (markClosed s bsn) bsn 2 else closeBlock s bsn
    let s := logCrew (btMark s bsn 3) EV.programFailed
    let s := (unreadable.filter fun p => (strideAt s bsn p).isSome && p != x.page).foldl (failedStride bsn) s
    .next (resubmit s x)

/-! ### Checkpoints (R357) -/

/-- A checkpoint made: its image written as a SYSTEM file, then its record; none where no LUN has room. Its content is crew firmware's own. -/
def makeCheckpoint (s : State) : Option State :=
  let seq := s.media.wseq
  let r := freshBytes s 65536
  match placeTwice r.2 (fun w => ⟨5, 0, w, 4096 * 2 ^ 32, 0, 0, 0, 0, 0, 0, 0, 65536⟩) r.1 with
  | none => none
  | some (ps, s) =>
    let s := ((s.media.ckpt.map Ckpt.places).getD []).foldl (fun s p => btLive s p.1 false) s
    let wear := (usedBsns s).map fun b => (b, btWear s b)
    let c : Ckpt := ⟨seq, s.media.frags, s.media.notes, s.media.buckets, wear, ps⟩
    some { s with media := { s.media with ckpt := some c, ckptAt := s.now, since := [] } }

/-- The device is about to enter DOCK: it is READY or READ_ONLY, takes no session and has none with a host (R534; log entry 74). -/
def dockNear (s : State) : Bool :=
  (s.pwr.dev == 4 || s.pwr.dev == 5) && !(flag s F.HTE_CTRL_ACCEPT) && s.hte.sessions.all (fun x => sessKind s x.id != 0 || sessState s x.id == 0)

/-- Every OPEN block set that holds a stride closed early, as it is before DOCK (Table 09-3). -/
def closeOpens (s : State) : State :=
  (s.media.opens.map fun o => o.2.2).foldl (fun s b => if btWritten s b = 0 then s else closeBlock s b) s

/-- CHECKPOINT (R357): a LUN has had CKPT_LUN strides programmed since the last one, the device is about to enter DOCK, for which its OPEN block sets are
closed first, or CKPT_S seconds have passed, which the command then stands for. -/
def execCheckpoint (s : State) : Res := whileCore s fun s =>
  let full := s.media.since.any fun x => decide (x.2 ≥ s.media.settings.ckptLun)
  let dock := dockNear s
  let s := if dock then closeOpens s else s
  let s := if full || dock then s else reach s (s.media.ckptAt + s.media.settings.ckptS * sec)
  .next ((makeCheckpoint s).getD s)

/-! ### Scans (R332, R333, R358, R359) -/

/-- What a scan finds: a fragment stride, a note, a bucket page. -/
inductive ScanItem where
  | frag (f : FragItem)
  | note (n : NoteRec)
  | bucket (b : BucketItem)
  deriving DecidableEq, Repr

/-- The sequence number of a found item. -/
def scanSeq : ScanItem → Nat
  | .frag f => f.seq
  | .note n => n.seq
  | .bucket b => b.seq

/-- A note entry read (Table 09-8), with the stride that carries it. -/
def readNote (b : Bytes) (p : Nat × Nat) : Option NoteRec :=
  if fld b 0 1 = 0 then none else some ⟨fld b 0 1, fld b 1 1, fld b 4 4, fld b 8 8, fld b 16 8, fld b 24 8, [p]⟩

/-- The items of a complete stride (R326). -/
def strideItems (x : Stride) : List ScanItem :=
  match strideHeads x with
  | some (h :: hs) =>
    if h.kind = 1 then [.frag ⟨h.group, h.ident, h.pos, 0, x.bsn, x.page, h.wseq, h.ucrc, h.genId, h.k, h.m⟩]
    else if h.kind = 2 then
      (((h :: hs).zipIdx).filter fun g => !(bitAt g.1.flags 3)).map fun g =>
        .bucket ⟨g.1.ident % 65536, bits g.1.ident 16 25, x.bsn, x.page, g.2, g.1.aux, g.1.wseq⟩
    else if h.kind = 4 then
      (List.range 2048).filterMap fun i => (readNote (slice (strideBytes x) (32 * i) 32) (x.bsn, x.page)).map ScanItem.note
    else []
  | _ => []

/-- The strides that rebuilds read: none of a block set in a skip list (R334). -/
def scanStrides (s : State) : List Stride :=
  s.fc.nand.filter fun x => lunUsed s (bsnLun x.bsn) && !(s.media.retired.contains x.bsn) && !((vaultBsns s).contains x.bsn)

/-- Items in ascending order of sequence number. -/
def insertItem (a : ScanItem) : List ScanItem → List ScanItem
  | [] => [a]
  | b :: bs => if scanSeq a ≤ scanSeq b then a :: b :: bs else b :: insertItem a bs

/-- The maps with one more item applied, newer than what they hold (R332, R333). -/
def applyItem (m : List FragItem × List NoteRec × List BucketItem) (i : ScanItem) : List FragItem × List NoteRec × List BucketItem :=
  match i with
  | .frag f => (f :: m.1.filter fun g => !(g.group == f.group && g.stripe == f.stripe), m.2.1, m.2.2)
  | .bucket b => (m.1, m.2.1, b :: m.2.2.filter fun c => !(c.slice == b.slice && c.bucket == b.bucket))
  | .note n =>
    let ns := if m.2.1.any fun o => o.seq == n.seq then m.2.1 else m.2.1 ++ [n]
    if n.kind = 1 then (m.1.filter fun f => !(f.group == n.group && decide (n.ident ≤ f.stripe) && decide (f.stripe < n.ident + 32 * n.run)), ns, m.2.2)
    else if n.kind = 5 then (m.1, ns, m.2.2.filter fun b => b.slice != n.ident)
    else if n.kind = 6 then (m.1, ns, m.2.2)
    else
      let o := (m.1.find? fun f => f.group == n.group && f.stripe == n.ident).getD ⟨n.group, n.ident, n.pos, n.kind, 0, 0, 0, 0, 0, 0, 0⟩
      ({ o with kind := n.kind, pos := n.pos, bsn := 0, page := 0, seq := n.seq } ::
        m.1.filter fun f => !(f.group == n.group && f.stripe == n.ident), ns, m.2.2)

/-- The highest sequence number of any header or note that passes its check, torn strides included (R328). -/
def topSeq (xs : List Stride) : Nat :=
  let heads := ((xs.map fun x => x.planes.filterMap fun p => (readHead p.2).map PageHead.wseq).flatten)
  let notes := ((xs.map strideItems).flatten).map scanSeq
  (heads ++ notes).foldl max 0

/-- A block set's entry made anew from what is programmed in it: FREE where erased; otherwise CLOSED, with NO_SUMMARY where no summary ends it. -/
def tableEntry (wear : List (Nat × Nat)) (s : State) (b : Nat) : State :=
  let set := fun (s : State) (st fl w valid written first ops cal : Nat) =>
    crewStore s (btAddr s b) (le 1 st ++ le 1 fl ++ le 2 0xFFFF ++ le 4 w ++ le 4 valid ++ le 4 written ++ le 8 first ++ le 4 ops ++ le 4 cal)
  if s.media.retired.contains b then set s 5 0 0 0 0 0 0 0
  else if (vaultBsns s).contains b then set s 6 0 0 0 0 0 0 0
  else
    let xs := blockStrides s b
    if xs.isEmpty then
      match kvGet wear b with
      | some w => set s 1 0 w 0 0 0 0 0
      | none => let r := fresh s; set r.2 1 0 (r.1 % 2 ^ 32) 0 0 0 0 0
    else
      let written := (xs.map fun x => x.page + 1).foldl max 0
      let h0 := ((strideAt s b 0).bind strideHeads).bind List.head?
      let last := strideAt s b (written - 1)
      let h1 := (last.bind strideHeads).bind List.head?
      let closed := match h1 with | some h => h.kind == 6 | none => false
      let body := (last.map strideBytes).getD []
      let m := s.media
      let valid := (m.frags.filter fun f => f.kind == 0 && f.bsn == b).length +
        ((((m.buckets.filter fun i => i.bsn == b).map BucketItem.page) ++ ((((m.notes.map NoteRec.places).flatten ++
          ((m.ckpt.map Ckpt.places).getD [])).filter fun p => p.1 == b).map Prod.snd)).eraseDups).length
      let sys := match h0 with | some h => h.kind == 2 || h.kind == 3 || h.kind == 4 || h.kind == 5 | none => false
      let fl := (match h0 with | some h => h.flags % 2 | none => 0) + (if sys then 2 else 0) + (if closed then 0 else 4)
      let w := match h0 with | some h => h.wear | none => 0
      let first := match h0 with | some h => h.wseq | none => 0
      set s 3 fl w valid written first (if closed then fld body 24 4 else 0) (if closed then fld body 28 4 else 0)

/-- The heap of a LUN rebuilt from its FREE block sets; heap L has the places 504 × L on where crew firmware has not configured it otherwise. -/
def rebuildHeap (s : State) (l : Nat) : State :=
  let s := if flag s (F.FPH_HEAP_VALID l) then s else
    setF (setF (setF s (F.FPH_HEAP_VALID l) 1) (F.FPH_HEAP_BASE l) (504 * l)) (F.FPH_HEAP_CAPACITY l) 504
  ((lunBsns l).filter fun b => btState s b == 1).foldl (fun s b => (heapPush s l (btWear s b) b).getD s) (putHeap s l [])

/-- The directory words of a slice held: FLASH where its bucket is on NAND, otherwise EMPTY (R147). -/
def dirRebuild (s : State) (x : Nat) : State :=
  (bucketsOf s x).foldl (fun s k =>
    let b := (bucketNand s x k).getD []
    if s.media.buckets.any fun i => i.slice == x && i.bucket == k then putDir s 0 x k 1 0 (bkCount b) (bkHolds b) 0 else putDir s 0 x k 0 0 0 0 0) s

/-- The maps set to what a scan found, the block table, heaps and directory made anew, and the sequence counter resumed (R328, R358, R359). -/
def adoptScan (s : State) (wear : List (Nat × Nat)) (m : List FragItem × List NoteRec × List BucketItem) : State :=
  let xs := scanStrides s
  let found := (xs.map strideItems).flatten
  let places := fun (n : NoteRec) => (found.filterMap fun i => match i with | .note o => if o.seq = n.seq then some o.places else none | _ => none).flatten
  let md := { s.media with
    frags := m.1, notes := m.2.1.map fun n => { n with places := places n }, buckets := m.2.2, opens := [], victims := [], collecting := [],
    since := [], heaps := [], wseq := topSeq xs + 1 }
  let s := (usedBsns s).foldl (tableEntry wear) { s with media := md }
  (heldSlices s).foldl dirRebuild ((usedLuns s).foldl rebuildHeap s)

/-- SCAN ends and the device is in REPLAY (Table 18-2 steps 7 and 8). -/
def scanEnd (s : State) : State := sendAllStatus { s with pwr := { s.pwr with dev := 3, fullScan := false } }

/-- SUMMARY_SCAN (R358): in SCAN with a valid checkpoint, the images are loaded and the items written since are applied. -/
def execSummaryScan (s : State) : Res := whileCore s fun s =>
  match s.media.ckpt with
  | none => .next s
  | some c =>
    if s.pwr.dev ≠ 2 ∨ s.pwr.fullScan = true then .next s
    else
      let gone := fun (f : FragItem) => f.kind == 0 && s.media.failed.contains (bsnLun f.bsn)
      let base := (c.frags.map fun f => if gone f then { f with kind := 4 } else f, c.notes, c.buckets)
      let items := ((scanStrides s).map strideItems).flatten.filter fun i => decide (scanSeq i ≥ c.seq)
      .next (scanEnd (adoptScan s c.wear ((items.foldr insertItem []).foldl applyItem base)))

/-- PE_RATED at format: the lowest nonzero cycle count that a LUN reports, in its range (Table 09-1). -/
def peRatedOf (s : State) : Nat :=
  let cs := ((usedLuns s).map fun l => getF s (F.FC_LUN_ENDUR_CYCLES (l / 32) (l % 32))).filter (· != 0)
  match cs with
  | [] => 3000
  | c :: cs => min 100000 (max 100 (cs.foldl min c))

/-- The quantities fixed at format, and the parameter pages recorded then (R352, R367, Table 09-9). -/
def formatMedia (s : State) : State :=
  let u0 := (usableSets s).length
  let dn := match usedLuns s with | l :: _ => dataStrides s l false | [] => 0
  let cfrag := u0 * dn * (100 - s.media.settings.opPct) / 100
  let f : MediaFormat := ⟨u0, dn, cfrag, ceilDiv u0 32, 0, s.fc.pages⟩
  let s := { s with media := { s.media with settings := { s.media.settings with peRated := peRatedOf s } } }
  let s := { s with media := { s.media with format := some f } }
  { s with media := { s.media with format := some { f with sp0 := spareSets s } } }

/-- FULL_SCAN (R359): in SCAN without a valid checkpoint, with one that cannot be read or is not recognised (`unreadable` 1), or where the service
protocol asked for it: every header is read, the items are resolved, and a checkpoint is made. The first one of a device that was never
formatted also fixes the quantities of format, with the block sets the manufacturer marked bad (log entry 41). -/
def execFullScan (unreadable : Nat) (bad : List Nat) (s : State) : Res := whileCore s fun s =>
  if s.pwr.dev ≠ 2 ∨ !(s.media.ckpt.isNone || s.pwr.fullScan || unreadable == 1) then .next s
  else
    let s := logCrew s EV.mapFullScan
    let first := s.media.format.isNone
    let s := { s with media := { s.media with ckpt := none, retired := if first then bad else s.media.retired } }
    let items := ((scanStrides s).map strideItems).flatten
    let s := adoptScan s [] ((items.foldr insertItem []).foldl applyItem ([], [], []))
    let s := if first then formatMedia s else s
    .next (scanEnd ((makeCheckpoint s).getD s))

/-! ### Vault sets and full media (R318, R355) -/

/-- VAULT_SET_REPLACE (R318): the vault block set of a PJ_VMAP entry that failed to erase is retired, and a FREE block set on the same channel and
chip enable takes its place while DUMP_ARM is 0. -/
def execVaultSetReplace (entry : Nat) (s : State) : Res := whileCore s fun s =>
  if flag s F.PJ_CTRL_DUMP_ARM || !(flag s (F.PJ_VMAP_VALID entry)) then .next s
  else
    let n := getF s (F.PJ_VMAP_CHANNEL entry)
    let e := getF s (F.PJ_VMAP_CE entry)
    let old := 512 * lunIndex n (4 * e + getF s (F.PJ_VMAP_LUN entry)) + getF s (F.PJ_VMAP_ROW entry)
    match ((List.range 4).map fun t => lunIndex n (4 * e + t)).find? fun l => lunUsed s l && !(heapOf s l).isEmpty with
    | none => .next s
    | some l =>
      match heapPop s l with
      | none => .next s
      | some (x, s) =>
        let s := setF (setF s (F.PJ_VMAP_LUN entry) (l % 4)) (F.PJ_VMAP_ROW entry) (x.2 % 512)
        let s := keepVault s entry (2 ^ 63 + n * 2 ^ 35 + e * 2 ^ 32 + l % 4 * 2 ^ 30 + x.2 % 512)
        let s := retireBlock (btSet s x.2 0 1 6) old
        .next (logCrew (setJournalSize (setLimit s)) EV.vaultSetReplaced)

/-- MEDIA_FULL (R355): H + J has reached C_FRAG: READ_ONLY with reason FULL. A device that is so leaves READ_ONLY once H + J is at most 95% of
C_FRAG with SP above 0, and rejoins its groups under R211. -/
def execMediaFull (s : State) : Res := whileCore s fun s =>
  let n := heldCount s + journaledCount s
  if s.media.format.isNone then .next s
  else if s.media.readOnly = none then
    if n ≥ capFrags s then .next (readOnlyFor (logCrew s EV.mediaFull) 2) else .next s
  else if s.media.readOnly = some 2 ∧ 100 * n ≤ 95 * capFrags s ∧ spareSets s > 0 then
    let s := { s with media := { s.media with readOnly := none } }
    if s.pwr.dev = 5 then .next (sendAllStatus (s.groups.foldl (fun s g => ownSeatLost s g.id) { s with pwr := { s.pwr with dev := 4 } })) else .next s
  else .next s

/-! ### The end of a NAND operation (R375) -/

/-- What crew firmware notes of a stride that an entry has programmed: WRITTEN and FIRST_SEQ, the maps, and the journal records that waited. -/
def strideProgrammed (s : State) (x : Stride) : State :=
  let l := bsnLun x.bsn
  let s := { s with media := { s.media with since := kvPut s.media.since l ((kvGet s.media.since l).getD 0 + 1) } }
  let s := btSet s x.bsn 12 4 (x.page + 1)
  match strideHeads x with
  | some (h :: _) =>
    let s := { s with media := { s.media with wseq := max s.media.wseq (h.wseq + 1) } }
    let s := if x.page = 0 then btSet s x.bsn 16 8 h.wseq else s
    let s := (strideItems x).foldl (fun s i =>
      match i with
      | .frag f => if ((fragOf s f.group f.stripe).map FragItem.seq).getD 0 ≤ f.seq then putFrag s f else s
      | .bucket b => putBucketItem s b
      | .note n => { s with media := { s.media with notes := s.media.notes.map fun o => if o.seq = n.seq then { o with places := n.places ++ o.places } else o } }) s
    settleFragments s
  | _ => s

/-- FC_OPERATION_END: the operation of a LUN ends (R375, Table 10-6), and crew firmware notes what a program or an erase has done (Table 09-3). -/
def execFcOperationEnd (channel slot fail bits corrected bad badWords : Nat) (s : State) : Res :=
  match lunOp s channel slot with
  | none => .next s
  | some o =>
    let b := fcBsn o.chan o.entry
    let page := fld o.entry 14 2
    let t := fcEnd s o fail bits corrected bad badWords
    if o.op = 0x41 ∧ btState s b = 2 then
      if (blockStrides s b).length ≠ page then .fault (.undefined361 3)
      else .next (if fail = 1 then t else strideProgrammed t ⟨b, page, o.data⟩)
    else if o.op = 0x42 ∧ btState s b = 4 then
      if s.media.victims.any fun v => v.1 == b && !(victimReady s v) then .fault (.undefined361 5)
      else .next (if fail = 1 then eraseFailed t b else freeBlock t b)
    else .next t

end Sys2Proof.Machine
end

