-- ==== Sys2Proof/Machine/Sessions.lean ====
section
/-! DEFINITION. The commands of host sessions (02): packets, connection management, capsules and their checks, session opcodes, RDMA, and
the HTE work queue entries. -/

namespace Sys2Proof.Machine

/-! ### Packets and rates (R47, R48, R77, R78) -/

/-- The opcodes of the standard's reliable-connected transport that the device receives (Table 02-1): SEND First, Middle, Last and Only, RDMA READ
Response First, Middle, Last and Only, Acknowledge, and CNP. PRESUMED: their numbers are the standard's (log entry 12). -/
def roceReceived : List Nat := [0x00, 0x01, 0x02, 0x04, 0x0D, 0x0E, 0x0F, 0x10, 0x11, 0x81]

/-- An Acknowledge packet (PRESUMED: the standard's number). -/
def roceAck : Nat := 0x11

/-- The atomic acknowledgement, a response to a request that the device never sends (PRESUMED: the standard's number). -/
def roceAtomicAck : Nat := 0x12

/-- An acknowledgement taken: an RNR NAK (`rnr` 1) is waited out and counted, and past the RNR retry count of the REQ the session enters CLOSING with
cause 2 (R47, Table 02-2); any other packet ends a row of retries. -/
def takeAck (s : State) (session : Nat) (x : Sess) (rnr : Bool) : State :=
  if rnr then
    if x.rnrs < x.rnrMax then modSess s session fun y => { y with rnrs := y.rnrs + 1, rnrWait := true } else sessClose s session 2
  else modSess s session fun y => { y with retries := 0, rnrs := 0, rnrWait := false }

/-- ROCE_PACKET_RECEIVED (R47, R48, R77): with a bad ICRC (`icrc` 0), a header its standard rejects (`header` 0), or in answer to nothing the device sends, it
is discarded; a CE mark (`ce` 1) draws a CNP, at most one in 50 µs; an opcode that Table 02-1 does not list among those received draws NAK Invalid
Request and closes the session. What a supported packet carries is a command of its own. -/
def execRocePacketReceived (session icrc header opcode rnr ce : Nat) (s : State) : Res := whileCore s fun s =>
  match sessRec s session with
  | none => .next s
  | some x =>
    if icrc = 0 ∨ header = 0 ∨ sessState s session = 0 ∨ opcode = roceAtomicAck then .next s
    else
      let free := match x.cnpTx with | some t => decide (s.now ≥ t + 50 * us) | none => true
      let s := if ce = 1 ∧ free = true then
          countF (emit (modSess s session fun y => { y with cnpTx := some s.now }) (.cnp session)) F.HTE_CNT_CNP_TX_COUNT 1
        else s
      .next (if roceReceived.contains opcode then takeAck s session x (opcode == roceAck && rnr == 1)
        else sessClose (emit s (.roce session 2)) session 2)

/-- RATE_STEP of a session changed. -/
def setStep (s : State) (session step : Nat) : State :=
  modSess (sessPut s session 85 1 step) session fun x => { x with stepAt := s.now }

/-- CNP_RECEIVED (R78): the step rises by 1, up to 15, unless another CNP raised it within the last 50 µs. -/
def execCnpReceived (session : Nat) (s : State) : Res := whileCore s fun s =>
  match sessRec s session with
  | none => .next s
  | some x =>
    if sessState s session = 0 then .next s
    else
      let s := countF s F.HTE_CNT_CNP_RX_COUNT 1
      let late := match x.raisedAt with | some t => decide (s.now ≥ t + 50 * us) | none => true
      let st := sessAt s session 85 1
      let s := modSess s session fun y => { y with cnpRx := some s.now }
      .next (if late && decide (st < 15) then
        modSess (setStep s session (st + 1)) session fun y => { y with raisedAt := some s.now } else s)

/-- RATE_RECOVERY_EXPIRY (R78): the recovery interval of the present step has passed without a CNP, and the step falls by 1. -/
def execRateRecoveryExpiry (session : Nat) (s : State) : Res := whileCore s fun s =>
  match sessRec s session with
  | none => .next s
  | some x =>
    let st := sessAt s session 85 1
    let interval := (rateStep s (sessAt s session 84 1) st).2
    if sessState s session = 0 ∨ st = 0 ∨ interval = 0 then .next s
    else .next (setStep (reach s (max x.stepAt (x.cnpRx.getD 0) + interval * us)) session (st - 1))

/-- The local ACK timeout of a session in nanoseconds: 4.096 µs × 2^t for the t of the REQ (PRESUMED: the standard's encoding, in which 0 means that
no timer runs; log entry 12). -/
def ackTimeoutNs (x : Sess) : Nat := if x.ackExp = 0 then 0 else 4096 * 2 ^ x.ackExp

/-- LOCAL_ACK_TIMEOUT (R47): the local ACK timeout of the REQ has passed, or the wait of an RNR NAK is over, and the packets not acknowledged are sent
again, the former at most as often in a row as the REQ's retry count says. -/
def execLocalAckTimeout (session : Nat) (s : State) : Res := whileCore s fun s =>
  match sessRec s session with
  | none => .next s
  | some x =>
    if !(sessLive s session) || !x.ready then .next s
    else if x.rnrWait then .next (emit (putSess s { x with rnrWait := false, timerAt := s.now }) (.retransmit session))
    else if x.retries < x.retryMax ∧ x.ackExp ≠ 0 then
      let s := reach s (x.timerAt + ackTimeoutNs x)
      .next (emit (putSess s { x with retries := x.retries + 1, timerAt := s.now }) (.retransmit session))
    else .next s

/-- QP_RETRY_EXHAUSTED (Table 02-2): the session enters CLOSING with cause 2. -/
def execQpRetryExhausted (session : Nat) (s : State) : Res := whileCore s fun s => .next (sessClose s session 2)

/-! ### Connection management (R49, R51, R198) -/

/-- The service IDs of host, peer and fall-back sessions (Table 02-1, R198, R247), by KIND. -/
def serviceId (kind : Nat) : Nat := 0x01061BF8 + kind

/-- A context entered into CONNECTED (Table 02-2): KIND, MAX_OUT 1, the handshake timer. Bytes 0 to 63 hold transport state in a layout that is not
published (R54): the model keeps that state beside the context, and those bytes read as memory stands (log entry 65). -/
def sessConnect (s : State) (x : Sess) (kind : Nat) (ready : Bool) : State :=
  let s := sessPut (sessPut (sessPut s x.id 64 1 1) x.id 65 1 kind) x.id 68 2 1
  let s := if kind = 0 then setF s F.HTE_SESSIONS_OPEN (getF s F.HTE_SESSIONS_OPEN + 1) else s
  putSess s { x with ready := ready, handshakeAt := some (s.now + 10 * sec), stepAt := s.now, timerAt := s.now }

/-- CM_REQ (R49, R198): a duplicate gets its REP again; under the conditions a FREE context is taken and REP sent, else REJ with reason No QP
available. `comm` is the identity by which the CM standard knows a duplicate; `timeout`, `retry` and `rnr` are the local ACK timeout and the retry counts
that the REQ gives (R47). -/
def execCmReq (service comm mtu pkey timeout retry rnr : Nat) (s : State) : Res := whileCore s fun s =>
  match s.hte.sessions.find? fun x => !x.initiator && x.comm == comm && sessLive s x.id with
  | some x => .next (emit s (.cm 1 x.id 0 []))
  | none =>
    let kind := if service = serviceId 0 then some 0 else if service = serviceId 1 then some 1 else if service = serviceId 2 then some 2 else none
    let reject := emit s (.cm 3 0xFFFFFFFF 1 [])
    match kind with
    | none => .next reject
    | some k =>
      let open_ := k ≠ 0 ∨ flag s F.HTE_CTRL_ACCEPT = true
      if open_ ∧ 2 ≤ s.pwr.dev ∧ s.pwr.dev ≤ 6 ∧ mtu = 4096 ∧ pkey = 0xFFFF then
        match freeSession s with
        | none => .next (pulse reject 257)
        | some id => .next (emit (sessConnect s { newSess id comm false with retryMax := min 7 retry, rnrMax := min 7 rnr, ackExp := timeout } k false)
            (.cm 1 id 0 []))
      else .next reject

/-- CM_RTU: the queue pair of a CONNECTED session is ready. -/
def execCmRtu (session : Nat) (s : State) : Res := whileCore s fun s =>
  .next (if sessState s session = 1 then modSess s session fun x => { x with ready := true } else s)

/-- CM_DREQ (Table 02-2): answered with DREP; the session enters CLOSING with cause 1. -/
def execCmDreq (session : Nat) (s : State) : Res := whileCore s fun s =>
  .next (if sessLive s session then sessClose (emit s (.cm 5 session 0 [])) session 1 else s)

/-- HANDSHAKE_TIMER_EXPIRY (Table 02-2): 10 s after CONNECTED without the handshake done. -/
def execHandshakeTimerExpiry (session : Nat) (s : State) : Res := whileCore s fun s =>
  match (sessRec s session).bind Sess.handshakeAt with
  | some t => if sessState s session = 1 ∨ sessState s session = 2 then .next (sessDrop (reach s t) session 3) else .next s
  | none => .next s

/-! ### Checks on a capsule (Table 02-6) -/

/-- What Table 03-2 and R61 say of an opcode: the range of KEY_LEN, data to the device (0 none, 1 a value, 2 an inline body), data from the device,
whether DETACH is allowed, and the opcode flags allowed; none where it is not assigned. -/
def opSpec (op : Nat) : Option (Nat × Nat × Nat × Bool × Bool × Nat) :=
  if op = 0x01 ∨ op = 0x02 then some (0, 0, 2, true, false, 0)
  else if op = 0x04 then some (0, 0, 0, true, false, 0)
  else if op = 0x03 ∨ op = 0x05 ∨ op = 0x06 then some (0, 0, 0, false, false, 0)
  else if op = 0x10 then some (1, 256, 1, false, false, 3)
  else if op = 0x11 then some (1, 256, 0, true, true, 0)
  else if op = 0x12 ∨ op = 0x13 ∨ op = 0x16 then some (1, 256, 0, false, false, 0)
  else if op = 0x14 then some (1, 256, 1, false, false, 2)
  else if op = 0x15 then some (0, 256, 0, true, true, 1)
  else if op = 0x17 ∨ op = 0x18 then some (1, 256, 0, false, false, 1)
  else if op = 0x19 then some (1, 256, 0, true, true, 3)
  else if op = 0x1A then some (0, 256, 0, true, false, 0)
  else if op = 0x1B then some (0, 0, 0, false, false, 0)
  else if op = 0x20 ∨ op = 0x21 then some (0, 0, 2, false, false, 0)
  else if op = 0x22 then some (0, 0, 0, false, true, 1)
  else if op = 0x28 then some (0, 0, 2, false, false, 1)
  else if op = 0x29 then some (0, 0, 0, false, false, 0)
  else if op = 0x2A then some (0, 0, 0, true, false, 0)
  else if op = 0x30 then some (0, 0, 0, false, false, 1)
  else none

/-- The parameters of an opcode lie in their ranges (R56, R61, Table 03-5). -/
def paramsOk (b : Bytes) : Bool :=
  let op := capOp b
  let p0 := capP0 b
  let p1 := capP1 b
  let p2 := capP2 b
  if op = 0x01 then p1 == 1 && p2 == 0
  else if op = 0x04 ∨ op = 0x05 then p1 == 0 && p2 == 0
  else if op = 0x10 ∨ op = 0x12 ∨ op = 0x14 ∨ op = 0x16 ∨ op = 0x19 then p0 == 0 && p1 == 0
  else if op = 0x11 then decide (p1 < 2 ^ 32)
  else if op = 0x15 then p2 == 0
  else if op = 0x17 then p0 == 0 && p2 == 0
  else if op = 0x20 ∨ op = 0x21 ∨ op = 0x22 then decide (1 ≤ p0) && decide (p0 ≤ 4095) && p1 == 0 && p2 == 0
  else if op = 0x28 ∨ op = 0x29 ∨ op = 0x2A then decide (1 ≤ p0) && decide (p0 ≤ 65535) && p1 == 0 && p2 == 0
  else if op = 0x30 then decide (p0 ≤ 999999999) && p2 == 0
  else p0 == 0 && p1 == 0 && p2 == 0

/-- An opcode of R51's session commands. -/
def sessionOp (op : Nat) : Bool := decide (1 ≤ op) && decide (op ≤ 6)

/-- Check 1 of Table 02-6 fails. -/
def check1Fails (b : Bytes) : Bool :=
  decide (b.length > 4416) || decide (b.length < 64) || fld b 6 2 != b.length || decide (capNsid b > 4095) || capFlag b 3 || fld b 56 8 != 0 ||
    !(allZero (slice b (64 + capKeyLen b) (alignUp (capKeyLen b) 8 - capKeyLen b)))

/-- Check 3 fails for the fields of a capsule (R60, R61, R65, R79, R98). -/
def check3Fails (b : Bytes) : Bool :=
  match opSpec (capOp b) with
  | none => true
  | some (kmin, kmax, toDev, fromDev, det, mask) =>
    let op := capOp b
    let inl := capFlag b 0
    let vlen := capVlen b
    let bufs := fld b 20 4 != 0 || fld b 24 8 != 0 || capBufLen b != 0
    let pre := (op == 0x17 || op == 0x18) && capFlag b 4
    decide (b.length ≠ 64 + alignUp (capKeyLen b) 8 + (if inl then vlen else 0)) ||
      decide (capKeyLen b < kmin) || decide (capKeyLen b > (if pre then 48 else kmax)) ||
      (capFlag b 1 && !det) || decide (fld b 1 1 / 16 &&& mask ≠ fld b 1 1 / 16) || !(paramsOk b) ||
      (sessionOp op && bufs) ||
      (toDev == 0 && (vlen != 0 || (!fromDev && (inl || bufs)))) ||
      (toDev == 1 && ((inl && decide (vlen > 4096)) || (!inl && capBufLen b != vlen))) ||
      (toDev == 2 && (!inl || decide (vlen > 4096) || bufs)) ||
      (op == 0x01 && (vlen != 32 || capNsid b != 0)) || (op == 0x02 && vlen != 48) || ((op == 0x20 || op == 0x21) && vlen != 32) ||
      (decide (0x20 ≤ op) && capNsid b != 0) ||
      (op == 0x15 && decide (capKeyLen b > 0) && !(capFlag b 4))

/-- Check 5 fails: a session opcode in a state in which Table 02-2 has no row for it (R52). -/
def check5Fails (st op : Nat) : Bool :=
  (op == 0x01 && st != 1) || (op == 0x02 && st != 2) || ((op == 0x03 || op == 0x06) && (st == 0 || st == 4))

/-- The reason of ST_BUSY at check 6, 0 where no limit is reached (R75). -/
def busyReason (s : State) (session : Nat) (b : Bytes) : Nat :=
  if sessAt s session 70 2 ≥ sessAt s session 68 2 then 1
  else if getF s F.HTE_OUTSTANDING_COUNT ≥ 262144 then 2
  else if valueByRead b && decide (stagedBytes s + stageUnit s b > stagingSize) then 3
  else 0

/-- The first check of Table 02-6, 1 to 8, that a capsule fails, with the reply's status, results and body; a search at check 7 counts. -/
def capsuleChecks (s : State) (session : Nat) (b : Bytes) : State × Option (Nat × Nat × Nat × Option Nat) :=
  let op := capOp b
  let st := sessState s session
  if check1Fails b then (s, some (ST.malformed, 0, 0, none))
  else if (opSpec op).isNone then (s, some (ST.unknownOpcode, 0, 0, none))
  else if check3Fails b || (s.hte.cmds.any fun c => c.session == session && slice c.capsule 8 8 == slice b 8 8) then
    (s, some (ST.malformed, 0, 0, none))
  else if st ≠ 3 ∧ (op = 0x04 ∨ op = 0x05 ∨ op ≥ 0x10) then (s, some (ST.authFailed, 0, 0, none))
  else if check5Fails st op then (s, some (ST.stateConflict, stateWord s 0xFF st, 0, none))
  else if busyReason s session b ≠ 0 then
    (s, some (ST.busy, busyReason s session b, if busyReason s session b = 1 then 0 else getF s F.HTE_BUSY_HINT_MICROS, none))
  else
    let r := if op ≥ 0x10 then asuUse s 0 (accessKey (sessAt s session 80 4) (capNsid b) op) 0 else (s, ⟨true, false, 0, 0, 0, 1, []⟩)
    if !r.2.hit || r.2.adata % 2 == 0 then (r.1, some (ST.notPermitted, 0, 0, none))
    else
      let x := hashSlice (keyHash s (capNsid b) (capKey b))
      if isKeyed b && rigOn s && !(flag s F.RIG_STATUS_SWAPPING) && !(actsFor s x) then (r.1, some (ST.redirect, 0, 0, some x)) else (r.1, none)

/-! ### Acceptance -/

/-- A capsule is an administrative change (R133). -/
def isAdmin (cap : Bytes) : Bool :=
  let op := capOp cap
  op == 0x20 || op == 0x21 || op == 0x22 || op == 0x28 || op == 0x29 || ((op == 0x17 || op == 0x18) && capFlag cap 4)

/-- The state of the group that a command concerns: that of its key's slice or of the slice of its record; none for a command that concerns no group (R139). -/
def groupConcerned (s : State) (cap : Bytes) : Option Nat :=
  if isKeyed cap then some (sliceGState s (hashSlice (keyHash s (capNsid cap) (capKey cap))))
  else if isAdmin cap then some (sliceGState s (keyPlace s 0 (adminKey cap)).slice)
  else none

/-- Check 9 (R139, R140): the refusal of a command by the device or group state as (status, group state, hint), none where it is accepted. The
estimate of the time to READY is the device's own, at least 100 ms. -/
def check9 (s : State) (cap : Bytes) : State × Option (Nat × Nat × Nat) :=
  let op := capOp cap
  let reads := op == 0x11 || op == 0x13 || op == 0x15 || op == 0x19 || (op == 0x1A && decide (capKeyLen cap > 0))
  let changes := op == 0x10 || op == 0x12 || op == 0x14 || op == 0x16 || op == 0x17 || op == 0x18
  let admin := op == 0x20 || op == 0x21 || op == 0x22 || op == 0x28 || op == 0x29
  let gs := (groupConcerned s cap).getD 0xFF
  let h := fresh s
  let conflictNow := if s.pwr.dev = 2 ∨ s.pwr.dev = 3 then (h.2, some (ST.stateConflict, gs, max 100 (h.1 % 2 ^ 32)))
    else (s, some (ST.stateConflict, gs, 0))
  if op < 0x10 then (s, none)
  else if op = 0x2A then (if s.pwr.dev = 4 ∨ s.pwr.dev = 5 then (s, none) else conflictNow)
  else if !(reads || changes || admin) then (if s.pwr.dev = 7 then conflictNow else (s, none))
  else if s.pwr.dev = 5 && changes then (s, some (ST.readOnly, gs, 0))
  else if s.pwr.dev ≠ 4 ∧ s.pwr.dev ≠ 5 then conflictNow
  else if !(rigOn s) then (s, some (ST.stateConflict, 0xFF, 1000))
  else if gs = 1 then (s, some (ST.stateConflict, 1, 1000))
  else if gs = 5 ∧ !reads = true then (s, some (ST.groupSuspended, 5, 0))
  else (s, none)

/-- A free handle slot of R79: the lowest. -/
def freeHandle (s : State) : Nat :=
  (firstIdx (fun i => !(s.hte.cmds.any fun c => match c.handle with | some h => h % 65536 == i | none => false)) 65536 0).getD 0

/-- Crew firmware takes a command up: check 9, then ST_PENDING with a handle for a detached one (R79, R139). DESIGN CHOICE: the generation in bits 31 to 16
of a handle is the command's place in the order of arrival, modulo 65,536 (log entry 65). -/
def takeUp (s : State) (i : Nat) : State :=
  match cmdOf s i with
  | none => s
  | some c =>
    if c.reason = 0 ∨ c.reason = 10 ∨ c.handle.isSome = true then s
    else
      let r := check9 s c.capsule
      match r.2 with
      | some (st, gs, hint) => conflict r.1 c st gs hint
      | none =>
        if capFlag c.capsule 1 then
          let h := freeHandle r.1 + 65536 * (c.order % 65536)
          hostSend (putCmd r.1 { c with handle := some h }) c.session (replyBytes c.capsule ST.pending 0 0 h 0 [])
        else r.1

/-- What a PUT needs is free at once (reason 9 of Table 02-11): value staging for the whole of a value that is read, and in the journal room for the
records and either the unit slots of a large value's stripes or a place in an open stripe, which is one that the record still fits in or one that
can be opened. -/
def putRoom (s : State) (p : KeyPlace) (b : Bytes) : Bool :=
  let group := sliceGroup s p.slice
  let k := ((writingSet s group).map GenSet.k).getD 1
  let staged := decide (stagedBytes s + (alignUp (capVlen b) 65536 - stageUnit s b) ≤ stagingSize)
  ringRoom s 1024 && (!(valueByRead b) || staged) &&
    (if capVlen b > 65072 then (slotsFree s (largeRun k (capVlen b))).isSome
     else match openFor s group (capNsid b) with
       | some o => (packSpot o (128 + alignUp (capKeyLen b) 8 + alignUp (capVlen b) 8)).isSome
       | none => (slotsFree s k).isSome)

/-- The reason of Table 02-11, 1 to 9, for handing a command on, 0 where the fast path takes it, with the ADATA of reason 6. -/
def handReason (s : State) (b : Bytes) : State × Nat × Nat :=
  let op := capOp b
  let p := keyPlace s (capNsid b) (capKey b)
  if !(op == 0x10 || op == 0x11 || op == 0x12 || op == 0x13) then (s, 1, 0)
  else if !(flag s F.HTE_CTRL_FASTPATH) then (s, 2, 0)
  else if capFlag b 1 then (s, 3, 0)
  else if s.pwr.dev ≠ 4 then (s, 4, 0)
  else if sliceGState s p.slice ≠ 2 then (s, 5, 0)
  else
    let r := asuUse s 1 (prefixKey (capNsid b) (capKey b)) 2
    if r.2.hit then (r.1, 6, r.2.adata)
    else
      let h := if op = 0x10 ∨ op = 0x12 then asuUse r.1 2 (prefixKey (capNsid b) (capKey b)) 2 else (r.1, r.2)
      let s := h.1
      let s := touch s 3 (dirAddr s p.slice p.bucket) 8
      let resident := decide (dirState s p.slice p.bucket ≥ 2) && !(dirBusy s p.slice p.bucket)
      let bk := if dirState s p.slice p.bucket ≥ 2 then bucketLook s p.slice p.bucket else []
      if h.2.hit || (keyHold bk (capNsid b) p).isSome then (s, 7, 0)
      else if !resident then (s, 8, 0)
      else
        let full := (entryOf bk (capNsid b) p).isNone && decide (placesUsed s p bk ≥ 512)
        if op = 0x10 && (full || !(putRoom s p b)) then (s, 9, 0) else (s, 0, 0)

/-- A command accepted: its slot and the counts that it raises (R62, R86). The content of its 64-byte entry in the command table is the device's own: the
model keeps it beside memory, and a read of the entry shows memory as it stood (log entry 65). -/
def acceptCmd (s : State) (session : Nat) (b : Bytes) : State × Option Cmd :=
  match firstIdx (fun i => (cmdOf s i).isNone) 262144 0 with
  | none => (s, none)
  | some i =>
    let gen := ((kvGet s.hte.gens i).getD 0 + 1) % 2 ^ 14
    let c : Cmd := ⟨i, gen, session, b, s.hte.nextOrder, 0, false, false, none, none, false, false, [], 0, 0, none, none, 0, [], [], none⟩
    let s := sessPut s session 70 2 (sessAt s session 70 2 + 1)
    let s := setF s F.HTE_OUTSTANDING_COUNT (getF s F.HTE_OUTSTANDING_COUNT + 1)
    ({ s with hte := { s.hte with cmds := s.hte.cmds ++ [c], gens := kvPut s.hte.gens i gen, nextOrder := s.hte.nextOrder + 1 } }, some c)

/-- A host session's queue pair takes SEND messages: it is ready, or CLOSING for another cause than the queue pair's own end, in which state every
capsule is refused (R52, R59). -/
def takesCapsules (s : State) (session : Nat) : Bool :=
  sessKind s session == 0 && (match sessRec s session with
    | some x => (sessLive s session && x.ready) || (sessState s session == 4 && x.cause != 2)
    | none => false)

/-- Check 7 was reached: the capsule is accepted, redirected, or refused there. -/
def searched : Option (Nat × Nat × Nat × Option Nat) → Bool
  | none => true
  | some (st, _, _, _) => st == ST.notPermitted || st == ST.redirect

/-- A capsule needs the rig: its key's slice, or the slice and group of its record, come from it. -/
def needsRig (cap : Bytes) : Bool := isKeyed cap || isAdmin cap

/-- A command accepted goes on: it begins on the fast path, unless it is ORDERED and earlier commands have not replied (R72), or it is handed on. -/
def routeCmd (s : State) (c : Cmd) : State :=
  let q := handReason s c.capsule
  if q.2.1 = 0 then (if orderedWaits q.1 c then q.1 else readMore 16 q.1 c.index)
  else
    let s := handOn q.1 c q.2.1 q.2.2 0
    if entryHeld s c then s else takeUp s c.index

/-- The swap has ended: the capsules held for it go on, those whose slice another device has now having been redirected (R216, R306). -/
def releaseSwapHeld (s : State) : State :=
  (s.hte.cmds.filter fun c => c.reason == heldForSwap && !c.ended).foldl (fun s c => routeCmd (putCmd s { c with reason := 0 }) { c with reason := 0 }) s

/-- CAPSULE (R62): a SEND message on a host session whose queue pair is ready. A held session answers RNR NAK (R76). Checks 1 to 8 are the engine's;
a capsule that passes them takes a slot, and runs on the fast path or is handed on; one that needs the rig is held in its slot while a swap runs, before check
8 (R306). Access rules that give check 7 another outcome than R99 and R104 require are R473's third case. -/
def execCapsule (session : Nat) (message : Bytes) (s : State) : Res := whileCore s fun s =>
  if !(takesCapsules s session) then .next s
  else if flag s F.HTE_SESS_HOLD_HELD && getF s F.HTE_SESS_HOLD_SESSION == session then .next (emit s (.roce session 1))
  else
    let b := if message.length < 16 then fit (message.take 8) 16 else message.take 4416
    let r := capsuleChecks s session message
    if searched r.2 && accessClash s session message then .fault (.undefined473 3)
    else
    match r.2 with
    | some (_, _, _, some x) => .next (refuse r.1 session (redirectBytes r.1 b x))
    | some (st, r0, r1, none) => .next (refuse r.1 session (replyBytes b st 0 0 r0 r1 []))
    | none =>
      match acceptCmd r.1 session message with
      | (s, none) => .next s
      | (s, some c) =>
        if flag s F.RIG_STATUS_SWAPPING && needsRig message then .next (putCmd s { c with reason := heldForSwap })
        else .next (routeCmd s c)

/-- EXC_QUEUE_ROOM (R85): the entries held are posted in order while there is room, and crew firmware takes up the commands among them. -/
def execExcQueueRoom (s : State) : Res := whileCore s fun s =>
  let before := s.hte.excHeld
  let s := excDrain before s
  let posted := before.take (before.length - s.hte.excHeld.length)
  .next (posted.foldl (fun s e => if fld e 0 1 = 0x70 then takeUp s (fld e 8 4 % 2 ^ 18) else s) s)

/-! ### Session opcodes -/

/-- A session proof (R57): HMAC-SHA-384 under the tenant secret over label, nonces, hull number, session and tenant. -/
def sessionProof (secret label clientNonce serverNonce : Bytes) (session tenant : Nat) : Bytes :=
  hmacSha384 secret (label ++ fit clientNonce 32 ++ fit serverNonce 32 ++ le 8 Config.hull ++ le 2 session ++ le 2 tenant)

/-- The label AZK-SESS-H. -/
def labelSessH : Bytes := [0x41, 0x5A, 0x4B, 0x2D, 0x53, 0x45, 0x53, 0x53, 0x2D, 0x48]
/-- The label AZK-SESS-D. -/
def labelSessD : Bytes := [0x41, 0x5A, 0x4B, 0x2D, 0x53, 0x45, 0x53, 0x53, 0x2D, 0x44]

/-- A reply with inline data. -/
def answerInline (s : State) (c : Cmd) (r0 r1 : Nat) (d : Bytes) : State := finish s c (replyBytes c.capsule ST.ok 1 d.length r0 r1 d)

/-- OPEN (R56, R58): nonces exchanged, MAX_OUT granted, CONNECTED becomes OPENED whatever the tenant. -/
def execOpen (cmd : Nat) (s : State) : Res :=
  onCmd s cmd 0x01 fun s c =>
    let id := c.session
    if sessState s id ≠ 1 then .next (conflict s c ST.stateConflict 0xFF 0)
    else
      let n := freshBytes s 32
      let asked := capP0 c.capsule / 65536
      let grant := if asked = 0 then 1024 else min asked 1024
      let s := sessPut (sessPut (sessPut n.2 id 66 2 (capP0 c.capsule % 65536)) id 68 2 grant) id 64 1 2
      let s := memWrite s (sessBase + 128 * id + 88) n.1
      let s := modSess s id fun x => { x with nonce := (capInline c.capsule).take 32 }
      .next (answerInline s c Config.hull (id + 65536 * grant + 2 ^ 32) n.1)

/-- AUTH (R57, R58, Table 02-2): the host proof decides; the third wrong one closes the session. Crew firmware gives the session its RULE_TAG and sees to the
access rules of its tenant (R104, R471). DESIGN CHOICE: the tag is the tenant ID (log entry 67). -/
def execAuth (cmd : Nat) (s : State) : Res :=
  onCmd s cmd 0x02 fun s c =>
    let id := c.session
    if sessState s id ≠ 2 then .next (conflict s c ST.stateConflict 0xFF 0)
    else
      let tid := sessAt s id 66 2
      let cn := ((sessRec s id).map Sess.nonce).getD []
      let sn := memRead s (sessBase + 128 * id + 88) 32
      let good := match tenantOf s tid with
        | some t => (capInline c.capsule).take 48 == sessionProof t.secret labelSessH cn sn id tid
        | none => false
      if good then
        let proof := sessionProof (((tenantOf s tid).map Tenant.secret).getD []) labelSessD cn sn id tid
        let s := modSess (sessPut (sessPut s id 64 1 3) id 80 4 tid) id fun x => { x with handshakeAt := none }
        let s := accessSync s
        .next (answerInline s c 0 0 proof)
      else
        let fails := sessAt s id 87 1
        let s := answer (logCrew s EV.authFailed) c ST.authFailed 0 0
        .next (if fails < 2 then sessPut s id 87 1 (fails + 1) else sessDrop s id 4)

/-- CLOSE (Table 02-2): ST_OK, then DREQ. -/
def execClose (cmd : Nat) (s : State) : Res :=
  onCmd s cmd 0x03 fun s c => .next (sessDrop (answer s c ST.ok 0 0) c.session 0)

/-- NOP (Table 02-5): ST_OK with no result. -/
def execNop (cmd : Nat) (s : State) : Res := onCmd s cmd 0x06 fun s c => .next (answer s c ST.ok 0 0)

/-- The detached command of a session that a valid handle names (R79). -/
def handleCmd (s : State) (session handle : Nat) : Option Cmd :=
  s.hte.cmds.find? fun c => c.session == session && c.handle == some handle && !c.released

/-- RESULT_FETCH (R80, R81). -/
def execResultFetch (cmd : Nat) (s : State) : Res :=
  onCmd s cmd 0x04 fun s c =>
    match handleCmd s c.session (capP0 c.capsule) with
    | none => .next (answer s c ST.notFound 0 0)
    | some d =>
      match d.result with
      | none => .next (answer s c ST.pending 0 0)
      | some m =>
        let flags := fld m 11 1 % 2 + 2 * b2n d.fetched + 4
        .next (finish (putCmd s { d with fetched := true }) c (slice c.capsule 8 8 ++ slice m 8 3 ++ le 1 flags ++ m.drop 12))

/-- RESULT_RELEASE (R82): the handle is invalid at once; an operation that has not ended is not cancelled. -/
def execResultRelease (cmd : Nat) (s : State) : Res :=
  onCmd s cmd 0x05 fun s c =>
    match handleCmd s c.session (capP0 c.capsule) with
    | none => .next (answer s c ST.notFound 0 0)
    | some d =>
      let s := if d.ended then endCmd s d else putCmd s { d with handle := none, released := true }
      .next (answer s c ST.ok (b2n (!d.ended)) 0)

/-! ### RDMA (R66, R69) -/

/-- RDMA_READ_RESPONSE (R66): the oldest read of a session returns: a part of a command's value, or the bytes an HTE_RDMA_READ asked for. A response of
another length is one that the standard rejects. -/
def execRdmaReadResponse (session : Nat) (data : Bytes) (s : State) : Res := whileCore s fun s =>
  match sessRec s session with
  | none => .next s
  | some x =>
    match x.reads with
    | [] => .next s
    | (user, at_, len) :: rest =>
      if data.length ≠ len then .next s
      else
        let s := putSess s { x with reads := rest }
        if user ≥ 2 ^ 20 then
          match openAt s (user - 2 ^ 20) at_ 0x74 with
          | none => .next s
          | some t =>
            let w := fabWrite s 4 (fld t.bytes 16 8) data
            .next (hteDone w.1 t (if w.2 then 0 else 4))
        else
          let s := match cmdOf s user with
            | some c => storeAs (putCmd s { c with value := c.value ++ data }) 4 (stagingSlot user) data
            | none => s
          let more := (s.hte.cmds.filter fun c => c.session == session && decide (c.asked > 0) && c.reply.isNone).map Cmd.index
          .next (more.foldl (fun s i => readMore 16 s i) s)

/-- RDMA_ERROR_NAK (R69): the queue pair is in the error state and the session closes. -/
def execRdmaErrorNak (session : Nat) (s : State) : Res := whileCore s fun s => .next (sessClose s session 2)

/-- HTE_SESS_HOLD_WRITE (R84): a write of HTE_SESS_HOLD; one that changes SESSION while REQ is 1 is ignored unless it sets REQ to 0. HELD follows at
once, since no capsule is being parsed between commands. -/
def execHteSessHoldWrite (core value : Nat) (s : State) : Res :=
  coreStore s core F.HTE_SESS_HOLD_REQ.addr fun s =>
    if bits value 16 14 ≠ 0 then .fault .reservedNonzero
    else if flag s F.HTE_SESS_HOLD_REQ && bitAt value 31 && getF s F.HTE_SESS_HOLD_SESSION != value % 65536 then .next s
    else
      .next (setF (setF (setF s F.HTE_SESS_HOLD_REQ (bits value 31 1)) F.HTE_SESS_HOLD_HELD (bits value 31 1)) F.HTE_SESS_HOLD_SESSION value)

/-! ### HTE entries (R90, R91, Tables 02-13 and 02-14) -/

/-- The request of an HTE_RDMA_READ entry is outstanding. -/
def readIssued (s : State) (t : Taken) : Bool :=
  s.hte.sessions.any fun x => x.reads.any fun r => r.1 == 2 ^ 20 + t.queue && r.2.1 == t.index

/-- What an HTE entry names: a command or a session. -/
def hteNames (b : Bytes) : Option (Nat × Nat) :=
  let op := fld b 0 1
  if op = 0x73 ∨ op = 0x74 ∨ op = 0x75 then some (0, fld b 8 4)
  else if op = 0x76 ∨ op = 0x78 then some (1, fld b 8 2)
  else none

/-- The first entry of a queue with an opcode that takes effect now: entries that name one command or session do so in the order taken, and an
HTE_REPLY comes after every HTE_RDMA_WRITE of its command taken before it on any queue (R91). -/
def hteEntry (s : State) (q op : Nat) : Option Taken :=
  let open_ := s.wq.taken.filter fun t => t.queue == q && !t.ended && t.result.isNone && !(readIssued s t)
  match open_.find? fun t => fld t.bytes 0 1 == op with
  | none => none
  | some t =>
    let before := open_.takeWhile fun u => u.index != t.index
    let earlier := s.wq.taken.takeWhile fun u => !(u.queue == t.queue && u.index == t.index && !u.ended)
    let writes := op == 0x73 && earlier.any fun u => !u.ended && u.result.isNone && fld u.bytes 0 1 == 0x75 && fld u.bytes 8 4 == fld t.bytes 8 4
    if writes || ((hteNames t.bytes).isSome && before.any fun u => hteNames u.bytes == hteNames t.bytes) then none else some t

/-- Bytes that Table 02-13 does not name for an entry's opcode. -/
def hteReserved (b : Bytes) : Bool :=
  let op := fld b 0 1
  if op = 0x73 then !(allZero (slice b 33 31)) || decide (fld b 32 1 > 3)
  else if op = 0x74 ∨ op = 0x75 then !(allZero (slice b 40 24))
  else if op = 0x76 then fld b 10 2 != 0 || !(allZero (slice b 32 32))
  else if op = 0x77 then fld b 8 4 != 0 || !(allZero (slice b 32 32))
  else !(allZero (slice b 10 14)) || !(allZero (slice b 32 32))

/-- The outstanding command a CMD_ID names. -/
def cmdById (s : State) (id : Nat) : Option Cmd :=
  match cmdOf s (id % 2 ^ 18) with
  | some c => if cmdId c = id then some c else none
  | none => none

/-- HTE_REPLY (R91): the reply is sent and the command ends; with KEEP it stays outstanding, with SILENT nothing is sent. DESIGN CHOICE (log entry 65): with
KEEP and SILENT both set the command ends, and where the read of SRC fails (HSTATUS 4) it stays outstanding. -/
def execHteReply (queue : Nat) (s : State) : Res := whileCore s fun s =>
  match hteEntry s queue 0x73 with
  | none => .next s
  | some t =>
    let len := fld t.bytes 12 4
    let keep := bitAt (fld t.bytes 32 1) 0
    let silent := bitAt (fld t.bytes 32 1) 1
    if hteReserved t.bytes || (silent && len != 0) || (!silent && (decide (len < 32) || decide (len > 4128))) then .next (hteDone s t 5)
    else
      match cmdById s (fld t.bytes 8 4) with
      | none => .next (hteDone s t 1)
      | some c =>
        if !(sessLive s c.session) then .next (hteDone (if keep && !silent then s else endCmd s c) t 2)
        else if silent then .next (hteDone (endCmd s c) t 0)
        else
          match fabRead s 3 (fld t.bytes 16 8) len with
          | (s, none) => .next (hteDone s t 4)
          | (s, some m) =>
            let s := hostSend s c.session m
            .next (hteDone (if keep then s else endCmd s c) t 0)

/-- The checks an RDMA entry makes, by HSTATUS: its command, or why it fails. -/
def rdmaCheck (s : State) (t : Taken) : Except Nat Cmd :=
  let len := fld t.bytes 12 4
  if hteReserved t.bytes || len == 0 || decide (len > 65536) then .error 5
  else
    match cmdById s (fld t.bytes 8 4) with
    | none => .error 1
    | some c =>
      if !(sessLive s c.session) then .error 2
      else if fld t.bytes 32 8 + len > capBufLen c.capsule then .error 6
      else .ok c

/-- HTE_RDMA_READ (R91): the request goes out, once fewer than 16 are outstanding on the session; the entry ends when its bytes are in memory. -/
def execHteRdmaRead (queue : Nat) (s : State) : Res := whileCore s fun s =>
  match hteEntry s queue 0x74 with
  | none => .next s
  | some t =>
    match rdmaCheck s t with
    | .error e => .next (hteDone s t e)
    | .ok c =>
      match sessRec s c.session with
      | none => .next s
      | some x =>
        if x.reads.length ≥ 16 then .next s
        else
          let len := fld t.bytes 12 4
          let s := emit s (.rdmaRead c.session ((fld c.capsule 24 8 + fld t.bytes 32 8) % 2 ^ 64) (fld c.capsule 20 4) len)
          .next (putSess s { x with reads := x.reads ++ [(2 ^ 20 + t.queue, t.index, len)] })

/-- HTE_RDMA_WRITE (R91): device memory written into the command's host buffer. -/
def execHteRdmaWrite (queue : Nat) (s : State) : Res := whileCore s fun s =>
  match hteEntry s queue 0x75 with
  | none => .next s
  | some t =>
    match rdmaCheck s t with
    | .error e => .next (hteDone s t e)
    | .ok c =>
      match fabRead s 4 (fld t.bytes 16 8) (fld t.bytes 12 4) with
      | (s, none) => .next (hteDone s t 4)
      | (s, some d) =>
        let s := emit s (.rdmaWrite c.session ((fld c.capsule 24 8 + fld t.bytes 32 8) % 2 ^ 64) (fld c.capsule 20 4) d)
        .next (hteDone s t 0)

/-- HTE_SEND (R89): one message on a peer session, as crew firmware made it. DESIGN CHOICE: a session that is CLOSING or FREE gives HSTATUS 2 whatever its
KIND (log entry 65). -/
def execHteSend (queue : Nat) (s : State) : Res := whileCore s fun s =>
  match hteEntry s queue 0x76 with
  | none => .next s
  | some t =>
    let id := fld t.bytes 8 2
    let len := fld t.bytes 12 4
    if hteReserved t.bytes || decide (len < 64) || decide (len > 65624) then .next (hteDone s t 5)
    else if !(sessLive s id) then .next (hteDone s t 2)
    else if sessKind s id ≠ 1 then .next (hteDone s t 5)
    else
      match fabRead s 3 (fld t.bytes 16 8) len with
      | (s, none) => .next (hteDone s t 4)
      | (s, some m) => .next (hteDone (emit s (.peer id m)) t 0)

/-- HTE_RX_POST (R89, R91): a receive buffer for peer messages. -/
def execHteRxPost (queue : Nat) (s : State) : Res := whileCore s fun s =>
  match hteEntry s queue 0x77 with
  | none => .next s
  | some t =>
    let len := fld t.bytes 12 4
    let a := fld t.bytes 16 8
    if hteReserved t.bytes || decide (len < 1024) || decide (len > 65664) || len % 64 != 0 || a % 64 != 0 then .next (hteDone s t 5)
    else .next (hteDone { s with hte := { s.hte with rxBufs := s.hte.rxBufs ++ [(a, len)] } } t 0)

/-- HTE_CLOSE (R91): the session moves to CLOSING, and DREQ is sent. -/
def execHteClose (queue : Nat) (s : State) : Res := whileCore s fun s =>
  match hteEntry s queue 0x78 with
  | none => .next s
  | some t =>
    let id := fld t.bytes 8 2
    if hteReserved t.bytes || sessState s id == 0 then .next (hteDone s t 5)
    else if sessState s id = 4 then .next (hteDone s t 2)
    else .next (hteDone (sessDrop s id 5) t 0)

end Sys2Proof.Machine
end

