-- ==== Sys2Proof/Machine/Peers.lean ====
section
/-! DEFINITION. The commands of peer sessions (02, 05): their opening, HELLO, messages that arrive, and the replies to this device's requests. -/

namespace Sys2Proof.Machine

/-! ### Opening a peer session (R198, R247) -/

/-- The devices that share a group with this one in the active or the staged rig. -/
def groupHulls (s : State) : List Nat :=
  (rigPeers (activeView s) ++ (match stagedRig s with | some c => rigPeers (containerView c) | none => [])).eraseDups

/-- PEER_SESSION_OPEN (R198, R247): the device with the lower hull number sends the CM REQ of a peer session, or with KIND 2 of the fall-back session
of a pair channel, where none exists and none is being opened. Crew firmware writes KIND and PEER_HULL of the context (R203). -/
def execPeerSessionOpen (hull kind : Nat) (s : State) : Res := whileCore s fun s =>
  let wanted := if kind = 1 then (groupHulls s).contains hull else kind == 2 && (chanWith s hull).isSome
  let opening := s.hte.sessions.any fun x => x.initiator && sessState s x.id == 0 && sessKind s x.id == kind && sessHull s x.id == hull
  if !wanted || !decide (Config.hull < hull) || (anySession s kind hull).isSome || opening then .next s
  else
    match freeSession s with
    | none => .next s
    | some id =>
      let s := putSess s (newSess id s.hte.nextOrder true)
      let s := { s with hte := { s.hte with nextOrder := s.hte.nextOrder + 1 } }
      .next (emit (sessPut (sessPut s id 65 1 kind) id 72 8 hull) (.cm 0 id (serviceId kind) []))

/-! ### HELLO (R199, R200, Tables 05-1 and 05-2) -/

/-- An ephemeral context drawn by Cox (PEER_EPH): CTX and EPH_PUB. Cox holds 64 contexts and discards the oldest (Table 19-2). -/
def coxEph (s : State) : Nat × Bytes × State :=
  let d := freshBytes s 48
  let ctx := d.2.cox.nextCtx
  let keep := if d.2.cox.ephs.length ≥ 64 then d.2.cox.ephs.drop 1 else d.2.cox.ephs
  (ctx, fit (Config.ecPublic d.1) 97, { d.2 with cox := { d.2.cox with ephs := keep ++ [(ctx, d.1)], nextCtx := (ctx + 1) % 2 ^ 32 } })

/-- The label of a signed HELLO body: AZK-PEER-I or AZK-PEER-R. -/
def helloLabel (initiator : Bool) : Bytes :=
  [0x41, 0x5A, 0x4B, 0x2D, 0x50, 0x45, 0x45, 0x52, 0x2D] ++ (if initiator then [0x49] else [0x52])

/-- The session key of R200 from the private and the peer's public ephemeral key. -/
def peerKeyOf (priv pub nonceI nonceR : Bytes) (hullI hullR : Nat) : Bytes :=
  hmacSha384 (fit (Config.ecdh priv pub) 48)
    ([0x41, 0x5A, 0x4B, 0x2D, 0x50, 0x45, 0x45, 0x52, 0x2D, 0x4B] ++ fit nonceI 32 ++ fit nonceR 32 ++ le 8 hullI ++ le 8 hullR)

/-- The HELLO body of this device, signed by Cox with the identity key; a responder signs the initiator's NONCE and EPH_PUB as well. -/
def helloBody (s : State) (initiator : Bool) (nonce eph peer : Bytes) : Bytes :=
  let b := le 8 Config.hull ++ le 8 (activeEpoch s) ++ le 8 (getF s F.RIG_STAGED_EPOCH_EPOCH) ++ fit nonce 32 ++ fit eph 97 ++ zeros 7
  b ++ fit (Config.ecdsaSign Config.identityKey (helloLabel initiator ++ b ++ (if initiator then [] else slice peer 24 129))) 96

/-- The public key that the active rig, or else the staged one, gives for a hull number. -/
def rigPublicKey (s : State) (hull : Nat) : Option Bytes :=
  let find := fun (v : RigView) => (v.devOfHull hull).map fun d => v.bytes 1 d 48 97
  match find (activeView s), stagedRig s with
  | some k, _ => some k
  | none, some c => find (containerView c)
  | none, none => none

/-- The checks of Table 05-1 on a HELLO body: its HULL shares a group with this device and its signature verifies; `own` is this device's body
where the sender is the responder. -/
def helloGood (s : State) (body own : Bytes) (fromInitiator : Bool) : Bool :=
  let hull := fld body 0 8
  decide (body.length = 256) && (groupHulls s).contains hull &&
    (match rigPublicKey s hull with
     | some k => Config.ecdsaVerify k (helloLabel fromInitiator ++ body.take 160 ++ (if fromInitiator then [] else slice own 24 129)) (slice body 160 96)
     | none => false)

/-- The peer session key derived and kept, the private key discarded, and with a KIND 1 session K_P loaded in the channel's KEY_SLOT (PEER_KEY,
R248, R621). -/
def takePeerKey (s : State) (id ctx : Nat) (peerBody nonce : Bytes) (initiator : Bool) : State :=
  let hull := fld peerBody 0 8
  let priv := ((s.cox.ephs.find? fun e => e.1 == ctx).map Prod.snd).getD []
  let pn := slice peerBody 24 32
  let key := if initiator then peerKeyOf priv (slice peerBody 56 97) nonce pn Config.hull hull
    else peerKeyOf priv (slice peerBody 56 97) pn nonce hull Config.hull
  let s := { s with cox := { s.cox with ephs := s.cox.ephs.filter fun e => e.1 != ctx } }
  let s := modSess (sessPut s id 72 8 hull) id fun x => { x with key := some key, peerNonce := pn, peerEph := slice peerBody 56 97, txSeq := 0, rxSeq := 0 }
  if sessKind s id ≠ 1 then s else keyChannel s hull key

/-- A HELLO request sent by the initiator as soon as it is CONNECTED. Cox signs nothing once it has dropped the identity key (R570). -/
def sendHello (s : State) (id : Nat) : State :=
  if s.cox.dropped then s
  else
    let e := coxEph s
    let n := freshBytes e.2.2 32
    let body := helloBody n.2 true n.1 e.2.1 []
    let s := modSess n.2 id fun x => { x with nonce := n.1, ephCtx := e.1, ephPub := e.2.1 }
    let tag := s.hte.nextTag
    let s := { s with hte := { s.hte with nextTag := tag + 1 } }
    peerEmit s id (peerBytes { op := 0x80, epoch := activeEpoch s, tag := tag } body)

/-- CM_REP (R198): REP for a CM REQ of this device (`accepted` 1) is answered with RTU, the session is CONNECTED, and HELLO goes out; a REJ gives the
attempt up. -/
def execCmRep (session accepted : Nat) (s : State) : Res := whileCore s fun s =>
  match sessRec s session with
  | none => .next s
  | some x =>
    if !x.initiator || sessState s session != 0 then .next s
    else if accepted = 1 then
      let kind := sessKind s session
      .next (sendHello (emit (sessConnect s x kind true) (.cm 2 session 0 [])) session)
    else
      let s := memWrite s (sessBase + 128 * session) (zeros 128)
      .next { s with hte := { s.hte with sessions := s.hte.sessions.filter fun y => y.id != session } }

/-- A forwarded change made anew for a session: its secret masked for the SEQ it takes (R212, R620). -/
def resendForward (s : State) (r : PeerReq) : State :=
  match s.hte.cmds.find? fun c => c.asked == r.tag && decide (0x17 ≤ capOp c.capsule) with
  | none => resendRequest s r
  | some c =>
    let cap := hostCapsule s c
    let k := nextSeal s r.hull
    let body := maskCapsule cap (peerMask k.1 k.2 (capP0 cap % 65536))
    let q := { r with msg := peerBytes (readPeer r.msg) body }
    resendRequest { s with hte := { s.hte with requests := s.hte.requests.map fun p => if p.tag == r.tag then q else p } } q

/-- What a session that has become AUTHENTICATED brings: the first 1,024 requests kept for the device go out (R202), administrative records anew (R212),
GROUP_STATUS of the shared groups, the PHASE of a device that shares a group under the staged rig alone, and the groups that wait for sessions may form. -/
def sessionUp (s : State) (hull : Nat) : State :=
  let s := (sharedGroups s hull).foldl (fun s g => tellHulls { op := 0x86, group := g.id } (statusBody s g s.pwr.dev) [hull] s) s
  let s := match stagedRig s with | some c => if s.epoch.phase = 1 then tellStaged s (containerView c) else s | none => s
  let kept := (s.hte.requests.filter fun r => r.hull == hull).take 1024
  let s := kept.foldl (fun s r =>
    if r.op = 0x88 then resendForward s r
    else if r.op = 0x89 then
      match s.kv.changes.find? fun c => c.waiting.any fun w => w.2 == r.tag with
      | some c => resendRecord s c hull
      | none => resendRequest s r
    else resendRequest s r) s
  settleAll s

/-- HELLO (R199, R200, Table 05-1): a request is answered with this device's HELLO and the session is OPENED; a reply makes it AUTHENTICATED; what fails
is recorded and the session closed. -/
def execHello (s : State) : Res :=
  onPeer 0x80 s fun s id b =>
    let body := peerBody b
    let reply := bitAt (fld b 1 1) 0
    match sessRec s id with
    | none => .next s
    | some x =>
      if sessState s id ≠ 1 ∨ x.initiator ≠ reply then
        .next (if reply then s else peerReply s id b ST.stateConflict (stateWord s 0xFF (sessState s id)) 0 [])
      else if reply then
        let kind := sessKind s id
        if fld b 2 2 = 0 && helloGood s body (zeros 24 ++ x.nonce ++ x.ephPub) false then
          let s := takePeerKey s id x.ephCtx body x.nonce true
          let s := modSess (sessPut s id 64 1 3) id fun y => { y with handshakeAt := none }
          let hull := fld body 0 8
          if kind = 1 then .next (sessionUp s hull)
          else
            match sharedGroups s hull with
            | g :: _ => .next (peerEmit s id (peerBytes { op := 0x86, group := g.id, epoch := activeEpoch s } (statusBody s g s.pwr.dev)))
            | [] => .next s
        else .next (sessDrop (logCrew s EV.peerAuthFailed) id 5)
      else if s.cox.dropped then .next s
      else if helloGood s body [] true then
        let e := coxEph s
        let n := freshBytes e.2.2 32
        let own := helloBody n.2 false n.1 e.2.1 body
        let s := modSess n.2 id fun y => { y with nonce := n.1, ephCtx := e.1, ephPub := e.2.1 }
        let s := peerReply s id b ST.ok 0 0 own
        .next (sessPut (takePeerKey s id e.1 body n.1 false) id 64 1 2)
      else .next (sessDrop (logCrew (peerReply s id b ST.authFailed 0 0 []) EV.peerAuthFailed) id 5)

/-! ### Replies to this device's requests (R89, R208, R231, R272) -/

/-- The unit that a FRAG_WRITE request carries settled in its intent: acknowledged, or sent no more. -/
def unitSettled (s : State) (r : PeerReq) : State :=
  let group := fld r.msg 4 4
  let stripe := fld r.msg 16 8
  let pos := fld r.msg 24 1
  match intentOf s group (fld r.msg 40 8) with
  | none => s
  | some i => putIntent s { i with units := i.units.map fun u => if u.stripe == stripe && u.pos == pos then { u with acked := true } else u }

/-- A request kept, to be sent again at a time. -/
def requestLater (s : State) (r : PeerReq) (at_ : Nat) : State :=
  { s with hte := { s.hte with requests := s.hte.requests.map fun q => if q.tag == r.tag then { q with sentAt := at_ } else q } }

/-- A request that waits for room on its session sent, where there is room (R202). -/
def releaseHeld (s : State) (hull : Nat) : State :=
  match s.hte.requests.find? fun r => r.hull == hull && r.session == noSession with
  | none => s
  | some r => if docked s hull || requestSession s hull == noSession then s
    else
      let q := { r with firstAt := s.now }
      resendRequest { s with hte := { s.hte with requests := s.hte.requests.map fun p => if p.tag == r.tag then q else p } } q

/-- A request given up or answered: one that waits for its room goes out. -/
def requestDone (s : State) (r : PeerReq) : State := releaseHeld (dropRequests s fun q => q.tag == r.tag) r.hull

/-- A reply to FRAG_WRITE (R208, R272, Table 07-2): acknowledged; sent again after the hint, or after 1 ms; the group SUSPENDED; the stripe counted
lost; ST_INTEGRITY answered by sending again, twice; any other refusal ends the sending and the seat is declared lost. -/
def fragWriteReply (s : State) (r : PeerReq) (b : Bytes) : State :=
  let h := readPeer b
  let group := fld r.msg 4 4
  let stripe := unit0 (fld r.msg 16 8)
  let seat := (hullSeat s group r.hull).getD 0
  if h.status = ST.ok then unitSettled (requestDone s r) r
  else if h.status = ST.busy then requestLater s r (s.now + (if h.arg1 % 2 ^ 32 = 0 then ms else h.arg1 % 2 ^ 32 * us))
  else if h.status = ST.stateConflict then requestLater s r (s.now + ms)
  else if h.status = ST.groupSuspended then
    let s := requestLater s r (s.now + ms)
    match groupRec s group with
    | some g => if g.gstate ≥ 2 ∧ g.gstate ≤ 4 then suspendCommands (setGState s group 5) group else s
    | none => s
  else if h.status = ST.dataLost then
    let mine := s.hte.requests.filter fun q => q.op == 0x81 && fld q.msg 4 4 == group && unit0 (fld q.msg 16 8) == stripe
    let s := mine.foldl (fun s q => unitSettled (requestDone s q) q) s
    match groupRec s group with
    | some g => putGroup s { g with kept := g.kept.map fun k => if k.stripe == stripe then { k with lost := true } else k }
    | none => s
  else
    match groupRec s group with
    | none => requestDone s r
    | some g =>
      let i := (g.info seat).getD (noInfo seat 0)
      let n := ((i.refusals.find? fun q => q.1 == stripe).map Prod.snd).getD 0 + 1
      if h.status = ST.integrity ∧ n < 3 then
        let i := { i with refusals := (stripe, n) :: i.refusals.filter fun q => q.1 != stripe }
        resendRequest (putGroup s (g.setInfo i)) r
      else tryDeclare (requestDone s r) group seat

/-- A reply to FRAG_READ: a block of a rig fetch (R303), a fragment a command or crew work waits for, or a probe (R232). -/
def fragReadReply (s : State) (r : PeerReq) (b : Bytes) : State :=
  let h := readPeer b
  let group := fld r.msg 4 4
  let stripe := fld r.msg 16 8
  let pos := fld r.msg 24 1
  let body := peerBody b
  if group = 0 ∧ pos = 0xFF then
    let s := requestDone s r
    if h.status ≠ ST.ok then s
    else
      let a := getF s F.RIG_SRC_ADDR_ADDR
      let s := crewStore s (a + 65536 * stripe) body
      let total := peekNat s (a + 8) 4
      if 65536 * (stripe + 1) < total then
        (peerRequest s r.hull { op := 0x82, stripe := stripe + 1, pos := 0xFF, arg1 := fld r.msg 48 8 } []).1
      else setF s F.RIG_SRC_LEN_BYTES total
  else
    match s.hte.fetches.find? fun f => f.tag == r.tag with
    | some f =>
      let failed := match genOf s f.group (genFor s f.group f.stripe) with
        | some x => h.status == ST.ok && f.user != crewUser s 4 f.group && !(bitAt h.pflags 1) && (unitArrived s x f.pos (fit body 65536)).isFailed
        | none => false
      let fault := failed || h.status == ST.notFound || h.status == ST.integrity || h.status == ST.dataLost
      probesJudged (putFetch (requestDone (if fault then replan s f.group else s) r) { f with reply := some (h.status, bitAt h.pflags 1, body) }) f
    | none =>
      let decided := h.status == ST.ok || h.status == ST.notFound || h.status == ST.integrity || h.status == ST.dataLost
      match s.pj.intents.find? fun i => i.group == group && i.resolving && i.probes.contains (stripe, pos) with
      | some i => if decided then probeAnswered (requestDone s r) i stripe pos (h.status == ST.ok) else s
      | none => requestDone s r

/-- A reply to INVENTORY: for a rebuild of this seat (R280), for copying (R197), for an index rebuild (R174). -/
def inventoryReply (s : State) (r : PeerReq) (b : Bytes) : State :=
  let h := readPeer b
  let group := fld r.msg 4 4
  let body := peerBody b
  let arg := fld r.msg 40 8
  let target := arg % 32
  let mode := b2n (bitAt arg 8)
  if h.status = ST.busy then requestLater s r (s.now + ms)
  else
    let s := requestDone s r
    match hullSeat s group r.hull with
    | none => s
    | some seat =>
      let awaits := match groupRec s group with
        | some g => target == g.seat && (match g.rebuild with | some q => q.asked.contains (seat, mode) | none => false)
        | none => false
      let s := if awaits then rebuildInventory s group seat mode h.arg1 body else s
      let s := match s.kv.rebuilds.find? fun q => q.group == group && mode == 0 && target == seat && q.asked.contains seat with
        | some q => indexInventory s q seat h.arg1 body
        | none => s
      match s.kv.copying.find? fun c => c.group == group && c.seat == seat && mode == 1 && c.asked.contains target with
      | none => s
      | some c =>
        let new := ((inventoryEntries body).map fun e => (unit0 e.1, e.2.1)).filter fun e => !(c.left.any fun l => l.1 == e.1)
        let all := h.arg1 = 2 ^ 64 - 1
        let c := { c with left := c.left ++ new, asked := if all then c.asked.filter (· != target) else c.asked }
        let s := { s with kv := { s.kv with copying := s.kv.copying.map fun d => if d.group == c.group && d.seat == c.seat then c else d } }
        if all then disownDone s c else (peerRequest s r.hull { op := 0x90, group := group, arg0 := arg, arg1 := h.arg1 } []).1

/-- A reply to ADMIN_FORWARD (R133, R212): the host's reply; where the device is no longer acting stroke, the change is sent on to the one that is. -/
def forwardAnswered (s : State) (r : PeerReq) (b : Bytes) : State :=
  let h := readPeer b
  let body := peerBody b
  let s := requestDone s r
  match s.hte.cmds.find? fun c => c.asked == r.tag && !c.ended && decide (0x17 ≤ capOp c.capsule) with
  | none => { s with kv := { s.kv with forwarded := (2 ^ 64, r.tag, body) :: s.kv.forwarded } }
  | some c =>
    if h.status = ST.redirect then
      let q := routeChange s (hostCapsule s c) (sessAt s c.session 66 2) 0 c.index
      match cmdOf q.1 c.index with
      | some d => if q.2 = 0 then q.1 else putCmd q.1 { d with asked := q.2 }
      | none => q.1
    else
      let counts := (capOp c.capsule = 0x22 ∨ capOp c.capsule = 0x29) ∧ fld body 8 2 = ST.ok
      finish s c (if counts then patch body 16 (le 8 c.missing) else body)

/-- A reply to ADMIN_RECORD (R133, R135). -/
def recordAnswered (s : State) (r : PeerReq) (b : Bytes) : State :=
  let st := (readPeer b).status
  match s.kv.changes.find? fun c => c.waiting.contains (r.hull, r.tag) with
  | none => requestDone s r
  | some c =>
    if c.stage ≠ 1 ∧ st ≠ ST.ok then s
    else
      let c := { c with waiting := c.waiting.erase (r.hull, r.tag), answers := if c.stage = 1 then st :: c.answers else c.answers }
      putChange (requestDone s r) c

/-- A reply to an outcome message (R231 step 6): its seat has it. -/
def outcomeAnswered (s : State) (r : PeerReq) (b : Bytes) : State :=
  if (readPeer b).status ≠ ST.ok then s
  else
    let group := fld r.msg 4 4
    let s := requestDone s r
    match intentOf s group (fld r.msg 40 8), hullSeat s group r.hull with
    | some i, some t => putIntent s { i with seatsLeft := i.seatsLeft.filter (· != t) }
    | _, _ => s

/-- The effect of a reply on what waits for it. -/
def replyEffect (s : State) (r : PeerReq) (b : Bytes) : State :=
  let h := readPeer b
  if r.op = 0x81 then fragWriteReply s r b
  else if r.op = 0x82 then fragReadReply s r b
  else if r.op = 0x83 ∨ r.op = 0x84 then outcomeAnswered s r b
  else if r.op = 0x87 then joinAnswered (requestDone s r) r.hull
  else if r.op = 0x88 then forwardAnswered s r b
  else if r.op = 0x89 then recordAnswered s r b
  else if r.op = 0x8C then
    let s := requestDone s r
    if s.epoch.phase ≠ 5 then s
    else
      epochDecide { s with epoch := { s.epoch with waiting := s.epoch.waiting.filter (· != r.hull), allOk := s.epoch.allOk && h.status == ST.ok } } false
  else if r.op = 0x8D then
    if h.status ≠ ST.ok then s
    else leaderDone { requestDone s r with epoch := { s.epoch with waiting := s.epoch.waiting.filter (· != r.hull) } }
  else if r.op = 0x8F then epochAnswered (requestDone s r) r.hull (h.arg1 % 256)
  else if r.op = 0x90 then inventoryReply s r b
  else requestDone s r

/-- The whole length that a message's LENGTH gives, with the trailer of a control message. -/
def peerWhole (b : Bytes) : Nat := 64 + peerLen b + (if peerControl (fld b 0 1) then 24 else 0)

/-- PCRC is right and LENGTH agrees with the message (R205). -/
def peerFormOk (b : Bytes) : Bool := decide (b.length ≥ 64) && fld b 56 4 == crc32c (b.take 56) && b.length == peerWhole b

/-- A control message's MAC is right and its SEQ above the last accepted (R201). -/
def peerSealOk (x : Sess) (b : Bytes) : Bool :=
  let n := b.length - 24
  let seq := fld b n 8
  decide (seq > x.rxSeq) && (match x.key with
    | some k => peerMac k (if x.initiator then 1 else 0) seq (b.take n) == b.drop (n + 8)
    | none => false)

/-- A control message that fails R201: discarded, recorded, the session closed. -/
def peerSealFail (s : State) (id : Nat) : State := sessDrop (logCrew s EV.peerAuthFailed) id 5

/-- The SEQ of a control message accepted. -/
def peerSealTake (s : State) (id : Nat) (b : Bytes) : State :=
  if peerControl (fld b 0 1) then modSess s id fun x => { x with rxSeq := fld b (b.length - 24) 8 } else s

/-- A message placed in the oldest receive buffer that is large enough, with its HTE_PEER_MSG entry posted (R89, Table 02-12); none while there is no such
buffer. -/
def peerPlace (s : State) (id : Nat) (b : Bytes) : Option State :=
  match s.hte.rxBufs.find? fun r => decide (b.length ≤ r.2) with
  | none => none
  | some r =>
    let s := { s with hte := { s.hte with rxBufs := s.hte.rxBufs.erase r } }
    let s := peerSealTake (fabWrite s 3 r.1 b).1 id b
    some (postExc s (hteCommon 0x72 ++ le 2 id ++ zeros 2 ++ le 4 b.length ++ le 8 r.1 ++ b.take 40))

/-- The engine sent a request itself on the fast path: the fragment messages of commands, but for the blocks of a rig image that crew firmware fetches
(R89, R303; log entry 65). -/
def engineSent (r : PeerReq) : Bool :=
  decide (0x81 ≤ r.op) && decide (r.op ≤ 0x84) && !(r.op == 0x82 && fld r.msg 4 4 == 0 && fld r.msg 24 1 == 0xFF)

/-- A reply on an AUTHENTICATED peer session (R89): the engine consumes one to a request of its own, matched by TAG, and delivers every other to crew
firmware, which acts on the one that a request of its own waits for; while no receive buffer takes it, RNR NAK. A malformed reply is dropped. -/
def peerReplyIn (s : State) (id : Nat) (b : Bytes) : State :=
  match sessRec s id with
  | none => s
  | some x =>
    if !(peerFormOk b) then s
    else if peerControl (fld b 0 1) && !(peerSealOk x b) then peerSealFail s id
    else
      match s.hte.requests.find? fun r => r.tag == fld b 32 8 && r.op == fld b 0 1 && r.hull == sessHull s id with
      | some r =>
        if engineSent r then settleAll (replyEffect s r b)
        else match peerPlace s id b with
          | some s => settleAll (replyEffect s r b)
          | none => emit s (.roce id 1)
      | none => (peerPlace s id b).getD (emit s (.roce id 1))

/-- A session carries peer messages: it is live, ready, of KIND 1, or of KIND 2 and not yet AUTHENTICATED (R247). -/
def carriesPeer (s : State) (id : Nat) : Bool :=
  sessLive s id && (sessKind s id == 1 || (sessKind s id == 2 && sessState s id != 3)) && ((sessRec s id).map Sess.ready).getD false

/-- PEER_REPLY_RECEIVED (R89): a reply to a request of this device. -/
def execPeerReplyReceived (session : Nat) (message : Bytes) (s : State) : Res := whileCore s fun s =>
  if carriesPeer s session && sessState s session == 3 && bitAt (fld message 1 1) 0 && fld message 0 1 != 0x80 then
    .next (peerReplyIn s session message)
  else .next s

/-- A request placed in a receive buffer and delivered (R89): RNR NAK while none is large enough. -/
def peerDeliver (s : State) (id : Nat) (b : Bytes) : State :=
  match peerPlace s id b with
  | none => emit s (.roce id 1)
  | some s =>
    let opened := peerControl (fld b 0 1) && sessState s id == 2
    let s := if opened then modSess (sessPut s id 64 1 3) id fun x => { x with handshakeAt := none } else s
    let s := { s with hte := { s.hte with peerIn := s.hte.peerIn ++ [(id, b)] } }
    if opened && sessKind s id == 1 then sessionUp s (sessHull s id) else s

/-- PEER_MESSAGE (R89, R199 to R205, R247): a pair frame on an AUTHENTICATED fall-back session; a reply; or a request: its form and MAC checked, refused
beyond 1,024 outstanding, the engine's checks of a fragment made, and delivered. -/
def execPeerMessage (session : Nat) (message : Bytes) (s : State) : Res := whileCore s fun s =>
  let b := message
  let op := fld b 0 1
  let st := sessState s session
  let ready := ((sessRec s session).map Sess.ready).getD false
  let held := flag s F.HTE_SESS_HOLD_HELD && getF s F.HTE_SESS_HOLD_SESSION == session
  if sessLive s session && sessKind s session == 2 && st == 3 && ready then
    .next { s with pj := { s.pj with rx := s.pj.rx ++ [b] } }
  else if !(carriesPeer s session) then .next s
  else if held then .next (emit s (.roce session 1))
  else if bitAt (fld b 1 1) 0 && op != 0x80 then .next (if st = 3 then peerReplyIn s session b else s)
  else if !(peerFormOk b) then .next (peerReply s session b ST.malformed 0 0 [])
  else if !(peerAssigned op) then .next (peerReply s session b ST.unknownOpcode 0 0 [])
  else if peerControl op && !((sessRec s session).any fun x => peerSealOk x b) then .next (peerSealFail s session)
  else if st ≠ 3 ∧ op ≠ 0x80 ∧ peerControl op = false then .next (peerReply s session b ST.authFailed 0 0 [])
  else if op ≠ 0x86 ∧ (s.hte.peerIn.filter fun p => p.1 == session).length + (s.kv.changes.filter fun c => c.kind == 1 && c.owner == session).length ≥ 1024 then
    .next (peerReply (peerSealTake s session b) session b ST.busy 1 0 [])
  else
    match (if op = 0x81 ∨ op = 0x93 then fragCheck3 s b (op == 0x93) else none) with
    | some (e, a0, a1) => .next (peerReply s session b e a0 a1 [])
    | none => .next (peerDeliver s session b)

end Sys2Proof.Machine
end

