-- ==== Sys2Proof/Machine/Reset.lean ====
section
/-! DEFINITION. Resets and domains (18, Table 18-5): what a domain loses when it is off or reset, power-on reset, device reset, HALTED. -/

namespace Sys2Proof.Machine

/-- The domain of a memory cell: of the SRAM windows and DRAM, or of the block window it lies in. -/
def cellDomain (a : Nat) : Domain := (memDomain a).getD (regDomain a)

/-- A group at a start: no rig is active, so it is FORMING once one is again (Table 05-7); LOST, G_SERIAL, the stripes kept with their
compaction cycle (R193 to R196) and the ceiling stand, from which serials resume (R186); a rebuild resumes at its recorded step (R280). -/
def groupRestart (s : State) (g : Group) : Group :=
  let own := bitAt g.lost g.seat
  let kept := if g.gstate = 1 then g.keptState else if own then some g.gstate else none
  let r := g.rebuild.map fun r => { r with missing := [], asked := [], inventoried := [], listed := [] }
  { g with gstate := 1, formingAt := s.now, returning := own || (g.returning && g.gstate == 1), keptState := kept, joins := [],
           nextSerial := max g.ceiling 1, seats := g.seats.map fun i => noInfo i.seat s.now, solo := [], rebuilding := [], rebuild := r,
           sentAt := s.now }

/-- A slice at a start: what is recorded of its takeover stands, with the holding of a hand-back begun anew (Tables 06-16 and 06-17). -/
def sliceRestart (x : Slice) : Slice := if x.takeover = 5 then { x with takeover := 2 } else x

/-- The crew cores for which `off` holds lose their state (R26): nothing waits, no line is held, no protection entry is set. -/
def coresOff (s : State) (off : Nat → Bool) : State :=
  let mask := ((List.range 8).filter off).map fun c => 2 ^ c
  let seen := s.cores.written.map fun w => (w.1, w.2.1, w.2.2 - (w.2.2 &&& mask.sum))
  { s with cores := { waiting := s.cores.waiting.filter fun c => !(off c), icacheHeld := s.cores.icacheHeld.filter fun c => !(off c),
                      written := seen.filter fun w => w.2.2 != 0, unfenced := s.cores.unfenced.filter fun w => !(off w.1),
                      pmp := s.cores.pmp.filter fun p => !(off p.1) } }

/-- What the blocks of CORE and crew firmware in its working memory lose; the configuration store and what crew firmware keeps on NAND stand. -/
def clearCore (s : State) : State :=
  let pj := { s.pj with units := 0, rx := [], ports := [], intents := [], opens := [], chans := [], restoring := none, loading := false,
                        replay := 0, leases := [], reserved := [], dumping := none, testAt := none, taken := s.pj.taken.map fun t => if t.2.1 = 1 then (t.1, 1, s.now) else t }
  let kv := { s.kv with slices := s.kv.slices.map sliceRestart, discards := [], changes := s.kv.changes.filter fun c => c.kind == 1 || decide (c.stage ≥ 2),
                        retention := none, calendar := none, rebuilds := [], copied := [], deltas := [], handed := [] }
  let media := { s.media with frags := [], notes := s.media.notes.filter fun n => !n.places.isEmpty, buckets := [], opens := [], heaps := [],
                              victims := [], since := [], collecting := [], repairRates := [], repairAt := 0, stuck := [], sweepBad := [], sweepRead := 0, sweepMarked := 0,
                              sweepBsn := s.media.sweepSaved.1, sweepPage := s.media.sweepSaved.2.1, sweepAt := s.media.sweepSaved.2.2.1, readOnly := if s.media.readOnly = some 3 then none else s.media.readOnly }
  let rig := { s.rig with staged := none, newSchedule := false, commit := false }
  let epoch := { s.epoch with waiting := [], allOk := true, queried := [], askedAt := 0, refusing := false, preparer := none, reports := [] }
  let svc := { s.svc with requests := [], image := [], rig := [], init := none }
  let s := { s with irq := ⟨[], []⟩, wq := ⟨[], [], none, [], []⟩, hte := ⟨[], [], [], 0, [], [], [], [], [], 1⟩, dma := ⟨[], 31, 31⟩ }
  let s := { s with asu := ⟨[], [], [], none⟩, cip := ⟨[], none, none, []⟩, sc := ⟨[], [], [], [], [], [], none, [], []⟩ }
  let s := { s with pj := pj, kv := kv, media := media, rig := rig, epoch := epoch, svc := svc, groups := s.groups.map (groupRestart s) }
  let s := coresOff s fun c => decide (c < 2)
  let s := { s with pwr := { s.pwr with mtimeAt := s.now, notices := 0, wakes := [] } }
  setF { s with pins := { s.pins with esDisch := false } } F.SVC_CTRL_CREW 0

/-- What the flash channels lose; operations on the NAND under way are cut short (R385), and the NAND stands. -/
def clearFlash (s : State) : State :=
  let s := s.fc.ops.foldl fcCut s
  { s with fc := ⟨s.fc.nand, [], [], [], [], [], [], [], s.now, []⟩, pins := { s.pins with flashPwrEn := false } }

/-- What Cox loses; what lies in NOR and in fuses stands. -/
def clearCox (s : State) : State :=
  { s with pins := { s.pins with jtagLevel := 0, jtagIr := 0, jtagDr := [] },
           cox := { s.cox with challenge := none, lastServed := 3, loading := none, ephs := [], svcSeq := 0, dropped := false,
                               clearGranted := none, locked := false, releasedAt := none, verified := false } }

/-- The data port of a domain reinitialised. -/
def clearPort (s : State) (p : Nat) : State := { s with net := { s.net with ports := s.net.ports.filter fun x => x.num != p } }

/-- A domain reinitialised (R11): its registers and shadows at reset, its memories and blocks empty. -/
def clearDomain (s : State) (d : Domain) : State :=
  let s := { s with regs := s.regs.filter fun e => regDomain (e.1 / 64) != d, shadow := s.shadow.filter fun e => regDomain (e.1 / 64) != d }
  let s := { s with mem := s.mem.filter fun c => cellDomain c.1 != d }
  match d with
  | .aon => s
  | .svc => { clearPort s 2 with svc := { s.svc with replies := [], sending := none, held := none, responder := [], requests := [] } }
  | .cox => clearCox s
  | .core => clearCore s
  | .crew2 => coresOff s fun c => decide (2 ≤ c)
  | .dram => { s with poison := [] }
  | .flash => clearFlash s
  | .lane0 => { clearPort s 0 with net := { (clearPort s 0).net with ptpNs := 0, ptpAt := s.now } }
  | .lanes => clearPort s 1

/-- A domain switched off. -/
def domainOff (s : State) (d : Domain) : State :=
  let s := clearDomain s d
  { s with pwr := { s.pwr with on := s.pwr.on.filter (· != d) } }

/-- The domains but AON, in the order in which they are switched off. -/
def offOrder : List Domain := [.crew2, .lanes, .lane0, .flash, .core, .dram, .cox, .svc]

/-- A device reset (Table 18-5): every domain but AON reinitialised, AON_WDOG.ENABLE cleared, the start taken up at step 2 of Table 18-2, unless
the cause holds the device in reset (R548); EV_START. -/
def deviceReset (s : State) (cause : Nat) : State :=
  let svcOn := domainOn s .svc
  let s := offOrder.foldl domainOff s
  let s := if svcOn then { s with pwr := { s.pwr with on := s.pwr.on ++ [.svc] } } else s
  let hold := if cause = 5 then some cause else none
  let s := { s with pwr := { s.pwr with dev := 1, move := none, wakeLatched := none, wdogAt := none, resetHold := hold, start := 2, waking := false } }
  let s := setF (setF (setF s F.AON_WDOG_ENABLE 0) F.LOG_CAL_CTRL_VALID 0) F.PWR_RESET_CAUSE_CAUSE cause
  let s := setF (setF s F.PWR_STATUS_BUSY 0) F.PWR_STATUS_STATE 2
  logEv s EV.start cause (getF s F.PWR_WAKE_CAUSE_CAUSE) 0

/-- The record of the counter ring with the highest sequence number, as (OPSEC, PCYCLES) (R541). -/
def newestCounter (s : State) : Nat × Nat :=
  match s.pwr.ring with
  | [] => (0, 0)
  | r :: rest => let b := rest.foldl (fun a b => if b.2.2 > a.2.2 then b else a) r; (b.1, b.2.1)

/-- The LOW that the newest control record gives, 0 with none (R581). -/
def controlLow (s : State) : Nat :=
  match s.lb.ctl with
  | [] => 0
  | r :: rest => (rest.foldl (fun a b => if b.2 > a.2 then b else a) r).1

/-- The logbook after a power-on reset: the buffer is lost, SEQ resumes at H + 257 (R574), LOW follows the control sector and the ring, and a clear
that power interrupted is completed (R584). -/
def logbookStart (s : State) : State :=
  let recs := s.lb.kept ++ s.lb.ring.map Prod.snd
  let h := (recs.map LogRec.seq).foldl max 0
  let s := { s with lb := { s.lb with buffer := [], nextSeq := h + 257, buckets := [] } }
  let cleared := ((recs.filter fun r => r.code == EV.logCleared).map LogRec.p1).foldl max 0
  let s := if cleared > controlLow s then putControl s cleared else s
  let oldest := match s.lb.ring with | [] => 0 | e :: rest => (rest.map fun x => x.2.seq).foldl min e.2.seq
  let s := setF (setF s F.LOG_HEAD_SEQ h) F.LOG_LOW_SEQ (max (controlLow s) oldest)
  setF s F.LOG_STATUS_KEPT_FULL (b2n (decide (s.lb.kept.length ≥ 4096)))

/-- Pentimento after a power-on reset: the snapshot that power interrupted stays as it is, and NEXT follows the newest. -/
def pentStart (s : State) : State :=
  let slots := s.pent.slots ++ s.pent.writing.toList
  let top := (slots.map PentSnap.pseq).foldl max 0
  let next := match slots.find? fun p => p.pseq == top with | some p => (p.slot + 1) % 64 | none => 0
  let s := { s with pent := { s.pent with slots := slots, writing := none, nextErased := !(slots.any fun p => p.slot == next) } }
  setF (setF s F.PENT_STATUS_NEXT next) F.PENT_PSEQ_PSEQ top

/-- A power-on reset (Table 18-5, R541, R574): every domain reinitialised, the counters resumed, PCYCLES raised, EV_START with cause 1. -/
def powerOnReset (s : State) : State :=
  let c := newestCounter s
  let s := clearDomain (offOrder.foldl domainOff s) .aon
  let pw := { Pwr.reset with opsecBase := c.1, opsecAt := s.now, msAt := s.now, mtimeAt := s.now, ring := s.pwr.ring, recordAt := s.now,
                             fullScan := s.pwr.fullScan }
  let pins := { Pins.reset with pfailN := s.pins.pfailN, wakeN := s.pins.wakeN, smbAddr0 := s.pins.smbAddr0, smbAddr1 := s.pins.smbAddr1 }
  let s := { s with pwr := pw, pins := { pins with smbAddress := 0x58 + 2 * b2n pins.smbAddr1 + b2n pins.smbAddr0 } }
  let s := pentStart (logbookStart (setF s F.AON_PCYCLES_COUNT (min 0xFFFFFFFF (c.2 + 1))))
  logEv s EV.start 1 0 0

/-- SMB_ALERT_N falls (R612). -/
def alertLow (s : State) : State := { s with pins := { s.pins with smbAlertN := false } }

/-- The device enters HALTED on a fatal error that Cox reports (Table 18-4): the snapshot with cause 1 and EV_HALTED with the code. -/
def enterHalted (s : State) (code : Nat) : State :=
  if s.pwr.dev = 7 then s
  else
    let s := alertLow (pentTrigger s 1 code)
    let s := { s with pwr := { s.pwr with dev := 7 } }
    sendAllStatus (logCox s EV.halted code 0 0)

/-- No image verifies: BOOT ends in HALTED (Table 18-4), and the resident loader takes over the service port (R566). -/
def bootHalted (s : State) : State :=
  setF (alertLow { s with pwr := { s.pwr with dev := 7 } }) F.SVC_CTRL_CREW 1

end Sys2Proof.Machine
end

