-- ==== Sys2Proof/Machine/Cox.lean ====
section
/-! DEFINITION. Cox (19): the mailbox and its opcodes, the image bundle and its verification, update and fallback, the configuration store, what
Cox loads before it releases the crew cores, attestation and debug unlock. -/

namespace Sys2Proof.Machine

/-! ### Service keys (R523, R526) -/

/-- NONCE as the port shows it: it reads 0 while the COX domain is off. -/
def svcNonce (s : State) : Bytes :=
  if domainOn s .cox then ((List.range 8).map fun i => le 4 (getF s (F.SVC_NONCE_BYTES i))).flatten else zeros 32

/-- The MAC of a service payload that ends with its trailer, for a direction (0 request, 1 reply). -/
def svcMacOf (s : State) (key : Bytes) (dir : Nat) (payload : Bytes) : Bytes :=
  (hmacSha384 key (le 1 dir ++ svcNonce s ++ payload.take (payload.length - 16) ++ zeros 16)).take 16

/-- The MAC of a request is right under the enclosure key. -/
def svcMacRight (s : State) (key payload : Bytes) : Bool :=
  decide (payload.length ≥ 64) && payload.drop (payload.length - 16) == svcMacOf s key 0 payload

/-- SEQ of a payload's trailer. -/
def svcSeqOf (payload : Bytes) : Nat := fld payload (payload.length - 24) 8

/-- The label AZK-SVC- with its two last letters. -/
def svcLabel (a b : Byte) : Bytes := [0x41, 0x5A, 0x4B, 0x2D, 0x53, 0x56, 0x43, 0x2D, a, b]

/-- The enclosure key a KEY_SET body carries (R526). -/
def keySetKey (s : State) (body : Bytes) : Bytes :=
  xorBytes (slice body 97 48) (hmacSha384 (fit (Config.ecdh Config.identityKey (body.take 97)) 48) (svcLabel 0x4B 0x57 ++ svcNonce s))

/-- What masks the secret of a TENANT_INIT and, in its first 32 bytes, the key of an ESCROW_SET. -/
def svcMask (s : State) (key : Bytes) (sop seq : Nat) : Bytes :=
  hmacSha384 key ((if sop = 0x11 then svcLabel 0x54 0x53 else svcLabel 0x45 0x53) ++ svcNonce s ++ le 8 seq)

/-- The owner escrow key installed or replaced, stored as a Cox key (R481). -/
def setEscrow (s : State) (key : Bytes) : State :=
  setF { s with cox := { s.cox with escrowKey := some key }, cip := { s.cip with escrow := some key } } F.CIP_STATUS_ESCROW 1

/-! ### The mailbox (R557, R558) -/

/-- The request bytes of a channel. -/
def mbBytes (s : State) (c : Nat) : Bytes := ((List.range 256).map fun i => le 4 (getF s (F.COX_MBc_REQ_BYTES c i))).flatten

/-- OPCODE of a request. -/
def mbOp (b : Bytes) : Nat := fld b 0 2

/-- LEN of a request. -/
def mbLen (b : Bytes) : Nat := fld b 4 4

/-- The payload of a request. -/
def mbPayload (b : Bytes) : Bytes := slice b 16 (mbLen b)

/-- The opcodes of Table 19-2. -/
def mbKnown (op : Nat) : Bool :=
  [0x01, 0x02, 0x10, 0x20, 0x21, 0x22, 0x23, 0x30, 0x31, 0x32, 0x40, 0x41, 0x42, 0x50, 0x51, 0x52, 0x53, 0x60, 0x70, 0x71].contains op

/-- A reply written into COX_MBc_RSP; BUSY clears and DONE is set. -/
def mbWrite (s : State) (c status : Nat) (payload : Bytes) : State :=
  let b := mbBytes s c
  let r := b.take 2 ++ le 2 status ++ le 4 payload.length ++ slice b 8 8 ++ payload
  let s := setWords s (F.COX_MBc_RSP_BYTES c) (r ++ zeros (alignUp r.length 4 - r.length))
  let s := setF (setF s (F.COX_MBc_STATUS_BUSY c) 0) (F.COX_MBc_STATUS_DONE c) 1
  { s with cox := { s.cox with lastServed := c } }

/-- The channel Cox serves next, in round robin after the last one served. -/
def mbNext (s : State) : Option Nat :=
  ((List.range 4).map fun i => (s.cox.lastServed + 1 + i) % 4).find? fun c => flag s (F.COX_MBc_STATUS_BUSY c)

/-- Requests whose opcode is not in Table 19-2 answered UNKNOWN as their turn comes. -/
def mbUnknown : Nat → State → State
  | 0, s => s
  | n + 1, s =>
    match mbNext s with
    | some c => if mbKnown (mbOp (mbBytes s c)) || s.cox.loading.isSome then s else mbUnknown n (mbWrite s c 2 [])
    | none => s

/-- A reply of Cox, and what comes next that Cox does not know. -/
def mbReply (s : State) (c status : Nat) (payload : Bytes) : State := mbUnknown 4 (mbWrite s c status payload)

/-- The row of a mailbox opcode: Cox runs, serves no request, and the channel next in round robin carries the opcode. A nonzero reserved MFLAGS is
R571; a LEN that the opcode does not take, given as its least and greatest, is MALFORMED. -/
def onMailbox (op lo hi : Nat) (s : State) (run : State → Nat → Bytes → Res) : Res :=
  if !(domainOn s .cox) || !s.cox.verified || s.cox.loading.isSome || s.pj.dumping.isSome then .next s
  else
    match mbNext s with
    | none => .next s
    | some c =>
      let b := mbBytes s c
      if mbOp b ≠ op then .next s
      else if fld b 2 2 ≠ 0 then .fault (.undefined571 4)
      else if mbLen b < lo ∨ mbLen b > hi then .next (mbReply s c 1 [])
      else run s c (mbPayload b)

/-- COX_MBc_CTRL.GO of a channel: BUSY; a GO while BUSY is ignored. -/
def execCoxMailboxGo (core channel : Nat) (s : State) : Res :=
  coreStore s core (F.COX_MBc_CTRL_GO channel).addr fun s =>
    if channel ≥ 4 ∨ flag s (F.COX_MBc_STATUS_BUSY channel) = true then .next s
    else
      let s := setF s (F.COX_MBc_STATUS_BUSY channel) 1
      .next (if s.cox.verified then mbUnknown 4 s else s)

/-- Bulk bytes read by Cox from DRAM with requester ID 2; whether the read failed. -/
def coxRead (s : State) (a n : Nat) : State × Bytes × Bool := readLoose (linePieces (n / 256 + 2) a n) s 2

/-! ### The configuration store's opcodes (R567) -/

/-- CFG_READ (R558, R567). Cox keys hold secrets that Cox alone uses (R554), so Cox refuses to return them. -/
def execCfgRead (s : State) : Res :=
  onMailbox 0x01 4 4 s fun s c p =>
    let key := fld p 0 4
    if coxKey key then .next (mbReply s c 5 [])
    else
      match cfgLookup s key with
      | some (r, f) => .next (if r.del then mbReply s c 3 [] else mbReply s c 0 (le 2 f ++ zeros 2 ++ le 4 r.data.length ++ r.data))
      | none => .next (mbReply s c 3 [])

/-- CFG_WRITE (R558, R567): a Cox key is REFUSED; FULL where the store has no room. A nonzero reserved CFLAGS bit is R571. -/
def execCfgWrite (s : State) : Res :=
  onMailbox 0x02 8 1000 s fun s c p =>
    let key := fld p 0 4
    if fld p 4 4 > 1 then .fault (.undefined571 4)
    else if coxKey key then .next (mbReply s c 5 [])
    else
      match cfgAppend s key (bitAt (fld p 4 4) 0) (p.drop 8) with
      | some s => .next (mbReply s c 0 [])
      | none => .next (mbReply s c 7 [])

/-! ### Flash channels (R369) -/

/-- FC_LOAD (R369, R558): the channels of the mask are loaded and started again; the reply comes with the last one READY. With the FLASH domain off
the present state refuses it. -/
def execFcLoad (s : State) : Res :=
  onMailbox 0x10 4 4 s fun s c p =>
    let ns := bitList (fld p 0 4) 32
    if !(domainOn s .flash) then .next (mbReply s c 4 [])
    else if ns.isEmpty then .next (mbReply s c 0 [])
    else .next (fcLoadAll ns { s with cox := { s.cox with loading := some (c, ns) } })

/-- CHANNEL_READY (R364): a channel that is starting is ready, as its targets identified; FC_LOAD's reply follows the last of its channels. -/
def execChannelReady (channel : Nat) (targets : List FcTarget) (s : State) : Res :=
  if !(s.fc.starting.any fun p => p.1 == channel) then .next s
  else
    let s := channelReady s channel targets
    match s.cox.loading with
    | none => .next s
    | some (c, ns) =>
      let left := ns.filter (· != channel)
      if left.isEmpty then .next (mbReply { s with cox := { s.cox with loading := none } } c 0 [])
      else .next { s with cox := { s.cox with loading := some (c, left) } }

/-! ### Peer keys (R200, R248, R489) -/

/-- PEER_EPH: a new ephemeral context. -/
def execPeerEph (s : State) : Res :=
  onMailbox 0x20 0 0 s fun s c _ =>
    let e := coxEph s
    .next (mbReply e.2.2 c 0 (le 4 e.1 ++ e.2.1))

/-- PEER_SIGN: a HELLO message of this device signed with the identity key; REFUSED unless label, length and HULL fit; refused by the state once
Cox has dropped the identity key (R570). -/
def execPeerSign (s : State) : Res :=
  onMailbox 0x21 0 1008 s fun s c p =>
    let fits := (p.take 10 == helloLabel true && p.length == 170) || (p.take 10 == helloLabel false && p.length == 299)
    if s.cox.dropped then .next (mbReply s c 4 [])
    else if fits && fld p 10 8 == Config.hull then .next (mbReply s c 0 (fit (Config.ecdsaSign Config.identityKey p) 96))
    else .next (mbReply s c 5 [])

/-- PEER_KEY: the session key of R200 from a context, with K_P in the slot and the context discarded. Nonces and hull numbers stand initiator first. -/
def execPeerKey (s : State) : Res :=
  onMailbox 0x22 185 185 s fun s c p =>
    let ctx := fld p 0 4
    let slot := fld p 4 2
    if fld p 7 1 ≠ 0 then .fault (.undefined571 4)
    else if fld p 6 1 > 1 ∨ slotOpen slot = false then .next (mbReply s c 1 [])
    else
      match s.cox.ephs.find? fun e => e.1 == ctx with
      | none => .next (mbReply s c 3 [])
      | some e =>
        let key := peerKeyOf e.2 (slice p 8 97) (slice p 105 32) (slice p 137 32) (fld p 169 8) (fld p 177 8)
        let s := { s with cox := { s.cox with ephs := s.cox.ephs.filter fun x => x.1 != ctx } }
        let s := setSlot s ⟨slot, 1, false, 0, 0, pairKeyOf key⟩
        let s := match s.pj.chans.find? fun x => x.slot == slot with
          | some x => pairRekey s x.partner
          | none => s
        .next (mbReply s c 0 key)

/-- XPORT_LOAD: the transport key with a device of the active rig loaded into a slot (R489). -/
def execXportLoad (s : State) : Res :=
  onMailbox 0x23 4 4 s fun s c p =>
    let dev := fld p 0 2
    let slot := fld p 2 2
    if s.cox.dropped ∨ rigActive s = false then .next (mbReply s c 4 [])
    else if dev ≥ (activeView s).count 1 ∨ slotOpen slot = false then .next (mbReply s c 1 [])
    else .next (mbReply (setSlot s ⟨slot, 3, false, 0, 0, xportKey s ((activeView s).hull dev)⟩) c 0 [])

/-! ### Service port (R523, R526) -/

/-- A service payload that a request names by ADDR and LEN, with its length in range: none where it is not or cannot be read. -/
def svcPayload (s : State) (addr len : Nat) : State × Option Bytes :=
  if len < 40 ∨ len > 1472 then (s, none)
  else
    let r := coxRead s addr len
    (r.1, if r.2.2 then none else some r.2.1)

/-- SVC_MAC (R523): a request's MAC and SEQ verified, its SEQ accepted; or a reply's MAC written into its trailer. -/
def execSvcMac (s : State) : Res :=
  onMailbox 0x30 13 13 s fun s c p =>
    let addr := fld p 1 8
    let len := fld p 9 4
    let r := svcPayload s addr len
    match r.2, s.cox.enclosure with
    | none, _ => .next (mbReply r.1 c 1 [])
    | some _, none => .next (mbReply r.1 c 4 [])
    | some b, some key =>
      if fld p 0 1 > 1 ∨ len < 64 then .next (mbReply r.1 c 1 [])
      else if s.cox.dropped then .next (mbReply r.1 c 4 [])
      else if fld p 0 1 = 1 then .next (mbReply (fabWrite r.1 2 (addr + len - 16) (svcMacOf s key 1 b)).1 c 0 [])
      else if svcMacRight s key b && decide (svcSeqOf b > s.cox.svcSeq) then
        .next (mbReply { r.1 with cox := { r.1.cox with svcSeq := svcSeqOf b } } c 0 [])
      else .next (mbReply r.1 c 6 [])

/-- SVC_KEY_SET (R526): the enclosure key installed; while one is installed already the MAC must be right. -/
def execSvcKeySet (s : State) : Res :=
  onMailbox 0x31 12 12 s fun s c p =>
    let r := svcPayload s (fld p 0 8) (fld p 8 4)
    match r.2 with
    | none => .next (mbReply r.1 c 1 [])
    | some b =>
      if s.cox.dropped then .next (mbReply r.1 c 4 [])
      else if fld b 4 1 ≠ 0x10 ∨ fld b 20 2 ≠ 145 ∨ b.length < 185 then .next (mbReply r.1 c 1 [])
      else if s.cox.enclosure.any (fun key => !(svcMacRight s key b)) then .next (mbReply r.1 c 6 [])
      else .next (mbReply { r.1 with cox := { r.1.cox with enclosure := some (keySetKey s (slice b 40 145)) } } c 0 [])

/-- SVC_UNMASK (R526, R481): after its MAC, the secret of a TENANT_INIT returned, or the key of an ESCROW_SET installed. -/
def execSvcUnmask (s : State) : Res :=
  onMailbox 0x32 12 12 s fun s c p =>
    let r := svcPayload s (fld p 0 8) (fld p 8 4)
    match r.2, s.cox.enclosure with
    | none, _ => .next (mbReply r.1 c 1 [])
    | some _, none => .next (mbReply r.1 c 4 [])
    | some b, some key =>
      let sop := fld b 4 1
      if s.cox.dropped then .next (mbReply r.1 c 4 [])
      else if (sop ≠ 0x11 ∧ sop ≠ 0x12) ∨ b.length < 64 + (if sop = 0x11 then 48 else 32) then .next (mbReply r.1 c 1 [])
      else if !(svcMacRight s key b) then .next (mbReply r.1 c 6 [])
      else
        let m := svcMask s key sop (svcSeqOf b)
        if sop = 0x11 then .next (mbReply r.1 c 0 (xorBytes (slice b 40 48) m))
        else .next (mbReply (setEscrow r.1 (xorBytes (slice b 40 32) m)) c 0 [])

/-! ### Attestation and debug (R568 to R570) -/

/-- COX_STATE shown as it is. -/
def showCox (s : State) : State :=
  let s := setF (setF s F.COX_STATE_PHASE (Config.phaseCode s.cox.phase)) F.COX_STATE_SVN_FUSED s.cox.svnFused
  let s := setF (setF s F.COX_STATE_IMAGE_SVN (fld s.cox.image 12 1)) F.COX_STATE_ATTEMPT s.cox.attempt
  setF s F.COX_STATE_DEBUG s.pins.jtagLevel

/-- The quote of Table 19-5. -/
def attestQuote (s : State) (nonce : Bytes) : Bytes :=
  let img := s.cox.image
  let b := le 4 0x33415A41 ++ le 1 3 ++ le 1 s.pins.jtagLevel ++ le 1 (Config.phaseCode s.cox.phase) ++ zeros 1 ++ le 8 Config.hull ++
    le 1 s.cox.svnFused ++ slice img 12 1 ++ slice img 5 1 ++ zeros 1 ++ le 4 (getF s F.AON_PCYCLES_COUNT) ++ sha384 (img.take 1024) ++ nonce ++
    slice img 16 8 ++ zeros 16
  b ++ fit (Config.ecdsaSign Config.identityKey ([0x41, 0x5A, 0x4B, 0x2D, 0x41, 0x54, 0x54, 0x45, 0x53, 0x54] ++ b)) 96 ++ zeros 32

/-- ATTEST (R568, R569): the quote, then the device certificate. -/
def execAttest (s : State) : Res :=
  onMailbox 0x40 32 32 s fun s c p =>
    .next (if s.cox.dropped then mbReply s c 4 [] else mbReply s c 0 (attestQuote s p ++ fit Config.certificate 208))

/-- DEBUG_CHALLENGE (R570). -/
def execDebugChallenge (s : State) : Res :=
  onMailbox 0x41 0 0 s fun s c _ =>
    let n := freshBytes s 32
    let ch := le 8 Config.hull ++ n.1 ++ le 1 s.cox.svnFused ++ zeros 23
    .next (mbReply { n.2 with cox := { n.2.cox with challenge := some ch } } c 0 ch)

/-- DEBUG_UNLOCK (R570): a right signature over the challenge and LEVEL empties the key slots, drops the keys, and opens the port. -/
def execDebugUnlock (s : State) : Res :=
  onMailbox 0x42 104 104 s fun s c p =>
    let level := fld p 0 1
    let msg := [0x41, 0x5A, 0x4B, 0x2D, 0x44, 0x45, 0x42, 0x55, 0x47] ++ (s.cox.challenge.getD []) ++ p.take 1
    if !(allZero (slice p 1 7)) then .fault (.undefined571 4)
    else if level = 0 ∨ level > 2 then .next (mbReply s c 1 [])
    else if s.cox.challenge.isNone || !(Config.ecdsaVerify Config.debugKey msg (slice p 8 96)) then
      .next (mbReply (logCox s EV.debugDenied level 0 0) c 6 [])
    else
      let s := (s.cip.slots.map KeySlot.slot).foldl clearSlot s
      let s := setF (setF { s with cip := { s.cip with kek := none, escrow := none } } F.CIP_STATUS_KEK 0) F.CIP_STATUS_ESCROW 0
      let s := { s with cox := { s.cox with dropped := s.cox.dropped || level == 2 }, pins := { s.pins with jtagLevel := level } }
      .next (mbReply (logCox (showCox s) EV.debugUnlocked level 0 0) c 0 [])

/-! ### The image bundle (R560 to R562) -/

/-- The section table as (KIND, OFFSET, LENGTH, DIGEST). -/
def bundleSections (img : Bytes) : List (Nat × Nat × Nat × Bytes) :=
  (List.range (fld img 6 1)).map fun i =>
    let o := 64 + 64 * i
    (fld img o 1, fld img (o + 8) 4, fld img (o + 12) 4, slice img (o + 16) 48)

/-- The longest section of a kind. -/
def sectionMax (kind : Nat) : Nat :=
  if kind = 1 then 1536 * 1024 else if kind = 3 then 16384 else if kind = 4 then 256 * 1024 else 48 * 1024 * 1024

/-- The section table breaks R560 (check 5). -/
def sectionsBad (img : Bytes) : Bool :=
  let n := fld img 6 1
  let ss := bundleSections img
  let ks := ss.map Prod.fst
  let len := fld img 8 4
  (n != 4 && n != 5) || !([1, 2, 3, 4].all fun k => ks.count k == 1) || decide (ks.count 5 > 1) || ks.any (fun k => k == 0 || decide (k > 5)) ||
    ss.any (fun x => x.2.1 % 4096 != 0 || decide (x.2.1 < 16384) || decide (x.2.1 + x.2.2.1 > len) || decide (x.2.2.1 > sectionMax x.1) ||
      (x.1 == 3 && x.2.2.1 != 16384) || (x.1 == 2 && decide (x.2.2.1 < 16))) ||
    (List.range n).any fun i => (List.range i).any fun j =>
      let a := (ss[i]?).getD (0, 0, 0, [])
      let b := (ss[j]?).getD (0, 0, 0, [])
      overlaps a.2.1 a.2.2.1 b.2.1 b.2.2.1

/-- The first check of Table 19-5a that the active image fails, 0 where it verifies. -/
def bootCheck (s : State) : Nat :=
  let img := s.cox.image
  let ks := fld img 5 1
  let newest := ((newestCopy (s.cox.copies.filter fun c => some c.copy != s.cox.keptOld)).map CfgCopy.format).getD 0
  if fld img 0 4 ≠ 0x33465A41 ∨ fld img 4 1 ≠ 3 ∨ fld img 24 2 ≠ 0x7160 ∨ fld img 8 4 > 48 * 1024 * 1024 then 1
  else if ks > 3 ∨ s.cox.revoked.contains ks = true ∨ sha384 (slice img 1024 164) ≠ Config.keySetDigest ks then 2
  else if fld img 12 1 < s.cox.svnFused then 3
  else if fld img 14 2 < newest then 4
  else if sectionsBad img then 5
  else if (bundleSections img).any (fun x => sha384 (slice img x.2.1 x.2.2.1) != x.2.2.2) then 6
  else if !(Config.ecdsaVerify (slice img 1024 97) (img.take 1024) (slice img 1216 96)) then 7
  else if fld img 26 2 = 0 ∨ fld img 26 2 > 8192 ∨ Config.lmsVerify (slice img 1128 60) (img.take 1024) (slice img 1312 (fld img 26 2)) = false then 8
  else 0

/-- A new NONCE drawn at the start of Cox, with no SEQ accepted (R523). -/
def drawNonce (s : State) : State :=
  let n := freshBytes s 32
  setWords { n.2 with cox := { n.2.cox with svcSeq := 0 } } F.SVC_NONCE_BYTES n.1

/-- The settings of a TRIAL start (R567): where the image's format is newer than the copy in use, the other copy is opened and the old one kept. -/
def trialSettings (s : State) : State :=
  match cfgInUse s with
  | some c =>
    if settingsVer s > c.format then
      let s := putCopy s ⟨1 - c.copy, settingsVer s, c.gen + 1, [], 64⟩
      { s with cox := { s.cox with keptOld := some c.copy } }
    else s
  | none => s

/-- The image has verified: Cox runs; COX_STATE shows it. -/
def bootDone (s : State) : State :=
  let s := if s.cox.phase = 2 then trialSettings s else s
  showCox { s with cox := { s.cox with verified := true }, pwr := { s.pwr with start := max s.pwr.start 4 } }

/-- BOOT_VERIFY (R562 to R566): the checks at start. WRITING, a TRIAL out of attempts and a TRIAL image rejected call for the fallback, with
RESTORING recorded; a rejected image otherwise ends in HALTED. -/
def execBootVerify (s : State) : Res :=
  if !(domainOn s .cox) || s.cox.verified || s.pwr.dev != 1 then .next s
  else
    let s := drawNonce s
    let restore := fun (s : State) => { s with cox := { s.cox with phase := 3 } }
    let fallback := s.cox.fallback.isSome
    if s.cox.phase = 1 ∨ s.cox.phase = 3 ∨ (s.cox.phase = 2 ∧ s.cox.attempt ≥ 3) then
      .next (showCox (if fallback then restore s else bootHalted s))
    else
      let s := if s.cox.phase = 2 then { s with cox := { s.cox with attempt := s.cox.attempt + 1 } } else s
      let code := bootCheck s
      if code = 0 then .next (bootDone s)
      else
        let s := logCox s EV.bootFailed code 0 0
        .next (showCox (if s.cox.phase = 2 && fallback then restore s else bootHalted s))

/-! ### Update and fallback (R563 to R566) -/

/-- A fallback copy as the NAND holds it: none with a stride missing or a wrong CRC. -/
def fallbackCopy (s : State) (m : FallbackMap) (e : Nat) : Option Bytes :=
  let n := ceilDiv m.len 65536
  let xs := (List.range n).filterMap fun p => (strideAt s (fallbackBsn e) p).map fun x => (x.planes.map fun q => fit q.1 16384).flatten
  let b := (xs.flatten).take m.len
  if xs.length = n ∧ b.length = m.len ∧ crc32c b = m.crc then some b else none

/-- IMAGE_EXPORT: the active image copied to DRAM, its length and CRC returned; MALFORMED where ADDR does not take it. -/
def execImageExport (s : State) : Res :=
  onMailbox 0x50 8 8 s fun s c p =>
    let r := fabWrite s 2 (fld p 0 8) s.cox.image
    .next (if r.2 then mbReply r.1 c 0 (le 4 s.cox.image.length ++ le 4 (crc32c s.cox.image)) else mbReply r.1 c 1 [])

/-- FALLBACK_SET: the map recorded. One that does not describe the two copies on NAND is R571. -/
def execFallbackSet (s : State) : Res :=
  onMailbox 0x51 41 41 s fun s c p =>
    let m : FallbackMap := ⟨[fld p 0 16, fld p 16 16], fld p 32 4, fld p 36 4, fld p 40 1⟩
    let res := fun (e : Nat) => bits e 40 8 != 0 || bits e 24 6 != 0 || bits e 64 64 != 0
    if m.entries.any res then .fault (.undefined571 4)
    else if m.len > 48 * 1024 * 1024 then .next (mbReply s c 1 [])
    else if m.entries.any (fun e => (fallbackCopy s m e).isNone) || bits (fld p 0 16) 35 5 == bits (fld p 16 16) 35 5 then .fault (.undefined571 3)
    else .next (mbReply { s with cox := { s.cox with fallback := some m } } c 0 [])

/-- A bundle written into the active image region: TRIAL with ATTEMPT 0 (R563). -/
def installImage (s : State) (b : Bytes) : State := { s with cox := { s.cox with image := b, phase := 2, attempt := 0 } }

/-- The status with which IMAGE_INSTALL of a bundle ends at once, 0 where it goes on. -/
def installCheck (s : State) (len crc : Nat) (b : Bytes) (failed : Bool) : Nat :=
  if len > 48 * 1024 * 1024 then 1
  else if failed ∨ crc32c b ≠ crc then 6
  else if s.cox.phase = 2 ∨ (s.cox.fallback.map FallbackMap.crc) ≠ some (crc32c s.cox.image) then 4
  else 0

/-- IMAGE_INSTALL (R563): the bundle in DRAM written into the active image region. With `cut` 1 power fails while it is being written, and WRITING
stands with a region that holds no image. -/
def execImageInstall (cut : Nat) (s : State) : Res :=
  onMailbox 0x52 16 16 s fun s c p =>
    let len := fld p 8 4
    let r := coxRead s (fld p 0 8) (min len (48 * 1024 * 1024))
    let code := installCheck s len (fld p 12 4) r.2.1 r.2.2
    if code ≠ 0 then .next (mbReply r.1 c code [])
    else if cut = 1 then .next (showCox { r.1 with cox := { r.1.cox with image := [], phase := 1 } })
    else .next (mbReply (showCox (installImage r.1 r.2.1)) c 0 [])

/-- IMAGE_CONFIRM (R564): fuses burnt, the kept settings copy released, the fallback map cleared where its SVN is too low, STEADY. -/
def execImageConfirm (s : State) : Res :=
  onMailbox 0x53 0 0 s fun s c _ =>
    if s.cox.phase ≠ 2 then .next (mbReply s c 4 [])
    else
      let svn := max s.cox.svnFused (fld s.cox.image 12 1)
      let gone := (bitList (fld s.cox.image 7 1) 4).filter (· != fld s.cox.image 5 1)
      let keep := s.cox.fallback.filter fun m => decide (m.svn ≥ svn)
      let s := { s with cox := { s.cox with svnFused := svn, revoked := (s.cox.revoked ++ gone).eraseDups, keptOld := none, fallback := keep,
                                            phase := 0, attempt := 0 } }
      .next (mbReply (showCox (logCox s EV.fwConfirmed (fld s.cox.image 12 1) 0 0)) c 0 [])

/-- FALLBACK_RESTORE (R565): in RESTORING the loader streams copy 0, or copy 1, into the active image region, drops a settings copy opened for the
trial, records STEADY and starts again with the verification. With `cut` 1 power fails before its end. With neither copy readable no image can start. -/
def execFallbackRestore (cut : Nat) (s : State) : Res :=
  match s.cox.fallback with
  | none => .next s
  | some m =>
    if s.cox.phase ≠ 3 ∨ domainOn s .cox = false ∨ s.pwr.dev ≠ 1 then .next s
    else if cut = 1 then .next { s with cox := { s.cox with image := [] } }
    else
      match m.entries.findSome? (fallbackCopy s m) with
      | none => .next (bootHalted s)
      | some b =>
        let copies := match s.cox.keptOld with
          | some k => s.cox.copies.filter fun c => c.copy == k
          | none => s.cox.copies
        let s := { s with cox := { s.cox with image := b, phase := 0, attempt := 0, copies := copies, keptOld := none } }
        .next (showCox (logCox s EV.fwFallback (fld b 12 1) 0 0))

/-- TRIAL_TIMEOUT (R564): 600 s after the release of crew cores 0 and 1 without confirmation Cox resets the device. -/
def execTrialTimeout (s : State) : Res :=
  match s.cox.releasedAt with
  | some t => if s.cox.phase = 2 ∧ s.pj.dumping = none then .next (deviceReset (reach s (t + 600 * sec)) 4) else .next s
  | none => .next s

/-! ### Logbook clear, reset, fatal -/

/-- LOG_CLEAR (R558, R584): with the right AUTH Cox grants the logbook a clear up to UPTO. -/
def execLogClear (s : State) : Res :=
  onMailbox 0x60 24 24 s fun s c p =>
    match s.cox.enclosure with
    | none => .next (mbReply s c 4 [])
    | some key =>
      let label : Bytes := [0x41, 0x5A, 0x4B, 0x2D, 0x4C, 0x4F, 0x47, 0x2D, 0x43, 0x4C, 0x52]
      if s.cox.dropped then .next (mbReply s c 4 [])
      else if p.take 16 = (hmacSha384 key (label ++ svcNonce s ++ slice p 16 8)).take 16 then
        .next (mbReply { s with cox := { s.cox with clearGranted := some (fld p 16 8) } } c 0 [])
      else .next (mbReply s c 6 [])

/-- RESET (R558): a device reset with cause 4, refused while the journal holds records unless FORCE is 1. -/
def execReset (s : State) : Res :=
  onMailbox 0x70 1 1 s fun s c p =>
    if fld p 0 1 > 1 then .next (mbReply s c 1 [])
    else if fld p 0 1 = 0 ∧ flag s F.PJ_CTRL_ENABLE = true ∧ getF s F.PJ_HEAD_OFFSET ≠ getF s F.PJ_TAIL_OFFSET then .next (mbReply s c 4 [])
    else .next (deviceReset s 4)

/-- FATAL (R558, Table 18-4): the device enters HALTED. -/
def execFatal (s : State) : Res :=
  onMailbox 0x71 4 4 s fun s c p => .next (enterHalted (mbReply s c 0 []) (fld p 0 4))

/-! ### Before the crew cores are released (R555) -/

/-- The CREW section copied to its LOAD address. -/
def loadCrew (s : State) : State :=
  match bundleSection s.cox.image 2 with
  | some (_, b) => (fabWrite s 2 (fld b 0 8) (b.drop 16)).1
  | none => s

/-- The keys of R480 and R481. -/
def loadKeys (s : State) : State :=
  let s := setSlot s ⟨1, 2, false, 0, 0, fit (Config.deriveKey 1 Config.deviceSecret) 64⟩
  let s := setF { s with cip := { s.cip with kek := some (fit (Config.deriveKey 0 Config.deviceSecret) 32), escrow := s.cox.escrowKey } }
    F.CIP_STATUS_KEK 1
  setF s F.CIP_STATUS_ESCROW (b2n s.cox.escrowKey.isSome)

/-- SVC_ADDR and SVC_IDKEY (R522, R523). -/
def loadService (s : State) : State :=
  let s := setF s F.SVC_ADDR_ADDR (leNat (0x02 :: be 5 (Config.hull % 2 ^ 40)))
  setWords s F.SVC_IDKEY_BYTES (fit (fit (Config.ecPublic Config.identityKey) 97) 100)

/-- The board values that CFG_WRITE left for this start copied into the Cox keys (R558). -/
def takeBoard (s : State) : State :=
  (List.range 6).foldl (fun s i =>
    match cfgLookup s (0x10000001 + i) with
    | some (r, _) => if r.del then s else { s with cox := { s.cox with board := kvPut s.cox.board (i + 1) (leNat r.data) } }
    | none => s) s

/-- The board values loaded and locked (R257, R549). -/
def loadBoard (s : State) : State :=
  let put := fun (s : State) (i : Nat) (f : Fld) => match kvGet s.cox.board i with | some v => setF s f v | none => s
  let s := put (put (put s 1 F.ES_RTEST_MILLIOHM) 2 F.ES_VMIN_MV) 3 F.ES_EFF_PCT
  let s := put (put (put s 4 F.PWR_THERM_T_T1) 5 F.PWR_THERM_T_T2) 6 F.PWR_THERM_T_T3
  { s with cox := { s.cox with locked := true } }

/-- The thresholds ascend and end at most at 125 °C (R549). -/
def thresholdsOk (s : State) : Bool :=
  let t1 := getF s F.PWR_THERM_T_T1
  let t2 := getF s F.PWR_THERM_T_T2
  let t3 := getF s F.PWR_THERM_T_T3
  decide (t1 < t2) && decide (t2 < t3) && decide (t3 ≤ 125)

/-- Cox releases crew cores 0 and 1 once the image has verified and CORE, DRAM and FLASH are on (R555, Table 18-2 step 5). Thresholds that break
R549 are R553. -/
def coxRelease (s : State) : Res :=
  if !s.cox.verified || s.cox.releasedAt.isSome || !(domainOn s .core && domainOn s .dram && domainOn s .flash) then .next s
  else
    let s := loadBoard (takeBoard (loadService (loadKeys (loadCrew s))))
    if !(thresholdsOk s) then .fault (.undefined553 3)
    else .next (showCox { s with cox := { s.cox with releasedAt := some s.now }, pwr := { s.pwr with start := 5 } })

end Sys2Proof.Machine
end

