-- ==== Sys2Proof/Machine/Dma.lean ====
section
/-! DEFINITION. The DMA engine (13): channels, bursts through the shared buffer, descriptors and their LINKs, completion
records, request lines and halts. -/

namespace Sys2Proof.Machine

/-! ### Channels -/

/-- A channel's state beyond its registers; one that has never run has none. -/
def chanOf (s : State) (n : Nat) : DmaCh :=
  (s.dma.chans.find? fun c => c.num == n).getD ⟨n, none, 0, 0, [], none, false, 0, [], 0, false, none⟩

/-- The blocks of the buffer in use: each burst is at most one block of 4,096 bytes (R438). -/
def dmaUsed (s : State) : Nat := (s.dma.chans.map fun c => c.bursts.length).sum

/-- DMA_STATUS after a change: IDLE while no channel is RUNNING, and the blocks reserved. -/
def dmaSync (s : State) : State :=
  let running := (List.range 32).any fun n => getF s (F.DMA_CH_STATUS_STATE n) == 1
  setF (setF s F.DMA_STATUS_IDLE (b2n !running)) F.DMA_STATUS_BUF_USED (dmaUsed s)

/-- A channel put in place, with DMAnn_DONE_BYTES showing its bytes written. -/
def putChan (s : State) (c : DmaCh) : State :=
  let s := { s with dma := { s.dma with chans := c :: s.dma.chans.filter fun x => x.num != c.num } }
  dmaSync (setF s (F.DMA_CH_DONE_BYTES_BYTES c.num) c.done)

/-- A channel's STATE set. -/
def setChanState (s : State) (n st : Nat) : State := dmaSync (setF s (F.DMA_CH_STATUS_STATE n) st)

/-- The requester ID of a channel (R437). -/
def dmaRid (n : Nat) : Nat := if n < 16 then 6 else 7

/-- The address of a channel's current descriptor. -/
def descAddr (s : State) (n : Nat) : Nat := getF s (F.DMA_CH_DESC_ADDR n) * 64

/-! ### Descriptors, Table 13-1 -/

/-- A flag of DFLAGS. -/
def dflag (d : Bytes) (i : Nat) : Bool := bitAt (fld d 0 1) i

/-- W, the window's logarithm. -/
def dwrap (d : Bytes) : Nat := fld d 1 1

/-- LENGTH; none for an endless descriptor. -/
def dlength (d : Bytes) : Option Nat :=
  if fld d 4 4 = 0 ∧ (dflag d 4 ∨ dflag d 5) then none else some (fld d 4 4)

/-- The address of byte i of a side (R441): the base, whether it is a peripheral window, whether it wraps. -/
def sideAddr (a : Nat) (periph wrap : Bool) (w i : Nat) : Nat :=
  if periph then a else if wrap then a - a % 2 ^ w + (a + i) % 2 ^ w else a + i

/-- The address of byte i of the source and of the destination. -/
def srcAddr (d : Bytes) (i : Nat) : Nat := sideAddr (fld d 8 8) (dflag d 2) (dflag d 4) (dwrap d) i
/-- The address of byte i of the destination. -/
def dstAddr (d : Bytes) (i : Nat) : Nat := sideAddr (fld d 16 8) (dflag d 3) (dflag d 5) (dwrap d) i

/-- The faults a channel checks a descriptor for (R442). -/
def descFault (s : State) (n : Nat) (d : Bytes) : Bool :=
  let wraps := dflag d 4 || dflag d 5
  (fld d 4 4 == 0 && !wraps) || (wraps && (decide (dwrap d < 12) || decide (dwrap d > 30))) ||
    ((dflag d 2 || dflag d 3) && getF s (F.DMA_CH_CFG_PREQ n) == 0) || (dflag d 2 && dflag d 3)

/-- A reserved field of a descriptor is nonzero (R10). -/
def descReserved (d : Bytes) : Bool :=
  dflag d 7 || fld d 2 2 != 0 || !(allZero (slice d 40 24)) || bits (fld d 24 8) 48 15 != 0

/-- The addresses a side ranges over: first and length. -/
def sideRange (a : Nat) (periph wrap : Bool) (w len : Nat) : Nat × Nat :=
  if periph then (a, 1) else if wrap then (a - a % 2 ^ w, 2 ^ w) else (a, len)

/-- Source and destination overlap (R453). -/
def descOverlap (d : Bytes) : Bool :=
  let len := (dlength d).getD (2 ^ 30)
  let p := sideRange (fld d 8 8) (dflag d 2) (dflag d 4) (dwrap d) len
  let q := sideRange (fld d 16 8) (dflag d 3) (dflag d 5) (dwrap d) len
  decide (p.1 < q.1 + q.2) && decide (q.1 < p.1 + p.2)

/-! ### Ends of DMA_RUN, halts, records -/

/-- The DMA_RUN entry a channel serves ends with DSTATUS (R449). -/
def dmaRunEnd (s : State) (n dstatus : Nat) : State :=
  let c := chanOf s n
  match c.run with
  | none => s
  | some (q, i) =>
    let s := putChan s { c with run := none }
    match openAt s q i 0x10 with
    | some t => entryEnd s t (slice t.bytes 24 8 ++ [BitVec.ofNat 8 dstatus] ++ zeros 3) (dstatus != 0)
    | none => s

/-- A record of Table 13-2 written at DMA_CQ_PI, then DMA_CQ_PI; false when the write fails (R447, R448). -/
def dmaRecord (s : State) (n cookie bytes cstat : Nat) : State × Bool :=
  let pi := getF s F.DMA_CQ_PI_INDEX
  let c := getF s F.DMA_CQ_CFG_LOG2C
  let w := phaseOf c pi * 2 ^ 31 + cstat * 2 ^ 21 + n * 2 ^ 16
  let p := fabWrite s (dmaRid n) (getF s F.DMA_CQ_BASE_ADDR * 4096 + 16 * (pi % 2 ^ c)) (le 8 cookie ++ le 4 bytes ++ le 4 w)
  if p.2 then (bumpF p.1 F.DMA_CQ_PI_INDEX 1, true) else p

/-- Room in the completion ring. -/
def dmaRoom (s : State) : Bool :=
  decide (idxSub (getF s F.DMA_CQ_PI_INDEX) (getF s F.DMA_CQ_CI_INDEX) < 2 ^ getF s F.DMA_CQ_CFG_LOG2C)

/-- The COOKIE of the channel's descriptor; of one that could not be read the spec states none. -/
def dmaCookie (s : State) (n : Nat) : Nat × State :=
  match (chanOf s n).desc with
  | some d => (fld d 32 8, s)
  | none => let p := fresh s; (p.1 % 2 ^ 64, p.2)

/-- The records that wait written in order while the ring has room; CQ_WAIT shows that one waits. A record that cannot be written
is reported by the answer. -/
def dmaAppend : Nat → State → Nat → State × Bool
  | 0, s, _ => (s, true)
  | k + 1, s, n =>
    let c := chanOf s n
    match c.records with
    | [] => (setF s (F.DMA_CH_STATUS_CQ_WAIT n) 0, true)
    | (cstat, bytes) :: rest =>
      if !(dmaRoom s) then (setF s (F.DMA_CH_STATUS_CQ_WAIT n) 1, true)
      else
        let ck := dmaCookie s n
        let p := dmaRecord (putChan ck.2 { c with records := rest }) n ck.1 bytes cstat
        if p.2 then dmaAppend k p.1 n else (p.1, false)

/-- A channel halts (R451): the latch, EV_DMA_HALT, the record with CSTAT 4 behind those that wait. -/
def dmaHalt (s : State) (n cause dir a : Nat) : State :=
  let c := chanOf s n
  let s :=
    if flag s (F.DMA_CH_ERR_INFO_VALID n) then s
    else setF (setF (setF (setF s (F.DMA_CH_ERR_INFO_CAUSE n) cause) (F.DMA_CH_ERR_INFO_DIR n) dir) (F.DMA_CH_ERR_ADDR_ADDR n) a)
      (F.DMA_CH_ERR_INFO_VALID n) 1
  let s := putChan s { c with issued := c.done, bursts := [], stopping := false, follow := 0, irqAfter := false,
                              records := c.records ++ [(4, c.done - c.covered)] }
  let s := logEv (setChanState s n 3) EV.dmaHalt n a (2 ^ 31 + dir * 8 + cause)
  let s := (dmaAppend ((chanOf s n).records.length + 1) s n).1
  dmaRunEnd s n 1

/-- A channel starts the descriptor at an address: it reads the whole of it in one access and checks it (R440, R442). -/
def dmaStart (s : State) (n a : Nat) : Res :=
  let c := chanOf s n
  let s := setF s (F.DMA_CH_DESC_ADDR n) (a / 64)
  let s := setChanState s n 1
  let c := { c with desc := none, done := 0, issued := 0, bursts := [], last := none, covered := 0, follow := 0, irqAfter := false }
  match fabRead (putChan s c) (dmaRid n) (a / 64 * 64) 64 with
  | (s, none) => .next (dmaHalt s n 2 0 (a / 64 * 64))
  | (s, some d) =>
    if descReserved d then .fault .reservedNonzero
    else
      let s := putChan s { c with desc := some d }
      if descFault s n d then .next (dmaHalt s n 2 0 (a / 64 * 64))
      else if descOverlap d then .fault (.undefined453 3)
      else .next s

/-- The chain has ended (R445): DMAnn_LAST holds the descriptor's address. -/
def dmaEnded (s : State) (n : Nat) : State :=
  dmaRunEnd (setChanState (setF s (F.DMA_CH_LAST_ADDR n) (descAddr s n)) n 2) n 0

/-- The LINK word read again in one 64-bit access; the channel goes on to NEXT when END is 0, else it is ENDED, or stays so (R445). -/
def dmaRelink (s : State) (n a : Nat) : Res :=
  match fabRead s (dmaRid n) (a + 24) 8 with
  | (s, none) => .next (dmaHalt s n 2 0 a)
  | (s, some w) =>
    if !(bitAt (leNat w) 63) then dmaStart s n (bits (leNat w) 0 48)
    else .next (if getF s (F.DMA_CH_STATUS_STATE n) = 2 then s else dmaEnded s n)

/-- The channel follows the LINK it read at the descriptor's start (R445). -/
def dmaFollow (s : State) (n : Nat) : Res :=
  match (chanOf s n).desc with
  | none => .next s
  | some d =>
    let s := countF s F.DMA_CNT_DESC_COUNT 1
    let link := fld d 24 8
    if !(bitAt link 63) then dmaStart s n (bits link 0 48)
    else if flag s (F.DMA_CH_STATUS_KICK_PEND n) then dmaRelink (setF s (F.DMA_CH_STATUS_KICK_PEND n) 0) n (descAddr s n)
    else .next (dmaEnded s n)

/-- The channel is stopped: IDLE, its DMA_RUN entry ends with DSTATUS 3. -/
def dmaIdle (s : State) (n : Nat) : State :=
  let c := chanOf s n
  dmaRunEnd (setChanState (putChan s { c with stopping := false, follow := 0 }) n 0) n 3

/-- A stop's record and then IDLE. -/
def dmaStopped (s : State) (n : Nat) : State :=
  let c := chanOf s n
  putChan s { c with records := c.records ++ [(3, c.done - c.covered)], follow := 2 }

/-- What a channel does once its records are appended: IRQ_PEND after the record, then the LINK or IDLE (R445, R448). A record write
error halts with CAUSE 4. -/
def dmaSettle (s : State) (n : Nat) : Res :=
  let at_ := getF s F.DMA_CQ_BASE_ADDR * 4096 + 16 * (getF s F.DMA_CQ_PI_INDEX % 2 ^ getF s F.DMA_CQ_CFG_LOG2C)
  match dmaAppend ((chanOf s n).records.length + 1) s n with
  | (s, false) => .next (dmaHalt s n 4 1 at_)
  | (s, true) =>
    let c := chanOf s n
    if c.records ≠ [] then .next s
    else
      let s := if c.irqAfter then setF s (F.DMA_CH_STATUS_IRQ_PEND n) 1 else s
      let s := putChan s { c with irqAfter := false, follow := 0 }
      if c.follow = 0 then .next s
      else if c.follow = 2 then .next (dmaIdle s n)
      else if c.stopping then
        let s := dmaStopped s n
        let p := dmaAppend 2 s n
        if !p.2 then .next (dmaHalt p.1 n 4 1 at_)
        else if (chanOf p.1 n).records ≠ [] then .next p.1
        else .next (dmaIdle p.1 n)
      else dmaFollow s n

/-! ### Channel commands, Table 13-3 -/

/-- GO on an IDLE or ENDED channel; in another state the table has no row and nothing happens. -/
def execDmaGo (core channel : Nat) (s : State) : Res :=
  coreStore s core (F.DMA_CH_CTRL_GO channel).addr fun s =>
    let st := getF s (F.DMA_CH_STATUS_STATE channel)
    if st = 0 ∨ st = 2 then whenFenced s [(descAddr s channel, 64)] (dmaStart s channel (descAddr s channel)) else .next s

/-- The first DMA_RUN entry of a queue that no channel serves yet. -/
def runEntry (s : State) (q : Nat) : Option Taken :=
  s.wq.taken.find? fun t => t.queue == q && !t.ended && t.result.isNone && fld t.bytes 0 1 == 0x10 &&
    !(s.dma.chans.any fun c => c.run == some (t.queue, t.index))

/-- DMA_RUN, the first of its queue that has not started (R449). -/
def execDmaRun (queue : Nat) (s : State) : Res := whileCore s fun s =>
  match runEntry s queue with
  | none => .next s
  | some t =>
    let w := fld t.bytes 8 2
    let n := w % 32
    if w ≥ 32 then .fault .reservedNonzero
    else
      let st := getF s (F.DMA_CH_STATUS_STATE n)
      if st = 0 ∨ st = 2 then dmaStart (putChan s { chanOf s n with run := some (t.queue, t.index) }) n (fld t.bytes 16 8)
      else .next (entryEnd s t (slice t.bytes 24 8 ++ [2] ++ zeros 3) true)

/-- KICK (R445): KICK_PEND while RUNNING; in ENDED the LINK of DMAnn_LAST is read again. -/
def execDmaKick (core channel : Nat) (s : State) : Res :=
  coreStore s core (F.DMA_CH_CTRL_KICK channel).addr fun s =>
    let st := getF s (F.DMA_CH_STATUS_STATE channel)
    if st = 1 then .next (setF s (F.DMA_CH_STATUS_KICK_PEND channel) 1)
    else if st = 2 then
      let a := getF s (F.DMA_CH_LAST_ADDR channel)
      whenFenced s [(a + 24, 8)] (dmaRelink s channel a)
    else .next s

/-- STOP of a RUNNING channel: no new burst, the data already read is written, then the record with CSTAT 3 and IDLE. -/
def execDmaStop (core channel : Nat) (s : State) : Res :=
  coreStore s core (F.DMA_CH_CTRL_STOP channel).addr fun s =>
    if getF s (F.DMA_CH_STATUS_STATE channel) ≠ 1 then .next s
    else
      let c := chanOf s channel
      let s := putChan s { c with stopping := true }
      if c.bursts = [] ∧ c.follow = 0 then dmaSettle (dmaStopped s channel) channel else .next s

/-- RESUME of a HALTED channel: it continues the current descriptor at DONE_BYTES; one that could not be started is started
again (R450, R451). -/
def execDmaResume (core channel : Nat) (s : State) : Res :=
  coreStore s core (F.DMA_CH_CTRL_RESUME channel).addr fun s =>
    let c := chanOf s channel
    if getF s (F.DMA_CH_STATUS_STATE channel) ≠ 3 then .next s
    else
      match c.desc with
      | none => dmaStart s channel (descAddr s channel)
      | some d =>
        if descFault s channel d then dmaStart s channel (descAddr s channel)
        else .next (setChanState (putChan s { c with issued := c.done, bursts := [] }) channel 1)

/-- ABORT of a HALTED channel: IDLE. -/
def execDmaAbort (core channel : Nat) (s : State) : Res :=
  coreStore s core (F.DMA_CH_CTRL_ABORT channel).addr fun s =>
    .next (if getF s (F.DMA_CH_STATUS_STATE channel) = 3 then setChanState s channel 0 else s)

/-! ### Bursts (R438, R443, R444) -/

/-- A request line is high: a software line whose level is set (R443); lines 32 to 63 stay low, line 0 means none. -/
def lineHigh (s : State) (l : Nat) : Bool := decide (1 ≤ l) && decide (l ≤ 31) && bitAt (getF s F.DMA_REQ_SET_LINES) (l - 1)

/-- The bytes of a burst size code. -/
def burstBytes (s : State) (n : Nat) : Nat := 64 * 4 ^ getF s (F.DMA_CH_CFG_BURST n)

/-- The descriptor has bytes whose read is not yet issued. -/
def hasMore (c : DmaCh) (d : Bytes) : Bool :=
  c.last.isNone && (match dlength d with | some l => decide (c.issued < l) | none => true)

/-- The bytes of the next burst: BURST, the rest of the descriptor, up to a wrap boundary (R438). -/
def burstLen (s : State) (c : DmaCh) (d : Bytes) : Nat :=
  let toWrap := fun (a : Nat) (wrap : Bool) => if wrap then 2 ^ dwrap d - (a + c.issued) % 2 ^ dwrap d else 2 ^ 32
  let rest := match dlength d with | some l => l - c.issued | none => 2 ^ 32
  min (min (burstBytes s c.num) rest) (min (toWrap (fld d 8 8) (dflag d 4)) (toWrap (fld d 16 8) (dflag d 5)))

/-- The channel wants to issue a burst: RUNNING, not stopping, no record waiting, bytes left. -/
def wantsBurst (s : State) (n : Nat) : Bool :=
  let c := chanOf s n
  getF s (F.DMA_CH_STATUS_STATE n) == 1 && !c.stopping && c.records.isEmpty && c.follow == 0 &&
    (match c.desc with | some d => hasMore c d | none => false)

/-- The channel is a peripheral's (R441). -/
def chanPeriph (s : State) (n : Nat) : Bool :=
  match (chanOf s n).desc with | some d => dflag d 2 || dflag d 3 | none => false

/-- The channel has a burst ready, quota left and a free block, and its line is high where it waits for one (R438, R444). -/
def burstReady (s : State) (n : Nat) : Bool :=
  flag s F.DMA_CTRL_ENABLE && wantsBurst s n && decide ((chanOf s n).bursts.length < getF s (F.DMA_CH_CFG_QUOTA n)) &&
    decide (dmaUsed s < 256) && (!(chanPeriph s n) || lineHigh s (getF s (F.DMA_CH_CFG_PREQ n)))

/-- The next of a class in round robin after the one served last. -/
def dmaNext (s : State) (high : Bool) (last : Nat) : Option Nat :=
  let ring := (List.range 32).filter (fun n => decide (n > last)) ++ (List.range 32).filter (fun n => decide (n ≤ last))
  ring.find? fun n => flag s (F.DMA_CH_CFG_HIGH n) == high && burstReady s n

/-- The channel the read engine serves next: HIGH channels first, round robin within each class (R438). -/
def dmaPick (s : State) : Option Nat :=
  match dmaNext s true s.dma.lastHigh with
  | some n => some n
  | none => dmaNext s false s.dma.lastLow

/-- The read engine issues a burst for the channel that is next (R438, R444). For any other channel the grant does not happen. -/
def execDmaBurstGrant (channel : Nat) (s : State) : Res := whileCore s fun s =>
  if dmaPick s ≠ some channel then .next s
  else
    let c := chanOf s channel
    match c.desc with
    | none => .next s
    | some d =>
      let s := if flag s (F.DMA_CH_CFG_HIGH channel) then { s with dma := { s.dma with lastHigh := channel } }
        else { s with dma := { s.dma with lastLow := channel } }
      let len := burstLen s c d
      let a := srcAddr d c.issued
      match fabRead s (dmaRid channel) a (if dflag d 2 then 1 else len) with
      | (s, none) => .next (dmaHalt s channel 1 0 a)
      | (s, some b) =>
        let data := if dflag d 2 then List.replicate len (b.headD 0) else b
        .next (putChan s { c with issued := c.issued + len, bursts := c.bursts ++ [⟨c.issued, data⟩] })

/-- The wrap records due when the bytes written reach the end of a circular side's window (R447): one for each side that wraps. -/
def wrapRecords (d : Bytes) (c : DmaCh) : List (Nat × Nat) :=
  if !(dflag d 6) then []
  else
    let hit := fun (a : Nat) (wrap : Bool) => wrap && (a + c.done) % 2 ^ dwrap d == 0
    let src := hit (fld d 8 8) (dflag d 4)
    let dst := hit (fld d 16 8) (dflag d 5)
    if src && dst then [(2, c.done - c.covered), (2, 0)] else if src || dst then [(2, c.done - c.covered)] else []

/-- The write engine completes the oldest burst of a channel: its bytes reach the destination, its block is free, wrap records follow,
and a stopping channel with nothing left in flight stops (R438, R447, R450). -/
def execDmaBurstWritten (channel : Nat) (s : State) : Res := whileCore s fun s =>
  let c := chanOf s channel
  match c.desc, c.bursts with
  | some d, b :: rest =>
    let a := dstAddr d b.start
    let data := if dflag d 3 then b.data.drop (b.data.length - 1) else b.data
    match fabWrite s (dmaRid channel) a data with
    | (s, false) => .next (dmaHalt s channel 1 1 a)
    | (s, true) =>
      let c := { c with bursts := rest, done := b.start + b.data.length }
      let recs := wrapRecords d c
      let c := { c with records := c.records ++ recs, covered := if recs.isEmpty then c.covered else c.done }
      let s := countF (putChan s c) F.DMA_CNT_BYTES_COUNT b.data.length
      if c.stopping ∧ rest = [] then dmaSettle (dmaStopped s channel) channel else dmaSettle s channel
  | _, _ => .next s

/-- A peripheral source marks the burst granted last LAST with a byte count below the burst; the descriptor ends after those bytes
(R444). A software line never does (R443), so it means something only for a channel bound to a line above 31. -/
def execDmaPeripheralLast (channel bytes : Nat) (s : State) : Res := whileCore s fun s =>
  let c := chanOf s channel
  match c.desc, c.bursts.reverse with
  | some d, b :: rest =>
    if dflag d 2 ∧ getF s (F.DMA_CH_CFG_PREQ channel) ≥ 32 ∧ bytes < b.data.length then
      .next (putChan s { c with bursts := rest.reverse ++ [⟨b.start, b.data.take bytes⟩], last := some (b.start + bytes) })
    else .next s
  | _, _ => .next s

/-- A peripheral marks a granted burst ABORT: the channel halts with CAUSE 3, the bytes of that burst are not written (R444). -/
def execDmaPeripheralAbort (channel : Nat) (s : State) : Res := whileCore s fun s =>
  let c := chanOf s channel
  match c.desc, c.bursts.reverse with
  | some d, b :: _ =>
    if chanPeriph s channel ∧ getF s (F.DMA_CH_CFG_PREQ channel) ≥ 32 then
      .next (dmaHalt s channel 3 (b2n (dflag d 3)) (if dflag d 3 then dstAddr d b.start else srcAddr d b.start))
    else .next s
  | _, _ => .next s

/-- Every byte of the descriptor is written. -/
def descDone (c : DmaCh) (d : Bytes) : Bool :=
  c.bursts.isEmpty && (match c.last, dlength d with
    | some l, _ => c.done == l
    | none, some l => c.done == l
    | none, none => false)

/-- A descriptor ends (R445, R447): its record where COMPL is set, CSTAT 1 when LAST ended it, IRQ_PEND, then the LINK. -/
def execDmaDescriptorEnd (channel : Nat) (s : State) : Res := whileCore s fun s =>
  let c := chanOf s channel
  match c.desc with
  | none => .next s
  | some d =>
    if getF s (F.DMA_CH_STATUS_STATE channel) ≠ 1 ∨ !(descDone c d) ∨ c.records ≠ [] ∨ c.follow ≠ 0 then .next s
    else
      let recs := if dflag d 0 then [(b2n c.last.isSome, c.done - c.covered)] else []
      dmaSettle (putChan s { c with records := recs, irqAfter := dflag d 1, follow := 1 }) channel

/-! ### Request lines and the ring -/

/-- The levels of the software lines, which both registers read (R443). -/
def setLines (s : State) (v : Nat) : State := setF (setF s F.DMA_REQ_SET_LINES v) F.DMA_REQ_CLR_LINES v

/-- A write of DMA_REQ_SET raises the lines whose bits are 1 (R443). -/
def execDmaReqSet (core lines : Nat) (s : State) : Res :=
  coreStore s core F.DMA_REQ_SET_LINES.addr fun s =>
    if lines % 2 = 1 then .fault .reservedNonzero else .next (setLines s (getF s F.DMA_REQ_SET_LINES ||| lines / 2))

/-- The channels whose request is withdrawn when lines go low: they wait for a grant of a line that was high (R444). -/
def withdrawn (s : State) (lowered : Nat) : Nat :=
  ((List.range 32).filter fun n =>
    let l := getF s (F.DMA_CH_CFG_PREQ n)
    wantsBurst s n && chanPeriph s n && lineHigh s l && bitAt lowered l).length

/-- A write of DMA_REQ_CLR lowers the lines whose bits are 1; an ungranted request is withdrawn and counted (R443, R444). -/
def execDmaReqClr (core lines : Nat) (s : State) : Res :=
  coreStore s core F.DMA_REQ_CLR_LINES.addr fun s =>
    if lines % 2 = 1 then .fault .reservedNonzero
    else
      let levels := getF s F.DMA_REQ_SET_LINES
      .next (setLines (countF s F.DMA_CNT_WITHDRAWN_COUNT (withdrawn s lines)) (levels &&& (levels ^^^ lines / 2)))

/-- The channels that wait for room go on, in ascending order. -/
def dmaRelease : List Nat → State → Res
  | [], s => .next s
  | n :: ns, s => andThen (if flag s (F.DMA_CH_STATUS_CQ_WAIT n) then dmaSettle s n else .next s) (dmaRelease ns)

/-- A write of DMA_CQ_CI frees completion slots and releases channels with CQ_WAIT (R448). Beyond DMA_CQ_PI is R453. -/
def execDmaCqCiWrite (core index : Nat) (s : State) : Res :=
  coreStore s core F.DMA_CQ_CI_INDEX.addr fun s =>
    let ci := getF s F.DMA_CQ_CI_INDEX
    if idxSub index ci > idxSub (getF s F.DMA_CQ_PI_INDEX) ci then .fault (.undefined453 4)
    else dmaRelease (List.range 32) (setF s F.DMA_CQ_CI_INDEX index)

end Sys2Proof.Machine
end

