-- ==== Sys2Proof/Machine/Erasure.lean ====
section
/-! DEFINITION. The erasure engine (08): encode, decode and check over units in memory, and the ends of its entries (R308 to R311). -/

namespace Sys2Proof.Machine

/-- The entry that EC may start: the front of its queue with the opcode, while it is enabled, free, and no swap holds it (R306, R311). -/
def ecEntry (s : State) (q op : Nat) : Option Taken :=
  if flag s F.EC_CTRL_ENABLE && !(flag s F.EC_STATUS_BUSY) then openEntry s q op else none

/-- A fabric failure latched, under R310. -/
def ecLatch (s : State) (pos : Nat) (wr : Bool) (a : Nat) : State :=
  if flag s F.EC_ERR_INFO_VALID then s
  else setF (setF (setF (setF s F.EC_ERR_INFO_DIR (b2n wr)) F.EC_ERR_INFO_POS pos) F.EC_ERR_ADDR_ADDR a) F.EC_ERR_INFO_VALID 1

/-- A range read line by line up to the first failure, which is latched with its position (R310). -/
def ecReadLines : List (Nat × Nat) → State → Nat → State × Option Bytes
  | [], s, _ => (s, some [])
  | (a, n) :: ps, s, pos =>
    match fabRead s 8 a n with
    | (s, none) => (ecLatch s pos false a, none)
    | (s, some b) =>
      match ecReadLines ps s pos with
      | (s, none) => (s, none)
      | (s, some c) => (s, some (b ++ c))

/-- The unit at a position: 65,536 zero bytes for address 0 (R308). -/
def ecUnit (s : State) (addrs : List Nat) (pos : Nat) : State × Option Bytes :=
  let a := (addrs[pos]?).getD 0
  let r := if a = 0 then (s, some (zeros 65536)) else ecReadLines (linePieces 258 a 65536) s pos
  match r with
  | (s, some b) => (countF s F.EC_CNT_BYTES_COUNT 65536, some b)
  | r => r

/-- The units of several positions, as (position, bytes). -/
def ecUnits (addrs : List Nat) : List Nat → State → State × Option (List (Nat × Bytes))
  | [], s => (s, some [])
  | p :: ps, s =>
    match ecUnit s addrs p with
    | (s, none) => (s, none)
    | (s, some b) =>
      match ecUnits addrs ps s with
      | (s, none) => (s, none)
      | (s, some r) => (s, some ((p, b) :: r))

/-- The units written to their list entries; a failure is latched. -/
def ecWrites (addrs : List Nat) : List (Nat × Bytes) → State → State × Bool
  | [], s => (s, true)
  | (p, b) :: r, s =>
    let a := (addrs[p]?).getD 0
    match fabWrite s 8 a b with
    | (s, false) => (ecLatch s p true a, false)
    | (s, true) => ecWrites addrs r s

/-- Destination units whose content is undefined after a failure (R310): free bytes. -/
def ecSpoil (addrs : List Nat) : List Nat → State → State
  | [], s => s
  | p :: ps, s =>
    let r := freshBytes s 65536
    ecSpoil addrs ps (fabWrite r.2 8 ((addrs[p]?).getD 0) r.1).1

/-- An erasure entry's work is done with its status and MISMATCH (Table 08-12). -/
def ecDone (s : State) (t : Taken) (status mismatch : Nat) : Res :=
  .next (setF (entryResult s t (slice t.bytes 24 8 ++ le 2 status ++ le 1 mismatch) (status != 0)) F.EC_STATUS_BUSY 1)

/-- The work of an entry that has passed its checks over the addresses of its list: units in, units out. -/
def ecRun (s : State) (t : Taken) (addrs ins outs : List Nat)
    (make : (Nat → Bytes) → State → List (Nat × Bytes) × Nat × State) : Res :=
  if (ins ++ outs).any (fun p => (addrs[p]?).getD 0 % 64 != 0) then .fault (.undefined314 6)
  else if outs.any (fun o => overlaps ((addrs[o]?).getD 0) 65536 (fld t.bytes 16 8) 192 ||
      (ins.any fun i => (addrs[i]?).getD 0 != 0 && overlaps ((addrs[o]?).getD 0) 65536 ((addrs[i]?).getD 0) 65536) ||
      outs.any fun p => p != o && overlaps ((addrs[o]?).getD 0) 65536 ((addrs[p]?).getD 0) 65536) then .fault (.undefined314 5)
  else
    match ecUnits addrs ins s with
    | (s, none) => ecDone (ecSpoil addrs outs s) t 4 0
    | (s, some us) =>
      let r := make (fun p => ((us.find? fun u => u.1 == p).map (·.2)).getD (zeros 65536)) s
      match ecWrites addrs r.1 r.2.2 with
      | (s, false) => ecDone (ecSpoil addrs outs s) t 4 0
      | (s, true) => ecDone s t 0 r.2.1

/-- An entry is started: HOLD during a swap (R306), reserved fields, then the set named (ECSTATUS 1) and the list. -/
def ecStart (s : State) (queue op : Nat) (check : GenSet → Bytes → Nat)
    (work : State → Taken → GenSet → List Nat → Res) : Res :=
  match ecEntry s queue op with
  | none => .next s
  | some t =>
    let b := t.bytes
    if flag s F.RIG_STATUS_SWAPPING then .next (setF s F.EC_STATUS_HOLD 1)
    else if fld b 13 1 ≥ 16 ∨ fld b 14 2 ≠ 0 ∨ fld b 16 8 % 64 ≠ 0 ∨ ¬ allZero (slice b 32 32) then .fault (.undefined314 6)
    else
      let v := activeView s
      let i := fld b 8 2
      if i ≥ v.count 4 then ecDone s t 1 0
      else
        let x := v.genSet i
        if x.m ≠ 0 ∧ x.geom ≥ v.count 6 then .fault (.undefined314 2)
        else if check x b ≠ 0 then ecDone s t (check x b) 0
        else
          match fabRead s 8 (fld b 16 8) 192 with
          | (s, none) =>
            let p := fresh s
            ecDone (ecLatch p.2 p.1 false (fld b 16 8)) t 4 0
          | (s, some l) => work s t x ((List.range 24).map fun p => fld l (8 * p) 8)

/-- ECSTATUS 3: PMASK names a unit at or above M. -/
def ecPmask (x : GenSet) (b : Bytes) : Nat := if fld b 13 1 ≥ 2 ^ x.m then 3 else 0

/-- ECSTATUS 2: the conditions on XMASK. -/
def ecXmask (x : GenSet) (b : Bytes) : Nat :=
  let m := fld b 10 3
  if x.m = 0 ∨ m ≥ 2 ^ (x.k + x.m) ∨ popcount m 24 ≠ x.m then 2 else 0

/-- EC_ENCODE (R172, R308). -/
def execEcEncode (queue : Nat) (s : State) : Res := whileCore s fun s =>
  ecStart s queue 0x60 ecPmask fun s t x addrs =>
    let ps := bitList (fld t.bytes 13 1) 4
    ecRun s t addrs (List.range x.k) (ps.map (· + x.k)) fun unit s =>
      (ps.map fun i => (x.k + i, parityUnit x 65536 i ((List.range x.k).map unit)), 0, s)

/-- EC_DECODE (R295, R308). -/
def execEcDecode (queue : Nat) (s : State) : Res := whileCore s fun s =>
  ecStart s queue 0x61 ecXmask fun s t x addrs =>
    let ex := bitList (fld t.bytes 10 3) 24
    let v := activeView s
    if v.decodeIndex x ex ≥ v.count 7 then .fault (.undefined314 2)
    else
      let ds := ex.filter fun p => decide (p < x.k)
      ecRun s t addrs ((List.range (x.k + x.m)).filter fun p => !(ex.contains p)) ds fun unit s =>
        (ds.map fun d => (d, decodeUnit v x ex 65536 d unit), 0, s)

/-- EC_CHECK (R308): nothing is written; MISMATCH names the parity units that differ. -/
def execEcCheck (queue : Nat) (s : State) : Res := whileCore s fun s =>
  ecStart s queue 0x62 ecPmask fun s t x addrs =>
    let ps := bitList (fld t.bytes 13 1) 4
    ecRun s t addrs (List.range x.k ++ ps.map (· + x.k)) [] fun unit s =>
      ([], (ps.map fun i => if unit (x.k + i) = parityUnit x 65536 i ((List.range x.k).map unit) then 0 else 2 ^ i).sum, s)

/-- An entry of the erasure engine ends and is counted (R309, R310). -/
def execEcEntryEnd (queue : Nat) (s : State) : Res := whileCore s fun s =>
  match doneEntry s queue 0x60 0x62 with
  | none => .next s
  | some t =>
    let s := countF (endDone s t) F.EC_CNT_ENTRIES_COUNT 1
    let s := if ((t.result.getD ([], false)).1[10]?).getD 0 ≠ 0 then countF s F.EC_CNT_MISMATCH_COUNT 1 else s
    .next (setF s F.EC_STATUS_BUSY 0)

end Sys2Proof.Machine
end

