-- ==== Sys2Proof/Machine/Network.lean ====
section
/-! DEFINITION. The data ports and the pair link (16): links, transmit queues and preemption, flow control, receive decisions, rings,
time stamps and the PTP clock. Port numbers: 0 is port A, 1 is port B, 2 the service port where rings are meant and the pair link
where links are meant. -/

namespace Sys2Proof.Machine

/-- A MACA register field at its place in port p. -/
def mp (p : Nat) (f : Fld) : Fld := { f with addr := f.addr + p * 0x100000 }

/-- A port's state beyond its registers. -/
def macOf (s : State) (p : Nat) : MacPort :=
  (s.net.ports.find? fun x => x.num == p).getD ⟨p, [], none, none, [], [], 0, 0, []⟩

/-- A port put in place. -/
def putMac (s : State) (x : MacPort) : State :=
  { s with net := { s.net with ports := x :: s.net.ports.filter fun y => y.num != x.num } }

/-- The domain of a port: LANE0 for A, LANES for B. -/
def macDomain (p : Nat) : Domain := if p = 0 then .lane0 else .lanes

/-- The port sends and receives: its domain is on and ENABLE is 1. -/
def macOn (s : State) (p : Nat) : Bool := domainOn s (macDomain p) && flag s (mp p F.MACA_CTRL_ENABLE)

/-- The port's link is up. -/
def macLink (s : State) (p : Nat) : Bool := flag s (mp p F.MACA_STATUS_LINK)

/-- The rate of a port in Gbit/s by its mode in use (Table 16-1). -/
def macRate (s : State) (p : Nat) : Nat :=
  let r := getF s (mp p F.MACA_STATUS_RATE)
  if r = 0 then 400 else if r = 1 then 200 else 100

/-! ### PTP clock (R509) -/

/-- The clock's nanoseconds now: it runs while RUN is 1 and LANE0 is on, slewed by RATE parts per billion. -/
def ptpNow (s : State) : Nat :=
  if flag s F.MACA_PTP_CTRL_RUN && domainOn s .lane0 then
    let dt := s.now - s.net.ptpAt
    let slew := (dt : Int) * toSigned (getF s F.MACA_PTP_RATE_PPB) 32 / 1000000000
    ofSigned (((s.net.ptpNs + dt : Nat) : Int) + slew) 80
  else s.net.ptpNs

/-- The clock set to a number of nanoseconds, from now on. -/
def ptpSet (s : State) (ns : Nat) : State := { s with net := { s.net with ptpNs := ns, ptpAt := s.now } }

/-- A time stamp with a latency added: the low 32 bits of the seconds, then the nanoseconds. -/
def ptpStamp (s : State) (lat : Nat) : Nat :=
  let t := ptpNow s + lat
  t / sec % 2 ^ 32 * 2 ^ 32 + t % sec

/-- A write of MACA_PTP_CTRL with LOAD 1 and RUN as given: the clock takes the SET registers (R509). -/
def execPtpLoad (core run : Nat) (s : State) : Res :=
  coreStore s core F.MACA_PTP_CTRL_LOAD.addr fun s =>
    let s := ptpSet s (getF s F.MACA_PTP_SET_SEC_SECONDS * sec + getF s F.MACA_PTP_SET_NS_NS)
    .next (setF s F.MACA_PTP_CTRL_RUN run)

/-- A write of MACA_PTP_CTRL with STEP 1 and RUN as given: signed nanoseconds added in one cycle (R509). -/
def execPtpStep (core run : Nat) (s : State) : Res :=
  coreStore s core F.MACA_PTP_CTRL_STEP.addr fun s =>
    let s := ptpSet s (ofSigned ((ptpNow s : Int) + toSigned (getF s F.MACA_PTP_STEP_NS) 32) 80)
    .next (setF s F.MACA_PTP_CTRL_RUN run)

/-- What a read of MACA_PTP_SEC whose low half is read returns and leaves: the nanoseconds of the same instant are latched (R509). -/
def ptpSecRead (s : State) (width : Nat) : State × Nat :=
  let v := ptpNow s / sec % 2 ^ 48
  (setF s F.MACA_PTP_NS_NS (ptpNow s % sec), if width = 8 then v else v % 2 ^ 32)

/-- A read of MACA_PTP_SEC by a core whose low half is read (R509). -/
def execPtpSecRead (core width : Nat) (s : State) : Res :=
  let a := F.MACA_PTP_SEC_SECONDS.addr
  coreRuns s core fun s =>
  if !(domainOn s .lane0) then
    .next (emit (emit (fabLatch s 5 (core / 4) false a) (.readValue a 0)) (.accessFault core 5 a))
  else .next (emit (ptpSecRead s width).1 (.readValue a (ptpSecRead s width).2))

/-! ### Links (R498, R502) -/

/-- A change of a port's LINK: LINK_CHG and EV_PORT_LINK. -/
def linkChange (s : State) (p up : Nat) : State :=
  let s :=
    if p < 2 then setF (setF s (mp p F.MACA_STATUS_LINK) up) (mp p F.MACA_STATUS_LINK_CHG) 1
    else setF (setF s F.PLK_STATUS_LINK up) F.PLK_STATUS_LINK_CHG 1
  logEv s EV.portLink p up 0

/-- VERIFY changes. -/
def setVerify (s : State) (p v : Nat) : State :=
  if getF s (mp p F.MACA_STATUS_VERIFY) = v then s
  else setF (setF s (mp p F.MACA_STATUS_VERIFY) v) (mp p F.MACA_STATUS_VERIFY_CHG) 1

/-- A verify frame sent, and the time of the next. -/
def sendVerify (s : State) (p n : Nat) : State :=
  let s := putMac s { macOf s p with verifySent := n, verifyAt := s.now + getF s (mp p F.MACA_PREEMPT_VERIFY_MS) * ms }
  emit s (.merge p 0)

/-- The mode a port comes up in (R497): RATE in RACE, 100GbE on port A in PADDLE. -/
def portMode (s : State) (p : Nat) : Nat := if domainOn s .lanes then getF s (mp p F.MACA_MODE_RATE) else 2

/-- MACx_STATUS.RATE shows the mode in use. -/
def showRate (s : State) (p : Nat) : State := setF s (mp p F.MACA_STATUS_RATE) (portMode s p)

/-- PCS and FEC alignment have held for UP_HOLD_MS: LINK rises, and the port begins to verify where PREEMPT.ENABLE is 1. -/
def execPortLinkUp (port : Nat) (s : State) : Res :=
  if port < 2 then
    if !(macOn s port) || macLink s port then .next s
    else
      let s := showRate (linkChange s port 1) port
      if flag s (mp port F.MACA_PREEMPT_ENABLE) then .next (sendVerify (setVerify s port 1) port 1) else .next s
  else if !(domainOn s .lanes) || !(flag s F.PLK_CTRL_ENABLE) || flag s F.PLK_STATUS_LINK then .next s
  else .next (linkChange s 2 1)

/-- A link falls: preemption ends, and a frame on its way is discarded (R498, R502). -/
def portDown (s : State) (p : Nat) : State :=
  if p < 2 then
    if !(macLink s p) then s
    else
      let s := countF (linkChange s p 0) (mp p F.MACA_CNT_LINK_DOWN_COUNT) 1
      let s := setF (setVerify s p 0) (mp p F.MACA_STATUS_PREEMPT) 0
      let x := macOf s p
      putMac s { x with sending := x.sending.map fun t => { t with drop := true }, cutFrame := x.cutFrame.map fun t => { t with drop := true } }
  else if flag s F.PLK_STATUS_LINK then countF (linkChange s 2 0) F.PLK_CNT_LINK_DOWN_COUNT 1
  else s

/-- Either alignment is lost (R498). -/
def execPortLinkDown (port : Nat) (s : State) : Res := .next (portDown s port)

/-- VERIFY_MS passes (R502): another verify frame, or after three VERIFY is 3. -/
def execVerifyTimer (port : Nat) (s : State) : Res :=
  let x := macOf s port
  if getF s (mp port F.MACA_STATUS_VERIFY) ≠ 1 ∨ port ≥ 2 then .next s
  else
    let s := reach s x.verifyAt
    if x.verifySent < 3 then .next (sendVerify s port (x.verifySent + 1)) else .next (setVerify s port 3)

/-- A verify frame of the link partner is answered while ENABLE is 1 (R502). -/
def execVerifyFrame (port : Nat) (s : State) : Res :=
  .next (if port < 2 && macOn s port && macLink s port && flag s (mp port F.MACA_PREEMPT_ENABLE) then emit s (.merge port 1) else s)

/-- A respond frame while verifying: VERIFY is 2 and preemption is active (R502). -/
def execRespondFrame (port : Nat) (s : State) : Res :=
  if port < 2 ∧ macOn s port = true ∧ getF s (mp port F.MACA_STATUS_VERIFY) = 1 then
    .next (setF (setVerify s port 2) (mp port F.MACA_STATUS_PREEMPT) 1)
  else .next s

/-! ### Flow control (R501) -/

/-- A queue paused for some quanta of 512 bit times, or released by a quanta of 0. -/
def pauseQueue (s : State) (p q quanta : Nat) : State :=
  let x := macOf s p
  let rest := x.paused.filter fun e => e.1 != q
  putMac s { x with paused := if quanta = 0 then rest else rest ++ [(q, s.now + ceilDiv (quanta * 512) (macRate s p))] }

/-- A queue is paused. -/
def isPaused (s : State) (p q : Nat) : Bool := (macOf s p).paused.any fun e => e.1 == q && decide (s.now < e.2)

/-- A PAUSE frame: counted, and honoured while RX_PAUSE is 1. -/
def pauseFrame (s : State) (p quanta : Nat) : State :=
  let s := countF s (mp p F.MACA_CNT_PAUSE_RX_COUNT) 1
  if flag s (mp p F.MACA_FC_RX_PAUSE) then (List.range 8).foldl (fun s q => pauseQueue s p q quanta) s else s

/-- A priority-based flow control frame: its class-enable vector and the quanta of each priority; counted once. -/
def pfcFrame (s : State) (p enables : Nat) (quanta : List Nat) : State :=
  let s := countF s (mp p F.MACA_CNT_PAUSE_RX_COUNT) 1
  (List.range 8).foldl (fun s q =>
    if bitAt enables q && bitAt (getF s (mp p F.MACA_FC_RX_PFC)) q then pauseQueue s p q (quanta.getD q 0) else s) s

/-- A frame with its FCS right is counted with its bytes, FCS included. -/
def countRx (s : State) (p len : Nat) : State :=
  countF (countF s (mp p F.MACA_CNT_RX_FRAMES_COUNT) 1) (mp p F.MACA_CNT_RX_BYTES_COUNT) len

/-- An IEEE 802.3 PAUSE frame of 64 bytes arrives. -/
def execPauseFrame (port quanta : Nat) (s : State) : Res :=
  .next (if port < 2 && macOn s port && macLink s port then pauseFrame (countRx s port 64) port quanta else s)

/-- A priority-based flow control frame of 64 bytes for one priority arrives. -/
def execPfcFrame (port priority quanta : Nat) (s : State) : Res :=
  .next (if port < 2 && macOn s port && macLink s port then
    pfcFrame (countRx s port 64) port (2 ^ priority) ((List.range 8).map fun _ => quanta) else s)

/-- The pause time of a queue passes and it may send again. -/
def execPauseExpiry (port queue : Nat) (s : State) : Res :=
  match (macOf s port).paused.find? fun e => e.1 == queue with
  | none => .next s
  | some e =>
    let s := reach s e.2
    .next (putMac s { macOf s port with paused := (macOf s port).paused.filter fun e => e.1 != queue })

/-! ### Rings (R505 to R507): registers of ring r of port p, 2 the service port -/

/-- A receive ring's register field. -/
def rxf (p r : Nat) (mac : Nat → Fld) (svc : Fld) : Fld := if p = 2 then svc else mp p (mac r)

/-- A slot's address. -/
def slotAddr (s : State) (base : Fld) (log2s : Fld) (i : Nat) : Nat := getF s base * 1024 + 32 * (i % 2 ^ getF s log2s)

/-- The requester of a port's rings: 13, the service port's 14 (R506, R528). -/
def ringRid (p : Nat) : Nat := if p = 2 then 14 else 13

/-- A ring's bit in the port's interrupt register set when IRQ_EN is 1. -/
def ringIrq (s : State) (p r : Nat) (tx : Bool) : State :=
  if p = 2 then
    if tx then (if flag s F.SVC_TXR_CFG_IRQ_EN then setF s F.SVC_IRQ_TX 1 else s)
    else (if flag s F.SVC_RXR_CFG_IRQ_EN then setF s F.SVC_IRQ_RX 1 else s)
  else
    let en := if tx then F.MACA_TXR_CFG_IRQ_EN r else F.MACA_RXR_CFG_IRQ_EN r
    let f := if tx then F.MACA_IRQ_TX else F.MACA_IRQ_RX
    if flag s (mp p en) then setF s (mp p f) (getF s (mp p f) ||| 2 ^ r) else s

/-- A fabric error on a ring (R507): ENABLE clears, the first failure is latched, EV_MAC_RING_ERROR. The service port has no such
latch. -/
def ringError (s : State) (p r : Nat) (tx wr : Bool) (a : Nat) : State :=
  let en := if tx then rxf p r F.MACA_TXR_CFG_ENABLE F.SVC_TXR_CFG_ENABLE else rxf p r F.MACA_RXR_CFG_ENABLE F.SVC_RXR_CFG_ENABLE
  let s := setF s en 0
  let s :=
    if p = 2 ∨ flag s (mp p F.MACA_ERR_INFO_VALID) = true then s
    else
      let s := setF (setF (setF s (mp p F.MACA_ERR_INFO_DIR) (b2n wr)) (mp p F.MACA_ERR_INFO_TX) (b2n tx)) (mp p F.MACA_ERR_INFO_RING) r
      setF (setF s (mp p F.MACA_ERR_ADDR_ADDR) a) (mp p F.MACA_ERR_INFO_VALID) 1
  logCrew s EV.macRingError

/-- The size of a receive ring's buffers. -/
def bufSize (s : State) (p r : Nat) : Nat := if p = 2 then 2048 else 2048 * 2 ^ getF s (mp p (F.MACA_RXR_CFG_BUFSZ r))

/-- A frame lost for want of buffers or by a ring error, counted. -/
def countNobuf (s : State) (p : Nat) : State :=
  countF s (if p = 2 then F.SVC_CNT_RX_NOBUF_COUNT else mp p F.MACA_CNT_RX_NOBUF_COUNT) 1

/-- A range touches a receive store of R505. -/
def inStores (a n : Nat) : Bool := decide (a < 0x3800000) && decide (0x3600000 < a + n)

/-- The buffers of one frame filled and their slots written back, one after another (R505, R506, Table 16-5): `first` while none is
done. The answer is false after a fabric error, or the case of R515 that a buffer address falls under. -/
def placeParts : Nat → State → Nat → MacStored → Bool → Bytes → State × Except Nat Bool
  | 0, s, _, _, _, _ => (s, .ok true)
  | k + 1, s, p, f, first, rest =>
    let r := f.ring
    let ci := rxf p r F.MACA_RXR_CI_INDEX F.SVC_RXR_CI_INDEX
    let i := getF s ci
    let ls := rxf p r F.MACA_RXR_CFG_LOG2S F.SVC_RXR_CFG_LOG2S
    let slot := slotAddr s (rxf p r F.MACA_RXR_BASE_ADDR F.SVC_RXR_BASE_ADDR) ls i
    match fabRead s (ringRid p) slot 8 with
    | (s, none) => (ringError s p r false false slot, .ok false)
    | (s, some ab) =>
      let a := leNat ab
      let size := bufSize s p r
      let part := rest.take size
      if a % 64 ≠ 0 then (s, .error 4)
      else if p ≠ 2 ∧ inStores a size = true then (s, .error 3)
      else
        match fabWrite s (ringRid p) a part with
        | (s, false) => (ringError s p r false true a, .ok false)
        | (s, true) =>
          let last := decide (rest.length ≤ size)
          let word := phaseOf (getF s ls) i * 2 ^ 31 + b2n (f.hit && first) * 4 + b2n last * 2 + b2n first
          let back := le 8 (if first then f.stamp else 0) ++ le 4 (if first then f.cls else 0) ++
            le 2 (if first then f.data.length else 0) ++ le 2 part.length ++ zeros 4 ++ le 4 word
          match fabWrite s (ringRid p) (slot + 8) back with
          | (s, false) => (ringError s p r false true slot, .ok false)
          | (s, true) =>
            let s := ringIrq (bumpF s ci 1) p r false
            if last then (s, .ok true) else placeParts k s p f false (rest.drop size)

/-- A ring's stored frames placed in arrival order while it has buffers posted for the whole of the next (R505). A service request placed
is crew firmware's to decide (R524). -/
def placeRing : Nat → State → Nat → Nat → Res
  | 0, s, _, _ => .next s
  | k + 1, s, p, r =>
    let x := macOf s p
    match x.store.find? fun f => f.ring == r with
    | none => .next s
    | some f =>
      let pi := getF s (rxf p r F.MACA_RXR_PI_INDEX F.SVC_RXR_PI_INDEX)
      let ci := getF s (rxf p r F.MACA_RXR_CI_INDEX F.SVC_RXR_CI_INDEX)
      let need := max 1 (ceilDiv f.data.length (bufSize s p r))
      if !(flag s (rxf p r F.MACA_RXR_CFG_ENABLE F.SVC_RXR_CFG_ENABLE)) || decide (idxSub pi ci < need) then .next s
      else
        let s := putMac s { x with store := x.store.erase f }
        match placeParts need s p f true f.data with
        | (_, .error i) => .fault (.undefined515 i)
        | (s, .ok false) => placeRing k (countNobuf s p) p r
        | (s, .ok true) =>
          let s := if p = 2 && beNat (slice f.data 12 2) == 0x88B6 && !(bitAt f.cls 31) then
              { s with svc := { s.svc with requests := s.svc.requests ++ [f.data] } } else s
          placeRing k s p r

/-- Every frame of a ring that can be placed is placed. -/
def placeAll (s : State) (p r : Nat) : Res := placeRing ((macOf s p).store.length + 1) s p r

/-- The bytes of a ring's stored frames. -/
def storedBytes (s : State) (p : Nat) (r : Option Nat) : Nat :=
  (((macOf s p).store.filter fun f => match r with | some q => f.ring == q | none => true).map fun f => f.data.length + 4).sum

/-- A frame admitted to the receive store and placed where it can be, or refused (R505). -/
def storeAdmit (s : State) (p r : Nat) (frame : Bytes) (cls : Nat) (hit : Bool) : Res :=
  let n := frame.length + 4
  let fits :=
    if p = 2 then decide (storedBytes s 2 none + n ≤ 16384)
    else decide (storedBytes s p (some r) + n ≤ getF s (mp p (F.MACA_RXR_CFG_QUOTA r)) * 4096) && decide (storedBytes s p none + n ≤ 0x100000)
  if !fits then .next (if p = 2 then countNobuf s 2 else countF s (mp p F.MACA_CNT_RX_STORE_COUNT) 1)
  else
    let stamp := if p = 2 then 0 else ptpStamp s (getF s (mp p F.MACA_PTP_RXLAT_NS))
    let x := macOf s p
    placeAll (putMac s { x with store := x.store ++ [⟨r, frame, stamp, cls, hit, s.now⟩] }) p r

/-- A stored frame of a ring not placed within RX_WAIT is discarded; the later ones of the ring are no longer held back (R505). -/
def execRxWaitTimeout (port ring : Nat) (s : State) : Res :=
  let x := macOf s port
  match x.store.find? fun f => f.ring == ring with
  | none => .next s
  | some f =>
    let wait := if port = 2 then 10 * ms else getF s (mp port F.MACA_RX_WAIT_MICROS) * us
    let s := countNobuf (putMac (reach s (f.arrived + wait)) { x with store := x.store.erase f }) port
    placeAll s port ring

/-! ### Receive decisions, Table 16-4 -/

/-- A frame's EtherType behind a VLAN tag, and the offset of what follows it. -/
def etherType (f : Bytes) : Nat × Nat :=
  if beNat (slice f 12 2) = 0x8100 then (beNat (slice f 16 2), 18) else (beNat (slice f 12 2), 14)

/-- The frame is a UDP datagram to destination port 4791 (order 5). -/
def isRoce (f : Bytes) : Bool :=
  let e := etherType f
  if e.1 = 0x0800 then
    let ihl := fld f e.2 1 % 16 * 4
    fld f (e.2 + 9) 1 == 17 && beNat (slice f (e.2 + ihl + 2) 2) == 4791
  else if e.1 = 0x86DD then fld f (e.2 + 6) 1 == 17 && beNat (slice f (e.2 + 42) 2) == 4791
  else false

/-- The frame is admitted by its destination (order 4). -/
def macAdmits (s : State) (p : Nat) (f : Bytes) : Bool :=
  let d := leNat (slice f 0 6)
  d == getF s (mp p F.MACA_ADDR_ADDR) || d == 2 ^ 48 - 1 || (bitAt d 0 && flag s (mp p F.MACA_FILTER_ALL_MULTI)) ||
    flag s (mp p F.MACA_FILTER_PROMISC)

/-- A frame discarded at orders 2, 4, 6 or 7. -/
def macFiltered (s : State) (p : Nat) : Res := .next (countF s (mp p F.MACA_CNT_RX_FILTERED_COUNT) 1)

/-- Order 7 of Table 16-4: the Palette classifies the frame (R470). -/
def classify (s : State) (p : Nat) (frame : Bytes) : Res :=
  let h := asuUse s (3 + p) (fit frame 64) 2
  let s := h.1
  if h.2.hit then
    if h.2.adata ≥ 16 then .fault (.undefined515 5)
    else if bitAt h.2.adata 3 then macFiltered s p
    else storeAdmit s p (h.2.adata % 8) frame h.2.adata true
  else if flag s (mp p F.MACA_FILTER_DROP_MISS) then macFiltered s p
  else storeAdmit s p (getF s (mp p F.MACA_FILTER_DEFAULT)) frame 0 false

/-- A frame on a data port, given without its FCS: `fcs` is 1 when that is right, 0 wrong, 2 wrong by a codeword the FEC could not
correct, 3 right after a correction. It is judged in the order of Table 16-4. A RoCEv2 packet goes to the host transport engine, whose
own rows take it. -/
def execFrameReceived (port fcs : Nat) (frame : Bytes) (s : State) : Res :=
  let p := port
  let n := frame.length + 4
  if p ≥ 2 ∨ !(macOn s p) ∨ !(macLink s p) then .next s
  else
    let s := if fcs = 2 then countF s (mp p F.MACA_CNT_FEC_UNCORR_COUNT) 1 else if fcs = 3 then countF s (mp p F.MACA_CNT_FEC_CORR_COUNT) 1 else s
    if fcs = 0 ∨ fcs = 2 ∨ n < 64 then .next (countF s (mp p F.MACA_CNT_RX_FCS_COUNT) 1)
    else
      let s := countRx s p n
      let tagged := beNat (slice frame 12 2) = 0x8100
      let vid := beNat (slice frame 14 2) % 4096
      let e := etherType frame
      if n > getF s (mp p F.MACA_MAXFRAME_BYTES) then .next (countF s (mp p F.MACA_CNT_RX_LONG_COUNT) 1)
      else if tagged ∧ (flag s (mp p F.MACA_VLAN_TAG) = false ∨ (vid ≠ 0 ∧ vid ≠ getF s (mp p F.MACA_VLAN_VID))) then macFiltered s p
      else if beNat (slice frame 12 2) = 0x8808 ∧ beNat (slice frame 14 2) = 1 then .next (pauseFrame s p (beNat (slice frame 16 2)))
      else if beNat (slice frame 12 2) = 0x8808 ∧ beNat (slice frame 14 2) = 0x0101 then
        .next (pfcFrame s p (beNat (slice frame 16 2)) ((List.range 8).map fun q => beNat (slice frame (18 + 2 * q) 2)))
      else if !(macAdmits s p frame) then macFiltered s p
      else if isRoce frame && leNat (slice frame 0 6) == getF s (mp p F.MACA_ADDR_ADDR) then .next s
      else if e.1 = 0x88B5 then macFiltered s p
      else classify s p frame

/-! ### Sending (R499, R500, R503, R506) -/

/-- A crew transmit ring has a frame at its head and may send it. -/
def ringHead (s : State) (p t : Nat) : Bool :=
  flag s (mp p (F.MACA_TXR_CFG_ENABLE t)) && getF s (mp p (F.MACA_TXR_PI_INDEX t)) != getF s (mp p (F.MACA_TXR_CI_INDEX t)) &&
    !((macOf s p).cutFrame.any fun c => c.crew && c.queue == t)

/-- Queue q holds a frame and is not paused, given the queues in which the engine has frames waiting. -/
def queueReady (s : State) (p engine q : Nat) : Bool := !(isPaused s p q) && (bitAt engine q || ringHead s p q)

/-- The highest queue that may send among some. -/
def bestQueue (s : State) (p engine : Nat) (qs : List Nat) : Option Nat := (qs.filter (queueReady s p engine)).reverse.head?

/-- A queue is express. -/
def isExpress (s : State) (p q : Nat) : Bool := bitAt (getF s (mp p F.MACA_PREEMPT_EXPRESS)) q

/-- The head slot of a crew ring read: the frame's bytes, or the TSTAT it ends with. -/
def readTx (s : State) (p t : Nat) (base log2s ci : Fld) (maxLen : Nat) : State × Nat × Bytes :=
  let slot := slotAddr s base log2s (getF s ci)
  match fabRead s (ringRid p) slot 32 with
  | (s, none) => (ringError s p t true false slot, 3, [])
  | (s, some b) =>
    let n := fld b 8 2
    if n < 14 ∨ n > maxLen then (s, 2, [])
    else
      match fabRead s (ringRid p) (fld b 0 8) n with
      | (s, none) => (ringError s p t true false (fld b 0 8), 3, [])
      | (s, some d) => (s, 0, fit d (max 60 n))

/-- The port, free to start a frame, takes the head of the highest queue that is not paused (R500); a cut frame goes on when no express
frame waits (R503). `engine` is the mask of the queues in which the host transport engine has a frame waiting and `len` the length
of the one at the head. With the link down the frame is discarded (R498). -/
def execTxFrameStart (port engine len : Nat) (s : State) : Res :=
  let p := port
  let x := macOf s p
  if p ≥ 2 ∨ !(macOn s p) ∨ x.sending.isSome then .next s
  else
    let qs := match x.cutFrame with
      | some _ => (List.range 8).filter (isExpress s p)
      | none => List.range 8
    match bestQueue s p engine qs, x.cutFrame with
    | none, some c => .next (putMac s { x with sending := some c, cutFrame := none })
    | none, none => .next s
    | some q, _ =>
      let useEngine := bitAt engine q && !(ringHead s p q && x.lastEngine.contains q)
      let drop := !(macLink s p)
      let stamp := ptpStamp s (getF s (mp p F.MACA_PTP_TXLAT_NS))
      if useEngine then
        .next (putMac s { x with sending := some ⟨q, false, zeros len, 0, stamp, drop, 0⟩, lastEngine := q :: x.lastEngine.filter (· != q) })
      else
        let r := readTx s p q (mp p (F.MACA_TXR_BASE_ADDR q)) (mp p (F.MACA_TXR_CFG_LOG2S q)) (mp p (F.MACA_TXR_CI_INDEX q))
          (getF s (mp p F.MACA_MAXFRAME_BYTES) - 4)
        let x := macOf r.1 p
        .next (putMac r.1 { x with sending := some ⟨q, true, r.2.2, 0, stamp, drop, r.2.1⟩, lastEngine := x.lastEngine.filter (· != q) })

/-- The first legal boundary at or after `sent` bytes for a cut (R503). -/
def cutPoint (t : MacTx) (sent : Nat) : Option Nat :=
  let b := alignUp (max sent (t.fragFrom + 60)) 8
  if b + 64 ≤ t.data.length + 4 then some b else none

/-- An express frame becomes ready after `sent` bytes of a preemptable frame: it is cut at the next legal boundary (R503). -/
def execPreemptionCut (port sent engine : Nat) (s : State) : Res :=
  let p := port
  let x := macOf s p
  match x.sending with
  | none => .next s
  | some t =>
    let express := (List.range 8).filter (isExpress s p)
    if p ≥ 2 ∨ !(flag s (mp p F.MACA_STATUS_PREEMPT)) ∨ isExpress s p t.queue = true ∨ t.tstat ≠ 0 ∨ t.drop = true ∨
        (bestQueue s p engine express).isNone then .next s
    else
      match cutPoint t sent with
      | none => .next s
      | some b =>
        let s := countF (putMac s { x with sending := none, cutFrame := some { t with fragFrom := b } }) (mp p F.MACA_CNT_PREEMPT_COUNT) 1
        .next (emit s (.cut p b))

/-- The time-stamp queue's registers show its head and count (R510). -/
def tsqShow (s : State) (p : Nat) : State :=
  let q := (macOf s p).tsq
  let h := q.headD (0, 0)
  let s := setF (setF s (mp p F.MACA_TSQ_STATUS_COUNT) q.length) (mp p F.MACA_TSQ_ID_VALID) (b2n !q.isEmpty)
  setF (setF s (mp p F.MACA_TSQ_ID_ID) h.1) (mp p F.MACA_TSQ_TIME_STAMP) h.2

/-- A stamp enters the time-stamp queue, or is lost when it holds 64 (R510). -/
def tsqPush (s : State) (p tsid stamp : Nat) : State × Bool :=
  let x := macOf s p
  if x.tsq.length ≥ 64 then
    (countF (setF s (mp p F.MACA_TSQ_STATUS_OVERFLOW) 1) (mp p F.MACA_CNT_TS_LOST_COUNT) 1, true)
  else (tsqShow (putMac s { x with tsq := x.tsq ++ [(tsid % 65536, stamp)] }) p, false)

/-- A transmit slot written back with its TWORD, then CI and the interrupt bit (R506, Table 16-6). -/
def txWriteBack (s : State) (p t : Nat) (base log2s ci : Fld) (lost : Bool) (tstat : Nat) : State :=
  let i := getF s ci
  let slot := slotAddr s base log2s i
  let w := phaseOf (getF s log2s) i * 2 ^ 31 + b2n lost * 16 + tstat
  match fabWrite s (ringRid p) (slot + 28) (le 4 w) with
  | (s, false) => ringError s p t true true (slot + 28)
  | (s, true) => ringIrq (bumpF s ci 1) p t true

/-- A service frame's end is the service port's (R517); this is the end of a data port's frame: sent and counted, its stamp queued
where TSREQ asked for it, its slot written back (R506, R510). -/
def macTxEnd (s : State) (p : Nat) : State :=
  let x := macOf s p
  match x.sending with
  | none => s
  | some t =>
    let s := putMac s { x with sending := none }
    let sent := t.tstat = 0 ∧ t.drop = false
    let s := if sent then
        countF (countF s (mp p F.MACA_CNT_TX_FRAMES_COUNT) 1) (mp p F.MACA_CNT_TX_BYTES_COUNT) (t.data.length + 4) else s
    if !t.crew then s
    else
      let s := if sent then emit s (.mac p t.queue t.data) else s
      let base := mp p (F.MACA_TXR_BASE_ADDR t.queue)
      let log2s := mp p (F.MACA_TXR_CFG_LOG2S t.queue)
      let ci := mp p (F.MACA_TXR_CI_INDEX t.queue)
      let b := (fabRead s 13 (slotAddr s base log2s (getF s ci)) 32).2.getD (zeros 32)
      let ts := if sent && bitAt (fld b 10 2) 0 then tsqPush s p (fld b 12 2) t.stamp else (s, false)
      txWriteBack ts.1 p t.queue base log2s ci ts.2 (if t.tstat ≠ 0 then t.tstat else b2n t.drop)

/-- A write of MACx_TSQ_POP removes the head; on an empty queue it is ignored (R510). -/
def execTsqPop (core port : Nat) (s : State) : Res :=
  coreStore s core (mp port F.MACA_TSQ_POP_POP).addr fun s =>
    let x := macOf s port
    .next (tsqShow (putMac s { x with tsq := x.tsq.drop 1 }) port)

/-! ### Pair link (R512) -/

/-- A frame on the pair link, given without its FCS: handed to the journal when its FCS is right, its length at most 9,216 bytes with it,
its destination PLK_ADDR or broadcast and its EtherType 0x88B5; every other is discarded and counted. -/
def execPairLinkFrame (fcs : Nat) (frame : Bytes) (s : State) : Res :=
  let n := frame.length + 4
  let d := leNat (slice frame 0 6)
  if !(domainOn s .lanes) || !(flag s F.PLK_CTRL_ENABLE) || !(flag s F.PLK_STATUS_LINK) then .next s
  else
    let s := if fcs = 2 then countF s F.PLK_CNT_FEC_UNCORR_COUNT 1 else if fcs = 3 then countF s F.PLK_CNT_FEC_CORR_COUNT 1 else s
    if fcs = 0 ∨ fcs = 2 ∨ n < 64 ∨ n > 9216 then .next (countF s F.PLK_CNT_RX_FCS_COUNT 1)
    else if beNat (slice frame 12 2) ≠ 0x88B5 ∨ (d ≠ getF s F.PLK_ADDR_ADDR ∧ d ≠ 2 ^ 48 - 1) then
      .next (countF s F.PLK_CNT_RX_OTHER_COUNT 1)
    else
      let s := countF (countF s F.PLK_CNT_RX_FRAMES_COUNT 1) F.PLK_CNT_RX_BYTES_COUNT n
      .next { s with pj := { s.pj with rx := s.pj.rx ++ [frame] } }

end Sys2Proof.Machine
end

