-- ==== Sys2Proof/Machine/ServicePort.lean ====
section
/-! DEFINITION. The service port (17): its segment, wake patterns, the order in which a service frame is decided, replies; the rings' index writes
and the end of a frame, which the data ports share (16). -/

namespace Sys2Proof.Machine

/-! ### Service messages (Table 17-1) -/

/-- The payload of a frame given without FCS. -/
def svcBody (f : Bytes) : Bytes := f.drop 14

/-- SOP of a service frame. -/
def svcOp (f : Bytes) : Nat := fld f 18 1
/-- AUTH of a service frame. -/
def svcAuth (f : Bytes) : Bool := bitAt (fld f 19 1) 1
/-- LEN of a service frame. -/
def svcLen (f : Bytes) : Nat := fld f 34 2
/-- ARG0 of a service frame. -/
def svcArg0 (f : Bytes) : Nat := fld f 38 8
/-- ARG1 of a service frame. -/
def svcArg1 (f : Bytes) : Nat := fld f 46 8
/-- The body of a service frame. -/
def svcData (f : Bytes) : Bytes := slice f 54 (svcLen f)

/-- The payload from MAGIC to the end of the trailer, without padding. -/
def svcSigned (f : Bytes) : Bytes := (svcBody f).take (40 + svcLen f + if svcAuth f then 24 else 0)

/-- A reply to a request (R522): from SVC_ADDR to its source, with the trailer exactly when the request has one. Cox computes the MAC of a trailer for
crew firmware and the loader; what the responder puts there, the spec does not state: free bytes. -/
def svcReply (s : State) (req : Bytes) (responder : Bool) (status arg0 arg1 : Nat) (body : Bytes) : State :=
  let auth := svcAuth req
  let head := le 4 0x33515A41 ++ le 1 (svcOp req) ++ le 1 (1 + 2 * b2n auth) ++ le 2 status ++ le 8 Config.hull ++ slice req 30 4 ++
    le 2 body.length ++ zeros 2 ++ le 8 arg0 ++ le 8 arg1 ++ body
  let signed := head ++ le 8 (svcSeqOf (svcSigned req)) ++ zeros 16
  let free := freshBytes s 16
  let mac : Bytes × State := match responder, s.cox.enclosure with
    | false, some key => (svcMacOf s key 1 signed, s)
    | _, _ => free
  let p := if auth then (signed.take (signed.length - 16) ++ mac.1, mac.2) else (head, s)
  let frame := slice req 6 6 ++ le 6 (getF s F.SVC_ADDR_ADDR) ++ [0x88, 0xB6] ++ p.1
  { p.2 with svc := { p.2.svc with replies := p.2.svc.replies ++ [fit frame (max 60 frame.length)] } }

/-! ### Deciding a service frame (R524, Table 17-2) -/

/-- The opcodes the responder answers. -/
def svcResponder (op : Nat) : Bool := decide (1 ≤ op) && decide (op ≤ 4)

/-- The opcodes crew firmware answers. -/
def svcCrew (op : Nat) : Bool := [0x10, 0x11, 0x12, 0x13, 0x20, 0x21, 0x28, 0x29, 0x30, 0x31, 0x32].contains op

/-- The device is in DOCK as the port reports it: PWR_STATUS.STATE shows a sleep state and no start is under way. -/
def inDock (s : State) : Bool := asleep s && !s.pwr.waking

/-- DEV_STATE as the port reports it: 0 in DOCK. -/
def svcDevState (s : State) : Nat := if inDock s then 0 else s.pwr.dev

/-- The resident loader serves the port in place of crew firmware (R566). -/
def loaderServes (s : State) : Bool := s.pwr.dev == 7 && !s.cox.verified

/-- Row 2 of Table 17-2. -/
def svcMalformed (f : Bytes) : Bool :=
  fld f 14 4 != 0x33515A41 || decide (svcLen f > 1408) || decide ((svcBody f).length < 40 + svcLen f + (if svcAuth f then 24 else 0)) ||
    decide (fld f 19 1 > 3) || fld f 36 2 != 0

/-- A service frame judged by rows 1 to 4; what passes is the responder's to answer or goes to the receive ring, or to the loader. -/
def svcJudge (s : State) (f : Bytes) : Res :=
  let op := svcOp f
  let target := fld f 22 8
  let all := target == 2 ^ 64 - 1
  let reply := fun (st a0 a1 : Nat) => if flag s F.SVC_CTRL_RESPOND then Host.Outcome.next (svcReply s f true st a0 a1 []) else .next s
  if (target ≠ Config.hull ∧ all = false) ∨ (all = true ∧ op ≠ 1 ∧ op ≠ 2) ∨ bitAt (fld f 19 1) 0 = true then
    .next (countF s F.SVC_CNT_RX_FILTERED_COUNT 1)
  else if svcMalformed f then reply ST.malformed 0 0
  else if svcResponder op then
    .next (if flag s F.SVC_CTRL_RESPOND then { s with svc := { s.svc with responder := s.svc.responder ++ [f] } } else s)
  else if !(svcCrew op) then reply ST.unknownOpcode 0 0
  else if !(flag s F.SVC_CTRL_CREW) then
    reply ST.stateConflict (svcDevState s + powerCode s * 2 ^ 24) (if svcDevState s = 7 then 0 else getF s F.SVC_WAKE_HINT_MS)
  else if loaderServes s then .next { s with svc := { s.svc with requests := s.svc.requests ++ [f] } }
  else storeAdmit s 2 0 f 0 false

/-! ### Wake patterns (R518, R519) -/

/-- The bytes of a frame that a pattern selects; none where one lies beyond the frame's end. -/
def patternBytes (s : State) (f : Bytes) (p : Nat) : Option Bytes :=
  let o := getF s (F.SVC_WPAT_CTRL_OFFSET p)
  let mask := (List.range 4).map fun i => getF s (F.SVC_WPAT_MASK_BYTES p i) * 2 ^ (32 * i)
  let sel := (bitList mask.sum 128).map (· + o)
  if sel.all fun i => decide (i < f.length) then some (sel.map fun i => f.getD i 0) else none

/-- The enabled patterns that a frame matches; the FCS is among its bytes. -/
def patternHits (s : State) (f : Bytes) : List Nat :=
  (List.range 8).filter fun p => flag s (F.SVC_WPAT_CTRL_ENABLE p) &&
    (match patternBytes s f p with | some b => crc16 b == getF s (F.SVC_WPAT_CTRL_CHECK p) | none => false)

/-- The effects of a frame's matches: MATCH and the count; in DOCK, or in a power-down, the first wakes the device and its frame is held. -/
def patternWake (s : State) (frame : Bytes) (hits : List Nat) : State :=
  let s := hits.foldl (fun s p => countF s F.SVC_CNT_WAKE_COUNT 1 |> fun s => setF s F.SVC_WAKE_STATUS_MATCH (getF s F.SVC_WAKE_STATUS_MATCH ||| 2 ^ p)) s
  let down := s.pwr.move == some .dock && s.pwr.wakeLatched.isNone
  match hits with
  | [] => s
  | p :: _ =>
    if !(inDock s || down) then s
    else
      let s := setF (setF s F.SVC_WAKE_STATUS_WOKE 1) F.SVC_WAKE_STATUS_PATTERN p
      let s := setF { s with svc := { s.svc with held := some (frame, p) } } F.SVC_STATUS_HELD 1
      wakeEvent s 2 p

/-- A frame on the service segment, given without its FCS (`fcs` 1 right, 0 wrong) (R516, R518, R519, R524). -/
def execSvcFrameReceived (fcs : Nat) (frame : Bytes) (s : State) : Res :=
  if !(domainOn s .svc) || !(flag s F.SVC_CTRL_ENABLE) then .next s
  else if fcs ≠ 1 then .next (countF s F.SVC_CNT_RX_FCS_COUNT 1)
  else
    let s := countF s F.SVC_CNT_RX_FRAMES_COUNT 1
    let ty := beNat (slice frame 12 2)
    let n := frame.length + 4
    if n < 64 ∨ n > 1518 ∨ ty < 0x600 ∨ ty = 0x8100 then .next (countF s F.SVC_CNT_RX_FILTERED_COUNT 1)
    else
      let s := patternWake s frame (patternHits s (frame ++ le 4 (crc32 frame)))
      if ty = 0x88B6 then svcJudge s frame
      else
        let d := leNat (slice frame 0 6)
        if d = getF s F.SVC_ADDR_ADDR ∨ d = 2 ^ 48 - 1 then storeAdmit s 2 0 frame 0 false
        else .next (countF s F.SVC_CNT_RX_FILTERED_COUNT 1)

/-! ### Sending (R517) -/

/-- The transmit ring has a frame posted. -/
def svcTxPosted (s : State) : Bool := flag s F.SVC_TXR_CFG_ENABLE && getF s F.SVC_TXR_PI_INDEX != getF s F.SVC_TXR_CI_INDEX

/-- The slot of the frame being sent written back with its TSTAT, where it is the transmit ring's. -/
def svcTxDone (s : State) (t : SvcTx) (tstat : Nat) : State :=
  let s := setF { s with svc := { s.svc with sending := none } } F.SVC_STATUS_TX_BUSY 0
  if t.crew then txWriteBack s 2 0 F.SVC_TXR_BASE_ADDR F.SVC_TXR_CFG_LOG2S F.SVC_TXR_CI_INDEX false tstat else s

/-- SVC_FRAME_SEND (R517): the port, free and with the medium idle, starts the oldest reply, else the head of the transmit ring. -/
def execSvcFrameSend (s : State) : Res :=
  if !(domainOn s .svc) || !(flag s F.SVC_CTRL_ENABLE) || s.svc.sending.isSome then .next s
  else
    match s.svc.replies with
    | r :: rest => .next (setF { s with svc := { s.svc with replies := rest, sending := some ⟨r, false, 0, none, 0⟩ } } F.SVC_STATUS_TX_BUSY 1)
    | [] =>
      if !(svcTxPosted s) then .next s
      else
        let r := readTx s 2 0 F.SVC_TXR_BASE_ADDR F.SVC_TXR_CFG_LOG2S F.SVC_TXR_CI_INDEX 1514
        .next (setF { r.1 with svc := { r.1.svc with sending := some ⟨r.2.2, true, 0, none, r.2.1⟩ } } F.SVC_STATUS_TX_BUSY 1)

/-- SVC_COLLISION (R517): counted; a late one, or the 16th, discards the frame with TSTAT 4, else the port backs off for a number of slot times that its
generator draws: a free value below 2^min(n, 10). -/
def execSvcCollision (late : Nat) (s : State) : Res :=
  match s.svc.sending with
  | none => .next s
  | some t =>
    if t.backoff.isSome ∨ t.tstat ≠ 0 then .next s
    else
      let s := countF s F.SVC_CNT_COLLISIONS_COUNT 1
      let n := t.collisions + 1
      if late = 1 then .next (svcTxDone (countF s F.SVC_CNT_LATE_COLL_COUNT 1) t 4)
      else if n ≥ 16 then .next (svcTxDone (countF s F.SVC_CNT_TX_EXCESS_COUNT 1) t 4)
      else
        let r := fresh s
        .next { r.2 with svc := { r.2.svc with sending := some { t with collisions := n, backoff := some (s.now + r.1 % 2 ^ min n 10 * 51200) } } }

/-- SVC_BACKOFF_EXPIRY (R517): the port tries again. -/
def execSvcBackoffExpiry (s : State) : Res :=
  match s.svc.sending with
  | none => .next s
  | some t =>
    match t.backoff with
    | none => .next s
    | some at_ => .next { reach s at_ with svc := { s.svc with sending := some { t with backoff := none } } }

/-- The service port's frame has been sent or is discarded for an error of its slot. -/
def svcTxEnd (s : State) : State :=
  match s.svc.sending with
  | none => s
  | some t =>
    if t.backoff.isSome then s
    else if t.tstat ≠ 0 then svcTxDone s t t.tstat
    else emit (svcTxDone (countF s F.SVC_CNT_TX_FRAMES_COUNT 1) t 0) (.svc t.data)

/-- TX_FRAME_END (R506, R507, R510, R517) of a port: 0 A, 1 B, 2 the service port. -/
def execTxFrameEnd (port : Nat) (s : State) : Res :=
  if port < 2 then .next (macTxEnd s port) else if port = 2 then .next (svcTxEnd s) else .next s

/-! ### Ring indices (R506) -/

/-- A transmit ring's register field. -/
def txf (p t : Nat) (mac : Nat → Fld) (svc : Fld) : Fld := if p = 2 then svc else mp p (mac t)

/-- The held frame moved to the head of the receive store once the service ring is enabled (R519). -/
def svcHeldPlace (s : State) : State :=
  match s.svc.held with
  | none => s
  | some (f, p) =>
    if !(flag s F.SVC_RXR_CFG_ENABLE) then s
    else
      let x := macOf s 2
      let s := putMac s { x with store := ⟨0, f, 0, 2 ^ 31 + p, false, s.now⟩ :: x.store }
      setF { s with svc := { s.svc with held := none } } F.SVC_STATUS_HELD 0

/-- A receive ring looked at again: what is held or stored is placed as far as buffers go. -/
def ringLook (s : State) (p r : Nat) : Res := placeAll (if p = 2 then svcHeldPlace s else s) p r

/-- RXR_PI_WRITE: buffers posted on a receive ring, which may let waiting frames be placed. PI more than the ring size beyond CI is R515. -/
def execRxrPiWrite (core port ring index : Nat) (s : State) : Res :=
  let pi := rxf port ring F.MACA_RXR_PI_INDEX F.SVC_RXR_PI_INDEX
  coreStore s core pi.addr fun s =>
    let ci := rxf port ring F.MACA_RXR_CI_INDEX F.SVC_RXR_CI_INDEX
    let size := 2 ^ getF s (rxf port ring F.MACA_RXR_CFG_LOG2S F.SVC_RXR_CFG_LOG2S)
    if idxSub index (getF s ci) > size then .fault (.undefined515 4)
    else ringLook (setF s pi index) port ring

/-- TXR_PI_WRITE: frames posted on a transmit ring. -/
def execTxrPiWrite (core port ring index : Nat) (s : State) : Res :=
  let pi := txf port ring F.MACA_TXR_PI_INDEX F.SVC_TXR_PI_INDEX
  coreStore s core pi.addr fun s =>
    let ci := txf port ring F.MACA_TXR_CI_INDEX F.SVC_TXR_CI_INDEX
    let size := 2 ^ getF s (txf port ring F.MACA_TXR_CFG_LOG2S F.SVC_TXR_CFG_LOG2S)
    let base := txf port ring F.MACA_TXR_BASE_ADDR F.SVC_TXR_BASE_ADDR
    let slots := (List.range (min size (idxSub index (getF s pi)))).map fun k =>
      (slotAddr s base (txf port ring F.MACA_TXR_CFG_LOG2S F.SVC_TXR_CFG_LOG2S) (getF s pi + k), 32)
    if idxSub index (getF s ci) > size then .fault (.undefined515 4)
    else whenFenced s slots (.next (setF s pi index))

end Sys2Proof.Machine
end

