-- ==== Sys2Proof/Machine/Start.lean ====
section
/-! DEFINITION. What crew firmware does at a start with what it keeps (R29, R213, R307, R484): the bases of its DRAM regions, the vault map, the
containers of the recorded epochs, the data keys; and the end of a vault restore (R242, Table 18-2 step 7). -/

namespace Sys2Proof.Machine

/-- The bases of the reference crew firmware's DRAM regions written at its release (Table 01-6). The slice table, the container and the image lie in
its heap, where the table gives no place of their own. -/
def crewBases (s : State) : State :=
  let s := setF (setF s F.HTE_DIR_BASE_ADDR 0x1100000) F.HTE_SLICE_BASE_ADDR 0x11A0000
  let s := setF (setF s F.HTE_CMD_BASE_ADDR 0x1118000) F.HTE_CAP_BASE_ADDR 0x1119000
  let s := setF s F.HTE_BCACHE_BASE_ADDR 0x480000
  let s := setF (setF s F.RIG_SRC_ADDR_ADDR 0x1180000000) F.RIG_IMAGE_ADDR_ADDR 0x1190000000
  (List.range 32).foldl (fun s n => setF s (F.FC_BT_BASE_ADDR n) 0x1110000) s

/-- The data keys of the namespaces unwrapped into their slots again (R484). -/
def reloadKeys (s : State) : State :=
  s.kv.nss.foldl (fun s n =>
    match s.cip.kek.bind fun k => blobRecord k n.blob with
    | some r => if recordOk r && slotOpen n.slot then setSlot s (recordSlot n.slot r) else s
    | none => s) s

/-- A container kept on NAND staged again (R302, R307). -/
def stageKept (s : State) (epoch : Nat) : Res :=
  match s.rig.kept.find? fun k => k.1 == epoch with
  | none => .next s
  | some (_, c) =>
    let s := crewStore s (getF s F.RIG_SRC_ADDR_ADDR) c
    andThen (rigStageEnd (setF s F.RIG_SRC_LEN_BYTES c.length)) fun s => .next (rigChannels s)

/-- The slices that this device acts for under a rig, by what is recorded of its takeovers. -/
def actedUnder (s : State) (v : RigView) : List Nat :=
  (s.kv.slices.filter fun x => if v.hull (v.strokeDev x.slice) = Config.hull then x.takeover != 4
    else (v.bowDev x.slice).map v.hull == some Config.hull && (x.takeover == 2 || x.takeover == 5)).map Slice.slice

/-- The copying of R197 that a restart cut short taken up again. -/
def copyingAgain (s : State) : State :=
  (s.kv.copying.map Copying.group).eraseDups.foldl (fun s id =>
    startCopyingIn s id ((((s.kv.copying.filter fun c => c.group == id).map Copying.slices).flatten.eraseDups).filter (actsFor s))) s

/-- The staged image swapped in as the rig of this start (R305, R307). Where it is that of a commit whose swap had not ended, the roles of `old` change with
it (R197, R218). -/
def startSwap (s : State) (old : Option RigView) : State :=
  match s.rig.staged with
  | none => s
  | some st =>
    let before := s.kv.slices.map Slice.slice
    let s := rigSwapEnd s st
    let s := match old with
      | none => applyRig s true [] before
      | some v => applyRig s false (actedUnder s v) (before.filter fun x => roleHulls v x == roleHulls (activeView s) x)
    sendAllStatus (copyingAgain s)

/-- RIG_SWAP_END (R305): epoch, CRC and index change in one cycle, EV_RIG_ACTIVATED and source 137; then the device follows the new rig, and for a
commit records ACTIVE in it. Undefined with a rig that breaks R146 (R176, first case) or drops what live stripes need (R219, fourth case). -/
def execRigSwapEnd (s : State) : Res := whileCore s fun s =>
  match s.rig.staged with
  | none => .next s
  | some st =>
    if !(flag s F.RIG_STATUS_SWAPPING) then .next s
    else if rigCrowded (activeView (rigSwapEnd s st)) then .fault (.undefined176 1)
    else if rigDropsLive s (activeView (rigSwapEnd s st)) then .fault (.undefined219 4)
    else
      let old := activeView s
      let first := !(rigOn s)
      let oldRoles := (heldSlices s).map fun x => (x, roleHulls old x)
      let acted := (heldSlices s).filter (actsFor s)
      let s := rigSwapEnd s st
      let same := (oldRoles.filter fun p => roleHulls (activeView s) p.1 == p.2).map Prod.fst
      let s := { s with rig := { s.rig with commit := false }, kv := { s.kv with copied := [], deltas := [] } }
      let s := if s.epoch.phase = 6 then s
        else { s with epoch := { s.epoch with phase := 0, epoch := activeEpoch s, refusing := false, preparer := none } }
      .next (releaseSwapHeld (leaderDone (sendAllStatus (applyRig s first acted same))))

/-- The epoch recorded for this start: that of a commit whose swap had not ended (Table 05-8 step 4), else the active one. -/
def startEpoch (s : State) : Nat :=
  if (s.epoch.phase = 2 ∨ s.epoch.phase = 6) ∧ outcomeOf s s.epoch.epoch = some true then s.epoch.epoch else s.rig.active

/-- The recorded phase of an epoch change resumed (R213, Table 05-8): a leader in PREPARING aborts, one in COMMIT sends EPOCH_COMMIT again; a device
that was STAGED reports it again once what it gains is copied; one PREPARED stays so. -/
def epochResume (s : State) : Res :=
  let e := s.epoch.epoch
  let v := containerView (((s.rig.kept.find? fun k => k.1 == e).map Prod.snd).getD [])
  if s.epoch.phase = 5 then
    .next (epochAbort (sendChange s 0x8E (changePeers s v)))
  else if s.epoch.phase = 6 then
    let peers := changePeers s v
    .next (leaderDone (sendChange { s with epoch := { s.epoch with waiting := peers, since := s.now } } 0x8D peers))
  else if activeEpoch s = e then
    .next { s with epoch := { s.epoch with phase := if s.epoch.phase = 2 then 0 else s.epoch.phase } }
  else if s.epoch.phase = 1 then
    andThen (stageKept { s with epoch := { s.epoch with phase := 0 } } e) fun s => .next (enterStaged s v)
  else if s.epoch.phase = 2 then
    andThen (stageKept s e) fun s => .next { s with epoch := { s.epoch with since := s.now, askedAt := 0, queried := [] } }
  else .next s

/-- The rig of this start: the container of the recorded epoch staged and activated, then the epoch change resumed. -/
def rigStart (s : State) : Res :=
  if startEpoch s = 0 then .next s
  else
    let old := if startEpoch s = s.rig.active then none else (s.rig.kept.find? fun k => k.1 == s.rig.active).map fun k => containerView k.2
    andThen (stageKept s (startEpoch s)) fun s => epochResume (startSwap s old)

/-- The vault map and the size request written again as crew firmware keeps them. -/
def restoreVmap (s : State) : State :=
  setLimit (s.pj.kept.foldl (fun s e => if e.1 = 512 then setF s F.PJ_CTRL_SIZE e.2 else putVmap s e.1 e.2) s)

/-- BOOT ends: SCAN, with the keys and the rig of this start (Table 18-4). -/
def bootEnd (s : State) : Res :=
  if s.pwr.dev ≠ 1 then .next s else rigStart (reloadKeys { s with pwr := { s.pwr with dev := 2 } })

/-- PJ_RESTORE_END (R242): the restore ends; at a start the device is in SCAN from then on. -/
def execPjRestoreEnd (s : State) : Res := whileCore s fun s => if s.pj.loading then bootEnd (restoreEnd s) else .next s

end Sys2Proof.Machine
end

