-- ==== Sys2Proof/Machine/Power.lean ====
section
/-! DEFINITION. Power states, starts, resets, the watchdog, the counters, thermal steps (18), and what a fall of PFAIL_N does (06, 20, 21). -/

namespace Sys2Proof.Machine

/-! ### Starts (Tables 18-2 and 18-3) -/

/-- A domain switched on. Its blocks have stood at reset since it was switched off (R11). -/
def domainUp (s : State) (d : Domain) : State :=
  if domainOn s d then s else { s with pwr := { s.pwr with on := s.pwr.on ++ [d] } }

/-- SUPPLIES_VALID (R600, Table 18-2): every rail is in range and PFAIL_N has been high for 1 ms; the start goes on past step 1. -/
def execSuppliesValid (s : State) : Res :=
  let s := { s with pins := { s.pins with suppliesValid := true, pfailN := true } }
  if s.pwr.start ≠ 1 then .next s
  else .next (domainUp { s with pwr := { s.pwr with start := 2 } } .svc)

/-- POWER_ON_RESET (R543, Table 18-5). -/
def execPowerOnReset (s : State) : Res := .next (powerOnReset s)

/-- DEVICE_RESET (R547, Table 18-5) with a cause of 2 to 6. A vault dump once started is never cancelled (R239): it ends first. -/
def execDeviceReset (cause : Nat) (s : State) : Res :=
  if cause < 2 ∨ cause > 6 ∨ s.pj.dumping.isSome = true then .next s else .next (deviceReset s cause)

/-- A completed move of power state (R530, R541, R126). -/
def moved (s : State) (p : PState) : State :=
  let old := getF s F.PWR_STATUS_STATE
  counterRecord (sweepSave (saveRetention (logEv (setF s F.PWR_STATUS_STATE (pstateCode p)) EV.powerState old (pstateCode p) 0)))

/-- Cores 0 and 1 have been released (Tables 18-2 step 5 and 18-3 step 4): a start from sleep is in PADDLE, crew firmware writes its bases, and the
energy-store test begins while ES_CTRL.AUTO is 1. -/
def released (s : State) (v0 : Nat) : State :=
  let s := if asleep s then moved { s with pwr := { s.pwr with waking := false } } .paddle else s
  let s := crewBases s
  if flag s F.ES_CTRL_AUTO then esTestStart s v0 else s

/-- The crew cores released where the domains they need are on, with what follows. -/
def releaseCrew (s : State) (v0 : Nat) : Res :=
  andThen (coxRelease s) fun t => .next (if s.cox.releasedAt.isNone && t.cox.releasedAt.isSome then released t v0 else t)

/-- The training of the DRAM channels at a power-up of DRAM (R408): `fail` is the mask of those that fail, which is a fatal error. -/
def dramTrain (s : State) (fail : Nat) : State :=
  if fail % 256 = 0 then setF s F.DMC_STATUS_TRAINED 1 else enterHalted (setF s F.DMC_STATUS_FAIL fail) 0

/-- DOMAIN_POWER_UP (R547, Tables 18-2 and 01-4): COX at the start, then CORE, DRAM, FLASH and LANE0 once the image has verified. CREW2 and LANES
power up with the move to RACE, SVC and AON with the supplies. `fail` is the outcome of DRAM training, `v0` the store voltage as the energy-store
test begins. -/
def execDomainPowerUp (domain : Domain) (fail v0 : Nat) (s : State) : Res :=
  if s.pwr.start < 2 ∨ s.pwr.resetHold.isSome = true ∨ s.pwr.dev ≠ 1 ∨ domainOn s domain = true then .next s
  else
    match domain with
    | .cox => .next { domainUp s .cox with pwr := { (domainUp s .cox).pwr with start := 3 } }
    | .core =>
      if s.cox.verified then releaseCrew { domainUp s .core with pwr := { (domainUp s .core).pwr with mtimeAt := s.now } } v0 else .next s
    | .dram => if s.cox.verified then releaseCrew (dramTrain (domainUp s .dram) fail) v0 else .next s
    | .flash =>
      if s.cox.verified then releaseCrew { domainUp s .flash with pins := { s.pins with flashPwrEn := true } } v0 else .next s
    | .lane0 => if s.cox.verified then .next (domainUp s .lane0) else .next s
    | .aon | .svc | .crew2 | .lanes => .next s

/-- Every channel started and ready with the targets given for it, by channel. -/
def channelsUp (s : State) (targets : List (List FcTarget)) : State :=
  let s := fcLoadAll (List.range 32) s
  (List.range 32).foldl (fun s n => channelReady s n ((targets[n]?).getD [])) s

/-- Steps 4 to 9 of Table 18-3, once the image has verified. -/
def wakeOn (s : State) (targets : List (List FcTarget)) (v0 v1 fail : Nat) : Res :=
  let s := ([Domain.core, .dram, .flash, .lane0]).foldl domainUp s
  let s := { s with pwr := { s.pwr with mtimeAt := s.now }, pins := { s.pins with flashPwrEn := true } }
  let s := dramTrain s fail
  if s.pwr.dev = 7 then .next s
  else
    andThen (releaseCrew s v0) fun s =>
      let s := esTestEnd (channelsUp s targets) v1
      andThen (bootEnd (pjEnable (restoreVmap (restoreEnd s)))) fun s => andThen (execSummaryScan s) execReplay

/-- START_FROM_SLEEP (R545, Table 18-3): a wake takes the device through Cox, DRAM training, the flash channels (`targets`), the energy-store test (`v0`
to `v1`), the vault, the scan and replay to READY. Where the image does not verify, training fails (`fail`) or the journal is not empty the start
stops at that step, and the rows of a start from power-on carry it on. -/
def execStartFromSleep (targets : List (List FcTarget)) (v0 v1 fail : Nat) (s : State) : Res :=
  if !s.pwr.waking || s.pwr.start != 0 then .next s
  else
    let s := domainUp (domainUp s .svc) .cox
    andThen (execBootVerify { s with pwr := { s.pwr with start := 3, dev := 1 } }) fun s =>
      if s.cox.verified then wakeOn s targets v0 v1 fail else .next s

/-! ### Moves between power states (R530 to R534, Table 18-1) -/

/-- A request refused (R530). -/
def powerRefuse (s : State) (req : PState) (cause : Nat) : State :=
  logEv (setF (setF s F.PWR_STATUS_REFUSED 1) F.PWR_STATUS_CAUSE cause) EV.powerRefused (getF s F.PWR_STATUS_STATE) (pstateCode req) cause

/-- A GO write of a crew core with its TARGET: refused while a move is in progress or for the present state. -/
def goRow (core : Nat) (target : PState) (s : State) (run : State → Res) : Res :=
  coreStore s core F.PWR_CTRL_GO.addr fun s =>
    let s := setF s F.PWR_CTRL_TARGET (pstateCode target)
    if flag s F.PWR_STATUS_BUSY then .next (powerRefuse s target 5)
    else if getF s F.PWR_STATUS_STATE = pstateCode target then .next (powerRefuse s target 4)
    else run s

/-- The mask of cores 2 to 7 that are not in WFI. -/
def busyCores (s : State) : Nat := (((List.range 8).filter fun c => decide (2 ≤ c) && !(inWfi s c)).map fun c => 2 ^ c).sum

/-- The link of port A falls where a move changes its mode (R497). -/
def retrain (s : State) : State := if getF s F.MACA_MODE_RATE = 2 then s else portDown s 0

/-- The move to PADDLE: the links of LANES fall, CREW2 and LANES are switched off, port A retrains. -/
def movePaddle (s : State) : State :=
  let s := pathsFall (portDown (portDown (retrain s) 1) 2)
  moved (showRate (domainOff (domainOff s .crew2) .lanes) 0) .paddle

/-- The move to RACE: CREW2 and LANES on; cores 2 to 7 start, their memories reading 0 (R531). -/
def moveRace (s : State) : State := moved (showRate (domainUp (domainUp (retrain s) .crew2) .lanes) 0) .race

/-- GO_RACE (Table 18-1): from PADDLE, refused with cause 3 in thermal step 3. -/
def execGoRace (core : Nat) (s : State) : Res :=
  goRow core .race s fun s => .next (if getF s F.PWR_THERM_STEP < 3 then moveRace s else powerRefuse s .race 3)

/-- GO_PADDLE (Table 18-1): from RACE, refused with cause 2 while a crew core 2 to 7 is not in WFI. -/
def execGoPaddle (core : Nat) (s : State) : Res :=
  goRow core .paddle s fun s => .next (if busyCores s = 0 then movePaddle s else powerRefuse s .paddle 2)

/-- The conditions of R534 that the device does not check and the model can tell: ACCEPT 0 and no host session, a checkpoint after the last stride
programmed, every group ACTIVE with no seat lost and no rebuild, the docking notice sent twice, and AON_WAKE_AT written where the sweep has anything to read. -/
def dockReady (s : State) : Bool :=
  !(flag s F.HTE_CTRL_ACCEPT) && s.hte.sessions.all (fun x => sessKind s x.id != 0 || sessState s x.id == 0) &&
    s.media.since.all (fun e => e.2 == 0) &&
    s.groups.all (fun g => g.gstate == 2 && g.lost == 0 && g.rebuild.isNone && g.rebuilding.isEmpty) && (s.groups.isEmpty || decide (s.pwr.notices ≥ 2)) &&
    (getF s F.AON_WAKE_AT_SECONDS != 0 || s.fc.nand.isEmpty)

/-- A request for a sleep state (Table 18-1, R532, R534): refused with cause 4 in RACE and cause 1 while the journal holds records. The power-down begins
with CORE stopped and FLASH_PWR_EN low; the clean mark that crew firmware has written stands (R243). -/
def goSleep (core : Nat) (target : PState) (s : State) : Res :=
  goRow core target s fun s =>
    if getF s F.PWR_STATUS_STATE = 3 then .next (powerRefuse s target 4)
    else if getF s F.PJ_HEAD_OFFSET ≠ getF s F.PJ_TAIL_OFFSET then .next (powerRefuse s target 1)
    else if !(dockReady s) then .fault (.undefined553 1)
    else
      let s := { s with pj := { s.pj with cleanMark := getF s F.PJ_DUMP_SEQ_SEQ }, pwr := { s.pwr with move := some target, wakeLatched := none } }
      .next (setF { s with pins := { s.pins with flashPwrEn := false } } F.PWR_STATUS_BUSY 1)

/-- GO_DOCK (Table 18-1). -/
def execGoDock (core : Nat) (s : State) : Res := goSleep core .dock s

/-- GO_DEEP_DOCK (Table 18-1). -/
def execGoDeepDock (core : Nat) (s : State) : Res := goSleep core .deepDock s

/-- POWER_DOWN_END (R532): the domains that Table 01-4 lists as off are off, the counter record is saved; a wake latched, or WAKE_N still low (R611),
then wakes the device. -/
def execPowerDownEnd (s : State) : Res :=
  match s.pwr.move with
  | none => .next s
  | some p =>
    let wake := match s.pwr.wakeLatched with | some w => some w | none => if s.pins.wakeN then none else some (1, 0)
    let s := saveRetention s
    let s := (offOrder.filter fun d => !((pstateDomains p).contains d)).foldl domainOff s
    let s := { s with pwr := { s.pwr with move := none, wdogAt := none, dev := 1, start := 0, waking := false } }
    let s := setF (moved s p) F.PWR_STATUS_BUSY 0
    .next (match wake with | some w => wakeDevice s w.1 w.2 | none => s)

/-- WAKE_N_LOW (R611): WAKE_N low for 100 µs wakes the device from a sleep state; `held` 1 means that it stays low. -/
def execWakeNLow (held : Nat) (s : State) : Res :=
  .next (wakeEvent { s with pins := { s.pins with wakeN := held != 1 } } 1 0)

/-- AON_WAKE_AT_REACHED (R540): asleep, or in a power-down, a wake; awake, AON_STATUS.DUE. -/
def execAonWakeAtReached (s : State) : Res :=
  let w := getF s F.AON_WAKE_AT_SECONDS
  if w = 0 then .next s
  else
    let s := reach s (s.pwr.opsecAt + (w - s.pwr.opsecBase) * sec)
    let sleeping := asleep s || s.pwr.move == some .dock || s.pwr.move == some .deepDock
    .next (if sleeping then wakeEvent s 3 0 else setF s F.AON_STATUS_DUE 1)

/-! ### Docking (R536 to R538) -/

/-- GROUP_STATUS with DEV_STATE DOCKED in every group. -/
def tellDocked (s : State) : State := (s.groups.map Group.id).foldl (fun s id => sendStatusAs s id 8) s

/-- DOCKING_NOTICE (R536): sent twice, 10 ms apart; 10 ms more pass before the power-down is requested. -/
def execDockingNotice (s : State) : Res := whileCore s fun s =>
  let s := tellDocked s
  let s := tellDocked (reach s (s.now + 10 * ms))
  let s := reach s (s.now + 10 * ms)
  .next { s with pwr := { s.pwr with notices := 2 } }

/-- DOCKED_WAKE_RESEND (R538): WAKE again every 500 ms while the docked seat is needed. -/
def execDockedWakeResend (hull : Nat) (s : State) : Res := whileCore s fun s =>
  match s.pwr.wakes.find? fun w => w.1 == hull with
  | none => .next s
  | some w =>
    let s := reach s w.2.2
    let ws := s.pwr.wakes.map fun x => if x.1 = hull then (x.1, x.2.1, x.2.2 + 500 * ms) else x
    .next { s with pwr := { s.pwr with wakes := ws }, svc := { s.svc with replies := s.svc.replies ++ [wakeFrame s hull] } }

/-- DOCKED_WAKE_TIMEOUT (R538): 5 s after the first WAKE the seat is silent from that moment, and the time limit of a held FRAG_WRITE starts. -/
def execDockedWakeTimeout (hull : Nat) (s : State) : Res := whileCore s fun s =>
  match s.pwr.wakes.find? fun w => w.1 == hull with
  | none => .next s
  | some w =>
    let s := reach s (w.2.1 + 5 * sec)
    let s := { s with pwr := { s.pwr with wakes := s.pwr.wakes.filter fun x => x.1 != hull } }
    let s := s.groups.foldl (fun s g =>
      match hullSeat s g.id hull with
      | none => s
      | some t =>
        match g.info t with
        | some i => if i.dev = 8 then putGroup s (g.setInfo { i with dev := 0, heardAt := s.now }) else s
        | none => s) s
    let late := fun (r : PeerReq) => r.hull == hull && r.session == noSession && wakeOps.contains r.op
    .next { s with hte := { s.hte with requests := s.hte.requests.map fun r => if late r then { r with firstAt := s.now } else r } }

/-! ### Watchdog and counters (R541, R542) -/

/-- WATCHDOG_ARM (R542): AON_WDOG written with ENABLE 1 and SECONDS; while ENABLE is 1 already, SECONDS is ignored. -/
def execWatchdogArm (core seconds : Nat) (s : State) : Res :=
  coreStore s core F.AON_WDOG_ENABLE.addr fun s =>
    if flag s F.AON_WDOG_ENABLE then .next s
    else if seconds < 1 ∨ seconds > 60 then .fault (.undefined553 2)
    else
      let s := setF (setF s F.AON_WDOG_SECONDS seconds) F.AON_WDOG_ENABLE 1
      .next { s with pwr := { s.pwr with wdogAt := some (s.now + seconds * sec) } }

/-- WATCHDOG_KICK (R542): the count starts again. -/
def execWatchdogKick (core : Nat) (s : State) : Res :=
  coreStore s core F.AON_WDOG_KICK.addr fun s =>
    .next (if flag s F.AON_WDOG_ENABLE then { s with pwr := { s.pwr with wdogAt := some (s.now + getF s F.AON_WDOG_SECONDS * sec) } } else s)

/-- WATCHDOG_EXPIRY (R542): a snapshot, EV_WATCHDOG, a device reset with cause 3. A vault dump under way ends with its own reset (R239). -/
def execWatchdogExpiry (s : State) : Res :=
  match s.pwr.wdogAt with
  | none => .next s
  | some t =>
    let s := pentTrigger (reach s t) 2 0
    let s := logEv s EV.watchdog (getF s F.AON_WDOG_SECONDS) 0 0
    .next (if s.pj.dumping.isSome then { s with pwr := { s.pwr with wdogAt := none } } else deviceReset s 3)

/-- COUNTER_RECORD (R541): 64 s after the last record. -/
def execCounterRecord (s : State) : Res := .next (counterRecord (reach s (s.pwr.recordAt + 64 * sec)))

/-! ### Vault dump (R239, Table 06-11) -/

/-- The image a dump begins: in the set that does not hold the newest complete one. -/
def dumpImage (s : State) : VaultImage :=
  let other := match newestComplete s with | some i => 1 - i.vset | none => 0
  ⟨other, getF s F.PJ_DUMP_SEQ_SEQ, s.pj.units, getF s F.AON_PCYCLES_COUNT, opsec s, false, (List.range 256).map fun i => vmapBsn s (256 * other + i), [],
    journalCells s⟩

/-- A dump is committed: operations on the NAND in progress run to their end, everything else stops, and the image begins with its headers. -/
def dumpBegin (s : State) : State :=
  let s := s.fc.ops.foldl (fun s o => (fcWriteEnd s o false).1) s
  let i := dumpImage s
  let s := { s with fc := { s.fc with ops := [] } }
  setF { s with pj := { s.pj with vault := i :: s.pj.vault.filter (fun x => x.vset != i.vset), dumping := some (i.vset, i.seq) } } F.PJ_STATUS_DUMPING 1

/-- The trailers are programmed: the image is complete. -/
def dumpFinish (s : State) : State :=
  match s.pj.dumping with
  | none => s
  | some d =>
    let vault := s.pj.vault.map fun i => if i.vset = d.1 ∧ i.seq = d.2 then { i with ended := true } else i
    setF { s with pj := { s.pj with vault := vault, dumping := none } } F.PJ_STATUS_DUMPING 0

/-- A test discharge is given up at once: ABORTED, and ES_ENERGY stays 0 (R257). -/
def esAbort (s : State) : State :=
  if !(flag s F.ES_STATUS_BUSY) then s
  else
    let s := { s with pj := { s.pj with testAt := none }, pins := { s.pins with esDisch := false } }
    setF (setF (setF s F.ES_STATUS_BUSY 0) F.ES_STATUS_ABORTED 1) F.ES_ENERGY_MJ 0

/-- What a fall of PFAIL_N does apart from its event (R239, R541, R575, R588): the test discharge is given up, the dump is committed while DUMP_ARM is 1,
the snapshot begins with its cause, the counter record is appended. -/
def powerFalls (s : State) (cause : Nat) : State :=
  let s := esAbort s
  let s := if flag s F.PJ_CTRL_DUMP_ARM && s.pj.dumping.isNone then dumpBegin s else s
  counterRecord (pentTrigger s cause 0)

/-- PFAIL_N_FALL (R239): PFAIL_N has been low for 2 µs. -/
def execPfailNFall (s : State) : Res :=
  if !s.pins.pfailN then .next s
  else
    let arm := getF s F.PJ_CTRL_DUMP_ARM
    let s := powerFalls { s with pins := { s.pins with pfailN := false } } 0
    .next (programBuffer (logEv s EV.pfail arm 0 0))

/-- VAULT_DUMP_END (R239, R548): the image is complete and the device resets itself; with PFAIL_N low it stays at step 1 of Table 18-2 (R600), else it
starts at step 2. -/
def execVaultDumpEnd (s : State) : Res :=
  if s.pj.dumping.isNone then .next s
  else
    let s := deviceReset (dumpFinish s) 2
    .next { s with pwr := { s.pwr with resetHold := none, start := if s.pins.pfailN then 2 else 1 } }

/-! ### Thermal steps (R549, R550, Table 18-6) -/

/-- TJ in degrees from its 9-bit field. -/
def tjOf (tj : Nat) : Int := if tj % 512 ≥ 256 then (tj % 512 : Int) - 512 else (tj % 512 : Int)

/-- The entry temperature of a step. -/
def stepEntry (s : State) (k : Nat) : Int := getF s (if k = 1 then F.PWR_THERM_T_T1 else if k = 2 then F.PWR_THERM_T_T2 else F.PWR_THERM_T_T3)

/-- The highest step whose entry temperature TJ has reached. -/
def stepReached (s : State) (t : Int) : Nat := if t ≥ stepEntry s 3 then 3 else if t ≥ stepEntry s 2 then 2 else if t ≥ stepEntry s 1 then 1 else 0

/-- A change of the thermal step, with the mask of EV_THERMAL_STEP. -/
def stepChange (s : State) (k tj mask : Nat) : State :=
  logEv (setF (setF s F.PWR_THERM_STEP k) F.PWR_THERM_STEP_CHG 1) EV.thermalStep k tj mask

/-- A step entered: SMB_ALERT_N falls; step 3 forces the move from RACE to PADDLE whatever cores 2 to 7 do (R531). -/
def stepEnter (s : State) (k tj : Nat) : State :=
  let forced := k == 3 && getF s F.PWR_STATUS_STATE == 3
  let s := alertLow (stepChange { s with pwr := { s.pwr with coolSince := none } } k tj (if forced then busyCores s else 0))
  if forced then movePaddle s else s

/-- Since when TJ has been below the leave temperature of a step. -/
def coolFrom (s : State) (k : Nat) (t : Int) : Option Nat :=
  if k ≥ 1 ∧ t < stepEntry s k - 5 then some (s.pwr.coolSince.getD s.now) else none

/-- The shutdown at 128 °C (R550): as on a fall of PFAIL_N, the dump run to its end, then EV_THERMAL_SHUTDOWN and a device reset with cause 5. -/
def thermalShutdown (s : State) (tj : Nat) : State :=
  let s := dumpFinish (powerFalls s 3)
  deviceReset (programBuffer (logEv s EV.thermalShutdown tj 0 0)) 5

/-- THERMAL_SAMPLE (R549, R550, R548): TJ, as 9-bit two's complement. Below 100 °C a reset with cause 5 is released. -/
def execThermalSample (tj : Nat) (s : State) : Res :=
  let t := tjOf tj
  let s := setF s F.PWR_THERM_TJ tj
  if s.pwr.resetHold = some 5 then .next (if t < 100 then { s with pwr := { s.pwr with resetHold := none } } else s)
  else if t ≥ 128 then .next (if s.pj.dumping.isSome then s else thermalShutdown s (tj % 512))
  else
    let k := getF s F.PWR_THERM_STEP
    let up := stepReached s t
    if up > k then .next (stepEnter s up (tj % 512))
    else .next { s with pwr := { s.pwr with coolSince := coolFrom s k t } }

/-- THERMAL_STEP_LEAVE (R549): TJ has stayed below the leave temperature for 1 s; steps are left one at a time. -/
def execThermalStepLeave (s : State) : Res :=
  match s.pwr.coolSince with
  | none => .next s
  | some at_ =>
    let k := getF s F.PWR_THERM_STEP
    let tj := getF s F.PWR_THERM_TJ
    let s := stepChange (reach s (at_ + sec)) (k - 1) tj 0
    let s := { s with pwr := { s.pwr with coolSince := none } }
    .next { s with pwr := { s.pwr with coolSince := coolFrom s (k - 1) (tjOf tj) } }

end Sys2Proof.Machine
end

