-- ==== Sys2Proof/Machine/RegWrite.lean ====
section
/-! DEFINITION. Accesses of an agent on the fabric: a write of a register field that has no row of its own (R9, R10, R37, R38), of SRAM or DRAM,
of the windows of the flash channels (R370, R371), and a read, which clears an RC counter. The uses of registers and of memory that the
spec lists as undefined are judged first. -/

namespace Sys2Proof.Machine

/-! ### Where an address leads (R35, R36) -/

/-- What lies at an address: a register at its own address; the shadow of a counter (R587) by its register; a word of a channel's microcode
memory (R368); a word of a parameter page by channel, target and offset (R387); a pair channel context (R256); SRAM or DRAM; nothing. -/
inductive BusTarget where
  | reg (base : Nat) (row : RegFam)
  | shadow (base : Nat) (row : RegFam)
  | micro (channel : Nat)
  | page (channel target offset : Nat)
  | pair (ctx offset : Nat)
  | mem
  | unmapped
  deriving DecidableEq, Repr

/-- The base of the pair channel contexts. -/
def pairCtxBase : Nat := 0x010F204000

/-- What lies at an address. -/
def busTarget (a : Nat) : BusTarget :=
  match regAt a with
  | some (b, r) => .reg b r
  | none =>
    let o := (a - 0x0108000000) % 0x100000
    let n := (a - 0x0108000000) / 0x100000
    if (memDomain a).isSome then .mem
    else if pairCtxBase ≤ a ∧ a < pairCtxBase + 0x1000 then .pair ((a - pairCtxBase) / 64) ((a - pairCtxBase) % 64)
    else if 0x0108000000 ≤ a ∧ a < 0x010A000000 ∧ 0x80000 ≤ o ∧ o < 0x84000 then .micro n
    else if 0x0108000000 ≤ a ∧ a < 0x010A000000 ∧ 0x4000 ≤ o ∧ o < 0x4800 then .page n ((o - 0x4000) / 256) (o % 256)
    else
      match (if a < 0xC0000 then none else regAt (a - 0xC0000)) with
      | some (b, r) => if r.fields.any (fun d => snapCounter (b * 64 + d.lo)) then .shadow b r else .unmapped
      | none => .unmapped

/-- The width and alignment of an access are those that R37 permits for the target. -/
def widthOk (t : BusTarget) (a width : Nat) : Bool :=
  match t with
  | .reg b r => (width == 4 && (a == b || (r.wide && a == b + 4))) || (width == 8 && r.wide && a == b)
  | .shadow b r => (width == 4 && (a == b + 0xC0000 || (r.wide && a == b + 0xC0004))) || (width == 8 && r.wide && a == b + 0xC0000)
  | .mem => width != 0
  | .unmapped => false
  | .micro _ | .page _ _ _ | .pair _ _ => (width == 4 && a % 4 == 0) || (width == 8 && a % 8 == 0)

/-- How an access fails, as a kind of Table 01-12; none where it does not (R38). -/
def busFault (s : State) (a width : Nat) (wr : Bool) : Option Nat :=
  match busTarget a with
  | .unmapped => some 0
  | .mem => if width = 0 then some 2 else memFault s a width wr
  | t => if !(widthOk t a width) then some 2 else if !(domainOn s (regDomain a)) then some 5 else none

/-! ### Field types (R9, Table 00-5) -/

/-- One field of a register written: `v` carries the register's value in the bits from `lo` on, `n` of them. A field with a row of its own is
left to it. RWL fields are Cox's while it holds the lock. -/
def fieldWrite (s : State) (rid b lo n v : Nat) (d : FDef) : State :=
  let f := fieldAt d b
  let l := max d.lo lo
  let h := min (d.lo + d.width) (lo + n)
  if d.row || decide (h ≤ l) then s
  else
    let x := bits v l (h - l) * 2 ^ (l - d.lo)
    let mask := (2 ^ (h - l) - 1) * 2 ^ (l - d.lo)
    let old := getF s f
    let merged := old - (old &&& mask) + x
    match d.ty with
    | .rw => setF s f merged
    | .rwl => if rid = 2 ∨ !s.cox.locked then setF s f merged else s
    | .w1c => setF s f (old - (old &&& x))
    | .w1s => setF s f (old ||| x)
    | .ro | .rc | .wo => s

/-- Every field of a register written. -/
def fieldsWrite (rid b lo n v : Nat) : List FDef → State → State
  | [], s => s
  | d :: ds, s => fieldsWrite rid b lo n v ds (fieldWrite s rid b lo n v d)

/-- The bits that the fields of a register occupy. -/
def fieldMask (fs : List FDef) : Nat := (fs.map fun d => (2 ^ d.width - 1) * 2 ^ d.lo).sum

/-- A nonzero value goes to a reserved bit (R10). -/
def reservedHit (r : RegFam) (v : Nat) : Bool := decide (v - (v &&& fieldMask r.fields) ≠ 0)

/-! ### Uses of registers that the spec lists as undefined -/

/-- The first fault of a list whose condition holds. -/
def firstFault : List (Bool × Fault) → Option Fault
  | [] => none
  | (c, f) :: t => if c then some f else firstFault t

/-- An address lies in a range. -/
def within (a lo n : Nat) : Bool := decide (lo ≤ a) && decide (a < lo + n)

/-- The block that a QBIND register belongs to, numbered as the upper digit of its opcodes, and the flash channel; none for another register. -/
def qbindBlock (b : Nat) : Option (Nat × Nat) :=
  if within b 0x0103000020 16 then some (1, 0)
  else if within b 0x0105000010 16 then some (2, 0)
  else if within b 0x0105800010 16 then some (3, 0)
  else if within b 0x0108000000 0x2000000 && within (b % 0x100000) 0x10 16 then some (4, (b - 0x0108000000) / 0x100000)
  else if within b 0x0106000010 16 then some (6, 0)
  else if within b 0x010C300070 16 then some (7, 0)
  else none

/-- A binding written to a QBIND register clashes with another: R389 for two channels, R436 for two blocks. -/
def bindClash (s : State) (b new : Nat) : Option Fault :=
  match qbindBlock b with
  | none => none
  | some (k, n) =>
    let s' := setF s ⟨b, 31, 1, 0⟩ 0
    let q := bits new 0 13
    let other := queueBlock s' q
    if !(bitAt new 31) || other == 5 then none
    else if other ≠ k then some (.undefined436 6)
    else if k = 4 ∧ fcBinding s' q ≠ some n then some (.undefined389 5)
    else none

/-- The DRAM regions that base registers name (R29, Table 01-6), with their sizes: command table, capsule copies, bucket directory, slice table,
bucket cache, block table, the rig container and image (R301), the DMA completion ring, and the rings of the work queues and ports. -/
def dramRegions (s : State) : List (Nat × Nat) :=
  let ring := fun (p : Nat) (base log2s : Nat → Fld) (on : Nat → Fld) => ((List.range 8).filter fun r => flag s (mp p (on r))).map fun r =>
    (slotAddr s (mp p (base r)) (mp p (log2s r)) 0, 32 * 2 ^ getF s (mp p (log2s r)))
  ([(getF s F.HTE_CMD_BASE_ADDR * 4096, 0x1000000), (getF s F.HTE_CAP_BASE_ADDR * 4096, 262144 * 4608), (getF s F.HTE_DIR_BASE_ADDR * 4096, 0x10000000),
    (getF s F.HTE_SLICE_BASE_ADDR * 4096, 65536 * 8), (getF s F.HTE_BCACHE_BASE_ADDR * 16384, 0x200000000), (getF s (F.FC_BT_BASE_ADDR 0) * 4096, 0x8000000),
    (getF s F.RIG_SRC_ADDR_ADDR, getF s F.RIG_SRC_LEN_BYTES), (getF s F.RIG_IMAGE_ADDR_ADDR, 0x1000000)] ++
    s.wq.queues.map (fun (x : Queue) => (x.ring, 64 * 2 ^ x.log2s)) ++ s.wq.queues.map (fun (x : Queue) => (x.cq, 16 * 2 ^ x.log2c)) ++
    (List.range 2).flatMap (fun p => ring p F.MACA_RXR_BASE_ADDR F.MACA_RXR_CFG_LOG2S F.MACA_RXR_CFG_ENABLE ++
      ring p F.MACA_TXR_BASE_ADDR F.MACA_TXR_CFG_LOG2S F.MACA_TXR_CFG_ENABLE)).filter fun r => isDram r.1 && r.2 != 0

/-- The base registers whose write, as one access, places a DRAM region. -/
def placesRegion (b : Nat) : Bool :=
  [0x010C300058, 0x010C300060, 0x010C300040, 0x010C300048, 0x010C300050, 0x0107000008, 0x0107000018].contains b ||
    (within b 0x0108000000 0x2000000 && b % 0x100000 == 0x20)

/-- Some two ranges of a list overlap. -/
def anyOverlap : List (Nat × Nat) → Bool
  | [] => false
  | r :: rs => (rs.any fun t => overlaps r.1 r.2 t.1 t.2) || anyOverlap rs

/-- DRAM regions lie over the configured journal or over each other (R46, fourth and fifth case). -/
def regionsClash (s : State) : Option Fault :=
  firstFault [((dramRegions s).any fun r => overlaps r.1 r.2 dramBase (s.pj.units * 0x10000000), .undefined46 4),
              (anyOverlap (dramRegions s), .undefined46 5)]

/-- Two valid heaps share entry places after heap `h` is given its fields (R361). -/
def heapClash (s : State) (h new : Nat) : Bool :=
  bitAt new 63 && (List.range 1040).any fun i =>
    i != h && flag s (F.FPH_HEAP_VALID i) &&
      overlaps (bits new 32 20) (bits new 11 11) (getF s (F.FPH_HEAP_BASE i)) (getF s (F.FPH_HEAP_CAPACITY i))

/-- The misuse of registers of HTE, PJ, RIG, the heaps and the flash channels, by the register's address, what it held and what crew firmware writes. -/
def misuseFirst (s : State) (b old new : Nat) : List (Bool × Fault) :=
  let n := (b - 0x0108000000) / 0x100000
  let o := b % 0x100000
  let fc := within b 0x0108000000 0x2000000
  let h := (b - 0x043F1000) / 8
  let armed := bitAt new 30 && !(bitAt old 30)
  let seq := getF s F.PJ_DUMP_SEQ_SEQ
  let keep := (newestComplete s).map VaultImage.vset
  [((b == 0x010C300058 || b == 0x010C300060 || within b 0x010C300070 16) && flag s F.HTE_CTRL_ACCEPT && new != old, .undefined92 8),
   ((b == 0x010C300040 || b == 0x010C300048 || b == 0x010C300050) && flag s F.HTE_CTRL_FASTPATH && new != old, .undefined176 4),
   (b == 0x010F200000 && armed && ((s.pj.vault.any fun i => !(keep == some i.vset && i.complete) && i.bsns.any fun b => !(i.gone.contains b)) ||
      decide (seq ≤ getF s F.PJ_FOUND_SEQ_SEQ) || decide (seq ≤ s.pj.cleanMark)), .undefined258 2),
   ((b == 0x0107000008 || b == 0x0107000010 || b == 0x0107000018) && (flag s F.RIG_STATUS_BUSY || flag s F.RIG_STATUS_SWAPPING), .undefined314 5),
   (within b 0x043F1000 8320 && getF s (F.FPH_HEAP_COUNT h) != 0 && (bits new 32 20 != bits old 32 20 || bits new 11 11 != bits old 11 11), .undefined361 1),
   (within b 0x043F1000 8320 && heapClash s h new, .undefined361 1),
   (fc && o == 0x20 && new != old && !(fcIdle s n), .undefined389 1),
   (fc && o == 0x0C && decide (bits new 16 16 > 2400) && decide (Config.packageLoads n > 4), .undefined619 3),
   (fc && within o 0x1000 0x1000 && o % 128 == 4 && bitAt new 31 && vaultLun s n ((o - 0x1000) / 128), .undefined389 4)]

/-- The misuse of registers of SC, WQ, DMA, CIP, DIG and the ports. -/
def misuseSecond (s : State) (b old new : Nat) : List (Bool × Fault) :=
  let n := (b - 0x0103001000) / 128
  let ch := within b 0x0103001000 4096
  let p := (b - 0x010C000000) / 0x100000
  let o := b % 0x100000
  let mac := within b 0x010C000000 0x200000
  let ring := (o % 0x100) / 0x20
  let on := if o < 0x200 then flag s (mp p (F.MACA_RXR_CFG_ENABLE ring)) else flag s (mp p (F.MACA_TXR_CFG_ENABLE ring))
  [((b == 0x0101000200 || b == 0x0101000208 || (b == 0x0101000210 && bits new 0 2 != bits old 0 2)) && flag s F.SC_MAINT_STATUS_BUSY, .undefined411 3),
   ((b == 0x0102000008 || b == 0x0102000010 || b == 0x0102000018 || b == 0x0102000020 || b == 0x0102000030) && flag s F.WQ_CTRL_ENABLE, .undefined436 8),
   (within b 0x0102000400 256 && (bits new 8 4 == 0 || decide (bits new 8 4 > 8) || bits new 0 8 == 0), .undefined436 9),
   (ch && (b % 128 == 4 || b % 128 == 16) && getF s (F.DMA_CH_STATUS_STATE n) == 1, .undefined453 2),
   (ch && b % 128 == 4 && decide (bits new 0 6 ≥ 32), .undefined453 5),
   ((b == 0x0103000008 || b == 0x0103000010) && flag s F.DMA_CTRL_ENABLE, .undefined453 2),
   (within b 0x0105000010 16 && flag s F.CIP_CTRL_ENABLE && new != old, .undefined495 4),
   (within b 0x0105800010 16 && flag s F.DIG_CTRL_ENABLE && new != old, .undefined495 4),
   (mac && flag s (mp p F.MACA_CTRL_ENABLE) && [0x04, 0x10, 0x18, 0x1C, 0x20, 0x24].contains o, .undefined515 1),
   (b == 0x010C200010 && flag s F.PLK_CTRL_ENABLE, .undefined515 1),
   (mac && within o 0x100 0x200 && (o % 0x20 == 0 || o % 0x20 == 8) && on, .undefined515 2)]

/-- The misuse of registers of the service port, AON, the mailbox and the logbook. -/
def misuseThird (s : State) (b new : Nat) : List (Bool × Fault) :=
  let c := (b - 0x010F100000) / 0x1000
  [(within b 0x010D000600 0x200 && flag s (F.SVC_WPAT_CTRL_ENABLE ((b - 0x010D000600) / 0x40)), .undefined529 2),
   (b == 0x0100400018 && !(flag s F.AON_WDOG_ENABLE) && (bits new 0 8 == 0 || decide (bits new 0 8 > 60)), .undefined553 2),
   (within b 0x010F100000 0x4000 && decide (b % 0x1000 < 0x400) && flag s (F.COX_MBc_STATUS_BUSY c), .undefined571 1),
   ((b == 0x010E000018 || b == 0x010E000020) && flag s F.LOG_CAL_CTRL_VALID, .undefined591 1),
   (b == 0x010E000028 && (bits new 16 16 == 0 || decide (bits new 16 16 > 3600) || bits new 0 8 == 0 || bits new 0 8 == 255), .undefined591 2)]

/-- The listed undefined result that a register write of crew firmware would have. -/
def regMisuse (s : State) (b old new : Nat) : Option Fault :=
  match firstFault (misuseFirst s b old new ++ misuseSecond s b old new ++ misuseThird s b new) with
  | some f => some f
  | none =>
    match bindClash s b new with
    | some f => some f
    | none => if b = 0x010C300000 ∧ (bitAt new 31 || bitAt new 30) = true then regionsClash s else none

/-! ### Uses of memory that the spec lists as undefined -/

/-- The bytes of a peer session's context that crew firmware may write (R203): KIND, PEER_HULL, RULE_TAG, RATE_TABLE, DSCP and CREW_SCRATCH. -/
def peerWritable (o : Nat) : Bool := o == 65 || within o 72 8 || within o 80 5 || o == 86 || decide (120 ≤ o)

/-- A write of crew firmware to session contexts (R54, R55, R92, R203). -/
def sessMisuse (s : State) (a n : Nat) : Option Fault :=
  let id := (a - sessBase) / 128
  let o := (a - sessBase) % 128
  let st := sessState s id
  let held := flag s F.HTE_SESS_HOLD_HELD && getF s F.HTE_SESS_HOLD_SESSION == id
  let peer := sessKind s id != 0 && st != 0
  if !(within a sessBase 0x800000) then none
  else firstFault [
    (decide (o < 64) && st != 0, .undefined92 1),
    (overlaps o n 70 2 || overlaps o n 85 1, .undefined92 2),
    (decide (o < 120) && decide (st ≥ 3) && !held, .undefined92 3),
    (peer && !((List.range n).all fun i => peerWritable (o + i)), .undefined92 4)]

/-- A write of crew firmware to a queue's rings and index block (R422, R436). -/
def queueMisuse (s : State) (a : Nat) (bs : Bytes) (x : Queue) : Option Fault :=
  let n := bs.length
  let slot := (a - x.ring) / 64
  let held := flag s F.WQ_ECINV_HELD && getF s F.WQ_ECINV_QUEUE == x.num
  let posted := within a x.ring (64 * 2 ^ x.log2s) &&
    decide ((slot + 2 ^ 32 - x.sqCi % 2 ^ x.log2s) % 2 ^ x.log2s < (x.sqPi + 2 ^ 32 - x.sqCi) % 2 ^ 32)
  firstFault [
    (!x.fromBlock && posted && !held, .undefined436 1),
    (!x.fromBlock && (overlaps a n (x.idx + 4) 4 || overlaps a n (x.idx + 8) 4), .undefined436 5),
    (x.fromBlock && overlaps a n x.idx 4, .undefined436 5),
    ((bs.zipIdx a).any (fun p => p.1 != 0 && within p.2 (x.idx + 16) 48), .undefined436 7)]

/-- The first fault that some element of a list gives. -/
def someFault {α : Type} (f : α → Option Fault) : List α → Option Fault
  | [] => none
  | x :: xs => match f x with | some e => some e | none => someFault f xs

/-- The DRAM that a waiting mailbox request names by address and length (Table 19-2). -/
def mailboxRange (s : State) (c : Nat) : Nat × Nat :=
  let b := (List.range 16).map fun i => le 4 (getF s (F.COX_MBc_REQ_BYTES c i))
  let b := b.flatten
  let op := fld b 0 2
  if !(flag s (F.COX_MBc_STATUS_BUSY c)) then (0, 0)
  else if op = 0x30 then (fld b 17 8, fld b 25 4)
  else if op = 0x31 ∨ op = 0x32 ∨ op = 0x52 then (fld b 16 8, fld b 24 4)
  else if op = 0x50 then (fld b 16 8, s.cox.image.length)
  else (0, 0)

/-- A write of crew firmware to the slice table, a directory word or a resident bucket (R147, R149, R176), of the bytes `bs` at `a`. -/
def indexMisuse (s : State) (a : Nat) (bs : Bytes) : Option Fault :=
  let table := getF s F.HTE_SLICE_BASE_ADDR * 4096
  let dir := getF s F.HTE_DIR_BASE_ADDR * 4096
  let cache := getF s F.HTE_BCACHE_BASE_ADDR * 16384
  let x := (a - table) / 8
  let w := leNat (patch (peek s (table + 8 * x) 8) ((a - table) % 8) bs)
  let i := (a - dir) / 8
  let old := peekNat s (dir + 8 * i) 8
  let new := leNat (patch (le 8 old) ((a - dir) % 8) bs)
  let run := fun y => decide (sliceDir s y ≤ i) && decide (i < sliceDir s y + 2 ^ sliceB s y)
  let meets := fun y => decide (bits w 0 25 < sliceDir s y + 2 ^ sliceB s y) && decide (sliceDir s y < bits w 0 25 + 2 ^ bits w 32 5)
  firstFault [
    (isDram table && within a table 0x80000 && bitAt w 63 && (heldSlices s).any (fun y => y != x && meets y), .undefined176 2),
    (isDram dir && within a dir 0x10000000 && (bits old 62 2 != bits new 62 2 || bits old 25 36 != bits new 25 36) && !(bitAt old 61) &&
      (heldSlices s).any run, .undefined176 3),
    (isDram cache && within a cache 0x200000000 && (heldSlices s).any (fun y => (bucketsOf s y).any fun b =>
      decide (2 ≤ dirState s y b) && !(dirBusy s y b) && overlaps a bs.length (bucketAddr s (dirSlot s y b)) 16384), .undefined176 3)]

/-- A write of crew firmware to STATE of a block table entry that disagrees with the skip lists: the retired block sets are RETIRED, those of a
failed LUN UNUSED, those of the vault map and of the fallback map VAULT, and no other is RETIRED (R334, R361). -/
def tableMisuse (s : State) (a : Nat) (bs : Bytes) : Option Fault :=
  let base := getF s (F.FC_BT_BASE_ADDR 0) * 4096
  let b := (a - base) / 32
  let v := fld bs 0 1
  let want := if s.media.retired.contains b then v == 5 else if s.media.failed.contains (bsnLun b) then v == 0 else
    if (vaultBsns s).contains b || fallbackHeld s b then v == 6 else v != 5
  if isDram base && within a base 0x1000000 && a % 32 == 0 && !want then some (.undefined361 4) else none

/-- A write of crew firmware to a slot between the indices of a data port's ring (R515). -/
def slotMisuse (s : State) (a n : Nat) : Option Fault :=
  let hit := fun (base log2s ci pi : Fld) => (List.range (idxSub (getF s pi) (getF s ci))).any fun k =>
    overlaps a n (slotAddr s base log2s (getF s ci + k)) 32
  let rx := fun p r => flag s (mp p (F.MACA_RXR_CFG_ENABLE r)) && hit (mp p (F.MACA_RXR_BASE_ADDR r)) (mp p (F.MACA_RXR_CFG_LOG2S r))
    (mp p (F.MACA_RXR_CI_INDEX r)) (mp p (F.MACA_RXR_PI_INDEX r))
  let tx := fun p r => flag s (mp p (F.MACA_TXR_CFG_ENABLE r)) && hit (mp p (F.MACA_TXR_BASE_ADDR r)) (mp p (F.MACA_TXR_CFG_LOG2S r))
    (mp p (F.MACA_TXR_CI_INDEX r)) (mp p (F.MACA_TXR_PI_INDEX r))
  if (List.range 2).any fun p => (List.range 8).any fun r => rx p r || tx p r then some (.undefined515 2) else none

/-- A write of crew firmware to the record ring that R258 leaves undefined: outside space reserved to it, but for RSTATE of a record whose condition holds. -/
def ringMisuse (s : State) (a : Nat) (bs : Bytes) : Bool :=
  let n := pjRingBytes s
  let off := fun (x : Nat) => let o := x - ringBase; let t := pjTail s; t + (o + n - t % max n 1) % max n 1
  let old := peek s a bs.length
  let hit := ((List.range bs.length).filter fun i => within (a + i) ringBase n && bs[i]? != old[i]? && !(ringReserved s (off (a + i)))).map fun i => a + i
  let retires := fun (x : Nat) => bs[x - a]? == some 1 && (pjLive s).any fun r => ringAddr s r.1 + 5 == x && recordDone s r
  s.pj.units != 0 && overlaps a bs.length ringBase n && !(hit.all retires)

/-- The listed undefined result that a memory write of crew firmware would have. -/
def memMisuse (s : State) (a : Nat) (bs : Bytes) : Option Fault :=
  let n := bs.length
  let table := getF s F.HTE_CMD_BASE_ADDR * 4096
  let caps := getF s F.HTE_CAP_BASE_ADDR * 4096
  let store := fun (p : Nat) => if p = 0 then 0x03700000 else 0x03600000
  match sessMisuse s a n with
  | some f => some f
  | none =>
    match firstFault [
      (isDram table && overlaps a n table 0x1000000, .undefined92 5),
      (s.hte.cmds.any fun c => c.reason != 0 && c.reason != heldForSwap && overlaps a n (caps + 4608 * c.index) c.capsule.length, .undefined92 6),
      (s.hte.rxBufs.any (fun r => overlaps a n r.1 r.2) ||
        s.hte.excHeld.any (fun e => fld e 0 1 == 0x72 && overlaps a n (fld e 16 8) (fld e 12 4)), .undefined92 7),
      (flag s F.RIG_STATUS_BUSY && overlaps a n (getF s F.RIG_SRC_ADDR_ADDR) (getF s F.RIG_SRC_LEN_BYTES), .undefined314 5),
      (match s.rig.staged with | some st => overlaps a n (getF s F.RIG_IMAGE_ADDR_ADDR) st.length | none => false, .undefined314 5),
      (within a heapBase 0x3F0000 && (List.range 1040).any fun h => flag s (F.FPH_HEAP_VALID h) &&
        overlaps a n (heapBase + 8 * getF s (F.FPH_HEAP_BASE h)) (8 * getF s (F.FPH_HEAP_CAPACITY h)), .undefined361 1),
      (s.dma.chans.any fun c => c.desc.isSome && getF s (F.DMA_CH_STATUS_STATE c.num) == 1 &&
        (overlaps a n (descAddr s c.num) 24 || overlaps a n (descAddr s c.num + 32) 32), .undefined453 1),
      ((List.range 2).any fun p => flag s (mp p F.MACA_CTRL_ENABLE) && overlaps a n (store p) 0x100000, .undefined515 3),
      ((List.range 4).any fun c => overlaps a n (mailboxRange s c).1 (mailboxRange s c).2, .undefined571 1)] with
    | some f => some f
    | none =>
      match someFault (queueMisuse s a bs) s.wq.queues with
      | some f => some f
      | none =>
        match indexMisuse s a bs with
        | some f => some f
        | none =>
          if ringMisuse s a bs then some (.undefined258 4)
          else match tableMisuse s a bs with | some f => some f | none => slotMisuse s a n

/-! ### Registers written -/

/-- What a write of a register leaves besides its fields: LEGACY changes only while the manager is off, and the queues of the other mode are gone
(R433); a detector switched off counts nothing (R393); a new rate or run of the PTP clock counts from now (R509); the watchdog's SECONDS is ignored
while it is armed (R542); writing 0 to PJ_CTRL.ENABLE clears it, and setting DUMP_ARM records the arm mark (R241, R255); a maintenance GO with OP 0 is rejected (R400); a receive ring enabled
takes what waits for it (R505, R519). -/
def afterWrite (old s : State) (b v : Nat) : Res :=
  let p := (b - 0x010C000000) / 0x100000
  let r := (b % 0x100) / 0x20
  if b = 0x010C000400 ∨ b = 0x010C000428 then .next { s with net := { s.net with ptpNs := ptpNow old, ptpAt := s.now } }
  else if b = 0x0102000000 then
    .next (if getF s F.WQ_CTRL_LEGACY = getF old F.WQ_CTRL_LEGACY then s
      else if flag old F.WQ_CTRL_ENABLE then setF s F.WQ_CTRL_LEGACY (getF old F.WQ_CTRL_LEGACY) else { s with wq := { s.wq with queues := [] } })
  else if b = 0x0100400018 ∧ flag old F.AON_WDOG_ENABLE = true then .next (setF s F.AON_WDOG_SECONDS (getF old F.AON_WDOG_SECONDS))
  else if b = 0x010F200000 then
    let s := if bitAt v 31 then s else setF s F.PJ_CTRL_ENABLE 0
    .next (if flag s F.PJ_CTRL_DUMP_ARM && !(flag old F.PJ_CTRL_DUMP_ARM) then { s with pj := { s.pj with armMark := getF s F.PJ_DUMP_SEQ_SEQ } } else s)
  else if b = 0x010100000C then .next { s with sc := { s.sc with streams := s.sc.streams.filter fun t => bitAt (getF s F.SC_STREAM_DETECT) t.1 } }
  else if b = 0x0101000210 ∧ bitAt v 31 = true ∧ bits v 0 2 = 0 then .next (setF s F.SC_MAINT_STATUS_REJECTED 1)
  else if within b 0x010C000000 0x200000 = true ∧ within (b % 0x100000) 0x100 0x100 = true ∧ b % 0x20 = 8 ∧
      flag s (mp p (F.MACA_RXR_CFG_ENABLE r)) = true then ringLook s p r
  else if within b 0x010C000000 0x200000 = true ∧ b % 0x100000 = 4 then .next (showRate s p)
  else if b = 0x010D000208 ∧ flag s F.SVC_RXR_CFG_ENABLE = true then ringLook s 2 0
  else .next s

/-- A register written whole or by half at an address the fabric accepts: `v` in its place within the register. -/
def regWrite (s : State) (rid a b width value : Nat) (r : RegFam) : Res :=
  let lo := 8 * (a - b)
  let v := value % 2 ^ (8 * width) * 2 ^ lo
  let old := composed s b r.fields
  let new := old - (old &&& ((2 ^ (8 * width) - 1) * 2 ^ lo)) + v
  if rid ≤ 2 ∧ reservedHit r v = true then .fault .reservedNonzero
  else
    match (if rid ≤ 1 then regMisuse s b old new else none) with
    | some f => .fault f
    | none =>
      let t := fieldsWrite rid b lo (8 * width) v r.fields s
      match (if rid ≤ 1 ∧ width = 8 ∧ new ≠ old ∧ placesRegion b = true then regionsClash t else none) with
      | some f => .fault f
      | none => afterWrite s t b v

/-! ### Pair channel contexts (R256, Table 06-19) -/

/-- The channel whose context is number `h`. -/
def chanOfCtx (s : State) (h : Nat) : Option PairCh := s.pj.chans.find? fun c => c.ctx == h

/-- TX_SEQ: the next data SEQ to send, that of the oldest frame not sent yet; 1, that of PAIR_HELLO, before the channel has its key (R256, R621). -/
def ctxTxSeq (c : PairCh) : Nat :=
  if c.st ≠ 2 then 1 else ((c.sent.find? fun f => f.2.2.2 == []).map Prod.fst).getD c.txSeq

/-- The 64 bytes of a context. -/
def ctxBytes (s : State) (h : Nat) : Bytes :=
  match chanOfCtx s h with
  | none => zeros 64
  | some c =>
    fit (le 1 c.st ++ le 1 c.path ++ le 2 c.fallback ++ le 2 c.slot ++ zeros 2 ++ le 8 c.partner ++ le 8 (ctxTxSeq c) ++ le 8 c.acked ++ le 8 c.rxSeq ++
      le 4 (match c.lastAckAt with | some t => (t - s.pwr.msAt) / ms % 2 ^ 32 | none => 0)) 64

/-- A write to a context: one whose STATE is not 0 is R258; of an idle one crew firmware sets FALLBACK_SESSION, KEY_SLOT, PARTNER_HULL and
STATE 1. Fields of the hardware are left alone. -/
def ctxWrite (s : State) (rid h o : Nat) (bs : Bytes) : Res :=
  let b := patch (ctxBytes s h) o bs
  let nonzero := decide (fld b 6 2 ≠ 0) || !(allZero (slice b 44 20))
  match chanOfCtx s h with
  | some c =>
    if c.st ≠ 0 then .fault (.undefined258 5)
    else if rid ≤ 2 ∧ nonzero = true then .fault .reservedNonzero
    else .next (putChan2 s { c with st := min 1 (fld b 0 1), fallback := fld b 2 2, slot := fld b 4 2, partner := fld b 8 8 })
  | none =>
    if rid ≤ 2 ∧ nonzero = true then .fault .reservedNonzero
    else
      let c := { newChan s (fld b 8 8) with ctx := h, st := min 1 (fld b 0 1), fallback := fld b 2 2, slot := fld b 4 2 }
      .next { s with pj := { s.pj with chans := s.pj.chans ++ [c] } }

/-! ### A write -/

/-- A failed access of an agent: recorded (R44), and an access fault where the agent is a crew core (R38), code 7 for a store and 5 for a load (R17). -/
def busFail (s : State) (rid core kind a : Nat) (wr : Bool) : State :=
  let s := fabLatch s kind rid wr a
  if rid ≤ 1 then emit s (.accessFault core (if wr then 7 else 5) a) else s

/-- A write at an address the fabric accepts. -/
def busStore (s : State) (rid core a width value : Nat) : Res :=
  let bs := le width value
  match busTarget a with
  | .reg b r => regWrite s rid a b width value r
  | .pair h o => ctxWrite s rid h o bs
  | .micro _ => .next (if rid = 2 ∨ !s.cox.locked then memWrite s a bs else s)
  | .mem =>
    match (if rid ≤ 1 then memMisuse s a bs else none) with
    | some f => .fault f
    | none =>
      let w := fabWrite (if rid ≤ 1 then coreWrote s core a width else s) rid a bs
      .next (if w.2 then (if overlaps a width ringBase (pjRingBytes s) then ringWritten w.1 else w.1) else if rid ≤ 1 then emit w.1 (.accessFault core 7 a) else w.1)
  | .shadow _ _ | .page _ _ _ | .unmapped => .next s

/-- A write on the fabric (R38): one that fails has no effect. -/
def busWrite (s : State) (rid core a width value : Nat) : Res :=
  match busFault s a width true with
  | some k => .next (busFail s rid core k a true)
  | none => busStore s rid core a width value

/-! ### The group and broadcast windows of the flash channels (R370 to R373) -/

/-- The member channels of a window: 8 is the broadcast window, which reaches all. -/
def windowMembers (s : State) (w : Nat) : List Nat :=
  (List.range 32).filter fun n => w == 8 || bitAt (getF s (F.FC_GROUPS_MEMBER n)) w

/-- The address of an offset in a window. -/
def windowAddr (w o : Nat) : Nat := if w = 8 then 0x010A000000 + o else 0x010A100000 + 0x10000 * w + o

/-- The window and offset of an address; none outside them. -/
def windowOf (a : Nat) : Option (Nat × Nat) :=
  if within a 0x010A000000 0x100000 then some (8, a - 0x010A000000)
  else if within a 0x010A100000 0x80000 then some ((a - 0x010A100000) / 0x10000, (a - 0x010A100000) % 0x10000)
  else none

/-- A write through a window fails as a unicast write to the offset would, and an offset no channel has is unmapped. -/
def windowFault (s : State) (w o width : Nat) (wr : Bool) : Option Nat :=
  if w > 8 ∨ o ≥ 0x100000 ∨ (w < 8 ∧ o ≥ 0x10000) then some 0 else busFault s (fcWindow 0 + o) width wr

/-- A REVIVE bit written through a window acts on each member (R371, R386): `ready` gives by channel whether the LUN gets ready. -/
def windowRevive (n o value ready : Nat) (s : State) : State :=
  if within o 0x1000 0x1000 && o % 128 == 4 && bitAt value 30 then lunRevive s n ((o - 0x1000) / 128) (b2n (bitAt ready n)) else s

/-- Every member written as a unicast write would. -/
def membersWrite (rid core o width value : Nat) (ready : Option Nat) : List Nat → State → Res
  | [], s => .next s
  | n :: ns, s =>
    andThen (busStore s rid core (fcWindow n + o) width value) fun s =>
      membersWrite rid core o width value ready ns (match ready with | some r => windowRevive n o value r s | none => s)

/-- A write through a window (R371): a window with no members ignores it. -/
def windowWrite (s : State) (rid core w o width value : Nat) (ready : Option Nat) : Res :=
  match windowFault s w o width true with
  | some k => .next (busFail s rid core k (windowAddr w o) true)
  | none => membersWrite rid core o width value ready (windowMembers s w) s

/-- An agent acts on the fabric: a crew core that runs, Cox or the debugger (with the port unlocked, R570) while its own domain runs, or an
engine; the fabric is in CORE. -/
def onBus (s : State) (rid core : Nat) (k : State → Res) : Res :=
  if rid ≤ 1 then coreRuns s core k
  else if (rid = 2 ∨ rid = 15) ∧ !(domainOn s .cox) then .next s
  else if rid = 15 ∧ s.pins.jtagLevel = 0 then .next s
  else whileCore s k

/-- The requester ID of an agent: a crew core's is its number's (Table 01-8). -/
def busRid (rid core : Nat) : Nat := if rid ≤ 1 then coreRid core else rid % 16

/-- REGISTER_WRITE: a write of an agent to a register, whose fields act by their types, or to memory. -/
def execRegisterWrite (rid core addr width value : Nat) (s : State) : Res :=
  onBus s rid core fun s =>
    match windowOf addr with
    | some (w, o) => windowWrite s (busRid rid core) core w o width value none
    | none => busWrite s (busRid rid core) core addr width value

/-- FC_GROUP_WINDOW_WRITE: a write through group window 0 to 7 or the broadcast window, 8 (R371). -/
def execFcGroupWindowWrite (rid core window offset width value ready : Nat) (s : State) : Res :=
  onBus s rid core fun s => windowWrite s (busRid rid core) core window offset width value (some ready)

/-! ### A read -/

/-- The value a register shows, with what it shows of other blocks' state. -/
def shownReg (s : State) (b : Nat) (r : RegFam) : Nat :=
  let n := (b - 0x0108000000) / 0x100000
  if within b 0x0108000000 0x2000000 ∧ b % 0x100000 = 8 then
    composed s b (r.fields.filter fun d => d.lo != 27) + 2 ^ 27 * b2n (fcIdle s n)
  else if within b 0x010E180000 0x10000 then fld (pentBytes s (getF s F.PENT_SEL_SLOT)) (b - 0x010E180000) 4
  else regValue s b r

/-- The counters of the data ports and of the pair link, which clear only on a 64-bit read where they are 64 bits wide (R511). -/
def wholeClear (b : Nat) : Bool := within b 0x010C000000 0x300000

/-- The RC fields of a register cleared, as far as their bits from `lo` on were read (R9). -/
def clearRead (b lo n : Nat) : List FDef → State → State
  | [], s => s
  | d :: ds, s =>
    let f := fieldAt d b
    let l := max d.lo lo
    let h := min (d.lo + d.width) (lo + n)
    let mask := (2 ^ (h - l) - 1) * 2 ^ (l - d.lo)
    clearRead b lo n ds (if d.ty = .rc ∧ l < h then setF s f (getF s f - (getF s f &&& mask)) else s)

/-- A register read at an address the fabric accepts. IRQ_CLAIM, PJ_ALLOC and MACA_PTP_SEC act as their own rows say. -/
def regRead (s : State) (a b width : Nat) (r : RegFam) : State × Nat :=
  let lo := 8 * (a - b)
  if within b 0x0100802000 0x800 ∧ b % 0x100 = 4 then claimRead s ((b - 0x0100802000) / 0x100)
  else if within b 0x010F200100 128 ∧ b % 16 = 0 ∧ a = b then allocRead s ((b - 0x010F200100) / 16) width
  else if b = 0x010C000408 ∧ a = b then ptpSecRead s width
  else if b = 0x010C000408 then (s, bits (ptpNow s / sec % 2 ^ 48) 32 32)
  else (if wholeClear b && r.wide && width != 8 then s else clearRead b lo (8 * width) r.fields s, bits (shownReg s b r) lo (8 * width))

/-- A read at an address the fabric accepts: the value, none where the target's error fails it. -/
def busLoad (s : State) (rid a width : Nat) : State × Option Nat :=
  match busTarget a with
  | .reg b r => ((regRead s a b width r).1, some (regRead s a b width r).2)
  | .shadow b r =>
    (s, some (bits ((r.fields.map fun d => (kvGet s.shadow (fldKey (fieldAt d b))).getD 0 * 2 ^ d.lo).sum) (8 * (a - (b + 0xC0000))) (8 * width)))
  | .micro _ => (s, some (memNat s a width))
  | .page n e o => (s, some (fld (((s.fc.pages.find? fun p => p.1 == 8 * n + e).map Prod.snd).getD []) o width))
  | .pair h o => (s, some (fld (ctxBytes s h) o width))
  | .mem =>
    let r := fabRead s rid a width
    (r.1, r.2.map leNat)
  | .unmapped => (s, some 0)

/-- A read through a window (R372): for each field the OR over the members, RC fields reading 0. -/
def windowRead (s : State) (w o width : Nat) : Nat :=
  (windowMembers s w).foldl (fun v n =>
    match busTarget (fcWindow n + o) with
    | .reg b r =>
      let rc := (r.fields.filter fun d => d.ty == .rc).map fun d => (2 ^ d.width - 1) * 2 ^ d.lo
      let x := shownReg s b r
      v ||| bits (x - (x &&& rc.sum)) (8 * (fcWindow n + o - b)) (8 * width)
    | .page _ _ _ | .micro _ => v ||| ((busLoad s 0 (fcWindow n + o) width).2.getD 0)
    | _ => v) 0

/-- A read on the fabric by an agent: the value returned, 0 where it failed (R38). -/
def busRead (s : State) (rid core a width : Nat) : State × Nat :=
  match windowOf a with
  | some (w, o) =>
    match windowFault s w o width false with
    | some k => (busFail s rid core k a false, 0)
    | none => (s, windowRead s w o width)
  | none =>
    match busFault s a width false with
    | some k => (busFail s rid core k a false, 0)
    | none =>
      match busLoad s rid a width with
      | (s, some v) => (s, v)
      | (s, none) => (if rid ≤ 1 then emit s (.accessFault core 5 a) else s, 0)

/-- A read of the rig memory window waits until the swap has ended (R301). -/
def swapWaits (s : State) (a width : Nat) : Bool := flag s F.RIG_STATUS_SWAPPING && overlaps a width rigBase 0x1000000

/-- RC_COUNTER_READ: a read of an agent, which clears the RC fields it returns (R9); reads in halves clear the half read. One that waits under R301 returns
nothing yet: its row has to come again. -/
def execRcCounterRead (rid core addr width : Nat) (s : State) : Res :=
  onBus s rid core fun s =>
    if swapWaits s addr width then .next s else
    let r := busRead s (busRid rid core) core addr width
    .next (emit r.1 (.readValue addr r.2))

end Sys2Proof.Machine
end

