-- ==== Sys2Proof/Machine/Pins.lean ====
section
/-! DEFINITION. The SMBus target (R612, R613) and the JTAG port (R614, R570). -/

namespace Sys2Proof.Machine

/-! ### Flash channel balls -/

/-- What the balls of a flash channel do (R595): every one held at VSS; CE_N0 to CE_N7 high and WP_N low; or WP_N high with the sequencer running. -/
inductive ChannelBalls where
  | atVss
  | deselected
  | running
  deriving DecidableEq, Repr

/-- The balls of flash channel `n` (R595). -/
def channelBalls (s : State) (n : Nat) : ChannelBalls :=
  if !(domainOn s .flash) then .atVss else if flag s (F.FC_CTRL_RUN n) then .running else .deselected

/-! ### SMBus -/

/-- `n` single-bit steps of the SMBus CRC-8, polynomial x^8 + x^2 + x + 1 (log entry 6). -/
def crc8Bits : Nat → Nat → Nat
  | 0, c => c
  | n + 1, c => crc8Bits n (if c ≥ 0x80 then (c * 2 % 0x100) ^^^ 0x07 else c * 2)

/-- The packet error code of the bytes of a transfer. -/
def pec (bs : Bytes) : Byte := BitVec.ofNat 8 (bs.foldl (fun c b => crc8Bits 8 (c ^^^ b.toNat)) 0)

/-- The protocols of Table 21-11. -/
inductive SmbProtocol where
  | byte | word | block
  deriving DecidableEq, Repr

/-- The register a command code names, as its protocol and bytes (Table 21-11); none for a code not in the table. -/
def smbRegister (s : State) (command : Nat) : Option (SmbProtocol × Bytes) :=
  let causes := getF s F.PWR_RESET_CAUSE_CAUSE + 256 * getF s F.PWR_WAKE_CAUSE_CAUSE
  if command = 0x00 then some (.word, le 2 0x7160)
  else if command = 0x01 then some (.byte, le 1 0xB1)
  else if command = 0x02 then some (.byte, le 1 (getF s F.PWR_STATUS_STATE))
  else if command = 0x03 then some (.byte, le 1 (svcDevState s))
  else if command = 0x04 then some (.word, le 2 (getF s F.PWR_THERM_TJ + 512 * getF s F.PWR_THERM_STEP))
  else if command = 0x05 then some (.byte, le 1 (if domainOn s .svc then getF s F.SVC_INFO_FLAGS else 0))
  else if command = 0x06 then some (.block, le 4 (opsec s))
  else if command = 0x07 then some (.block, le 4 (getF s F.AON_PCYCLES_COUNT))
  else if command = 0x08 then some (.block, le 8 Config.hull)
  else if command = 0x09 then some (.word, le 2 causes)
  else if command = 0x0A then some (.word, le 2 (getF s F.ES_SENSE_MV))
  else none

/-- The answer to a read: the data, a block's count first, and the PEC over the whole transfer. -/
def smbFrame (s : State) (command : Nat) (p : SmbProtocol) (data : Bytes) : Bytes :=
  let d := if p = .block then le 1 data.length ++ data else data
  d ++ [pec (le 1 (2 * s.pins.smbAddress) ++ le 1 command ++ le 1 (2 * s.pins.smbAddress + 1) ++ d)]

/-- A read by a protocol (R612, R613): addressed to this device, a code of the table is latched and answered, in every power state; an unknown code is
NACKed. A register read by another protocol than the table gives it: the spec states no bytes. -/
def smbRead (s : State) (address command : Nat) (p : SmbProtocol) : Res :=
  if address ≠ s.pins.smbAddress then .next s
  else
    match smbRegister s command with
    | none => .next (emit s (.smbus none))
    | some (q, data) =>
      let s := { s with pins := { s.pins with smbLatch := data } }
      if q = p then .next (emit s (.smbus (some (smbFrame s command p data))))
      else
        let f := freshBytes s (match p with | .byte => 2 | .word => 3 | .block => data.length + 2)
        .next (emit f.2 (.smbus (some f.1)))

/-- SMBUS_READ_BYTE (R613). -/
def execSmbusReadByte (address command : Nat) (s : State) : Res := smbRead s address command .byte

/-- SMBUS_READ_WORD (R613). -/
def execSmbusReadWord (address command : Nat) (s : State) : Res := smbRead s address command .word

/-- SMBUS_BLOCK_READ (R613). -/
def execSmbusBlockRead (address command : Nat) (s : State) : Res := smbRead s address command .block

/-- SMBUS_WRITE_NACK (R612): a command code followed by a data byte. An unknown code is NACKed, and so is the data byte after any. -/
def execSmbusWriteNack (address command _data : Nat) (s : State) : Res :=
  if address ≠ s.pins.smbAddress then .next s
  else
    let s := match smbRegister s command with
      | some (_, d) => { s with pins := { s.pins with smbLatch := d } }
      | none => s
    .next (emit s (.smbus none))

/-- SMBUS_ALERT_RESPONSE (R612): a host read of the Alert Response Address that returns `address`. This device answers while it holds SMB_ALERT_N low, and
releases it when the address returned is its own; the lowest bit of the byte is open. -/
def execSmbusAlertResponse (address : Nat) (s : State) : Res :=
  if s.pins.smbAlertN || address != s.pins.smbAddress then .next s
  else
    let f := fresh s
    let s := { f.2 with pins := { f.2.pins with smbAlertN := true } }
    .next (emit s (.smbus (some (le 1 (2 * address + f.1 % 2)))))

/-- SMBUS_CLOCK_LOW_TIMEOUT (R612): the clock has been low for 25 to 35 ms; the target releases the bus and drops the transfer. -/
def execSmbusClockLowTimeout (s : State) : Res := .next { s with pins := { s.pins with smbLatch := [] } }

/-! ### JTAG -/

/-- IDCODE (R614). -/
def jtagIdcode : Bytes := le 4 (1 * 2 ^ 28 + 0x7160 * 2 ^ 12 + Config.jtagManufacturer.toNat * 2 + 1)

/-- The TAP shifts out a value under an instruction. -/
def jtagOut (s : State) (action : Nat) (b : Bytes) : State :=
  emit { s with pins := { s.pins with jtagIr := action, jtagDr := b } } (.jtag b)

/-- JTAG_ACCESS (R614, R570): 0 IDCODE; 1 BYPASS, `value` of `width` bits shifted through the one-bit register; 2 SAMPLE/PRELOAD and 3 EXTEST of `width`
boundary cells, whose order the spec does not give; 4 and 5 a debug read and write of the fabric with requester 15; 6 a JTAG reset, with cause 6. While
the COX domain is off the TAP does not answer; while the port is locked 3 to 6 are not available. -/
def execJtagAccess (action addr width value : Nat) (s : State) : Res :=
  if !(domainOn s .cox) then .next s
  else if action = 0 then .next (jtagOut s 0 jtagIdcode)
  else if action = 1 then .next (jtagOut s 1 (le (ceilDiv width 8) (value * 2 % 2 ^ width)))
  else if action = 2 then .next (jtagOut (freshBytes s (ceilDiv width 8)).2 2 (freshBytes s (ceilDiv width 8)).1)
  else if s.pins.jtagLevel = 0 then .next s
  else if action = 3 then .next (jtagOut (freshBytes s (ceilDiv width 8)).2 3 (freshBytes s (ceilDiv width 8)).1)
  else if action = 4 then
    onBus s 15 0 fun s =>
      let r := busRead s 15 0 addr width
      .next (jtagOut r.1 4 (le width r.2))
  else if action = 5 then
    andThen (execRegisterWrite 15 0 addr width value s) fun s => .next { s with pins := { s.pins with jtagIr := 5 } }
  else if action = 6 then execDeviceReset 6 s
  else .next s

end Sys2Proof.Machine
end

