-- ==== Sys2Proof/Machine/ServiceCommands.lean ====
section
/-! DEFINITION. The service opcodes (17, Table 17-3): those the responder answers, those crew firmware answers, and those the resident loader answers in
their place (R566). -/

namespace Sys2Proof.Machine

/-! ### The responder (R524, R525) -/

/-- The oldest frame of an opcode taken out of a list of frames. -/
def takeFrame (op : Nat) : List Bytes → Option (Bytes × List Bytes)
  | [] => none
  | f :: fs => if svcOp f = op then some (f, fs) else (takeFrame op fs).map fun r => (r.1, f :: r.2)

/-- The row of a responder opcode: the oldest request of it that has arrived is answered, while the SVC domain is on and RESPOND is 1. -/
def onResponder (op : Nat) (s : State) (run : State → Bytes → State) : Res :=
  if !(domainOn s .svc) || !(flag s F.SVC_CTRL_RESPOND) then .next s
  else
    match takeFrame op s.svc.responder with
    | none => .next s
    | some (f, rest) => .next (run { s with svc := { s.svc with responder := rest } } f)

/-- The IDENTIFY body (Table 17-4). -/
def identifyBody (s : State) : Bytes :=
  let key := ((List.range 25).map fun i => le 4 (getF s (F.SVC_IDKEY_BYTES i))).flatten
  le 8 Config.hull ++ le 1 (svcDevState s) ++ le 1 (powerCode s) ++ le 1 (getF s F.SVC_INFO_FLAGS) ++ zeros 1 ++ le 4 (opsec s) ++
    le 4 (getF s F.AON_PCYCLES_COUNT) ++ zeros 4 ++ svcNonce s ++ key.take 97 ++ zeros 7

/-- IDENTIFY (R525, Table 17-4). -/
def execIdentify (s : State) : Res := onResponder 1 s fun s f => svcReply s f true ST.ok 0 0 (identifyBody s)

/-- WAKE (R525): ST_OK; the frame has been judged by the wake patterns when it arrived. -/
def execWake (s : State) : Res := onResponder 2 s fun s f => svcReply s f true ST.ok 0 0 []

/-- LOG_READ (R525, R582, R583): the records from ARG0 on, LOW in ARG0 and their number in ARG1 of the reply. -/
def execLogRead (s : State) : Res :=
  onResponder 3 s fun s f =>
    let n := svcArg1 f
    if n = 0 ∨ n > 16 then svcReply s f true ST.malformed 0 0 []
    else
      let rs := logRead s (svcArg0 f) n
      let low := getF s F.LOG_LOW_SEQ
      if rs.isEmpty then svcReply s f true ST.notFound low 0 []
      else svcReply s f true ST.ok low rs.length (rs.map recBytes).flatten

/-- PENT_READ (R525): 1,024 bytes of a snapshot. -/
def execPentRead (s : State) : Res :=
  onResponder 4 s fun s f =>
    let slot := svcArg0 f % 64
    let off := svcArg1 f
    if svcArg0 f ≥ 64 then svcReply s f true ST.malformed 0 0 []
    else if off % 1024 ≠ 0 ∨ off ≥ 65536 then svcReply s f true ST.length 0 0 []
    else if !(s.pent.slots.any fun p => p.slot == slot) then svcReply s f true ST.notFound 0 0 []
    else svcReply s f true ST.ok 0 0 (slice (pentBytes s slot) off 1024)

/-! ### Crew firmware's rows 5 and 6 (R524) -/

/-- The MAC and SEQ of a request are right (R523); then its SEQ is the last accepted. -/
def svcAccept (s : State) (f : Bytes) : Option State :=
  match s.cox.enclosure with
  | none => none
  | some key =>
    let p := svcSigned f
    if !s.cox.dropped && domainOn s .cox && svcAuth f && svcMacRight s key p && decide (svcSeqOf p > s.cox.svcSeq) then
      some { s with cox := { s.cox with svcSeq := svcSeqOf p } }
    else none

/-- The row of an opcode that crew firmware answers: the oldest request of it that its ring was given is taken, refused unless row 5 of Table 17-2
lets it pass, and dealt with. A request that the row keeps back stays. -/
def onService (op : Nat) (s : State) (run : State → Bytes → Res) : Res :=
  if !(coreLive s) || s.pwr.dev == 7 then .next s
  else
    match takeFrame op s.svc.requests with
    | none => .next s
    | some (f, rest) =>
      let s' := { s with svc := { s.svc with requests := rest } }
      let free := op == 0x10 && s.cox.enclosure.isNone && !(svcAuth f)
      match (if free then some s' else svcAccept s' f) with
      | some s => run s f
      | none => .next (svcReply (logCrew s' EV.svcAuthFailed) f false ST.authFailed 0 0 [])

/-- KEY_SET (R526): the enclosure key installed through Cox; without AUTH, EV_SVC_KEY_SET. -/
def execKeySet (s : State) : Res :=
  onService 0x10 s fun s f =>
    if svcLen f ≠ 145 then .next (svcReply s f false ST.malformed 0 0 [])
    else if s.cox.dropped then .next (svcReply s f false ST.stateConflict 0 0 [])
    else
      let s := { s with cox := { s.cox with enclosure := some (keySetKey s (svcData f)) } }
      let s := if svcAuth f then s else logCrew s EV.svcKeySet
      .next (svcReply s f false ST.ok 0 0 [])

/-- The TENANT_SET capsule that a TENANT_INIT stands for, its secret in the clear (R526). -/
def initCapsule (s : State) (f : Bytes) : Bytes :=
  let b := svcData f
  let mask := svcMask s (s.cox.enclosure.getD []) 0x11 (svcSeqOf (svcSigned f))
  let body := xorBytes (b.take 48) mask ++ b.drop 48
  [0x28] ++ zeros 15 ++ le 4 b.length ++ zeros 16 ++ le 4 (svcArg0 f % 65536) ++ zeros 24 ++ body

/-- The request of the TENANT_INIT whose change is under way: the first of them in the list. -/
def initWaiting (s : State) : Option (Nat × Bytes) :=
  match s.svc.init, takeFrame 0x11 s.svc.requests with
  | some tag, some (f, _) => some (tag, f)
  | _, _ => none

/-- TENANT_INIT while its change is under way: its reply follows the change's (R526, R133); a change that its acting stroke has not run is taken up
again. -/
def initProgress (s : State) (tag : Nat) (f : Bytes) : State :=
  match s.kv.forwarded.find? fun r => r.1 == 2 ^ 64 && r.2.1 == tag with
  | none => settleAll s
  | some r =>
    let s := { s with kv := { s.kv with forwarded := s.kv.forwarded.filter (· != r) }, svc := { s.svc with init := none } }
    if r.2.2.length < 32 then
      let q := routeChange s (initCapsule s f) (svcArg0 f % 65536) 2 0
      { q.1 with svc := { q.1.svc with init := some q.2 } }
    else
      let rest := ((takeFrame 0x11 s.svc.requests).map Prod.snd).getD []
      svcReply { s with svc := { s.svc with requests := rest } } f false (fld r.2.2 8 2) (fld r.2.2 16 8) (fld r.2.2 24 8) []

/-- TENANT_INIT (R526): the first tenant, as a TENANT_SET change; ST_EXISTS when the device holds any tenant. The device and group states decide it as
they decide a TENANT_SET (R139). -/
def execTenantInit (s : State) : Res :=
  match initWaiting s with
  | some (tag, f) => if coreLive s && s.pwr.dev != 7 then .next (initProgress s tag f) else .next s
  | none =>
    onService 0x11 s fun s f =>
      let cap := initCapsule s f
      if svcLen f < 56 ∨ adminBodyBad cap = true ∨ svcArg0 f ≥ 65536 then .next (svcReply s f false ST.malformed 0 0 [])
      else if !s.kv.tenants.isEmpty then .next (svcReply s f false ST.exists 0 0 [])
      else
        match check9 s cap with
        | (s, some (st, gs, hint)) => .next (svcReply s f false st (stateWord s gs 0) hint [])
        | (s, none) =>
          let q := routeChange { s with svc := { s.svc with requests := f :: s.svc.requests } } cap (svcArg0 f) 2 0
          .next { q.1 with svc := { q.1.svc with init := some q.2 } }

/-- ESCROW_SET (R526, R481): the owner escrow key unmasked and installed. -/
def execEscrowSet (s : State) : Res :=
  onService 0x12 s fun s f =>
    if svcLen f ≠ 32 then .next (svcReply s f false ST.malformed 0 0 [])
    else
      let mask := svcMask s (s.cox.enclosure.getD []) 0x12 (svcSeqOf (svcSigned f))
      .next (svcReply (setEscrow s (xorBytes (svcData f) (mask.take 32))) f false ST.ok 0 0 [])

/-- ESCROW_READ (R525, R488): the escrow blob of a namespace, ST_NOT_FOUND where there is none (Table 15-6). -/
def execEscrowRead (s : State) : Res :=
  onService 0x13 s fun s f =>
    if svcArg0 f ≥ 4096 then .next (svcReply s f false ST.malformed 0 0 [])
    else match nsOf s (svcArg0 f) with
    | none => .next (svcReply s f false ST.notFound 0 0 [])
    | some n => .next (if allZero n.escrow then svcReply s f false ST.notFound 0 0 [] else svcReply s f false ST.ok 0 0 (fit n.escrow 64))

/-! ### Pieces (R525) -/

/-- A piece put among those gathered: a piece at offset 0 discards the earlier ones, a repeat overwrites. -/
def gatherPiece (ps : List (Nat × Bytes)) (off : Nat) (b : Bytes) : List (Nat × Bytes) :=
  let old := if off = 0 then [] else ps
  let was := ((old.find? fun p => p.1 == off).map Prod.snd).getD []
  (off, b ++ was.drop b.length) :: old.filter fun p => p.1 != off

/-- The first `len` bytes of the gathered pieces: none where one is missing. -/
def gathered (ps : List (Nat × Bytes)) (len : Nat) : Option Bytes :=
  let parts := (List.range (ceilDiv len 1024)).map fun i =>
    let n := min 1024 (len - 1024 * i)
    (ps.find? fun p => p.1 == 1024 * i).bind fun p => if p.2.length < n then none else some (p.2.take n)
  if parts.all Option.isSome then some (parts.map fun p => p.getD []).flatten else none

/-- The check of a piece: 0 where it is in order, ST_MALFORMED for its form, ST_LENGTH beyond the limit. -/
def pieceStatus (f : Bytes) (limit : Nat) : Nat :=
  if svcArg0 f % 1024 ≠ 0 ∨ svcLen f = 0 ∨ svcLen f > 1024 then ST.malformed
  else if svcArg0 f + svcLen f > limit then ST.length
  else ST.ok

/-- 48 MiB, the limit of a bundle. -/
def imageLimit : Nat := 48 * 1024 * 1024
/-- 256 MiB, the limit of a container. -/
def rigLimit : Nat := 256 * 1024 * 1024

/-- A piece of a bundle gathered, with its status. -/
def takeImage (s : State) (f : Bytes) : State × Nat :=
  let st := pieceStatus f imageLimit
  if st ≠ ST.ok then (s, st) else ({ s with svc := { s.svc with image := gatherPiece s.svc.image (svcArg0 f) (svcData f) } }, st)

/-- IMAGE_DATA (R525). -/
def execImageData (s : State) : Res :=
  onService 0x20 s fun s f =>
    let r := takeImage s f
    .next (svcReply r.1 f false r.2 0 0 [])

/-- The gathered bundle with a length and a CRC, none where a piece is missing or the CRC is wrong. -/
def imageWhole (s : State) (f : Bytes) : Option Bytes :=
  if svcArg0 f > imageLimit then none
  else (gathered s.svc.image (svcArg0 f)).bind fun b => if crc32c b = svcArg1 f % 2 ^ 32 then some b else none

/-- IMAGE_END (R525, R563): the bundle handed to IMAGE_INSTALL; ST_OK once that has ended, and ST_STATE_CONFLICT where the update phase or the fallback
map refuses it. -/
def execImageEnd (s : State) : Res :=
  onService 0x21 s fun s f =>
    if svcArg1 f ≥ 2 ^ 32 then .next (svcReply s f false ST.malformed 0 0 [])
    else match imageWhole s f with
    | none => .next (svcReply s f false ST.integrity 0 0 [])
    | some b =>
      if installCheck s b.length (crc32c b) b false = 4 then .next (svcReply s f false ST.stateConflict 0 0 [])
      else .next (svcReply (showCox (installImage s b)) f false ST.ok 0 0 [])

/-- RIG_DATA (R525). -/
def execRigData (s : State) : Res :=
  onService 0x28 s fun s f =>
    let st := pieceStatus f rigLimit
    let s := if st = ST.ok then { s with svc := { s.svc with rig := gatherPiece s.svc.rig (svcArg0 f) (svcData f) } } else s
    .next (svcReply s f false st 0 0 [])

/-- RIG_STAGE (R525, R302): the gathered container staged, the result returned. The request waits while the loader works. -/
def execRigStage (s : State) : Res :=
  if flag s F.RIG_STATUS_BUSY || flag s F.RIG_STATUS_SWAPPING then .next s
  else
    onService 0x29 s fun s f =>
      match if svcArg0 f > rigLimit then none else gathered s.svc.rig (svcArg0 f) with
      | none => .next (svcReply s f false ST.integrity 0 0 [])
      | some c =>
        let s := crewStore s (getF s F.RIG_SRC_ADDR_ADDR) c
        andThen (rigStageEnd (setF s F.RIG_SRC_LEN_BYTES c.length)) fun s =>
          if flag s F.RIG_STATUS_ERROR then .next (svcReply s f false ST.integrity (getF s F.RIG_STATUS_ERRCODE) 0 [])
          else .next (svcReply s f false ST.ok (getF s F.RIG_STAGED_EPOCH_EPOCH) 0 [])

/-! ### Maintenance (R525, R263) -/

/-- SCAN_FULL (R525): the next start runs the full scan of R359. -/
def execScanFull (s : State) : Res :=
  onService 0x30 s fun s f => .next (svcReply { s with pwr := { s.pwr with fullScan := true } } f false ST.ok 0 0 [])

/-- SERVICE_ENTER (R525, R263, Table 18-4): the device's seat declared lost in every group, then SERVICE. -/
def execServiceEnter (s : State) : Res :=
  onService 0x31 s fun s f =>
    if s.pwr.dev = 6 then .next (svcReply s f false ST.ok 0 0 [])
    else if s.pwr.dev ≠ 4 ∧ s.pwr.dev ≠ 5 then .next (svcReply s f false ST.stateConflict 0 0 [])
    else
      let s := declareSelf s
      .next (svcReply (sendAllStatus { s with pwr := { s.pwr with dev := 6 } }) f false ST.ok 0 0 [])

/-- SERVICE_LEAVE (R525, R211, Table 18-4): to READY, where the device rejoins its groups, or to READ_ONLY while a cause of it stands. -/
def execServiceLeave (s : State) : Res :=
  onService 0x32 s fun s f =>
    if s.pwr.dev ≠ 6 then .next (svcReply s f false ST.stateConflict 0 0 [])
    else if s.media.readOnly.isSome then
      .next (svcReply (sendAllStatus (logCrew { s with pwr := { s.pwr with dev := 5 } } EV.readOnly)) f false ST.ok 0 0 [])
    else
      let s := s.groups.foldl (fun s g => ownSeatLost s g.id) { s with pwr := { s.pwr with dev := 4 } }
      .next (svcReply (sendAllStatus s) f false ST.ok 0 0 [])

/-! ### The resident loader (R566) -/

/-- LOADER_SERVICE (R566): in HALTED with no startable image the resident loader takes the oldest request: IMAGE_DATA and IMAGE_END with AUTH checked,
every other crew opcode ST_STATE_CONFLICT. A bundle whose CRC passes is written, recorded as TRIAL, and the device is reset with cause 4; its reply
is on the segment before that. -/
def execLoaderService (s : State) : Res :=
  if !(loaderServes s && domainOn s .svc) then .next s
  else
    match s.svc.requests with
    | [] => .next s
    | f :: rest =>
      let s := { s with svc := { s.svc with requests := rest } }
      let op := svcOp f
      if op ≠ 0x20 ∧ op ≠ 0x21 then .next (svcReply s f false ST.stateConflict 0 0 [])
      else
        match svcAccept s f with
        | none => .next (svcReply (logSubmit s 3 EV.svcAuthFailed 0 0 0 0).1 f false ST.authFailed 0 0 [])
        | some s =>
          if op = 0x20 then
            let r := takeImage s f
            .next (svcReply r.1 f false r.2 0 0 [])
          else
            match imageWhole s f with
            | none => .next (svcReply s f false ST.integrity 0 0 [])
            | some b =>
              let s := svcReply (installImage s b) f false ST.ok 0 0 []
              let s := emitAll s (s.svc.replies.map Out.svc)
              .next (deviceReset s 4)

end Sys2Proof.Machine
end

