-- ==== Sys2Proof/Machine/WorkQueue.lean ====
section
/-! DEFINITION. The commands of the work queue manager (12): doorbells, polls, taking and completing entries, NOP, holding a
queue, creating, destroying and restarting. -/

namespace Sys2Proof.Machine

/-- A read of the entry side of an index block: SQ_PI of a to-block queue, SQ_CI of a from-block queue, with checks 3 and 5 of
Table 12-5. -/
def readSq (s : State) (x : Queue) : State :=
  match fabRead s 5 x.idx 8 with
  | (s, none) => wqStop s x 5 x.sqCi
  | (s, some b) =>
    let x := if x.fromBlock then { x with sqCi := fld b 4 4 } else { x with sqPi := fld b 0 4 }
    if idxSub x.sqPi x.sqCi > 2 ^ x.log2s then wqStop s x 3 x.sqCi else putQueue s x

/-- A read of CQ_CI, after which held completions go out as room appears. -/
def readCq (s : State) (x : Queue) : State :=
  match fabRead s 5 x.idx 16 with
  | (s, none) => wqStop s x 5 x.sqCi
  | (s, some b) =>
    let x := { x with cqCi := fld b 12 4 }
    if idxSub x.cqPi x.cqCi > 2 ^ x.log2c then wqStop s x 3 x.sqCi
    else let p := cqFlush x.held.length s x; putQueue p.1 p.2

/-- The memory that a doorbell makes the manager read: the queue's index block and, of a to-block queue, the slots newly posted. -/
def postedRanges (s : State) (x : Queue) : List (Nat × Nat) :=
  let n := if x.fromBlock then 0 else min (2 ^ x.log2s) (idxSub (peekNat s x.idx 4) x.sqPi)
  (x.idx, 16) :: (List.range n).map fun k => (sqSlot x (x.sqPi + k), 64)

/-- WQ_DOORBELL with CQ 0 (R419): a doorbell to a queue that is ABSENT, or above 63 in legacy mode, does nothing. -/
def execWqDoorbellSq (queue : Nat) (s : State) : Res := whileCore s fun s =>
  match queueOf s queue with
  | some x =>
    if x.poll = 0 || x.fromBlock then whenFenced s (postedRanges s x) (.next (readSq s x)) else .next s
  | none => .next s

/-- WQ_DOORBELL with CQ 1 (R419, R425, R427). -/
def execWqDoorbellCq (queue : Nat) (s : State) : Res := whileCore s fun s =>
  match queueOf s queue with
  | some x => .next (if x.fromBlock then s else readCq s x)
  | none => .next s

/-- One poll of a queue in poll mode (R419): the slot at the next index is posted when its phase is that of the index; while
completions are held, CQ_CI is read as well. -/
def execWqPoll (queue : Nat) (s : State) : Res := whileCore s fun s =>
  match queueOf s queue with
  | some x =>
    if x.poll = 0 ∨ x.fromBlock = true ∨ x.state ≠ 1 ∨ flag s F.WQ_CTRL_ENABLE = false then .next s
    else
      let s := countF s F.WQ_CNT_POLL_COUNT 1
      match fabRead s 5 (sqSlot x x.sqPi) 64 with
      | (s, none) => .next (wqStop s x 5 x.sqCi)
      | (s, some b) =>
        let posted := fld b 3 1 % 2 == phaseOf x.log2s x.sqPi && decide (idxSub x.sqPi x.sqCi < 2 ^ x.log2s)
        let x := if posted then { x with sqPi := idxAdd x.sqPi (max 1 (min 4 (fld b 2 1))) } else x
        .next (if x.held.isEmpty then putQueue s x else readCq s x)
  | none => .next s

/-- The queue is held under R422. -/
def wqHeld (s : State) (q : Nat) : Bool :=
  flag s F.WQ_ECINV_HOLD && flag s F.WQ_ECINV_HELD && getF s F.WQ_ECINV_QUEUE == q

/-- Crew firmware wrote a nonzero reserved field in the COMMON field of an entry (R436). -/
def commonReserved (b : Bytes) : Bool :=
  decide (fld b 1 1 ≥ 4) || decide (fld b 3 1 ≥ 2) || decide (fld b 4 4 ≠ 0)

/-- A checked entry taken: SQ_CI rises and is written, the entry stands among the taken, the batch goes on. -/
def wqTake (s : State) (x : Queue) (b : Bytes) (n : Nat) : State :=
  let inBatch := bitAt (fld b 1 1) 0
  let last := bitAt (fld b 1 1) 1
  let pos := match x.batch with | some (f, k) => (f, k) | none => (x.sqCi, 0)
  let t : Taken := ⟨x.num, x.sqCi, b, if inBatch then some pos else none, inBatch && last, none, false⟩
  let x := { x with sqCi := idxAdd x.sqCi n, batch := if inBatch && !last then some (pos.1, pos.2 + 1) else none }
  let s := putQueue s { x with holdback := false }
  let s := (fabWrite s 5 (x.idx + 4) (le 4 x.sqCi)).1
  countF { s with wq := { s.wq with taken := s.wq.taken ++ [t] } } F.WQ_CNT_TAKEN_COUNT 1

/-- The checks of Table 12-5 on a posted entry, in order, and its taking. -/
def wqCheckTake (s : State) (x : Queue) : Res :=
  match fabRead s 5 (sqSlot x x.sqCi) 64 with
  | (s, none) => .next (wqStop s x 5 x.sqCi)
  | (s, some h) =>
    let op := fld h 0 1
    let inBatch := bitAt (fld h 1 1) 0
    let last := bitAt (fld h 1 1) 1
    match opSlots op with
    | none => .next (wqStop s x 1 x.sqCi)
    | some n =>
      if !(opAllowed s x.num op) then .next (wqStop s x 1 x.sqCi)
      else if fld h 2 1 ≠ n ∨ n > idxSub x.sqPi x.sqCi then .next (wqStop s x 2 x.sqCi)
      else if (!inBatch && (x.batch.isSome || last)) || (match x.batch with | some (_, k) => decide (k ≥ 1024) | none => false) then
        .next (wqStop s x 4 x.sqCi)
      else if commonReserved h then .fault (.undefined436 7)
      else
        match readSlots s x x.sqCi n with
        | (s, none) => .next (wqStop s x 5 x.sqCi)
        | (s, some b) => .next (wqTake s x b n)

/-- The block a queue is bound to takes entries: CIP, DIG, EC and the flash channels have an ENABLE bit that says so (R311,
R374, R494). -/
def blockTakes (s : State) (q : Nat) : Bool :=
  let b := if q = 0 && !(wqLegacy s) then 0 else queueBlock s q
  if b = 2 then flag s F.CIP_CTRL_ENABLE
  else if b = 3 then flag s F.DIG_CTRL_ENABLE
  else if b = 6 then flag s F.EC_CTRL_ENABLE
  else if b = 4 then (match fcBinding s q with | some n => flag s (F.FC_CTRL_ENABLE n) && fcRuns s n | none => false)
  else true

/-- The manager takes the next posted entry of a queue and hands it to its block (R421, R425, R428). In legacy mode the block's
arbiter must choose that queue (R434). Nothing is taken while the manager is off, the queue is not RUNNING, is held, has nothing
posted, or waits behind a DESTROY; held back, it sets HOLDBACK. -/
def execWqEntryTake (queue : Nat) (s : State) : Res := whileCore s fun s =>
  match queueOf s queue with
  | none => .next s
  | some x =>
    if !(flag s F.WQ_CTRL_ENABLE) || x.fromBlock || x.state != 1 || x.sqPi == x.sqCi || wqHeld s queue ||
        (queue == 0 && s.wq.destroying.isSome) || !(blockTakes s queue) then .next s
    else if wqLegacy s && !(match legacyPick s (queueBlock s queue) with | some p => p.1 == queue | none => false) then .next s
    else if takenOpen s queue + dueCount s queue + x.held.length ≥ cqFree x + 32 then
      .next (if x.holdback then s else countF (putQueue s { x with holdback := true }) F.WQ_CNT_HOLDBACK_COUNT 1)
    else if wqLegacy s then
      match legacyPick s (queueBlock s queue) with
      | some p => wqCheckTake (legacyTook s (queueBlock s queue) queue p.2) x
      | none => .next s
    else wqCheckTake s x

/-- An entry or batch has ended and its completion is written, or held until room appears (R424, R425). -/
def execWqCompletionDue (queue : Nat) (s : State) : Res := whileCore s fun s => .next (wqComplete s queue)

/-- NOP ends at once with no action, bytes 0 to 11 of its completion 0 (R417, R418). -/
def execWqNop (queue : Nat) (s : State) : Res := whileCore s fun s =>
  match (if queue = 0 then openEntry s 0 0 else s.wq.taken.find? fun t => t.queue == queue && !t.ended && t.result.isNone && fld t.bytes 0 1 == 0) with
  | some t => .next (entryEnd s t (zeros 12) false)
  | none => .next s

/-- WQ_ECINV with HOLD 1 (R422): taking from the queue stops, its cached entries are discarded, WQ_ECINV_IDX holds its SQ_CI.
While another queue is held, the write is ignored. -/
def execWqHold (queue : Nat) (s : State) : Res := whileCore s fun s =>
  if flag s F.WQ_ECINV_HOLD && getF s F.WQ_ECINV_QUEUE != queue then .next s
  else
    let s := setF (setF (setF s F.WQ_ECINV_HOLD 1) F.WQ_ECINV_QUEUE queue) F.WQ_ECINV_HELD 1
    .next (setF s F.WQ_ECINV_IDX_TAKEN (match queueOf s queue with | some x => x.sqCi | none => 0))

/-- WQ_ECINV with HOLD 0: taking resumes (R422). -/
def execWqUnhold (queue : Nat) (s : State) : Res := whileCore s fun s =>
  .next (setF (setF (setF s F.WQ_ECINV_HOLD 0) F.WQ_ECINV_QUEUE queue) F.WQ_ECINV_HELD 0)

/-! ### Administrative entries (R430 to R432) -/

/-- The result of an administrative entry: COOKIE and ASTATUS (R431). -/
def adminResult (b : Bytes) (astatus : Nat) : Bytes := slice b 56 8 ++ le 2 astatus ++ zeros 2

/-- ASTATUS of an administrative entry, decided in the order of R431. -/
def adminStatus (s : State) (b : Bytes) : Nat :=
  let op := fld b 0 1
  let q := fld b 8 2
  let x := queueOf s q
  if q = 0 ∨ q > 8191 then 1
  else if wqLegacy s then 7
  else if (op = 1 ∧ x.isSome) ∨ (op ≠ 1 ∧ x.isNone) then 2
  else if op = 1 ∧ (fld b 10 1 > 1 ∨ fld b 11 1 > 1 ∨ fld b 12 1 < 2 ∨ fld b 12 1 > 16 ∨
      (fld b 10 1 = 0 ∧ (fld b 13 1 < 2 ∨ fld b 13 1 > 16)) ∨ (fld b 10 1 = 1 ∧ fld b 13 1 ≠ 0) ∨ fld b 14 1 > 63 ∨
      (fld b 11 1 = 1 ∧ (fld b 16 2 < 1 ∨ fld b 16 2 > 15625)) ∨ (fld b 11 1 = 0 ∧ fld b 16 2 ≠ 0) ∨
      fld b 24 8 % 4096 ≠ 0 ∨ (fld b 10 1 = 0 ∧ fld b 32 8 % 4096 ≠ 0) ∨ (fld b 10 1 = 1 ∧ fld b 32 8 ≠ 0) ∨
      fld b 40 8 % 64 ≠ 0) then 3
  else if op = 2 ∧ queueBound s q then 4
  else if op = 3 ∧ (match x with | some y => y.state | none => 0) ≠ 2 then 6
  else 0

/-- A reserved field of an administrative entry is nonzero (R436). -/
def adminReserved (b : Bytes) : Bool := decide (fld b 15 1 ≥ 2) || decide (fld b 18 6 ≠ 0)

/-- CREATE with ASTATUS 0: the queue runs with SQ_CI equal to the SQ_PI found in its index block (R431). -/
def queueCreate (s : State) (b : Bytes) : State :=
  let idx := fld b 40 8
  let r := fabRead s 5 idx 16
  let ix := r.2.getD (zeros 16)
  let x : Queue := ⟨fld b 8 2, 1, fld b 10 1 == 1, if fld b 11 1 = 1 then fld b 16 2 else 0, fld b 12 1, fld b 13 1,
    fld b 14 1, fld b 15 1 % 2 == 1, fld b 24 8, fld b 32 8, idx, fld ix 0 4, fld ix 0 4, fld ix 8 4, fld ix 12 4, [], false,
    none, [], 0⟩
  match r.2 with
  | none => wqStop r.1 x 5 x.sqCi
  | some _ => if !x.fromBlock && decide (idxSub x.cqPi x.cqCi > 2 ^ x.log2c) then wqStop r.1 x 3 x.sqCi else putQueue r.1 x

/-- The memory of a queue's rings and index block. -/
def queueRanges (x : Queue) : List (Nat × Nat) :=
  (if x.fromBlock then [] else [(x.cq, 16 * 2 ^ x.log2c)]) ++ [(x.ring, 64 * 2 ^ x.log2s), (x.idx, 64)]

/-- The queue that a CREATE entry describes would lie over another queue's rings or index block (R436). -/
def queueClash (s : State) (b : Bytes) : Bool :=
  let x : Queue := { adminQueue s with fromBlock := fld b 10 1 == 1, log2s := fld b 12 1, log2c := fld b 13 1, ring := fld b 24 8, cq := fld b 32 8, idx := fld b 40 8 }
  (queueRanges x).any fun r => (s.wq.queues ++ (queueOf s 0).toList).any fun y => (queueRanges y).any fun t => overlaps r.1 r.2 t.1 t.2

/-- CREATE, the administrative entry at the front of queue 0 (R430, R431). -/
def execCreate (queue : Nat) (s : State) : Res := whileCore s fun s =>
  match openEntry s 0 1 with
  | none => .next s
  | some t =>
    if fld t.bytes 8 2 ≠ queue then .next s
    else if adminReserved t.bytes then .fault (.undefined436 7)
    else
      let a := adminStatus s t.bytes
      if a = 0 ∧ queueClash s t.bytes = true then .fault (.undefined436 4)
      else .next (entryEnd (if a = 0 then queueCreate s t.bytes else s) t (adminResult t.bytes a) (a != 0))

/-- DESTROY (R432): the queue takes nothing more and its untaken entries are abandoned; its completion waits for the drain. -/
def execDestroy (queue : Nat) (s : State) : Res := whileCore s fun s =>
  match openEntry s 0 2 with
  | none => .next s
  | some t =>
    if fld t.bytes 8 2 ≠ queue then .next s
    else if adminReserved t.bytes then .fault (.undefined436 7)
    else
      let a := adminStatus s t.bytes
      match queueOf s queue with
      | some x =>
        if a = 0 then
          let s := putQueue s { x with state := 3 }
          .next (entryResult { s with wq := { s.wq with destroying := some (queue, t.index) } } t (adminResult t.bytes 0) false)
        else .next (entryEnd s t (adminResult t.bytes a) true)
      | none => .next (entryEnd s t (adminResult t.bytes a) true)

/-- The destroyed queue has drained: it is ABSENT and the DESTROY ends (Table 12-7). -/
def execDestroyDrained (queue : Nat) (s : State) : Res := whileCore s fun s =>
  match queueOf s queue, s.wq.destroying with
  | some x, some (q, i) =>
    if q = queue ∧ x.state = 3 ∧ x.held = [] ∧ takenOpen s queue = 0 ∧ dueCount s queue = 0 then
      match s.wq.taken.find? fun t => t.queue == 0 && t.index == i && !t.ended with
      | some t =>
        let s := { s with wq := { s.wq with destroying := none, queues := s.wq.queues.filter fun y => y.num != queue } }
        .next (entryEnd s t ((t.result.getD (zeros 12, false)).1) false)
      | none => .next s
    else .next s
  | _, _ => .next s

/-- A queue back in RUNNING with a new SQ_CI (R429). -/
def queueRestart (s : State) (x : Queue) (ci : Nat) : State :=
  putQueue s { x with state := 1, sqCi := ci % 2 ^ 32, batch := none }

/-- RESTART of a queue in ERROR (R429, R431). -/
def execRestart (queue : Nat) (s : State) : Res := whileCore s fun s =>
  match openEntry s 0 3 with
  | none => .next s
  | some t =>
    if fld t.bytes 8 2 ≠ queue then .next s
    else if adminReserved t.bytes then .fault (.undefined436 7)
    else
      let a := adminStatus s t.bytes
      match a, queueOf s queue with
      | 0, some x => .next (entryEnd (queueRestart s x (fld t.bytes 48 8)) t (adminResult t.bytes 0) false)
      | _, _ => .next (entryEnd s t (adminResult t.bytes a) true)

/-- WQ_LRESTART (R433): a stopped legacy queue runs again from WQ_LRESTART_IDX. -/
def execWqLrestart (queue : Nat) (s : State) : Res := whileCore s fun s =>
  match queueOf s queue with
  | some x =>
    .next (if wqLegacy s && decide (queue < 64) && x.state == 2 then queueRestart s x (getF s F.WQ_LRESTART_IDX_INDEX) else s)
  | none => .next s

end Sys2Proof.Machine
end

