-- ==== Sys2Proof/Machine/Dispatch.lean ====
section
/-! DEFINITION. One arm per constructor of Instr: the direct call of its meaning. -/

namespace Sys2Proof.Machine

/-- The effect of a command on everything but the queue. -/
def exec (i : Instr) (s : State) : Host.Outcome State Fault Refusal :=
  match i with
  | .fence core => Sys2Proof.Machine.execFence core s
  | .fenceI core => Sys2Proof.Machine.execFenceI core s
  | .wfi core => Sys2Proof.Machine.execWfi core s
  | .registerWrite rid core addr width value => Sys2Proof.Machine.execRegisterWrite rid core addr width value s
  | .rcCounterRead rid core addr width => Sys2Proof.Machine.execRcCounterRead rid core addr width s
  | .fabErrClear core => Sys2Proof.Machine.execFabErrClear core s
  | .irqClaim core => Sys2Proof.Machine.execIrqClaim core s
  | .irqComplete core id => Sys2Proof.Machine.execIrqComplete core id s
  | .machineTimerExpiry core => Sys2Proof.Machine.execMachineTimerExpiry core s
  | .rocePacketReceived session icrc header opcode rnr ce => Sys2Proof.Machine.execRocePacketReceived session icrc header opcode rnr ce s
  | .cnpReceived session => Sys2Proof.Machine.execCnpReceived session s
  | .rateRecoveryExpiry session => Sys2Proof.Machine.execRateRecoveryExpiry session s
  | .cmReq service comm mtu pkey timeout retry rnr => Sys2Proof.Machine.execCmReq service comm mtu pkey timeout retry rnr s
  | .cmRtu session => Sys2Proof.Machine.execCmRtu session s
  | .cmDreq session => Sys2Proof.Machine.execCmDreq session s
  | .qpRetryExhausted session => Sys2Proof.Machine.execQpRetryExhausted session s
  | .handshakeTimerExpiry session => Sys2Proof.Machine.execHandshakeTimerExpiry session s
  | .capsule session message => Sys2Proof.Machine.execCapsule session message s
  | .open cmd => Sys2Proof.Machine.execOpen cmd s
  | .auth cmd => Sys2Proof.Machine.execAuth cmd s
  | .close cmd => Sys2Proof.Machine.execClose cmd s
  | .nop cmd => Sys2Proof.Machine.execNop cmd s
  | .resultFetch cmd => Sys2Proof.Machine.execResultFetch cmd s
  | .resultRelease cmd => Sys2Proof.Machine.execResultRelease cmd s
  | .rdmaReadResponse session data => Sys2Proof.Machine.execRdmaReadResponse session data s
  | .rdmaErrorNak session => Sys2Proof.Machine.execRdmaErrorNak session s
  | .hteSessHoldWrite core value => Sys2Proof.Machine.execHteSessHoldWrite core value s
  | .excQueueRoom => Sys2Proof.Machine.execExcQueueRoom s
  | .hteReply queue => Sys2Proof.Machine.execHteReply queue s
  | .hteRdmaRead queue => Sys2Proof.Machine.execHteRdmaRead queue s
  | .hteRdmaWrite queue => Sys2Proof.Machine.execHteRdmaWrite queue s
  | .hteSend queue => Sys2Proof.Machine.execHteSend queue s
  | .hteRxPost queue => Sys2Proof.Machine.execHteRxPost queue s
  | .hteClose queue => Sys2Proof.Machine.execHteClose queue s
  | .peerMessage session message => Sys2Proof.Machine.execPeerMessage session message s
  | .peerReplyReceived session message => Sys2Proof.Machine.execPeerReplyReceived session message s
  | .put cmd => Sys2Proof.Machine.execPut cmd s
  | .get cmd => Sys2Proof.Machine.execGet cmd s
  | .delete cmd => Sys2Proof.Machine.execDelete cmd s
  | .exists cmd => Sys2Proof.Machine.execExists cmd s
  | .cas cmd => Sys2Proof.Machine.execCas cmd s
  | .list cmd => Sys2Proof.Machine.execList cmd s
  | .discard cmd => Sys2Proof.Machine.execDiscard cmd s
  | .discardDurable => Sys2Proof.Machine.execDiscardDurable s
  | .retain cmd => Sys2Proof.Machine.execRetain cmd s
  | .release cmd => Sys2Proof.Machine.execRelease cmd s
  | .fixity cmd => Sys2Proof.Machine.execFixity cmd s
  | .stat cmd => Sys2Proof.Machine.execStat cmd s
  | .life cmd => Sys2Proof.Machine.execLife cmd s
  | .nsCreate cmd => Sys2Proof.Machine.execNsCreate cmd s
  | .nsSet cmd => Sys2Proof.Machine.execNsSet cmd s
  | .nsDelete cmd => Sys2Proof.Machine.execNsDelete cmd s
  | .tenantSet cmd => Sys2Proof.Machine.execTenantSet cmd s
  | .tenantDelete cmd => Sys2Proof.Machine.execTenantDelete cmd s
  | .tenantQuery cmd => Sys2Proof.Machine.execTenantQuery cmd s
  | .clockSet cmd => Sys2Proof.Machine.execClockSet cmd s
  | .ptpTimeApply seconds nanos => Sys2Proof.Machine.execPtpTimeApply seconds nanos s
  | .retentionClockSave => Sys2Proof.Machine.execRetentionClockSave s
  | .sealTimerExpiry group nsid => Sys2Proof.Machine.execSealTimerExpiry group nsid s
  | .bucketLoad slice bucket => Sys2Proof.Machine.execBucketLoad slice bucket s
  | .bucketWriteback slice bucket => Sys2Proof.Machine.execBucketWriteback slice bucket s
  | .bucketEvict slice bucket => Sys2Proof.Machine.execBucketEvict slice bucket s
  | .indexRebuildFromStripes group slices => Sys2Proof.Machine.execIndexRebuildFromStripes group slices s
  | .peerSessionOpen hull kind => Sys2Proof.Machine.execPeerSessionOpen hull kind s
  | .hello => Sys2Proof.Machine.execHello s
  | .fragWrite => Sys2Proof.Machine.execFragWrite s
  | .fragRead => Sys2Proof.Machine.execFragRead s
  | .fragCommit => Sys2Proof.Machine.execFragCommit s
  | .fragRollback => Sys2Proof.Machine.execFragRollback s
  | .fragFree => Sys2Proof.Machine.execFragFree s
  | .fragWriteResend tag => Sys2Proof.Machine.execFragWriteResend tag s
  | .groupStatus => Sys2Proof.Machine.execGroupStatus s
  | .groupStatusTimer group => Sys2Proof.Machine.execGroupStatusTimer group s
  | .formingTimeout group => Sys2Proof.Machine.execFormingTimeout group s
  | .join => Sys2Proof.Machine.execJoin s
  | .adminForward => Sys2Proof.Machine.execAdminForward s
  | .adminRecord => Sys2Proof.Machine.execAdminRecord s
  | .adminRecordResend change hull => Sys2Proof.Machine.execAdminRecordResend change hull s
  | .sliceCopy => Sys2Proof.Machine.execSliceCopy s
  | .sliceDisown => Sys2Proof.Machine.execSliceDisown s
  | .epochChangeStart => Sys2Proof.Machine.execEpochChangeStart s
  | .epochPrepare => Sys2Proof.Machine.execEpochPrepare s
  | .epochCommit => Sys2Proof.Machine.execEpochCommit s
  | .epochAbort => Sys2Proof.Machine.execEpochAbort s
  | .epochQuery => Sys2Proof.Machine.execEpochQuery s
  | .epochLeaderLimit => Sys2Proof.Machine.execEpochLeaderLimit s
  | .epochPreparedTimeout => Sys2Proof.Machine.execEpochPreparedTimeout s
  | .stripeRewrite group stripe => Sys2Proof.Machine.execStripeRewrite group stripe s
  | .esTest core v0 => Sys2Proof.Machine.execEsTest core v0 s
  | .esTestEnd v1 => Sys2Proof.Machine.execEsTestEnd v1 s
  | .pjEnable core => Sys2Proof.Machine.execPjEnable core s
  | .pjVmapWrite core entry value => Sys2Proof.Machine.execPjVmapWrite core entry value s
  | .pfailNFall => Sys2Proof.Machine.execPfailNFall s
  | .vaultDumpEnd => Sys2Proof.Machine.execVaultDumpEnd s
  | .pjRestore core => Sys2Proof.Machine.execPjRestore core s
  | .pjRestoreEnd => Sys2Proof.Machine.execPjRestoreEnd s
  | .pjAllocReq core bytes => Sys2Proof.Machine.execPjAllocReq core bytes s
  | .pjAllocRead core width => Sys2Proof.Machine.execPjAllocRead core width s
  | .pairHello => Sys2Proof.Machine.execPairHello s
  | .ack => Sys2Proof.Machine.execAck s
  | .intentFrame => Sys2Proof.Machine.execIntentFrame s
  | .outcomeFrame => Sys2Proof.Machine.execOutcomeFrame s
  | .indexFrame => Sys2Proof.Machine.execIndexFrame s
  | .openStripeFrame => Sys2Proof.Machine.execOpenStripeFrame s
  | .append => Sys2Proof.Machine.execAppend s
  | .retire => Sys2Proof.Machine.execRetire s
  | .handbackReady => Sys2Proof.Machine.execHandbackReady s
  | .handbackAck => Sys2Proof.Machine.execHandbackAck s
  | .intentQuery => Sys2Proof.Machine.execIntentQuery s
  | .intentAnswer => Sys2Proof.Machine.execIntentAnswer s
  | .pairResendTimer partner => Sys2Proof.Machine.execPairResendTimer partner s
  | .pairAckTimer partner => Sys2Proof.Machine.execPairAckTimer partner s
  | .pairPathChange partner linkEnd => Sys2Proof.Machine.execPairPathChange partner linkEnd s
  | .leaseLapse partner => Sys2Proof.Machine.execLeaseLapse partner s
  | .takeoverTimer partner => Sys2Proof.Machine.execTakeoverTimer partner s
  | .handbackStart partner => Sys2Proof.Machine.execHandbackStart partner s
  | .handbackResend partner => Sys2Proof.Machine.execHandbackResend partner s
  | .fragCommitResend group stripe => Sys2Proof.Machine.execFragCommitResend group stripe s
  | .probeResend group stripe => Sys2Proof.Machine.execProbeResend group stripe s
  | .replay => Sys2Proof.Machine.execReplay s
  | .seatSilenceExpiry group seat => Sys2Proof.Machine.execSeatSilenceExpiry group seat s
  | .writeLimitExpiry tag => Sys2Proof.Machine.execWriteLimitExpiry tag s
  | .fragReadDeadline tag => Sys2Proof.Machine.execFragReadDeadline tag s
  | .degradedReadRetry cmd => Sys2Proof.Machine.execDegradedReadRetry cmd s
  | .stripeLost => Sys2Proof.Machine.execStripeLost s
  | .inventory => Sys2Proof.Machine.execInventory s
  | .rebuildNotice => Sys2Proof.Machine.execRebuildNotice s
  | .fragReplace => Sys2Proof.Machine.execFragReplace s
  | .localRepair group => Sys2Proof.Machine.execLocalRepair group s
  | .rebuildStart group => Sys2Proof.Machine.execRebuildStart group s
  | .rebuildPosition group => Sys2Proof.Machine.execRebuildPosition group s
  | .rebuildRateSample group hostBytes => Sys2Proof.Machine.execRebuildRateSample group hostBytes s
  | .rebuildProgressTimer group => Sys2Proof.Machine.execRebuildProgressTimer group s
  | .rigCtrlStage core => Sys2Proof.Machine.execRigCtrlStage core s
  | .rigStageEnd => Sys2Proof.Machine.execRigStageEnd s
  | .rigCtrlActivate core => Sys2Proof.Machine.execRigCtrlActivate core s
  | .rigSwapEnd => Sys2Proof.Machine.execRigSwapEnd s
  | .rigCtrlDiscard core => Sys2Proof.Machine.execRigCtrlDiscard core s
  | .ecEncode queue => Sys2Proof.Machine.execEcEncode queue s
  | .ecDecode queue => Sys2Proof.Machine.execEcDecode queue s
  | .ecCheck queue => Sys2Proof.Machine.execEcCheck queue s
  | .ecEntryEnd queue => Sys2Proof.Machine.execEcEntryEnd queue s
  | .fphPush core heap => Sys2Proof.Machine.execFphPush core heap s
  | .fphPop core heap => Sys2Proof.Machine.execFphPop core heap s
  | .fphPeek core heap => Sys2Proof.Machine.execFphPeek core heap s
  | .fphClear core heap => Sys2Proof.Machine.execFphClear core heap s
  | .collection lun eraseFail => Sys2Proof.Machine.execCollection lun eraseFail s
  | .migration idle eraseFail => Sys2Proof.Machine.execMigration idle eraseFail s
  | .programFailure bsn unreadable summaryFail => Sys2Proof.Machine.execProgramFailure bsn unreadable summaryFail s
  | .lunDeclareFailed lun => Sys2Proof.Machine.execLunDeclareFailed lun s
  | .noteRecord => Sys2Proof.Machine.execNoteRecord s
  | .sweep reads => Sys2Proof.Machine.execSweep reads s
  | .readRetry bsn page step bits => Sys2Proof.Machine.execReadRetry bsn page step bits s
  | .checkpoint => Sys2Proof.Machine.execCheckpoint s
  | .summaryScan => Sys2Proof.Machine.execSummaryScan s
  | .fullScan unreadable bad => Sys2Proof.Machine.execFullScan unreadable bad s
  | .vaultSetReplace entry => Sys2Proof.Machine.execVaultSetReplace entry s
  | .mediaFull => Sys2Proof.Machine.execMediaFull s
  | .channelStart => Sys2Proof.Machine.execChannelStart s
  | .channelReady channel targets => Sys2Proof.Machine.execChannelReady channel targets s
  | .fcRead queue index => Sys2Proof.Machine.execFcRead queue index s
  | .fcProgram queue index => Sys2Proof.Machine.execFcProgram queue index s
  | .fcErase queue index => Sys2Proof.Machine.execFcErase queue index s
  | .fcReadHeader queue index => Sys2Proof.Machine.execFcReadHeader queue index s
  | .fcFeature queue index => Sys2Proof.Machine.execFcFeature queue index s
  | .fcResetLun queue index => Sys2Proof.Machine.execFcResetLun queue index s
  | .fcOperationEnd channel slot fail bits corrected bad badWords => Sys2Proof.Machine.execFcOperationEnd channel slot fail bits corrected bad badWords s
  | .fcRoundTick => Sys2Proof.Machine.execFcRoundTick s
  | .fcLunTimeout channel slot => Sys2Proof.Machine.execFcLunTimeout channel slot s
  | .lunResetTimeout channel slot => Sys2Proof.Machine.execLunResetTimeout channel slot s
  | .fcRevive core channel slot ready => Sys2Proof.Machine.execFcRevive core channel slot ready s
  | .sequencerFault channel => Sys2Proof.Machine.execSequencerFault channel s
  | .lunTempPoll channel slot valid temp => Sys2Proof.Machine.execLunTempPoll channel slot valid temp s
  | .fcGroupWindowWrite rid core window offset width value ready => Sys2Proof.Machine.execFcGroupWindowWrite rid core window offset width value ready s
  | .scAccess rid core addr len write data err => Sys2Proof.Machine.execScAccess rid core addr len write data err s
  | .scFillComplete rid => Sys2Proof.Machine.execScFillComplete rid s
  | .scEvictionDone line err => Sys2Proof.Machine.execScEvictionDone line err s
  | .scWayDisableEnd way => Sys2Proof.Machine.execScWayDisableEnd way s
  | .scWayEnable core ways => Sys2Proof.Machine.execScWayEnable core ways s
  | .scClean core all => Sys2Proof.Machine.execScClean core all s
  | .scInvalidate core all => Sys2Proof.Machine.execScInvalidate core all s
  | .scCleanInvalidate core all => Sys2Proof.Machine.execScCleanInvalidate core all s
  | .scMaintEnd line err => Sys2Proof.Machine.execScMaintEnd line err s
  | .scPrefetchHint core lines rid => Sys2Proof.Machine.execScPrefetchHint core lines rid s
  | .scPrefetchFetch => Sys2Proof.Machine.execScPrefetchFetch s
  | .scDisable core => Sys2Proof.Machine.execScDisable core s
  | .scEnable core => Sys2Proof.Machine.execScEnable core s
  | .dmcScrub addr err => Sys2Proof.Machine.execDmcScrub addr err s
  | .dmcTempRefresh high => Sys2Proof.Machine.execDmcTempRefresh high s
  | .wqDoorbellSq queue => Sys2Proof.Machine.execWqDoorbellSq queue s
  | .wqDoorbellCq queue => Sys2Proof.Machine.execWqDoorbellCq queue s
  | .wqPoll queue => Sys2Proof.Machine.execWqPoll queue s
  | .wqEntryTake queue => Sys2Proof.Machine.execWqEntryTake queue s
  | .wqCompletionDue queue => Sys2Proof.Machine.execWqCompletionDue queue s
  | .wqNop queue => Sys2Proof.Machine.execWqNop queue s
  | .wqHold queue => Sys2Proof.Machine.execWqHold queue s
  | .wqUnhold queue => Sys2Proof.Machine.execWqUnhold queue s
  | .create queue => Sys2Proof.Machine.execCreate queue s
  | .destroy queue => Sys2Proof.Machine.execDestroy queue s
  | .destroyDrained queue => Sys2Proof.Machine.execDestroyDrained queue s
  | .restart queue => Sys2Proof.Machine.execRestart queue s
  | .wqLrestart queue => Sys2Proof.Machine.execWqLrestart queue s
  | .dmaGo core channel => Sys2Proof.Machine.execDmaGo core channel s
  | .dmaRun queue => Sys2Proof.Machine.execDmaRun queue s
  | .dmaKick core channel => Sys2Proof.Machine.execDmaKick core channel s
  | .dmaStop core channel => Sys2Proof.Machine.execDmaStop core channel s
  | .dmaResume core channel => Sys2Proof.Machine.execDmaResume core channel s
  | .dmaAbort core channel => Sys2Proof.Machine.execDmaAbort core channel s
  | .dmaBurstGrant channel => Sys2Proof.Machine.execDmaBurstGrant channel s
  | .dmaBurstWritten channel => Sys2Proof.Machine.execDmaBurstWritten channel s
  | .dmaPeripheralLast channel bytes => Sys2Proof.Machine.execDmaPeripheralLast channel bytes s
  | .dmaPeripheralAbort channel => Sys2Proof.Machine.execDmaPeripheralAbort channel s
  | .dmaDescriptorEnd channel => Sys2Proof.Machine.execDmaDescriptorEnd channel s
  | .dmaReqSet core lines => Sys2Proof.Machine.execDmaReqSet core lines s
  | .dmaReqClr core lines => Sys2Proof.Machine.execDmaReqClr core lines s
  | .dmaCqCiWrite core index => Sys2Proof.Machine.execDmaCqCiWrite core index s
  | .asuSearchGo core width => Sys2Proof.Machine.execAsuSearchGo core width s
  | .asuSearchResult core => Sys2Proof.Machine.execAsuSearchResult core s
  | .asuStepNext core => Sys2Proof.Machine.execAsuStepNext core s
  | .asuEntryWrite core valid bank index => Sys2Proof.Machine.execAsuEntryWrite core valid bank index s
  | .asuEntryRead core bank index => Sys2Proof.Machine.execAsuEntryRead core bank index s
  | .asuMove core dir bank last first => Sys2Proof.Machine.execAsuMove core dir bank last first s
  | .asuMoveEnd => Sys2Proof.Machine.execAsuMoveEnd s
  | .asuBankCfgWrite core bank value => Sys2Proof.Machine.execAsuBankCfgWrite core bank value s
  | .asuSearch queue => Sys2Proof.Machine.execAsuSearch queue s
  | .cipGcmEnc queue => Sys2Proof.Machine.execCipGcmEnc queue s
  | .cipGcmDec queue => Sys2Proof.Machine.execCipGcmDec queue s
  | .cipXtsEnc queue => Sys2Proof.Machine.execCipXtsEnc queue s
  | .cipXtsDec queue => Sys2Proof.Machine.execCipXtsDec queue s
  | .cipUnwrap queue => Sys2Proof.Machine.execCipUnwrap queue s
  | .cipGenkey queue => Sys2Proof.Machine.execCipGenkey queue s
  | .cipExport queue => Sys2Proof.Machine.execCipExport queue s
  | .cipClear queue => Sys2Proof.Machine.execCipClear queue s
  | .cipEntryEnd queue => Sys2Proof.Machine.execCipEntryEnd queue s
  | .digUpdate queue => Sys2Proof.Machine.execDigUpdate queue s
  | .digEntryEnd queue => Sys2Proof.Machine.execDigEntryEnd queue s
  | .portLinkUp port => Sys2Proof.Machine.execPortLinkUp port s
  | .portLinkDown port => Sys2Proof.Machine.execPortLinkDown port s
  | .frameReceived port fcs frame => Sys2Proof.Machine.execFrameReceived port fcs frame s
  | .pauseFrame port quanta => Sys2Proof.Machine.execPauseFrame port quanta s
  | .pfcFrame port priority quanta => Sys2Proof.Machine.execPfcFrame port priority quanta s
  | .pauseExpiry port queue => Sys2Proof.Machine.execPauseExpiry port queue s
  | .verifyTimer port => Sys2Proof.Machine.execVerifyTimer port s
  | .verifyFrame port => Sys2Proof.Machine.execVerifyFrame port s
  | .respondFrame port => Sys2Proof.Machine.execRespondFrame port s
  | .txFrameStart port engine len => Sys2Proof.Machine.execTxFrameStart port engine len s
  | .preemptionCut port sent engine => Sys2Proof.Machine.execPreemptionCut port sent engine s
  | .txFrameEnd port => Sys2Proof.Machine.execTxFrameEnd port s
  | .rxrPiWrite core port ring index => Sys2Proof.Machine.execRxrPiWrite core port ring index s
  | .rxWaitTimeout port ring => Sys2Proof.Machine.execRxWaitTimeout port ring s
  | .txrPiWrite core port ring index => Sys2Proof.Machine.execTxrPiWrite core port ring index s
  | .tsqPop core port => Sys2Proof.Machine.execTsqPop core port s
  | .ptpLoad core run => Sys2Proof.Machine.execPtpLoad core run s
  | .ptpStep core run => Sys2Proof.Machine.execPtpStep core run s
  | .ptpSecRead core width => Sys2Proof.Machine.execPtpSecRead core width s
  | .pairLinkFrame fcs frame => Sys2Proof.Machine.execPairLinkFrame fcs frame s
  | .svcFrameReceived fcs frame => Sys2Proof.Machine.execSvcFrameReceived fcs frame s
  | .svcCollision late => Sys2Proof.Machine.execSvcCollision late s
  | .svcBackoffExpiry => Sys2Proof.Machine.execSvcBackoffExpiry s
  | .identify => Sys2Proof.Machine.execIdentify s
  | .wake => Sys2Proof.Machine.execWake s
  | .logRead => Sys2Proof.Machine.execLogRead s
  | .pentRead => Sys2Proof.Machine.execPentRead s
  | .keySet => Sys2Proof.Machine.execKeySet s
  | .tenantInit => Sys2Proof.Machine.execTenantInit s
  | .escrowSet => Sys2Proof.Machine.execEscrowSet s
  | .escrowRead => Sys2Proof.Machine.execEscrowRead s
  | .imageData => Sys2Proof.Machine.execImageData s
  | .imageEnd => Sys2Proof.Machine.execImageEnd s
  | .rigData => Sys2Proof.Machine.execRigData s
  | .rigStage => Sys2Proof.Machine.execRigStage s
  | .scanFull => Sys2Proof.Machine.execScanFull s
  | .serviceEnter => Sys2Proof.Machine.execServiceEnter s
  | .serviceLeave => Sys2Proof.Machine.execServiceLeave s
  | .goRace core => Sys2Proof.Machine.execGoRace core s
  | .goPaddle core => Sys2Proof.Machine.execGoPaddle core s
  | .goDock core => Sys2Proof.Machine.execGoDock core s
  | .goDeepDock core => Sys2Proof.Machine.execGoDeepDock core s
  | .powerDownEnd => Sys2Proof.Machine.execPowerDownEnd s
  | .wakeNLow held => Sys2Proof.Machine.execWakeNLow held s
  | .aonWakeAtReached => Sys2Proof.Machine.execAonWakeAtReached s
  | .startFromSleep targets v0 v1 fail => Sys2Proof.Machine.execStartFromSleep targets v0 v1 fail s
  | .dockingNotice => Sys2Proof.Machine.execDockingNotice s
  | .dockedWakeResend hull => Sys2Proof.Machine.execDockedWakeResend hull s
  | .dockedWakeTimeout hull => Sys2Proof.Machine.execDockedWakeTimeout hull s
  | .thermalSample tj => Sys2Proof.Machine.execThermalSample tj s
  | .thermalStepLeave => Sys2Proof.Machine.execThermalStepLeave s
  | .watchdogArm core seconds => Sys2Proof.Machine.execWatchdogArm core seconds s
  | .watchdogKick core => Sys2Proof.Machine.execWatchdogKick core s
  | .watchdogExpiry => Sys2Proof.Machine.execWatchdogExpiry s
  | .counterRecord => Sys2Proof.Machine.execCounterRecord s
  | .suppliesValid => Sys2Proof.Machine.execSuppliesValid s
  | .powerOnReset => Sys2Proof.Machine.execPowerOnReset s
  | .deviceReset cause => Sys2Proof.Machine.execDeviceReset cause s
  | .domainPowerUp domain fail v0 => Sys2Proof.Machine.execDomainPowerUp domain fail v0 s
  | .bootVerify => Sys2Proof.Machine.execBootVerify s
  | .fallbackRestore cut => Sys2Proof.Machine.execFallbackRestore cut s
  | .trialTimeout => Sys2Proof.Machine.execTrialTimeout s
  | .loaderService => Sys2Proof.Machine.execLoaderService s
  | .coxMailboxGo core channel => Sys2Proof.Machine.execCoxMailboxGo core channel s
  | .cfgRead => Sys2Proof.Machine.execCfgRead s
  | .cfgWrite => Sys2Proof.Machine.execCfgWrite s
  | .fcLoad => Sys2Proof.Machine.execFcLoad s
  | .peerEph => Sys2Proof.Machine.execPeerEph s
  | .peerSign => Sys2Proof.Machine.execPeerSign s
  | .peerKey => Sys2Proof.Machine.execPeerKey s
  | .xportLoad => Sys2Proof.Machine.execXportLoad s
  | .svcMac => Sys2Proof.Machine.execSvcMac s
  | .svcKeySet => Sys2Proof.Machine.execSvcKeySet s
  | .svcUnmask => Sys2Proof.Machine.execSvcUnmask s
  | .attest => Sys2Proof.Machine.execAttest s
  | .debugChallenge => Sys2Proof.Machine.execDebugChallenge s
  | .debugUnlock => Sys2Proof.Machine.execDebugUnlock s
  | .imageExport => Sys2Proof.Machine.execImageExport s
  | .fallbackSet => Sys2Proof.Machine.execFallbackSet s
  | .imageInstall cut => Sys2Proof.Machine.execImageInstall cut s
  | .imageConfirm => Sys2Proof.Machine.execImageConfirm s
  | .logClear => Sys2Proof.Machine.execLogClear s
  | .reset => Sys2Proof.Machine.execReset s
  | .fatal => Sys2Proof.Machine.execFatal s
  | .logSubmit core code => Sys2Proof.Machine.execLogSubmit core code s
  | .logRdGo core => Sys2Proof.Machine.execLogRdGo core s
  | .logRecordProgram => Sys2Proof.Machine.execLogRecordProgram s
  | .logClearUptoWrite upto => Sys2Proof.Machine.execLogClearUptoWrite upto s
  | .logTokenRefill code => Sys2Proof.Machine.execLogTokenRefill code s
  | .snapStrobe core => Sys2Proof.Machine.execSnapStrobe core s
  | .pentSnapshotEnd => Sys2Proof.Machine.execPentSnapshotEnd s
  | .pentSlotErase => Sys2Proof.Machine.execPentSlotErase s
  | .smbusReadByte address command => Sys2Proof.Machine.execSmbusReadByte address command s
  | .smbusReadWord address command => Sys2Proof.Machine.execSmbusReadWord address command s
  | .smbusBlockRead address command => Sys2Proof.Machine.execSmbusBlockRead address command s
  | .smbusWriteNack address command data => Sys2Proof.Machine.execSmbusWriteNack address command data s
  | .smbusAlertResponse address => Sys2Proof.Machine.execSmbusAlertResponse address s
  | .smbusClockLowTimeout => Sys2Proof.Machine.execSmbusClockLowTimeout s
  | .cmRep session accepted => Sys2Proof.Machine.execCmRep session accepted s
  | .localAckTimeout session => Sys2Proof.Machine.execLocalAckTimeout session s
  | .majorityContactLoss group => Sys2Proof.Machine.execMajorityContactLoss group s
  | .jtagAccess action addr width value => Sys2Proof.Machine.execJtagAccess action addr width value s
  | .svcFrameSend => Sys2Proof.Machine.execSvcFrameSend s

end Sys2Proof.Machine
end

