-- ==== Sys2Proof/WellFormed.lean ====
section
/-! DEFINITION. When a command is well formed: every operand lies in the range of what it names (a crew core 0 to 7, a work queue 0 to 8,191, a register
field of so many bits), and a frame or message is no longer than the device takes. A meaning does not rest on it: outside these ranges a command
names nothing. -/

namespace Sys2Proof

/-- Every operand of a command lies in its range. -/
def Instr.wf (i : Instr) : Bool :=
  match i with
  | .fence core => decide (core < 8)
  | .fenceI core => decide (core < 8)
  | .wfi core => decide (core < 8)
  | .registerWrite rid core addr width value => decide (rid < 16) && decide (core < 8) && decide (addr < 2 ^ 48) && decide (width < 9) && decide (value < 2 ^ 64)
  | .rcCounterRead rid core addr width => decide (rid < 16) && decide (core < 8) && decide (addr < 2 ^ 48) && decide (width < 9)
  | .fabErrClear core => decide (core < 8)
  | .irqClaim core => decide (core < 8)
  | .irqComplete core id => decide (core < 8) && decide (id < 512)
  | .machineTimerExpiry core => decide (core < 8)
  | .rocePacketReceived session icrc header opcode rnr ce => decide (session < 65536) && decide (icrc < 2) && decide (header < 2) && decide (opcode < 256) && decide (rnr < 2) && decide (ce < 2)
  | .cnpReceived session => decide (session < 65536)
  | .rateRecoveryExpiry session => decide (session < 65536)
  | .cmReq service comm mtu pkey timeout retry rnr => decide (service < 2 ^ 64) && decide (comm < 2 ^ 32) && decide (mtu < 65536) && decide (pkey < 65536) && decide (timeout < 32) && decide (retry < 8) && decide (rnr < 8)
  | .cmRtu session => decide (session < 65536)
  | .cmDreq session => decide (session < 65536)
  | .qpRetryExhausted session => decide (session < 65536)
  | .handshakeTimerExpiry session => decide (session < 65536)
  | .capsule session message => decide (session < 65536) && decide (message.length ≤ 4194304)
  | .open cmd => decide (cmd < 262144)
  | .auth cmd => decide (cmd < 262144)
  | .close cmd => decide (cmd < 262144)
  | .nop cmd => decide (cmd < 262144)
  | .resultFetch cmd => decide (cmd < 262144)
  | .resultRelease cmd => decide (cmd < 262144)
  | .rdmaReadResponse session data => decide (session < 65536) && decide (data.length ≤ 4194304)
  | .rdmaErrorNak session => decide (session < 65536)
  | .hteSessHoldWrite core value => decide (core < 8) && decide (value < 2 ^ 64)
  | .excQueueRoom => true
  | .hteReply queue => decide (queue < 8192)
  | .hteRdmaRead queue => decide (queue < 8192)
  | .hteRdmaWrite queue => decide (queue < 8192)
  | .hteSend queue => decide (queue < 8192)
  | .hteRxPost queue => decide (queue < 8192)
  | .hteClose queue => decide (queue < 8192)
  | .peerMessage session message => decide (session < 65536) && decide (message.length ≤ 4194304)
  | .peerReplyReceived session message => decide (session < 65536) && decide (message.length ≤ 4194304)
  | .put cmd => decide (cmd < 262144)
  | .get cmd => decide (cmd < 262144)
  | .delete cmd => decide (cmd < 262144)
  | .exists cmd => decide (cmd < 262144)
  | .cas cmd => decide (cmd < 262144)
  | .list cmd => decide (cmd < 262144)
  | .discard cmd => decide (cmd < 262144)
  | .discardDurable => true
  | .retain cmd => decide (cmd < 262144)
  | .release cmd => decide (cmd < 262144)
  | .fixity cmd => decide (cmd < 262144)
  | .stat cmd => decide (cmd < 262144)
  | .life cmd => decide (cmd < 262144)
  | .nsCreate cmd => decide (cmd < 262144)
  | .nsSet cmd => decide (cmd < 262144)
  | .nsDelete cmd => decide (cmd < 262144)
  | .tenantSet cmd => decide (cmd < 262144)
  | .tenantDelete cmd => decide (cmd < 262144)
  | .tenantQuery cmd => decide (cmd < 262144)
  | .clockSet cmd => decide (cmd < 262144)
  | .ptpTimeApply seconds nanos => decide (seconds < 2 ^ 48) && decide (nanos < 1000000000)
  | .retentionClockSave => true
  | .sealTimerExpiry group nsid => decide (group < 2 ^ 32) && decide (nsid < 4096)
  | .bucketLoad slice bucket => decide (slice < 65536) && decide (bucket < 65536)
  | .bucketWriteback slice bucket => decide (slice < 65536) && decide (bucket < 65536)
  | .bucketEvict slice bucket => decide (slice < 65536) && decide (bucket < 65536)
  | .indexRebuildFromStripes group slices => decide (group < 2 ^ 32) && slices.all (fun x => decide (x < 65536))
  | .peerSessionOpen hull kind => decide (hull < 2 ^ 64) && decide (kind < 3)
  | .hello => true
  | .fragWrite => true
  | .fragRead => true
  | .fragCommit => true
  | .fragRollback => true
  | .fragFree => true
  | .fragWriteResend tag => decide (tag < 2 ^ 64)
  | .groupStatus => true
  | .groupStatusTimer group => decide (group < 2 ^ 32)
  | .formingTimeout group => decide (group < 2 ^ 32)
  | .join => true
  | .adminForward => true
  | .adminRecord => true
  | .adminRecordResend change hull => decide (change < 2 ^ 64) && decide (hull < 2 ^ 64)
  | .sliceCopy => true
  | .sliceDisown => true
  | .epochChangeStart => true
  | .epochPrepare => true
  | .epochCommit => true
  | .epochAbort => true
  | .epochQuery => true
  | .epochLeaderLimit => true
  | .epochPreparedTimeout => true
  | .stripeRewrite group stripe => decide (group < 2 ^ 32) && decide (stripe < 2 ^ 64)
  | .esTest core v0 => decide (core < 8) && decide (v0 < 65536)
  | .esTestEnd v1 => decide (v1 < 65536)
  | .pjEnable core => decide (core < 8)
  | .pjVmapWrite core entry value => decide (core < 8) && decide (entry < 512) && decide (value < 2 ^ 64)
  | .pfailNFall => true
  | .vaultDumpEnd => true
  | .pjRestore core => decide (core < 8)
  | .pjRestoreEnd => true
  | .pjAllocReq core bytes => decide (core < 8) && decide (bytes < 2 ^ 32)
  | .pjAllocRead core width => decide (core < 8) && decide (width < 9)
  | .pairHello => true
  | .ack => true
  | .intentFrame => true
  | .outcomeFrame => true
  | .indexFrame => true
  | .openStripeFrame => true
  | .append => true
  | .retire => true
  | .handbackReady => true
  | .handbackAck => true
  | .intentQuery => true
  | .intentAnswer => true
  | .pairResendTimer partner => decide (partner < 2 ^ 64)
  | .pairAckTimer partner => decide (partner < 2 ^ 64)
  | .pairPathChange partner linkEnd => decide (partner < 2 ^ 64) && decide (linkEnd < 2)
  | .leaseLapse partner => decide (partner < 2 ^ 64)
  | .takeoverTimer partner => decide (partner < 2 ^ 64)
  | .handbackStart partner => decide (partner < 2 ^ 64)
  | .handbackResend partner => decide (partner < 2 ^ 64)
  | .fragCommitResend group stripe => decide (group < 2 ^ 32) && decide (stripe < 2 ^ 64)
  | .probeResend group stripe => decide (group < 2 ^ 32) && decide (stripe < 2 ^ 64)
  | .replay => true
  | .seatSilenceExpiry group seat => decide (group < 2 ^ 32) && decide (seat < 32)
  | .writeLimitExpiry tag => decide (tag < 2 ^ 64)
  | .fragReadDeadline tag => decide (tag < 2 ^ 64)
  | .degradedReadRetry cmd => decide (cmd < 262144)
  | .stripeLost => true
  | .inventory => true
  | .rebuildNotice => true
  | .fragReplace => true
  | .localRepair group => decide (group < 2 ^ 32)
  | .rebuildStart group => decide (group < 2 ^ 32)
  | .rebuildPosition group => decide (group < 2 ^ 32)
  | .rebuildRateSample group hostBytes => decide (group < 2 ^ 32) && decide (hostBytes < 2 ^ 64)
  | .rebuildProgressTimer group => decide (group < 2 ^ 32)
  | .rigCtrlStage core => decide (core < 8)
  | .rigStageEnd => true
  | .rigCtrlActivate core => decide (core < 8)
  | .rigSwapEnd => true
  | .rigCtrlDiscard core => decide (core < 8)
  | .ecEncode queue => decide (queue < 8192)
  | .ecDecode queue => decide (queue < 8192)
  | .ecCheck queue => decide (queue < 8192)
  | .ecEntryEnd queue => decide (queue < 8192)
  | .fphPush core heap => decide (core < 8) && decide (heap < 1040)
  | .fphPop core heap => decide (core < 8) && decide (heap < 1040)
  | .fphPeek core heap => decide (core < 8) && decide (heap < 1040)
  | .fphClear core heap => decide (core < 8) && decide (heap < 1040)
  | .collection lun eraseFail => decide (lun < 1024) && decide (eraseFail < 2)
  | .migration idle eraseFail => decide (idle < 2) && decide (eraseFail < 2)
  | .programFailure bsn unreadable summaryFail => decide (bsn < 524288) && unreadable.all (fun x => decide (x < 2 ^ 32)) && decide (summaryFail < 2)
  | .lunDeclareFailed lun => decide (lun < 1024)
  | .noteRecord => true
  | .sweep reads => reads.all (fun x => decide (x.1 < 2 ^ 32) && decide (x.2 < 2 ^ 16))
  | .readRetry bsn page step bits => decide (bsn < 524288) && decide (page < 65536) && decide (step < 16) && decide (bits < 2 ^ 16)
  | .checkpoint => true
  | .summaryScan => true
  | .fullScan unreadable bad => decide (unreadable < 2) && bad.all (fun x => decide (x < 2 ^ 32))
  | .vaultSetReplace entry => decide (entry < 512)
  | .mediaFull => true
  | .channelStart => true
  | .channelReady channel targets => decide (channel < 32) && decide (targets.length ≤ 8)
  | .fcRead queue index => decide (queue < 8192) && decide (index < 2 ^ 32)
  | .fcProgram queue index => decide (queue < 8192) && decide (index < 2 ^ 32)
  | .fcErase queue index => decide (queue < 8192) && decide (index < 2 ^ 32)
  | .fcReadHeader queue index => decide (queue < 8192) && decide (index < 2 ^ 32)
  | .fcFeature queue index => decide (queue < 8192) && decide (index < 2 ^ 32)
  | .fcResetLun queue index => decide (queue < 8192) && decide (index < 2 ^ 32)
  | .fcOperationEnd channel slot fail bits corrected bad badWords => decide (channel < 32) && decide (slot < 32) && decide (fail < 2) && decide (bits < 2 ^ 16) && decide (corrected < 2) && decide (bad < 2 ^ 32) && decide (badWords < 2 ^ 32)
  | .fcRoundTick => true
  | .fcLunTimeout channel slot => decide (channel < 32) && decide (slot < 32)
  | .lunResetTimeout channel slot => decide (channel < 32) && decide (slot < 32)
  | .fcRevive core channel slot ready => decide (core < 8) && decide (channel < 32) && decide (slot < 32) && decide (ready < 2)
  | .sequencerFault channel => decide (channel < 32)
  | .lunTempPoll channel slot valid temp => decide (channel < 32) && decide (slot < 32) && decide (valid < 2) && decide (temp < 256)
  | .fcGroupWindowWrite rid core window offset width value ready => decide (rid < 16) && decide (core < 8) && decide (window < 9) && decide (offset < 2 ^ 20) && decide (width < 9) && decide (value < 2 ^ 64) && decide (ready < 2 ^ 32)
  | .scAccess rid core addr len write data err => decide (rid < 16) && decide (core < 8) && decide (addr < 2 ^ 48) && decide (len < 257) && decide (write < 3) && decide (data.length ≤ 4194304) && decide (err < 6)
  | .scFillComplete rid => decide (rid < 16)
  | .scEvictionDone line err => decide (line < 2 ^ 40) && decide (err < 5)
  | .scWayDisableEnd way => decide (way < 16)
  | .scWayEnable core ways => decide (core < 8) && decide (ways < 65536)
  | .scClean core all => decide (core < 8) && decide (all < 2)
  | .scInvalidate core all => decide (core < 8) && decide (all < 2)
  | .scCleanInvalidate core all => decide (core < 8) && decide (all < 2)
  | .scMaintEnd line err => decide (line < 2 ^ 40) && decide (err < 5)
  | .scPrefetchHint core lines rid => decide (core < 8) && decide (lines < 512) && decide (rid < 16)
  | .scPrefetchFetch => true
  | .scDisable core => decide (core < 8)
  | .scEnable core => decide (core < 8)
  | .dmcScrub addr err => decide (addr < 2 ^ 48) && decide (err < 5)
  | .dmcTempRefresh high => decide (high < 2)
  | .wqDoorbellSq queue => decide (queue < 8192)
  | .wqDoorbellCq queue => decide (queue < 8192)
  | .wqPoll queue => decide (queue < 8192)
  | .wqEntryTake queue => decide (queue < 8192)
  | .wqCompletionDue queue => decide (queue < 8192)
  | .wqNop queue => decide (queue < 8192)
  | .wqHold queue => decide (queue < 8192)
  | .wqUnhold queue => decide (queue < 8192)
  | .create queue => decide (queue < 8192)
  | .destroy queue => decide (queue < 8192)
  | .destroyDrained queue => decide (queue < 8192)
  | .restart queue => decide (queue < 8192)
  | .wqLrestart queue => decide (queue < 64)
  | .dmaGo core channel => decide (core < 8) && decide (channel < 32)
  | .dmaRun queue => decide (queue < 8192)
  | .dmaKick core channel => decide (core < 8) && decide (channel < 32)
  | .dmaStop core channel => decide (core < 8) && decide (channel < 32)
  | .dmaResume core channel => decide (core < 8) && decide (channel < 32)
  | .dmaAbort core channel => decide (core < 8) && decide (channel < 32)
  | .dmaBurstGrant channel => decide (channel < 32)
  | .dmaBurstWritten channel => decide (channel < 32)
  | .dmaPeripheralLast channel bytes => decide (channel < 32) && decide (bytes < 2 ^ 32)
  | .dmaPeripheralAbort channel => decide (channel < 32)
  | .dmaDescriptorEnd channel => decide (channel < 32)
  | .dmaReqSet core lines => decide (core < 8) && decide (lines < 2 ^ 32)
  | .dmaReqClr core lines => decide (core < 8) && decide (lines < 2 ^ 32)
  | .dmaCqCiWrite core index => decide (core < 8) && decide (index < 2 ^ 32)
  | .asuSearchGo core width => decide (core < 8) && decide (width < 4)
  | .asuSearchResult core => decide (core < 8)
  | .asuStepNext core => decide (core < 8)
  | .asuEntryWrite core valid bank index => decide (core < 8) && decide (valid < 2) && decide (bank < 64) && decide (index < 2048)
  | .asuEntryRead core bank index => decide (core < 8) && decide (bank < 64) && decide (index < 2048)
  | .asuMove core dir bank last first => decide (core < 8) && decide (dir < 2) && decide (bank < 64) && decide (last < 2048) && decide (first < 2048)
  | .asuMoveEnd => true
  | .asuBankCfgWrite core bank value => decide (core < 8) && decide (bank < 64) && decide (value < 2 ^ 64)
  | .asuSearch queue => decide (queue < 8192)
  | .cipGcmEnc queue => decide (queue < 8192)
  | .cipGcmDec queue => decide (queue < 8192)
  | .cipXtsEnc queue => decide (queue < 8192)
  | .cipXtsDec queue => decide (queue < 8192)
  | .cipUnwrap queue => decide (queue < 8192)
  | .cipGenkey queue => decide (queue < 8192)
  | .cipExport queue => decide (queue < 8192)
  | .cipClear queue => decide (queue < 8192)
  | .cipEntryEnd queue => decide (queue < 8192)
  | .digUpdate queue => decide (queue < 8192)
  | .digEntryEnd queue => decide (queue < 8192)
  | .portLinkUp port => decide (port < 3)
  | .portLinkDown port => decide (port < 3)
  | .frameReceived port fcs frame => decide (port < 2) && decide (fcs < 4) && decide (frame.length ≤ 9216)
  | .pauseFrame port quanta => decide (port < 2) && decide (quanta < 65536)
  | .pfcFrame port priority quanta => decide (port < 2) && decide (priority < 8) && decide (quanta < 65536)
  | .pauseExpiry port queue => decide (port < 2) && decide (queue < 8)
  | .verifyTimer port => decide (port < 2)
  | .verifyFrame port => decide (port < 2)
  | .respondFrame port => decide (port < 2)
  | .txFrameStart port engine len => decide (port < 2) && decide (engine < 256) && decide (len < 2 ^ 14)
  | .preemptionCut port sent engine => decide (port < 2) && decide (sent < 2 ^ 14) && decide (engine < 256)
  | .txFrameEnd port => decide (port < 3)
  | .rxrPiWrite core port ring index => decide (core < 8) && decide (port < 3) && decide (ring < 8) && decide (index < 2 ^ 32)
  | .rxWaitTimeout port ring => decide (port < 3) && decide (ring < 8)
  | .txrPiWrite core port ring index => decide (core < 8) && decide (port < 3) && decide (ring < 8) && decide (index < 2 ^ 32)
  | .tsqPop core port => decide (core < 8) && decide (port < 2)
  | .ptpLoad core run => decide (core < 8) && decide (run < 2)
  | .ptpStep core run => decide (core < 8) && decide (run < 2)
  | .ptpSecRead core width => decide (core < 8) && decide (width < 9)
  | .pairLinkFrame fcs frame => decide (fcs < 4) && decide (frame.length ≤ 9216)
  | .svcFrameReceived fcs frame => decide (fcs < 2) && decide (frame.length ≤ 9216)
  | .svcCollision late => decide (late < 2)
  | .svcBackoffExpiry => true
  | .identify => true
  | .wake => true
  | .logRead => true
  | .pentRead => true
  | .keySet => true
  | .tenantInit => true
  | .escrowSet => true
  | .escrowRead => true
  | .imageData => true
  | .imageEnd => true
  | .rigData => true
  | .rigStage => true
  | .scanFull => true
  | .serviceEnter => true
  | .serviceLeave => true
  | .goRace core => decide (core < 8)
  | .goPaddle core => decide (core < 8)
  | .goDock core => decide (core < 8)
  | .goDeepDock core => decide (core < 8)
  | .powerDownEnd => true
  | .wakeNLow held => decide (held < 2)
  | .aonWakeAtReached => true
  | .startFromSleep targets v0 v1 fail => decide (targets.length ≤ 32) && decide (v0 < 65536) && decide (v1 < 65536) && decide (fail < 2 ^ 32)
  | .dockingNotice => true
  | .dockedWakeResend hull => decide (hull < 2 ^ 64)
  | .dockedWakeTimeout hull => decide (hull < 2 ^ 64)
  | .thermalSample tj => decide (tj < 512)
  | .thermalStepLeave => true
  | .watchdogArm core seconds => decide (core < 8) && decide (seconds < 256)
  | .watchdogKick core => decide (core < 8)
  | .watchdogExpiry => true
  | .counterRecord => true
  | .suppliesValid => true
  | .powerOnReset => true
  | .deviceReset cause => decide (cause < 7)
  | .domainPowerUp _domain fail v0 => decide (fail < 2 ^ 32) && decide (v0 < 65536)
  | .bootVerify => true
  | .fallbackRestore cut => decide (cut < 2 ^ 32)
  | .trialTimeout => true
  | .loaderService => true
  | .coxMailboxGo core channel => decide (core < 8) && decide (channel < 4)
  | .cfgRead => true
  | .cfgWrite => true
  | .fcLoad => true
  | .peerEph => true
  | .peerSign => true
  | .peerKey => true
  | .xportLoad => true
  | .svcMac => true
  | .svcKeySet => true
  | .svcUnmask => true
  | .attest => true
  | .debugChallenge => true
  | .debugUnlock => true
  | .imageExport => true
  | .fallbackSet => true
  | .imageInstall cut => decide (cut < 2 ^ 32)
  | .imageConfirm => true
  | .logClear => true
  | .reset => true
  | .fatal => true
  | .logSubmit core code => decide (core < 8) && decide (code < 65536)
  | .logRdGo core => decide (core < 8)
  | .logRecordProgram => true
  | .logClearUptoWrite upto => decide (upto < 2 ^ 64)
  | .logTokenRefill code => decide (code < 65536)
  | .snapStrobe core => decide (core < 8)
  | .pentSnapshotEnd => true
  | .pentSlotErase => true
  | .smbusReadByte address command => decide (address < 128) && decide (command < 256)
  | .smbusReadWord address command => decide (address < 128) && decide (command < 256)
  | .smbusBlockRead address command => decide (address < 128) && decide (command < 256)
  | .smbusWriteNack address command data => decide (address < 128) && decide (command < 256) && decide (data < 256)
  | .smbusAlertResponse address => decide (address < 128)
  | .smbusClockLowTimeout => true
  | .cmRep session accepted => decide (session < 65536) && decide (accepted < 2)
  | .localAckTimeout session => decide (session < 65536)
  | .majorityContactLoss group => decide (group < 2 ^ 32)
  | .jtagAccess action addr width value => decide (action < 7) && decide (addr < 2 ^ 48) && decide (width < 65536) && decide (value < 2 ^ 64)
  | .svcFrameSend => true

end Sys2Proof
end

