-- ==== Sys2Proof/Safety.lean ====
section
/-! DEFINITION. The terms the claims use: a command completes, a run is safe, the form every state keeps its stores in, and what an access leaves alone. -/

namespace Sys2Proof.Machine

/-- A command ends in a next state of which `P` holds. -/
def Completes (i : Instr) (s : State) (P : State → Prop) : Prop := ∃ t, exec i s = .next t ∧ P t

/-- A step is safe: it ends in a next state. -/
def Safe (s : State) : Prop := ∃ t, step s = .next t

/-- A session or key-value command with an opcode whose turn has come: it is accepted and not held back (R71, R72, log entry 30). -/
def CmdTurn (s : State) (cmd op : Nat) (c : Cmd) : Prop := coreLive s = true ∧ cmdWith s cmd op = some c ∧ cmdReady s c = true

/-- The oldest delivered peer message with an opcode, `b` on session `id`, is taken; `u` is the state without it (log entry 30). -/
def PeerTurn (s : State) (op id : Nat) (b : Bytes) (u : State) : Prop :=
  coreLive s = true ∧
  ((s.hte.peerIn.take (s.hte.peerIn.length - (s.hte.excHeld.filter fun e => fld e 0 1 == 0x72).length)).find? fun p => fld p.2 0 1 == op) = some (id, b) ∧
  u = { s with hte := { s.hte with peerIn := s.hte.peerIn.erase (id, b) } }

/-- The oldest pair frame received is of a type, opens under its channel's key to a body, and is the one in turn: `u` is the state in which it is
processed, `c` its channel (R248, R249); an INTENT comes under this device's rig epoch (R24). -/
def PairFrame (s : State) (ptype : Nat) (c : PairCh) (body : Bytes) (seq : Nat) (u : State) : Prop :=
  coreLive s = true ∧ ∃ f rest v d key, s.pj.rx = f :: rest ∧ v = { s with pj := { s.pj with rx := rest } } ∧ fld (f.drop 14) 4 1 = ptype ∧
  chanWith v (fld (f.drop 14) 8 8) = some d ∧ pairKey v d = some key ∧ seq = fld (f.drop 14) 24 8 ∧
  gcmDec key (pairIv (1 - pairDir d) ptype seq) ((f.drop 14).take 40) (slice (f.drop 14) 40 (fld (f.drop 14) 6 2))
    (slice (f.drop 14) (40 + fld (f.drop 14) 6 2) 16) = some body ∧
  c = (if d.addr.isNone then { d with addr := some (slice f 6 6) } else d) ∧ u = putChan2 v c ∧
  (ptype = 2 → c.ackRx < seq) ∧ (ptype ≠ 2 → seq = c.rxSeq + 1 ∧ fld (f.drop 14) 16 8 = Config.hull ∧ (ptype = 0x10 → fld (f.drop 14) 32 8 = activeEpoch u))

/-- A data frame processed is counted and acknowledged, and what waited goes on (R249). -/
def PairTaken (v : State) (c : PairCh) (seq : Nat) (t : State) : Prop :=
  ∃ d, chanWith v c.partner = some d ∧ t = advance (pairAck (putChan2 v { d with rxSeq := seq }) { d with rxSeq := seq })

/-- A store of a running crew core to a register of its own row, whose domain is on (R17, R38); `u` is the state in which it acts. -/
def StoreTurn (s : State) (core a : Nat) (u : State) : Prop := coreOn s core = true ∧ domainOn s (regDomain a) = true ∧ u = coreActs s core

/-- An entry of a flash channel that has come to the head of its LUN's order: channel `n` is the only one bound to its queue and runs, the fields are
good, the LUN is up and free, and the buffers are apart (R374, R376, R381). -/
def FcTurn (s : State) (queue index op n : Nat) (t : Taken) : Prop :=
  coreLive s = true ∧ openAt s queue index op = some t ∧ fcBinding s queue = some n ∧
  ((List.range 32).filter fun m => bindsAny s (F.FC_QBIND_VALID m) (F.FC_QBIND_QUEUE m) queue).length ≤ 1 ∧ fcRuns s n = true ∧
  fcFieldBad s t.bytes = false ∧ lunUp s n (fld t.bytes 8 1) = true ∧ fcHead s n t = true ∧ fcOverlap s t.bytes = false

/-- A command on a key whose turn has come and which this device answers: it is accepted and not held back (R71, R72), it has no reply yet, the device
acts for the slice of its key, which does not change hands (R73), and the stroke may act (R252). -/
def KeyTurn (s : State) (cmd op : Nat) (c : Cmd) (p : KeyPlace) : Prop :=
  coreLive s = true ∧ cmdWith s cmd op = some c ∧ cmdReady s c = true ∧ c.reply = none ∧
  p = keyPlace s (capNsid c.capsule) (capKey c.capsule) ∧ actsFor s p.slice = true ∧
  ((sliceRec s p.slice).map Slice.takeover).getD 0 ≠ 3 ∧ ((sliceRec s p.slice).map Slice.takeover).getD 0 ≠ 5 ∧ leaseHolds s p.slice = true

/-- A change of a key whose turn has come: besides, its slice's index is not rebuilt (R175), no epoch change holds or refuses changes (R215), no other
change of the key is under way (R71), and its bucket `b` is at hand in the state `u`, the bucket's discards journaled. -/
def ChangeTurn (s : State) (cmd op : Nat) (c : Cmd) (p : KeyPlace) (b : Bytes) (u : State) : Prop :=
  KeyTurn s cmd op c p ∧ ((sliceRec s p.slice).map Slice.rebuilding).getD false = false ∧ (s.epoch.refusing && s.epoch.phase == 2) = false ∧
  intentsHeld s = false ∧ keyPending s { c with started := true } = false ∧
  ∃ v, flushDiscards (s.kv.discards.filter fun d => d.slice == p.slice && d.bucket == p.bucket) s = some v ∧
    bucketOpen v p.slice p.bucket = some (b, u)

/-- PUT or CAS whose value is in and may become a new version: no hold in force, the group not SUSPENDED, IF_NEW or the version asked for met, quota,
space, a place in the bucket and a version left (R111, R112, R122, R161, R354). -/
def ValueAllowed (s : State) (cmd op : Nat) (c : Cmd) (p : KeyPlace) (b : Bytes) (u : State) : Prop :=
  ChangeTurn s cmd op c p b u ∧ (op = 0x10 ∨ op = 0x14) ∧ valueShort c = false ∧ retainedBy u b (capNsid c.capsule) p (capKey c.capsule) = none ∧
  sliceGState u p.slice ≠ 5 ∧ (op = 0x10 → capFlag c.capsule 4 = true → (entryOf b (capNsid c.capsule) p).isSome = false) ∧
  (op = 0x14 → capP2 c.capsule = ((entryOf b (capNsid c.capsule) p).map Entry.version).getD 0) ∧
  quotaExceeded u (capNsid c.capsule) (((entryOf b (capNsid c.capsule) p).map Entry.length).getD 0) (capVlen c.capsule) = false ∧ lacksSpace u = false ∧
  ((entryOf b (capNsid c.capsule) p).isNone = true → placesUsed u p b < 512) ∧ nextVersion u p.slice ≤ versionTop

/-- The header of the record of a value stored as a version, by Table 04-7. -/
def valueHeader (s : State) (c : Cmd) (p : KeyPlace) (value : Bytes) (version : Nat) : RecHdr :=
  { kind := 1, keyLen := capKeyLen c.capsule, nsid := capNsid c.capsule, length := value.length, version := version, fprint := p.hash,
    created := calendarOr0 s, user := if capOp c.capsule = 0x10 then capP2 c.capsule else 0 }

/-- The value a command brings: inline, or taken by RDMA READ. -/
def valueOf (c : Cmd) : Bytes := if capFlag c.capsule 0 then capInline c.capsule else c.value

/-- A command's reply waits for durability ALL: by its flag or its namespace (R110). -/
def asksAll (s : State) (c : Cmd) : Bool :=
  capFlag c.capsule 5 || ((nsOf s (capNsid c.capsule)).map Namespace.durability).getD 0 == 1

/-- The state after a packed command's record has gone into a stripe, at a unit of it, and its change into an INDEX record, the command waiting with its
reply for the mirror, and for more where `waits` says so (R235). -/
def Packed (s : State) (c : Cmd) (p : KeyPlace) (rec_ : Bytes) (change : Nat → Nat → Bytes) (reply : Bytes) (waits : Nat) (kept : State → State)
    (t : State) : Prop :=
  ∃ stripe unit off v w fs, packOut s (sliceGroup s p.slice) (capNsid c.capsule) rec_.length = false ∧ ringRoom s 1024 = true ∧ packRecord s p.slice (capNsid c.capsule) c.index rec_ = some ((stripe, unit, off), v) ∧
    indexRecord v p.slice stripe [stampChange v (change stripe unit)] = some (w, fs) ∧
    t = settleAll (putCmd (kept w)
      { c with
        intent := some (sliceGroup s p.slice, stripe)
        changes := [stampChange v (change stripe unit)]
        mirror := openMirror w (sliceGroup s p.slice) stripe ++ fs
        reply := some reply
        waits := waits })

/-- The responder's oldest request of an opcode is `f`; `u` is the state without it (R524). -/
def ResponderTurn (s : State) (op : Nat) (f : Bytes) (u : State) : Prop :=
  domainOn s .svc = true ∧ flag s F.SVC_CTRL_RESPOND = true ∧
  ∃ rest, takeFrame op s.svc.responder = some (f, rest) ∧ u = { s with svc := { s.svc with responder := rest } }

/-- Crew firmware's oldest request of an opcode is `f`, with its MAC and SEQ right; `u` is the state without it, its SEQ accepted (R523, R524). -/
def ServiceTurn (s : State) (op : Nat) (f : Bytes) (u : State) : Prop :=
  coreLive s = true ∧ s.pwr.dev ≠ 7 ∧ svcAuth f = true ∧
  ∃ rest, takeFrame op s.svc.requests = some (f, rest) ∧ svcAccept { s with svc := { s.svc with requests := rest } } f = some u

/-- Cox serves channel `c` next, whose request carries an opcode, no reserved bit, and a payload `p` of a length from `lo` to `hi`; no vault dump runs (R239, R557, R558). -/
def MailTurn (s : State) (op lo hi c : Nat) (p : Bytes) : Prop :=
  domainOn s .cox = true ∧ s.cox.verified = true ∧ s.cox.loading = none ∧ s.pj.dumping = none ∧ mbNext s = some c ∧ mbOp (mbBytes s c) = op ∧
  fld (mbBytes s c) 2 2 = 0 ∧ lo ≤ mbLen (mbBytes s c) ∧ mbLen (mbBytes s c) ≤ hi ∧ p = mbPayload (mbBytes s c)

/-- A position of this seat is made again from the units of its stripe: `t` is the state with its fragment programmed, or with its VOID note where a data
unit has no byte but zero (R280, R266, R330). -/
def Remade (s : State) (user group stripe pos gen : Nat) (t : State) : Prop :=
  ∃ x v d dec reps unit, genOf s group gen = some x ∧ readStripe s user group gen stripe (List.range x.k) = (v, .units d dec reps) ∧
    unit = (if pos < x.k then (d[pos]?).getD [] else parityUnit x 65536 (pos - x.k) d) ∧
    (pos < x.k → allZero unit = true → t = addNote (dropFetches v user) 2 pos group stripe 1) ∧
    (¬(pos < x.k ∧ allZero unit = true) →
      ∃ w, programFrag v none ⟨group, stripe, pos, 0, 0, 0, 0, crc32c unit, gen, x.k, x.m⟩ unit = some w ∧ t = dropFetches w user)

/-- The container that the loader reads is good (Table 08-6, R314, R176, R219): `t` is the state with it kept, its image written and it staged. -/
def LoaderAccepts (s t : State) : Prop :=
  ∃ r c self img w, r = readLoose (linePieces (max 256 (min (getF s F.RIG_SRC_LEN_BYTES) 0x10000000) / 256 + 2) (getF s F.RIG_SRC_ADDR_ADDR)
      (max 256 (min (getF s F.RIG_SRC_LEN_BYTES) 0x10000000))) s 10 ∧ c = r.2.1 ∧ rigCheck s c (getF s F.RIG_SRC_LEN_BYTES) r.2.2 = 0 ∧
    self = (rigSelf c).getD 0 ∧ rigBroken c self = false ∧ rigMisuse c self = none ∧ img = imageLay (imageTables c self) 0 ∧
    w = (fabWrite (setF r.1 F.RIG_STATUS_BUSY 0) 10 (getF (setF r.1 F.RIG_STATUS_BUSY 0) F.RIG_IMAGE_ADDR_ADDR) img.1).1 ∧
    t = pulse (logCrew (setF (setF (setF (keepContainer { w with rig := { w.rig with staged := some ⟨img.2,
        (List.range 10).map (fun k => (((imageTables c self)[k]?).getD []).length / rigEntrySize (k + 1)), img.1.length, self⟩ } }
      (fld c 16 8) (c.take (fld c 8 4))) F.RIG_STATUS_STAGED 1) F.RIG_STAGED_EPOCH_EPOCH (fld c 16 8)) F.RIG_STAGED_CRC_CRC (fld c 52 4)) EV.rigStaged) 136

/-- The container that the loader reads fails a check (Table 08-6, R302): `t` is the state with the code of the first that fails and nothing staged by it. -/
def LoaderRejects (s t : State) : Prop :=
  ∃ r code, r = readLoose (linePieces (max 256 (min (getF s F.RIG_SRC_LEN_BYTES) 0x10000000) / 256 + 2) (getF s F.RIG_SRC_ADDR_ADDR)
      (max 256 (min (getF s F.RIG_SRC_LEN_BYTES) 0x10000000))) s 10 ∧ code = rigCheck s r.2.1 (getF s F.RIG_SRC_LEN_BYTES) r.2.2 ∧ code ≠ 0 ∧
    t = pulse (logCrew (setF (setF (setF r.1 F.RIG_STATUS_BUSY 0) F.RIG_STATUS_ERROR 1) F.RIG_STATUS_ERRCODE code) EV.rigRejected) 136

/-- The loader's end: the container rejected or staged. -/
def LoaderEnds (s t : State) : Prop := LoaderRejects s t ∨ LoaderAccepts s t

/-- A DMA channel starts the descriptor at an address, which it reads and finds good (R440, R442): `t` is the state in which it is RUNNING with it. -/
def DmaStarts (u : State) (channel a : Nat) (t : State) : Prop :=
  ∃ v d, fabRead (putChan (setChanState (setF u (F.DMA_CH_DESC_ADDR channel) (a / 64)) channel 1)
      { chanOf u channel with desc := none, done := 0, issued := 0, bursts := [], last := none, covered := 0, follow := 0, irqAfter := false })
    (dmaRid channel) (a / 64 * 64) 64 = (v, some d) ∧ descReserved d = false ∧
  t = putChan v { chanOf u channel with desc := some d, done := 0, issued := 0, bursts := [], last := none, covered := 0, follow := 0, irqAfter := false } ∧
  descFault t channel d = false ∧ descOverlap d = false

/-- No stored frame of a ring can be placed now: none waits, the ring is off, or the first needs more buffers than are posted (R505). -/
def RingIdle (s : State) (p r : Nat) : Prop :=
  ∀ f, ((macOf s p).store.find? fun f => f.ring == r) = some f → flag s (rxf p r F.MACA_RXR_CFG_ENABLE F.SVC_RXR_CFG_ENABLE) = false ∨
    idxSub (getF s (rxf p r F.MACA_RXR_PI_INDEX F.SVC_RXR_PI_INDEX)) (getF s (rxf p r F.MACA_RXR_CI_INDEX F.SVC_RXR_CI_INDEX)) <
      max 1 (ceilDiv f.data.length (bufSize s p r))

/-- A ring is looked at (R505): nothing can be placed, or its first stored frame is placed whole, on the service port given to crew firmware where it
is a service request (R524), and nothing more can be; `t` is the state then. -/
def RingPlaces (s : State) (p r : Nat) (t : State) : Prop :=
  (RingIdle s p r ∧ t = s) ∨
  ∃ f w, ((macOf s p).store.find? fun f => f.ring == r) = some f ∧ flag s (rxf p r F.MACA_RXR_CFG_ENABLE F.SVC_RXR_CFG_ENABLE) = true ∧
    max 1 (ceilDiv f.data.length (bufSize s p r)) ≤
      idxSub (getF s (rxf p r F.MACA_RXR_PI_INDEX F.SVC_RXR_PI_INDEX)) (getF s (rxf p r F.MACA_RXR_CI_INDEX F.SVC_RXR_CI_INDEX)) ∧
    placeParts (max 1 (ceilDiv f.data.length (bufSize s p r))) (putMac s { macOf s p with store := (macOf s p).store.erase f }) p f true f.data =
      (w, .ok true) ∧
    t = (if p = 2 && beNat (slice f.data 12 2) == 0x88B6 && !(bitAt f.cls 31) then
      { w with svc := { w.svc with requests := w.svc.requests ++ [f.data] } } else w) ∧ RingIdle t p r

/-- A receive store has room for a frame of a ring: its QUOTA and the 1 MB of the port, on the service port 16 KB (R505, R528). -/
def StoreRoom (s : State) (p r : Nat) (frame : Bytes) : Prop :=
  if p = 2 then storedBytes s 2 none + (frame.length + 4) ≤ 16384
  else storedBytes s p (some r) + (frame.length + 4) ≤ getF s (mp p (F.MACA_RXR_CFG_QUOTA r)) * 4096 ∧ storedBytes s p none + (frame.length + 4) ≤ 0x100000

/-- A frame is admitted to a ring's store with its stamp and placed where it can be, or refused and counted for want of room (R505). -/
def StoreTakes (s : State) (p r : Nat) (frame : Bytes) (cls : Nat) (hit : Bool) (t : State) : Prop :=
  (¬ StoreRoom s p r frame ∧ t = if p = 2 then countNobuf s 2 else countF s (mp p F.MACA_CNT_RX_STORE_COUNT) 1) ∨
  (StoreRoom s p r frame ∧ RingPlaces (putMac s { macOf s p with store := (macOf s p).store ++
    [⟨r, frame, if p = 2 then 0 else ptpStamp s (getF s (mp p F.MACA_PTP_RXLAT_NS)), cls, hit, s.now⟩] }) p r t)

/-- The form that every step keeps: the register store and the shadows list their keys in rising order, memory is in its canonical form, and so are
the journal bytes of every vault image. -/
def State.Inv (s : State) : Prop :=
  kvWf s.regs ∧ kvWf s.shadow ∧ Memory.wf s.mem ∧ ∀ i ∈ s.pj.vault, Memory.wf i.cells

/-- Every register field but those listed reads in `t` what it read in `s`. -/
def RegsSame (s t : State) (but : List Fld) : Prop := ∀ f : Fld, (∀ g ∈ but, fldKey g ≠ fldKey f) → getF t f = getF s f

/-- Every byte of memory outside `n` bytes from `a` reads in `t` what it read in `s`. -/
def MemSame (s t : State) (a n : Nat) : Prop := ∀ x, x < a ∨ a + n ≤ x → memGet t.mem x = memGet s.mem x

end Sys2Proof.Machine
end

