-- ==== Sys2Proof/Certificates/Slice0/Obligations.lean ====
section
/-! DEFINITION. The statements for the provers, in the order of the chapters of spec/. A statement says that a command completes where its
conclusion names the next state, or Completes with what that state holds. -/

section Statements

open Sys2Proof Sys2Proof.Machine

/-- A step runs the command at the front of the queue. R9 and the table of operations. -/
def Obligations.StepRunsFrontCommand : Prop :=
  ∀ (c : Instr) (rest : List Instr) (s : State), step { s with pending := c :: rest } = exec c { s with pending := rest }

/-- With no command waiting 10 ns pass. R24 to R26, Table 01-3 (clocks). -/
def Obligations.EmptyQueueTicks : Prop :=
  ∀ s : State, s.pending = [] → step s = .next { s with now := s.now + 10 }

/-- What the commands of a running crew core do. R17, R32, R33, R42, R45. -/
def Obligations.CoreCommandsComplete : Prop :=
  ∀ (s : State) (core : Nat), coreOn s core = true →
    exec (.fence core) s = .next { coreActs s core with cores := { (coreActs s core).cores with
      unfenced := (coreActs s core).cores.unfenced.filter fun w => w.1 != core } } ∧
    exec (.fenceI core) s = .next { coreActs s core with cores := { (coreActs s core).cores with
      icacheHeld := (coreActs s core).cores.icacheHeld.filter (· != core)
      written := (s.cores.written.map fun w => (w.1, w.2.1, w.2.2 - (w.2.2 &&& 2 ^ core))).filter fun w => w.2.2 != 0 } } ∧
    ((eligible (coreActs s core) core = [] → timerPending (coreActs s core) core = false →
      exec (.wfi core) s = .next { coreActs s core with cores := { (coreActs s core).cores with waiting := core :: (coreActs s core).cores.waiting } })) ∧
    (∀ id, exec (.irqComplete core id) s = .next { coreActs s core with irq := { s.irq with
      inService := s.irq.inService.filter (· != (id, core)) } }) ∧
    (eligible (coreActs s core) core = [] → exec (.irqClaim core) s = .next (emit (coreActs s core) (.readValue (F.IRQ_CLAIM_ID core).addr 0))) ∧
    exec (.fabErrClear core) s = .next (setF (coreActs s core) F.FAB_ERR_STATUS_VALID 0) ∧
    Completes (.machineTimerExpiry core) s (fun t => t.now = max s.now (s.pwr.mtimeAt + 10 * getF s (F.IRQ_MTIMECMP_TIME core)) ∧
      core ∉ t.cores.waiting ∧ t.regs = s.regs ∧ t.mem = s.mem)

/-- IRQ_CLAIM returns the pending source of highest priority and puts it in service. R41. -/
def Obligations.ClaimReturnsBestSource : Prop :=
  ∀ (s : State) (core : Nat), coreOn s core = true → eligible (coreActs s core) core ≠ [] →
    ∃ i ∈ eligible (coreActs s core) core,
      (∀ j ∈ eligible (coreActs s core) core, getF s (F.IRQ_SRC_ROUTE_PRIO j) < getF s (F.IRQ_SRC_ROUTE_PRIO i) ∨
        (getF s (F.IRQ_SRC_ROUTE_PRIO j) = getF s (F.IRQ_SRC_ROUTE_PRIO i) ∧ i ≤ j)) ∧
      exec (.irqClaim core) s = .next (emit { coreActs s core with irq :=
        { inService := s.irq.inService ++ [(i, core)], latch := s.irq.latch.filter (· != i) } } (.readValue (F.IRQ_CLAIM_ID core).addr i))

/-- A further failed access is counted and the latched record is kept. R44. -/
def Obligations.FabricRecorderKeepsFirst : Prop :=
  ∀ (s : State) (kind rid a : Nat) (wr : Bool), flag s F.FAB_ERR_STATUS_VALID = true →
    getF (fabLatch s kind rid wr a) F.FAB_ERR_COUNT_COUNT = min 0xFFFF (getF s F.FAB_ERR_COUNT_COUNT + 1) ∧
    flag (fabLatch s kind rid wr a) F.FAB_ERR_STATUS_OVERFLOW = true ∧ flag (fabLatch s kind rid wr a) F.FAB_ERR_STATUS_VALID = true ∧
    getF (fabLatch s kind rid wr a) F.FAB_ERR_INFO_KIND = getF s F.FAB_ERR_INFO_KIND ∧
    getF (fabLatch s kind rid wr a) F.FAB_ERR_INFO_DIR = getF s F.FAB_ERR_INFO_DIR ∧
    getF (fabLatch s kind rid wr a) F.FAB_ERR_INFO_RID = getF s F.FAB_ERR_INFO_RID ∧
    getF (fabLatch s kind rid wr a) F.FAB_ERR_ADDR_ADDR = getF s F.FAB_ERR_ADDR_ADDR ∧ (fabLatch s kind rid wr a).mem = s.mem

/-- Memory reads back what was written and nothing else changes. R7, R8. -/
def Obligations.MemoryReadsBackWhatWasWritten : Prop :=
  ∀ (s : State) (a : Nat) (bs : Bytes) (x : Nat), Memory.wf s.mem →
    Memory.wf (memWrite s a bs).mem ∧ memGet (memWrite s a bs).mem x = (if a ≤ x ∧ x < a + bs.length then bs.getD (x - a) 0 else memGet s.mem x) ∧
    memRead (memWrite s a bs) a bs.length = bs

/-- A store of a crew core to memory writes its bytes. R8, R30, R32, R33, R38, R39, R226. -/
def Obligations.MemoryStoreCompletes : Prop :=
  ∀ (s : State) (core addr width value : Nat), coreOn s core = true → windowOf addr = none → busTarget addr = .mem →
    busFault (coreActs s core) addr width true = none → memMisuse (coreActs s core) addr (le width value) = none →
    exec (.registerWrite 0 core addr width value) s =
      (let w := (fabWrite (coreWrote (coreActs s core) core addr width) (coreRid core) addr (le width value)).1
       .next (if overlaps addr width ringBase (pjRingBytes s) then ringWritten w else w))

/-- A register write acts on its fields by their types. R9, R10, R37, R38, R241, R255, R393, R400, R433, R497, R505, R509. -/
def Obligations.RegisterWriteCompletes : Prop :=
  ∀ (s a t : State) (core addr width value b v old new : Nat) (r : RegFam), coreOn s core = true → windowOf addr = none → busTarget addr = .reg b r →
    a = coreActs s core → busFault a addr width true = none → v = value % 2 ^ (8 * width) * 2 ^ (8 * (addr - b)) → reservedHit r v = false →
    old = composed a b r.fields → new = old - (old &&& ((2 ^ (8 * width) - 1) * 2 ^ (8 * (addr - b)))) + v → regMisuse a b old new = none →
    t = fieldsWrite (coreRid core) b (8 * (addr - b)) (8 * width) v r.fields a →
    (width = 8 → new ≠ old → placesRegion b = true → regionsClash t = none) →
    (b ∉ [0x010C000400, 0x010C000428, 0x0102000000, 0x0100400018, 0x010F200000, 0x010100000C, 0x0101000210, 0x010D000208] →
      ¬ (0x010C000000 ≤ b ∧ b < 0x010C200000) → exec (.registerWrite 0 core addr width value) s = .next t) ∧
    (b = 0x010C000400 ∨ b = 0x010C000428 → exec (.registerWrite 0 core addr width value) s =
      .next { t with net := { t.net with ptpNs := ptpNow a, ptpAt := t.now } }) ∧
    (b = 0x0102000000 → exec (.registerWrite 0 core addr width value) s =
      .next (if getF t F.WQ_CTRL_LEGACY = getF a F.WQ_CTRL_LEGACY then t else
        if flag a F.WQ_CTRL_ENABLE then setF t F.WQ_CTRL_LEGACY (getF a F.WQ_CTRL_LEGACY) else { t with wq := { t.wq with queues := [] } })) ∧
    (b = 0x0100400018 → exec (.registerWrite 0 core addr width value) s =
      .next (if flag a F.AON_WDOG_ENABLE = true then setF t F.AON_WDOG_SECONDS (getF a F.AON_WDOG_SECONDS) else t)) ∧
    (∀ u, b = 0x010F200000 → u = (if bitAt v 31 then t else setF t F.PJ_CTRL_ENABLE 0) → exec (.registerWrite 0 core addr width value) s =
      .next (if flag u F.PJ_CTRL_DUMP_ARM && !(flag a F.PJ_CTRL_DUMP_ARM) then { u with pj := { u.pj with armMark := getF u F.PJ_DUMP_SEQ_SEQ } } else u)) ∧
    (b = 0x010100000C → exec (.registerWrite 0 core addr width value) s =
      .next { t with sc := { t.sc with streams := t.sc.streams.filter fun x => bitAt (getF t F.SC_STREAM_DETECT) x.1 } }) ∧
    (b = 0x0101000210 → exec (.registerWrite 0 core addr width value) s =
      .next (if bitAt v 31 = true ∧ bits v 0 2 = 0 then setF t F.SC_MAINT_STATUS_REJECTED 1 else t)) ∧
    (∀ p o n u, p < 2 → b = 0x010C000000 + p * 0x100000 + o → o < 0x100000 → b ≠ 0x010C000400 → b ≠ 0x010C000428 → n = o % 0x100 / 0x20 →
      (o = 4 → exec (.registerWrite 0 core addr width value) s = .next (showRate t p)) ∧
      (o ≠ 4 → ¬ (0x100 ≤ o ∧ o < 0x200 ∧ o % 0x20 = 8 ∧ flag t (mp p (F.MACA_RXR_CFG_ENABLE n)) = true) →
        exec (.registerWrite 0 core addr width value) s = .next t) ∧
      (0x100 ≤ o → o < 0x200 → o % 0x20 = 8 → flag t (mp p (F.MACA_RXR_CFG_ENABLE n)) = true → RingPlaces t p n u →
        exec (.registerWrite 0 core addr width value) s = .next u)) ∧
    (∀ u, b = 0x010D000208 →
      (flag t F.SVC_RXR_CFG_ENABLE = false → exec (.registerWrite 0 core addr width value) s = .next t) ∧
      (flag t F.SVC_RXR_CFG_ENABLE = true → RingPlaces (svcHeldPlace t) 2 0 u → exec (.registerWrite 0 core addr width value) s = .next u))

/-- A write that covers an RW field sets it to the written bits. R9 and Table 00-5. -/
def Obligations.RwFieldReadsWhatWasWritten : Prop :=
  ∀ (s : State) (rid b lo n v : Nat) (d : FDef), d.ty = .rw → d.row = false → lo ≤ d.lo → d.lo + d.width ≤ lo + n → 0 < d.width →
    getF (fieldWrite s rid b lo n v d) (fieldAt d b) = bits v d.lo d.width ∧
    (∀ g : Fld, fldKey g ≠ fldKey (fieldAt d b) → getF (fieldWrite s rid b lo n v d) g = getF s g) ∧ (fieldWrite s rid b lo n v d).mem = s.mem

/-- Writing 1 clears a bit of a W1C field and writing 0 leaves it. R9 and Table 00-5. -/
def Obligations.W1cFieldClears : Prop :=
  ∀ (s : State) (rid b lo n v : Nat) (d : FDef), d.ty = .w1c → d.row = false → lo ≤ d.lo → d.lo + d.width ≤ lo + n → 0 < d.width →
    getF s (fieldAt d b) < 2 ^ d.width → ∀ i < d.width,
    (getF (fieldWrite s rid b lo n v d) (fieldAt d b)).testBit i = ((getF s (fieldAt d b)).testBit i && !(v.testBit (d.lo + i)))

/-- A read of an RC counter returns the count and clears it. R9 and Table 00-5. -/
def Obligations.RcReadReturnsAndClears : Prop :=
  ∀ (s : State) (core addr b : Nat) (r : RegFam) (d : FDef), coreOn s core = true → windowOf addr = none → busTarget addr = .reg b r → addr = b →
    r.wide = false → r.fields = [d] → d.ty = .rc → d.lo + d.width ≤ 32 → 0 < d.width → busFault (coreActs s core) addr 4 false = none →
    swapWaits (coreActs s core) addr 4 = false → ¬ (0x0100802000 ≤ b ∧ b < 0x0100802800) → b ≠ 0x010C000408 → ¬ (0x010F200100 ≤ b ∧ b < 0x010F200180) →
    Completes (.rcCounterRead 0 core addr 4) s (fun t =>
      t.out = s.out ++ [.readValue addr (bits (shownReg (coreActs s core) b r) 0 32)] ∧
      (getF s (fieldAt d b) < 2 ^ d.width → getF t (fieldAt d b) = 0) ∧
      (∀ g : Fld, fldKey g ≠ fldKey (fieldAt d b) → getF t g = getF s g) ∧ t.mem = s.mem)

/-- What packets, congestion notices and transport failures do to a session. R47, R48, R69, R77, R78, Table 02-2. -/
def Obligations.SessionTransportCompletes : Prop :=
  ∀ (s : State) (session : Nat) (x : Sess), coreLive s = true → sessRec s session = some x → sessState s session ≠ 0 →
    (∀ op ∈ roceReceived, exec (.rocePacketReceived session 1 1 op 0 0) s =
      .next (modSess s session fun y => { y with retries := 0, rnrs := 0, rnrWait := false })) ∧
    (x.rnrs < x.rnrMax → exec (.rocePacketReceived session 1 1 0x11 1 0) s =
      .next (modSess s session fun y => { y with rnrs := y.rnrs + 1, rnrWait := true })) ∧
    (x.rnrMax ≤ x.rnrs → exec (.rocePacketReceived session 1 1 0x11 1 0) s = .next (sessClose s session 2)) ∧
    (∀ op, op ∉ roceReceived → op ≠ 0x12 → exec (.rocePacketReceived session 1 1 op 0 0) s = .next (sessClose (emit s (.roce session 2)) session 2)) ∧
    (∀ op ∈ roceReceived, x.cnpTx = none → exec (.rocePacketReceived session 1 1 op 0 1) s =
      .next (takeAck (countF (emit (modSess s session fun y => { y with cnpTx := some s.now }) (.cnp session)) F.HTE_CNT_CNP_TX_COUNT 1) session x false)) ∧
    (∀ header op rnr ce, exec (.rocePacketReceived session 0 header op rnr ce) s = .next s) ∧
    (x.raisedAt = none → sessAt s session 85 1 < 15 → exec (.cnpReceived session) s =
      (let u := countF s F.HTE_CNT_CNP_RX_COUNT 1
       let u := modSess u session fun y => { y with cnpRx := some u.now }
       .next (modSess (setStep u session (sessAt s session 85 1 + 1)) session fun y => { y with raisedAt := some u.now }))) ∧
    (sessAt s session 85 1 ≠ 0 → (rateStep s (sessAt s session 84 1) (sessAt s session 85 1)).2 ≠ 0 → exec (.rateRecoveryExpiry session) s =
      .next (setStep (reach s (max x.stepAt (x.cnpRx.getD 0) + (rateStep s (sessAt s session 84 1) (sessAt s session 85 1)).2 * us)) session
        (sessAt s session 85 1 - 1))) ∧
    (sessLive s session = true → x.ready = true → x.rnrWait = false → x.retries < x.retryMax → x.ackExp ≠ 0 → exec (.localAckTimeout session) s =
      .next (emit (putSess (reach s (x.timerAt + 4096 * 2 ^ x.ackExp)) { x with retries := x.retries + 1, timerAt := max s.now (x.timerAt + 4096 * 2 ^ x.ackExp) })
        (.retransmit session))) ∧
    (sessLive s session = true → x.ready = true → x.rnrWait = true → exec (.localAckTimeout session) s =
      .next (emit (putSess s { x with rnrWait := false, timerAt := s.now }) (.retransmit session))) ∧
    exec (.qpRetryExhausted session) s = .next (sessClose s session 2) ∧
    exec (.rdmaErrorNak session) s = .next (sessClose s session 2)

/-- What the messages of connection management do. R49, R51, Table 02-2. -/
def Obligations.ConnectionCommandsComplete : Prop :=
  ∀ (s : State) (comm id session : Nat), coreLive s = true →
    ((s.hte.sessions.find? fun x => !x.initiator && x.comm == comm && sessLive s x.id) = none → flag s F.HTE_CTRL_ACCEPT = true →
      2 ≤ s.pwr.dev → s.pwr.dev ≤ 6 → freeSession s = some id →
      ∀ timeout retry rnr, exec (.cmReq (serviceId 0) comm 4096 0xFFFF timeout retry rnr) s = .next (emit (sessConnect s
        { newSess id comm false with retryMax := min 7 retry, rnrMax := min 7 rnr, ackExp := timeout } 0 false) (.cm 1 id 0 []))) ∧
    ((s.hte.sessions.find? fun x => !x.initiator && x.comm == comm && sessLive s x.id) = none → flag s F.HTE_CTRL_ACCEPT = false →
      ∀ timeout retry rnr, exec (.cmReq (serviceId 0) comm 4096 0xFFFF timeout retry rnr) s = .next (emit s (.cm 3 0xFFFFFFFF 1 []))) ∧
    (sessState s session = 1 → exec (.cmRtu session) s = .next (modSess s session fun x => { x with ready := true })) ∧
    (sessLive s session = true → exec (.cmDreq session) s = .next (sessClose (emit s (.cm 5 session 0 [])) session 1)) ∧
    (∀ t, (sessRec s session).bind Sess.handshakeAt = some t → sessState s session = 1 →
      exec (.handshakeTimerExpiry session) s = .next (sessDrop (reach s t) session 3))

/-- What the session opcodes do once a command's turn has come. R56, R57, R58, R79, R80, R81, R82, Table 02-2, Table 02-5. -/
def Obligations.SessionOpcodesComplete : Prop :=
  ∀ (s : State) (cmd : Nat) (c : Cmd), coreLive s = true → cmdReady s c = true →
    (cmdWith s cmd 0x06 = some c → exec (.nop cmd) s = .next (answer s { c with started := true } ST.ok 0 0)) ∧
    (cmdWith s cmd 0x03 = some c → exec (.close cmd) s = .next (sessDrop (answer s { c with started := true } ST.ok 0 0) c.session 0)) ∧
    (cmdWith s cmd 0x01 = some c → sessState s c.session = 1 → capP0 c.capsule / 65536 = 0 → exec (.open cmd) s =
      (let n := freshBytes s 32
       let u := sessPut (sessPut (sessPut n.2 c.session 66 2 (capP0 c.capsule % 65536)) c.session 68 2 1024) c.session 64 1 2
       let u := memWrite u (sessBase + 128 * c.session + 88) n.1
       let u := modSess u c.session fun x => { x with nonce := (capInline c.capsule).take 32 }
       .next (answerInline u { c with started := true } Config.hull (c.session + 65536 * 1024 + 2 ^ 32) n.1))) ∧
    (∀ d, cmdWith s cmd 0x05 = some c → handleCmd s c.session (capP0 c.capsule) = some d → d.ended = true →
      exec (.resultRelease cmd) s = .next (answer (endCmd s d) { c with started := true } ST.ok 0 0)) ∧
    (∀ d m, cmdWith s cmd 0x04 = some c → handleCmd s c.session (capP0 c.capsule) = some d → d.result = some m → exec (.resultFetch cmd) s =
      .next (finish (putCmd s { d with fetched := true }) { c with started := true }
        (slice c.capsule 8 8 ++ slice m 8 3 ++ le 1 (fld m 11 1 % 2 + 2 * b2n d.fetched + 4) ++ m.drop 12))) ∧
    (∀ t, cmdWith s cmd 0x02 = some c → sessState s c.session = 2 → tenantOf s (sessAt s c.session 66 2) = some t →
      (capInline c.capsule).take 48 = sessionProof t.secret labelSessH (((sessRec s c.session).map Sess.nonce).getD [])
        (memRead s (sessBase + 128 * c.session + 88) 32) c.session (sessAt s c.session 66 2) →
      exec (.auth cmd) s = .next (answerInline (accessSync (modSess (sessPut (sessPut s c.session 64 1 3) c.session 80 4 (sessAt s c.session 66 2)) c.session
          fun x => { x with handshakeAt := none })) { c with started := true } 0 0 (sessionProof t.secret labelSessD (((sessRec s c.session).map Sess.nonce).getD [])
          (memRead s (sessBase + 128 * c.session + 88) 32) c.session (sessAt s c.session 66 2))))

/-- What a capsule, room in the exception queue and an RDMA READ response do. R62, R66, R72, R76, R85, R306, Table 02-6. -/
def Obligations.CapsulesAndHoldsComplete : Prop :=
  ∀ (s : State) (session : Nat) (x : Sess) (message : Bytes), coreLive s = true → sessRec s session = some x →
    (takesCapsules s session = true → flag s F.HTE_SESS_HOLD_HELD = false → accessClash s session message = false →
      Completes (.capsule session message) s fun t =>
        (∀ st r0 r1 u, capsuleChecks s session message = (u, some (st, r0, r1, none)) →
          t = refuse u session (replyBytes (if message.length < 16 then fit (message.take 8) 16 else message.take 4416) st 0 0 r0 r1 [])) ∧
        (∀ st r0 r1 y u, capsuleChecks s session message = (u, some (st, r0, r1, some y)) →
          t = refuse u session (redirectBytes u (if message.length < 16 then fit (message.take 8) 16 else message.take 4416) y))) ∧
    (∀ u v c, takesCapsules s session = true → flag s F.HTE_SESS_HOLD_HELD = false → accessClash s session message = false →
      capsuleChecks s session message = (u, none) → acceptCmd u session message = (v, some c) →
      (∀ w x, (flag v F.RIG_STATUS_SWAPPING && needsRig message) = false → handReason v c.capsule = (w, 0, x) → orderedWaits w c = false →
        exec (.capsule session message) s = .next (readMore 16 w c.index)) ∧
      (∀ w x, (flag v F.RIG_STATUS_SWAPPING && needsRig message) = false → handReason v c.capsule = (w, 0, x) → orderedWaits w c = true →
        exec (.capsule session message) s = .next w) ∧
      (∀ w r x, (flag v F.RIG_STATUS_SWAPPING && needsRig message) = false → handReason v c.capsule = (w, r, x) → r ≠ 0 → entryHeld (handOn w c r x 0) c = false →
        exec (.capsule session message) s = .next (takeUp (handOn w c r x 0) c.index)) ∧
      ((flag v F.RIG_STATUS_SWAPPING && needsRig message) = true → exec (.capsule session message) s = .next (putCmd v { c with reason := heldForSwap }))) ∧
    (takesCapsules s session = true → flag s F.HTE_SESS_HOLD_HELD = true →
      getF s F.HTE_SESS_HOLD_SESSION = session → exec (.capsule session message) s = .next (emit s (.roce session 1))) ∧
    (s.hte.excHeld = [] → exec .excQueueRoom s = .next s) ∧
    (∀ u, u = excDrain s.hte.excHeld s → exec .excQueueRoom s = .next ((s.hte.excHeld.take (s.hte.excHeld.length - u.hte.excHeld.length)).foldl
      (fun s e => if fld e 0 1 = 0x70 then takeUp s (fld e 8 4 % 2 ^ 18) else s) u)) ∧
    (∀ user at_ rest c, x.reads = (user, at_, message.length) :: rest → user < 2 ^ 20 → cmdOf (putSess s { x with reads := rest }) user = some c →
      (∀ u, u = storeAs (putCmd (putSess s { x with reads := rest }) { c with value := c.value ++ message }) 4 (stagingSlot user) message →
        exec (.rdmaReadResponse session message) s = .next
          (((u.hte.cmds.filter fun c => c.session == session && decide (c.asked > 0) && c.reply.isNone).map Cmd.index).foldl (fun s i => readMore 16 s i) u)))

/-- What the entries of crew firmware to the host transport engine do. R89, R90, R91, Tables 02-13 and 02-14. -/
def Obligations.HteEntriesComplete : Prop :=
  ∀ (s : State) (queue : Nat) (t : Taken), coreLive s = true → hteReserved t.bytes = false →
    (∀ c, hteEntry s queue 0x73 = some t → bitAt (fld t.bytes 32 1) 1 = true → fld t.bytes 12 4 = 0 → cmdById s (fld t.bytes 8 4) = some c →
      sessLive s c.session = true → exec (.hteReply queue) s = .next (hteDone (endCmd s c) t 0)) ∧
    (∀ c x, hteEntry s queue 0x74 = some t → rdmaCheck s t = .ok c → sessRec s c.session = some x → x.reads.length < 16 →
      exec (.hteRdmaRead queue) s = .next (putSess (emit s (.rdmaRead c.session ((fld c.capsule 24 8 + fld t.bytes 32 8) % 2 ^ 64) (fld c.capsule 20 4)
        (fld t.bytes 12 4))) { x with reads := x.reads ++ [(2 ^ 20 + t.queue, t.index, fld t.bytes 12 4)] })) ∧
    (∀ c u d, hteEntry s queue 0x75 = some t → rdmaCheck s t = .ok c → fabRead s 4 (fld t.bytes 16 8) (fld t.bytes 12 4) = (u, some d) →
      exec (.hteRdmaWrite queue) s = .next (hteDone (emit u (.rdmaWrite c.session ((fld c.capsule 24 8 + fld t.bytes 32 8) % 2 ^ 64)
        (fld c.capsule 20 4) d)) t 0)) ∧
    (∀ u m, hteEntry s queue 0x76 = some t → 64 ≤ fld t.bytes 12 4 → fld t.bytes 12 4 ≤ 65624 → sessLive s (fld t.bytes 8 2) = true →
      sessKind s (fld t.bytes 8 2) = 1 → fabRead s 3 (fld t.bytes 16 8) (fld t.bytes 12 4) = (u, some m) →
      exec (.hteSend queue) s = .next (hteDone (emit u (.peer (fld t.bytes 8 2) m)) t 0)) ∧
    (hteEntry s queue 0x77 = some t → 1024 ≤ fld t.bytes 12 4 → fld t.bytes 12 4 ≤ 65664 → fld t.bytes 12 4 % 64 = 0 → fld t.bytes 16 8 % 64 = 0 →
      exec (.hteRxPost queue) s = .next (hteDone { s with hte := { s.hte with rxBufs := s.hte.rxBufs ++ [(fld t.bytes 16 8, fld t.bytes 12 4)] } } t 0)) ∧
    (hteEntry s queue 0x78 = some t → sessState s (fld t.bytes 8 2) ≠ 0 → sessState s (fld t.bytes 8 2) ≠ 4 →
      exec (.hteClose queue) s = .next (hteDone (sessDrop s (fld t.bytes 8 2) 5) t 0))

/-- A write of HTE_SESS_HOLD holds or releases a session. R84. -/
def Obligations.SessionHoldWriteCompletes : Prop :=
  ∀ (s : State) (core value : Nat), coreOn s core = true → bits value 16 14 = 0 →
    (flag s F.HTE_SESS_HOLD_REQ = false ∨ bitAt value 31 = false ∨ getF s F.HTE_SESS_HOLD_SESSION = value % 65536 →
      exec (.hteSessHoldWrite core value) s = .next (setF (setF (setF (coreActs s core) F.HTE_SESS_HOLD_REQ (bits value 31 1)) F.HTE_SESS_HOLD_HELD (bits value 31 1))
        F.HTE_SESS_HOLD_SESSION value)) ∧
    (flag s F.HTE_SESS_HOLD_REQ = true → bitAt value 31 = true → getF s F.HTE_SESS_HOLD_SESSION ≠ value % 65536 →
      exec (.hteSessHoldWrite core value) s = .next (coreActs s core))

/-- What EXISTS, GET, FIXITY and STAT of a stored key answer. R107, R113, R114, R115, R129, R130, Table 03-10. -/
def Obligations.KeyReadsComplete : Prop :=
  ∀ (s u v : State) (cmd : Nat) (c : Cmd) (p : KeyPlace) (b : Bytes) (e : Entry) (h : RecHdr) (bytes : Bytes) (dec : Bool)
    (reps : List (Nat × Nat × Bytes)), bucketGet s p.slice p.bucket = some (b, u) → entryOf b (capNsid c.capsule) p = some e →
    (KeyTurn s cmd 0x13 c p → exec (.exists cmd) s = .next (answer u { c with started := true } ST.ok e.version e.length)) ∧
    (KeyTurn s cmd 0x11 c p → capP2 c.capsule = 0 ∨ capP2 c.capsule = e.version → capP1 c.capsule ≤ e.length → ∀ len,
      len = (if capP0 c.capsule = 0 then e.length - capP1 c.capsule else min (capP0 c.capsule) (e.length - capP1 c.capsule)) →
      readObject u c.index (sliceGroup u p.slice) e p.hash (capP1 c.capsule) len = (v, .found h (capKey c.capsule) bytes dec reps) →
      c.reason ≠ 0 ∨ missingMask v c.index (sliceGroup u p.slice) e (capP1 c.capsule) len = 0 →
      exec (.get cmd) s = .next (answerData (readDone v c.index (sliceGroup u p.slice) dec reps) { c with started := true }
        (readStatusCode dec) e.version e.length bytes)) ∧
    (KeyTurn s cmd 0x19 c p → capP2 c.capsule = 0 ∨ capP2 c.capsule = e.version → capFlag c.capsule 5 = false →
      readObject u c.index (sliceGroup u p.slice) e p.hash 0 e.length = (v, .found h (capKey c.capsule) bytes dec reps) →
      exec (.fixity cmd) s = .next (fixityReply (readDone v c.index (sliceGroup u p.slice) dec reps) { c with started := true } e bytes dec 0 0)) ∧
    (KeyTurn s cmd 0x19 c p → capP2 c.capsule = 0 ∨ capP2 c.capsule = e.version → capFlag c.capsule 5 = true → ∀ w x l,
      readObject u c.index (sliceGroup u p.slice) e p.hash 0 e.length = (v, .found h (capKey c.capsule) bytes dec reps) →
      (u.pj.opens.any fun o => o.group == sliceGroup u p.slice && o.stripe == e.stripe) = false →
      genOf u (sliceGroup u p.slice) (genFor u (sliceGroup u p.slice) e.stripe) = some x →
      parityRun c.index (sliceGroup u p.slice) (genFor u (sliceGroup u p.slice) e.stripe) x
        (runStripes e.stripe (if e.length ≤ 65072 then 1 else largeRun x.k e.length)) v = (w, .differ l) →
      exec (.fixity cmd) s = .next (fixityReply (l.foldl (fun s r => match r.2.2 with
          | some y => replaceUnit s (sliceGroup u p.slice) (genFor u (sliceGroup u p.slice) e.stripe) r.1 (r.2.1, y)
          | none => s)
        (l.foldl (fun s _ => logCrew s EV.parityMismatch) (readDone w c.index (sliceGroup u p.slice) dec reps)))
        { c with started := true } e bytes dec 1 (b2n (!l.isEmpty)))) ∧
    (KeyTurn s cmd 0x1A c p → capKeyLen c.capsule > 0 → capNsid c.capsule ≠ 0 →
      readObject u c.index (sliceGroup u p.slice) e p.hash 0 0 = (v, .found h (capKey c.capsule) bytes dec reps) →
      exec (.stat cmd) s = .next (answerData (readDone v c.index (sliceGroup u p.slice) dec reps) { c with started := true } ST.ok 0 0
        (statObject v { c with started := true } b p e h.created h.user)))

/-- What LIST, LIFE and STAT of a namespace or the device answer. R116, R117, R118, R119, R130, R131, R132, Tables 03-9 to 03-12. -/
def Obligations.ListLifeAndStatComplete : Prop :=
  ∀ (s u : State) (cmd : Nat) (c : Cmd) (b : Bytes) (n : Nat) (next : Option (Nat × Nat)), coreLive s = true → cmdReady s c = true →
    (cmdWith s cmd 0x15 = some c →
      listWalk { c with started := true } (max (if capFlag c.capsule 0 then 4096 else 0) (capBufLen c.capsule))
        (capFlag c.capsule 4 || prefixHeld s (capNsid c.capsule)) 4096 s
        (cursorAt s (capP1 c.capsule % 65536) (bits (capP1 c.capsule) 16 32)) [] 0 = (u, .done b n next) →
      exec (.list cmd) s = .next (answerData (dropFetches u cmd)
        { c with started := true, asked := if c.asked = 0 then s.kv.view + 1 else c.asked } ST.ok
        (n + 2 ^ 32 * b2n next.isNone +
          2 ^ 33 * b2n ((if c.asked = 0 then s.kv.view + 1 else c.asked) != (dropFetches u cmd).kv.view + 1 ||
            (capP1 c.capsule != 0 && bits (capP1 c.capsule) 48 16 != (dropFetches u cmd).kv.view % 65536)))
        (match next with | some (x, k) => x + 2 ^ 16 * k + 2 ^ 48 * ((dropFetches u cmd).kv.view % 65536) | none => 2 ^ 64 - 1) b)) ∧
    (cmdWith s cmd 0x1B = some c → exec (.life cmd) s =
      .next (answer (lifeBytes s).2 { c with started := true } ST.ok (lifePercent s + 256 * b2n (s.pwr.dev == 5)) (lifeBytes s).1)) ∧
    (cmdWith s cmd 0x1A = some c → capKeyLen c.capsule = 0 → capNsid c.capsule = 0 → exec (.stat cmd) s =
      .next (answerData (statDevice s).2 { c with started := true } ST.ok 0 0 (statDevice s).1)) ∧
    (∀ x, cmdWith s cmd 0x1A = some c → capKeyLen c.capsule = 0 → capNsid c.capsule ≠ 0 → nsOf s (capNsid c.capsule) = some x →
      exec (.stat cmd) s = .next (answerData s { c with started := true } ST.ok 0 0 (statNs s x))) ∧
    (cmdWith s cmd 0x1A = some c → 0 < capKeyLen c.capsule → capNsid c.capsule = 0 → exec (.stat cmd) s = .next (answer s { c with started := true } ST.notPermitted 0 0))

/-- PUT and CAS store a value as the next version. R107, R109, R110, R111, R112, R157, R168, R170, R230, R235. -/
def Obligations.ValuesComplete : Prop :=
  ∀ (s u t : State) (cmd op : Nat) (c : Cmd) (p : KeyPlace) (b : Bytes) (v : Nat), ValueAllowed s cmd op c p b u → v = nextVersion u p.slice →
    ((valueOf c).length ≤ 65072 →
      Packed u { c with started := true } p (packedRecord (valueHeader u c p (valueOf c) v) (capKey c.capsule) (valueOf c))
        (fun stripe unit => changeBytes 1 0 p.slice p.bucket (entryBytes (entryAt (capNsid c.capsule) p stripe unit (valueOf c).length v))
          (entrySlotWord (entryAt (capNsid c.capsule) p stripe unit (valueOf c).length v)) 0 0 v)
        (replyBytes c.capsule ST.ok 0 0 v 0 []) (if asksAll u c then 2 else 3) id t →
      exec (if op = 0x10 then .put cmd else .cas cmd) s = .next t) ∧
    (65072 < (valueOf c).length → ∀ g x key serial v0 w y run group stripe ch i, group = sliceGroup u p.slice → groupRec u group = some g →
      writingSet u group = some x → nsKey u (capNsid c.capsule) = some key → run = largeRun x.k (valueOf c).length →
      takeSerials u g run = some (serial, v0) → w = (if capFlag c.capsule 0 then v0 else codeUnits v0 [stagingSlot c.index]) → stripe = stripeId g.seat serial →
      ch = stampChange w (changeBytes 1 0 p.slice p.bucket (entryBytes (entryAt (capNsid c.capsule) p stripe 0 (valueOf c).length v))
        (entrySlotWord (entryAt (capNsid c.capsule) p stripe 0 (valueOf c).length v)) 0 0 v) →
      i = newIntent group stripe run x false false (capNsid c.capsule) 1 [ch] ((sliceBow u p.slice).toList)
        (largeUnits u group (capNsid c.capsule) g.seat serial x key (largeStream (valueHeader u c p (valueOf c) v) (capKey c.capsule) (valueOf c)) run) →
      openIntent (putCmd w { c with started := true, intent := some (group, stripe), reply := some (replyBytes c.capsule ST.ok 0 0 v 0 []), waits := if asksAll u c then 2 else 1 })
        { i with durAll := asksAll u c } = some y →
      exec (if op = 0x10 then .put cmd else .cas cmd) s = .next (settleAll y))

/-- DELETE and DISCARD remove a version. R107, R115, R120, R122, R235. -/
def Obligations.RemovalsComplete : Prop :=
  ∀ (s u t : State) (cmd : Nat) (c : Cmd) (p : KeyPlace) (b : Bytes) (e : Entry), retainedBy u b (capNsid c.capsule) p (capKey c.capsule) = none →
    entryOf b (capNsid c.capsule) p = some e → capP2 c.capsule = 0 ∨ capP2 c.capsule = e.version → nextVersion u p.slice ≤ versionTop →
    (ChangeTurn s cmd 0x12 c p b u →
      Packed u { c with started := true } p (removalRecord c.capsule p 0 (nextVersion u p.slice) (calendarOr0 u))
        (fun _ _ => removeChange p e (nextVersion u p.slice)) (replyBytes c.capsule ST.ok 0 0 e.version 0 []) 3 id t →
      exec (.delete cmd) s = .next t) ∧
    (ChangeTurn s cmd 0x16 c p b u → exec (.discard cmd) s =
      (let ch := stampChange u (removeChange p e (nextVersion u p.slice))
       let d : Discarded := ⟨p.slice, p.bucket, capNsid c.capsule, ch, removalRecord c.capsule p 2 (nextVersion u p.slice) (calendarOr0 u), u.now, none⟩
       let w := (changeAll [ch] u).1
       .next (answer { w with kv := { w.kv with discards := w.kv.discards ++ [d] } } { c with started := true } ST.ok e.version 0)))

/-- A hold in force keeps a key from every change of its value. R103, R111, R122. -/
def Obligations.HeldKeyIsNotRemoved : Prop :=
  ∀ (s u : State) (cmd : Nat) (c : Cmd) (p : KeyPlace) (b : Bytes) (expiry flags : Nat),
    retainedBy u b (capNsid c.capsule) p (capKey c.capsule) = some (expiry, flags) →
    (ChangeTurn s cmd 0x12 c p b u → exec (.delete cmd) s = .next (answer u { c with started := true } ST.retained expiry flags)) ∧
    (ChangeTurn s cmd 0x16 c p b u → exec (.discard cmd) s = .next (answer u { c with started := true } ST.retained expiry flags)) ∧
    (ChangeTurn s cmd 0x10 c p b u → valueShort c = false → exec (.put cmd) s = .next (answer u { c with started := true } ST.retained expiry flags)) ∧
    (ChangeTurn s cmd 0x14 c p b u → valueShort c = false → exec (.cas cmd) s = .next (answer u { c with started := true } ST.retained expiry flags))

/-- RETAIN and RELEASE of a key write its hold. R122, R123, R124, R125, R163, R169. -/
def Obligations.KeyHoldsComplete : Prop :=
  ∀ (s u t : State) (cmd : Nat) (c : Cmd) (p : KeyPlace) (b : Bytes) (e : Entry) (h : Hold) (r : Slice), entryOf b (capNsid c.capsule) p = some e →
    h = (keyHold b (capNsid c.capsule) p).getD ⟨0, 0, 0, 0⟩ → r = (sliceRec u p.slice).getD (newSlice p.slice 0) → capFlag c.capsule 4 = false →
    (ChangeTurn s cmd 0x17 c p b u → capP1 c.capsule = 0 → bitAt h.kind 0 = false →
      (h.kind = 0 ∨ holdOver u h = true → keyHoldCount u < 1048576) → (h.kind = 0 → holdsUsed u p b < 123 + ((bkHoldList b).filter (holdOver u)).length) →
      Packed u { c with started := true } p
        (packedRecord { kind := 4, keyLen := capKeyLen c.capsule, nsid := capNsid c.capsule, version := e.version, fprint := p.hash, created := calendarOr0 u,
                        holdSerial := (r.holdSerial + 1) % 2 ^ 32 } (capKey c.capsule) [])
        (fun _ _ => changeBytes 3 (h.kind / 2 * 2 + 1) p.slice p.bucket (entryBytes e) (entrySlotWord e) ((r.holdSerial + 1) % 2 ^ 32) h.expiry e.version)
        (replyBytes c.capsule ST.ok 0 0 (if bitAt (h.kind / 2 * 2 + 1) 1 && dateInForce u h.expiry then h.expiry else 0) ((h.kind / 2 * 2 + 1) % 2) []) 3
        (fun w => putSlice w { r with holdSerial := (r.holdSerial + 1) % 2 ^ 32 }) t →
      exec (.retain cmd) s = .next t) ∧
    (∀ expiry, expiry = max (if bitAt h.kind 1 then h.expiry else 0) (capP1 c.capsule) →
      ChangeTurn s cmd 0x17 c p b u → capP1 c.capsule ≠ 0 → (u.kv.retention.isSome = true → predicted u < capP1 c.capsule) →
      (bitAt h.kind 1 = true → expiry ≠ h.expiry) →
      (h.kind = 0 ∨ holdOver u h = true → keyHoldCount u < 1048576) → (h.kind = 0 → holdsUsed u p b < 123 + ((bkHoldList b).filter (holdOver u)).length) →
      Packed u { c with started := true } p
        (packedRecord { kind := 3, keyLen := capKeyLen c.capsule, nsid := capNsid c.capsule, version := e.version, fprint := p.hash, created := calendarOr0 u,
                        expiry := capP1 c.capsule, holdSerial := (r.holdSerial + 1) % 2 ^ 32 } (capKey c.capsule) [])
        (fun _ _ => changeBytes 3 (h.kind % 2 + 2) p.slice p.bucket (entryBytes e) (entrySlotWord e) ((r.holdSerial + 1) % 2 ^ 32) expiry e.version)
        (replyBytes c.capsule ST.ok 0 0 (if dateInForce u expiry then expiry else 0) (h.kind % 2) []) 3
        (fun w => putSlice w { r with holdSerial := (r.holdSerial + 1) % 2 ^ 32 }) t →
      exec (.retain cmd) s = .next t) ∧
    (ChangeTurn s cmd 0x18 c p b u → keyHold b (capNsid c.capsule) p = some h → bitAt h.kind 0 = true →
      Packed u { c with started := true } p
        (packedRecord { kind := 5, keyLen := capKeyLen c.capsule, nsid := capNsid c.capsule, version := e.version, fprint := p.hash, created := calendarOr0 u,
                        holdSerial := (r.holdSerial + 1) % 2 ^ 32 } (capKey c.capsule) [])
        (fun _ _ => changeBytes 3 (h.kind - 1) p.slice p.bucket (entryBytes e) (entrySlotWord e) ((r.holdSerial + 1) % 2 ^ 32) h.expiry e.version)
        (replyBytes c.capsule ST.ok 0 0 (if bitAt h.kind 1 && dateInForce u h.expiry then h.expiry else 0) 0 []) 3
        (fun w => putSlice w { r with holdSerial := (r.holdSerial + 1) % 2 ^ 32 }) t →
      exec (.release cmd) s = .next t)

/-- Where an administrative command of a host goes. R98, R133, R134, R135, R136, R137, R138, R212. -/
def Obligations.AdministrativeChangesComplete : Prop :=
  ∀ (s : State) (cmd : Nat) (c : Cmd), ∀ q ∈ [(Instr.nsCreate cmd, 0x20), (.nsSet cmd, 0x21), (.nsDelete cmd, 0x22), (.tenantSet cmd, 0x28), (.tenantDelete cmd, 0x29),
      (.retain cmd, 0x17), (.release cmd, 0x18)], CmdTurn s cmd q.2 c → (q.2 = 0x17 ∨ q.2 = 0x18 → capFlag c.capsule 4 = true) →
    ∀ cap tenant u, cap = hostCapsule s { c with started := true } → tenant = sessAt s c.session 66 2 → u = putCmd s { c with started := true } →
    ((cmdOf s cmd).any Cmd.started = false → adminBodyBad c.capsule = false → (s.epoch.refusing && s.epoch.phase == 2) = false → intentsHeld s = false →
      actsFor u (keyPlace u 0 (adminKey cap)).slice = true → exec q.1 s = .next (newChange u cap tenant 0 cmd 0)) ∧
    ((cmdOf s cmd).any Cmd.started = false → adminBodyBad c.capsule = false → (s.epoch.refusing && s.epoch.phase == 2) = false → intentsHeld s = false →
      actsFor u (keyPlace u 0 (adminKey cap)).slice = false → ∀ v tag d,
      peerRequest u (actingHull u (keyPlace u 0 (adminKey cap)).slice) { op := 0x88, arg0 := tenant }
        (maskCapsule cap (peerMask (nextSeal u (actingHull u (keyPlace u 0 (adminKey cap)).slice)).1
          (nextSeal u (actingHull u (keyPlace u 0 (adminKey cap)).slice)).2 (capP0 cap % 65536))) = (v, tag) →
      tag ≠ 0 → cmdOf v cmd = some d → exec q.1 s = .next (putCmd v { d with asked := tag })) ∧
    ((cmdOf s cmd).any Cmd.started = true → exec q.1 s = .next (settleAll s)) ∧
    ((cmdOf s cmd).any Cmd.started = false → adminBodyBad c.capsule = true → exec q.1 s = .next (answer s { c with started := true } ST.malformed 0 0))

/-- What an administrative change comes to. R134, R136, R138. -/
def Obligations.AdministrativePlans : Prop :=
  ∀ (s : State) (cap : Bytes),
    (capOp cap = 0x20 → (nsOf s (capP0 cap % 4096)).isSome = true → adminPlan s cap = (.reply ST.exists 0, s)) ∧
    (capOp cap = 0x20 → (nsOf s (capP0 cap % 4096)).isSome = false → ∀ k, freeKeySlot s = some k → (adminPeers s).all (xportLoaded s) = true →
      ∃ v t, adminPlan s cap = (.record v false 0, t) ∧ ∃ n, nsOf t (capP0 cap % 4096) = some n ∧ n.durability = fld (capInline cap) 0 1 ∧
        n.sealUs = fld (capInline cap) 2 2 ∧ n.quota = fld (capInline cap) 8 8 ∧
        (bitAt (fld (capInline cap) 1 1) 0 = true → n.salt = slice (capInline cap) 16 16) ∧ n.slot = k) ∧
    (∀ n, capOp cap = 0x21 → nsOf s (capP0 cap % 4096) = some n → adminPlan s cap =
      (.record (nsValue s { n with durability := fld (capInline cap) 0 1, sealUs := fld (capInline cap) 2 2, quota := fld (capInline cap) 8 8 } none) false 0, s)) ∧
    (capOp cap = 0x21 ∨ capOp cap = 0x22 → nsOf s (capP0 cap % 4096) = none → adminPlan s cap = (.reply ST.notFound 0, s)) ∧
    (capOp cap = 0x28 → capFlag cap 4 = true → tenantOf s (capP0 cap % 65536) = none → adminPlan s cap = (.reply ST.malformed 0, s)) ∧
    (capOp cap = 0x28 → (capFlag cap 4 = true → (tenantOf s (capP0 cap % 65536)).isSome = true) →
      ((tenantOf s (capP0 cap % 65536)).isNone = true → s.kv.tenants.length < 16384) →
      bitAt (fld (capInline cap) 48 4) 1 = true ∨ otherAdmin s (capP0 cap % 65536) = true →
      adminPlan s cap = (.record ((if capFlag cap 4 then fit (((tenantOf s (capP0 cap % 65536)).map Tenant.secret).getD []) 48 else fit (capInline cap) 48) ++
        (capInline cap).drop 48) false (b2n (tenantOf s (capP0 cap % 65536)).isNone), s)) ∧
    (capOp cap = 0x29 → (tenantOf s (capP0 cap % 65536)).isSome = true → adminPlan s cap =
      (if otherAdmin s (capP0 cap % 65536) then .record [] true 0 else .reply ST.notPermitted 1, s))

/-- Clocks set and saved, a tenant shown, and records passed between devices. R126, R127, R128, R133, R135, R136, R211, R212, R526, R620. -/
def Obligations.ClocksAndRecordsComplete : Prop :=
  ∀ (s u : State) (cmd id : Nat) (c : Cmd) (b : Bytes),
    (CmdTurn s cmd 0x30 c → exec (.clockSet cmd) s = .next (answer (clockSet s (capP1 c.capsule) (capP0 c.capsule) (capFlag c.capsule 4)).1 { c with started := true } ST.ok
      (b2n (clockSet s (capP1 c.capsule) (capP0 c.capsule) (capFlag c.capsule 4)).2.1) (clockSet s (capP1 c.capsule) (capP0 c.capsule) (capFlag c.capsule 4)).2.2)) ∧
    (∀ seconds nanos, coreLive s = true → nanos < 10 ^ 9 → exec (.ptpTimeApply seconds nanos) s = .next (clockSet s seconds nanos false).1) ∧
    (coreLive s = true → s.kv.retention.isSome = true →
      exec .retentionClockSave s = .next (saveRetention (reach s (s.kv.savedAt + 60 * sec)))) ∧
    (∀ t, CmdTurn s cmd 0x2A c → tenantOf s (capP0 c.capsule % 65536) = some t →
      exec (.tenantQuery cmd) s = .next (answerData s { c with started := true } ST.ok 0 0 (tenantValue { t with secret := [] }))) ∧
    (∀ cap, PeerTurn s 0x88 id b u → forwardReply u (sessHull u id) (readPeer b).tag = none →
      (u.kv.changes.find? fun c => c.kind == 1 && c.tag == (readPeer b).tag && c.hull == sessHull u id) = none →
      cap = maskCapsule (peerBody b) (peerMask (((sessRec u id).bind Sess.key).getD []) (fld b (64 + peerLen b) 8) (capP0 (peerBody b) % 65536)) →
      actsFor u (keyPlace u 0 (adminKey cap)).slice = true → tenantMay u ((readPeer b).arg0 % 65536) cap = true → (u.epoch.refusing && u.epoch.phase == 2) = false →
      exec .adminForward s = .next (newChange u cap ((readPeer b).arg0 % 65536) 1 id (readPeer b).tag)) ∧
    (∀ h, PeerTurn s 0x89 id b u → readRecHeader (peerBody b) = some h → bitAt (readPeer b).arg0 0 = true → exec .adminRecord s =
      .next (peerReply u id b (checkAnswer u (fld (slice (peerBody b) 128 h.keyLen) 3 2) (h.user == 1)) 0 0 [])) ∧
    (∀ h key, PeerTurn s 0x89 id b u → readRecHeader (peerBody b) = some h → bitAt (readPeer b).arg0 0 = false → h.kind = 2 →
      key = slice (peerBody b) 128 h.keyLen → (isNsKey key = true → nsInUse u (fld key 3 2) = false) → exec .adminRecord s =
      (let r := applyRecord u true key (slice (peerBody b) (128 + alignUp h.keyLen 8) h.length) h.version
       .next (settleAll (if r.2.2 then peerReply (noteCount r.1 key r.2.1) id b ST.ok 0 0 [] else putBack (noteCount r.1 key r.2.1) id b)))) ∧
    (∀ change hull x, coreLive s = true → (s.kv.changes.find? fun c => c.id == change && c.waiting.any fun w => w.1 == hull) = some x →
      exec (.adminRecordResend change hull) s = .next (settleAll (resendRecord (reach s (x.sentAt + 1000 * ms))
        { x with sentAt := (reach s (x.sentAt + 1000 * ms)).now } hull))) ∧
    (PeerTurn s 0x87 id b u → xportLoaded u (sessHull u id) = true →
      exec .join s = .next (peerReply (sendOwn u (sessHull u id)) id b ST.ok 0 0 []))

/-- Setting the clock never takes the retention clock back. R126, R127. -/
def Obligations.RetentionClockRises : Prop :=
  ∀ (s : State) (seconds nanos : Nat) (force : Bool) (v : Nat), s.kv.retention = some (v, opsec s) →
    v ≤ (clockSet s seconds nanos force).2.2 ∧
    (force = true → (clockSet s seconds nanos force).2.2 = max v seconds) ∧
    (force = false → (clockSet s seconds nanos force).2.2 ≤ v + 3600) ∧
    (clockSet s seconds nanos force).1.kv.retention = some ((clockSet s seconds nanos force).2.2, opsec s) ∧
    getF (clockSet s seconds nanos force).1 F.LOG_CAL_SEC_SECONDS = seconds % 2 ^ 64 ∧ flag (clockSet s seconds nanos force).1 F.LOG_CAL_CTRL_VALID = true ∧
    (clockSet s seconds nanos force).1.mem = s.mem

/-- What crew firmware's work on buckets, open stripes and reads does. R109, R120, R150, R153, R156, R159, R162, R174, R260, R262, R271. -/
def Obligations.BucketsAndStripesComplete : Prop :=
  ∀ (s : State) (slice bucket : Nat), coreLive s = true →
    (∀ group nsid o t, openFor s group nsid = some o → o.firstAt = some t →
      exec (.sealTimerExpiry group nsid) s = .next (settleAll (sealStripe (reach s (t + o.sealUs * us)) o))) ∧
    (∀ b u, sliceHeld s slice = true → bucket < 2 ^ sliceB s slice → dirState s slice bucket = 1 → bucketGet s slice bucket = some (b, u) →
      exec (.bucketLoad slice bucket) s = .next u) ∧
    (sliceHeld s slice = true → bucket < 2 ^ sliceB s slice → dirState s slice bucket = 3 → dirBusy s slice bucket = false →
      (∀ c ∈ pendingChanges s, chSlice c = slice → chBucket c ≠ bucket) → ∀ b l bsn page seq u,
      b = (let b := peek s (bucketAddr s (dirSlot s slice bucket)) 16384; bkSeal (patch b 24 (le 8 (bkSeq b + 1)))) → systemLun s = some l →
      placeStride s l 2 (fun w k => bucketPlanes w slice bucket (bkSeq b) (btWear s k) (btFlag s k 0)
        (xtsUnit true (indexKey s) (slice * 2 ^ 32 + bucket) b)) = some ((bsn, page, seq), u) →
      exec (.bucketWriteback slice bucket) s = .next (settleIndexRecords
        (putBucketItem (storeBucket u 0 slice bucket (dirSlot s slice bucket) 2 b) ⟨slice, bucket, bsn, page, 0, bkSeq b, seq⟩))) ∧
    (sliceHeld s slice = true → bucket < 2 ^ sliceB s slice → dirState s slice bucket = 2 → dirBusy s slice bucket = false →
      (∀ c ∈ pendingChanges s, chSlice c = slice → chBucket c ≠ bucket) → ∀ b,
      b = peek s (bucketAddr s (dirSlot s slice bucket)) 16384 →
      exec (.bucketEvict slice bucket) s = .next (putDir s 0 slice bucket
        (if s.media.buckets.any fun i => i.slice == slice && i.bucket == bucket then 1 else 0) 0 (bkCount b) (bkHolds b) 0)) ∧
    (∀ u d, u = { s with kv := { s.kv with discards := s.kv.discards.filter fun d => !(discardDone s d) } } →
      (u.kv.discards.find? fun d => d.mirror.isNone) = some d → exec .discardDurable s =
      .next (if intentsHeld u then u else settleAll ((journalDiscard u d).getD (sealOldest u)))) ∧
    (∀ cmd c t, cmdOf s cmd = some c → c.retryAt = some t → Completes (.degradedReadRetry cmd) s fun u =>
      (∀ d, cmdOf (putCmd (reach s t) { c with retryAt := none }) cmd = some d → d.retryAt = none) ∧
      ((s.hte.fetches.filter fun f => f.user == cmd && f.isLate && !f.retried) = [] → u = putCmd (reach s t) { c with retryAt := none })) ∧
    (∀ tag f, (s.hte.fetches.find? fun f => f.tag == tag && f.reply.isNone) = some f → exec (.fragReadDeadline tag) s =
      .next (settleAll (missDeadline (probesJudged (dropRequests (putFetch (reach s (f.sentAt + s.media.settings.fragReadMs * ms))
        { f with reply := some (0xFFFF, false, []) }) fun r => r.tag == tag) f) f.group f.seat))) ∧
    (∀ group slices r, (s.kv.rebuilds.find? fun r => r.group == group) = none → groupRec s group = some r →
      exec (.indexRebuildFromStripes group slices) s = .next (indexRebuildBegin s group slices)) ∧
    (∀ group slices r stripe gen rest x u d dec reps, (s.kv.rebuilds.find? fun r => r.group == group) = some r → r.left = (stripe, gen) :: rest →
      genOf s group gen = some x → readStripe s (crewUser s 3 group) group gen stripe (List.range x.k) = (u, .units d dec reps) →
      exec (.indexRebuildFromStripes group slices) s = .next (putIndexRebuild (dropFetches u (crewUser s 3 group))
        { r with left := rest, recs := r.recs ++ keptRecords s r.slices stripe d }))

/-- What a device does with the fragments of its peers. R193, R197, R205, R207, R208, R265, R268, R274, R286, Table 05-6. -/
def Obligations.FragmentsComplete : Prop :=
  ∀ (s u : State) (id : Nat) (b : Bytes) (h : PeerHdr), h = readPeer b →
    (∀ v, PeerTurn s 0x81 id b u → fragCheck5 u id b = none → (holding u h.group h.stripe).kind = 9 →
      bitAt h.pflags 1 = true ∨ crc32c (peerBody b) = h.arg1 % 2 ^ 32 →
      journalFragment u h.group (unit0 h.stripe) h.pos h.gen h.k h.m (h.arg1 % 2 ^ 32) (sessHull u id) h.arg0 (bitAt h.pflags 1) (peerBody b) = some v →
      exec .fragWrite s = .next (peerReply v id b ST.ok 0 0 [])) ∧
    (PeerTurn s 0x81 id b u → fragCheck5 u id b = none → (holding u h.group h.stripe).kind = 0 → (holding u h.group h.stripe).pos = h.pos →
      exec .fragWrite s = .next (if (holding u h.group h.stripe).ucrc = h.arg1 % 2 ^ 32 then peerReply u id b ST.ok 0 0 []
        else peerReply (logCrew u EV.fragmentConflict) id b ST.exists 0 0 [])) ∧
    (∀ d, PeerTurn s 0x82 id b u → (h.group ≠ 0 ∨ h.pos ≠ 0xFF) → h.arg0 % 2 ^ 32 < 65536 → (holding u h.group h.stripe).kind ∉ [2, 3, 4, 9] →
      (holding u h.group h.stripe).pos = h.pos → holdingBytes u h.group h.stripe = some d →
      exec .fragRead s = .next (peerReply u id b ST.ok 0 0 (slice d (h.arg0 % 2 ^ 32)
        (if h.arg0 / 2 ^ 32 = 0 then 65536 - h.arg0 % 2 ^ 32 else min (h.arg0 / 2 ^ 32) (65536 - h.arg0 % 2 ^ 32))))) ∧
    (∀ v, PeerTurn s 0x93 id b u → fragCheck5 u id b = none → (holding u h.group h.stripe).kind ∈ [0, 2, 4] → (holding u h.group h.stripe).pos = h.pos →
      crc32c (peerBody b) = h.arg1 % 2 ^ 32 → ∀ w,
      journalFragment u h.group (unit0 h.stripe) h.pos h.gen h.k h.m (h.arg1 % 2 ^ 32) (sessHull u id) h.arg0 false (peerBody b) = some w →
      seatOutcome w h.group h.stripe 1 1 = some v → exec .fragReplace s = .next (peerReply v id b ST.ok 0 0 [])) ∧
    (∀ v, h.arg1 ≠ 0 →
      (PeerTurn s 0x83 id b u → seatOutcome u h.group h.stripe h.arg1 1 = some v → exec .fragCommit s = .next (peerReply v id b ST.ok 0 0 [])) ∧
      (PeerTurn s 0x84 id b u → seatOutcome u h.group h.stripe h.arg1 2 = some v → exec .fragRollback s = .next (peerReply v id b ST.ok 0 0 [])) ∧
      (PeerTurn s 0x85 id b u → seatOutcome u h.group h.stripe h.arg1 4 = some v → exec .fragFree s = .next (peerReply v id b ST.ok 0 0 []))) ∧
    (∀ tag r, coreLive s = true → (s.hte.requests.find? fun r => r.tag == tag && r.op == 0x81 && decide (r.sentAt > s.now)) = some r →
      exec (.fragWriteResend tag) s = .next (resendRequest (reach s r.sentAt) r)) ∧
    (∀ g, PeerTurn s 0x92 id b u → groupRec u h.group = some g →
      (∀ e ∈ lostEntries (peerBody b) (h.arg0 % 65536), (stripeSeats u h.group e.2 e.1).contains g.seat = true →
        (u.media.notes.any fun n => n.kind == 3 && n.group == h.group && n.ident == unit0 e.1) = true ∧ markerRecorded u h.group e.1 = true) →
      exec .stripeLost s = .next (peerReply u id b ST.ok 0 0 [])) ∧
    (∀ g all, PeerTurn s 0x90 id b u → groupRec u h.group = some g → g.isLost (h.arg0 % 32) = false →
      all = ((if bitAt h.arg0 8 then g.kept.map (fun x => (x.stripe, x.genId)) else heldStripes u h.group).filter fun e =>
        (stripeSeats u h.group e.2 e.1).contains (h.arg0 % 32) && decide (e.1 > h.arg1 || h.arg1 == 0)).foldr insertStripe [] → all.length ≤ 4096 →
      exec .inventory s = .next (peerReply u id b ST.ok 0 (2 ^ 64 - 1) (all.map (inventoryLine u g)).flatten)) ∧
    (PeerTurn s 0x8B id b u → Completes .sliceDisown s fun t => ∃ v, t = peerReply v id b ST.ok 0 0 [] ∧ v.mem = s.mem ∧ v.regs = s.regs ∧
      (actsFor u (h.arg0 % 65536) = false → h.arg0 % 65536 ∈ v.kv.disowned))

/-- What the commands of a stripe group do. R206, R209, R262, R280, R284, Tables 05-7 and 07-2. -/
def Obligations.GroupsComplete : Prop :=
  ∀ (s : State) (group : Nat) (g : Group), coreLive s = true → groupRec s group = some g →
    (∀ id b u r x i p v, PeerTurn s 0x86 id b u → (readPeer b).group = group → x = readStatus (peerBody b) →
      p = noteReport u (sessHull u id) x.staged x.phase → groupRec p group = some r → hullSeat p group (sessHull u id) = some x.seat →
      x.dev ∉ [5, 6, 7] → i = (r.info x.seat).getD (noInfo x.seat p.now) → i.dev ≠ 8 ∨ x.dev = 8 →
      v = r.setInfo { i with heardAt := p.now, dev := x.dev, gstate := x.gstate, phase := x.phase, staged := x.staged, epoch := (readPeer b).epoch, low := x.low, cycle := x.cycle } →
      exec .groupStatus s = .next (settle (adoptStatus (putGroup p v) v x (sessHull u id)))) ∧
    exec (.groupStatusTimer group) s = .next (settle (sendStatus (if g.kept.isEmpty then cycleStep (reach s (g.sentAt + 100 * ms)) group
      else reach s (g.sentAt + 100 * ms)) group)) ∧
    (∀ x fails u, writingSet s group = some x → g.gstate = 1 → g.returning = false → g.descriptor.isSome = true → u = reach s (g.formingAt + 60 * sec) →
      fails = ((List.range (groupSeats u group)).filter fun t => t != g.seat && (g.isLost t || (peerSession u 1 (seatHull u group t)).isNone ||
        !(match g.info t with | some i => i.epoch == activeEpoch u && (i.dev == 4 || i.dev == 5) | none => false))) → fails.length ≤ x.m →
      majority u g = true → exec (.formingTimeout group) s = .next (settle (afterDegraded (setGState (fails.foldl (fun s t => declareLost s group t) u) group 3) group))) ∧
    (∀ seat, seat < groupSeats s group → seat ≠ g.seat → exec (.seatSilenceExpiry group seat) s = .next (settle (tryDeclare
      (reach s (((g.info seat).map SeatInfo.heardAt).getD g.formingAt + s.media.settings.seatSilenceMs * ms)) group seat))) ∧
    (∀ tag r t u, (s.hte.requests.find? fun r => r.tag == tag && (r.op == 0x81 || r.op == 0x83 || r.op == 0x84)) = some r →
      u = reach s (r.firstAt + s.media.settings.writeLimitMs * ms) → hullSeat u (fld r.msg 4 4) r.hull = some t →
      exec (.writeLimitExpiry tag) s = .next (settle (tryDeclare u (fld r.msg 4 4) t))) ∧
    (∀ id b u r told, PeerTurn s 0x91 id b u → told = ((readPeer b).arg0 % 32, (readPeer b).arg1 % 2 ^ 32, (readPeer b).arg1 / 2 ^ 32) ::
        r.rebuilding.filter (fun q => q.1 != (readPeer b).arg0 % 32) →
      (readPeer b).group = group → groupRec u group = some r → bits (readPeer b).arg0 8 8 = 4 → r.gstate = 4 → exec .rebuildNotice s =
      .next (peerReply (settle (afterDegraded (setGState (putGroup u { r with rebuilding := told }) group 4) group)) id b ST.ok 0 0 []))

/-- The steps of an epoch change. R213, R214, R215, R216, R217, R304, R305, Tables 05-8 and 05-9. -/
def Obligations.EpochChangeComplete : Prop :=
  ∀ (s u : State) (id : Nat) (b : Bytes) (e : Nat), e = (readPeer b).arg0 →
    (∀ c, coreLive s = true → stagedRig s = some c → flag s F.RIG_STATUS_STAGED = true → ∀ v w peers, v = containerView c →
      w = enterStaged (bulkCopies s v) v → peers = changePeers w v →
      (rigLeader c ≠ Config.hull → exec .epochChangeStart s = .next w) ∧
      (rigLeader c = Config.hull → w.epoch.phase = 1 → rigOn w = true → peers.all (reportsStaged w w.epoch.epoch) = true → exec .epochChangeStart s =
        .next (advance (sealAll (sendChange { w with epoch := { w.epoch with phase := 5, since := w.now, waiting := peers, allOk := true } } 0x8C peers))))) ∧
    (coreLive s = true → s.epoch.phase = 5 → exec .epochLeaderLimit s = .next (settle (epochDecide (reach s (s.epoch.since + 2000 * ms)) true))) ∧
    (PeerTurn s 0x8C id b u → u.epoch.phase = 2 → u.epoch.epoch = e → exec .epochPrepare s = .next (peerReply u id b ST.ok 0 0 [])) ∧
    (∀ c v w, PeerTurn s 0x8C id b u → u.epoch.phase ≠ 2 ∨ u.epoch.epoch ≠ e → getF u F.RIG_STAGED_EPOCH_EPOCH = e →
      getF u F.RIG_STAGED_CRC_CRC = (readPeer b).arg1 % 2 ^ 32 → outcomeOf u e = none →
      v = advance (sealAll { u with epoch := { u.epoch with preparer := some (id, (readPeer b).tag) } }) → drained v = true → stagedRig v = some c →
      w = lastDeltas v (containerView c) → exec .epochPrepare s = .next (peerReply (sendAllStatus { w with epoch := { w.epoch with
        phase := 2, epoch := e, crc := (readPeer b).arg1 % 2 ^ 32, since := w.now, askedAt := 0, queried := [], refusing := false, preparer := none } }) id b ST.ok 0 0 [])) ∧
    (PeerTurn s 0x8D id b u → exec .epochCommit s = .next (if activeEpoch u = e then peerReply u id b ST.ok 0 0 []
      else if getF u F.RIG_STAGED_EPOCH_EPOCH = e then putBack (commitSwap (recordOutcome u e true)) id b else peerReply u id b ST.stateConflict 0 0 [])) ∧
    (PeerTurn s 0x8E id b u → getF u F.RIG_STAGED_EPOCH_EPOCH = e → activeEpoch u ≠ e → outcomeOf u e ≠ some true →
      exec .epochAbort s = .next (settle (peerReply (epochAbort { u with epoch := { u.epoch with epoch := e } }) id b ST.ok 0 0 []))) ∧
    (PeerTurn s 0x8F id b u → ∀ v, v = (if (epochAnswer u e).1 = 7 then recordBehind u e else if (epochAnswer u e).2 then recordOutcome u e false else u) →
      exec .epochQuery s = .next (peerReply (if (epochAnswer u e).1 = 1 then sendAllStatus { v with epoch := { v.epoch with phase := 3, epoch := e, preparer := none } }
        else v) id b ST.ok 0 (epochAnswer u e).1 [])) ∧
    (∀ c v, coreLive s = true → s.epoch.phase = 2 → stagedRig s = some c →
      v = dropRequests (reach s ((if s.epoch.askedAt = 0 then s.epoch.since else s.epoch.askedAt) + 10 * sec)) (fun r => r.op == 0x8F) →
      exec .epochPreparedTimeout s = .next (sendChange { v with epoch := { v.epoch with askedAt := v.now, queried := [], refusing := v.epoch.refusing || !v.epoch.queried.isEmpty } } 0x8F
        ((rigDevices (activeView v) ++ rigDevices (containerView c)).eraseDups))) ∧
    (∀ x r, PeerTurn s 0x8A id b u → x = (readPeer b).arg0 % 65536 → actsFor u x = false → (roleHulls (activeView u) x).contains Config.hull = true →
      r = takeCopy u x ((activeView u).place x).log2b (bodyChanges (peerLen b / 64) (peerBody b)) →
      exec .sliceCopy s = .next (if r.2 then peerReply r.1 id b ST.ok 0 0 [] else putBack r.1 id b)) ∧
    (∀ x, PeerTurn s 0x8A id b u → x = (readPeer b).arg0 % 65536 → actsFor u x = true → sliceWhole u x = true → peerLen b = 0 →
      (roleHulls (activeView u) x).contains (sessHull u id) = true →
      exec .sliceCopy s = .next (copyTo (peerReply u id b ST.ok 0 0 []) (sessHull u id) x (sliceChanges u x))) ∧
    (∀ st, coreLive s = true → s.rig.staged = some st → flag s F.RIG_STATUS_SWAPPING = true → rigCrowded (activeView (rigSwapEnd s st)) = false →
      rigDropsLive s (activeView (rigSwapEnd s st)) = false → Completes .rigSwapEnd s fun t =>
      ∃ v first acted same, t = releaseSwapHeld (leaderDone (sendAllStatus (applyRig v first acted same))) ∧ v.regs = (rigSwapEnd s st).regs ∧
        v.mem = (rigSwapEnd s st).mem ∧ first = !(rigOn s) ∧ v.rig.commit = false ∧
        ((rigSwapEnd s st).epoch.phase ≠ 6 → v.epoch.phase = 0 ∧ v.epoch.preparer = none ∧ v.epoch.refusing = false))

/-- Peer sessions opened, authenticated and used. R89, R198, R199, R200, R201, R205, Tables 05-1 and 05-6. -/
def Obligations.PeerSessionsComplete : Prop :=
  ∀ (s u : State) (hull kind id session : Nat) (b message : Bytes), coreLive s = true →
    ((if kind = 1 then (groupHulls s).contains hull else kind == 2 && (chanWith s hull).isSome) = true → Config.hull < hull → anySession s kind hull = none →
      (s.hte.sessions.any fun x => x.initiator && sessState s x.id == 0 && sessKind s x.id == kind && sessHull s x.id == hull) = false →
      freeSession s = some id → exec (.peerSessionOpen hull kind) s =
      (let v := putSess s (newSess id s.hte.nextOrder true)
       let v := { v with hte := { v.hte with nextOrder := v.hte.nextOrder + 1 } }
       .next (emit (sessPut (sessPut v id 65 1 kind) id 72 8 hull) (.cm 0 id (serviceId kind) [])))) ∧
    (∀ x, sessRec s session = some x → x.initiator = true → sessState s session = 0 →
      exec (.cmRep session 1) s = .next (sendHello (emit (sessConnect s x (sessKind s session) true) (.cm 2 session 0 [])) session) ∧
      exec (.cmRep session 0) s = (let v := memWrite s (sessBase + 128 * session) (zeros 128)
        .next { v with hte := { v.hte with sessions := v.hte.sessions.filter fun y => y.id != session } })) ∧
    (∀ x e n, PeerTurn s 0x80 id b u → sessRec u id = some x → sessState u id = 1 → x.initiator = false → bitAt (fld b 1 1) 0 = false →
      u.cox.dropped = false → helloGood u (peerBody b) [] true = true → e = coxEph u → n = freshBytes e.2.2 32 → exec .hello s =
      .next (sessPut (takePeerKey (peerReply (modSess n.2 id fun y => { y with nonce := n.1, ephCtx := e.1, ephPub := e.2.1 }) id b ST.ok 0 0
        (helloBody n.2 false n.1 e.2.1 (peerBody b))) id e.1 (peerBody b) n.1 false) id 64 1 2)) ∧
    (∀ x, PeerTurn s 0x80 id b u → sessRec u id = some x → sessState u id = 1 → x.initiator = true → bitAt (fld b 1 1) 0 = true → fld b 2 2 = 0 →
      helloGood u (peerBody b) (zeros 24 ++ x.nonce ++ x.ephPub) false = true → sessKind u id = 1 → exec .hello s =
      .next (sessionUp (modSess (sessPut (takePeerKey u id x.ephCtx (peerBody b) x.nonce true) id 64 1 3) id fun y => { y with handshakeAt := none })
        (fld (peerBody b) 0 8))) ∧
    (carriesPeer s session = true → sessState s session = 3 → bitAt (fld message 1 1) 0 = true → fld message 0 1 ≠ 0x80 →
      exec (.peerReplyReceived session message) s = .next (peerReplyIn s session message)) ∧
    (sessKind s session ≠ 2 → carriesPeer s session = true → (flag s F.HTE_SESS_HOLD_HELD && getF s F.HTE_SESS_HOLD_SESSION == session) = false →
      bitAt (fld message 1 1) 0 = false → peerFormOk message = true → peerAssigned (fld message 0 1) = true →
      (peerControl (fld message 0 1) = true → ((sessRec s session).any fun x => peerSealOk x message) = true) → sessState s session = 3 →
      (fld message 0 1 ≠ 0x86 → (s.hte.peerIn.filter fun p => p.1 == session).length +
        (s.kv.changes.filter fun c => c.kind == 1 && c.owner == session).length < 1024) → (fld message 0 1 = 0x81 ∨ fld message 0 1 = 0x93 → fragCheck3 s message (fld message 0 1 == 0x93) = none) →
      exec (.peerMessage session message) s = .next (peerDeliver s session message))

/-- What the journal's registers and the energy store's test do. R220, R222, R240, R242, R255, Tables 06-2 and 06-3. -/
def Obligations.JournalRegistersComplete : Prop :=
  ∀ (s u : State) (core : Nat),
    (∀ v0, StoreTurn s core F.ES_CTRL_TEST.addr u → exec (.esTest core v0) s = .next (esTestStart u v0)) ∧
    (∀ v1, coreLive s = true → exec (.esTestEnd v1) s = .next (esTestEnd s v1)) ∧
    (StoreTurn s core F.PJ_CTRL_ENABLE.addr u → exec (.pjEnable core) s = .next (pjEnable u)) ∧
    (∀ entry value, StoreTurn s core (F.PJ_VMAP_VALID entry).addr u → entry < 512 → bits value 40 23 = 0 → bits value 24 6 = 0 →
      flag u F.PJ_CTRL_DUMP_ARM = false → (bitAt value 63 = true → vmapLun u value = true ∧ ∀ i < 512, i ≠ entry → i / 256 = entry / 256 →
        flag u (F.PJ_VMAP_VALID i) = true → getF u (F.PJ_VMAP_CHANNEL i) = bits value 35 5 → getF u (F.PJ_VMAP_CE i) = bits value 32 3 →
        getF u (F.PJ_VMAP_LUN i) ≠ bits value 30 2) →
      exec (.pjVmapWrite core entry value) s = .next (if flag (setLimit (keepVault (putVmap u entry value) entry value)) F.PJ_CTRL_ENABLE
        then setJournalSize (setLimit (keepVault (putVmap u entry value) entry value)) else setLimit (keepVault (putVmap u entry value) entry value))) ∧
    (StoreTurn s core F.PJ_CTRL_RESTORE.addr u → flag u F.PJ_CTRL_ENABLE = false → flag u F.PJ_CTRL_DUMP_ARM = false → u.pj.loading = false →
      exec (.pjRestore core) s = .next { u with pj := { u.pj with loading := true } }) ∧
    (coreLive s = true → s.pj.loading = true → ∀ r, r = restoreEnd s →
      (r.pwr.dev ≠ 1 → exec .pjRestoreEnd s = .next r) ∧
      (∀ y, r.pwr.dev = 1 → y = reloadKeys { r with pwr := { r.pwr with dev := 2 } } →
        (startEpoch y = 0 → exec .pjRestoreEnd s = .next y) ∧
        (∀ e k t w, startEpoch y = e → e ≠ 0 → e = y.rig.active → (y.rig.kept.find? fun k => k.1 == e) = some (e, k) →
          LoaderEnds (setF (crewStore y (getF y F.RIG_SRC_ADDR_ADDR) k) F.RIG_SRC_LEN_BYTES k.length) t → w = startSwap (rigChannels t) none →
          w.epoch.phase ∉ [1, 2, 5, 6] → exec .pjRestoreEnd s = .next w))) ∧
    (∀ bytes, StoreTurn s core (F.PJ_ALLOC_REQ_BYTES core).addr u → alignUp bytes 64 = 0 ∨ ringRoom u (alignUp bytes 64) = false →
      exec (.pjAllocReq core bytes) s = .next (setF u (F.PJ_ALLOC_FULL core) 1)) ∧
    (∀ bytes n v off, StoreTurn s core (F.PJ_ALLOC_REQ_BYTES core).addr u → n = alignUp bytes 64 → n ≠ 0 → ringRoom u n = true → padNeeded u n = 0 →
      v = (nextRseq u).2 → off = pjHead v % max (pjRingBytes v) 1 → exec (.pjAllocReq core bytes) s =
      (let v := { v with pj := { v.pj with reserved := v.pj.reserved ++ [(pjHead v, n)] } }
       let w := setF (setF v (F.PJ_ALLOC_FULL core) 0) (F.PJ_ALLOC_OFFSET core) off
       let w := setF (setF w (F.PJ_ALLOC_SEQ_RSEQ core) u.pj.rseq) F.PJ_HEAD_OFFSET (pjHead w + n)
       .next { w with pj := { w.pj with ports := (core, off) :: w.pj.ports.filter fun p => p.1 != core } })) ∧
    (∀ width, coreOn s core = true → exec (.pjAllocRead core width) s =
      .next (emit (allocRead (coreActs s core) core width).1 (.readValue (F.PJ_ALLOC_OFFSET core).addr (allocRead (coreActs s core) core width).2)))

/-- What a pair frame in turn does. R197, R228, R231, R233, R235, R248, R249, R250, R621, Tables 06-12 and 06-17. -/
def Obligations.PairFramesComplete : Prop :=
  ∀ (s u v t : State) (c : PairCh) (body : Bytes) (seq : Nat),
    (PairFrame s 2 c body seq u → exec .ack s =
      (let d := { c with ackRx := seq, acked := max c.acked (fld body 0 8), sent := c.sent.filter (fun f => decide (f.1 > fld body 0 8)), lastAckAt := some u.now, movedAt := if fld body 0 8 > c.acked then u.now else c.movedAt }
       .next (advance (pairPush (putChan2 { u with pj := { u.pj with leases := u.pj.leases.filter fun l => l.1 != c.partner } } d) c.partner)))) ∧
    (PairTaken v c seq t →
      (PairFrame s 0x10 c body seq u → mirrorRecord u body (rkBody body) = some v → exec .intentFrame s = .next t) ∧
      (∀ w chs full, PairFrame s 0x11 c body seq u → ringRoom u (alignUp body.length 64) = true →
        takeChanges (heldChanges u (fld (rkBody body) 8 2) ((rkBody body).drop 64)) u = some (w, chs, full) →
        mirrorRecord (dropCopies w full) body ((rkBody body).take 8 ++ le 2 chs.length ++ slice (rkBody body) 10 54 ++ chs.flatten) = some v →
        exec .outcomeFrame s = .next t) ∧
      (∀ w chs full, PairFrame s 0x12 c body seq u → ringRoom u (alignUp body.length 64) = true →
        takeChanges (heldChanges u (fld (rkBody body) 0 2) ((rkBody body).drop 64)) u = some (w, chs, full) →
        mirrorRecord (dropCopies w full) body (le 2 chs.length ++ zeros 62 ++ chs.flatten) = some v → exec .indexFrame s = .next t) ∧
      (∀ slots, PairFrame s 0x13 c body seq u → ((pjKind u 4).any fun q => rkSource q.2 == rkSource body && rkGroup q.2 == rkGroup body && rkIntent q.2 == rkIntent body) = false →
        slotsFree u (fld (rkBody body) 2 1) = some slots →
        mirrorRecord (slots.foldl (fun s i => crewStore s (slotAddr64 s i) (zeros 65536)) u) body ((rkBody body).take 40 ++
          ((List.range 20).map fun j => le 4 ((slots[j]?).getD 0xFFFFFFFF)).flatten ++ zeros 8) = some v → exec .openStripeFrame s = .next t) ∧
      (∀ q, PairFrame s 0x14 c body seq u → ((pjKind u 4).filter fun q => rkMirror q.2 && rkSource q.2 == c.partner && rkIntent q.2 == unit0 (fld body 0 8)).getLast? = some q →
        v = crewStore u (slotAddr64 u (fld (rkBody q.2) (40 + 4 * (fld body 0 8 % 32)) 4) + 64 + fld body 8 4) (slice body 64 (fld body 12 4)) →
        exec .append s = .next t) ∧
      (PairFrame s 0x15 c body seq u → v = retireIntent u (fld body 8 4) (fld body 0 8) → exec .retire s = .next t) ∧
      (∀ w named x mine, PairFrame s 1 c body seq u → w = putChan2 u { c with lost := bitAt (fld body 0 1) 0 } →
        named = (w.kv.slices.filter fun x => bitAt (fld body (64 + x.slice / 8) 1) (x.slice % 8) && (activeView w).strokeDev x.slice == selfIndex w) →
        x = named.foldl (fun s x => setActing (putSlice s { x with takeover := 4 }) x.slice false) w →
        mine = (((pjKind (if named.any (fun x => x.takeover != 4) then raiseView x else x) 1 ++ pjKind (if named.any (fun x => x.takeover != 4) then raiseView x else x) 4).filter
          fun r => rkMirror r.2 && rkSource r.2 == c.partner).map fun r => (rkGroup r.2, rkIntent r.2)) →
        v = mine.eraseDups.foldl (fun s q => askIntent s c.partner q.1 q.2) (if named.any (fun x => x.takeover != 4) then raiseView x else x) →
        v.pj.replay ≠ 2 → exec .pairHello s = .next t) ∧
      (∀ o, PairFrame s 0x30 c body seq u →
        ((pjKind u 2).filter fun r => rkGroup r.2 == fld body 8 4 && rkIntent r.2 == fld body 0 8).getLast? = some o →
        v = (pairSend u c.partner 0x31 (le 8 (fld body 0 8) ++ le 4 (fld body 8 4) ++ le 1 (fld (rkBody o.2) 0 1))).1 → exec .intentQuery s = .next t) ∧
      (∀ w run, PairFrame s 0x31 c body seq u → fld body 12 1 = 4 → c.lost = false →
        (u.pj.intents.any fun i => i.group == fld body 8 4 && i.stripe == fld body 0 8 && !i.resolving) = false →
        run = ((((pjKind u 1).find? fun r => rkGroup r.2 == fld body 8 4 && rkIntent r.2 == fld body 0 8).map fun r => fld (rkBody r.2) 0 4).getD 1) →
        w = keptDecided u (fld body 8 4) (fld body 0 8) run 1 → v = retireIntent { w with pj := { w.pj with intents := w.pj.intents.filter fun i =>
        !(i.group == fld body 8 4 && i.stripe == fld body 0 8) } } (fld body 8 4) (fld body 0 8) → exec .intentAnswer s = .next t) ∧
      (∀ w, PairFrame s 0x20 c body seq u → (u.kv.slices.filter fun x => (handSlices body).contains x.slice && x.takeover == 4) ≠ [] →
        w = (u.kv.slices.filter fun x => (handSlices body).contains x.slice && x.takeover == 4).foldl
          (fun s x => setActing (putSlice s { x with takeover := 0 }) x.slice true) u →
        v = (pairSend (startCopying (logCrew (raiseView w) EV.handback)
          ((u.kv.slices.filter fun x => (handSlices body).contains x.slice && x.takeover == 4).map Slice.slice)) c.partner 0x21 body).1 →
        exec .handbackReady s = .next t) ∧
      (PairFrame s 0x21 c body seq u → v = (u.kv.slices.filter fun x => (handSlices body).contains x.slice && x.takeover == 3).foldl
        (fun s x => putSlice s { x with takeover := 0 }) u → exec .handbackAck s = .next t))

/-- What the timers and events of a pair do. R197, R231, R232, R243, R245, R247, R249, R251, R252, R253, Tables 06-16 and 06-17. -/
def Obligations.PairTimersComplete : Prop :=
  ∀ (s : State) (partner group stripe : Nat) (c : PairCh), coreLive s = true →
    (chanWith s partner = some c → c.st = 2 → (c.sent.any fun f => f.2.2.2 != []) = true →
      exec (.pairResendTimer partner) s = .next (pairResend (reach s (c.movedAt + (if c.path = 1 then 100 * us else ms))) c)) ∧
    (chanWith s partner = some c → c.st = 2 → c.mute = false → exec (.pairAckTimer partner) s = .next (pairAck (reach s (c.ackSentAt + 50 * ms)) c)) ∧
    (∀ linkEnd path d, chanWith s partner = some c →
      path = (if linkEnd = 1 ∧ flag s F.PLK_STATUS_LINK = true then 1 else if (peerSession s 2 partner).isSome then 2 else 0) → path ≠ c.path →
      d = { c with path := path, fallback := (peerSession s 2 partner).getD c.fallback } → exec (.pairPathChange partner linkEnd) s =
      .next (pulse (logCrew (pairPush (pairResend (putChan2 s d) d) partner) EV.pairPath) 294)) ∧
    (∀ t u, chanWith s partner = some c → c.lastAckAt = some t → (s.groups.any fun g => g.solo.contains partner) = false →
      ((heldSlices s).any fun x => (activeView s).strokeDev x == selfIndex s && sliceBow s x == some partner) = true →
      (s.pj.leases.any fun l => l.1 == partner) = false → u = reach s (t + 500 * ms) → exec (.leaseLapse partner) s =
      .next (pulse (logCrew { u with pj := { u.pj with leases := (partner, true) :: u.pj.leases } } EV.leaseLost) 294)) ∧
    (∀ u at_ xs v y, (takeoverStart s).pj.taken.find? (fun t => t.1 == partner && t.2.1 == 1) = some (partner, 1, at_) →
      u = reach (takeoverStart s) (at_ + 1000 * ms) → xs = takenSlices u partner [1] →
      (∀ x ∈ xs, hullLost u (sliceGroup u x.slice) partner = true ∧ ∃ g, groupRec u (sliceGroup u x.slice) = some g ∧ g.ownLost = false ∧ majority u g = true) →
      v = xs.foldl (fun s x => setActing (putSlice s { x with takeover := 2 }) x.slice true) u →
      y = takeoverResolve (startCopying (logCrew (raiseView { v with pj := { v.pj with taken := (partner, 2, v.now) :: v.pj.taken.filter fun t => t.1 != partner } })
        EV.takeover) (xs.map Slice.slice)) partner → resolvesNoSet y = false → exec (.takeoverTimer partner) s = .next (advance y)) ∧
    (∀ xs groups h u w, xs = takenSlices s partner [2, 5] → xs ≠ [] → (∀ x ∈ xs, strokeBack s (sliceGroup s x.slice) partner = true ∧ x.takeover = 5) →
      h = handCopies s partner (xs.map Slice.slice) → (h.hte.requests.any fun r => r.op == 0x8A && r.hull == partner) = false →
      groups = (xs.map fun x => sliceGroup h x.slice).eraseDups →
      u = advance ((h.pj.opens.filter fun o => groups.contains o.group && !o.sealing).foldl sealStripe h) →
      (u.pj.opens.any fun o => groups.contains o.group) = false →
      (u.pj.intents.any fun i => groups.contains i.group && (decide (i.step < 5) || !(allMirrored u i.group i.outMirror))) = false →
      w = xs.foldl (fun s x => setActing (putSlice s { x with takeover := 3 }) x.slice false) u → exec (.handbackStart partner) s =
      .next (sendHandback (raiseView { w with kv := { w.kv with handed := w.kv.handed.filter fun x => !(xs.any fun y => y.slice == x) } }) partner (xs.map Slice.slice))) ∧
    (∀ xs, xs = takenSlices s partner [3] → xs ≠ [] → (∀ x ∈ xs, hullLost s (sliceGroup s x.slice) partner = false) → exec (.handbackResend partner) s =
      .next (sendHandback (reach s (((chanWith s partner).map PairCh.muteAt).getD 0 + 100 * ms)) partner (xs.map Slice.slice))) ∧
    (∀ i, intentOf s group stripe = some i → i.step = 6 → i.seatsLeft.filter (seatCounts s group) ≠ [] → exec (.fragCommitResend group stripe) s =
      (let u := reach s (i.sentAt + 100 * ms)
       let v := (s.hte.requests.filter fun r => (r.op == 0x83 || r.op == 0x84) && fld r.msg 4 4 == group && fld r.msg 40 8 == stripe).foldl resendRequest u
       .next (putIntent v { i with sentAt := u.now }))) ∧
    (∀ i u j, intentOf s group stripe = some i → i.resolving = true → i.probes ≠ [] →
      u = (i.probes.map fun q => ((stripeSeats ((s.hte.requests.filter fun r => r.op == 0x82 && fld r.msg 4 4 == group &&
          i.probes.contains (unit0 (fld r.msg 16 8), fld r.msg 24 1)).foldl resendRequest (reach s (i.sentAt + s.media.settings.fragReadMs * ms))) group i.genId q.1)[q.2]?).getD 0).foldl
        (fun s t => missDeadline s group t) ((s.hte.requests.filter fun r => r.op == 0x82 && fld r.msg 4 4 == group &&
          i.probes.contains (unit0 (fld r.msg 16 8), fld r.msg 24 1)).foldl resendRequest (reach s (i.sentAt + s.media.settings.fragReadMs * ms))) →
      intentOf u group stripe = some j →
      exec (.probeResend group stripe) s = .next (resolveStep (putIntent u { j with sentAt := u.now }) { j with sentAt := u.now })) ∧
    (∀ a b u, s.pwr.dev = 3 → a = (if s.pj.replay = 0 then replayScan s else s) →
      (a.pj.replay = 1 → ownJournaled a = true → hellosIn a = false → exec .replay s = .next a) ∧
      (a.pj.replay ≠ 1 ∨ ownJournaled a = false ∨ hellosIn a = true → b = (if a.pj.replay = 1 then replayLoad a else a) → resolvesNoSet b = false →
        u = settle (replayAgain b) → exec .replay s = .next (if replayLeft u then u else leaveReplay u))) ∧
    (∀ g, groupRec s group = some g → majority s g = false → exec (.majorityContactLoss group) s =
      .next (if g.solo.isEmpty then putGroup s { g with solo := [] } else pulse (logCrew (putGroup s { g with solo := [] }) EV.leaseLost) 294))

/-- What the rebuild of a seat, local repair and the rewriting of stripes do. R194, R197, R211, R265, R266, R277, R280, R283, R284, Table 07-3. -/
def Obligations.RebuildComplete : Prop :=
  ∀ (s : State) (group : Nat) (g : Group), coreLive s = true → groupRec s group = some g →
    (g.ownLost = true → g.rebuild = none → s.pwr.dev = 4 → (newestEpoch g).1 ≤ activeEpoch s → (s.pj.intents.any fun i => i.resolving && i.group == group) = false →
      g.returning = false → exec (.rebuildStart group) s =
      .next (rebuildDecide (rebuildAsk s group ⟨1, false, [], 0, 0, false, [], [], [], 0, s.now⟩) group)) ∧
    (g.ownLost = true → g.rebuild = none → s.pwr.dev = 4 → activeEpoch s < (newestEpoch g).1 →
      (s.hte.requests.any fun r => r.op == 0x82 && fld r.msg 4 4 == 0 && fld r.msg 24 1 == 0xFF) = false →
      exec (.rebuildStart group) s = .next (rigFetch s group (newestEpoch g).2 (newestEpoch g).1 0)) ∧
    (∀ r q u v d, g.rebuild = some r → r.running = true → r.asked = [] → nextMissing s g r.missing = some q →
      Remade (reach s s.media.repairAt) (crewUser s 1 group) group q.1 q.2.1 q.2.2.1 u → v = repairSpent u (repairRate u g q.2.2.1 q.2.2.2) → groupRec v group = some d →
      exec (.rebuildPosition group) s = .next (putGroup v { d with rebuild := d.rebuild.map fun r =>
        { r with missing := r.missing.filter (fun p => p.1 != q.1), done := r.done + 1 } })) ∧
    (∀ r, g.rebuild = some r → r.running = true → r.asked = [] → nextMissing s g r.missing = none →
      exec (.rebuildPosition group) s = .next (rebuildDecide (rebuildAsk s group r) group)) ∧
    (∀ hostBytes rate u, s.media.settings.rebuildMin ≤ s.media.settings.rebuildMax → rate = (if portBytes100ms s = 0 then 0
        else s.media.settings.rebuildMax * (portBytes100ms s - hostBytes) / portBytes100ms s) →
      u = { s with media := { s.media with repairRates := kvPut s.media.repairRates group (max s.media.settings.rebuildMin rate) } } →
      exec (.rebuildRateSample group hostBytes) s = .next (putGroup u { g with rebuild := g.rebuild.map fun r => { r with rate := max s.media.settings.rebuildMin rate } })) ∧
    (∀ r u, g.rebuild = some r → r.running = true → u = reach s (r.sentAt + 10 * sec) → exec (.rebuildProgressTimer group) s =
      .next (rebuildNotice (putGroup u { g with rebuild := some { r with sentAt := u.now } }) g 4 r.done r.found)) ∧
    (∀ q u v, nextMissing s g ((s.media.frags.filter fun f => f.group == group && f.kind == 4).map fun f => (f.stripe, f.pos, fragGen s f, 0)) = some q →
      Remade (reach s s.media.repairAt) (crewUser s 2 group) group q.1 q.2.1 q.2.2.1 u →
      v = repairSpent { u with media := { u.media with repaired := u.media.repaired + 1 } } (repairRate { u with media := { u.media with repaired := u.media.repaired + 1 } } g q.2.2.1 q.2.2.2) →
      exec (.localRepair group) s = .next (repairEnds (if (u.media.repaired + 1) % 65536 = 0 then logCrew v EV.fragmentRepaired else v))) ∧
    (∀ stripe x, intentsHeld s = false → keptOf g (unit0 stripe) = some x → x.open_ = false → x.lost = false → x.slice ≠ 65537 → x.packed = false →
      exec (.stripeRewrite group stripe) s = .next (if (if actsFor s x.slice then indexNames s group (unit0 stripe) else !(s.kv.disowned.contains x.slice))
        then cycleStep s group else freeDead s group x)) ∧
    (∀ stripe x set v d dec reps u recs live w, intentsHeld s = false → keptOf g (unit0 stripe) = some x → x.open_ = false → x.lost = false → x.slice ≠ 65537 →
      x.packed = true → genOf s group x.genId = some set → readStripe s (crewUser s 0 group) group x.genId x.stripe (List.range set.k) = (v, .units d dec reps) →
      u = dropFetches v (crewUser s 0 group) → recs = (stripeRecords u d).map (fun q => (recLive u x.stripe q.1 q.2.2.1 q.2.2.2, q.2.2)) →
      live = recs.filter (fun q => q.1 == 1 || q.1 == 3) → w = copyRecords (live.map fun q => q.2) u → exec (.stripeRewrite group stripe) s =
      .next (if recs.any fun q => q.1 == 2 then cycleStep u group else if live.isEmpty then freeDead u group x
        else if (live.map fun q => alignUp q.2.2.length 8).sum * 100 ≥ u.media.settings.compactPct * set.k * plainLen then cycleStep u group
        else if recs.any fun q => q.1 == 3 then cycleStep (copyDescriptor u group x.stripe (live.map fun q => q.2.2).flatten) group
        else cycleStep (if w.2 then markCopied w.1 group x.stripe else advance (sealOldest w.1)) group))

/-- What the rig loader and the erasure engine do. R295, R302, R304, R305, R306, R308, R309, R311, Table 08-12. -/
def Obligations.RigAndErasureComplete : Prop :=
  ∀ (s u : State) (core queue : Nat),
    (StoreTurn s core F.RIG_CTRL_STAGE.addr u → flag u F.RIG_STATUS_BUSY = false → flag u F.RIG_STATUS_SWAPPING = false → getF u F.RIG_SRC_ADDR_ADDR % 64 = 0 →
      getF u F.RIG_IMAGE_ADDR_ADDR % 65536 = 0 → unfencedHit u [(getF u F.RIG_SRC_ADDR_ADDR, getF u F.RIG_SRC_LEN_BYTES)] = false →
      exec (.rigCtrlStage core) s = .next (setF u F.RIG_STATUS_BUSY 1)) ∧
    (∀ t, coreLive s = true → flag s F.RIG_STATUS_BUSY = true → LoaderEnds s t → exec .rigStageEnd s = .next (stagedNow t)) ∧
    (StoreTurn s core F.RIG_CTRL_ACTIVATE.addr u → exec (.rigCtrlActivate core) s = .next (if flag u F.RIG_STATUS_SWAPPING then u
      else if flag u F.RIG_STATUS_STAGED = false ∨ flag u F.RIG_STATUS_BUSY = true then setF (setF u F.RIG_STATUS_ERROR 1) F.RIG_STATUS_ERRCODE 9
      else setF u F.RIG_STATUS_SWAPPING 1)) ∧
    (StoreTurn s core F.RIG_CTRL_DISCARD.addr u → exec (.rigCtrlDiscard core) s = .next (stagedNow (if flag u F.RIG_STATUS_SWAPPING then u
      else setF (setF { u with rig := { u.rig with staged := none } } F.RIG_STATUS_STAGED 0) F.RIG_STAGED_EPOCH_EPOCH 0))) ∧
    (∀ op ∈ [0x60, 0x61, 0x62], coreLive s = true → ∀ t, ecEntry s queue op = some t → flag s F.RIG_STATUS_SWAPPING = true →
      exec (if op = 0x60 then .ecEncode queue else if op = 0x61 then .ecDecode queue else .ecCheck queue) s = .next (setF s F.EC_STATUS_HOLD 1)) ∧
    (coreLive s = true → ∀ t l x addrs v w us d, flag s F.RIG_STATUS_SWAPPING = false → fld t.bytes 13 1 < 16 → fld t.bytes 14 2 = 0 → fld t.bytes 16 8 % 64 = 0 →
      allZero (slice t.bytes 32 32) = true → fld t.bytes 8 2 < (activeView s).count 4 → x = (activeView s).genSet (fld t.bytes 8 2) → x.m = 0 ∨ x.geom < (activeView s).count 6 →
      fabRead s 8 (fld t.bytes 16 8) 192 = (v, some l) → addrs = (List.range 24).map (fun p => fld l (8 * p) 8) →
      (∀ ps, ps = bitList (fld t.bytes 13 1) 4 → ecEntry s queue 0x60 = some t → ecPmask x t.bytes = 0 →
        (∀ p ∈ List.range x.k ++ ps.map (· + x.k), (addrs[p]?).getD 0 % 64 = 0) →
        (∀ o ∈ ps.map (· + x.k), overlaps ((addrs[o]?).getD 0) 65536 (fld t.bytes 16 8) 192 = false ∧
          (∀ i ∈ List.range x.k, (addrs[i]?).getD 0 ≠ 0 → overlaps ((addrs[o]?).getD 0) 65536 ((addrs[i]?).getD 0) 65536 = false) ∧
          ∀ p ∈ ps.map (· + x.k), p ≠ o → overlaps ((addrs[o]?).getD 0) 65536 ((addrs[p]?).getD 0) 65536 = false) →
        ecUnits addrs (List.range x.k) v = (w, some us) →
        ecWrites addrs (ps.map fun i => (x.k + i, parityUnit x 65536 i ((List.range x.k).map fun p => ((us.find? fun u => u.1 == p).map (·.2)).getD (zeros 65536)))) w = (d, true) →
        exec (.ecEncode queue) s = .next (setF (entryResult d t (slice t.bytes 24 8 ++ le 2 0 ++ le 1 0) false) F.EC_STATUS_BUSY 1)) ∧
      (∀ ex, ex = bitList (fld t.bytes 10 3) 24 → ecEntry s queue 0x61 = some t → ecXmask x t.bytes = 0 → (activeView v).decodeIndex x ex < (activeView v).count 7 →
        (∀ p ∈ ((List.range (x.k + x.m)).filter fun p => !(ex.contains p)) ++ ex.filter fun p => decide (p < x.k), (addrs[p]?).getD 0 % 64 = 0) →
        (∀ o ∈ ex.filter fun p => decide (p < x.k), overlaps ((addrs[o]?).getD 0) 65536 (fld t.bytes 16 8) 192 = false ∧
          (∀ i ∈ (List.range (x.k + x.m)).filter fun p => !(ex.contains p), (addrs[i]?).getD 0 ≠ 0 → overlaps ((addrs[o]?).getD 0) 65536 ((addrs[i]?).getD 0) 65536 = false) ∧
          ∀ p ∈ ex.filter fun p => decide (p < x.k), p ≠ o → overlaps ((addrs[o]?).getD 0) 65536 ((addrs[p]?).getD 0) 65536 = false) →
        ecUnits addrs ((List.range (x.k + x.m)).filter fun p => !(ex.contains p)) v = (w, some us) →
        ecWrites addrs ((ex.filter fun p => decide (p < x.k)).map fun d => (d, decodeUnit (activeView v) x ex 65536 d
          fun p => ((us.find? fun u => u.1 == p).map (·.2)).getD (zeros 65536))) w = (d, true) →
        exec (.ecDecode queue) s = .next (setF (entryResult d t (slice t.bytes 24 8 ++ le 2 0 ++ le 1 0) false) F.EC_STATUS_BUSY 1)) ∧
      (∀ ps, ps = bitList (fld t.bytes 13 1) 4 → ecEntry s queue 0x62 = some t → ecPmask x t.bytes = 0 →
        (∀ p ∈ List.range x.k ++ ps.map (· + x.k), (addrs[p]?).getD 0 % 64 = 0) →
        ecUnits addrs (List.range x.k ++ ps.map (· + x.k)) v = (w, some us) →
        exec (.ecCheck queue) s = .next (setF (entryResult w t (slice t.bytes 24 8 ++ le 2 0 ++ le 1 (ps.map fun i =>
          if ((us.find? fun u => u.1 == x.k + i).map (·.2)).getD (zeros 65536) =
            parityUnit x 65536 i ((List.range x.k).map fun p => ((us.find? fun u => u.1 == p).map (·.2)).getD (zeros 65536)) then 0 else 2 ^ i).sum) false) F.EC_STATUS_BUSY 1))) ∧
    (∀ t, coreLive s = true → doneEntry s queue 0x60 0x62 = some t → exec (.ecEntryEnd queue) s =
      .next (setF (if ((t.result.getD ([], false)).1[10]?).getD 0 ≠ 0 then countF (countF (endDone s t) F.EC_CNT_ENTRIES_COUNT 1) F.EC_CNT_MISMATCH_COUNT 1
        else countF (endDone s t) F.EC_CNT_ENTRIES_COUNT 1) F.EC_STATUS_BUSY 0))

/-- What the operations of a free-pool heap do and when they fail. R322, R323, Table 09-4. -/
def Obligations.HeapOperations : Prop :=
  ∀ (s u : State) (core heap : Nat) (window : List (Nat × Nat) → List Host.Cell), StoreTurn s core (F.FPH_CMD_OP core).addr u → core < 8 → heap < 1040 →
    (∀ es, window es = memPut u.mem (heapBase + 8 * getF u (F.FPH_HEAP_BASE heap)) (heapBytes (es.take (516096 - getF u (F.FPH_HEAP_BASE heap))))) →
    (flag u (F.FPH_HEAP_VALID heap) = true → (heapOf u heap).length < getF u (F.FPH_HEAP_CAPACITY heap) → pushOk u heap (getF u (F.FPH_ARG_VALUE core)) = true →
      Completes (.fphPush core heap) s fun t => getF t (F.FPH_STAT_FAIL core) = 0 ∧
        heapOf t heap = heapInsert (getF u (F.FPH_ARG_KEY core), getF u (F.FPH_ARG_VALUE core)) (heapOf u heap) ∧
        (∀ h, h ≠ heap → heapOf t h = heapOf u h) ∧ t.mem = window (heapInsert (getF u (F.FPH_ARG_KEY core), getF u (F.FPH_ARG_VALUE core)) (heapOf u heap))) ∧
    (∀ e es, flag u (F.FPH_HEAP_VALID heap) = true → heapOf u heap = e :: es →
      (Completes (.fphPop core heap) s fun t => getF t (F.FPH_STAT_FAIL core) = 0 ∧ heapOf t heap = es ∧ getF t (F.FPH_RES_KEY core) = e.1 % 2 ^ 32 ∧
        getF t (F.FPH_RES_VALUE core) = e.2 % 2 ^ 32 ∧ (∀ h, h ≠ heap → heapOf t h = heapOf u h) ∧ t.mem = window es) ∧
      (Completes (.fphPeek core heap) s fun t => getF t (F.FPH_STAT_FAIL core) = 0 ∧ getF t (F.FPH_RES_KEY core) = e.1 % 2 ^ 32 ∧
        getF t (F.FPH_RES_VALUE core) = e.2 % 2 ^ 32 ∧ (∀ h, heapOf t h = heapOf u h) ∧ t.mem = u.mem)) ∧
    (flag u (F.FPH_HEAP_VALID heap) = true → Completes (.fphClear core heap) s fun t => getF t (F.FPH_STAT_FAIL core) = 0 ∧ heapOf t heap = [] ∧
      (∀ h, h ≠ heap → heapOf t h = heapOf u h) ∧ t.mem = window []) ∧
    (∀ i ∈ [Instr.fphPush core heap, .fphPop core heap, .fphPeek core heap, .fphClear core heap],
      flag u (F.FPH_HEAP_VALID heap) = false ∨ (i = .fphPush core heap ∧ getF u (F.FPH_HEAP_CAPACITY heap) ≤ (heapOf u heap).length) ∨
        ((i = .fphPop core heap ∨ i = .fphPeek core heap) ∧ heapOf u heap = []) →
      Completes i s fun t => getF t (F.FPH_STAT_FAIL core) = 1 ∧ getF t (F.FPH_RES_KEY core) = 0 ∧ getF t (F.FPH_RES_VALUE core) = 0 ∧
        (∀ h, heapOf t h = heapOf u h) ∧ t.mem = u.mem)

/-- An inserted entry keeps the heap in order. R321, R323. -/
def Obligations.HeapReturnsLowestKey : Prop :=
  ∀ (l : List (Nat × Nat)) (e : Nat × Nat), l.Pairwise (fun x y => x.1 < y.1 ∨ (x.1 = y.1 ∧ x.2 ≤ y.2)) →
    (heapInsert e l).Pairwise (fun x y => x.1 < y.1 ∨ (x.1 = y.1 ∧ x.2 ≤ y.2)) ∧ (heapInsert e l).Perm (e :: l)

/-- What media management does. R318, R330, R338, R339, R343, R345, R347, R351, R355, R357, R358, R359. -/
def Obligations.MediaComplete : Prop :=
  ∀ (s : State), coreLive s = true →
    (∀ lun, lunUsed s lun = true → (flag s (F.FC_LUN_STATUS_DEAD (lun / 32) (lun % 32)) = true ∧ s.fc.reviveFailed.contains lun = true) ∨ 504 ≤ 4 * lunRetired s lun ∨
      8 ≤ (s.media.eraseFails.filter fun e => e.1 == lun && decide (s.now ≤ e.2 + 86400 * sec)).length →
      exec (.lunDeclareFailed lun) s = .next (lunFail s lun)) ∧
    (∀ lun fail b u, lunUsed s lun = true → (heapOf s lun).length < s.media.settings.gcLow →
      u = { s with media := { s.media with collecting := lun :: s.media.collecting.filter (· != lun) } } →
      (u.media.victims.find? fun v => bsnLun v.1 == lun && decide (btValid u v.1 > 0)) = none → pickVictim u lun true = some b →
      exec (.collection lun fail) s = .next (reapVictim (takeVictim u b) (fun b => bsnLun b == lun) (fail == 1))) ∧
    (∀ idle fail b, slcTarget s (heldCount s) < slcInUse s → (s.media.victims.find? fun v => btFlag s v.1 0 && decide (btValid s v.1 > 0)) = none →
      leastBy (btFirst s) ((usedBsns s).filter fun b => btState s b == 3 && btFlag s b 0) = some b →
      exec (.migration idle fail) s = .next (reapVictim (takeVictim s b) (fun b => btFlag s b 0) (fail == 1))) ∧
    (∀ bsn page step bits, (strideAt s bsn page).isSome = true → lunUsed s (bsnLun bsn) = true → 2 ≤ btState s bsn → btState s bsn ≤ 4 →
      exec (.readRetry bsn page step bits) s = .next (strideRead s bsn page step bits)) ∧
    (∀ reads u, u = reads.foldl sweepOne s → exec (.sweep reads) s = .next (if u.now ≥ u.media.sweepSaved.2.2.2 + 600 * sec then sweepSave u else u)) ∧
    (∀ ps u v ns, v = voidNotes s → ns = (v.media.notes.filter fun n => n.places.isEmpty).take 2048 → ns ≠ [] →
      placeTwice v (fun w => ⟨4, 0, w, 0, 0, 0, 0, 0, 0, 0, 0, 0⟩) (ns.map noteBytes).flatten = some (ps, u) →
      exec .noteRecord s = .next (settleFragments { u with media := { u.media with
        notes := u.media.notes.map fun n => if (ns.map NoteRec.seq).contains n.seq then { n with places := ps } else n } })) ∧
    (∀ bsn x u, (s.fc.failedProgs.find? fun x => x.bsn == bsn) = some x →
      u = btSet { s with fc := { s.fc with failedProgs := s.fc.failedProgs.filter fun y => y.bsn != bsn } } bsn 12 4 (x.page + 1) →
      exec (.programFailure bsn [] 0) s = .next (resubmit (logCrew (btMark (closeBlock u bsn) bsn 3) EV.programFailed) x)) ∧
    (∀ u, u = (if (s.media.since.any fun x => decide (x.2 ≥ s.media.settings.ckptLun)) = true ∧ dockNear s = false then s
        else if dockNear s = true then closeOpens s else reach s (s.media.ckptAt + s.media.settings.ckptS * sec)) →
      exec .checkpoint s = .next ((makeCheckpoint u).getD u)) ∧
    (∀ c gone base items, s.pwr.dev = 2 → s.pwr.fullScan = false → s.media.ckpt = some c →
      gone = (fun (f : FragItem) => f.kind == 0 && s.media.failed.contains (bsnLun f.bsn)) →
      base = (c.frags.map (fun f => if gone f then { f with kind := 4 } else f), c.notes, c.buckets) →
      items = (((scanStrides s).map strideItems).flatten.filter fun i => decide (scanSeq i ≥ c.seq)) →
      exec .summaryScan s = .next (scanEnd (adoptScan s c.wear ((items.foldr insertItem []).foldl applyItem base)))) ∧
    (∀ bad f u v, s.pwr.dev = 2 → s.media.ckpt = none → s.media.format = some f → u = logCrew s EV.mapFullScan →
      v = { u with media := { u.media with ckpt := none, retired := u.media.retired } } → u.media.format.isNone = false →
      exec (.fullScan 0 bad) s = (let w := adoptScan v [] (((((scanStrides v).map strideItems).flatten).foldr insertItem []).foldl applyItem ([], [], []))
        .next (scanEnd ((makeCheckpoint w).getD w)))) ∧
    (∀ entry n e l x u, flag s F.PJ_CTRL_DUMP_ARM = false → flag s (F.PJ_VMAP_VALID entry) = true → n = getF s (F.PJ_VMAP_CHANNEL entry) → e = getF s (F.PJ_VMAP_CE entry) →
      (((List.range 4).map fun t => lunIndex n (4 * e + t)).find? fun l => lunUsed s l && !(heapOf s l).isEmpty) = some l → heapPop s l = some (x, u) →
      exec (.vaultSetReplace entry) s = .next (logCrew (setJournalSize (setLimit (retireBlock
        (btSet (keepVault (setF (setF u (F.PJ_VMAP_LUN entry) (l % 4)) (F.PJ_VMAP_ROW entry) (x.2 % 512)) entry
          (2 ^ 63 + n * 2 ^ 35 + e * 2 ^ 32 + l % 4 * 2 ^ 30 + x.2 % 512)) x.2 0 1 6)
        (512 * lunIndex n (4 * e + getF s (F.PJ_VMAP_LUN entry)) + getF s (F.PJ_VMAP_ROW entry))))) EV.vaultSetReplaced)) ∧
    (s.media.format.isSome = true → s.media.readOnly = none → capFrags s ≤ heldCount s + journaledCount s →
      exec .mediaFull s = .next (readOnlyFor (logCrew s EV.mediaFull) 2))

/-- What a flash channel does with an entry at the head of its LUN. R374, R376, R377, R379, R381, R382, Table 10-6. -/
def Obligations.FlashEntriesComplete : Prop :=
  ∀ (s : State) (queue index n : Nat) (t : Taken),
    (FcTurn s queue index 0x40 n t → exec (.fcRead queue index) s = .next (fcIssue (fcApply s n t) n t [])) ∧
    (FcTurn s queue index 0x43 n t → exec (.fcReadHeader queue index) s = .next (fcIssue (fcApply s n t) n t [])) ∧
    (∀ u st, fcRoundOpen s n (fld t.bytes 8 1) = true → fld t.bytes 12 2 ≤ 511 → fcBlockState s n (fld t.bytes 8 1) (fcBsn n t.bytes) = (u, some st) →
      (∀ v bs, FcTurn s queue index 0x41 n t → st = 2 ∨ st = 6 → fcFetch n (fld t.bytes 8 1) (fcBuffers t.bytes) u = (v, some bs) →
        fallbackHeld v (fcBsn n t.bytes) = false → fld t.bytes 14 2 = (blockStrides v (fcBsn n t.bytes)).length →
        exec (.fcProgram queue index) s = .next (fcIssue v n t (List.zip (bs.take 4) (bs.drop 4)))) ∧
      (FcTurn s queue index 0x42 n t → st ≠ 0 → st ≠ 5 → fallbackHeld u (fcBsn n t.bytes) = false → exec (.fcErase queue index) s = .next (fcIssue u n t [])) ∧
      (FcTurn s queue index 0x42 n t → st = 0 ∨ st = 5 → exec (.fcErase queue index) s = .next (fcEndAt u n t 3))) ∧
    (FcTurn s queue index 0x44 n t → fld t.bytes 40 1 ∉ fixedFeatures → bitAt (fld t.bytes 41 1) 0 = false →
      exec (.fcFeature queue index) s = .next (fcIssue s n t [])) ∧
    (∀ v bs, FcTurn s queue index 0x44 n t → fld t.bytes 40 1 ∉ fixedFeatures → bitAt (fld t.bytes 41 1) 0 = true →
      fcFetch n (fld t.bytes 8 1) [(fld t.bytes 16 8, 4)] s = (v, some bs) →
      exec (.fcFeature queue index) s = .next (fcIssue v n t (bs.map fun b => (b, [])))) ∧
    (FcTurn s queue index 0x45 n t → vaultLun s n (fld t.bytes 8 1) = false → exec (.fcResetLun queue index) s = .next (fcIssue s n t [])) ∧
    (FcTurn s queue index 0x41 n t → fcRoundOpen s n (fld t.bytes 8 1) = false → exec (.fcProgram queue index) s = .next (fcWait s t))

/-- What ends, timeouts and events of a flash channel do. R364, R367, R369, R371, R375, R378, R380, R382, R385, R386. -/
def Obligations.FlashChannelsComplete : Prop :=
  ∀ (s : State) (channel slot : Nat),
    (∀ o fail bits corrected bad badWords u, lunOp s channel slot = some o → u = fcEnd s o fail bits corrected bad badWords →
      (o.op ∉ [0x41, 0x42] → exec (.fcOperationEnd channel slot fail bits corrected bad badWords) s = .next u) ∧
      (o.op = 0x41 → btState s (fcBsn o.chan o.entry) = 2 → (blockStrides s (fcBsn o.chan o.entry)).length = fld o.entry 14 2 →
        exec (.fcOperationEnd channel slot fail bits corrected bad badWords) s =
          .next (if fail = 1 then u else strideProgrammed u ⟨fcBsn o.chan o.entry, fld o.entry 14 2, o.data⟩)) ∧
      (o.op = 0x42 → btState s (fcBsn o.chan o.entry) = 4 →
        (∀ v ∈ s.media.victims, v.1 = fcBsn o.chan o.entry → victimReady s v = true) →
        exec (.fcOperationEnd channel slot fail bits corrected bad badWords) s =
          .next (if fail = 1 then eraseFailed u (fcBsn o.chan o.entry) else freeBlock u (fcBsn o.chan o.entry)))) ∧
    (∀ o u v, lunOp s channel slot = some o → o.op ≠ 0x7F → u = reach s (o.since + fcLimit s o) →
      v = (if o.op = 0x41 then { u with fc := { u.fc with failedProgs := ⟨fcBsn o.chan o.entry, fld o.entry 14 2, o.data⟩ :: u.fc.failedProgs } } else u) →
      exec (.fcLunTimeout channel slot) s = .next (logCrew
        (countF (fcReset (fcShort v o 5) channel slot) (F.FC_LUN_CNT_TIMEOUT_COUNT channel slot) 1) EV.flashTimeout)) ∧
    (∀ o, lunOp s channel slot = some o → o.op = 0x7F → exec (.lunResetTimeout channel slot) s = .next (logCrew
      (setF (setF (lunFree (reach s (o.since + 10 * ms)) channel slot) (F.FC_LUN_STATUS_DEAD channel slot) 1) (F.FC_STATUS_LUN_DEAD channel) 1) EV.lunUnresponsive)) ∧
    (∀ core ready u, StoreTurn s core (F.FC_LUN_CTRL_REVIVE channel slot).addr u → exec (.fcRevive core channel slot ready) s = .next (lunRevive u channel slot ready)) ∧
    (∀ u, domainOn s .flash = true → flag s (F.FC_CTRL_RUN channel) = true → u = fcShortAll 8 (s.fc.ops.filter fun o => o.chan == channel) s →
      exec (.sequencerFault channel) s = .next (logCrew (setF { u with fc := { u.fc with
        stopped := channel :: u.fc.stopped.filter (· != channel), starting := u.fc.starting.filter fun p => p.1 != channel } } (F.FC_STATUS_SEQ_FAULT channel) 1) EV.flashSeqFault)) ∧
    (∀ temp, flag s (F.FC_LUN_STATUS_PRESENT channel slot) = true → lunOp s channel slot = none → s.fc.stopped.contains channel = false →
      exec (.lunTempPoll channel slot 1 temp) s = .next (setF (setF s (F.FC_LUN_TEMP_TEMP channel slot) temp) (F.FC_LUN_TEMP_VALID channel slot) 1) ∧
      exec (.lunTempPoll channel slot 0 temp) s = .next (setF (setF s (F.FC_LUN_TEMP_TEMP channel slot) 0x80) (F.FC_LUN_TEMP_VALID channel slot) 0)) ∧
    (∀ u sched, domainOn s .flash = true → rigActive s = true → sched = getF s (F.FC_ROUND_SCHED 0) → s.rig.newSchedule = false →
      u = reach s (s.fc.roundAt + (powerRounds s sched).2 * us) → wantedSched u = sched → Completes .fcRoundTick s fun t =>
        t = roundSet sched (if getF u (F.FC_ROUND_ROUND 0) + 1 < (powerRounds { u with fc := { u.fc with roundAt := u.now } } sched).1 then getF u (F.FC_ROUND_ROUND 0) + 1 else 0) (List.range 32)
          { u with fc := { u.fc with roundAt := u.now } }) ∧
    (domainOn s .flash = true → s.cox.verified = true →
      exec .channelStart s = .next (fcLoadAll (List.range 32) { s with pins := { s.pins with flashPwrEn := true } })) ∧
    (∀ targets, (s.fc.starting.any fun p => p.1 == channel) = true → s.cox.loading = none →
      exec (.channelReady channel targets) s = .next (channelReady s channel targets)) ∧
    (∀ rid core window offset width value ready u, rid ≤ 1 → coreOn s core = true → u = coreActs s core → windowFault u window offset width true = none →
      exec (.fcGroupWindowWrite rid core window offset width value ready) s =
        membersWrite (coreRid core) core offset width value (some ready) (windowMembers u window) u) ∧
    (∀ rid core window offset value ready u r, rid ≤ 1 → coreOn s core = true → u = coreActs s core → windowFault u window offset 4 true = none →
      offset ∉ [0x0C, 0x10, 0x14, 0x18, 0x1C, 0x20] → (0x1000 ≤ offset → offset < 0x2000 → offset % 128 = 4 → bitAt value 31 = false) →
      (∀ n < 32, busTarget (fcWindow n + offset) = .reg (fcWindow n + offset) r) → reservedHit r (value % 2 ^ 32) = false →
      exec (.fcGroupWindowWrite rid core window offset 4 value ready) s = .next ((windowMembers u window).foldl (fun v n =>
        windowRevive n offset value ready (fieldsWrite (coreRid core) (fcWindow n + offset) 0 32 (value % 2 ^ 32) r.fields v)) u))

/-- What an access of a requester to the staging cache does. R30, R38, R392, R395. -/
def Obligations.CacheAccessesComplete : Prop :=
  ∀ (s u : State) (rid core addr len write err n : Nat) (data : Bytes) (r : ScReq), coreLive s = true → (rid ≤ 1 → coreOn s core = true) →
    n = min len (256 - addr % 256) → u = scActs s rid core addr n (write == 1) →
    r = ⟨rid, core, addr, n, if write = 1 then some (fit data n) else none, write == 2, err⟩ →
    (∀ k, memFault u addr n (write == 1) = some k → exec (.scAccess rid core addr len write data err) s = .next (scAnswer u r (some k) [])) ∧
    (memFault u addr n (write == 1) = none → err = 5 → exec (.scAccess rid core addr len write data err) s = .next (scAnswer u r (some 4) [])) ∧
    (memFault u addr n (write == 1) = none → err ≠ 5 → isDram addr = true → n ≠ 0 → (write = 1 → u.sc.maint = none) →
      (rid ≤ 1 → write = 2 → staleCode u core addr n = false) →
      (scPort u rid = none → exec (.scAccess rid core addr len write data err) s = .next (scIssue u r)) ∧
      (∀ p l, scPort u rid = some p → heldLine u (addr / 256) = some l → addr / 256 ≠ p.line →
        (∀ q ∈ p.waiting, q.addr / 256 = p.line) → exec (.scAccess rid core addr len write data err) s = .next (scServe u r l)) ∧
      (∀ p, scPort u rid = some p → addr / 256 = p.line ∨ (∃ q ∈ p.waiting, q.addr / 256 ≠ p.line) ∨ (heldLine u (addr / 256) = none ∧ write ≠ 1) →
        exec (.scAccess rid core addr len write data err) s = .next (putScPort u rid (some { p with waiting := p.waiting ++ [r] }))))

/-- What the engines of the staging cache and the DRAM controller do. R392, R395, R396, R397, R398, R400, R401, R403, R404, R405, R409, R411. -/
def Obligations.CacheEngineCompletes : Prop :=
  ∀ (s u : State) (core : Nat),
    (∀ rid p r rest f, coreLive s = true → scPort s rid = some p → p.waiting = r :: rest → evicting s p.line = none → mayAlloc s rid = false →
      heldLine s p.line = none → r.write = none → f = dramFetch s r r.addr r.len → exec (.scFillComplete rid) s =
      .next (scReplay rest (match f.2 with
        | none => scAnswer (putScPort f.1 rid none) r (some 3) []
        | some d => scAnswer (countF (putScPort f.1 rid none) F.SC_CNT_NOALLOC_COUNT 1) r none d))) ∧
    (∀ rid p r rest f d a, coreLive s = true → scPort s rid = some p → p.waiting = r :: rest → evicting s p.line = none → mayAlloc s rid = true →
      evictFull s = false → heldLine s p.line = none → r.write = none → f = dramFetch s r (p.line * 256) 256 → f.2 = some d →
      a = scAnswer (scAlloc (putScPort f.1 rid none) (allowedWays (putScPort f.1 rid none) rid) rid p.line d false (r.err == 3)) r none (slice d (r.addr % 256) r.len) →
      exec (.scFillComplete rid) s =
      .next (scReplay rest ((a.sc.ports.filter fun q => q.line == p.line).foldl (fun s q => scReplay q.waiting (putScPort s q.rid none)) a))) ∧
    (∀ line l v, coreLive s = true → evicting s line = some l → v = evictWrite s l → exec (.scEvictionDone line 0) s =
      .next ((v.sc.ports.filter fun p => p.line == line || p.waiting.any fun r => r.write.isSome).foldl
        (fun s p => scReplay p.waiting (putScPort s p.rid none)) v)) ∧
    (∀ way ue v, coreLive s = true → (s.sc.disabling.find? fun p => p.1 == way) = some (way, ue) →
      v = (s.sc.lines.filter fun l => l.way == way).foldl
        (fun s l => scDrop (if l.dirty || l.corrected then dramStore s (l.line * 256) l.data else s) l.line) s →
      Completes (.scWayDisableEnd way) s fun t => ∃ w, t = logEv w EV.cacheWayDisabled way (b2n ue) 0 ∧
        w.sc = { v.sc with disabling := v.sc.disabling.filter fun p => p.1 != way } ∧ w.mem = v.mem ∧
        getF w F.SC_WAY_STATUS_DISABLED = (getF v F.SC_WAY_STATUS_DISABLED ||| 2 ^ way) % 65536) ∧
    (∀ ways, StoreTurn s core F.SC_WAY_STATUS_DISABLED.addr u → Completes (.scWayEnable core ways) s fun t =>
      (∀ w, w < 16 → getF t F.SC_WAY_STATUS_DISABLED / 2 ^ w % 2 = if ways / 2 ^ w % 2 = 1 then 0 else getF u F.SC_WAY_STATUS_DISABLED / 2 ^ w % 2) ∧
      (∀ w, w < 16 → ways / 2 ^ w % 2 = 1 → getF u F.SC_WAY_STATUS_DISABLED / 2 ^ w % 2 = 1 → getF t (F.SC_WAY_CE_COUNT w) = 0) ∧
      MemSame u t 0 0 ∧ t.sc = u.sc) ∧
    (coreLive s = true → ∀ op all i, (i, op) ∈ [(Instr.scClean core all, 1), (.scInvalidate core all, 2), (.scCleanInvalidate core all, 3)] →
      (StoreTurn s core F.SC_MAINT_CTRL_GO.addr u → u.sc.maint.isSome = true → exec i s = .next (setF u F.SC_MAINT_STATUS_REJECTED 1)) ∧
      (∀ w range first v, StoreTurn s core F.SC_MAINT_CTRL_GO.addr u → u.sc.maint = none → w = setF (setF u F.SC_MAINT_CTRL_OP op) F.SC_MAINT_CTRL_ALL all →
        (all % 2 = 1 ∨ (isDram (getF w F.SC_MAINT_START_LINE * 256) = true ∧ isDram (getF w F.SC_MAINT_END_LINE * 256) = true ∧
          getF w F.SC_MAINT_START_LINE ≤ getF w F.SC_MAINT_END_LINE)) →
        range = ((w.sc.lines.map ScLine.line).filter fun l => all % 2 == 1 || (decide (getF w F.SC_MAINT_START_LINE ≤ l) && decide (l ≤ getF w F.SC_MAINT_END_LINE))) →
        first = ((range.zipIdx.filter fun x => bitAt (fresh w).1 x.2).map Prod.fst) → v = first.foldl (maintVisit op) (fresh w).2 →
        exec i s = .next (setF { v with sc := { v.sc with maint := some ⟨op, all % 2 == 1, getF w F.SC_MAINT_START_LINE, getF w F.SC_MAINT_END_LINE,
          range.filter fun l => !(first.contains l)⟩ } } F.SC_MAINT_STATUS_BUSY 1))) ∧
    (∀ line err m v, coreLive s = true → s.sc.maint = some m → v = m.left.foldl (maintVisit m.op) (maintEcc s m.left line err) → exec (.scMaintEnd line err) s =
      .next (setF (setF { v with sc := { v.sc with maint := none } } F.SC_MAINT_STATUS_BUSY 0) F.SC_MAINT_STATUS_DONE 1)) ∧
    (∀ lines rid v, StoreTurn s core F.SC_PF_CTRL_GO.addr u → v = setF (setF u F.SC_PF_CTRL_LINES lines) F.SC_PF_CTRL_RID rid →
      exec (.scPrefetchHint core lines rid) s = .next (
        if u.sc.hints.length ≥ 16 then countF v F.SC_CNT_PF_DROP_COUNT 1
        else if scOn u then { v with sc := { v.sc with hints := v.sc.hints ++ [(getF u F.SC_PF_ADDR_LINE, lines % 512, rid % 16)] } } else v)) ∧
    (∀ l n rid rest, coreLive s = true → s.sc.hints = (l, n, rid) :: rest → scOn s = true → exec .scPrefetchFetch s =
      .next (((List.range n).map (l + ·)).foldl (prefetchLine rid) { s with sc := { s.sc with hints := rest } })) ∧
    (StoreTurn s core F.SC_CTRL_ENABLE.addr u → scOn u = true → u.sc.ports = [] → u.sc.evict = [] → Completes (.scDisable core) s fun t =>
      getF t F.SC_STATUS_ENABLED = 0 ∧ getF t F.SC_CTRL_ENABLE = 0 ∧ t.sc.hints = [] ∧ t.sc.lines = u.sc.lines ∧ t.mem = u.mem) ∧
    (StoreTurn s core F.SC_CTRL_ENABLE.addr u → (scOn u = true → exec (.scEnable core) s = .next (setF u F.SC_CTRL_ENABLE 1)) ∧
      (scOn u = false → staleHeld u = false → exec (.scEnable core) s = .next (setF (setF u F.SC_CTRL_ENABLE 1) F.SC_STATUS_ENABLED 1)) ∧
      (scOn u = false → staleHeld u = true → exec (.scEnable core) s = .fault (.undefined411 1))) ∧
    (∀ addr high, domainOn s .dram = true →
      (flag s F.DMC_SCRUB_ENABLE = true → isDram addr = true →
        exec (.dmcScrub addr 0) s = .next s ∧ exec (.dmcScrub addr 1) s = .next (countF s F.DMC_CNT_CE_COUNT 1) ∧
        exec (.dmcScrub addr 2) s = .next (dmcLatch { s with poison := if s.poison.contains (addr / 256) then s.poison else addr / 256 :: s.poison } 0 addr true)) ∧
      exec (.dmcTempRefresh high) s = .next (setF s F.DMC_STATUS_TEMP_HIGH high))

/-- What the work queue manager does. R415, R418, R419, R421, R422, R424, R425, R428, R429, R431, R432, R433. -/
def Obligations.WorkQueuesComplete : Prop :=
  ∀ (s : State) (queue : Nat), coreLive s = true →
    (∀ x b v, queueOf s queue = some x → unfencedHit s (postedRanges s x) = false → fabRead s 5 x.idx 8 = (v, some b) →
      (x.fromBlock = false → x.poll = 0 → idxSub (fld b 0 4) x.sqCi ≤ 2 ^ x.log2s → exec (.wqDoorbellSq queue) s = .next (putQueue v { x with sqPi := fld b 0 4 })) ∧
      (x.fromBlock = true → idxSub x.sqPi (fld b 4 4) ≤ 2 ^ x.log2s → exec (.wqDoorbellSq queue) s = .next (putQueue v { x with sqCi := fld b 4 4 }))) ∧
    (∀ x b v p, queueOf s queue = some x → x.fromBlock = false → fabRead s 5 x.idx 16 = (v, some b) → idxSub x.cqPi (fld b 12 4) ≤ 2 ^ x.log2c →
      p = cqFlush x.held.length v { x with cqCi := fld b 12 4 } → exec (.wqDoorbellCq queue) s = .next (putQueue p.1 p.2)) ∧
    (∀ x, queueOf s queue = some x → x.poll = 0 ∨ x.fromBlock = true → unfencedHit s (postedRanges s x) = true →
      exec (.wqDoorbellSq queue) s = .fault (.undefined46 2)) ∧
    (∀ x b v, queueOf s queue = some x → x.poll ≠ 0 → x.fromBlock = false → x.state = 1 → x.held = [] → flag s F.WQ_CTRL_ENABLE = true →
      fabRead (countF s F.WQ_CNT_POLL_COUNT 1) 5 (sqSlot x x.sqPi) 64 = (v, some b) →
      (fld b 3 1 % 2 = phaseOf x.log2s x.sqPi → idxSub x.sqPi x.sqCi < 2 ^ x.log2s → 1 ≤ fld b 2 1 → fld b 2 1 ≤ 4 →
        exec (.wqPoll queue) s = .next (putQueue v { x with sqPi := idxAdd x.sqPi (fld b 2 1) })) ∧
      (fld b 3 1 % 2 ≠ phaseOf x.log2s x.sqPi → exec (.wqPoll queue) s = .next (putQueue v x))) ∧
    (∀ x h v n w b, queueOf s queue = some x → wqLegacy s = false → flag s F.WQ_CTRL_ENABLE = true → x.fromBlock = false → x.state = 1 → x.sqPi ≠ x.sqCi →
      wqHeld s queue = false → (queue = 0 → s.wq.destroying = none) → blockTakes s queue = true →
      takenOpen s queue + dueCount s queue + x.held.length < cqFree x + 32 → fabRead s 5 (sqSlot x x.sqCi) 64 = (v, some h) →
      opSlots (fld h 0 1) = some n → opAllowed v x.num (fld h 0 1) = true → fld h 2 1 = n → n ≤ idxSub x.sqPi x.sqCi →
      (bitAt (fld h 1 1) 0 = true ∨ x.batch = none ∧ bitAt (fld h 1 1) 1 = false) → (∀ p, x.batch = some p → p.2 < 1024) →
      commonReserved h = false → readSlots v x x.sqCi n = (w, some b) → exec (.wqEntryTake queue) s = .next (wqTake w x b n)) ∧
    exec (.wqCompletionDue queue) s = .next (wqComplete s queue) ∧
    (∀ t, (queue = 0 → openEntry s 0 0 = some t) →
      (queue ≠ 0 → (s.wq.taken.find? fun t => t.queue == queue && !t.ended && t.result.isNone && fld t.bytes 0 1 == 0) = some t) → exec (.wqNop queue) s = .next (entryEnd s t (zeros 12) false)) ∧
    ((flag s F.WQ_ECINV_HOLD = true → getF s F.WQ_ECINV_QUEUE = queue) → exec (.wqHold queue) s =
      .next (setF (setF (setF (setF s F.WQ_ECINV_HOLD 1) F.WQ_ECINV_QUEUE queue) F.WQ_ECINV_HELD 1) F.WQ_ECINV_IDX_TAKEN
        (((queueOf s queue).map Queue.sqCi).getD 0))) ∧
    exec (.wqUnhold queue) s = .next (setF (setF (setF s F.WQ_ECINV_HOLD 0) F.WQ_ECINV_QUEUE queue) F.WQ_ECINV_HELD 0) ∧
    (∀ t, fld t.bytes 8 2 = queue → adminReserved t.bytes = false →
      (openEntry s 0 1 = some t → (adminStatus s t.bytes = 0 → queueClash s t.bytes = false) → exec (.create queue) s = .next (entryEnd (if adminStatus s t.bytes = 0 then queueCreate s t.bytes else s) t
        (adminResult t.bytes (adminStatus s t.bytes)) (adminStatus s t.bytes != 0))) ∧
      (∀ x, openEntry s 0 2 = some t → queueOf s queue = some x → adminStatus s t.bytes = 0 → exec (.destroy queue) s =
        .next (entryResult { putQueue s { x with state := 3 } with wq := { (putQueue s { x with state := 3 }).wq with destroying := some (queue, t.index) } }
          t (adminResult t.bytes 0) false)) ∧
      (∀ x, openEntry s 0 3 = some t → queueOf s queue = some x → adminStatus s t.bytes = 0 → exec (.restart queue) s =
        .next (entryEnd (queueRestart s x (fld t.bytes 48 8)) t (adminResult t.bytes 0) false))) ∧
    (∀ x i t r, queueOf s queue = some x → s.wq.destroying = some (queue, i) → x.state = 3 → x.held = [] → takenOpen s queue = 0 → dueCount s queue = 0 →
      (s.wq.taken.find? fun t => t.queue == 0 && t.index == i && !t.ended) = some t → t.result = some r → exec (.destroyDrained queue) s =
      .next (entryEnd { s with wq := { s.wq with destroying := none, queues := s.wq.queues.filter fun y => y.num != queue } } t r.1 false)) ∧
    (∀ x, queueOf s queue = some x → wqLegacy s = true → queue < 64 → x.state = 2 →
      exec (.wqLrestart queue) s = .next (queueRestart s x (getF s F.WQ_LRESTART_IDX_INDEX)))

/-- What the commands of a DMA channel do. R440, R442, R445, R449, R450, R451, Tables 13-1 and 13-3. -/
def Obligations.DmaChannelsComplete : Prop :=
  ∀ (s u : State) (core channel : Nat),
    (∀ t, StoreTurn s core (F.DMA_CH_CTRL_GO channel).addr u → getF u (F.DMA_CH_STATUS_STATE channel) = 0 ∨ getF u (F.DMA_CH_STATUS_STATE channel) = 2 →
      (unfencedHit u [(descAddr u channel, 64)] = true → exec (.dmaGo core channel) s = .fault (.undefined46 2)) ∧
      (unfencedHit u [(descAddr u channel, 64)] = false → DmaStarts u channel (descAddr u channel) t → exec (.dmaGo core channel) s = .next t)) ∧
    (∀ queue t, coreLive s = true → runEntry s queue = some t → fld t.bytes 8 2 = channel → channel < 32 →
      (∀ z, getF s (F.DMA_CH_STATUS_STATE channel) = 0 ∨ getF s (F.DMA_CH_STATUS_STATE channel) = 2 →
        DmaStarts (putChan s { chanOf s channel with run := some (t.queue, t.index) }) channel (fld t.bytes 16 8) z → exec (.dmaRun queue) s = .next z) ∧
      (getF s (F.DMA_CH_STATUS_STATE channel) = 1 ∨ getF s (F.DMA_CH_STATUS_STATE channel) = 3 → exec (.dmaRun queue) s =
        .next (entryEnd s t (slice t.bytes 24 8 ++ [2] ++ zeros 3) true))) ∧
    (StoreTurn s core (F.DMA_CH_CTRL_KICK channel).addr u →
      (getF u (F.DMA_CH_STATUS_STATE channel) = 1 → exec (.dmaKick core channel) s = .next (setF u (F.DMA_CH_STATUS_KICK_PEND channel) 1)) ∧
      (∀ v w z, getF u (F.DMA_CH_STATUS_STATE channel) = 2 → unfencedHit u [(getF u (F.DMA_CH_LAST_ADDR channel) + 24, 8)] = false →
        fabRead u (dmaRid channel) (getF u (F.DMA_CH_LAST_ADDR channel) + 24) 8 = (v, some w) →
        (bitAt (leNat w) 63 = true → getF v (F.DMA_CH_STATUS_STATE channel) = 2 → exec (.dmaKick core channel) s = .next v) ∧
        (bitAt (leNat w) 63 = false → DmaStarts v channel (bits (leNat w) 0 48) z → exec (.dmaKick core channel) s = .next z))) ∧
    (StoreTurn s core (F.DMA_CH_CTRL_STOP channel).addr u → getF u (F.DMA_CH_STATUS_STATE channel) = 1 →
      (chanOf u channel).bursts ≠ [] → exec (.dmaStop core channel) s = .next (putChan u { chanOf u channel with stopping := true })) ∧
    (∀ v t, StoreTurn s core (F.DMA_CH_CTRL_STOP channel).addr u → getF u (F.DMA_CH_STATUS_STATE channel) = 1 → (chanOf u channel).bursts = [] →
      (chanOf u channel).follow = 0 → v = dmaStopped (putChan u { chanOf u channel with stopping := true }) channel →
      dmaAppend ((chanOf v channel).records.length + 1) v channel = (t, true) → (chanOf t channel).records = [] → (chanOf t channel).follow = 2 →
      exec (.dmaStop core channel) s = .next (dmaIdle (putChan (if (chanOf t channel).irqAfter then setF t (F.DMA_CH_STATUS_IRQ_PEND channel) 1 else t)
        { chanOf t channel with irqAfter := false, follow := 0 }) channel)) ∧
    (∀ d, StoreTurn s core (F.DMA_CH_CTRL_RESUME channel).addr u → getF u (F.DMA_CH_STATUS_STATE channel) = 3 → (chanOf u channel).desc = some d →
      descFault u channel d = false → exec (.dmaResume core channel) s =
      .next (setChanState (putChan u { chanOf u channel with issued := (chanOf u channel).done, bursts := [] }) channel 1)) ∧
    (StoreTurn s core (F.DMA_CH_CTRL_RESUME channel).addr u → getF u (F.DMA_CH_STATUS_STATE channel) = 3 → (chanOf u channel).desc = none →
      ∀ t, DmaStarts u channel (descAddr u channel) t → exec (.dmaResume core channel) s = .next t) ∧
    (StoreTurn s core (F.DMA_CH_CTRL_ABORT channel).addr u → getF u (F.DMA_CH_STATUS_STATE channel) = 3 →
      exec (.dmaAbort core channel) s = .next (setChanState u channel 0))

/-- What the engines, lines and completion ring of the DMA engine do. R438, R441, R443, R444, R445, R447, R448. -/
def Obligations.DmaTransfersComplete : Prop :=
  ∀ (s u : State) (core channel : Nat),
    (∀ d v b w, coreLive s = true → dmaPick s = some channel → (chanOf s channel).desc = some d →
      w = (if flag s (F.DMA_CH_CFG_HIGH channel) then { s with dma := { s.dma with lastHigh := channel } } else { s with dma := { s.dma with lastLow := channel } }) →
      fabRead w (dmaRid channel) (srcAddr d (chanOf s channel).issued) (if dflag d 2 then 1 else burstLen w (chanOf s channel) d) = (v, some b) →
      exec (.dmaBurstGrant channel) s = .next (putChan v { chanOf s channel with
        issued := (chanOf s channel).issued + burstLen w (chanOf s channel) d
        bursts := (chanOf s channel).bursts ++ [⟨(chanOf s channel).issued, if dflag d 2 then List.replicate (burstLen w (chanOf s channel) d) (b.headD 0) else b⟩] })) ∧
    (∀ d b rest v c, coreLive s = true → (chanOf s channel).desc = some d → (chanOf s channel).bursts = b :: rest → (chanOf s channel).stopping = false →
      fabWrite s (dmaRid channel) (dstAddr d b.start) (if dflag d 3 then b.data.drop (b.data.length - 1) else b.data) = (v, true) →
      c = { chanOf s channel with bursts := rest, done := b.start + b.data.length } → wrapRecords d c = [] → c.records = [] → c.follow = 0 →
      ∃ t, exec (.dmaBurstWritten channel) s = .next t ∧ (chanOf t channel).done = c.done ∧ (chanOf t channel).bursts = rest ∧ t.mem = v.mem ∧
        getF t (F.DMA_CH_DONE_BYTES_BYTES channel) = c.done % 2 ^ 32) ∧
    (∀ d b rest bytes, coreLive s = true → (chanOf s channel).desc = some d → (chanOf s channel).bursts = rest ++ [b] →
      32 ≤ getF s (F.DMA_CH_CFG_PREQ channel) →
      (dflag d 2 = true → bytes < b.data.length → exec (.dmaPeripheralLast channel bytes) s =
        .next (putChan s { chanOf s channel with bursts := rest ++ [⟨b.start, b.data.take bytes⟩], last := some (b.start + bytes) })) ∧
      (chanPeriph s channel = true → exec (.dmaPeripheralAbort channel) s =
        .next (dmaHalt s channel 3 (b2n (dflag d 3)) (if dflag d 3 then dstAddr d b.start else srcAddr d b.start)))) ∧
    (∀ d v, coreLive s = true → (chanOf s channel).desc = some d → getF s (F.DMA_CH_STATUS_STATE channel) = 1 → descDone (chanOf s channel) d = true →
      (chanOf s channel).records = [] → (chanOf s channel).follow = 0 → (chanOf s channel).stopping = false → dflag d 0 = false → dflag d 1 = false →
      bitAt (fld d 24 8) 63 = true → flag s (F.DMA_CH_STATUS_KICK_PEND channel) = false →
      v = putChan (setF (putChan s { chanOf s channel with irqAfter := false, follow := 1 }) (F.DMA_CH_STATUS_CQ_WAIT channel) 0)
        { chanOf s channel with irqAfter := false, follow := 0 } →
      exec (.dmaDescriptorEnd channel) s = .next (dmaEnded (countF v F.DMA_CNT_DESC_COUNT 1) channel)) ∧
    (∀ lines, StoreTurn s core F.DMA_REQ_SET_LINES.addr u → lines % 2 = 0 →
      exec (.dmaReqSet core lines) s = .next (setLines u (getF u F.DMA_REQ_SET_LINES ||| lines / 2))) ∧
    (∀ lines, StoreTurn s core F.DMA_REQ_CLR_LINES.addr u → lines % 2 = 0 → exec (.dmaReqClr core lines) s =
      .next (setLines (countF u F.DMA_CNT_WITHDRAWN_COUNT (withdrawn u lines)) (getF u F.DMA_REQ_SET_LINES &&& (getF u F.DMA_REQ_SET_LINES ^^^ lines / 2)))) ∧
    (∀ index t, StoreTurn s core F.DMA_CQ_CI_INDEX.addr u → idxSub index (getF u F.DMA_CQ_CI_INDEX) ≤ idxSub (getF u F.DMA_CQ_PI_INDEX) (getF u F.DMA_CQ_CI_INDEX) →
      t = setF u F.DMA_CQ_CI_INDEX index → (∀ n < 32, flag t (F.DMA_CH_STATUS_CQ_WAIT n) = false) →
      exec (.dmaCqCiWrite core index) s = .next t)

/-- A search of the Palette reports its best match. R458. -/
def Obligations.PaletteReportsBestMatch : Prop :=
  ∀ (s : State) (key banks width core : Nat) (v : State) (h : AsuHit), flag s F.ASU_CTRL_ENABLE = true → v = moveProgress s → h = (asuSearch s key banks width).2 →
    (asuMatches v key banks width = [] → h.hit = false ∧ h.multi = false ∧ h.bank = 0 ∧ h.index = 0 ∧ h.prio = 0 ∧ h.adata = 0) ∧
    (asuMatches v key banks width ≠ [] → h.hit = true ∧ h.multi = decide ((asuMatches v key banks width).length > 1) ∧
      ∃ e ∈ asuMatches v key banks width, h.bank = e.bank ∧ h.index = e.index ∧ h.prio = e.prio ∧ h.adata = e.adata ∧
        ∀ f ∈ asuMatches v key banks width, f.prio < e.prio ∨ f.prio = e.prio ∧ (e.bank < f.bank ∨ e.bank = f.bank ∧ e.index ≤ f.index)) ∧
    (coreLive s = true → (portOf s core).running = some (key, banks, width) → ∃ t, exec (.asuSearchResult core) s = .next t ∧
      getF t (F.ASU_RESULT_READY core) = 1 ∧ getF t (F.ASU_RESULT_HIT core) = b2n h.hit ∧ getF t (F.ASU_RESULT_MULTI core) = b2n h.multi ∧
      getF t (F.ASU_RESULT_BANK core) = h.bank % 64 ∧ getF t (F.ASU_RESULT_INDEX core) = h.index % 2048 ∧
      getF t (F.ASU_RESULT_PRIO_PRIO core) = h.prio % 2 ^ 16 ∧ getF t (F.ASU_RESULT_DATA_ADATA core) = h.adata % 2 ^ 32 ∧ portOf t core = ⟨core, none, h.matched, 0⟩)

/-- What the commands of the Palette do. R455, R456, R461, R462, R464, R465, R466, R467, R469. -/
def Obligations.PaletteCommandsComplete : Prop :=
  ∀ (s u : State) (core : Nat),
    (∀ width v, StoreTurn s core (F.ASU_SEARCH_GO core).addr u → v = setF u (F.ASU_SEARCH_WIDTH core) width → exec (.asuSearchGo core width) s =
      .next (putPort (clearResult v core) { portOf v core with
        running := some (leNat (portBytes v F.ASU_KEY_BYTES core), getF v (F.ASU_SEARCH_BANKS_BANKS core), width % 4) })) ∧
    (StoreTurn s core (F.ASU_STEP_CTRL_NEXT core).addr u → flag u (F.ASU_RESULT_READY core) = true →
      (∀ b i v, (portOf u core).latched[(portOf u core).steps]? = some (b, i) →
        v = putPort (moveProgress u) { portOf u core with steps := (portOf u core).steps + 1 } → exec (.asuStepNext core) s =
        .next (stepRefresh (setF (setF (setF v (F.ASU_STEP_RESULT_VALID core) 1) (F.ASU_STEP_RESULT_BANK core) b) (F.ASU_STEP_RESULT_INDEX core) i) core)) ∧
      ((portOf u core).latched[(portOf u core).steps]? = none → exec (.asuStepNext core) s =
        .next (setF (setF u (F.ASU_STEP_RESULT_VALID core) 0) (F.ASU_STEP_RESULT_END core) 1))) ∧
    (∀ valid bank index, StoreTurn s core (F.ASU_WENTRY_GO core).addr u → bank < 64 → index < bankEntries u bank →
      (∀ m, u.asu.move = some m → m.bank ≠ bank) → ∃ t, exec (.asuEntryWrite core valid bank index) s = .next t ∧
        getF t (F.ASU_WSTATUS_DONE core) = 1 ∧
        asuEnt t bank index = ⟨bank, index, valid % 2 == 1, getF u (F.ASU_WPRIO_PRIO core), getF u (F.ASU_WDATA_ADATA core)⟩ ∧
        (∀ j < bankUnits u bank, asuUnit t bank (index * bankUnits u bank + j) = (bits (leNat (portBytes u F.ASU_KEY_BYTES core)) (128 * j) 128,
          bits (leNat (portBytes u F.ASU_WMASK_BYTES core)) (128 * j) 128)) ∧
        (∀ b i, (b, i) ≠ (bank, index) → asuEnt t b i = asuEnt u b i) ∧ t.mem = u.mem) ∧
    (∀ bank index, StoreTurn s core (F.ASU_WENTRY_GO core).addr u → bank < 64 → index < bankEntries u bank → u.asu.move = none →
      ∃ t, exec (.asuEntryRead core bank index) s = .next t ∧ t.asu = u.asu ∧ getF t (F.ASU_WSTATUS_DONE core) = 1 ∧
        getF t (F.ASU_WENTRY_VALID core) = b2n (asuEnt u bank index).valid ∧ getF t (F.ASU_WPRIO_PRIO core) = (asuEnt u bank index).prio % 2 ^ 16 ∧
        getF t (F.ASU_WDATA_ADATA core) = (asuEnt u bank index).adata % 2 ^ 32) ∧
    (∀ dir bank last first v, StoreTurn s core F.ASU_MOVE_CTRL_GO.addr u → u.asu.move = none → bank < 64 → last < 2048 → first ≤ last →
      (dir % 2 = 1 → 0 < first ∧ first ≤ bankEntries u bank) → (dir % 2 = 0 → last + 1 < bankEntries u bank) →
      v = setF (setF (setF (setF u F.ASU_MOVE_CTRL_DIR dir) F.ASU_MOVE_CTRL_BANK bank) F.ASU_MOVE_CTRL_LAST last) F.ASU_MOVE_CTRL_FIRST first →
      exec (.asuMove core dir bank last first) s = .next (touchBank (setF (setF { v with asu := { v.asu with move := some ⟨bank, first, last, dir % 2 == 1, 0⟩ } }
        F.ASU_MOVE_STATUS_BUSY 1) F.ASU_STATUS_IDLE 0) bank)) ∧
    (∀ m v w, coreLive s = true → s.asu.move = some m → v = moveCopy (moveCount m) s →
      w = putEnt v { asuEnt v m.bank (if m.down then m.last else m.first) with valid := false } →
      exec .asuMoveEnd s = .next (touchBank (countF (setF (setF (setF { w with asu := { w.asu with move := none } } F.ASU_STATUS_IDLE
        (b2n (w.asu.ports.all fun q => q.running.isNone))) F.ASU_MOVE_STATUS_BUSY 0) F.ASU_MOVE_STATUS_DONE 1) F.ASU_CNT_MOVE_COUNT 1) m.bank)) ∧
    (∀ bank value v, StoreTurn s core (F.ASU_BANK_CFG_ENABLE bank).addr u → bits value 2 29 = 0 → value % 4 ≠ 3 → (∀ m, u.asu.move = some m → m.bank ≠ bank) →
      v = setF (setF u (F.ASU_BANK_CFG_ENABLE bank) (value / 2 ^ 31)) (F.ASU_BANK_CFG_WIDTH bank) value → exec (.asuBankCfgWrite core bank value) s =
      .next (if getF u (F.ASU_BANK_CFG_WIDTH bank) = value % 4 then v
        else touchBank { v with asu := { v.asu with ents := v.asu.ents.map fun e => if e.bank == bank then { e with valid := false } else e } } bank)) ∧
    (∀ queue t p, coreLive s = true → openEntry s queue 0x50 = some t → allZero (slice t.bytes 17 47) = true → flag s F.ASU_CTRL_ENABLE = true →
      fld t.bytes 16 1 < 3 → p = asuSearch s (leNat (slice t.bytes 64 64)) (fld t.bytes 8 8) (fld t.bytes 16 1) → exec (.asuSearch queue) s =
      .next (entryEnd p.1 t (le 4 p.2.adata ++ le 2 p.2.prio ++ le 1 p.2.bank ++ le 1 (b2n p.2.hit + 2 * b2n p.2.multi) ++ le 2 p.2.index ++ zeros 2) false))

/-- What the cipher and digest engines do. R474, R475, R476, R479, R490, R491, R492, Tables 15-7 to 15-9. -/
def Obligations.CipherEntriesComplete : Prop :=
  ∀ (s : State) (queue : Nat) (t : Taken) (cipEnds : State → Nat → Bytes → State) (digEnds : State → Nat → State), coreLive s = true →
    (∀ v c tail, cipEnds v c tail = setF (entryResult v t (slice t.bytes 56 8 ++ le 1 c ++ fit tail 3) (c != 0)) F.CIP_STATUS_IDLE 0) →
    (∀ v c, digEnds v c = setF (entryResult v t (slice t.bytes 32 8 ++ le 1 c ++ zeros 3) (c != 0)) F.DIG_STATUS_IDLE 0) →
    (∀ e k v w r aad p, flag s F.CIP_CTRL_ENABLE = true → e = gcmEntry t.bytes → fld t.bytes 28 4 = 0 → gcmKey s e = (0, k) →
      cipRead s queue e.aad e.aadLen = (v, some aad) →
      (openEntry s queue 0x20 = some t → gcmOverlap e (e.dst + e.len) = false → cipRead v queue e.src e.len = (w, some p) →
        cipWrite (countF w F.CIP_CNT_GCM_BYTES_COUNT (e.len + e.aadLen)) queue e.dst ((gcmEnc k e.iv aad p).1 ++ (gcmEnc k e.iv aad p).2) = (r, true) →
        exec (.cipGcmEnc queue) s = .next (cipEnds r 0 [])) ∧
      (openEntry s queue 0x21 = some t → gcmOverlap e (e.src + e.len) = false → cipRead v queue e.src (e.len + 16) = (w, some p) →
        cipWrite (countF w F.CIP_CNT_GCM_BYTES_COUNT (e.len + e.aadLen)) queue e.dst ((gcmDec k e.iv aad (p.take e.len) (p.drop e.len)).getD (zeros e.len)) = (r, true) →
        exec (.cipGcmDec queue) s = .next (cipEnds r (if (gcmDec k e.iv aad (p.take e.len) (p.drop e.len)).isSome then 0 else 1) []))) ∧
    (∀ key iv aad p, gcmDec key iv aad (gcmEnc key iv aad p).1 (gcmEnc key iv aad p).2 = some p) ∧
    (∀ x unit v w p, flag s F.CIP_CTRL_ENABLE = true → fld t.bytes 11 1 = 0 → fld t.bytes 48 8 = 0 → slotOf s (fld t.bytes 8 2) = some x → fld t.bytes 8 2 = 1 →
      x.kind = 2 → fld t.bytes 10 1 ≤ 1 → unit = (if fld t.bytes 10 1 = 0 then 4096 else 16384) → fld t.bytes 12 4 ≠ 0 → fld t.bytes 12 4 % unit = 0 →
      fld t.bytes 12 4 ≤ 262144 → (fld t.bytes 32 8 = fld t.bytes 40 8 ∨ overlaps (fld t.bytes 32 8) (fld t.bytes 12 4) (fld t.bytes 40 8) (fld t.bytes 12 4) = false) →
      cipRead s queue (fld t.bytes 32 8) (fld t.bytes 12 4) = (v, some p) → ∀ enc, cipWrite (countF v F.CIP_CNT_XTS_BYTES_COUNT (fld t.bytes 12 4)) queue (fld t.bytes 40 8)
        (xtsRun enc x.key unit (fld t.bytes 12 4 / unit) (fld t.bytes 16 16) p) = (w, true) →
      (enc = true → openEntry s queue 0x22 = some t → exec (.cipXtsEnc queue) s = .next (cipEnds w 0 [])) ∧
      (enc = false → openEntry s queue 0x23 = some t → exec (.cipXtsDec queue) s = .next (cipEnds w 0 []))) ∧
    (flag s F.CIP_CTRL_ENABLE = true → keyopReserved t.bytes = false →
      (∀ kek v blob r, openEntry s queue 0x24 = some t → slotOpen (fld t.bytes 8 2) = true → (fld t.bytes 10 1 = 1 ∨ fld t.bytes 10 1 = 3) →
        wslotOk s (fld t.bytes 10 1) (fld t.bytes 12 2) = true → fld t.bytes 32 8 % 64 = 0 → wrapperKey s (fld t.bytes 10 1) (fld t.bytes 12 2) = some kek →
        cipRead s queue (fld t.bytes 32 8) 64 = (v, some blob) → blobRecord kek blob = some r → recordOk r = true →
        exec (.cipUnwrap queue) s = .next (cipEnds (setSlot v (recordSlot (fld t.bytes 8 2) r)) 0 (slice r 4 1 ++ slice r 6 2))) ∧
      (openEntry s queue 0x25 = some t → slotOpen (fld t.bytes 8 2) = true → fld t.bytes 10 1 = 0 → fld t.bytes 12 2 = 0 → fld t.bytes 16 4 = 1 → fld t.bytes 32 8 % 64 = 0 →
        flag s F.CIP_STATUS_RNG_FAIL = false → exec (.cipGenkey queue) s = .next (cipEnds (setSlot (freshBytes s 32).2 ⟨fld t.bytes 8 2, 1, true, fld t.bytes 14 2, 1, (freshBytes s 32).1⟩) 0 [])) ∧
      (∀ x kek v, openEntry s queue 0x26 = some t → slotOf s (fld t.bytes 8 2) = some x → slotOpen x.slot = true → x.kind = 1 → x.exportable = true →
        1 ≤ fld t.bytes 10 1 → fld t.bytes 10 1 ≤ 3 → wslotOk s (fld t.bytes 10 1) (fld t.bytes 12 2) = true → fld t.bytes 32 8 % 64 = 0 →
        wrapperKey s (fld t.bytes 10 1) (fld t.bytes 12 2) = some kek →
        cipWrite s queue (fld t.bytes 32 8) (keyBlob kek (fld t.bytes 10 1) (keyRecord x)) = (v, true) → exec (.cipExport queue) s = .next (cipEnds v 0 [])) ∧
      (openEntry s queue 0x27 = some t → fld t.bytes 8 2 < 4096 → fld t.bytes 10 1 = 0 → fld t.bytes 12 2 = 0 → fld t.bytes 32 8 % 64 = 0 →
        exec (.cipClear queue) s = .next (cipEnds (clearSlot s (fld t.bytes 8 2)) 0 []))) ∧
    (doneEntry s queue 0x20 0x27 = some t → ∃ u, exec (.cipEntryEnd queue) s = .next u ∧ u.wq = (endDone s t).wq ∧ u.mem = s.mem ∧
      getF u F.CIP_STATUS_IDLE = b2n (!(blockBusy (endDone s t) 2))) ∧
    (∀ c sha x v w m, flag s F.DIG_CTRL_ENABLE = true → openEntry s queue 0x30 = some t → c = fld t.bytes 8 1 → c < 64 → fld t.bytes 9 1 < 8 → fld t.bytes 10 2 = 0 →
      allZero (slice t.bytes 40 24) = true → digShared s queue c = false → sha = bitAt (fld t.bytes 9 1) 2 →
      (if bitAt (fld t.bytes 9 1) 0 then some ⟨c, sha, []⟩ else ctxOf s c) = some x → x.sha384 = sha →
      fabRead s 9 (fld t.bytes 16 8) (fld t.bytes 12 4) = (v, some m) → w = countF v F.DIG_CNT_BYTES_COUNT (fld t.bytes 12 4) →
      (bitAt (fld t.bytes 9 1) 1 = false → exec (.digUpdate queue) s = .next (digEnds (putCtx w c (some { x with msg := x.msg ++ m })) 0)) ∧
      (∀ y, bitAt (fld t.bytes 9 1) 1 = true → overlaps (fld t.bytes 16 8) (fld t.bytes 12 4) (fld t.bytes 24 8) (if sha then 48 else 32) = false →
        fabWrite w 9 (fld t.bytes 24 8) (if sha then sha384 (x.msg ++ m) else sha256 (x.msg ++ m)) = (y, true) →
        exec (.digUpdate queue) s = .next (digEnds (putCtx (countF y F.DIG_CNT_DIGESTS_COUNT 1) c none) 0))) ∧
    (doneEntry s queue 0x30 0x30 = some t → exec (.digEntryEnd queue) s = .next (setF (endDone s t) F.DIG_STATUS_IDLE (b2n !(blockBusy (endDone s t) 3))))

/-- What links, flow control, verification and the network clock do. R497, R498, R501, R502, R509, R510, R512. -/
def Obligations.PortsAndClockComplete : Prop :=
  ∀ (s u : State) (core port : Nat),
    (∀ run, StoreTurn s core F.MACA_PTP_CTRL_LOAD.addr u → exec (.ptpLoad core run) s =
      .next (setF (ptpSet u (getF u F.MACA_PTP_SET_SEC_SECONDS * sec + getF u F.MACA_PTP_SET_NS_NS)) F.MACA_PTP_CTRL_RUN run)) ∧
    (∀ run, StoreTurn s core F.MACA_PTP_CTRL_STEP.addr u → exec (.ptpStep core run) s =
      .next (setF (ptpSet u (ofSigned ((ptpNow u : Int) + toSigned (getF u F.MACA_PTP_STEP_NS) 32) 80)) F.MACA_PTP_CTRL_RUN run)) ∧
    (∀ width, coreOn s core = true → u = coreActs s core → domainOn u .lane0 = true → exec (.ptpSecRead core width) s =
      .next (emit (setF u F.MACA_PTP_NS_NS (ptpNow u % sec)) (.readValue F.MACA_PTP_SEC_SECONDS.addr
        (if width = 8 then ptpNow u / sec % 2 ^ 48 else ptpNow u / sec % 2 ^ 48 % 2 ^ 32)))) ∧
    (port < 2 → macOn s port = true → macLink s port = false →
      u = showRate (linkChange s port 1) port →
      (flag s (mp port F.MACA_PREEMPT_ENABLE) = false → exec (.portLinkUp port) s = .next u) ∧
      (flag s (mp port F.MACA_PREEMPT_ENABLE) = true → exec (.portLinkUp port) s = .next (sendVerify (setVerify u port 1) port 1))) ∧
    (domainOn s .lanes = true → flag s F.PLK_CTRL_ENABLE = true → flag s F.PLK_STATUS_LINK = false → exec (.portLinkUp 2) s = .next (linkChange s 2 1)) ∧
    (port < 2 → macLink s port = true → ∃ t, exec (.portLinkDown port) s = .next t ∧ macLink t port = false ∧ getF t (mp port F.MACA_STATUS_LINK_CHG) = 1 ∧
      getF t (mp port F.MACA_STATUS_VERIFY) = 0 ∧ getF t (mp port F.MACA_STATUS_PREEMPT) = 0 ∧
      (macOf t port).sending = (macOf s port).sending.map fun x => { x with drop := true }) ∧
    (flag s F.PLK_STATUS_LINK = true → exec (.portLinkDown 2) s = .next (countF (linkChange s 2 0) F.PLK_CNT_LINK_DOWN_COUNT 1)) ∧
    (port < 2 → getF s (mp port F.MACA_STATUS_VERIFY) = 1 → u = reach s (macOf s port).verifyAt →
      ((macOf s port).verifySent < 3 → exec (.verifyTimer port) s = .next (sendVerify u port ((macOf s port).verifySent + 1))) ∧
      (3 ≤ (macOf s port).verifySent → exec (.verifyTimer port) s = .next (setVerify u port 3)) ∧
      (macOn s port = true → exec (.respondFrame port) s = .next (setF (setVerify s port 2) (mp port F.MACA_STATUS_PREEMPT) 1))) ∧
    (port < 2 → macOn s port = true → macLink s port = true →
      (flag s (mp port F.MACA_PREEMPT_ENABLE) = true → exec (.verifyFrame port) s = .next (emit s (.merge port 1))) ∧
      (∀ quanta, quanta ≠ 0 → flag s (mp port F.MACA_FC_RX_PAUSE) = true → ∃ t, exec (.pauseFrame port quanta) s = .next t ∧
        ∀ q < 8, ((macOf t port).paused.find? fun e => e.1 == q) = some (q, s.now + ceilDiv (quanta * 512) (macRate s port))) ∧
      (∀ priority quanta, priority < 8 → u = countF (countRx s port 64) (mp port F.MACA_CNT_PAUSE_RX_COUNT) 1 →
        exec (.pfcFrame port priority quanta) s = .next (if bitAt (getF s (mp port F.MACA_FC_RX_PFC)) priority then pauseQueue u port priority quanta else u))) ∧
    (∀ queue e, ((macOf s port).paused.find? fun e => e.1 == queue) = some e → u = reach s e.2 → exec (.pauseExpiry port queue) s =
      .next (putMac u { macOf u port with paused := (macOf u port).paused.filter fun e => e.1 != queue })) ∧
    (StoreTurn s core (mp port F.MACA_TSQ_POP_POP).addr u → port < 2 →
      exec (.tsqPop core port) s = .next (tsqShow (putMac u { macOf u port with tsq := (macOf u port).tsq.drop 1 }) port))

/-- What the frames of the data ports and the pair link do. R499, R500, R503, R504, R505, R506, R507, R512, Table 16-4. -/
def Obligations.FramesComplete : Prop :=
  ∀ (s : State) (p : Nat),
    (∀ frame fcs, p < 2 → macOn s p = true → macLink s p = true →
      (fcs = 0 → exec (.frameReceived p fcs frame) s = .next (countF s (mp p F.MACA_CNT_RX_FCS_COUNT) 1)) ∧
      (fcs = 2 → exec (.frameReceived p fcs frame) s = .next (countF (countF s (mp p F.MACA_CNT_FEC_UNCORR_COUNT) 1) (mp p F.MACA_CNT_RX_FCS_COUNT) 1)) ∧
      (∀ u v h t, fcs = 1 ∨ fcs = 3 → u = countRx (if fcs = 3 then countF s (mp p F.MACA_CNT_FEC_CORR_COUNT) 1 else s) p (frame.length + 4) → 64 ≤ frame.length + 4 → frame.length + 4 ≤ getF u (mp p F.MACA_MAXFRAME_BYTES) →
        (beNat (slice frame 12 2) = 0x8100 → flag u (mp p F.MACA_VLAN_TAG) = true ∧
          (beNat (slice frame 14 2) % 4096 = 0 ∨ beNat (slice frame 14 2) % 4096 = getF u (mp p F.MACA_VLAN_VID))) →
        (beNat (slice frame 12 2) = 0x8808 → beNat (slice frame 14 2) ≠ 1 ∧ beNat (slice frame 14 2) ≠ 0x0101) → (etherType frame).1 ≠ 0x88B5 →
        macAdmits u p frame = true → (isRoce frame = true → leNat (slice frame 0 6) ≠ getF u (mp p F.MACA_ADDR_ADDR)) →
        asuUse u (3 + p) (fit frame 64) 2 = (v, h) →
        (h.hit = true → h.adata < 8 → StoreTakes v p h.adata frame h.adata true t → exec (.frameReceived p fcs frame) s = .next t) ∧
        (h.hit = true → 8 ≤ h.adata → h.adata < 16 → exec (.frameReceived p fcs frame) s = .next (countF v (mp p F.MACA_CNT_RX_FILTERED_COUNT) 1)) ∧
        (h.hit = false → flag v (mp p F.MACA_FILTER_DROP_MISS) = false →
          StoreTakes v p (getF v (mp p F.MACA_FILTER_DEFAULT)) frame 0 false t → exec (.frameReceived p fcs frame) s = .next t))) ∧
    (∀ core r index u t, StoreTurn s core (mp p (F.MACA_RXR_PI_INDEX r)).addr u → p < 2 →
      idxSub index (getF u (mp p (F.MACA_RXR_CI_INDEX r))) ≤ 2 ^ getF u (mp p (F.MACA_RXR_CFG_LOG2S r)) →
      RingPlaces (setF u (mp p (F.MACA_RXR_PI_INDEX r)) index) p r t → exec (.rxrPiWrite core p r index) s = .next t) ∧
    (∀ core t index u slots, StoreTurn s core (mp p (F.MACA_TXR_PI_INDEX t)).addr u → p < 2 →
      idxSub index (getF u (mp p (F.MACA_TXR_CI_INDEX t))) ≤ 2 ^ getF u (mp p (F.MACA_TXR_CFG_LOG2S t)) →
      slots = ((List.range (min (2 ^ getF u (mp p (F.MACA_TXR_CFG_LOG2S t))) (idxSub index (getF u (mp p (F.MACA_TXR_PI_INDEX t)))))).map fun k =>
        (slotAddr u (mp p (F.MACA_TXR_BASE_ADDR t)) (mp p (F.MACA_TXR_CFG_LOG2S t)) (getF u (mp p (F.MACA_TXR_PI_INDEX t)) + k), 32)) →
      (unfencedHit u slots = false → exec (.txrPiWrite core p t index) s = .next (setF u (mp p (F.MACA_TXR_PI_INDEX t)) index)) ∧
      (unfencedHit u slots = true → exec (.txrPiWrite core p t index) s = .fault (.undefined46 2))) ∧
    (∀ r f t, p < 2 → ((macOf s p).store.find? fun f => f.ring == r) = some f →
      RingPlaces (countF (putMac (reach s (f.arrived + getF s (mp p F.MACA_RX_WAIT_MICROS) * us)) { macOf s p with store := (macOf s p).store.erase f })
        (mp p F.MACA_CNT_RX_NOBUF_COUNT) 1) p r t → exec (.rxWaitTimeout p r) s = .next t) ∧
    (∀ engine len q, p < 2 → macOn s p = true → (macOf s p).sending = none → (macOf s p).cutFrame = none → bestQueue s p engine (List.range 8) = some q →
      (bitAt engine q = true → ringHead s p q = false → exec (.txFrameStart p engine len) s = .next (putMac s { macOf s p with
        sending := some ⟨q, false, zeros len, 0, ptpStamp s (getF s (mp p F.MACA_PTP_TXLAT_NS)), !(macLink s p), 0⟩
        lastEngine := q :: (macOf s p).lastEngine.filter (· != q) })) ∧
      (∀ v st d, bitAt engine q = false → readTx s p q (mp p (F.MACA_TXR_BASE_ADDR q)) (mp p (F.MACA_TXR_CFG_LOG2S q)) (mp p (F.MACA_TXR_CI_INDEX q))
          (getF s (mp p F.MACA_MAXFRAME_BYTES) - 4) = (v, st, d) → exec (.txFrameStart p engine len) s = .next (putMac v { macOf v p with
        sending := some ⟨q, true, d, 0, ptpStamp s (getF s (mp p F.MACA_PTP_TXLAT_NS)), !(macLink s p), st⟩
        lastEngine := (macOf v p).lastEngine.filter (· != q) }))) ∧
    (∀ sent engine t b q, p < 2 → (macOf s p).sending = some t → flag s (mp p F.MACA_STATUS_PREEMPT) = true → isExpress s p t.queue = false → t.tstat = 0 →
      t.drop = false → bestQueue s p engine ((List.range 8).filter (isExpress s p)) = some q → cutPoint t sent = some b → exec (.preemptionCut p sent engine) s =
      .next (emit (countF (putMac s { macOf s p with sending := none, cutFrame := some { t with fragFrom := b } }) (mp p F.MACA_CNT_PREEMPT_COUNT) 1) (.cut p b))) ∧
    (∀ t v, p < 2 → (macOf s p).sending = some t → t.crew = false → t.tstat = 0 → t.drop = false → v = putMac s { macOf s p with sending := none } →
      exec (.txFrameEnd p) s = .next (countF (countF v (mp p F.MACA_CNT_TX_FRAMES_COUNT) 1) (mp p F.MACA_CNT_TX_BYTES_COUNT) (t.data.length + 4))) ∧
    (∀ t, p < 2 → (macOf s p).sending = some t → t.crew = true → exec (.txFrameEnd p) s = .next (macTxEnd s p)) ∧
    (∀ fcs frame u, domainOn s .lanes = true → flag s F.PLK_CTRL_ENABLE = true → flag s F.PLK_STATUS_LINK = true → 64 ≤ frame.length + 4 → frame.length + 4 ≤ 9216 →
      (fcs = 1 ∨ fcs = 3) → u = (if fcs = 3 then countF s F.PLK_CNT_FEC_CORR_COUNT 1 else s) → beNat (slice frame 12 2) = 0x88B5 →
      (leNat (slice frame 0 6) = getF u F.PLK_ADDR_ADDR ∨ leNat (slice frame 0 6) = 2 ^ 48 - 1) → exec (.pairLinkFrame fcs frame) s =
      (let v := countF (countF u F.PLK_CNT_RX_FRAMES_COUNT 1) F.PLK_CNT_RX_BYTES_COUNT (frame.length + 4)
       .next { v with pj := { v.pj with rx := v.pj.rx ++ [frame] } }))

/-- What the service port does with frames. R517, R518, R519, R524, R528, Table 17-2. -/
def Obligations.ServicePortCompletes : Prop :=
  ∀ (s u t : State) (f : Bytes), domainOn s .svc = true → flag s F.SVC_CTRL_ENABLE = true →
    (exec (.svcFrameReceived 0 f) s = .next (countF s F.SVC_CNT_RX_FCS_COUNT 1)) ∧
    (64 ≤ f.length + 4 → f.length + 4 ≤ 1518 → 0x600 ≤ beNat (slice f 12 2) → beNat (slice f 12 2) ≠ 0x8100 →
      u = patternWake (countF s F.SVC_CNT_RX_FRAMES_COUNT 1) f (patternHits (countF s F.SVC_CNT_RX_FRAMES_COUNT 1) (f ++ le 4 (crc32 f))) →
      (beNat (slice f 12 2) = 0x88B6 → bitAt (fld f 19 1) 0 = false → svcMalformed f = false →
        (fld f 22 8 = Config.hull ∧ fld f 22 8 ≠ 2 ^ 64 - 1 ∨ fld f 22 8 = 2 ^ 64 - 1 ∧ (svcOp f = 1 ∨ svcOp f = 2)) →
        (1 ≤ svcOp f → svcOp f ≤ 4 → exec (.svcFrameReceived 1 f) s = .next (if flag u F.SVC_CTRL_RESPOND then { u with svc := { u.svc with responder := u.svc.responder ++ [f] } } else u)) ∧
        (svcCrew (svcOp f) = true → fld f 22 8 = Config.hull → fld f 22 8 ≠ 2 ^ 64 - 1 →
          (flag u F.SVC_CTRL_CREW = false → flag u F.SVC_CTRL_RESPOND = true → exec (.svcFrameReceived 1 f) s =
            .next (svcReply u f true ST.stateConflict (svcDevState u + powerCode u * 2 ^ 24) (if svcDevState u = 7 then 0 else getF u F.SVC_WAKE_HINT_MS) [])) ∧
          (flag u F.SVC_CTRL_CREW = true → loaderServes u = false → StoreTakes u 2 0 f 0 false t → exec (.svcFrameReceived 1 f) s = .next t) ∧
          (flag u F.SVC_CTRL_CREW = true → loaderServes u = true → exec (.svcFrameReceived 1 f) s =
            .next { u with svc := { u.svc with requests := u.svc.requests ++ [f] } })) ∧
        (svcResponder (svcOp f) = false → svcCrew (svcOp f) = false → fld f 22 8 = Config.hull → fld f 22 8 ≠ 2 ^ 64 - 1 →
          exec (.svcFrameReceived 1 f) s = .next (if flag u F.SVC_CTRL_RESPOND then svcReply u f true ST.unknownOpcode 0 0 [] else u))) ∧
      (beNat (slice f 12 2) ≠ 0x88B6 → leNat (slice f 0 6) = getF u F.SVC_ADDR_ADDR ∨ leNat (slice f 0 6) = 2 ^ 48 - 1 →
        StoreTakes u 2 0 f 0 false t → exec (.svcFrameReceived 1 f) s = .next t)) ∧
    (∀ r rest, s.svc.sending = none → s.svc.replies = r :: rest → exec .svcFrameSend s =
      .next (setF { s with svc := { s.svc with replies := rest, sending := some ⟨r, false, 0, none, 0⟩ } } F.SVC_STATUS_TX_BUSY 1)) ∧
    (∀ v st d, s.svc.sending = none → s.svc.replies = [] → svcTxPosted s = true →
      readTx s 2 0 F.SVC_TXR_BASE_ADDR F.SVC_TXR_CFG_LOG2S F.SVC_TXR_CI_INDEX 1514 = (v, st, d) → exec .svcFrameSend s =
      .next (setF { v with svc := { v.svc with sending := some ⟨d, true, 0, none, st⟩ } } F.SVC_STATUS_TX_BUSY 1)) ∧
    (∀ t v, s.svc.sending = some t → t.backoff = none → t.tstat = 0 → v = countF s F.SVC_CNT_COLLISIONS_COUNT 1 →
      (exec (.svcCollision 1) s = .next (svcTxDone (countF v F.SVC_CNT_LATE_COLL_COUNT 1) t 4)) ∧
      (15 ≤ t.collisions → exec (.svcCollision 0) s = .next (svcTxDone (countF v F.SVC_CNT_TX_EXCESS_COUNT 1) t 4)) ∧
      (t.collisions < 15 → exec (.svcCollision 0) s = .next { (fresh v).2 with svc := { (fresh v).2.svc with
        sending := some { t with collisions := t.collisions + 1, backoff := some (v.now + (fresh v).1 % 2 ^ min (t.collisions + 1) 10 * 51200) } } }) ∧
      exec (.txFrameEnd 2) s = .next (emit (svcTxDone (countF s F.SVC_CNT_TX_FRAMES_COUNT 1) t 0) (.svc t.data))) ∧
    (∀ t at_, s.svc.sending = some t → t.backoff = some at_ → exec .svcBackoffExpiry s =
      .next { reach s at_ with svc := { (reach s at_).svc with sending := some { t with backoff := none } } })

/-- What the service commands do. R523, R524, R525, R526, R566, Tables 17-3 and 17-4. -/
def Obligations.ServiceCommandsComplete : Prop :=
  ∀ (s u : State) (f : Bytes),
    (ResponderTurn s 1 f u → exec .identify s = .next (svcReply u f true ST.ok 0 0 (identifyBody u))) ∧
    (ResponderTurn s 2 f u → exec .wake s = .next (svcReply u f true ST.ok 0 0 [])) ∧
    (ResponderTurn s 3 f u → 1 ≤ svcArg1 f → svcArg1 f ≤ 16 → exec .logRead s =
      .next (if (logRead u (svcArg0 f) (svcArg1 f)).isEmpty then svcReply u f true ST.notFound (getF u F.LOG_LOW_SEQ) 0 []
        else svcReply u f true ST.ok (getF u F.LOG_LOW_SEQ) (logRead u (svcArg0 f) (svcArg1 f)).length ((logRead u (svcArg0 f) (svcArg1 f)).map recBytes).flatten)) ∧
    (ResponderTurn s 4 f u → svcArg0 f < 64 → svcArg1 f % 1024 = 0 → svcArg1 f < 65536 → exec .pentRead s =
      .next (if (u.pent.slots.any fun p => p.slot == svcArg0 f) then svcReply u f true ST.ok 0 0 (slice (pentBytes u (svcArg0 f)) (svcArg1 f) 1024)
        else svcReply u f true ST.notFound 0 0 [])) ∧
    (ServiceTurn s 0x10 f u → svcLen f = 145 → u.cox.dropped = false → exec .keySet s =
      .next (svcReply { u with cox := { u.cox with enclosure := some (keySetKey u (svcData f)) } } f false ST.ok 0 0 [])) ∧
    (∀ v cap, ServiceTurn s 0x11 f u → initWaiting s = none → cap = initCapsule u f → 56 ≤ svcLen f → adminBodyBad cap = false → svcArg0 f < 65536 →
      (u.kv.tenants ≠ [] → exec .tenantInit s = .next (svcReply u f false ST.exists 0 0 [])) ∧
      (∀ q, u.kv.tenants = [] → check9 u cap = (v, none) →
        q = routeChange { v with svc := { v.svc with requests := f :: v.svc.requests } } cap (svcArg0 f) 2 0 →
        exec .tenantInit s = .next { q.1 with svc := { q.1.svc with init := some q.2 } })) ∧
    (ServiceTurn s 0x12 f u → svcLen f = 32 → exec .escrowSet s = .next (svcReply (setEscrow u (xorBytes (svcData f)
      ((svcMask u (u.cox.enclosure.getD []) 0x12 (svcSeqOf (svcSigned f))).take 32))) f false ST.ok 0 0 [])) ∧
    (∀ n, ServiceTurn s 0x13 f u → svcArg0 f < 4096 → nsOf u (svcArg0 f) = some n → exec .escrowRead s =
      .next (if allZero n.escrow then svcReply u f false ST.notFound 0 0 [] else svcReply u f false ST.ok 0 0 (fit n.escrow 64))) ∧
    (ServiceTurn s 0x20 f u → pieceStatus f imageLimit = ST.ok → exec .imageData s = .next (svcReply
      { u with svc := { u.svc with image := gatherPiece u.svc.image (svcArg0 f) (svcData f) } } f false ST.ok 0 0 [])) ∧
    (∀ b, ServiceTurn s 0x21 f u → svcArg1 f < 2 ^ 32 → imageWhole u f = some b → installCheck u b.length (crc32c b) b false ≠ 4 →
      exec .imageEnd s = .next (svcReply (showCox (installImage u b)) f false ST.ok 0 0 [])) ∧
    (ServiceTurn s 0x28 f u → pieceStatus f rigLimit = ST.ok → exec .rigData s = .next (svcReply
      { u with svc := { u.svc with rig := gatherPiece u.svc.rig (svcArg0 f) (svcData f) } } f false ST.ok 0 0 [])) ∧
    (∀ c v, ServiceTurn s 0x29 f u → flag s F.RIG_STATUS_BUSY = false → flag s F.RIG_STATUS_SWAPPING = false → svcArg0 f ≤ rigLimit →
      gathered u.svc.rig (svcArg0 f) = some c → LoaderEnds (setF (crewStore u (getF u F.RIG_SRC_ADDR_ADDR) c) F.RIG_SRC_LEN_BYTES c.length) v →
      exec .rigStage s = .next (if flag v F.RIG_STATUS_ERROR then svcReply v f false ST.integrity (getF v F.RIG_STATUS_ERRCODE) 0 []
        else svcReply v f false ST.ok (getF v F.RIG_STAGED_EPOCH_EPOCH) 0 [])) ∧
    (ServiceTurn s 0x30 f u → exec .scanFull s = .next (svcReply { u with pwr := { u.pwr with fullScan := true } } f false ST.ok 0 0 [])) ∧
    (∀ v, ServiceTurn s 0x31 f u → (u.pwr.dev = 4 ∨ u.pwr.dev = 5) → v = declareSelf u → exec .serviceEnter s =
      .next (svcReply (sendAllStatus { v with pwr := { v.pwr with dev := 6 } }) f false ST.ok 0 0 [])) ∧
    (ServiceTurn s 0x32 f u → u.pwr.dev = 6 → u.media.readOnly = none → exec .serviceLeave s =
      .next (svcReply (sendAllStatus (u.groups.foldl (fun s g => ownSeatLost s g.id) { u with pwr := { u.pwr with dev := 4 } })) f false ST.ok 0 0 [])) ∧
    (∀ rest v, loaderServes s = true → domainOn s .svc = true → s.svc.requests = f :: rest → v = { s with svc := { s.svc with requests := rest } } →
      (svcOp f ≠ 0x20 → svcOp f ≠ 0x21 → exec .loaderService s = .next (svcReply v f false ST.stateConflict 0 0 [])) ∧
      (svcAccept v f = some u → svcOp f = 0x20 → exec .loaderService s = .next (svcReply (takeImage u f).1 f false (takeImage u f).2 0 0 [])) ∧
      (∀ b w, svcAccept v f = some u → svcOp f = 0x21 → imageWhole u f = some b → w = svcReply (installImage u b) f false ST.ok 0 0 [] →
        exec .loaderService s = .next (deviceReset (emitAll w (w.svc.replies.map Out.svc)) 4)))

/-- What starts, resets and moves between power states do. R530, R531, R532, R534, R543, R545, R547, R555, R600, R611, Tables 18-1 to 18-5. -/
def Obligations.StartsAndResetsComplete : Prop :=
  ∀ (s : State),
    (s.pwr.start = 1 → exec .suppliesValid s = .next (domainUp { s with
      pins := { s.pins with suppliesValid := true, pfailN := true }
      pwr := { s.pwr with start := 2 } } .svc)) ∧
    exec .powerOnReset s = .next (powerOnReset s) ∧
    (∀ cause, 2 ≤ cause → cause ≤ 6 → s.pj.dumping = none → exec (.deviceReset cause) s = .next (deviceReset s cause)) ∧
    (∀ fail v0, 2 ≤ s.pwr.start → s.pwr.resetHold = none → s.pwr.dev = 1 →
      (domainOn s .cox = false → exec (.domainPowerUp .cox fail v0) s = .next { domainUp s .cox with pwr := { (domainUp s .cox).pwr with start := 3 } }) ∧
      (s.cox.verified = true → domainOn s .lane0 = false → exec (.domainPowerUp .lane0 fail v0) s = .next (domainUp s .lane0)) ∧
      (∀ d u, s.cox.verified = true → domainOn s d = false →
        (d = .core ∧ u = { domainUp s .core with pwr := { (domainUp s .core).pwr with mtimeAt := s.now } } ∨ d = .dram ∧ u = dramTrain (domainUp s .dram) fail ∨
          d = .flash ∧ u = { domainUp s .flash with pins := { s.pins with flashPwrEn := true } }) →
        ((domainOn u .core && domainOn u .dram && domainOn u .flash) = false → exec (.domainPowerUp d fail v0) s = .next u) ∧
        (∀ x, (domainOn u .core && domainOn u .dram && domainOn u .flash) = true → u.cox.verified = true → u.cox.releasedAt = none →
          x = loadBoard (takeBoard (loadService (loadKeys (loadCrew u)))) → thresholdsOk x = true → exec (.domainPowerUp d fail v0) s =
          .next (released (showCox { x with cox := { x.cox with releasedAt := some x.now }, pwr := { x.pwr with start := 5 } }) v0)))) ∧
    (∀ targets v0 v1 fail u w a, s.pwr.waking = true → s.pwr.start = 0 → w = domainUp (domainUp s .svc) .cox → u = { w with pwr := { w.pwr with start := 3, dev := 1 } } →
      u.cox.verified = false → u.cox.phase = 0 →
      (bootCheck (drawNonce u) ≠ 0 → exec (.startFromSleep targets v0 v1 fail) s =
        .next (showCox (bootHalted (logCox (drawNonce u) EV.bootFailed (bootCheck (drawNonce u)) 0 0)))) ∧
      (bootCheck (drawNonce u) = 0 →
        a = (let y := ([Domain.core, .dram, .flash, .lane0]).foldl domainUp (bootDone (drawNonce u))
           dramTrain { y with pwr := { y.pwr with mtimeAt := y.now }, pins := { y.pins with flashPwrEn := true } } fail) →
        (a.pwr.dev = 7 → exec (.startFromSleep targets v0 v1 fail) s = .next a) ∧
        (∀ x b c y, a.pwr.dev ≠ 7 → a.cox.verified = true → a.cox.releasedAt = none → (domainOn a .core && domainOn a .dram && domainOn a .flash) = true →
          x = loadBoard (takeBoard (loadService (loadKeys (loadCrew a)))) → thresholdsOk x = true →
          b = released (showCox { x with cox := { x.cox with releasedAt := some x.now }, pwr := { x.pwr with start := 5 } }) v0 →
          c = pjEnable (restoreVmap (restoreEnd (esTestEnd (channelsUp b targets) v1))) → c.pwr.dev = 1 →
          y = reloadKeys { c with pwr := { c.pwr with dev := 2 } } → startEpoch y = 0 →
          (y.media.ckpt = none → exec (.startFromSleep targets v0 v1 fail) s = .next y) ∧
          (∀ k gone base items z r, y.media.ckpt = some k → coreLive y = true → y.pwr.dev = 2 → y.pwr.fullScan = false →
            gone = (fun (f : FragItem) => f.kind == 0 && y.media.failed.contains (bsnLun f.bsn)) →
            base = (k.frags.map (fun f => if gone f then { f with kind := 4 } else f), k.notes, k.buckets) →
            items = (((scanStrides y).map strideItems).flatten.filter fun i => decide (scanSeq i ≥ k.seq)) →
            z = scanEnd (adoptScan y k.wear ((items.foldr insertItem []).foldl applyItem base)) → coreLive z = true → z.pwr.dev = 3 →
            r = (if z.pj.replay = 0 then replayScan z else z) →
            (r.pj.replay = 1 → ownJournaled r = true → hellosIn r = false → exec (.startFromSleep targets v0 v1 fail) s = .next r) ∧
            (∀ d e, r.pj.replay ≠ 1 ∨ ownJournaled r = false ∨ hellosIn r = true → d = (if r.pj.replay = 1 then replayLoad r else r) → resolvesNoSet d = false →
              e = settle (replayAgain d) → exec (.startFromSleep targets v0 v1 fail) s = .next (if replayLeft e then e else leaveReplay e)))))) ∧
    (∀ core v, StoreTurn s core F.PWR_CTRL_GO.addr v →
      (∀ u, u = setF v F.PWR_CTRL_TARGET 3 → flag v F.PWR_STATUS_BUSY = false → getF v F.PWR_STATUS_STATE ≠ 3 → getF v F.PWR_THERM_STEP < 3 →
        exec (.goRace core) s = .next (moveRace u)) ∧
      (∀ u, u = setF v F.PWR_CTRL_TARGET 2 → flag v F.PWR_STATUS_BUSY = false → getF v F.PWR_STATUS_STATE ≠ 2 → busyCores u = 0 →
        exec (.goPaddle core) s = .next (movePaddle u)) ∧
      (∀ u p, u = setF v F.PWR_CTRL_TARGET (pstateCode p) → (p = .dock ∨ p = .deepDock) → flag v F.PWR_STATUS_BUSY = false → getF v F.PWR_STATUS_STATE = 2 →
        getF v F.PJ_HEAD_OFFSET = getF v F.PJ_TAIL_OFFSET → dockReady u = true →
        (if p = .dock then exec (.goDock core) s else exec (.goDeepDock core) s) =
          .next (setF { u with
            pj := { u.pj with cleanMark := getF u F.PJ_DUMP_SEQ_SEQ }
            pwr := { u.pwr with move := some p, wakeLatched := none }
            pins := { u.pins with flashPwrEn := false } } F.PWR_STATUS_BUSY 1))) ∧
    (∀ p v w, s.pwr.move = some p → v = (offOrder.filter fun d => !((pstateDomains p).contains d)).foldl domainOff (saveRetention s) →
      w = setF (moved { v with pwr := { v.pwr with move := none, wdogAt := none, dev := 1, start := 0, waking := false } } p) F.PWR_STATUS_BUSY 0 →
      exec .powerDownEnd s = .next (match s.pwr.wakeLatched with
        | some l => wakeDevice w l.1 l.2
        | none => if s.pins.wakeN then w else wakeDevice w 1 0))

/-- What the always-on domain does. R239, R536, R538, R540, R541, R542, R549, R550, R575, R588, R611, Table 18-6. -/
def Obligations.AlwaysOnDomainCompletes : Prop :=
  ∀ (s u : State) (core : Nat),
    (∀ held, asleep s = true → s.pwr.move = none → s.pwr.waking = false → exec (.wakeNLow held) s =
      .next (wakeDevice { s with pins := { s.pins with wakeN := held != 1 } } 1 0)) ∧
    (∀ w, w = getF s F.AON_WAKE_AT_SECONDS → w ≠ 0 → u = reach s (s.pwr.opsecAt + (w - s.pwr.opsecBase) * sec) → s.pwr.move = none →
      (asleep s = false → exec .aonWakeAtReached s = .next (setF u F.AON_STATUS_DUE 1)) ∧
      (asleep s = true → s.pwr.waking = false → exec .aonWakeAtReached s = .next (wakeDevice u 3 0))) ∧
    (∀ v, coreLive s = true → v = tellDocked s → u = tellDocked (reach v (v.now + 10 * ms)) → exec .dockingNotice s =
      .next { reach u (u.now + 10 * ms) with pwr := { (reach u (u.now + 10 * ms)).pwr with notices := 2 } }) ∧
    (∀ hull w, coreLive s = true → (s.pwr.wakes.find? fun w => w.1 == hull) = some w → u = reach s w.2.2 → exec (.dockedWakeResend hull) s = .next { u with
      pwr := { u.pwr with wakes := u.pwr.wakes.map fun x => if x.1 = hull then (x.1, x.2.1, x.2.2 + 500 * ms) else x }
      svc := { u.svc with replies := u.svc.replies ++ [wakeFrame u hull] } }) ∧
    (∀ hull w v, coreLive s = true → (s.pwr.wakes.find? fun w => w.1 == hull) = some w → v = reach s (w.2.1 + 5 * sec) →
      u = v.groups.foldl (fun s g =>
        match hullSeat s g.id hull with
        | none => s
        | some t =>
          match g.info t with
          | some i => if i.dev = 8 then putGroup s (g.setInfo { i with dev := 0, heardAt := s.now }) else s
          | none => s) { v with pwr := { v.pwr with wakes := v.pwr.wakes.filter fun x => x.1 != hull } } →
      exec (.dockedWakeTimeout hull) s = .next { u with hte := { u.hte with requests := u.hte.requests.map fun r =>
        if (r.hull == hull && r.session == noSession && wakeOps.contains r.op) = true then { r with firstAt := u.now } else r } }) ∧
    (∀ seconds, StoreTurn s core F.AON_WDOG_ENABLE.addr u →
      (flag u F.AON_WDOG_ENABLE = true → exec (.watchdogArm core seconds) s = .next u) ∧
      (flag u F.AON_WDOG_ENABLE = false → 1 ≤ seconds → seconds ≤ 60 → ∃ t, exec (.watchdogArm core seconds) s = .next t ∧
        getF t F.AON_WDOG_SECONDS = seconds ∧ getF t F.AON_WDOG_ENABLE = 1 ∧ t.pwr.wdogAt = some (u.now + seconds * sec))) ∧
    (StoreTurn s core F.AON_WDOG_KICK.addr u → flag u F.AON_WDOG_ENABLE = true → exec (.watchdogKick core) s =
      .next { u with pwr := { u.pwr with wdogAt := some (u.now + getF u F.AON_WDOG_SECONDS * sec) } }) ∧
    (∀ t, s.pwr.wdogAt = some t → u = pentTrigger (reach s t) 2 0 → s.pj.dumping = none → u.pj.dumping = none →
      exec .watchdogExpiry s = .next (deviceReset (logEv u EV.watchdog (getF u F.AON_WDOG_SECONDS) 0 0) 3)) ∧
    exec .counterRecord s = .next (counterRecord (reach s (s.pwr.recordAt + 64 * sec))) ∧
    (s.pins.pfailN = true → u = { s with pins := { s.pins with pfailN := false } } →
      exec .pfailNFall s = .next (programBuffer (logEv (powerFalls u 0) EV.pfail (getF s F.PJ_CTRL_DUMP_ARM) 0 0))) ∧
    (s.pj.dumping.isSome = true → u = deviceReset (dumpFinish s) 2 → exec .vaultDumpEnd s =
      .next { u with pwr := { u.pwr with resetHold := none, start := if u.pins.pfailN then 2 else 1 } }) ∧
    (∀ tj, u = setF s F.PWR_THERM_TJ tj →
      (s.pwr.resetHold = some 5 → tjOf tj < 100 → exec (.thermalSample tj) s = .next { u with pwr := { u.pwr with resetHold := none } }) ∧
      (s.pwr.resetHold = none → 128 ≤ tjOf tj → s.pj.dumping = none → exec (.thermalSample tj) s = .next (thermalShutdown u (tj % 512))) ∧
      (s.pwr.resetHold = none → tjOf tj < 128 → getF u F.PWR_THERM_STEP < stepReached u (tjOf tj) →
        exec (.thermalSample tj) s = .next (stepEnter u (stepReached u (tjOf tj)) (tj % 512))) ∧
      (s.pwr.resetHold = none → tjOf tj < 128 → stepReached u (tjOf tj) ≤ getF u F.PWR_THERM_STEP → exec (.thermalSample tj) s =
        .next { u with pwr := { u.pwr with coolSince := coolFrom u (getF u F.PWR_THERM_STEP) (tjOf tj) } })) ∧
    (∀ at_, s.pwr.coolSince = some at_ → u = stepChange (reach s (at_ + sec)) (getF s F.PWR_THERM_STEP - 1) (getF s F.PWR_THERM_TJ) 0 →
      exec .thermalStepLeave s = .next { u with pwr := { u.pwr with
        coolSince := coolFrom { u with pwr := { u.pwr with coolSince := none } } (getF s F.PWR_THERM_STEP - 1) (tjOf (getF s F.PWR_THERM_TJ)) } })

/-- What Cox does with the requests of its mailbox. R557, R558, R562, R563, R564, R565, R567, R568, R570, R584, Table 19-2. -/
def Obligations.CoxCommandsComplete : Prop :=
  ∀ (s u : State) (c : Nat) (p : Bytes),
    (∀ core, StoreTurn s core (F.COX_MBc_CTRL_GO c).addr u → c < 4 → flag u (F.COX_MBc_STATUS_BUSY c) = false → exec (.coxMailboxGo core c) s =
      .next (if u.cox.verified then mbUnknown 4 (setF u (F.COX_MBc_STATUS_BUSY c) 1) else setF u (F.COX_MBc_STATUS_BUSY c) 1)) ∧
    (∀ r f, MailTurn s 1 4 4 c p → coxKey (fld p 0 4) = false → cfgLookup s (fld p 0 4) = some (r, f) → r.del = false →
      exec .cfgRead s = .next (mbReply s c 0 (le 2 f ++ zeros 2 ++ le 4 r.data.length ++ r.data))) ∧
    (MailTurn s 2 8 1000 c p → fld p 4 4 ≤ 1 → coxKey (fld p 0 4) = false → cfgAppend s (fld p 0 4) (bitAt (fld p 4 4) 0) (p.drop 8) = some u →
      exec .cfgWrite s = .next (mbReply u c 0 [])) ∧
    (MailTurn s 0x10 4 4 c p → domainOn s .flash = true → bitList (fld p 0 4) 32 ≠ [] → exec .fcLoad s =
      .next (fcLoadAll (bitList (fld p 0 4) 32) { s with cox := { s.cox with loading := some (c, bitList (fld p 0 4) 32) } })) ∧
    (MailTurn s 0x20 0 0 c p → exec .peerEph s = .next (mbReply (coxEph s).2.2 c 0 (le 4 (coxEph s).1 ++ (coxEph s).2.1))) ∧
    (MailTurn s 0x21 0 1008 c p → s.cox.dropped = false → fld p 10 8 = Config.hull →
      (p.take 10 = helloLabel true ∧ p.length = 170 ∨ p.take 10 = helloLabel false ∧ p.length = 299) →
      exec .peerSign s = .next (mbReply s c 0 (fit (Config.ecdsaSign Config.identityKey p) 96))) ∧
    (∀ e key v, MailTurn s 0x22 185 185 c p → fld p 7 1 = 0 → fld p 6 1 ≤ 1 → slotOpen (fld p 4 2) = true → (s.cox.ephs.find? fun e => e.1 == fld p 0 4) = some e →
      key = peerKeyOf e.2 (slice p 8 97) (slice p 105 32) (slice p 137 32) (fld p 169 8) (fld p 177 8) →
      v = setSlot { s with cox := { s.cox with ephs := s.cox.ephs.filter fun x => x.1 != fld p 0 4 } } ⟨fld p 4 2, 1, false, 0, 0, pairKeyOf key⟩ →
      exec .peerKey s = .next (mbReply (match v.pj.chans.find? fun x => x.slot == fld p 4 2 with | some x => pairRekey v x.partner | none => v) c 0 key)) ∧
    (MailTurn s 0x23 4 4 c p → s.cox.dropped = false → rigActive s = true → fld p 0 2 < (activeView s).count 1 → slotOpen (fld p 2 2) = true →
      exec .xportLoad s = .next (mbReply (setSlot s ⟨fld p 2 2, 3, false, 0, 0, xportKey s ((activeView s).hull (fld p 0 2))⟩) c 0 [])) ∧
    (∀ b key, MailTurn s 0x30 13 13 c p → svcPayload s (fld p 1 8) (fld p 9 4) = (u, some b) → s.cox.enclosure = some key → fld p 0 1 ≤ 1 → 64 ≤ fld p 9 4 →
      s.cox.dropped = false →
      (fld p 0 1 = 1 → exec .svcMac s = .next (mbReply (fabWrite u 2 (fld p 1 8 + fld p 9 4 - 16) (svcMacOf s key 1 b)).1 c 0 [])) ∧
      (fld p 0 1 = 0 → exec .svcMac s = .next (if svcMacRight s key b && decide (svcSeqOf b > s.cox.svcSeq) then
        mbReply { u with cox := { u.cox with svcSeq := svcSeqOf b } } c 0 [] else mbReply u c 6 []))) ∧
    (∀ b, MailTurn s 0x31 12 12 c p → svcPayload s (fld p 0 8) (fld p 8 4) = (u, some b) → s.cox.dropped = false → fld b 4 1 = 0x10 → fld b 20 2 = 145 →
      185 ≤ b.length → (∀ key, s.cox.enclosure = some key → svcMacRight s key b = true) →
      exec .svcKeySet s = .next (mbReply { u with cox := { u.cox with enclosure := some (keySetKey s (slice b 40 145)) } } c 0 [])) ∧
    (∀ b key, MailTurn s 0x32 12 12 c p → svcPayload s (fld p 0 8) (fld p 8 4) = (u, some b) → s.cox.enclosure = some key → s.cox.dropped = false →
      svcMacRight s key b = true →
      (fld b 4 1 = 0x11 → 112 ≤ b.length → exec .svcUnmask s = .next (mbReply u c 0 (xorBytes (slice b 40 48) (svcMask s key 0x11 (svcSeqOf b))))) ∧
      (fld b 4 1 = 0x12 → 96 ≤ b.length → exec .svcUnmask s = .next (mbReply (setEscrow u (xorBytes (slice b 40 32) (svcMask s key 0x12 (svcSeqOf b)))) c 0 []))) ∧
    (MailTurn s 0x40 32 32 c p → s.cox.dropped = false → exec .attest s = .next (mbReply s c 0 (attestQuote s p ++ fit Config.certificate 208))) ∧
    (∀ ch, MailTurn s 0x41 0 0 c p → ch = le 8 Config.hull ++ (freshBytes s 32).1 ++ le 1 s.cox.svnFused ++ zeros 23 → exec .debugChallenge s =
      .next (mbReply { (freshBytes s 32).2 with cox := { (freshBytes s 32).2.cox with challenge := some ch } } c 0 ch)) ∧
    (∀ ch v, MailTurn s 0x42 104 104 c p → allZero (slice p 1 7) = true → (fld p 0 1 = 1 ∨ fld p 0 1 = 2) → s.cox.challenge = some ch →
      Config.ecdsaVerify Config.debugKey ([0x41, 0x5A, 0x4B, 0x2D, 0x44, 0x45, 0x42, 0x55, 0x47] ++ ch ++ p.take 1) (slice p 8 96) = true →
      v = (s.cip.slots.map KeySlot.slot).foldl clearSlot s →
      u = setF (setF { v with cip := { v.cip with kek := none, escrow := none } } F.CIP_STATUS_KEK 0) F.CIP_STATUS_ESCROW 0 →
      exec .debugUnlock s = .next (mbReply (logCox (showCox { u with
        cox := { u.cox with dropped := u.cox.dropped || fld p 0 1 == 2 }
        pins := { u.pins with jtagLevel := fld p 0 1 } }) EV.debugUnlocked (fld p 0 1) 0 0) c 0 [])) ∧
    (domainOn s .cox = true → s.cox.verified = false → s.pwr.dev = 1 → s.cox.phase = 0 → u = drawNonce s → bootCheck u = 0 →
      exec .bootVerify s = .next (showCox { u with cox := { u.cox with verified := true }, pwr := { u.pwr with start := max u.pwr.start 4 } })) ∧
    (MailTurn s 0x50 8 8 c p → ∀ r, r = fabWrite s 2 (fld p 0 8) s.cox.image →
      exec .imageExport s = .next (if r.2 then mbReply r.1 c 0 (le 4 s.cox.image.length ++ le 4 (crc32c s.cox.image)) else mbReply r.1 c 1 [])) ∧
    (∀ m : FallbackMap, MailTurn s 0x51 41 41 c p → m = ⟨[fld p 0 16, fld p 16 16], fld p 32 4, fld p 36 4, fld p 40 1⟩ →
      (∀ e ∈ m.entries, bits e 40 8 = 0 ∧ bits e 24 6 = 0 ∧ bits e 64 64 = 0 ∧ (fallbackCopy s m e).isSome = true) → m.len ≤ 48 * 1024 * 1024 →
      bits (fld p 0 16) 35 5 ≠ bits (fld p 16 16) 35 5 → exec .fallbackSet s = .next (mbReply { s with cox := { s.cox with fallback := some m } } c 0 [])) ∧
    (∀ b cut, MailTurn s 0x52 16 16 c p → coxRead s (fld p 0 8) (min (fld p 8 4) (48 * 1024 * 1024)) = (u, b, false) →
      installCheck s (fld p 8 4) (fld p 12 4) b false = 0 → cut ≠ 1 → exec (.imageInstall cut) s = .next (mbReply (showCox (installImage u b)) c 0 [])) ∧
    (∀ svn, MailTurn s 0x53 0 0 c p → s.cox.phase = 2 → svn = max s.cox.svnFused (fld s.cox.image 12 1) →
      u = { s with cox := { s.cox with
        svnFused := svn
        revoked := (s.cox.revoked ++ (bitList (fld s.cox.image 7 1) 4).filter (· != fld s.cox.image 5 1)).eraseDups
        keptOld := none
        fallback := s.cox.fallback.filter fun m => decide (m.svn ≥ svn)
        phase := 0
        attempt := 0 } } → exec .imageConfirm s = .next (mbReply (showCox (logCox u EV.fwConfirmed (fld u.cox.image 12 1) 0 0)) c 0 [])) ∧
    (∀ m b, s.cox.fallback = some m → s.cox.phase = 3 → domainOn s .cox = true → s.pwr.dev = 1 → m.entries.findSome? (fallbackCopy s m) = some b →
      s.cox.keptOld = none → exec (.fallbackRestore 0) s =
      .next (showCox (logCox { s with cox := { s.cox with image := b, phase := 0, attempt := 0, keptOld := none } } EV.fwFallback (fld b 12 1) 0 0))) ∧
    (∀ t, s.cox.releasedAt = some t → s.cox.phase = 2 → s.pj.dumping = none → exec .trialTimeout s = .next (deviceReset (reach s (t + 600 * sec)) 4)) ∧
    (∀ key, MailTurn s 0x60 24 24 c p → s.cox.enclosure = some key → s.cox.dropped = false →
      p.take 16 = (hmacSha384 key ([0x41, 0x5A, 0x4B, 0x2D, 0x4C, 0x4F, 0x47, 0x2D, 0x43, 0x4C, 0x52] ++ svcNonce s ++ slice p 16 8)).take 16 →
      exec .logClear s = .next (mbReply { s with cox := { s.cox with clearGranted := some (fld p 16 8) } } c 0 [])) ∧
    (MailTurn s 0x70 1 1 c p → fld p 0 1 ≤ 1 → (fld p 0 1 = 0 → flag s F.PJ_CTRL_ENABLE = true → getF s F.PJ_HEAD_OFFSET = getF s F.PJ_TAIL_OFFSET) →
      exec .reset s = .next (deviceReset s 4)) ∧
    (MailTurn s 0x71 4 4 c p → exec .fatal s = .next (enterHalted (mbReply s c 0 []) (fld p 0 4)))

/-- What the logbook, the counter snapshot, Pentimento and the pins do. R574, R578, R579, R582, R584, R586, R588, R590, R612, R613, R614, Table 21-11. -/
def Obligations.LogbookAndPinsComplete : Prop :=
  ∀ (s u : State) (core : Nat),
    (∀ source code p0 p1 p2 p3, code < 65536 →
      (code / 4096 = 0 ∨ 7 < code / 4096 ∨ code / 128 % 32 ≠ 0 → logSubmit s source code p0 p1 p2 p3 = (s, .refused)) ∧
      (1 ≤ code / 4096 → code / 4096 ≤ 7 → code / 128 % 32 = 0 → s.lb.buffer.length < 256 → bucketBurst s ((code / 4096 - 1) * 128 + code % 128) = none →
        (logSubmit s source code p0 p1 p2 p3).2 = .accepted s.lb.nextSeq)) ∧
    (∀ code p, coreOn s core = true → u = coreActs s core → p = logSubmit u (1 + 16 * core) code (getF u (F.LOG_SUB_P_WORD core 0)) (getF u (F.LOG_SUB_P_WORD core 1))
        (getF u (F.LOG_SUB_P_WORD core 2)) (getF u (F.LOG_SUB_P3_WORD core)) → ∃ t, exec (.logSubmit core code) s = .next t ∧ t.lb = p.1.lb ∧
      getF t (F.LOG_SUB_STAT_DONE core) = 1 ∧ getF t (F.LOG_SUB_STAT_SUPPRESSED core) = b2n (p.2 == .suppressed) ∧
      getF t (F.LOG_SUB_STAT_REFUSED core) = b2n (p.2 == .refused) ∧
      getF t (F.LOG_SUB_SEQ_SEQ core) = (match p.2 with | .accepted q => q % 2 ^ 64 | _ => 0)) ∧
    (∀ recs v, coreOn s core = true → u = coreActs s core → recs = logRead u (getF u (F.LOG_RD_FROM_SEQ core)) (min 16 (getF u (F.LOG_RD_CTRL_COUNT core))) →
      v = setWords u (F.LOG_RD_DATA_BYTES core) (recs.map recBytes).flatten → exec (.logRdGo core) s =
      .next (setF (setF (setF v (F.LOG_RD_STAT_DONE core) 1) (F.LOG_RD_STAT_RETURNED core) recs.length) (F.LOG_RD_LOW_SEQ core) (getF v F.LOG_LOW_SEQ))) ∧
    (∀ at_ r rest, s.lb.buffer = (at_, r) :: rest → exec .logRecordProgram s = .next (programRec { s with lb := { s.lb with buffer := rest } } r)) ∧
    (∀ upto low p v w, s.cox.clearGranted = some upto → low = max (getF s F.LOG_LOW_SEQ) (min upto (getF s F.LOG_HEAD_SEQ) + 1) →
      p = logSubmit (setF s F.LOG_CLEAR_UPTO_SEQ upto) 2 EV.logCleared (getF s F.LOG_LOW_SEQ) low upto 0 → p.2 = .accepted s.lb.nextSeq →
      v = programBuffer { p.1 with cox := { p.1.cox with clearGranted := none } } →
      w = setF (putControl v low) F.LOG_LOW_SEQ (max (getF v F.LOG_LOW_SEQ) low) → exec (.logClearUptoWrite upto) s =
      .next (setF { w with lb := { w.lb with ring := ringCleared w.lb.ring low } } F.LOG_STATUS_CLEARED 1)) ∧
    (∀ code b burst, codeBucket code = some b → bucketBurst s b = some burst → (bucketOf s b).spent ≠ 0 → exec (.logTokenRefill code) s =
      .next (putBucket (reach s (bucketOf s b).refillAt) { bucketOf s b with
        spent := (bucketOf s b).spent - 1
        refillAt := (bucketOf s b).refillAt + refillNs s burst })) ∧
    (coreOn s core = true → u = coreActs s core → ∃ t, exec (.snapStrobe core) s = .next t ∧ getF t F.SNAP_STATUS_DONE = 1 ∧
      getF t F.SNAP_SEQ_SEQ = (getF u F.SNAP_SEQ_SEQ + 1) % 2 ^ 64 ∧ getF t F.SNAP_DOMAINS_ON = domainMask u % 2 ^ 9 ∧
      t.shadow = u.regs.filter (fun e => snapTakes u e.1) ∧ ∀ f : Fld, snapTakes u (fldKey f) = true → getF t f = f.reset) ∧
    (∀ w, s.pent.writing = some w → u = { s with pent := { s.pent with writing := none, nextErased := false, slots := s.pent.slots ++ [{ w with complete := true }] } } →
      exec .pentSnapshotEnd s = .next (setF (setF (setF (setF u F.PENT_STATUS_BUSY 0) F.PENT_STATUS_NEXT ((w.slot + 1) % 64)) F.PENT_PSEQ_PSEQ w.pseq) F.PENT_STATUS_TAKEN 1)) ∧
    (exec .pentSlotErase s = .next { s with pent := { s.pent with
      nextErased := true
      slots := s.pent.slots.filter fun p => p.slot != getF s F.PENT_STATUS_NEXT } }) ∧
    (∀ command data, u = { s with pins := { s.pins with smbLatch := data } } →
      (smbRegister s command = some (.byte, data) → exec (.smbusReadByte s.pins.smbAddress command) s = .next (emit u (.smbus (some (smbFrame u command .byte data))))) ∧
      (smbRegister s command = some (.word, data) → exec (.smbusReadWord s.pins.smbAddress command) s = .next (emit u (.smbus (some (smbFrame u command .word data))))) ∧
      (smbRegister s command = some (.block, data) → exec (.smbusBlockRead s.pins.smbAddress command) s = .next (emit u (.smbus (some (smbFrame u command .block data)))))) ∧
    (∀ command data, (smbRegister s command = none → exec (.smbusWriteNack s.pins.smbAddress command data) s = .next (emit s (.smbus none))) ∧
      ∀ q d, smbRegister s command = some (q, d) →
        exec (.smbusWriteNack s.pins.smbAddress command data) s = .next (emit { s with pins := { s.pins with smbLatch := d } } (.smbus none))) ∧
    (s.pins.smbAlertN = false → u = { (fresh s).2 with pins := { (fresh s).2.pins with smbAlertN := true } } → exec (.smbusAlertResponse s.pins.smbAddress) s =
      .next (emit u (.smbus (some (le 1 (2 * s.pins.smbAddress + (fresh s).1 % 2)))))) ∧
    exec .smbusClockLowTimeout s = .next { s with pins := { s.pins with smbLatch := [] } } ∧
    (∀ addr width value, domainOn s .cox = true →
      exec (.jtagAccess 0 addr width value) s = .next (jtagOut s 0 jtagIdcode) ∧
      exec (.jtagAccess 1 addr width value) s = .next (jtagOut s 1 (le (ceilDiv width 8) (value * 2 % 2 ^ width))) ∧
      (s.pins.jtagLevel ≠ 0 → s.pj.dumping = none → exec (.jtagAccess 6 addr width value) s = .next (deviceReset s 6)))

/-- Every step keeps the form of the stores. R7, R8, R11, R587. -/
def Obligations.StepKeepsInvariant : Prop :=
  ∀ s t : State, s.Inv → step s = .next t → t.Inv

/-- The state after reset. R11, R541, R547, R574, Table 18-5. -/
def Obligations.ResetState : Prop :=
  State.reset.Inv ∧ State.reset.pending = [] ∧ State.reset.mem = [] ∧ State.reset.shadow = [] ∧ State.reset.pwr.on = [.aon] ∧
    getF State.reset F.AON_PCYCLES_COUNT = 1 ∧ getF State.reset F.PWR_RESET_CAUSE_CAUSE = 1 ∧ getF State.reset F.LOG_HEAD_SEQ = 257 ∧
    (State.reset.lb.buffer.map fun e => (e.2.seq, e.2.code, e.2.p0)) = [(257, EV.start, 1)] ∧ State.reset.lb.nextSeq = 258 ∧ State.reset.pins.flashPwrEn = false ∧
    ∀ f : Fld, fldKey f ∉ [fldKey F.AON_PCYCLES_COUNT, fldKey F.LOG_STATUS_NEW, fldKey F.LOG_HEAD_SEQ, fldKey F.LOG_CNT_ACCEPTED_COUNT] → getF State.reset f = f.reset

end Statements
end

