-- ==== Sys2Proof/Laws/Gcm.lean ====
section
/-! SUPPORT. AES-256 gives blocks of 16 bytes, and the counter mode of GCM undoes itself. -/

namespace Sys2Proof.Machine

theorem chunksOf_length {α : Type} (n : Nat) (hn : 0 < n) (k : Nat) : ∀ l : List α, l.length = n * k → (∀ c ∈ chunksOf n k l, c.length = n) ∧ (chunksOf n k l).length = k := by
  induction k with
  | zero => intro l _; simp [chunksOf]
  | succ k ih =>
    intro l hl
    have hl' : l.length = n * k + n := by rw [hl, Nat.mul_succ]
    have h0 : l.isEmpty = false := by cases l with
      | nil => simp at hl'; omega
      | cons => rfl
    obtain ⟨h1, h2⟩ := ih (l.drop n) (by simp; omega)
    simp only [chunksOf, h0, Bool.false_eq_true, if_false, List.mem_cons, List.length_cons, h2]
    refine ⟨?_, trivial⟩
    rintro c (rfl | h)
    · simp; omega
    · exact h1 c h

theorem aesExpand_length (n : Nat) : ∀ i rcon ws, 8 ≤ ws.length → (∀ w ∈ ws, w.length = 4) →
    (∀ w ∈ aesExpand n i rcon ws, w.length = 4) ∧ (aesExpand n i rcon ws).length = ws.length + n := by
  induction n with
  | zero => intro i rcon ws _ h; exact ⟨h, rfl⟩
  | succ n ih =>
    intro i rcon ws hl h
    have hb : (ws.getD 7 []).length = 4 := by
      rw [List.getD_eq_getElem?_getD, List.getElem?_eq_getElem (by omega)]; exact h _ (List.getElem_mem _)
    have hp : (ws.headD []).length = 4 := by
      cases ws with
      | nil => simp at hl
      | cons a as => exact h a (by simp)
    simp only [aesExpand]
    refine (ih (i + 1) _ _ (by simp; omega) ?_).imp id (fun h => by rw [h]; simp; omega)
    intro w hw
    rcases List.mem_cons.1 hw with rfl | hw
    · rw [List.length_zipWith, hb]
      have : ∀ t : List Nat, t.length = 4 → min 4 t.length = 4 := by intro t h; omega
      apply this
      split
      · split
        · rfl
        · exact hp
      · split
        · rw [List.length_map]; exact hp
        · exact hp
    · exact h w hw

theorem aesRoundKeys_length (key : Bytes) : (∀ k ∈ aesRoundKeys key, k.length = 16) ∧ (aesRoundKeys key).length = 15 := by
  have hk : ((fit key 32).map BitVec.toNat).length = 4 * 8 := by simp [fit, zeros]; omega
  obtain ⟨h1, h2⟩ := chunksOf_length 4 (by omega) 8 _ hk
  obtain ⟨h3, h4⟩ := aesExpand_length 52 8 1 (chunksOf 4 8 ((fit key 32).map BitVec.toNat)).reverse (by simp [h2]) (by simpa using h1)
  apply chunksOf_length 16 (by omega) 15
  have h5 : ∀ l : List (List Nat), (∀ w ∈ l, w.length = 4) → l.flatten.length = 4 * l.length := by
    intro l
    induction l with
    | nil => intro _; rfl
    | cons a as ih => intro h; simp [ih fun w hw => h w (by simp [hw]), h a (by simp)]; omega
  rw [h5 _ (by simpa using h3), List.length_reverse, h4]; simp [h2]

theorem aesEncRounds_length (ks : List (List Nat)) : ∀ s, ks ≠ [] → (∀ k ∈ ks, k.length = 16) → (aesEncRounds ks s).length = 16 := by
  induction ks with
  | nil => intro s h; exact absurd rfl h
  | cons k ks ih =>
    intro s _ h
    cases ks with
    | nil => simp [aesEncRounds, aesShiftRows, h k (by simp)]
    | cons j js => simp only [aesEncRounds]; exact ih _ (by simp) fun k hk => h k (by simp [hk])

/-- A block encrypted is 16 bytes long. -/
theorem aesEnc_length (key blk : Bytes) : (aesEnc key blk).length = 16 := by
  obtain ⟨h1, h2⟩ := aesRoundKeys_length key
  simp only [aesEnc, List.length_map]
  refine aesEncRounds_length _ _ ?_ fun k hk => h1 k (List.mem_of_mem_drop hk)
  intro h; have := congrArg List.length h; simp [h2] at this

theorem xorBytes_self (d e : Bytes) (h : d.length ≤ e.length) : xorBytes (xorBytes d e) e = d := by
  induction d generalizing e with
  | nil => simp [xorBytes]
  | cons a d ih =>
    cases e with
    | nil => simp at h
    | cons b e =>
      have := ih e (by simpa using h)
      simp only [xorBytes, List.zipWith_cons_cons] at *
      rw [this, BitVec.xor_assoc]; simp

theorem xorBytes_length (d e : Bytes) : (xorBytes d e).length = min d.length e.length := by simp [xorBytes]

theorem xorBytes_append (x y e : Bytes) (h : x.length = e.length) : xorBytes (x ++ y) e = xorBytes x e := by
  induction x generalizing e with
  | nil => cases e with
    | nil => cases y <;> rfl
    | cons b e => simp at h
  | cons a x ih =>
    cases e with
    | nil => simp at h
    | cons b e =>
      have := ih e (by simpa using h)
      simp only [xorBytes, List.cons_append, List.zipWith_cons_cons] at *
      rw [this]

theorem gctr_nil (key : Bytes) (n : Nat) (ic : Bytes) : gctr key n ic [] = [] := by cases n <;> simp [gctr]

theorem gctr_length (key : Bytes) (n : Nat) : ∀ ic d, d.length ≤ 16 * n → (gctr key n ic d).length = d.length := by
  induction n with
  | zero => intro ic d h; have : d = [] := List.length_eq_zero_iff.1 (by omega); subst this; rfl
  | succ n ih =>
    intro ic d h
    by_cases h0 : d = []
    · subst h0; rw [gctr_nil]
    · simp only [gctr, List.isEmpty_iff, h0, if_false, List.length_append, xorBytes_length, aesEnc_length]
      rw [ih _ _ (by simp; omega)]; simp; omega

theorem gctr_self (key : Bytes) (n : Nat) : ∀ ic d, d.length ≤ 16 * n → gctr key n ic (gctr key n ic d) = d := by
  induction n with
  | zero => intro ic d h; have : d = [] := List.length_eq_zero_iff.1 (by omega); subst this; rfl
  | succ n ih =>
    intro ic d h
    by_cases h0 : d = []
    · subst h0; simp [gctr_nil]
    · have hd : 0 < d.length := List.length_pos_iff.2 h0
      have he := aesEnc_length key ic
      simp only [gctr, List.isEmpty_iff, h0, if_false]
      generalize aesEnc key ic = e at *
      generalize ic.take 12 ++ be 4 ((beNat (ic.drop 12) + 1) % 2 ^ 32) = j
      have hl : (xorBytes d e).length = min d.length 16 := by rw [xorBytes_length, he]
      have hne : ∀ y, xorBytes d e ++ y ≠ [] := by
        intro y hy; have := congrArg List.length hy; simp only [List.length_append, hl, List.length_nil] at this; omega
      simp only [hne, if_false]
      by_cases hs : 16 ≤ d.length
      · have h16 : (xorBytes d e).length = 16 := by omega
        have hx : xorBytes d e = xorBytes (d.take 16) e := by
          conv => lhs; rw [← List.take_append_drop 16 d]
          exact xorBytes_append _ _ _ (by rw [he, List.length_take]; omega)
        have hy : (xorBytes d e ++ gctr key n j (d.drop 16)).drop 16 = gctr key n j (d.drop 16) := by rw [← h16]; exact List.drop_left
        rw [xorBytes_append _ _ _ (by rw [h16, he]), hy, ih _ _ (by rw [List.length_drop]; omega),
          hx, xorBytes_self _ _ (by rw [he, List.length_take]; omega), List.take_append_drop]
      · have hz : d.drop 16 = [] := List.drop_of_length_le (by omega)
        have hw : (xorBytes d e).drop 16 = [] := List.drop_of_length_le (by omega)
        rw [hz, gctr_nil, List.append_nil, hw, gctr_nil, List.append_nil, xorBytes_self _ _ (by omega)]

/-- The counter mode of GCM undoes itself. -/
theorem gcmCrypt_self (key iv d : Bytes) : gcmCrypt key iv (gcmCrypt key iv d) = d := by
  simp only [gcmCrypt]
  rw [gctr_length key _ _ _ (by omega), gctr_self key _ _ _ (by omega)]

theorem gcmCrypt_length (key iv d : Bytes) : (gcmCrypt key iv d).length = d.length := gctr_length key _ _ _ (by omega)

theorem le_length (n : Nat) : ∀ v, (le n v).length = n := by
  induction n with
  | zero => intro v; rfl
  | succ n ih => intro v; simp [le, ih]

theorem be_length (n v : Nat) : (be n v).length = n := by simp [be, le_length]

theorem gcmTag_length (key iv aad c : Bytes) : (gcmTag key iv aad c).length = 16 := by
  simp only [gcmTag, xorBytes_length, be_length, aesEnc_length, Nat.min_self]

end Sys2Proof.Machine
end

