-- ==== Sys2Proof/Laws/State.lean ====
section
/-! SUPPORT. What each named update of State leaves in each field, so that no later proof unfolds a record update. -/

namespace Sys2Proof.Machine

/-! ### setF -/

@[simp] theorem setF_now (s : State) (f : Fld) (v : Nat) : (setF s f v).now = s.now := rfl
@[simp] theorem setF_free (s : State) (f : Fld) (v : Nat) : (setF s f v).free = s.free := rfl
@[simp] theorem setF_out (s : State) (f : Fld) (v : Nat) : (setF s f v).out = s.out := rfl
@[simp] theorem setF_regs (s : State) (f : Fld) (v : Nat) : (setF s f v).regs = kvPut s.regs (fldKey f) (v % 2 ^ f.width) := rfl
@[simp] theorem setF_shadow (s : State) (f : Fld) (v : Nat) : (setF s f v).shadow = s.shadow := rfl
@[simp] theorem setF_mem (s : State) (f : Fld) (v : Nat) : (setF s f v).mem = s.mem := rfl
@[simp] theorem setF_poison (s : State) (f : Fld) (v : Nat) : (setF s f v).poison = s.poison := rfl
@[simp] theorem setF_irq (s : State) (f : Fld) (v : Nat) : (setF s f v).irq = s.irq := rfl
@[simp] theorem setF_cores (s : State) (f : Fld) (v : Nat) : (setF s f v).cores = s.cores := rfl
@[simp] theorem setF_wq (s : State) (f : Fld) (v : Nat) : (setF s f v).wq = s.wq := rfl
@[simp] theorem setF_pwr (s : State) (f : Fld) (v : Nat) : (setF s f v).pwr = s.pwr := rfl
@[simp] theorem setF_lb (s : State) (f : Fld) (v : Nat) : (setF s f v).lb = s.lb := rfl
@[simp] theorem setF_pent (s : State) (f : Fld) (v : Nat) : (setF s f v).pent = s.pent := rfl
@[simp] theorem setF_pins (s : State) (f : Fld) (v : Nat) : (setF s f v).pins = s.pins := rfl
@[simp] theorem setF_pj (s : State) (f : Fld) (v : Nat) : (setF s f v).pj = s.pj := rfl
@[simp] theorem setF_hte (s : State) (f : Fld) (v : Nat) : (setF s f v).hte = s.hte := rfl
@[simp] theorem setF_kv (s : State) (f : Fld) (v : Nat) : (setF s f v).kv = s.kv := rfl
@[simp] theorem setF_groups (s : State) (f : Fld) (v : Nat) : (setF s f v).groups = s.groups := rfl
@[simp] theorem setF_epoch (s : State) (f : Fld) (v : Nat) : (setF s f v).epoch = s.epoch := rfl
@[simp] theorem setF_cox (s : State) (f : Fld) (v : Nat) : (setF s f v).cox = s.cox := rfl
@[simp] theorem setF_fc (s : State) (f : Fld) (v : Nat) : (setF s f v).fc = s.fc := rfl
@[simp] theorem setF_dma (s : State) (f : Fld) (v : Nat) : (setF s f v).dma = s.dma := rfl
@[simp] theorem setF_asu (s : State) (f : Fld) (v : Nat) : (setF s f v).asu = s.asu := rfl
@[simp] theorem setF_cip (s : State) (f : Fld) (v : Nat) : (setF s f v).cip = s.cip := rfl
@[simp] theorem setF_sc (s : State) (f : Fld) (v : Nat) : (setF s f v).sc = s.sc := rfl
@[simp] theorem setF_net (s : State) (f : Fld) (v : Nat) : (setF s f v).net = s.net := rfl
@[simp] theorem setF_svc (s : State) (f : Fld) (v : Nat) : (setF s f v).svc = s.svc := rfl
@[simp] theorem setF_rig (s : State) (f : Fld) (v : Nat) : (setF s f v).rig = s.rig := rfl
@[simp] theorem setF_media (s : State) (f : Fld) (v : Nat) : (setF s f v).media = s.media := rfl
@[simp] theorem setF_pending (s : State) (f : Fld) (v : Nat) : (setF s f v).pending = s.pending := rfl

/-! ### memWrite -/

@[simp] theorem memWrite_now (s : State) (a : Nat) (bs : Bytes) : (memWrite s a bs).now = s.now := rfl
@[simp] theorem memWrite_free (s : State) (a : Nat) (bs : Bytes) : (memWrite s a bs).free = s.free := rfl
@[simp] theorem memWrite_out (s : State) (a : Nat) (bs : Bytes) : (memWrite s a bs).out = s.out := rfl
@[simp] theorem memWrite_regs (s : State) (a : Nat) (bs : Bytes) : (memWrite s a bs).regs = s.regs := rfl
@[simp] theorem memWrite_shadow (s : State) (a : Nat) (bs : Bytes) : (memWrite s a bs).shadow = s.shadow := rfl
@[simp] theorem memWrite_mem (s : State) (a : Nat) (bs : Bytes) : (memWrite s a bs).mem = memPut s.mem a bs := rfl
@[simp] theorem memWrite_poison (s : State) (a : Nat) (bs : Bytes) : (memWrite s a bs).poison = s.poison := rfl
@[simp] theorem memWrite_irq (s : State) (a : Nat) (bs : Bytes) : (memWrite s a bs).irq = s.irq := rfl
@[simp] theorem memWrite_cores (s : State) (a : Nat) (bs : Bytes) : (memWrite s a bs).cores = s.cores := rfl
@[simp] theorem memWrite_wq (s : State) (a : Nat) (bs : Bytes) : (memWrite s a bs).wq = s.wq := rfl
@[simp] theorem memWrite_pwr (s : State) (a : Nat) (bs : Bytes) : (memWrite s a bs).pwr = s.pwr := rfl
@[simp] theorem memWrite_lb (s : State) (a : Nat) (bs : Bytes) : (memWrite s a bs).lb = s.lb := rfl
@[simp] theorem memWrite_pent (s : State) (a : Nat) (bs : Bytes) : (memWrite s a bs).pent = s.pent := rfl
@[simp] theorem memWrite_pins (s : State) (a : Nat) (bs : Bytes) : (memWrite s a bs).pins = s.pins := rfl
@[simp] theorem memWrite_pj (s : State) (a : Nat) (bs : Bytes) : (memWrite s a bs).pj = s.pj := rfl
@[simp] theorem memWrite_hte (s : State) (a : Nat) (bs : Bytes) : (memWrite s a bs).hte = s.hte := rfl
@[simp] theorem memWrite_kv (s : State) (a : Nat) (bs : Bytes) : (memWrite s a bs).kv = s.kv := rfl
@[simp] theorem memWrite_groups (s : State) (a : Nat) (bs : Bytes) : (memWrite s a bs).groups = s.groups := rfl
@[simp] theorem memWrite_epoch (s : State) (a : Nat) (bs : Bytes) : (memWrite s a bs).epoch = s.epoch := rfl
@[simp] theorem memWrite_cox (s : State) (a : Nat) (bs : Bytes) : (memWrite s a bs).cox = s.cox := rfl
@[simp] theorem memWrite_fc (s : State) (a : Nat) (bs : Bytes) : (memWrite s a bs).fc = s.fc := rfl
@[simp] theorem memWrite_dma (s : State) (a : Nat) (bs : Bytes) : (memWrite s a bs).dma = s.dma := rfl
@[simp] theorem memWrite_asu (s : State) (a : Nat) (bs : Bytes) : (memWrite s a bs).asu = s.asu := rfl
@[simp] theorem memWrite_cip (s : State) (a : Nat) (bs : Bytes) : (memWrite s a bs).cip = s.cip := rfl
@[simp] theorem memWrite_sc (s : State) (a : Nat) (bs : Bytes) : (memWrite s a bs).sc = s.sc := rfl
@[simp] theorem memWrite_net (s : State) (a : Nat) (bs : Bytes) : (memWrite s a bs).net = s.net := rfl
@[simp] theorem memWrite_svc (s : State) (a : Nat) (bs : Bytes) : (memWrite s a bs).svc = s.svc := rfl
@[simp] theorem memWrite_rig (s : State) (a : Nat) (bs : Bytes) : (memWrite s a bs).rig = s.rig := rfl
@[simp] theorem memWrite_media (s : State) (a : Nat) (bs : Bytes) : (memWrite s a bs).media = s.media := rfl
@[simp] theorem memWrite_pending (s : State) (a : Nat) (bs : Bytes) : (memWrite s a bs).pending = s.pending := rfl

/-! ### emit -/

@[simp] theorem emit_now (s : State) (o : Out) : (emit s o).now = s.now := rfl
@[simp] theorem emit_free (s : State) (o : Out) : (emit s o).free = s.free := rfl
@[simp] theorem emit_out (s : State) (o : Out) : (emit s o).out = s.out ++ [o] := rfl
@[simp] theorem emit_regs (s : State) (o : Out) : (emit s o).regs = s.regs := rfl
@[simp] theorem emit_shadow (s : State) (o : Out) : (emit s o).shadow = s.shadow := rfl
@[simp] theorem emit_mem (s : State) (o : Out) : (emit s o).mem = s.mem := rfl
@[simp] theorem emit_poison (s : State) (o : Out) : (emit s o).poison = s.poison := rfl
@[simp] theorem emit_irq (s : State) (o : Out) : (emit s o).irq = s.irq := rfl
@[simp] theorem emit_cores (s : State) (o : Out) : (emit s o).cores = s.cores := rfl
@[simp] theorem emit_wq (s : State) (o : Out) : (emit s o).wq = s.wq := rfl
@[simp] theorem emit_pwr (s : State) (o : Out) : (emit s o).pwr = s.pwr := rfl
@[simp] theorem emit_lb (s : State) (o : Out) : (emit s o).lb = s.lb := rfl
@[simp] theorem emit_pent (s : State) (o : Out) : (emit s o).pent = s.pent := rfl
@[simp] theorem emit_pins (s : State) (o : Out) : (emit s o).pins = s.pins := rfl
@[simp] theorem emit_pj (s : State) (o : Out) : (emit s o).pj = s.pj := rfl
@[simp] theorem emit_hte (s : State) (o : Out) : (emit s o).hte = s.hte := rfl
@[simp] theorem emit_kv (s : State) (o : Out) : (emit s o).kv = s.kv := rfl
@[simp] theorem emit_groups (s : State) (o : Out) : (emit s o).groups = s.groups := rfl
@[simp] theorem emit_epoch (s : State) (o : Out) : (emit s o).epoch = s.epoch := rfl
@[simp] theorem emit_cox (s : State) (o : Out) : (emit s o).cox = s.cox := rfl
@[simp] theorem emit_fc (s : State) (o : Out) : (emit s o).fc = s.fc := rfl
@[simp] theorem emit_dma (s : State) (o : Out) : (emit s o).dma = s.dma := rfl
@[simp] theorem emit_asu (s : State) (o : Out) : (emit s o).asu = s.asu := rfl
@[simp] theorem emit_cip (s : State) (o : Out) : (emit s o).cip = s.cip := rfl
@[simp] theorem emit_sc (s : State) (o : Out) : (emit s o).sc = s.sc := rfl
@[simp] theorem emit_net (s : State) (o : Out) : (emit s o).net = s.net := rfl
@[simp] theorem emit_svc (s : State) (o : Out) : (emit s o).svc = s.svc := rfl
@[simp] theorem emit_rig (s : State) (o : Out) : (emit s o).rig = s.rig := rfl
@[simp] theorem emit_media (s : State) (o : Out) : (emit s o).media = s.media := rfl
@[simp] theorem emit_pending (s : State) (o : Out) : (emit s o).pending = s.pending := rfl

/-! ### emitAll -/

@[simp] theorem emitAll_now (s : State) (os : List Out) : (emitAll s os).now = s.now := rfl
@[simp] theorem emitAll_free (s : State) (os : List Out) : (emitAll s os).free = s.free := rfl
@[simp] theorem emitAll_out (s : State) (os : List Out) : (emitAll s os).out = s.out ++ os := rfl
@[simp] theorem emitAll_regs (s : State) (os : List Out) : (emitAll s os).regs = s.regs := rfl
@[simp] theorem emitAll_shadow (s : State) (os : List Out) : (emitAll s os).shadow = s.shadow := rfl
@[simp] theorem emitAll_mem (s : State) (os : List Out) : (emitAll s os).mem = s.mem := rfl
@[simp] theorem emitAll_poison (s : State) (os : List Out) : (emitAll s os).poison = s.poison := rfl
@[simp] theorem emitAll_irq (s : State) (os : List Out) : (emitAll s os).irq = s.irq := rfl
@[simp] theorem emitAll_cores (s : State) (os : List Out) : (emitAll s os).cores = s.cores := rfl
@[simp] theorem emitAll_wq (s : State) (os : List Out) : (emitAll s os).wq = s.wq := rfl
@[simp] theorem emitAll_pwr (s : State) (os : List Out) : (emitAll s os).pwr = s.pwr := rfl
@[simp] theorem emitAll_lb (s : State) (os : List Out) : (emitAll s os).lb = s.lb := rfl
@[simp] theorem emitAll_pent (s : State) (os : List Out) : (emitAll s os).pent = s.pent := rfl
@[simp] theorem emitAll_pins (s : State) (os : List Out) : (emitAll s os).pins = s.pins := rfl
@[simp] theorem emitAll_pj (s : State) (os : List Out) : (emitAll s os).pj = s.pj := rfl
@[simp] theorem emitAll_hte (s : State) (os : List Out) : (emitAll s os).hte = s.hte := rfl
@[simp] theorem emitAll_kv (s : State) (os : List Out) : (emitAll s os).kv = s.kv := rfl
@[simp] theorem emitAll_groups (s : State) (os : List Out) : (emitAll s os).groups = s.groups := rfl
@[simp] theorem emitAll_epoch (s : State) (os : List Out) : (emitAll s os).epoch = s.epoch := rfl
@[simp] theorem emitAll_cox (s : State) (os : List Out) : (emitAll s os).cox = s.cox := rfl
@[simp] theorem emitAll_fc (s : State) (os : List Out) : (emitAll s os).fc = s.fc := rfl
@[simp] theorem emitAll_dma (s : State) (os : List Out) : (emitAll s os).dma = s.dma := rfl
@[simp] theorem emitAll_asu (s : State) (os : List Out) : (emitAll s os).asu = s.asu := rfl
@[simp] theorem emitAll_cip (s : State) (os : List Out) : (emitAll s os).cip = s.cip := rfl
@[simp] theorem emitAll_sc (s : State) (os : List Out) : (emitAll s os).sc = s.sc := rfl
@[simp] theorem emitAll_net (s : State) (os : List Out) : (emitAll s os).net = s.net := rfl
@[simp] theorem emitAll_svc (s : State) (os : List Out) : (emitAll s os).svc = s.svc := rfl
@[simp] theorem emitAll_rig (s : State) (os : List Out) : (emitAll s os).rig = s.rig := rfl
@[simp] theorem emitAll_media (s : State) (os : List Out) : (emitAll s os).media = s.media := rfl
@[simp] theorem emitAll_pending (s : State) (os : List Out) : (emitAll s os).pending = s.pending := rfl

/-! ### reach -/

@[simp] theorem reach_now (s : State) (t : Nat) : (reach s t).now = max s.now t := rfl
@[simp] theorem reach_free (s : State) (t : Nat) : (reach s t).free = s.free := rfl
@[simp] theorem reach_out (s : State) (t : Nat) : (reach s t).out = s.out := rfl
@[simp] theorem reach_regs (s : State) (t : Nat) : (reach s t).regs = s.regs := rfl
@[simp] theorem reach_shadow (s : State) (t : Nat) : (reach s t).shadow = s.shadow := rfl
@[simp] theorem reach_mem (s : State) (t : Nat) : (reach s t).mem = s.mem := rfl
@[simp] theorem reach_poison (s : State) (t : Nat) : (reach s t).poison = s.poison := rfl
@[simp] theorem reach_irq (s : State) (t : Nat) : (reach s t).irq = s.irq := rfl
@[simp] theorem reach_cores (s : State) (t : Nat) : (reach s t).cores = s.cores := rfl
@[simp] theorem reach_wq (s : State) (t : Nat) : (reach s t).wq = s.wq := rfl
@[simp] theorem reach_pwr (s : State) (t : Nat) : (reach s t).pwr = s.pwr := rfl
@[simp] theorem reach_lb (s : State) (t : Nat) : (reach s t).lb = s.lb := rfl
@[simp] theorem reach_pent (s : State) (t : Nat) : (reach s t).pent = s.pent := rfl
@[simp] theorem reach_pins (s : State) (t : Nat) : (reach s t).pins = s.pins := rfl
@[simp] theorem reach_pj (s : State) (t : Nat) : (reach s t).pj = s.pj := rfl
@[simp] theorem reach_hte (s : State) (t : Nat) : (reach s t).hte = s.hte := rfl
@[simp] theorem reach_kv (s : State) (t : Nat) : (reach s t).kv = s.kv := rfl
@[simp] theorem reach_groups (s : State) (t : Nat) : (reach s t).groups = s.groups := rfl
@[simp] theorem reach_epoch (s : State) (t : Nat) : (reach s t).epoch = s.epoch := rfl
@[simp] theorem reach_cox (s : State) (t : Nat) : (reach s t).cox = s.cox := rfl
@[simp] theorem reach_fc (s : State) (t : Nat) : (reach s t).fc = s.fc := rfl
@[simp] theorem reach_dma (s : State) (t : Nat) : (reach s t).dma = s.dma := rfl
@[simp] theorem reach_asu (s : State) (t : Nat) : (reach s t).asu = s.asu := rfl
@[simp] theorem reach_cip (s : State) (t : Nat) : (reach s t).cip = s.cip := rfl
@[simp] theorem reach_sc (s : State) (t : Nat) : (reach s t).sc = s.sc := rfl
@[simp] theorem reach_net (s : State) (t : Nat) : (reach s t).net = s.net := rfl
@[simp] theorem reach_svc (s : State) (t : Nat) : (reach s t).svc = s.svc := rfl
@[simp] theorem reach_rig (s : State) (t : Nat) : (reach s t).rig = s.rig := rfl
@[simp] theorem reach_media (s : State) (t : Nat) : (reach s t).media = s.media := rfl
@[simp] theorem reach_pending (s : State) (t : Nat) : (reach s t).pending = s.pending := rfl

/-! ### fresh -/

@[simp] theorem fresh_now (s : State) : (fresh s).2.now = s.now := rfl
@[simp] theorem fresh_free (s : State) : (fresh s).2.free = s.free + 1 := rfl
@[simp] theorem fresh_out (s : State) : (fresh s).2.out = s.out := rfl
@[simp] theorem fresh_regs (s : State) : (fresh s).2.regs = s.regs := rfl
@[simp] theorem fresh_shadow (s : State) : (fresh s).2.shadow = s.shadow := rfl
@[simp] theorem fresh_mem (s : State) : (fresh s).2.mem = s.mem := rfl
@[simp] theorem fresh_poison (s : State) : (fresh s).2.poison = s.poison := rfl
@[simp] theorem fresh_irq (s : State) : (fresh s).2.irq = s.irq := rfl
@[simp] theorem fresh_cores (s : State) : (fresh s).2.cores = s.cores := rfl
@[simp] theorem fresh_wq (s : State) : (fresh s).2.wq = s.wq := rfl
@[simp] theorem fresh_pwr (s : State) : (fresh s).2.pwr = s.pwr := rfl
@[simp] theorem fresh_lb (s : State) : (fresh s).2.lb = s.lb := rfl
@[simp] theorem fresh_pent (s : State) : (fresh s).2.pent = s.pent := rfl
@[simp] theorem fresh_pins (s : State) : (fresh s).2.pins = s.pins := rfl
@[simp] theorem fresh_pj (s : State) : (fresh s).2.pj = s.pj := rfl
@[simp] theorem fresh_hte (s : State) : (fresh s).2.hte = s.hte := rfl
@[simp] theorem fresh_kv (s : State) : (fresh s).2.kv = s.kv := rfl
@[simp] theorem fresh_groups (s : State) : (fresh s).2.groups = s.groups := rfl
@[simp] theorem fresh_epoch (s : State) : (fresh s).2.epoch = s.epoch := rfl
@[simp] theorem fresh_cox (s : State) : (fresh s).2.cox = s.cox := rfl
@[simp] theorem fresh_fc (s : State) : (fresh s).2.fc = s.fc := rfl
@[simp] theorem fresh_dma (s : State) : (fresh s).2.dma = s.dma := rfl
@[simp] theorem fresh_asu (s : State) : (fresh s).2.asu = s.asu := rfl
@[simp] theorem fresh_cip (s : State) : (fresh s).2.cip = s.cip := rfl
@[simp] theorem fresh_sc (s : State) : (fresh s).2.sc = s.sc := rfl
@[simp] theorem fresh_net (s : State) : (fresh s).2.net = s.net := rfl
@[simp] theorem fresh_svc (s : State) : (fresh s).2.svc = s.svc := rfl
@[simp] theorem fresh_rig (s : State) : (fresh s).2.rig = s.rig := rfl
@[simp] theorem fresh_media (s : State) : (fresh s).2.media = s.media := rfl
@[simp] theorem fresh_pending (s : State) : (fresh s).2.pending = s.pending := rfl

/-! ### freshBytes -/

@[simp] theorem freshBytes_now (s : State) (n : Nat) : (freshBytes s n).2.now = s.now := rfl
@[simp] theorem freshBytes_free (s : State) (n : Nat) : (freshBytes s n).2.free = s.free + 1 := rfl
@[simp] theorem freshBytes_out (s : State) (n : Nat) : (freshBytes s n).2.out = s.out := rfl
@[simp] theorem freshBytes_regs (s : State) (n : Nat) : (freshBytes s n).2.regs = s.regs := rfl
@[simp] theorem freshBytes_shadow (s : State) (n : Nat) : (freshBytes s n).2.shadow = s.shadow := rfl
@[simp] theorem freshBytes_mem (s : State) (n : Nat) : (freshBytes s n).2.mem = s.mem := rfl
@[simp] theorem freshBytes_poison (s : State) (n : Nat) : (freshBytes s n).2.poison = s.poison := rfl
@[simp] theorem freshBytes_irq (s : State) (n : Nat) : (freshBytes s n).2.irq = s.irq := rfl
@[simp] theorem freshBytes_cores (s : State) (n : Nat) : (freshBytes s n).2.cores = s.cores := rfl
@[simp] theorem freshBytes_wq (s : State) (n : Nat) : (freshBytes s n).2.wq = s.wq := rfl
@[simp] theorem freshBytes_pwr (s : State) (n : Nat) : (freshBytes s n).2.pwr = s.pwr := rfl
@[simp] theorem freshBytes_lb (s : State) (n : Nat) : (freshBytes s n).2.lb = s.lb := rfl
@[simp] theorem freshBytes_pent (s : State) (n : Nat) : (freshBytes s n).2.pent = s.pent := rfl
@[simp] theorem freshBytes_pins (s : State) (n : Nat) : (freshBytes s n).2.pins = s.pins := rfl
@[simp] theorem freshBytes_pj (s : State) (n : Nat) : (freshBytes s n).2.pj = s.pj := rfl
@[simp] theorem freshBytes_hte (s : State) (n : Nat) : (freshBytes s n).2.hte = s.hte := rfl
@[simp] theorem freshBytes_kv (s : State) (n : Nat) : (freshBytes s n).2.kv = s.kv := rfl
@[simp] theorem freshBytes_groups (s : State) (n : Nat) : (freshBytes s n).2.groups = s.groups := rfl
@[simp] theorem freshBytes_epoch (s : State) (n : Nat) : (freshBytes s n).2.epoch = s.epoch := rfl
@[simp] theorem freshBytes_cox (s : State) (n : Nat) : (freshBytes s n).2.cox = s.cox := rfl
@[simp] theorem freshBytes_fc (s : State) (n : Nat) : (freshBytes s n).2.fc = s.fc := rfl
@[simp] theorem freshBytes_dma (s : State) (n : Nat) : (freshBytes s n).2.dma = s.dma := rfl
@[simp] theorem freshBytes_asu (s : State) (n : Nat) : (freshBytes s n).2.asu = s.asu := rfl
@[simp] theorem freshBytes_cip (s : State) (n : Nat) : (freshBytes s n).2.cip = s.cip := rfl
@[simp] theorem freshBytes_sc (s : State) (n : Nat) : (freshBytes s n).2.sc = s.sc := rfl
@[simp] theorem freshBytes_net (s : State) (n : Nat) : (freshBytes s n).2.net = s.net := rfl
@[simp] theorem freshBytes_svc (s : State) (n : Nat) : (freshBytes s n).2.svc = s.svc := rfl
@[simp] theorem freshBytes_rig (s : State) (n : Nat) : (freshBytes s n).2.rig = s.rig := rfl
@[simp] theorem freshBytes_media (s : State) (n : Nat) : (freshBytes s n).2.media = s.media := rfl
@[simp] theorem freshBytes_pending (s : State) (n : Nat) : (freshBytes s n).2.pending = s.pending := rfl

/-! ### putBucket -/

@[simp] theorem putBucket_now (s : State) (t : TokenBucket) : (putBucket s t).now = s.now := rfl
@[simp] theorem putBucket_free (s : State) (t : TokenBucket) : (putBucket s t).free = s.free := rfl
@[simp] theorem putBucket_out (s : State) (t : TokenBucket) : (putBucket s t).out = s.out := rfl
@[simp] theorem putBucket_regs (s : State) (t : TokenBucket) : (putBucket s t).regs = s.regs := rfl
@[simp] theorem putBucket_shadow (s : State) (t : TokenBucket) : (putBucket s t).shadow = s.shadow := rfl
@[simp] theorem putBucket_mem (s : State) (t : TokenBucket) : (putBucket s t).mem = s.mem := rfl
@[simp] theorem putBucket_poison (s : State) (t : TokenBucket) : (putBucket s t).poison = s.poison := rfl
@[simp] theorem putBucket_irq (s : State) (t : TokenBucket) : (putBucket s t).irq = s.irq := rfl
@[simp] theorem putBucket_cores (s : State) (t : TokenBucket) : (putBucket s t).cores = s.cores := rfl
@[simp] theorem putBucket_wq (s : State) (t : TokenBucket) : (putBucket s t).wq = s.wq := rfl
@[simp] theorem putBucket_pwr (s : State) (t : TokenBucket) : (putBucket s t).pwr = s.pwr := rfl
@[simp] theorem putBucket_lb (s : State) (t : TokenBucket) : (putBucket s t).lb = { s.lb with buckets := t :: s.lb.buckets.filter (fun u => u.bucket != t.bucket) } := rfl
@[simp] theorem putBucket_pent (s : State) (t : TokenBucket) : (putBucket s t).pent = s.pent := rfl
@[simp] theorem putBucket_pins (s : State) (t : TokenBucket) : (putBucket s t).pins = s.pins := rfl
@[simp] theorem putBucket_pj (s : State) (t : TokenBucket) : (putBucket s t).pj = s.pj := rfl
@[simp] theorem putBucket_hte (s : State) (t : TokenBucket) : (putBucket s t).hte = s.hte := rfl
@[simp] theorem putBucket_kv (s : State) (t : TokenBucket) : (putBucket s t).kv = s.kv := rfl
@[simp] theorem putBucket_groups (s : State) (t : TokenBucket) : (putBucket s t).groups = s.groups := rfl
@[simp] theorem putBucket_epoch (s : State) (t : TokenBucket) : (putBucket s t).epoch = s.epoch := rfl
@[simp] theorem putBucket_cox (s : State) (t : TokenBucket) : (putBucket s t).cox = s.cox := rfl
@[simp] theorem putBucket_fc (s : State) (t : TokenBucket) : (putBucket s t).fc = s.fc := rfl
@[simp] theorem putBucket_dma (s : State) (t : TokenBucket) : (putBucket s t).dma = s.dma := rfl
@[simp] theorem putBucket_asu (s : State) (t : TokenBucket) : (putBucket s t).asu = s.asu := rfl
@[simp] theorem putBucket_cip (s : State) (t : TokenBucket) : (putBucket s t).cip = s.cip := rfl
@[simp] theorem putBucket_sc (s : State) (t : TokenBucket) : (putBucket s t).sc = s.sc := rfl
@[simp] theorem putBucket_net (s : State) (t : TokenBucket) : (putBucket s t).net = s.net := rfl
@[simp] theorem putBucket_svc (s : State) (t : TokenBucket) : (putBucket s t).svc = s.svc := rfl
@[simp] theorem putBucket_rig (s : State) (t : TokenBucket) : (putBucket s t).rig = s.rig := rfl
@[simp] theorem putBucket_media (s : State) (t : TokenBucket) : (putBucket s t).media = s.media := rfl
@[simp] theorem putBucket_pending (s : State) (t : TokenBucket) : (putBucket s t).pending = s.pending := rfl

end Sys2Proof.Machine
end

