-- ==== Sys2Proof/Laws/Memory.lean ====
section
/-! SUPPORT. Memory: reading after writing, and its canonical form. -/

namespace Sys2Proof.Machine

theorem cellsOf_ge {a : Nat} {bs : Bytes} {c : Host.Cell} (h : c ∈ cellsOf a bs) : a ≤ c.1 ∧ c.1 < a + bs.length ∧ c.2 ≠ 0 := by
  induction bs generalizing a with
  | nil => simp [cellsOf] at h
  | cons b bs ih =>
    simp only [cellsOf] at h
    split at h
    · have := ih h; simp only [List.length_cons]; exact ⟨by omega, by omega, this.2.2⟩
    · rename_i hb
      rcases List.mem_cons.1 h with rfl | h
      · exact ⟨Nat.le_refl _, by simp, hb⟩
      · have := ih h; simp only [List.length_cons]; exact ⟨by omega, by omega, this.2.2⟩

theorem cellsOf_sorted (a : Nat) (bs : Bytes) : ((cellsOf a bs).map Prod.fst).Pairwise (· < ·) := by
  induction bs generalizing a with
  | nil => simp [cellsOf]
  | cons b bs ih =>
    simp only [cellsOf]
    split
    · exact ih _
    · refine List.pairwise_cons.2 ⟨?_, ih _⟩
      intro y hy
      obtain ⟨c, hc, rfl⟩ := List.mem_map.1 hy
      have := (cellsOf_ge hc).1
      show a < c.1
      omega

/-- Every write keeps memory's canonical form. -/
theorem memPut_wf {m : List Host.Cell} (h : Memory.wf m) (a : Nat) (bs : Bytes) : Memory.wf (memPut m a bs) := by
  obtain ⟨hs, hz⟩ := h
  constructor
  · simp only [memPut, List.map_append]
    refine List.pairwise_append.2 ⟨List.pairwise_append.2 ⟨?_, cellsOf_sorted _ _, ?_⟩, ?_, ?_⟩
    · exact List.Pairwise.sublist (List.filter_sublist.map _) hs
    · intro x hx y hy
      obtain ⟨c, hc, rfl⟩ := List.mem_map.1 hx
      obtain ⟨d, hd, rfl⟩ := List.mem_map.1 hy
      have h1 : c.1 < a := by simpa using (List.mem_filter.1 hc).2
      have := (cellsOf_ge hd).1
      omega
    · exact List.Pairwise.sublist (List.filter_sublist.map _) hs
    · intro x hx y hy
      obtain ⟨d, hd, rfl⟩ := List.mem_map.1 hy
      have h2 : a + bs.length ≤ d.1 := by simpa using (List.mem_filter.1 hd).2
      rcases List.mem_append.1 hx with hx | hx
      · obtain ⟨c, hc, rfl⟩ := List.mem_map.1 hx
        have h1 : c.1 < a := by simpa using (List.mem_filter.1 hc).2
        omega
      · obtain ⟨c, hc, rfl⟩ := List.mem_map.1 hx
        have := (cellsOf_ge hc).2.1
        omega
  · intro c hc
    simp only [memPut, List.mem_append, List.mem_filter] at hc
    rcases hc with (hc | hc) | hc
    · exact hz c hc.1
    · exact (cellsOf_ge hc).2.2
    · exact hz c hc.1

/-- Cells filtered keep the canonical form. -/
theorem memWf_filter {m : List Host.Cell} (h : Memory.wf m) (p : Host.Cell → Bool) : Memory.wf (m.filter p) :=
  ⟨List.Pairwise.sublist (List.filter_sublist.map _) h.1, fun c hc => h.2 c (List.mem_filter.1 hc).1⟩

theorem memGet_append (m n : List Host.Cell) (x : Nat) (h : ∀ c ∈ m, c.1 ≠ x) : memGet (m ++ n) x = memGet n x := by
  induction m with
  | nil => rfl
  | cons p t ih =>
    obtain ⟨k, v⟩ := p
    have : k ≠ x := h (k, v) (by simp)
    simp only [List.cons_append, memGet, this, if_false]
    exact ih fun c hc => h c (by simp [hc])

theorem memGet_absent (m : List Host.Cell) (x : Nat) (h : ∀ c ∈ m, c.1 ≠ x) : memGet m x = 0 := by
  have := memGet_append m [] x h
  simpa [memGet] using this

theorem memGet_append_left (m n : List Host.Cell) (x : Nat) (h : ∀ c ∈ n, c.1 ≠ x) : memGet (m ++ n) x = memGet m x := by
  induction m with
  | nil => simp [memGet, memGet_absent n x h]
  | cons p t ih => obtain ⟨k, v⟩ := p; simp only [List.cons_append, memGet, ih]

theorem memGet_filter (m : List Host.Cell) (p : Host.Cell → Bool) (x : Nat) (h : ∀ c : Host.Cell, c.1 = x → p c = true) :
    memGet (m.filter p) x = memGet m x := by
  induction m with
  | nil => rfl
  | cons q t ih =>
    obtain ⟨k, v⟩ := q
    by_cases hk : k = x
    · rw [List.filter_cons, if_pos (h (k, v) hk)]; simp [memGet, hk]
    · simp only [List.filter_cons]; split <;> simp [memGet, hk, ih]

theorem memGet_cellsOf (a : Nat) (bs : Bytes) (i : Nat) : memGet (cellsOf a bs) (a + i) = bs.getD i 0 := by
  induction bs generalizing a i with
  | nil => simp [cellsOf, memGet]
  | cons b bs ih =>
    simp only [cellsOf]
    cases i with
    | zero =>
      split
      · rename_i hb
        rw [memGet_absent]
        · simp [hb]
        · intro c hc; have := (cellsOf_ge hc).1; omega
      · simp [memGet]
    | succ i =>
      have e : a + (i + 1) = a + 1 + i := by omega
      split
      · rw [e, ih]; simp
      · simp only [memGet]; rw [if_neg (by omega), e, ih]; simp

/-- A byte inside what is written reads as written. -/
theorem memGet_memPut_in (m : List Host.Cell) (a i : Nat) (bs : Bytes) (h : i < bs.length) : memGet (memPut m a bs) (a + i) = bs.getD i 0 := by
  simp only [memPut]
  rw [memGet_append_left, memGet_append, memGet_cellsOf]
  · intro c hc; have : c.1 < a := by simpa using (List.mem_filter.1 hc).2
    omega
  · intro c hc; have : a + bs.length ≤ c.1 := by simpa using (List.mem_filter.1 hc).2
    omega

/-- A byte outside what is written reads as before. -/
theorem memGet_memPut_out (m : List Host.Cell) (a x : Nat) (bs : Bytes) (h : x < a ∨ a + bs.length ≤ x) : memGet (memPut m a bs) x = memGet m x := by
  simp only [memPut]
  rcases h with h | h
  · rw [memGet_append_left, memGet_append_left, memGet_filter]
    · intro c hc; simpa [hc] using h
    · intro c hc; have := (cellsOf_ge hc).1; omega
    · intro c hc; have : a + bs.length ≤ c.1 := by simpa using (List.mem_filter.1 hc).2
      omega
  · rw [memGet_append, memGet_filter]
    · intro c hc; simpa [hc] using h
    · intro c hc
      rcases List.mem_append.1 hc with hc | hc
      · have : c.1 < a := by simpa using (List.mem_filter.1 hc).2
        omega
      · have := (cellsOf_ge hc).2.1; omega

/-- A run over rising cells none of which lies below it reads byte by byte. -/
theorem memRun_eq (m : List Host.Cell) (a n : Nat) (hs : (m.map Prod.fst).Pairwise (· < ·)) (ha : ∀ c ∈ m, a ≤ c.1) :
    memRun m a n = (List.range n).map fun i => memGet m (a + i) := by
  induction n generalizing m a with
  | zero => cases m <;> rfl
  | succ n ih =>
    rw [List.range_succ_eq_map]
    cases m with
    | nil =>
      simp only [memRun, memGet, List.map_cons, List.map_map]
      rw [ih [] (a + 1) List.Pairwise.nil (by simp)]
      rfl
    | cons p t =>
      obtain ⟨k, v⟩ := p
      have hk : ∀ y ∈ t.map Prod.fst, k < y := (List.pairwise_cons.1 hs).1
      have ht : (t.map Prod.fst).Pairwise (· < ·) := (List.pairwise_cons.1 hs).2
      have hka : a ≤ k := ha (k, v) (by simp)
      have hge : ∀ c ∈ t, k < c.1 := fun c hc => hk c.1 (List.mem_map.2 ⟨c, hc, rfl⟩)
      simp only [memRun, List.map_cons, List.map_map]
      split
      · rename_i e
        rw [ih t (a + 1) ht (fun c hc => by have := hge c hc; omega)]
        subst e
        have hne : ∀ i, ¬ (k = k + (i + 1)) := by intro i; omega
        simp [memGet, Function.comp_def, Nat.add_assoc, Nat.add_comm 1]
      · rename_i e
        have h0 : ∀ c ∈ t, c.1 ≠ a := fun c hc => by have := hge c hc; omega
        rw [ih ((k, v) :: t) (a + 1) hs (fun c hc => by
          rcases List.mem_cons.1 hc with rfl | hc
          · show a + 1 ≤ k; omega
          · have := hge c hc; omega)]
        congr 1
        · simp [memGet, e, memGet_absent t a h0]
        · apply List.map_congr_left; intro i _
          show memGet _ (a + 1 + i) = memGet _ (a + (i + 1))
          rw [Nat.add_assoc, Nat.add_comm 1]

theorem dropWhile_eq_filter (m : List Host.Cell) (a : Nat) (hs : (m.map Prod.fst).Pairwise (· < ·)) :
    m.dropWhile (fun c => decide (c.1 < a)) = m.filter fun c => decide (a ≤ c.1) := by
  induction m with
  | nil => rfl
  | cons p t ih =>
    have hk : ∀ y ∈ t.map Prod.fst, p.1 < y := (List.pairwise_cons.1 hs).1
    by_cases h : p.1 < a
    · have h' : ¬ a ≤ p.1 := by omega
      rw [List.dropWhile_cons_of_pos (by simpa using h), List.filter_cons_of_neg (by simpa using h')]
      exact ih (List.pairwise_cons.1 hs).2
    · have h' : a ≤ p.1 := by omega
      rw [List.dropWhile_cons_of_neg (by simpa using h), List.filter_cons_of_pos (by simpa using h'), List.filter_eq_self.2]
      intro c hc
      have := hk c.1 (List.mem_map.2 ⟨c, hc, rfl⟩)
      simp; omega

/-- Canonical memory reads byte by byte. -/
theorem memRead_eq (s : State) (h : Memory.wf s.mem) (a n : Nat) : memRead s a n = (List.range n).map fun i => memGet s.mem (a + i) := by
  simp only [memRead]
  rw [dropWhile_eq_filter _ _ h.1, memRun_eq _ _ _ (List.Pairwise.sublist (List.filter_sublist.map _) h.1)]
  · apply List.map_congr_left; intro i _
    rw [memGet_filter]
    intro c hc; simp [hc]
  · intro c hc; simpa using (List.mem_filter.1 hc).2

end Sys2Proof.Machine
end

