-- ==== Sys2Proof/Laws/Regs.lean ====
section
/-! SUPPORT. The sparse register store: reading after writing, and its form. -/

namespace Sys2Proof.Machine

theorem kvGet_put (l : List (Nat × Nat)) (a x b : Nat) : kvGet (kvPut l a x) b = if a = b then some x else kvGet l b := by
  induction l with
  | nil => simp [kvPut, kvGet]
  | cons p t ih =>
    obtain ⟨k, v⟩ := p
    simp only [kvPut]
    split
    · simp [kvGet]
    · split
      · subst_vars; simp [kvGet]; split <;> simp_all
      · simp only [kvGet, ih]; split <;> split <;> simp_all

/-- A key of the store after a write is the key written or one of before. -/
theorem mem_kvPut_keys {l : List (Nat × Nat)} {a x y : Nat} (h : y ∈ (kvPut l a x).map Prod.fst) : y = a ∨ y ∈ l.map Prod.fst := by
  induction l with
  | nil => simpa [kvPut] using h
  | cons p t ih =>
    obtain ⟨k, v⟩ := p
    simp only [kvPut] at h
    split at h
    · simpa using h
    · split at h
      · subst_vars; simpa using h
      · simp only [List.map_cons, List.mem_cons] at h ⊢
        rcases h with h | h
        · exact .inr (.inl h)
        · rcases ih h with h | h
          · exact .inl h
          · exact .inr (.inr h)

/-- Writing keeps the store's keys rising. -/
theorem kvPut_wf {l : List (Nat × Nat)} (h : kvWf l) (a x : Nat) : kvWf (kvPut l a x) := by
  induction l with
  | nil => exact List.pairwise_singleton _ _
  | cons p t ih =>
    obtain ⟨k, v⟩ := p
    have hk : ∀ y ∈ t.map Prod.fst, k < y := (List.pairwise_cons.1 h).1
    have ht : kvWf t := (List.pairwise_cons.1 h).2
    simp only [kvPut]
    split
    · rename_i hlt
      refine List.pairwise_cons.2 ⟨?_, h⟩
      intro y hy
      simp only [List.map_cons, List.mem_cons] at hy
      rcases hy with rfl | hy
      · exact hlt
      · exact Nat.lt_trans hlt (hk y hy)
    · split
      · subst_vars; exact List.pairwise_cons.2 ⟨hk, ht⟩
      · refine List.pairwise_cons.2 ⟨?_, ih ht⟩
        intro y hy
        rcases mem_kvPut_keys hy with rfl | hy
        · omega
        · exact hk y hy

/-- A store filtered keeps its form. -/
theorem kvWf_filter {l : List (Nat × Nat)} (h : kvWf l) (p : Nat × Nat → Bool) : kvWf (l.filter p) :=
  List.Pairwise.sublist (List.filter_sublist.map _) h

theorem getF_setF (s : State) (f g : Fld) (v : Nat) : getF (setF s f v) g = if fldKey f = fldKey g then v % 2 ^ f.width else getF s g := by
  simp only [getF, setF_regs, kvGet_put]; split <;> simp

@[simp] theorem getF_setF_same (s : State) (f : Fld) (v : Nat) : getF (setF s f v) f = v % 2 ^ f.width := by simp [getF_setF]

theorem getF_setF_other (s : State) {f g : Fld} (v : Nat) (h : fldKey f ≠ fldKey g) : getF (setF s f v) g = getF s g := by
  simp [getF_setF, h]

@[simp] theorem getF_memWrite (s : State) (a : Nat) (bs : Bytes) (f : Fld) : getF (memWrite s a bs) f = getF s f := rfl
@[simp] theorem getF_emit (s : State) (o : Out) (f : Fld) : getF (emit s o) f = getF s f := rfl
@[simp] theorem getF_emitAll (s : State) (os : List Out) (f : Fld) : getF (emitAll s os) f = getF s f := rfl
@[simp] theorem getF_reach (s : State) (t : Nat) (f : Fld) : getF (reach s t) f = getF s f := rfl
@[simp] theorem getF_fresh (s : State) (f : Fld) : getF (fresh s).2 f = getF s f := rfl
@[simp] theorem getF_freshBytes (s : State) (n : Nat) (f : Fld) : getF (freshBytes s n).2 f = getF s f := rfl
@[simp] theorem getF_putBucket (s : State) (t : TokenBucket) (f : Fld) : getF (putBucket s t) f = getF s f := rfl

theorem getF_countF (s : State) (f g : Fld) (n : Nat) (h : fldKey f ≠ fldKey g) : getF (countF s f n) g = getF s g := by
  simp only [countF]; split <;> simp [getF_setF, h]

/-- A counter below its top counts exactly. -/
theorem getF_countF_same (s : State) (f : Fld) (n : Nat) (h : getF s f + n < 2 ^ f.width) : getF (countF s f n) f = getF s f + n := by
  simp [countF, h, Nat.mod_eq_of_lt h]

/-- The fields the logbook front end writes: its two counters, HEAD and NEW. -/
theorem getF_logSubmit (s : State) (src c a b d e : Nat) (g : Fld) (h1 : fldKey F.LOG_CNT_SUPPRESSED_COUNT ≠ fldKey g)
    (h2 : fldKey F.LOG_HEAD_SEQ ≠ fldKey g) (h3 : fldKey F.LOG_STATUS_NEW ≠ fldKey g) (h4 : fldKey F.LOG_CNT_ACCEPTED_COUNT ≠ fldKey g) :
    getF (logSubmit s src c a b d e).1 g = getF s g := by
  have sup : ∀ t, getF (logSuppress s t) g = getF s g := by intro t; simp only [logSuppress]; rw [getF_countF _ _ _ _ h1]; rfl
  have acc : ∀ t, getF (logAccept s src c a b d e t) g = getF s g := by
    intro t; simp only [logAccept]; rw [getF_countF _ _ _ _ h4, getF_setF, if_neg h3, getF_setF, if_neg h2]; rfl
  simp only [logSubmit]
  split
  · rfl
  · split
    · exact sup _
    · split
      · exact acc _
      · split
        · exact sup _
        · exact acc _

end Sys2Proof.Machine
end

