-- ==== Sys2Proof/Laws/Inv.lean ====
section
/-! SUPPORT. What keeps the form `State.Inv`: every named operation over registers, memory, time, output, free values and the logbook. -/

namespace Sys2Proof.Machine

/-- The form rests on four fields: a state that has them from another has it too. -/
theorem State.Inv.congr {s t : State} (h : s.Inv) (h1 : t.regs = s.regs) (h2 : t.shadow = s.shadow) (h3 : t.mem = s.mem)
    (h4 : t.pj.vault = s.pj.vault) : t.Inv := by
  simpa only [State.Inv, h1, h2, h3, h4] using h

theorem State.Inv.setF {s : State} (h : s.Inv) (f : Fld) (v : Nat) : (setF s f v).Inv :=
  ⟨kvPut_wf h.1 _ _, h.2.1, h.2.2.1, h.2.2.2⟩

theorem State.Inv.memWrite {s : State} (h : s.Inv) (a : Nat) (bs : Bytes) : (memWrite s a bs).Inv :=
  ⟨h.1, h.2.1, memPut_wf h.2.2.1 _ _, h.2.2.2⟩

theorem State.Inv.emit {s : State} (h : s.Inv) (o : Out) : (emit s o).Inv := h
theorem State.Inv.emitAll {s : State} (h : s.Inv) (os : List Out) : (emitAll s os).Inv := h
theorem State.Inv.reach {s : State} (h : s.Inv) (t : Nat) : (reach s t).Inv := h
theorem State.Inv.fresh {s : State} (h : s.Inv) : (fresh s).2.Inv := h
theorem State.Inv.freshBytes {s : State} (h : s.Inv) (n : Nat) : (freshBytes s n).2.Inv := h
theorem State.Inv.putBucket {s : State} (h : s.Inv) (t : TokenBucket) : (putBucket s t).Inv := h

theorem State.Inv.countF {s : State} (h : s.Inv) (f : Fld) (n : Nat) : (countF s f n).Inv := by
  simp only [Machine.countF]; split
  · exact h.setF _ _
  · exact State.Inv.setF (State.Inv.fresh h) _ _

theorem State.Inv.bumpF {s : State} (h : s.Inv) (f : Fld) (n : Nat) : (bumpF s f n).Inv := h.setF _ _

theorem State.Inv.logSuppress {s : State} (h : s.Inv) (t : TokenBucket) : (logSuppress s t).Inv :=
  State.Inv.countF (State.Inv.putBucket h _) _ _

theorem State.Inv.logAccept {s : State} (h : s.Inv) (a b c d e f : Nat) (t : TokenBucket) : (logAccept s a b c d e f t).Inv := by
  simp only [Machine.logAccept]
  refine State.Inv.countF (State.Inv.setF (State.Inv.setF ?_ _ _) _ _) _ _
  exact State.Inv.congr (s := s) h rfl rfl rfl rfl

theorem State.Inv.logSubmit {s : State} (h : s.Inv) (a b c d e f : Nat) : (logSubmit s a b c d e f).1.Inv := by
  simp only [Machine.logSubmit]
  split
  · exact h
  · split
    · exact h.logSuppress _
    · split
      · exact h.logAccept _ _ _ _ _ _ _
      · split
        · exact h.logSuppress _
        · exact h.logAccept _ _ _ _ _ _ _

theorem State.Inv.logEv {s : State} (h : s.Inv) (c a b d : Nat) : (logEv s c a b d).Inv := h.logSubmit _ _ _ _ _ _
theorem State.Inv.logCox {s : State} (h : s.Inv) (c a b d : Nat) : (logCox s c a b d).Inv := h.logSubmit _ _ _ _ _ _
theorem State.Inv.logCrew {s : State} (h : s.Inv) (c : Nat) : (logCrew s c).Inv :=
  State.Inv.logSubmit (State.Inv.fresh (State.Inv.fresh (State.Inv.fresh (State.Inv.fresh h)))) _ _ _ _ _ _

theorem State.Inv.fabLatch {s : State} (h : s.Inv) (k r : Nat) (w : Bool) (a : Nat) : (fabLatch s k r w a).Inv := by
  simp only [Machine.fabLatch]
  refine State.Inv.logEv ?_ _ _ _ _
  split
  · exact (h.setF _ _).setF _ _
  · exact ((((h.setF _ _).setF _ _).setF _ _).setF _ _).setF _ _

theorem State.Inv.pulse {s : State} (h : s.Inv) (n : Nat) : (pulse s n).Inv := by
  simp only [Machine.pulse]; split
  · exact h
  · exact h.congr rfl rfl rfl rfl

/-- A fold of operations that keep the form keeps it. -/
theorem State.Inv.foldl {α : Type} {s : State} (h : s.Inv) (l : List α) (f : State → α → State) (hf : ∀ t x, t.Inv → (f t x).Inv) :
    (l.foldl f s).Inv := by
  induction l generalizing s with
  | nil => exact h
  | cons x l ih => exact ih (hf s x h)

end Sys2Proof.Machine
end

