-- ==== Sys2Proof/Laws/Peek.lean ====
section
/-! SUPPORT. What crew firmware reads in memory when the staging cache holds no line and evicts none, and the fields of what it reads. -/

namespace Sys2Proof.Machine

/-- Memory read in two parts. -/
theorem memRead_add (s : State) (h : Memory.wf s.mem) (a m n : Nat) : memRead s a (m + n) = memRead s a m ++ memRead s (a + m) n := by
  simp only [memRead_eq s h, List.range_add, List.map_append, List.map_map]
  congr 1
  apply List.map_congr_left; intro i _; simp [Nat.add_assoc]

/-- The pieces of a range, line by line, join to the range. -/
theorem linePieces_join (s : State) (h : Memory.wf s.mem) (k : Nat) : ∀ a n, n + a % 256 ≤ 256 * k →
    ((linePieces k a n).map fun p => memRead s p.1 p.2).flatten = memRead s a n := by
  induction k with
  | zero => intro a n hn; have : n = 0 := by omega
            subst this; simp [linePieces, memRead_eq s h]
  | succ k ih =>
    intro a n hn
    by_cases h0 : n = 0
    · subst h0; simp [linePieces, memRead_eq s h]
    · simp only [linePieces, h0, if_false, List.map_cons, List.flatten_cons]
      by_cases hs : n ≤ 256 - a % 256
      · have hz : linePieces k (a + n) 0 = [] := by cases k <;> simp [linePieces]
        rw [Nat.min_eq_left hs, Nat.sub_self, hz]; simp
      · rw [Nat.min_eq_right (by omega), ih (a + (256 - a % 256)) (n - (256 - a % 256)) (by omega), ← memRead_add s h]
        congr 1; omega

/-- With no line held and none evicted, what crew firmware reads is what stands in memory. -/
theorem peek_eq (s : State) (h : Memory.wf s.mem) (hl : s.sc.lines = []) (he : s.sc.evict = []) (a n : Nat) : peek s a n = memRead s a n := by
  have hp : ∀ x m, peekLine s x m = memRead s x m := by
    intro x m
    simp only [peekLine, heldLine, evicting, hl, he, List.find?_nil, ite_self]
  simp only [peek, hp]
  split
  · exact linePieces_join s h _ a n (by omega)
  · rfl

/-- A part of what was read. -/
theorem slice_memRead (s : State) (h : Memory.wf s.mem) (a n o k : Nat) (hk : o + k ≤ n) : slice (memRead s a n) o k = memRead s (a + o) k := by
  obtain ⟨r, rfl⟩ := Nat.exists_eq_add_of_le hk
  have hlen : ∀ x m, (memRead s x m).length = m := by intro x m; simp [memRead_eq s h]
  rw [memRead_add s h, memRead_add s h, slice, List.append_assoc, List.drop_append_of_le_length (by simp [hlen]),
    List.drop_of_length_le (by simp [hlen]), List.nil_append, List.take_append_of_le_length (by simp [hlen]), List.take_of_length_le (by simp [hlen])]

/-- A field of what was read is the number read at its place. -/
theorem fld_memRead (s : State) (h : Memory.wf s.mem) (a n o k : Nat) (hk : o + k ≤ n) : fld (memRead s a n) o k = leNat (memRead s (a + o) k) := by
  rw [fld, slice_memRead s h a n o k hk]

end Sys2Proof.Machine
end

