-- ==== Sys2Proof/Laws/Runs.lean ====
section
/-! SUPPORT. What the shared frames of the commands do once their turn has come: each runs its continuation on the state of the turn. -/

namespace Sys2Proof.Machine

theorem whileCore_run {s : State} {k : State → Res} (h : coreLive s = true) : whileCore s k = k s := by simp [whileCore, h]

theorem whileCore_off {s : State} {k : State → Res} (h : coreLive s = false) : whileCore s k = .next s := by simp [whileCore, h]

theorem coreStore_run {s : State} {core a : Nat} {u : State} {k : State → Res} (h : StoreTurn s core a u) : coreStore s core a k = k u := by
  obtain ⟨h1, h2, rfl⟩ := h
  have : domainOn (coreActs s core) (regDomain a) = true := h2
  simp [coreStore, coreRuns, h1, this]

theorem onCmd_run {s : State} {cmd op : Nat} {c : Cmd} {run : State → Cmd → Res} (h : CmdTurn s cmd op c) :
    onCmd s cmd op run = run s { c with started := true } := by
  obtain ⟨h1, h2, h3⟩ := h
  simp [onCmd, whileCore, *]

theorem onPeer_run {s : State} {op id : Nat} {b : Bytes} {u : State} {run : State → Nat → Bytes → Res} (h : PeerTurn s op id b u) :
    onPeer op s run = run u id b := by
  obtain ⟨h1, h2, rfl⟩ := h
  simp only [onPeer, whileCore, h1, h2, if_true]

theorem keyRow_run {s : State} {cmd op : Nat} {c : Cmd} {p : KeyPlace} {run : State → Cmd → KeyPlace → Res} (h : KeyTurn s cmd op c p) :
    keyRow cmd op s run = run s { c with started := true } p := by
  obtain ⟨h1, h2, h3, h4, rfl, h6, h7, h8, h9⟩ := h
  simp [keyRow, onCmd, whileCore, *]

theorem changeRow_run {s : State} {cmd op : Nat} {c : Cmd} {p : KeyPlace} {b : Bytes} {u : State}
    {run : State → Cmd → KeyPlace → Bytes → Res} (h : ChangeTurn s cmd op c p b u) :
    changeRow cmd op s run = run u { c with started := true } p b := by
  obtain ⟨h1, h2, h3, h4, h5, v, h6, h7⟩ := h
  simp only [changeRow, keyRow_run h1]
  simp [*]

theorem packCommand_run {s : State} {c : Cmd} {p : KeyPlace} {rec_ : Bytes} {change : Nat → Nat → Bytes} {reply : Bytes} {waits : Nat}
    {kept : State → State} {t : State} (h : Packed s c p rec_ change reply waits kept t) :
    packCommand s c p (capNsid c.capsule) rec_ change reply waits kept = .next t := by
  unfold Packed at h
  obtain ⟨stripe, unit, off, v, w, fs, h0, h1, h2, h3, h4⟩ := h
  unfold packCommand
  rw [h0, h1, h2, h4]
  simp only [h3, Bool.false_eq_true, if_false, Bool.not_true]

theorem pairTake_run {s : State} {p : Nat} {c : PairCh} {body : Bytes} {seq : Nat} {u : State} {run : State → PairCh → Bytes → Option State}
    {v t : State} (h : PairFrame s p c body seq u) (hp : p ≠ 2) (hr : run u c body = some v) (ht : PairTaken v c seq t) :
    pairTake p s run = .next t := by
  obtain ⟨h1, f, rest, w, d, key, h2, h3, h4, h5, h6, h7, h8, h9, h10, h11, h12⟩ := h
  obtain ⟨e, he, rfl⟩ := ht
  have := h12 hp
  simp only [pairTake, h2]
  rw [if_neg (by simpa using h4)]
  simp only [← h3, h5, h6, ← h7, h8, ← h9, ← h10, if_neg hp]
  rw [if_neg (by simpa [this] using this.2.2)]
  simp only [hr, he]

theorem pairTake_ack {s : State} {c : PairCh} {body : Bytes} {seq : Nat} {u : State} {run : State → PairCh → Bytes → Option State} {v : State}
    (h : PairFrame s 2 c body seq u) (hr : run u { c with ackRx := seq } body = some v) : pairTake 2 s run = .next v := by
  obtain ⟨h1, f, rest, w, d, key, h2, h3, h4, h5, h6, h7, h8, h9, h10, h11, h12⟩ := h
  have := h11 rfl
  simp only [pairTake, h2]
  rw [if_neg (by simpa using h4)]
  simp only [← h3, h5, h6, ← h7, h8, ← h9, ← h10, if_true]
  rw [if_neg (by omega)]
  simp only [hr]

theorem onMailbox_run {s : State} {op lo hi c : Nat} {p : Bytes} {k : State → Nat → Bytes → Res} (h : MailTurn s op lo hi c p) :
    onMailbox op lo hi s k = k s c p := by
  obtain ⟨h1, h2, h3, h0, h4, h5, h6, h7, h8, rfl⟩ := h
  simp only [onMailbox]
  rw [if_neg (by simp [h1, h2, h3, h0])]
  simp only [h4]
  rw [if_neg (by simp [h5]), if_neg (by simp [h6]), if_neg (by omega)]

theorem onResponder_run {s : State} {op : Nat} {f : Bytes} {u : State} {run : State → Bytes → State} (h : ResponderTurn s op f u) :
    onResponder op s run = .next (run u f) := by
  obtain ⟨h1, h2, rest, h3, rfl⟩ := h
  simp [onResponder, h1, h2, h3]

theorem onService_run {s : State} {op : Nat} {f : Bytes} {u : State} {run : State → Bytes → Res} (h : ServiceTurn s op f u) :
    onService op s run = run u f := by
  obtain ⟨h1, h2, h3, rest, h4, h5⟩ := h
  simp only [onService]
  rw [if_neg (by simp [h1, h2])]
  simp [h4, h3, h5]

theorem fcStart_run {s : State} {queue index op n : Nat} {t : Taken} {start : State → Nat → Taken → Res} (h : FcTurn s queue index op n t) :
    fcStart queue index op s start = start s n t := by
  obtain ⟨h1, h2, h3, h4, h5, h6, h7, h8, h9⟩ := h
  simp only [fcStart, h2, h3, h5, h6, h7, h8, h9]
  rw [if_neg (by omega)]
  simp

theorem dmaStart_run {u : State} {n a : Nat} {t : State} (h : DmaStarts u n a t) : dmaStart u n a = .next t := by
  obtain ⟨v, d, h1, h2, rfl, h4, h5⟩ := h
  unfold dmaStart
  simp only
  rw [show chanOf u n = chanOf (setChanState (setF u (F.DMA_CH_DESC_ADDR n) (a / 64)) n 1) n from rfl] at *
  rw [h1]
  simp only [h2]
  rw [if_neg (by simp), if_neg (by rw [h4]; simp), if_neg (by rw [h5]; simp)]

theorem placeRing_idle {s : State} {p r : Nat} (h : RingIdle s p r) (k : Nat) : placeRing k s p r = .next s := by
  cases k with
  | zero => rfl
  | succ k =>
    simp only [placeRing]
    cases hf : (macOf s p).store.find? fun f => f.ring == r with
    | none => rfl
    | some f =>
      rcases h f hf with h | h
      · simp [h]
      · simp [h]

theorem placeAll_run {s : State} {p r : Nat} {t : State} (h : RingPlaces s p r t) : placeAll s p r = .next t := by
  rcases h with ⟨h, rfl⟩ | ⟨f, w, h1, h2, h3, h4, h5, h6⟩
  · exact placeRing_idle h _
  · simp only [placeAll, placeRing, h1]
    rw [if_neg (by simp [h2]; omega), h4]
    simp only
    rw [← h5]
    exact placeRing_idle h6 _

theorem storeAdmit_run {s : State} {p r : Nat} {frame : Bytes} {cls : Nat} {hit : Bool} {t : State} (h : StoreTakes s p r frame cls hit t) :
    storeAdmit s p r frame cls hit = .next t := by
  unfold StoreTakes StoreRoom at h
  simp only [storeAdmit]
  by_cases p2 : p = 2
  · subst p2
    simp only [if_true] at h ⊢
    rcases h with ⟨h, rfl⟩ | ⟨h, h'⟩
    · rw [if_pos (by simp; omega)]
    · rw [if_neg (by simp; omega)]; exact placeAll_run h'
  · simp only [p2, if_false] at h ⊢
    rcases h with ⟨h, rfl⟩ | ⟨h, h'⟩
    · rw [if_pos (by simp only [Bool.not_eq_true', Bool.and_eq_false_iff, decide_eq_false_iff_not]; omega)]
    · rw [if_neg (by simp only [Bool.not_eq_true', Bool.and_eq_false_iff, decide_eq_false_iff_not]; omega)]; exact placeAll_run h'

theorem remake_run {s : State} {user group stripe pos gen : Nat} {t : State} (h : Remade s user group stripe pos gen t) :
    remake s user group stripe pos gen = .next (t, some true) := by
  obtain ⟨x, v, d, dec, reps, unit, h1, h2, h3, h4, h5⟩ := h
  unfold remake
  simp only [h1, h2, ← h3]
  split
  · rename_i h; rw [h4 h.1 h.2]
  · rename_i h; obtain ⟨w, h6, h7⟩ := h5 h; simp only [h6, h7]

theorem rigStageEnd_run {s t : State} (h : LoaderEnds s t) : rigStageEnd s = .next t := by
  rcases h with ⟨r, code, p1, p2, p3, rfl⟩ | ⟨r, c, self, img, z, p1, p2, p3, p4, p5, p6, p7, p8, rfl⟩
  · subst p2 p1
    unfold rigStageEnd
    dsimp only
    rw [if_pos p3]
  · subst p8 p7 p4 p2 p1
    unfold rigStageEnd
    dsimp only
    rw [if_neg (by rw [p3]; decide), if_neg (by rw [p5]; decide), p6]

end Sys2Proof.Machine
end

