-- ==== Sys2Proof/Laws/Store.lean ====
section
/-! SUPPORT. What a store of crew firmware leaves as it was while the staging cache is off. -/

namespace Sys2Proof.Machine

theorem getF_dramStore (s : State) (a : Nat) (b : Bytes) {g : Fld} (h : fldKey F.DMC_CNT_WR_BYTES_COUNT ≠ fldKey g) : getF (dramStore s a b) g = getF s g := by
  simp only [dramStore]
  split <;> exact getF_countF _ _ _ _ h

theorem dramStore_pj (s : State) (a : Nat) (b : Bytes) : (dramStore s a b).pj = s.pj := by
  simp only [dramStore]
  split <;> (simp only [countF]; split <;> rfl)

theorem scWrite_off (s : State) (rid a : Nat) (b : Bytes) (h : scOn s = false) :
    (scWrite s rid a b).pj = s.pj ∧ ∀ g : Fld, fldKey F.DMC_CNT_WR_BYTES_COUNT ≠ fldKey g → getF (scWrite s rid a b) g = getF s g := by
  simp only [scWrite, h, Bool.not_false, if_true, offStore]
  split <;> exact ⟨dramStore_pj s a b, fun g hg => getF_dramStore s a b hg⟩

theorem scWriteAll_off (ps : List (Nat × Nat)) : ∀ (s : State) (rid : Nat) (b : Bytes), scOn s = false → (scWriteAll ps s rid b).pj = s.pj ∧
    ∀ g : Fld, fldKey F.DMC_CNT_WR_BYTES_COUNT ≠ fldKey g → getF (scWriteAll ps s rid b) g = getF s g := by
  induction ps with
  | nil => intro s rid b _; exact ⟨rfl, fun _ _ => rfl⟩
  | cons p ps ih =>
    intro s rid b h
    obtain ⟨h1, h2⟩ := scWrite_off s rid p.1 (b.take p.2) h
    have h3 : scOn (scWrite s rid p.1 (b.take p.2)) = false := by
      rw [← h]; simp only [scOn, flag]; rw [h2 _ (by decide)]
    obtain ⟨h4, h5⟩ := ih (scWrite s rid p.1 (b.take p.2)) rid (b.drop p.2) h3
    exact ⟨h4.trans h1, fun g hg => (h5 g hg).trans (h2 g hg)⟩

/-- A store of crew firmware that memory takes, with the cache off, changes no register but the controller's count of bytes written, and nothing of
the journal. -/
theorem crewStore_off (s : State) (a : Nat) (b : Bytes) (h : scOn s = false) (hm : memFault s a b.length true = none) :
    (crewStore s a b).pj = s.pj ∧ ∀ g : Fld, fldKey F.DMC_CNT_WR_BYTES_COUNT ≠ fldKey g → getF (crewStore s a b) g = getF s g := by
  simp only [crewStore, storeAs, fabWrite]
  split
  · exact ⟨rfl, fun _ _ => rfl⟩
  · simp only [hm]
    split
    · exact scWriteAll_off _ s 0 b h
    · exact ⟨rfl, fun _ _ => rfl⟩

/-- The room of the ring is as before such a store. -/
theorem ringRoom_crewStore (s : State) (a : Nat) (b : Bytes) (n : Nat) (h : scOn s = false) (hm : memFault s a b.length true = none) :
    ringRoom (crewStore s a b) n = ringRoom s n := by
  obtain ⟨h1, h2⟩ := crewStore_off s a b h hm
  simp only [ringRoom, padNeeded, pjHead, pjTail, pjRingBytes, flag, h1]
  rw [h2 _ (by decide), h2 _ (by decide), h2 _ (by decide)]; rfl

/-- A unit of 64 KiB is journaled where a slot is free and the ring has room. -/
theorem journalFragment_room {s : State} {i : Nat} (group stripe pos gen k m ucrc keeper intent : Nat) (unit : Bytes) (hs : slotsFree s 1 = some [i])
    (hr : ringRoom s 128 = true) (h : scOn s = false) (hm : memFault s (slotAddr64 s i) 65536 true = none) :
    ∃ t, journalFragment s group stripe pos gen k m ucrc keeper intent false unit = some t := by
  have hl : (fit unit 65536).length = 65536 := by simp [fit, zeros]; omega
  have hb : alignUp (64 + (fragmentBody stripe pos 0 gen k m i ucrc keeper).length) 64 = 128 := by
    have : ∀ n v, (le n v).length = n := by
      intro n; induction n with
      | zero => intro v; rfl
      | succ n ih => intro v; simp [le, ih]
    simp [fragmentBody, this, zeros, alignUp]
  rw [journalFragment]
  simp only [hs, hr, pjAppend, hb, ringRoom_crewStore s _ _ _ h (hl ▸ hm), Bool.not_true, Bool.false_eq_true, if_false]
  exact ⟨_, rfl⟩

end Sys2Proof.Machine
end

