-- ==== Sys2Proof/Tests/Slice0.lean ====
section
/-! SUPPORT. The tests: ill-formed commands refused (WellFormed), known answers of the named algorithms from their standards, and for every
statement with hypotheses a state and operands that meet them (`test_hyps_<statement>`, one for each clause where the clauses differ). Where
a hypothesis asks something of an opaque constant of Config (the hull number, a signature check), its witness takes that as a premise. -/

namespace Sys2Proof.Tests
open Sys2Proof.Machine
set_option Elab.async false

theorem test_wf_refuses_0 : (([
  .fence 8, .fenceI 8, .wfi 8, .registerWrite 16 0 0 0 0, .registerWrite 0 8 0 0 0, .registerWrite 0 0 (2 ^ 48) 0 0, .registerWrite 0 0 0 9 0,
  .registerWrite 0 0 0 0 (2 ^ 64), .rcCounterRead 16 0 0 0, .rcCounterRead 0 8 0 0, .rcCounterRead 0 0 (2 ^ 48) 0, .rcCounterRead 0 0 0 9, .fabErrClear 8,
  .irqClaim 8, .irqComplete 8 0, .irqComplete 0 512, .machineTimerExpiry 8, .rocePacketReceived 65536 0 0 0 0 0, .rocePacketReceived 0 2 0 0 0 0,
  .rocePacketReceived 0 0 2 0 0 0, .rocePacketReceived 0 0 0 256 0 0, .rocePacketReceived 0 0 0 0 2 0, .rocePacketReceived 0 0 0 0 0 2, .cnpReceived 65536,
  .rateRecoveryExpiry 65536, .cmReq (2 ^ 64) 0 0 0 0 0 0, .cmReq 0 (2 ^ 32) 0 0 0 0 0, .cmReq 0 0 65536 0 0 0 0, .cmReq 0 0 0 65536 0 0 0,
  .cmReq 0 0 0 0 32 0 0, .cmReq 0 0 0 0 0 8 0, .cmReq 0 0 0 0 0 0 8, .cmRtu 65536, .cmDreq 65536, .qpRetryExhausted 65536, .handshakeTimerExpiry 65536,
  .capsule 65536 [], .open 262144, .auth 262144, .close 262144, .nop 262144, .resultFetch 262144, .resultRelease 262144, .rdmaReadResponse 65536 [],
  .rdmaErrorNak 65536, .hteSessHoldWrite 8 0, .hteSessHoldWrite 0 (2 ^ 64), .hteReply 8192, .hteRdmaRead 8192, .hteRdmaWrite 8192, .hteSend 8192,
  .hteRxPost 8192, .hteClose 8192, .peerMessage 65536 [], .peerReplyReceived 65536 []] : List Instr).all fun i => !i.wf) = true := by decide +kernel

theorem test_wf_refuses_1 : (([
  .put 262144, .get 262144, .delete 262144, .exists 262144, .cas 262144, .list 262144, .discard 262144, .retain 262144, .release 262144, .fixity 262144,
  .stat 262144, .life 262144, .nsCreate 262144, .nsSet 262144, .nsDelete 262144, .tenantSet 262144, .tenantDelete 262144, .tenantQuery 262144,
  .clockSet 262144, .ptpTimeApply (2 ^ 48) 0, .ptpTimeApply 0 1000000000, .sealTimerExpiry (2 ^ 32) 0, .sealTimerExpiry 0 4096, .bucketLoad 65536 0,
  .bucketLoad 0 65536, .bucketWriteback 65536 0, .bucketWriteback 0 65536, .bucketEvict 65536 0, .bucketEvict 0 65536,
  .indexRebuildFromStripes (2 ^ 32) [], .indexRebuildFromStripes 0 [65536], .peerSessionOpen (2 ^ 64) 0, .peerSessionOpen 0 3, .fragWriteResend (2 ^ 64),
  .groupStatusTimer (2 ^ 32), .formingTimeout (2 ^ 32), .adminRecordResend (2 ^ 64) 0, .adminRecordResend 0 (2 ^ 64), .stripeRewrite (2 ^ 32) 0,
  .stripeRewrite 0 (2 ^ 64), .esTest 8 0, .esTest 0 65536, .esTestEnd 65536, .pjEnable 8, .pjVmapWrite 8 0 0, .pjVmapWrite 0 512 0,
  .pjVmapWrite 0 0 (2 ^ 64), .pjRestore 8, .pjAllocReq 8 0, .pjAllocReq 0 (2 ^ 32), .pjAllocRead 8 0, .pjAllocRead 0 9, .pairResendTimer (2 ^ 64),
  .pairAckTimer (2 ^ 64), .pairPathChange (2 ^ 64) 0] : List Instr).all fun i => !i.wf) = true := by decide +kernel

theorem test_wf_refuses_2 : (([
  .pairPathChange 0 2, .leaseLapse (2 ^ 64), .takeoverTimer (2 ^ 64), .handbackStart (2 ^ 64), .handbackResend (2 ^ 64), .fragCommitResend (2 ^ 32) 0,
  .fragCommitResend 0 (2 ^ 64), .probeResend (2 ^ 32) 0, .probeResend 0 (2 ^ 64), .seatSilenceExpiry (2 ^ 32) 0, .seatSilenceExpiry 0 32,
  .writeLimitExpiry (2 ^ 64), .fragReadDeadline (2 ^ 64), .degradedReadRetry 262144, .localRepair (2 ^ 32), .rebuildStart (2 ^ 32),
  .rebuildPosition (2 ^ 32), .rebuildRateSample (2 ^ 32) 0, .rebuildRateSample 0 (2 ^ 64), .rebuildProgressTimer (2 ^ 32), .rigCtrlStage 8,
  .rigCtrlActivate 8, .rigCtrlDiscard 8, .ecEncode 8192, .ecDecode 8192, .ecCheck 8192, .ecEntryEnd 8192, .fphPush 8 0, .fphPush 0 1040, .fphPop 8 0,
  .fphPop 0 1040, .fphPeek 8 0, .fphPeek 0 1040, .fphClear 8 0, .fphClear 0 1040, .collection 1024 0, .collection 0 2, .migration 2 0, .migration 0 2,
  .programFailure 524288 [] 0, .programFailure 0 [2 ^ 32] 0, .programFailure 0 [] 2, .lunDeclareFailed 1024, .sweep [(2 ^ 32, 0)], .sweep [(0, 2 ^ 16)],
  .readRetry 524288 0 0 0, .readRetry 0 65536 0 0, .readRetry 0 0 16 0, .readRetry 0 0 0 (2 ^ 16), .fullScan 2 [], .fullScan 0 [2 ^ 32],
  .vaultSetReplace 512, .channelReady 32 [], .channelReady 0 (List.replicate 9 ([], 0, 0)), .fcRead 8192 0] : List Instr).all fun i => !i.wf) = true := by decide +kernel

theorem test_wf_refuses_3 : (([
  .fcRead 0 (2 ^ 32), .fcProgram 8192 0, .fcProgram 0 (2 ^ 32), .fcErase 8192 0, .fcErase 0 (2 ^ 32), .fcReadHeader 8192 0, .fcReadHeader 0 (2 ^ 32),
  .fcFeature 8192 0, .fcFeature 0 (2 ^ 32), .fcResetLun 8192 0, .fcResetLun 0 (2 ^ 32), .fcOperationEnd 32 0 0 0 0 0 0, .fcOperationEnd 0 32 0 0 0 0 0,
  .fcOperationEnd 0 0 2 0 0 0 0, .fcOperationEnd 0 0 0 (2 ^ 16) 0 0 0, .fcOperationEnd 0 0 0 0 2 0 0, .fcOperationEnd 0 0 0 0 0 (2 ^ 32) 0,
  .fcOperationEnd 0 0 0 0 0 0 (2 ^ 32), .fcLunTimeout 32 0, .fcLunTimeout 0 32, .lunResetTimeout 32 0, .lunResetTimeout 0 32, .fcRevive 8 0 0 0,
  .fcRevive 0 32 0 0, .fcRevive 0 0 32 0, .fcRevive 0 0 0 2, .sequencerFault 32, .lunTempPoll 32 0 0 0, .lunTempPoll 0 32 0 0, .lunTempPoll 0 0 2 0,
  .lunTempPoll 0 0 0 256, .fcGroupWindowWrite 16 0 0 0 0 0 0, .fcGroupWindowWrite 0 8 0 0 0 0 0, .fcGroupWindowWrite 0 0 9 0 0 0 0,
  .fcGroupWindowWrite 0 0 0 (2 ^ 20) 0 0 0, .fcGroupWindowWrite 0 0 0 0 9 0 0, .fcGroupWindowWrite 0 0 0 0 0 (2 ^ 64) 0,
  .fcGroupWindowWrite 0 0 0 0 0 0 (2 ^ 32), .scAccess 16 0 0 0 0 [] 0, .scAccess 0 8 0 0 0 [] 0, .scAccess 0 0 (2 ^ 48) 0 0 [] 0,
  .scAccess 0 0 0 257 0 [] 0, .scAccess 0 0 0 0 3 [] 0, .scAccess 0 0 0 0 0 [] 6, .scFillComplete 16, .scEvictionDone (2 ^ 40) 0, .scEvictionDone 0 5,
  .scWayDisableEnd 16, .scWayEnable 8 0, .scWayEnable 0 65536, .scClean 8 0, .scClean 0 2, .scInvalidate 8 0, .scInvalidate 0 2, .scCleanInvalidate 8 0] : List Instr).all fun i => !i.wf) = true := by decide +kernel

theorem test_wf_refuses_4 : (([
  .scCleanInvalidate 0 2, .scMaintEnd (2 ^ 40) 0, .scMaintEnd 0 5, .scPrefetchHint 8 0 0, .scPrefetchHint 0 512 0, .scPrefetchHint 0 0 16, .scDisable 8,
  .scEnable 8, .dmcScrub (2 ^ 48) 0, .dmcScrub 0 5, .dmcTempRefresh 2, .wqDoorbellSq 8192, .wqDoorbellCq 8192, .wqPoll 8192, .wqEntryTake 8192,
  .wqCompletionDue 8192, .wqNop 8192, .wqHold 8192, .wqUnhold 8192, .create 8192, .destroy 8192, .destroyDrained 8192, .restart 8192, .wqLrestart 64,
  .dmaGo 8 0, .dmaGo 0 32, .dmaRun 8192, .dmaKick 8 0, .dmaKick 0 32, .dmaStop 8 0, .dmaStop 0 32, .dmaResume 8 0, .dmaResume 0 32, .dmaAbort 8 0,
  .dmaAbort 0 32, .dmaBurstGrant 32, .dmaBurstWritten 32, .dmaPeripheralLast 32 0, .dmaPeripheralLast 0 (2 ^ 32), .dmaPeripheralAbort 32,
  .dmaDescriptorEnd 32, .dmaReqSet 8 0, .dmaReqSet 0 (2 ^ 32), .dmaReqClr 8 0, .dmaReqClr 0 (2 ^ 32), .dmaCqCiWrite 8 0, .dmaCqCiWrite 0 (2 ^ 32),
  .asuSearchGo 8 0, .asuSearchGo 0 4, .asuSearchResult 8, .asuStepNext 8, .asuEntryWrite 8 0 0 0, .asuEntryWrite 0 2 0 0, .asuEntryWrite 0 0 64 0,
  .asuEntryWrite 0 0 0 2048] : List Instr).all fun i => !i.wf) = true := by decide +kernel

theorem test_wf_refuses_5 : (([
  .asuEntryRead 8 0 0, .asuEntryRead 0 64 0, .asuEntryRead 0 0 2048, .asuMove 8 0 0 0 0, .asuMove 0 2 0 0 0, .asuMove 0 0 64 0 0, .asuMove 0 0 0 2048 0,
  .asuMove 0 0 0 0 2048, .asuBankCfgWrite 8 0 0, .asuBankCfgWrite 0 64 0, .asuBankCfgWrite 0 0 (2 ^ 64), .asuSearch 8192, .cipGcmEnc 8192, .cipGcmDec 8192,
  .cipXtsEnc 8192, .cipXtsDec 8192, .cipUnwrap 8192, .cipGenkey 8192, .cipExport 8192, .cipClear 8192, .cipEntryEnd 8192, .digUpdate 8192,
  .digEntryEnd 8192, .portLinkUp 3, .portLinkDown 3, .frameReceived 2 0 [], .frameReceived 0 4 [], .pauseFrame 2 0, .pauseFrame 0 65536, .pfcFrame 2 0 0,
  .pfcFrame 0 8 0, .pfcFrame 0 0 65536, .pauseExpiry 2 0, .pauseExpiry 0 8, .verifyTimer 2, .verifyFrame 2, .respondFrame 2, .txFrameStart 2 0 0,
  .txFrameStart 0 256 0, .txFrameStart 0 0 (2 ^ 14), .preemptionCut 2 0 0, .preemptionCut 0 (2 ^ 14) 0, .preemptionCut 0 0 256, .txFrameEnd 3,
  .rxrPiWrite 8 0 0 0, .rxrPiWrite 0 3 0 0, .rxrPiWrite 0 0 8 0, .rxrPiWrite 0 0 0 (2 ^ 32), .rxWaitTimeout 3 0, .rxWaitTimeout 0 8, .txrPiWrite 8 0 0 0,
  .txrPiWrite 0 3 0 0, .txrPiWrite 0 0 8 0, .txrPiWrite 0 0 0 (2 ^ 32), .tsqPop 8 0] : List Instr).all fun i => !i.wf) = true := by decide +kernel

theorem test_wf_refuses_6 : (([
  .tsqPop 0 2, .ptpLoad 8 0, .ptpLoad 0 2, .ptpStep 8 0, .ptpStep 0 2, .ptpSecRead 8 0, .ptpSecRead 0 9, .pairLinkFrame 4 [], .svcFrameReceived 2 [],
  .svcCollision 2, .goRace 8, .goPaddle 8, .goDock 8, .goDeepDock 8, .wakeNLow 2, .startFromSleep (List.replicate 33 []) 0 0 0,
  .startFromSleep [] 65536 0 0, .startFromSleep [] 0 65536 0, .startFromSleep [] 0 0 (2 ^ 32), .dockedWakeResend (2 ^ 64), .dockedWakeTimeout (2 ^ 64),
  .thermalSample 512, .watchdogArm 8 0, .watchdogArm 0 256, .watchdogKick 8, .deviceReset 7, .domainPowerUp .core (2 ^ 32) 0, .domainPowerUp .core 0 65536,
  .fallbackRestore (2 ^ 32), .coxMailboxGo 8 0, .coxMailboxGo 0 4, .imageInstall (2 ^ 32), .logSubmit 8 0, .logSubmit 0 65536, .logRdGo 8,
  .logClearUptoWrite (2 ^ 64), .logTokenRefill 65536, .snapStrobe 8, .smbusReadByte 128 0, .smbusReadByte 0 256, .smbusReadWord 128 0,
  .smbusReadWord 0 256, .smbusBlockRead 128 0, .smbusBlockRead 0 256, .smbusWriteNack 128 0 0, .smbusWriteNack 0 256 0, .smbusWriteNack 0 0 256,
  .smbusAlertResponse 128, .cmRep 65536 0, .cmRep 0 2, .localAckTimeout 65536, .majorityContactLoss (2 ^ 32), .jtagAccess 7 0 0 0,
  .jtagAccess 0 (2 ^ 48) 0 0, .jtagAccess 0 0 65536 0] : List Instr).all fun i => !i.wf) = true := by decide +kernel

theorem test_wf_refuses_7 : (([
  .jtagAccess 0 0 0 (2 ^ 64)] : List Instr).all fun i => !i.wf) = true := by decide +kernel

theorem test_wf_accepts_0 : (([
  .fence (8 - 1), .fenceI (8 - 1), .wfi (8 - 1), .registerWrite (16 - 1) (8 - 1) (2 ^ 48 - 1) (9 - 1) (2 ^ 64 - 1),
  .rcCounterRead (16 - 1) (8 - 1) (2 ^ 48 - 1) (9 - 1), .fabErrClear (8 - 1), .irqClaim (8 - 1), .irqComplete (8 - 1) (512 - 1),
  .machineTimerExpiry (8 - 1), .rocePacketReceived (65536 - 1) (2 - 1) (2 - 1) (256 - 1) (2 - 1) (2 - 1), .cnpReceived (65536 - 1),
  .rateRecoveryExpiry (65536 - 1), .cmReq (2 ^ 64 - 1) (2 ^ 32 - 1) (65536 - 1) (65536 - 1) (32 - 1) (8 - 1) (8 - 1), .cmRtu (65536 - 1),
  .cmDreq (65536 - 1), .qpRetryExhausted (65536 - 1), .handshakeTimerExpiry (65536 - 1), .capsule (65536 - 1) [], .open (262144 - 1), .auth (262144 - 1),
  .close (262144 - 1), .nop (262144 - 1), .resultFetch (262144 - 1), .resultRelease (262144 - 1), .rdmaReadResponse (65536 - 1) [],
  .rdmaErrorNak (65536 - 1), .hteSessHoldWrite (8 - 1) (2 ^ 64 - 1), .hteReply (8192 - 1), .hteRdmaRead (8192 - 1), .hteRdmaWrite (8192 - 1),
  .hteSend (8192 - 1), .hteRxPost (8192 - 1), .hteClose (8192 - 1), .peerMessage (65536 - 1) [], .peerReplyReceived (65536 - 1) [], .put (262144 - 1),
  .get (262144 - 1), .delete (262144 - 1), .exists (262144 - 1), .cas (262144 - 1), .list (262144 - 1), .discard (262144 - 1), .retain (262144 - 1),
  .release (262144 - 1), .fixity (262144 - 1), .stat (262144 - 1), .life (262144 - 1), .nsCreate (262144 - 1), .nsSet (262144 - 1), .nsDelete (262144 - 1),
  .tenantSet (262144 - 1), .tenantDelete (262144 - 1), .tenantQuery (262144 - 1), .clockSet (262144 - 1), .ptpTimeApply (2 ^ 48 - 1) (1000000000 - 1)] : List Instr).all Instr.wf) = true := by decide +kernel

theorem test_wf_accepts_1 : (([
  .sealTimerExpiry (2 ^ 32 - 1) (4096 - 1), .bucketLoad (65536 - 1) (65536 - 1), .bucketWriteback (65536 - 1) (65536 - 1),
  .bucketEvict (65536 - 1) (65536 - 1), .indexRebuildFromStripes (2 ^ 32 - 1) [65536 - 1], .peerSessionOpen (2 ^ 64 - 1) (3 - 1),
  .fragWriteResend (2 ^ 64 - 1), .groupStatusTimer (2 ^ 32 - 1), .formingTimeout (2 ^ 32 - 1), .adminRecordResend (2 ^ 64 - 1) (2 ^ 64 - 1),
  .stripeRewrite (2 ^ 32 - 1) (2 ^ 64 - 1), .esTest (8 - 1) (65536 - 1), .esTestEnd (65536 - 1), .pjEnable (8 - 1),
  .pjVmapWrite (8 - 1) (512 - 1) (2 ^ 64 - 1), .pjRestore (8 - 1), .pjAllocReq (8 - 1) (2 ^ 32 - 1), .pjAllocRead (8 - 1) (9 - 1),
  .pairResendTimer (2 ^ 64 - 1), .pairAckTimer (2 ^ 64 - 1), .pairPathChange (2 ^ 64 - 1) (2 - 1), .leaseLapse (2 ^ 64 - 1), .takeoverTimer (2 ^ 64 - 1),
  .handbackStart (2 ^ 64 - 1), .handbackResend (2 ^ 64 - 1), .fragCommitResend (2 ^ 32 - 1) (2 ^ 64 - 1), .probeResend (2 ^ 32 - 1) (2 ^ 64 - 1),
  .seatSilenceExpiry (2 ^ 32 - 1) (32 - 1), .writeLimitExpiry (2 ^ 64 - 1), .fragReadDeadline (2 ^ 64 - 1), .degradedReadRetry (262144 - 1),
  .localRepair (2 ^ 32 - 1), .rebuildStart (2 ^ 32 - 1), .rebuildPosition (2 ^ 32 - 1), .rebuildRateSample (2 ^ 32 - 1) (2 ^ 64 - 1),
  .rebuildProgressTimer (2 ^ 32 - 1), .rigCtrlStage (8 - 1), .rigCtrlActivate (8 - 1), .rigCtrlDiscard (8 - 1), .ecEncode (8192 - 1), .ecDecode (8192 - 1),
  .ecCheck (8192 - 1), .ecEntryEnd (8192 - 1), .fphPush (8 - 1) (1040 - 1), .fphPop (8 - 1) (1040 - 1), .fphPeek (8 - 1) (1040 - 1),
  .fphClear (8 - 1) (1040 - 1), .collection (1024 - 1) (2 - 1), .migration (2 - 1) (2 - 1), .programFailure (524288 - 1) [2 ^ 32 - 1] (2 - 1),
  .lunDeclareFailed (1024 - 1), .sweep [(2 ^ 32 - 1, 2 ^ 16 - 1)], .readRetry (524288 - 1) (65536 - 1) (16 - 1) (2 ^ 16 - 1),
  .fullScan (2 - 1) [2 ^ 32 - 1], .vaultSetReplace (512 - 1)] : List Instr).all Instr.wf) = true := by decide +kernel

theorem test_wf_accepts_2 : (([
  .channelReady (32 - 1) [], .fcRead (8192 - 1) (2 ^ 32 - 1), .fcProgram (8192 - 1) (2 ^ 32 - 1), .fcErase (8192 - 1) (2 ^ 32 - 1),
  .fcReadHeader (8192 - 1) (2 ^ 32 - 1), .fcFeature (8192 - 1) (2 ^ 32 - 1), .fcResetLun (8192 - 1) (2 ^ 32 - 1),
  .fcOperationEnd (32 - 1) (32 - 1) (2 - 1) (2 ^ 16 - 1) (2 - 1) (2 ^ 32 - 1) (2 ^ 32 - 1), .fcLunTimeout (32 - 1) (32 - 1),
  .lunResetTimeout (32 - 1) (32 - 1), .fcRevive (8 - 1) (32 - 1) (32 - 1) (2 - 1), .sequencerFault (32 - 1),
  .lunTempPoll (32 - 1) (32 - 1) (2 - 1) (256 - 1), .fcGroupWindowWrite (16 - 1) (8 - 1) (9 - 1) (2 ^ 20 - 1) (9 - 1) (2 ^ 64 - 1) (2 ^ 32 - 1),
  .scAccess (16 - 1) (8 - 1) (2 ^ 48 - 1) (257 - 1) (3 - 1) [] (6 - 1), .scFillComplete (16 - 1), .scEvictionDone (2 ^ 40 - 1) (5 - 1),
  .scWayDisableEnd (16 - 1), .scWayEnable (8 - 1) (65536 - 1), .scClean (8 - 1) (2 - 1), .scInvalidate (8 - 1) (2 - 1), .scCleanInvalidate (8 - 1) (2 - 1),
  .scMaintEnd (2 ^ 40 - 1) (5 - 1), .scPrefetchHint (8 - 1) (512 - 1) (16 - 1), .scDisable (8 - 1), .scEnable (8 - 1), .dmcScrub (2 ^ 48 - 1) (5 - 1),
  .dmcTempRefresh (2 - 1), .wqDoorbellSq (8192 - 1), .wqDoorbellCq (8192 - 1), .wqPoll (8192 - 1), .wqEntryTake (8192 - 1), .wqCompletionDue (8192 - 1),
  .wqNop (8192 - 1), .wqHold (8192 - 1), .wqUnhold (8192 - 1), .create (8192 - 1), .destroy (8192 - 1), .destroyDrained (8192 - 1), .restart (8192 - 1),
  .wqLrestart (64 - 1), .dmaGo (8 - 1) (32 - 1), .dmaRun (8192 - 1), .dmaKick (8 - 1) (32 - 1), .dmaStop (8 - 1) (32 - 1), .dmaResume (8 - 1) (32 - 1),
  .dmaAbort (8 - 1) (32 - 1), .dmaBurstGrant (32 - 1), .dmaBurstWritten (32 - 1), .dmaPeripheralLast (32 - 1) (2 ^ 32 - 1), .dmaPeripheralAbort (32 - 1),
  .dmaDescriptorEnd (32 - 1), .dmaReqSet (8 - 1) (2 ^ 32 - 1), .dmaReqClr (8 - 1) (2 ^ 32 - 1), .dmaCqCiWrite (8 - 1) (2 ^ 32 - 1)] : List Instr).all Instr.wf) = true := by decide +kernel

theorem test_wf_accepts_3 : (([
  .asuSearchGo (8 - 1) (4 - 1), .asuSearchResult (8 - 1), .asuStepNext (8 - 1), .asuEntryWrite (8 - 1) (2 - 1) (64 - 1) (2048 - 1),
  .asuEntryRead (8 - 1) (64 - 1) (2048 - 1), .asuMove (8 - 1) (2 - 1) (64 - 1) (2048 - 1) (2048 - 1), .asuBankCfgWrite (8 - 1) (64 - 1) (2 ^ 64 - 1),
  .asuSearch (8192 - 1), .cipGcmEnc (8192 - 1), .cipGcmDec (8192 - 1), .cipXtsEnc (8192 - 1), .cipXtsDec (8192 - 1), .cipUnwrap (8192 - 1),
  .cipGenkey (8192 - 1), .cipExport (8192 - 1), .cipClear (8192 - 1), .cipEntryEnd (8192 - 1), .digUpdate (8192 - 1), .digEntryEnd (8192 - 1),
  .portLinkUp (3 - 1), .portLinkDown (3 - 1), .frameReceived (2 - 1) (4 - 1) [], .pauseFrame (2 - 1) (65536 - 1), .pfcFrame (2 - 1) (8 - 1) (65536 - 1),
  .pauseExpiry (2 - 1) (8 - 1), .verifyTimer (2 - 1), .verifyFrame (2 - 1), .respondFrame (2 - 1), .txFrameStart (2 - 1) (256 - 1) (2 ^ 14 - 1),
  .preemptionCut (2 - 1) (2 ^ 14 - 1) (256 - 1), .txFrameEnd (3 - 1), .rxrPiWrite (8 - 1) (3 - 1) (8 - 1) (2 ^ 32 - 1), .rxWaitTimeout (3 - 1) (8 - 1),
  .txrPiWrite (8 - 1) (3 - 1) (8 - 1) (2 ^ 32 - 1), .tsqPop (8 - 1) (2 - 1), .ptpLoad (8 - 1) (2 - 1), .ptpStep (8 - 1) (2 - 1),
  .ptpSecRead (8 - 1) (9 - 1), .pairLinkFrame (4 - 1) [], .svcFrameReceived (2 - 1) [], .svcCollision (2 - 1), .goRace (8 - 1), .goPaddle (8 - 1),
  .goDock (8 - 1), .goDeepDock (8 - 1), .wakeNLow (2 - 1), .startFromSleep [] (65536 - 1) (65536 - 1) (2 ^ 32 - 1), .dockedWakeResend (2 ^ 64 - 1),
  .dockedWakeTimeout (2 ^ 64 - 1), .thermalSample (512 - 1), .watchdogArm (8 - 1) (256 - 1), .watchdogKick (8 - 1), .deviceReset (7 - 1),
  .domainPowerUp .core (2 ^ 32 - 1) (65536 - 1), .fallbackRestore (2 ^ 32 - 1)] : List Instr).all Instr.wf) = true := by decide +kernel

theorem test_wf_accepts_4 : (([
  .coxMailboxGo (8 - 1) (4 - 1), .imageInstall (2 ^ 32 - 1), .logSubmit (8 - 1) (65536 - 1), .logRdGo (8 - 1), .logClearUptoWrite (2 ^ 64 - 1),
  .logTokenRefill (65536 - 1), .snapStrobe (8 - 1), .smbusReadByte (128 - 1) (256 - 1), .smbusReadWord (128 - 1) (256 - 1),
  .smbusBlockRead (128 - 1) (256 - 1), .smbusWriteNack (128 - 1) (256 - 1) (256 - 1), .smbusAlertResponse (128 - 1), .cmRep (65536 - 1) (2 - 1),
  .localAckTimeout (65536 - 1), .majorityContactLoss (2 ^ 32 - 1), .jtagAccess (7 - 1) (2 ^ 48 - 1) (65536 - 1) (2 ^ 64 - 1)] : List Instr).all Instr.wf) = true := by decide +kernel

/-- Strings longer than the device takes are refused. -/
theorem test_wf_refuses_long :
    Instr.wf (.capsule 0 (zeros 4194305)) = false ∧
    Instr.wf (.rdmaReadResponse 0 (zeros 4194305)) = false ∧
    Instr.wf (.peerMessage 0 (zeros 4194305)) = false ∧
    Instr.wf (.peerReplyReceived 0 (zeros 4194305)) = false ∧
    Instr.wf (.scAccess 0 0 0 0 0 (zeros 4194305) 0) = false ∧
    Instr.wf (.frameReceived 0 0 (zeros 9217)) = false ∧
    Instr.wf (.pairLinkFrame 0 (zeros 9217)) = false ∧
    Instr.wf (.svcFrameReceived 0 (zeros 9217)) = false := by
  have h : ∀ n, (zeros n).length = n := fun n => List.length_replicate ..
  simp only [Instr.wf, h]
  decide

/-- The check values of the CRCs over the nine digits, as their catalogues give them (CRC-32C, CRC-32, CRC-16/CCITT-FALSE, CRC-8 of the SMBus). -/
theorem test_crc_check_values : ∀ m : Bytes, m = [0x31, 0x32, 0x33, 0x34, 0x35, 0x36, 0x37, 0x38, 0x39] →
    crc32c m = 0xE3069283 ∧ crc32 m = 0xCBF43926 ∧ crc16 m = 0x29B1 ∧ pec m = 0xF4 := by rintro m rfl; decide +kernel

/-- The example of FIPS 197, appendix C.3. -/
theorem test_aes_fips197 : beNat (aesEnc ((List.range 32).map (BitVec.ofNat 8)) ((List.range 16).map fun i => BitVec.ofNat 8 (17 * i))) =
    0x8ea2b7ca516745bfeafc49904b496089 := by decide +kernel

/-- The digests of "abc" (FIPS 180-4 examples). -/
theorem test_sha_abc : beNat (sha256 [0x61, 0x62, 0x63]) = 0xba7816bf8f01cfea414140de5dae2223b00361a396177a9cb410ff61f20015ad ∧
    beNat (sha384 [0x61, 0x62, 0x63]) = 0xcb00753f45a35e8bb5a03d699ac65007272c32ab0eded1631a8b605a43ff5bed8086072ba1e7cc2358baeca134c825a7 := by decide +kernel

/-- The example of the paper on SipHash-2-4, its appendix. -/
theorem test_siphash_example : sipHash24 ((List.range 16).map (BitVec.ofNat 8)) ((List.range 15).map (BitVec.ofNat 8)) = 0xa129ca6149be45e5 := by decide +kernel

/-- Test case 13 of the GCM specification: the tag of nothing under a key of zeros. -/
theorem test_gcm_case13 : beNat (gcmEnc (zeros 32) (zeros 12) [] []).2 = 0x530f8afbc74536b9a963b4f1c4cb738b := by decide +kernel

/-- A device in service: every domain on, the crew running, state READY (4). -/
def live : State := { State.reset with
  pwr := { State.reset.pwr with on := [.aon, .svc, .cox, .core, .crew2, .dram, .flash, .lane0, .lanes], start := 5, dev := 4 }
  cox := { State.reset.cox with verified := true, releasedAt := some 0 }
  pins := { State.reset.pins with suppliesValid := true } }

/-- A state with register fields set. -/
def setFs (s : State) (l : List (Fld × Nat)) : State := l.foldl (fun s e => setF s e.1 e.2) s

/-- The table row of the register at an address. -/
def rowOf (a : Nat) : RegFam := ((regAt a).map Prod.snd).getD ⟨0, [], false, []⟩

/-- A structure of 64 bytes with fields as (offset, size, value). -/
def lay (l : List (Nat × Nat × Nat)) : Bytes := l.foldl (fun b e => patch b e.1 (le e.2.1 e.2.2)) (zeros 64)

/-- The register fields of `rigged` (keys address × 64 + low bit): RIG_EPOCH 5, RIG_SELF 0 and the offsets and counts of the image's tables. -/
def riggedRegs : List (Nat × Nat) := [
  (0x4010000100, 1), (0x41C0000800, 5), (0x41C0000E00, 0), (0x41C0004200, 4096), (0x41C0004300, 1048576), (0x41C0004400, 8192),
  (0x41C0004500, 12288), (0x41C0004600, 16384), (0x41C0004700, 20480), (0x41C0004800, 24576), (0x41C0004900, 28672), (0x41C0004A00, 131072),
  (0x41C0005100, 3), (0x41C0005200, 1), (0x41C0005300, 65536), (0x41C0005400, 1), (0x41C0005500, 1), (0x41C0005600, 1), (0x41C0005700, 2),
  (0x41C0005800, 1), (0x41C0005900, 1), (0x41C0005A00, 1), (0x438000011F, 1), (0x4380000200, 257), (0x4380000C00, 1)]

/-- The image of `rigged` in rig memory. -/
def riggedMem : List Host.Cell := [
  (0x1000000, 100), (0x10000A0, 101), (0x1000140, 102), (0x1001000, 7), (0x1001004, 3), (0x1001006, 1), (0x1001007, 1), (0x1001012, 1),
  (0x1001014, 2), (0x1002000, 7), (0x1002004, 1), (0x1002005, 1), (0x1002006, 1), (0x100200C, 1), (0x1002010, 1), (0x1003001, 1), (0x1006008, 100),
  (0x100600C, 50), (0x1007000, 2), (0x1007004, 232), (0x1007005, 3)]

/-- A device whose active rig has one group, 7, of three seats with hull numbers 100, 101 and 102; this device sits in seat 0. Its one generator
set has GEN_ID 1, k = 1 and m = 1; every slice is placed in it with stroke seat 0 and bow seat 0. -/
def rigged : State := { live with regs := riggedRegs, mem := riggedMem }

/-- A session with its record, STATE and KIND. -/
def sessOn (s : State) (x : Sess) (st kind : Nat) : State := sessPut (sessPut (putSess s x) x.id 64 1 st) x.id 65 1 kind

/-- An accepted command of a slot on session 3. -/
def cmdIn (i : Nat) (capsule : Bytes) : Cmd := ⟨i, 1, 3, capsule, 0, 0, false, false, none, none, false, false, [], 0, 0, none, none, 0, [], [], none⟩

/-- Commands accepted. -/
def withCmds (s : State) (cs : List Cmd) : State := { s with hte := { s.hte with cmds := cs } }

/-- An entry taken from a queue. -/
def taken (queue index : Nat) (bytes : Bytes) : Taken := ⟨queue, index, bytes, none, false, none, false⟩

/-- Entries taken. -/
def withTaken (s : State) (ts : List Taken) : State := { s with wq := { s.wq with taken := ts } }

/-- The slice of key 61 in namespace 5 on `rigged`, where salts are zero. -/
def sliceA : Nat := 38594

/-- The object header of that key's version 9, one byte long. -/
def headerA (kind version : Nat) : RecHdr :=
  { kind := kind, keyLen := 1, nsid := 5, length := 1, version := version, fprint := 10863254463029944905, created := 0 }

/-- The index entry of that key: version 9, one byte, in stripe 32 of seat 0. -/
def entryA : Entry := ⟨5, 1286729, 10863254463029944905 % 2 ^ 39, 0, 1, 0, 1, 9⟩

/-- The register fields of `kvOn`: besides those of `rigged`, PJ_CTRL.ENABLE, HTE_SLICE_BASE, HTE_DIR_BASE and HTE_BCACHE_BASE. -/
def kvRegs : List (Nat × Nat) := [
  (0x4010000100, 1), (0x41C0000800, 5), (0x41C0000E00, 0), (0x41C0004200, 4096), (0x41C0004300, 1048576), (0x41C0004400, 8192),
  (0x41C0004500, 12288), (0x41C0004600, 16384), (0x41C0004700, 20480), (0x41C0004800, 24576), (0x41C0004900, 28672), (0x41C0004A00, 131072),
  (0x41C0005100, 3), (0x41C0005200, 1), (0x41C0005300, 65536), (0x41C0005400, 1), (0x41C0005500, 1), (0x41C0005600, 1), (0x41C0005700, 2),
  (0x41C0005800, 1), (0x41C0005900, 1), (0x41C0005A00, 1), (0x430C00100C, 24121344), (0x430C00120C, 24117248), (0x430C00140E, 6160384),
  (0x438000011F, 1), (0x4380000200, 257), (0x4380000C00, 1), (0x43C800001F, 1)]

/-- The memory of `kvOn`: the image of `rigged`, with no bow for the slice of key 61; the key's packed record in slot 0 of the journal; the slice table
entry, the directory word and the resident bucket of the slice. -/
def kvMem : List Host.Cell := riggedMem ++ [
  (0x114B613, 255), (0x1001010040, 65), (0x1001010041, 90), (0x1001010042, 79), (0x1001010043, 51), (0x1001010044, 1), (0x1001010046, 1),
  (0x1001010048, 5), (0x100101004C, 1), (0x1001010050, 9), (0x1001010058, 73), (0x1001010059, 162), (0x100101005A, 147), (0x100101005B, 205),
  (0x100101005C, 96), (0x100101005D, 8), (0x100101005E, 194), (0x100101005F, 150), (0x100101007C, 144), (0x10010100B8, 222), (0x10010100B9, 62),
  (0x10010100BA, 26), (0x10010100BB, 181), (0x10010100C0, 97), (0x10010100C8, 42), (0x170004B617, 192), (0x1701000006, 8), (0x1701000007, 192),
  (0x1780000006, 1), (0x1780000020, 9), (0x1780000040, 73), (0x1780000041, 162), (0x1780000042, 147), (0x1780000043, 205), (0x1780000044, 224),
  (0x1780000045, 36), (0x1780000046, 81), (0x1780000048, 32), (0x1780000050, 9), (0x1780000054, 1), (0x1780003040, 157)]

/-- `rigged` with group 7 ACTIVE, namespace 5, the slice of key 61 held and acting with its one bucket resident and DIRTY, the journal enabled with one
unit, and an open stripe whose slot 0 holds the record of the key. -/
def kvOn : State := { rigged with
  regs := kvRegs
  mem := kvMem
  cip := { live.cip with slots := [⟨70, 1, true, 5, 1, zeros 32⟩] }
  groups := [⟨7, 0, 2, 0, 0, 0, false, none, [], 2, 2 ^ 24, [], 0, [], [], none, [], [], none, 0, []⟩]
  kv := { live.kv with nss := [⟨5, 0, 0, 0, zeros 16, 1, 70, [], [], 1⟩], slices := [newSlice sliceA 0] }
  pj := { live.pj with units := 1, opens := [⟨7, 5, 32, 1, 1, 1, 0, [], [0], [144], [0], some 0, 2000, [], [(0, 0, 144, sliceA, 2 ^ 20)], false⟩] } }

/-- A capsule on key 61 of namespace 5, its value of one byte inline for an opcode that has one. -/
def capA (op flags : Nat) : Bytes := lay [(0, 1, op), (1, 1, flags), (2, 2, 1), (4, 2, 5), (6, 2, 80), (16, 4, 1)] ++ [0x61, 0, 0, 0, 0, 0, 0, 0, 0x2A]

/-- An option whose value passes a test. -/
theorem some_of {α : Type} {o : Option α} {f : α → Bool} (h : o.any f = true) : ∃ e, o = some e ∧ f e = true := by
  cases o with
  | none => simp at h
  | some e => exact ⟨e, rfl, by simpa using h⟩

/-- A read found an object. -/
def isFound (r : ObjRead) (key : Bytes) : Bool := match r with | .found _ k _ _ _ => k == key | _ => false

theorem found_of {r : State × ObjRead} {key : Bytes} (h : isFound r.2 key = true) : ∃ v x b d q, r = (v, .found x key b d q) := by
  obtain ⟨v, r⟩ := r
  cases r <;> simp [isFound] at h
  subst h; exact ⟨_, _, _, _, _, rfl⟩

/-- `kvOn` with prefix holds and one command on key 61. -/
def atHold (hs : List PrefixHold) (c : Cmd) : State := { kvOn with kv := { kvOn.kv with holds := hs }, hte := { kvOn.hte with cmds := [c] } }

/-- `kvOn` with one command on key 61. -/
abbrev atKey (c : Cmd) : State := atHold [] c

/-- The bucket of key 61 as it stands in memory. -/
def bucketA (s : State) : Bytes := peek s (bucketAddr s (dirSlot s sliceA 0)) 16384

/-- What reading the directory word and the bucket of key 61 leaves. -/
def readA (s : State) : State := touch (touch s 3 (dirAddr s sliceA 0) 8) 3 (bucketAddr s (dirSlot s sliceA 0)) 16384

theorem bucketA_get {s : State} (h : (!(dirBusy s sliceA 0) && decide (2 ≤ dirState s sliceA 0)) = true) : bucketGet s sliceA 0 = some (bucketA s, readA s) := by
  simp only [Bool.and_eq_true, Bool.not_eq_true', decide_eq_true_eq] at h
  simp only [bucketGet, h.1, bucketA]
  rw [if_neg (by simp), if_pos h.2]; rfl

/-- A capsule that asks about key 61: opcode, flags, P0, P1, P2, reply buffer. -/
def capRead (op flags p0 p1 p2 buf : Nat) : Bytes :=
  lay [(0, 1, op), (1, 1, flags), (2, 2, 1), (4, 2, 5), (6, 2, 72), (32, 4, buf), (36, 4, p0), (40, 8, p1), (48, 8, p2)] ++ [0x61, 0, 0, 0, 0, 0, 0, 0]

/-- The place of key 61 in namespace 5. -/
def placeA : KeyPlace := ⟨10863254463029944905, 1286729, sliceA, 0⟩

theorem keyPlace_kvOn : keyPlace kvOn 5 [0x61] = placeA := by
  have h : ((keyPlace kvOn 5 [0x61]).hash = 10863254463029944905 ∧ (keyPlace kvOn 5 [0x61]).kc = 1286729) ∧
      (keyPlace kvOn 5 [0x61]).slice = sliceA ∧ (keyPlace kvOn 5 [0x61]).bucket = 0 := by decide +kernel
  obtain ⟨⟨h1, h2⟩, h3, h4⟩ := h
  generalize keyPlace kvOn 5 [0x61] = p at *
  cases p; simp only at h1 h2 h3 h4; subst h1 h2 h3 h4; rfl

theorem keyPlace_atKey (hs : List PrefixHold) (c : Cmd) (n : Nat) (k : Bytes) : keyPlace (atHold hs c) n k = keyPlace kvOn n k := rfl

theorem bucketA_atKey (hs : List PrefixHold) (c : Cmd) : bucketA (atHold hs c) = bucketA kvOn := rfl

theorem kvOn_wf : Memory.wf kvOn.mem := by decide +kernel

/-- The bucket's bytes are what stands in memory. -/
theorem bucketA_mem : bucketA kvOn = memRead kvOn 0x1780000000 16384 := by
  have h : bucketAddr kvOn (dirSlot kvOn sliceA 0) = 0x1780000000 := by decide +kernel
  rw [bucketA, h, peek_eq kvOn kvOn_wf rfl rfl]

/-- A field of the bucket. -/
theorem bucketA_fld (o k : Nat) (hk : o + k ≤ 16384) : fld (bucketA kvOn) o k = leNat (memRead kvOn (0x1780000000 + o) k) := by
  rw [bucketA_mem, fld_memRead kvOn kvOn_wf _ _ _ _ hk]

theorem bucketA_count : bkCount (bucketA kvOn) = 1 := by rw [bkCount, bucketA_fld _ _ (by decide)]; decide +kernel

theorem bucketA_holds : bkHolds (bucketA kvOn) = 0 := by rw [bkHolds, bucketA_fld _ _ (by decide)]; decide +kernel

theorem bkEntry_kvOn : bkEntry (bucketA kvOn) 0 = entryA := by
  rw [bkEntry, bucketA_fld _ _ (by decide), bucketA_mem, slice_memRead kvOn kvOn_wf _ _ _ _ (by decide)]
  have h : ∀ e : Entry, ((e.nsid == 5 && e.kc == 1286729 && e.fpLow == entryA.fpLow && e.seat == 0) &&
      (e.serial == 1 && e.unit == 0 && e.length == 1 && e.version == 9)) = true → e = entryA := by
    intro e h2
    simp only [Bool.and_eq_true, beq_iff_eq] at h2
    obtain ⟨⟨⟨⟨a, b⟩, c⟩, d⟩, ⟨⟨f, g⟩, i⟩, j⟩ := h2
    cases e; simp only at a b c d f g i j; subst a b c d f g i j; rfl
  exact h _ (by decide +kernel)

/-- The bucket holds the entry of the key. -/
theorem entry_kvOn : entryOf (bucketA kvOn) 5 placeA = some entryA := by
  have h : List.range 1 = [0] := rfl
  have g : (entryA.nsid == 5 && entryA.fpLow == placeA.hash % 2 ^ 39 && entryA.kc == placeA.kc) = true := by decide
  simp only [entryOf, bkFind, bucketA_count, h, List.find?_cons, bkEntry_kvOn, g, Option.map_some]

/-- What a turn of a command on key 61 asks beyond being accepted, as a test. -/
def turnTest (hs : List PrefixHold) (c : Cmd) : Bool :=
  let s := atHold hs c
  capNsid c.capsule == 5 && capKey c.capsule == [0x61] && coreLive s && cmdReady s c && actsFor s sliceA && ((sliceRec s sliceA).map Slice.takeover).getD 0 == 0 &&
    leaseHolds s sliceA && !(dirBusy s sliceA 0) && decide (2 ≤ dirState s sliceA 0)

/-- A command accepted in slot 0 with no reply yet. -/
def freshCmd (c : Cmd) : Prop := c.index = 0 ∧ c.ended = false ∧ c.reply = none

theorem turn_of {hs : List PrefixHold} {c : Cmd} (hc : freshCmd c) (h : turnTest hs c = true) : KeyTurn (atHold hs c) 0 (capOp c.capsule) c placeA ∧
    bucketGet (atHold hs c) sliceA 0 = some (bucketA kvOn, readA (atHold hs c)) ∧ entryOf (bucketA kvOn) (capNsid c.capsule) placeA = some entryA := by
  simp only [turnTest, Bool.and_eq_true, beq_iff_eq] at h
  obtain ⟨⟨⟨⟨⟨⟨⟨⟨h1, h2⟩, h3⟩, h4⟩, h5⟩, h6⟩, h7⟩, h8⟩, h9⟩ := h
  refine ⟨⟨h3, ?_, h4, hc.2.2, ?_, h5, ?_, ?_, h7⟩, ?_, ?_⟩
  · simp [cmdWith, cmdOf, atHold, hc.1, hc.2.1]
  · rw [h1, h2, keyPlace_atKey, keyPlace_kvOn]
  · show ((sliceRec (atHold hs c) sliceA).map Slice.takeover).getD 0 ≠ 3
    rw [h6]; decide
  · show ((sliceRec (atHold hs c) sliceA).map Slice.takeover).getD 0 ≠ 5
    rw [h6]; decide
  · rw [← bucketA_atKey hs c]; exact bucketA_get (by simp [h8, h9])
  · rw [h1]; exact entry_kvOn

/-- The hypotheses of a change of key 61, as a test. -/
def changeTest (hs : List PrefixHold) (c : Cmd) : Bool :=
  let s := atHold hs c
  turnTest hs c && !(((sliceRec s sliceA).map Slice.rebuilding).getD false) && !(s.epoch.refusing && s.epoch.phase == 2) && !(intentsHeld s) &&
    !(keyPending s { c with started := true }) && decide (dirState s sliceA 0 ≠ 0)

theorem change_of {hs : List PrefixHold} {c : Cmd} (hc : freshCmd c) (h : changeTest hs c = true) :
    ChangeTurn (atHold hs c) 0 (capOp c.capsule) c placeA (bucketA kvOn) (readA (atHold hs c)) ∧ entryOf (bucketA kvOn) (capNsid c.capsule) placeA = some entryA := by
  simp only [changeTest, Bool.and_eq_true, Bool.not_eq_true', decide_eq_true_eq] at h
  obtain ⟨⟨⟨⟨⟨h1, h2⟩, h3⟩, h4⟩, h5⟩, h6⟩ := h
  obtain ⟨h8, h9, h10⟩ := turn_of hc h1
  refine ⟨⟨h8, h2, h3, h4, h5, atHold hs c, rfl, ?_⟩, h10⟩
  show bucketOpen (atHold hs c) sliceA 0 = _
  simp only [bucketOpen, h9, if_neg h6]

/-- A packed record and its change find room, as a test. -/
def packTest (s : State) (c : Cmd) (p : KeyPlace) (rec_ : Bytes) (change : Nat → Nat → Bytes) : Bool :=
  !(packOut s (sliceGroup s p.slice) (capNsid c.capsule) rec_.length) && ringRoom s 1024 && (packRecord s p.slice (capNsid c.capsule) c.index rec_).any fun r =>
    (indexRecord r.2 p.slice r.1.1 [stampChange r.2 (change r.1.1 r.1.2.1)]).isSome

theorem packed_of {s : State} {c : Cmd} {p : KeyPlace} {rec_ : Bytes} {change : Nat → Nat → Bytes} {reply : Bytes} {waits : Nat} {kept : State → State}
    (h : packTest s c p rec_ change = true) : ∃ t, Packed s c p rec_ change reply waits kept t := by
  simp only [packTest, Bool.and_eq_true] at h
  obtain ⟨⟨h0, h1⟩, h2⟩ := h
  obtain ⟨⟨⟨a, b, d⟩, v⟩, h3, h4⟩ := some_of h2
  obtain ⟨⟨w, fs⟩, h5⟩ := Option.isSome_iff_exists.1 h4
  exact ⟨_, a, b, d, v, w, fs, by simpa using h0, h1, h3, h5, rfl⟩

/-- No hold lies on the key. -/
theorem keyHold_kvOn : keyHold (bucketA kvOn) 5 placeA = none := by
  have h : List.range 1 = [0] := rfl
  have h0 : List.range 0 = [] := rfl
  have g : (entryA.nsid == 5 && entryA.fpLow == placeA.hash % 2 ^ 39 && entryA.kc == placeA.kc) = true := by decide
  simp only [keyHold, bkFind, bucketA_count, h, List.find?_cons, bkEntry_kvOn, g, bkHoldOf, bucketA_holds, h0, List.find?_nil, Option.map_none]

/-- A peer message delivered on session 3 of a state. -/
def peerAt (s : State) (b : Bytes) : State := { s with hte := { s.hte with peerIn := [(3, b)] } }
/-- A state with no peer message. -/
abbrev peerGone (s : State) : State := { s with hte := { s.hte with peerIn := [] } }

theorem peerAt_turn {s : State} {op : Nat} {b : Bytes} (hl : (coreLive s && s.hte.excHeld.isEmpty && fld b 0 1 == op) = true) :
    PeerTurn (peerAt s b) op 3 b (peerGone s) := by
  simp only [Bool.and_eq_true, beq_iff_eq, List.isEmpty_iff] at hl
  obtain ⟨⟨hc, he⟩, h⟩ := hl
  refine ⟨hc, ?_, ?_⟩
  · show (([(3, b)] : List (Nat × Bytes)).take (1 - (s.hte.excHeld.filter _).length)).find? _ = _
    simp [h, he]
  · show _ = { peerAt s b with hte := { (peerAt s b).hte with peerIn := ([(3, b)] : List (Nat × Bytes)).erase (3, b) } }
    simp [peerAt]

/-- `kvOn` with an AUTHENTICATED peer session 3, and fragments of group 7 held at seat 0. -/
def seatOn (frags : List FragItem) : State :=
  let s := sessOn kvOn (newSess 3 1 true) 3 1
  { s with media := { s.media with frags := frags }, fc := { s.fc with nand := [⟨4, 0, [([1, 2, 3], [])]⟩] } }

/-- A fragment of stripe 96 at position 0. -/
def fragA (kind : Nat) : FragItem := ⟨7, 96, 0, kind, 4, 0, 1, 77, 1, 1, 1⟩

/-- A message about stripe 96 of group 7, position 0. -/
def fragMsg (op pflags arg0 arg1 : Nat) (body : Bytes) : Bytes :=
  peerBytes { op := op, pflags := pflags, group := 7, epoch := 5, stripe := 96, pos := 0, gen := 1, k := 1, m := 1, tag := 6, arg0 := arg0, arg1 := arg1 } body

/-- Bytes at a place of a string put together. -/
theorem slice_at {x a b c : Bytes} {o n : Nat} (hx : x = a ++ (b ++ c)) (ho : a.length = o) (hn : b.length = n) : slice x o n = b := by
  subst hx ho hn; simp [slice]

theorem leNat_le (n : Nat) : ∀ v, v < 256 ^ n → leNat (le n v) = v := by
  induction n with
  | zero => intro v h; simp at h; subst h; rfl
  | succ n ih =>
    intro v h
    rw [Nat.pow_succ] at h
    simp only [le, leNat, ih (v / 256) (by omega), BitVec.toNat_ofNat]
    omega

theorem fld_at {x a b c : Bytes} {o n v : Nat} (hx : x = a ++ (b ++ c)) (hb : b = le n v) (ho : a.length = o) (hv : v < 256 ^ n) : fld x o n = v := by
  have : (le n v).length = n := le_length n v
  rw [fld, slice_at hx ho (by rw [hb]; exact this), hb]
  exact leNat_le n v hv

/-- The header of a pair frame to this device. -/
def pairHead (ptype len partner seq : Nat) : Bytes := le 4 0 ++ (le 1 ptype ++ (le 1 0 ++ (le 2 len ++ (le 8 partner ++ (le 8 Config.hull ++ (le 8 seq ++ le 8 5))))))

/-- A sealed frame of the partner of a channel. -/
def pairFrameOf (d : PairCh) (key : Bytes) (ptype seq : Nat) (body : Bytes) : Bytes :=
  let h := pairHead ptype body.length d.partner seq
  let e := gcmEnc key (pairIv (1 - pairDir d) ptype seq) h body
  zeros 14 ++ (h ++ (e.1 ++ e.2))

/-- A state to which such a frame has come, and the state without it. -/
def pairAt (s : State) (f : Bytes) : State := { s with pj := { s.pj with rx := [f] } }
def pairGone (s : State) (d : PairCh) : State := putChan2 { s with pj := { s.pj with rx := [] } } d

theorem pairFrame_of {s : State} {d : PairCh} {key body : Bytes} {ptype seq : Nat} (hl : coreLive s = true) (hc : chanWith s d.partner = some d)
    (hk : pairKey s d = some key) (ha : d.addr.isSome = true) (hn : ptype < 256 ∧ body.length < 65536 ∧ d.partner < 2 ^ 64 ∧ seq < 2 ^ 64)
    (ht : ptype = 16 → activeEpoch (pairGone s d) = 5) (h2 : if ptype = 2 then d.ackRx < seq else seq = d.rxSeq + 1) : PairFrame (pairAt s (pairFrameOf d key ptype seq body)) ptype d body seq (pairGone s d) := by
  obtain ⟨hn1, hn2, hn3, hn4⟩ := hn
  have hd : (pairFrameOf d key ptype seq body).drop 14 = pairHead ptype body.length d.partner seq ++
      ((gcmEnc key (pairIv (1 - pairDir d) ptype seq) (pairHead ptype body.length d.partner seq) body).1 ++
        (gcmEnc key (pairIv (1 - pairDir d) ptype seq) (pairHead ptype body.length d.partner seq) body).2) := by
    simp only [pairFrameOf]; exact List.drop_left' (by simp [zeros])
  have hh : (pairHead ptype body.length d.partner seq).length = 40 := by simp [pairHead, le_length]
  have hhull : Config.hull < 2 ^ 64 := by have := Config.hullIndex.isLt; unfold Config.hull; omega
  have e1 : (gcmEnc key (pairIv (1 - pairDir d) ptype seq) (pairHead ptype body.length d.partner seq) body).1.length = body.length := gcmCrypt_length _ _ _
  have e2 : (gcmEnc key (pairIv (1 - pairDir d) ptype seq) (pairHead ptype body.length d.partner seq) body).2.length = 16 := gcmTag_length _ _ _ _
  generalize he : gcmEnc key (pairIv (1 - pairDir d) ptype seq) (pairHead ptype body.length d.partner seq) body = e at *
  have f4 : fld ((pairFrameOf d key ptype seq body).drop 14) 4 1 = ptype :=
    fld_at (a := le 4 0) (b := le 1 ptype) (c := le 1 0 ++ (le 2 body.length ++ (le 8 d.partner ++ (le 8 Config.hull ++ (le 8 seq ++ (le 8 5 ++ ((e.1 ++ e.2))))))))
      (by rw [hd]; simp only [pairHead, List.append_assoc]) rfl (by simp [le_length]) (by omega)
  have f6 : fld ((pairFrameOf d key ptype seq body).drop 14) 6 2 = body.length :=
    fld_at (a := le 4 0 ++ (le 1 ptype ++ (le 1 0))) (b := le 2 body.length) (c := le 8 d.partner ++ (le 8 Config.hull ++ (le 8 seq ++ (le 8 5 ++ ((e.1 ++ e.2))))))
      (by rw [hd]; simp only [pairHead, List.append_assoc]) rfl (by simp [le_length]) (by omega)
  have f8 : fld ((pairFrameOf d key ptype seq body).drop 14) 8 8 = d.partner :=
    fld_at (a := le 4 0 ++ (le 1 ptype ++ (le 1 0 ++ (le 2 body.length)))) (b := le 8 d.partner) (c := le 8 Config.hull ++ (le 8 seq ++ (le 8 5 ++ ((e.1 ++ e.2)))))
      (by rw [hd]; simp only [pairHead, List.append_assoc]) rfl (by simp [le_length]) (by omega)
  have f16 : fld ((pairFrameOf d key ptype seq body).drop 14) 16 8 = Config.hull :=
    fld_at (a := le 4 0 ++ (le 1 ptype ++ (le 1 0 ++ (le 2 body.length ++ (le 8 d.partner))))) (b := le 8 Config.hull) (c := le 8 seq ++ (le 8 5 ++ ((e.1 ++ e.2))))
      (by rw [hd]; simp only [pairHead, List.append_assoc]) rfl (by simp [le_length]) (by omega)
  have f24 : fld ((pairFrameOf d key ptype seq body).drop 14) 24 8 = seq :=
    fld_at (a := le 4 0 ++ (le 1 ptype ++ (le 1 0 ++ (le 2 body.length ++ (le 8 d.partner ++ (le 8 Config.hull)))))) (b := le 8 seq) (c := le 8 5 ++ ((e.1 ++ e.2)))
      (by rw [hd]; simp only [pairHead, List.append_assoc]) rfl (by simp [le_length]) (by omega)
  have f32 : fld ((pairFrameOf d key ptype seq body).drop 14) 32 8 = 5 :=
    fld_at (a := le 4 0 ++ (le 1 ptype ++ (le 1 0 ++ (le 2 body.length ++ (le 8 d.partner ++ (le 8 Config.hull ++ le 8 seq)))))) (b := le 8 5) (c := e.1 ++ e.2)
      (by rw [hd]; simp only [pairHead, List.append_assoc]) rfl (by simp [le_length]) (by omega)
  refine ⟨hl, pairFrameOf d key ptype seq body, [], { s with pj := { s.pj with rx := [] } }, d, key, rfl, rfl, f4, ?_, hk, f24.symm, ?_, ?_, rfl, ?_, ?_⟩
  · rw [f8]; exact hc
  · rw [f6]
    have t1 : ((pairFrameOf d key ptype seq body).drop 14).take 40 = pairHead ptype body.length d.partner seq := by rw [hd]; exact List.take_left' hh
    have t2 : slice ((pairFrameOf d key ptype seq body).drop 14) 40 body.length = e.1 := by rw [hd]; exact slice_at rfl hh e1
    have t3 : slice ((pairFrameOf d key ptype seq body).drop 14) (40 + body.length) 16 = e.2 := by
      rw [hd]; exact slice_at (c := []) (a := pairHead ptype body.length d.partner seq ++ e.1) (by simp) (by simp [hh, e1]) e2
    rw [t1, t2, t3, ← he, gcmDec, gcmEnc]
    simp only [if_true, gcmCrypt_self]
  · rw [if_neg (by cases h : d.addr <;> simp_all)]
  · intro h; rw [if_pos h] at h2; exact h2
  · intro h; rw [if_neg h] at h2; exact ⟨h2, f16, fun h => by rw [ht h]; exact f32⟩

/-- The stores of crew cores 0 and 7 that act at once. -/
theorem store_of {s : State} {core a : Nat} (h : (coreOn s core && domainOn s (regDomain a)) = true) : StoreTurn s core a (coreActs s core) := by
  simp only [Bool.and_eq_true] at h; exact ⟨h.1, h.2, rfl⟩

/-- A channel with the bow of `kvOn`, its key of zeros in key slot 80. -/
def chanC : PairCh := ⟨0, 2, 1, 0, 80, 101, 2, 1, 0, 4, none, 1, 3, 0, [], 0, some [2, 0, 0, 0, 0, 1], false, false, 0, true⟩

/-- `kvOn` with that channel, what its journal holds, and the stage of its slice. -/
def pairOn (recs : List (Nat × Nat × Nat × Nat × Bytes)) (stage : Nat) : State :=
  let s := { kvOn with
    pj := { kvOn.pj with chans := [chanC] }
    cip := { kvOn.cip with slots := [⟨80, 1, false, 0, 0, zeros 32⟩] }
    kv := { kvOn.kv with slices := [{ newSlice sliceA 0 with takeover := stage }] } }
  recs.foldl (fun s r => (pjAppend s r.1 r.2.1 7 r.2.2.1 r.2.2.2.1 r.2.2.2.2).getD s) s

/-- A frame on that channel in turn, as a test. -/
def pairTest (s : State) : Bool :=
  coreLive s && decide (chanWith s 101 = some chanC) && pairKey s chanC == some (zeros 32) && activeEpoch (pairGone s chanC) == 5

theorem pairC_of {s : State} {ptype seq : Nat} {body : Bytes} (h : pairTest s = true) (hn : ptype < 256 ∧ body.length < 65536)
    (h2 : seq = if ptype = 2 then 4 else 5) : PairFrame (pairAt s (pairFrameOf chanC (zeros 32) ptype seq body)) ptype chanC body seq (pairGone s chanC) := by
  simp only [pairTest, Bool.and_eq_true, decide_eq_true_eq, beq_iff_eq] at h
  refine pairFrame_of h.1.1.1 h.1.1.2 h.1.2 rfl ⟨hn.1, hn.2, by decide, ?_⟩ (fun _ => h.2) ?_
  · subst h2; split <;> decide
  · subst h2; split <;> decide

/-- What has been taken is acknowledged on a channel that is there. -/
theorem pairTaken_of {v : State} {seq : Nat} (h : (chanWith v 101).isSome = true) : ∃ t, PairTaken v chanC seq t := by
  obtain ⟨d, hd⟩ := Option.isSome_iff_exists.1 h; exact ⟨_, d, hd, rfl⟩

/-- A record of the partner's as a frame carries it. -/
def recOf (kind : Nat) (body : Bytes) : Bytes := pjRecord kind 0 7 9 101 64 5 body

/-- An intent of group 7 under way over stripe 64, whose two units are still held. -/
def intentA : Intent := ⟨7, 64, 1, 1, 1, 1, false, false, 5, 1, [], [], [], [⟨64, 0, 0, [], true⟩, ⟨64, 1, 1, [], true⟩], 5, 1, [], [0], 0, 0, false, [], [], false⟩

/-- An index rebuild of group 7 with stripe 64 left. -/
def rebuildOn : State := { kvOn with pj := { kvOn.pj with intents := [intentA] }, kv := { kvOn.kv with rebuilds := [⟨7, [sliceA], [], [(64, 1)], []⟩] } }

theorem test_hyps_EmptyQueueTicks : State.reset.pending = [] := rfl

theorem test_hyps_CoreCommandsComplete :
    coreOn live 0 = true ∧ coreOn live 7 = true ∧ eligible (coreActs live 7) 7 = [] ∧ timerPending (coreActs live 7) 7 = false := by decide

theorem test_hyps_ClaimReturnsBestSource : ∀ s, s = { setFs live [(F.IRQ_SRC_ROUTE_ENABLE 292, 1), (F.IRQ_SRC_ROUTE_PRIO 292, 7)] with irq := ⟨[], [292]⟩ } →
    coreOn s 0 = true ∧ eligible (coreActs s 0) 0 ≠ [] := by rintro s rfl; decide

theorem test_hyps_FabricRecorderKeepsFirst : flag (setF live F.FAB_ERR_STATUS_VALID 1) F.FAB_ERR_STATUS_VALID = true := by decide

theorem test_hyps_MemoryReadsBackWhatWasWritten : Memory.wf (memWrite live 0x1000 [1, 0, 2]).mem ∧ Memory.wf live.mem := by decide

theorem test_hyps_MemoryStoreCompletes : coreOn live 0 = true ∧ windowOf 0x17FFFFFFF8 = none ∧ busTarget 0x17FFFFFFF8 = .mem ∧
    busFault (coreActs live 0) 0x17FFFFFFF8 8 true = none ∧ memMisuse (coreActs live 0) 0x17FFFFFFF8 (le 8 5) = none := by decide

theorem test_hyps_RegisterWriteCompletes : ∀ e ∈ [((F.IRQ_THRESH_LEVEL 7).addr, 4, 3), (0x010C000400, 4, 2 ^ 31), (0x010C000428, 4, 5), (0x0102000000, 4, 2 ^ 30), (0x0100400018, 4, 9),
      (0x010F200000, 4, 0), (0x010F200000, 4, 2 ^ 31), (0x010100000C, 4, 1), (0x0101000210, 4, 2 ^ 31), (0x010D000208, 4, 2 ^ 31 + 2 ^ 17), (0x010C000004, 4, 0), (0x010C1001E8, 4, 2 ^ 31 + 2 ^ 17), (0x0107000008, 8, 64)],
    ∀ b width value, (b, width, value) = e → ∀ a v old new t r, r = rowOf b → a = coreActs live 7 → v = value % 2 ^ (8 * width) * 2 ^ (8 * (b - b)) → old = composed a b r.fields →
    new = old - (old &&& ((2 ^ (8 * width) - 1) * 2 ^ (8 * (b - b)))) + v → t = fieldsWrite (coreRid 7) b (8 * (b - b)) (8 * width) v r.fields a →
    coreOn live 7 = true ∧ windowOf b = none ∧ busTarget b = .reg b r ∧ busFault a b width true = none ∧ reservedHit r v = false ∧ regMisuse a b old new = none ∧
    (width = 8 → new ≠ old → placesRegion b = true → regionsClash t = none) := by
  intro e he b width value hb a v old new t r hr ha hv ho hn ht
  subst ht hn ho hv ha hr
  simp only [List.mem_cons, List.not_mem_nil, or_false] at he
  rcases he with rfl | rfl | rfl | rfl | rfl | rfl | rfl | rfl | rfl | rfl | rfl | rfl | rfl <;> cases hb <;> decide +kernel

theorem test_hyps_RwFieldReadsWhatWasWritten : ∀ d : FDef, d = ⟨0, 3, .rw, 0, false⟩ → d.ty = .rw ∧ d.row = false ∧ 0 ≤ d.lo ∧ d.lo + d.width ≤ 0 + 32 ∧ 0 < d.width := by
  rintro d rfl; decide

theorem test_hyps_W1cFieldClears : ∀ d : FDef, d = ⟨31, 1, .w1c, 0, false⟩ → d.ty = .w1c ∧ d.row = false ∧ 0 ≤ d.lo ∧ d.lo + d.width ≤ 0 + 32 ∧ 0 < d.width ∧
    getF live (fieldAt d F.FAB_ERR_STATUS_VALID.addr) < 2 ^ d.width := by
  rintro d rfl; decide

theorem test_hyps_RcReadReturnsAndClears : ∀ b r d, b = F.HTE_CNT_CNP_RX_COUNT.addr → r = rowOf b → d = ⟨0, 32, .rc, 0, false⟩ → coreOn live 0 = true ∧
    windowOf b = none ∧ busTarget b = .reg b r ∧ r.wide = false ∧ r.fields = [d] ∧ d.lo + d.width ≤ 32 ∧ 0 < d.width ∧ busFault (coreActs live 0) b 4 false = none ∧ swapWaits (coreActs live 0) b 4 = false ∧
    ¬ (0x0100802000 ≤ b ∧ b < 0x0100802800) ∧ b ≠ 0x010C000408 ∧ ¬ (0x010F200100 ≤ b ∧ b < 0x010F200180) := by
  rintro b r d rfl rfl rfl; decide

theorem test_hyps_SessionTransportCompletes : ∀ s x y, x = { newSess 65535 1 false with ready := true, retries := 6 } → y = { x with rnrs := 7, rnrWait := true } →
    s = sessPut (sessOn rigged x 3 0) 65535 85 1 14 → coreLive s = true ∧ sessRec s 65535 = some x ∧ sessState s 65535 ≠ 0 ∧
    (x.raisedAt = none ∧ sessAt s 65535 85 1 < 15) ∧ (0x81 ∈ roceReceived ∧ x.cnpTx = none ∧ x.rnrs < x.rnrMax) ∧ (3 ∉ roceReceived ∧ 3 ≠ 0x12) ∧
    (sessLive s 65535 = true ∧ x.ready = true ∧ x.rnrWait = false ∧ x.retries < x.retryMax ∧ x.ackExp ≠ 0) ∧
    ∀ u, u = sessOn rigged y 3 0 → coreLive u = true ∧ sessRec u 65535 = some y ∧ sessState u 65535 ≠ 0 ∧ y.rnrMax ≤ y.rnrs ∧ sessLive u 65535 = true ∧
      y.ready = true ∧ y.rnrWait = true := by
  rintro s x y rfl rfl rfl
  refine ⟨by decide, by decide, by decide, by decide, by decide, by decide, by decide, ?_⟩
  rintro u rfl; decide

theorem test_hyps_SessionTransportCompletes_rate : ∀ s x, x = newSess 0 1 false → s = sessPut (sessOn rigged x 1 0) 0 85 1 1 →
    coreLive s = true ∧ sessRec s 0 = some x ∧ sessState s 0 ≠ 0 ∧ sessAt s 0 85 1 ≠ 0 ∧ (rateStep s (sessAt s 0 84 1) (sessAt s 0 85 1)).2 ≠ 0 := by
  rintro s x rfl rfl; decide

theorem test_hyps_ConnectionCommandsComplete : ∀ s u, s = setF live F.HTE_CTRL_ACCEPT 1 → u = sessOn live { newSess 9 1 false with handshakeAt := some 5 } 1 0 →
    ((s.hte.sessions.find? fun x => !x.initiator && x.comm == 1 && sessLive s x.id) = none ∧ flag s F.HTE_CTRL_ACCEPT = true ∧ 2 ≤ s.pwr.dev ∧
      s.pwr.dev ≤ 6 ∧ freeSession s = some 0) ∧
    ((live.hte.sessions.find? fun x => !x.initiator && x.comm == 1 && sessLive live x.id) = none ∧ flag live F.HTE_CTRL_ACCEPT = false) ∧
    (coreLive u = true ∧ sessState u 9 = 1 ∧ sessLive u 9 = true ∧ (sessRec u 9).bind Sess.handshakeAt = some 5) := by
  rintro s u rfl rfl; decide

theorem test_hyps_SessionOpcodesComplete : ∀ s, s = withCmds (sessOn live (newSess 3 1 false) 1 0) [cmdIn 0 (lay [(0, 1, 6)]), cmdIn 1 (lay [(0, 1, 3)]),
      cmdIn 2 (lay [(0, 1, 1), (36, 4, 65535)]), cmdIn 3 (lay [(0, 1, 5), (36, 4, 77)]), cmdIn 4 (lay [(0, 1, 4), (36, 4, 77)]),
      { cmdIn 5 (lay [(0, 1, 0x11)]) with ended := true, handle := some 77, result := some (zeros 64) }] →
    ∀ f, f = (fun i => cmdIn i (((cmdOf s i).map Cmd.capsule).getD [])) → coreLive s = true ∧ (∀ i < 5, cmdReady s (f i) = true) ∧
    cmdWith s 0 6 = some (f 0) ∧ cmdWith s 1 3 = some (f 1) ∧ (cmdWith s 2 1 = some (f 2) ∧ sessState s 3 = 1 ∧ capP0 (f 2).capsule / 65536 = 0) ∧
    (cmdWith s 3 5 = some (f 3) ∧ ((handleCmd s 3 (capP0 (f 3).capsule)).map Cmd.ended) = some true) ∧
    (cmdWith s 4 4 = some (f 4) ∧ ((handleCmd s 3 (capP0 (f 4).capsule)).bind Cmd.result) = some (zeros 64)) := by
  rintro s rfl f rfl; decide

/-- An entry of crew firmware to the host transport engine, taken from queue 1 at index 0. -/
def hteEnt (l : List (Nat × Nat × Nat)) : Taken := taken 1 0 (lay l)

/-- A session authenticated (3), host or peer, ready, with one command of slot 0 on it and one entry taken. -/
def hteOn (kind : Nat) (t : Taken) : State :=
  withTaken (withCmds (sessOn live { newSess 3 1 false with ready := true } 3 kind) [cmdIn 0 (lay [(0, 1, 0x11), (16, 4, 65536), (20, 4, 7), (24, 8, 0x2000), (32, 4, 65536)])]) [t]

/-- OPENED by tenant 65535, whose secret is 48 zero bytes; the nonces are zero. -/
def opened (m : Bytes) : State :=
  { withCmds (sessPut (sessOn live { newSess 3 1 false with nonce := zeros 32 } 2 0) 3 66 2 65535) [cmdIn 0 (lay [(0, 1, 2)] ++ m)] with
    kv := { live.kv with tenants := [⟨65535, zeros 48, 0, [], 1⟩] } }

theorem test_hyps_SessionOpcodesComplete_auth : ∀ m, m = sessionProof (zeros 48) labelSessH (zeros 32) (memRead (opened []) (sessBase + 128 * 3 + 88) 32) 3 65535 →
    coreLive (opened m) = true ∧ cmdReady (opened []) (cmdIn 0 (lay [(0, 1, 2)])) = true ∧ cmdWith (opened m) 0 2 = some (cmdIn 0 (lay [(0, 1, 2)] ++ m)) ∧
    sessState (opened m) 3 = 2 ∧ (tenantOf (opened m) (sessAt (opened m) 3 66 2)).map Tenant.secret = some (zeros 48) ∧
    ((sessRec (opened m) 3).map Sess.nonce).getD [] = zeros 32 ∧ memRead (opened m) (sessBase + 128 * 3 + 88) 32 = memRead (opened []) (sessBase + 128 * 3 + 88) 32 ∧
    (capInline (lay [(0, 1, 2)] ++ m)).take 48 = m := by
  intro m hm
  have hl : m.length ≤ 48 := by
    have h : ∀ k b, (hmacSha384 k b).length ≤ 48 := fun _ _ => List.length_take_le ..
    rw [hm]; exact h ..
  have h64 : (lay [(0, 1, 2)]).length = 64 := by decide +kernel
  have hk : capKeyLen (lay [(0, 1, 2)] ++ m) = 0 := by
    simp only [capKeyLen, fld, slice, List.drop_append_of_le_length (by rw [h64]; decide : 2 ≤ _)]
    rw [List.take_append_of_le_length (by simp [h64])]; decide
  have ho : capOp (lay [(0, 1, 2)] ++ m) = 2 := by
    simp only [capOp, fld, slice, List.drop_zero]
    rw [List.take_append_of_le_length (by simp [h64])]; decide
  refine ⟨rfl, by decide, ?_, rfl, rfl, rfl, rfl, ?_⟩
  · simp [cmdWith, cmdOf, opened, withCmds, cmdIn, ho]
  · simp only [capInline, hk]
    rw [show (64 + alignUp 0 8) = (lay [(0, 1, 2)]).length by rw [h64]; decide, List.drop_left, List.take_of_length_le hl]

theorem test_hyps_CapsulesAndHoldsComplete_held : ∀ s x, x = { newSess 65535 1 false with ready := true } →
    s = setFs (sessOn live x 3 0) [(F.HTE_SESS_HOLD_HELD, 1), (F.HTE_SESS_HOLD_SESSION, 65535)] →
    coreLive s = true ∧ sessRec s 65535 = some x ∧ takesCapsules s 65535 = true ∧ flag s F.HTE_SESS_HOLD_HELD = true ∧
    getF s F.HTE_SESS_HOLD_SESSION = 65535 := by rintro s x rfl rfl; decide

theorem test_hyps_CapsulesAndHoldsComplete_checked : ∀ s x, x = { newSess 0 1 false with ready := true } → s = sessOn live x 1 0 →
    coreLive s = true ∧ sessRec s 0 = some x ∧ takesCapsules s 0 = true ∧ flag s F.HTE_SESS_HOLD_HELD = false ∧
    accessClash s 0 (lay [(0, 1, 0xFF), (2, 2, 1), (6, 2, 64)]) = false ∧
    ((capsuleChecks s 0 (lay [(0, 1, 0xFF), (2, 2, 1), (6, 2, 64)])).2.map fun r => r.2.2.2.isNone) = some true ∧ s.hte.excHeld = [] := by rintro s x rfl rfl; decide

/-- `kvOn` with an AUTHENTICATED session 3, the fast path on and an access rule that allows all. -/
def fastOn : State :=
  let s := { kvOn with kv := { kvOn.kv with tenants := [⟨0, zeros 48, 0, [(5, 3)], 1⟩] }, asu := { kvOn.asu with units := [], ents := [⟨0, 0, true, 0, 1⟩] } }
  let s := setFs s [(F.ASU_CTRL_ENABLE, 1), (F.HTE_CTRL_FASTPATH, 1), (F.ASU_BANK_CFG_ENABLE 0, 1), (F.ASU_USE_BANKS_BANKS 0, 1)]
  sessPut (sessOn s { newSess 3 1 false with ready := true } 3 0) 3 68 2 1024

/-- EXISTS of key 61 in namespace 5, with flags. -/
def capExists (flags : Nat) : Bytes := lay [(0, 1, 0x13), (1, 1, flags), (2, 2, 1), (8, 8, 2), (4, 2, 5), (6, 2, 72)] ++ [0x61, 0, 0, 0, 0, 0, 0, 0]

/-- What follows once the checks have passed on a capsule: its command's slot, the reason it is handed on for, whether it waits for earlier commands,
and whether its entry is held. -/
def pathOf (s : State) (b : Bytes) : Option (Nat × Nat × Bool × Bool) :=
  let r := capsuleChecks s 3 b
  if r.2.isSome || !(takesCapsules s 3) || flag s F.HTE_SESS_HOLD_HELD || accessClash s 3 b || (flag r.1 F.RIG_STATUS_SWAPPING && needsRig b) then none else
    let a := acceptCmd r.1 3 b
    a.2.map fun c =>
      let h := handReason a.1 c.capsule
      (c.index, h.2.1, orderedWaits h.1 c, entryHeld (handOn h.1 c h.2.1 h.2.2 0) c)

/-- `fastOn` with a command accepted before. -/
def behind : State := { fastOn with hte := { fastOn.hte with cmds := [cmdIn 1 (lay [(0, 1, 0x11), (2, 2, 1)])], nextOrder := 1 } }

theorem test_hyps_CapsulesAndHoldsComplete_fast : coreLive fastOn = true ∧ (pathOf fastOn (capExists 0)).map (fun r => (r.1, r.2.1, r.2.2.1)) = some (0, 0, false) ∧
    ((pathOf behind (capExists 4)).map fun r => (r.1, r.2.1, r.2.2.1)) = some (0, 0, true) := by decide +kernel

/-- Without the fast path a capsule is handed on for reason 2, through an exception queue with room. -/
theorem test_hyps_CapsulesAndHoldsComplete_handed : ∀ s, s = { setFs fastOn [(F.HTE_CTRL_FASTPATH, 0), (F.HTE_EXC_QUEUE_VALID, 1), (F.HTE_EXC_QUEUE_QUEUE, 2)] with
      wq := { fastOn.wq with queues := [⟨2, 1, true, 0, 2, 2, 5, true, 0x1000100000, 0x1000101000, 0x1000102000, 0, 0, 0, 0, [], false, none, [], 0⟩] } } →
    (pathOf s (capExists 0)).map (fun r => (r.2.1, r.2.2.2)) = some (2, false) := by
  rintro s rfl; decide +kernel

/-- While a swap runs, a keyed capsule that passes the checks is held. -/
theorem test_hyps_CapsulesAndHoldsComplete_swap : ∀ s, s = setF fastOn F.RIG_STATUS_SWAPPING 1 → takesCapsules s 3 = true ∧ flag s F.HTE_SESS_HOLD_HELD = false ∧
    accessClash s 3 (capExists 0) = false ∧ ∀ r, r = capsuleChecks s 3 (capExists 0) → r.2 = none ∧ (acceptCmd r.1 3 (capExists 0)).2.isSome = true ∧
      (flag (acceptCmd r.1 3 (capExists 0)).1 F.RIG_STATUS_SWAPPING && needsRig (capExists 0)) = true := by
  rintro s rfl
  refine ⟨by decide +kernel, by decide +kernel, by decide +kernel, ?_⟩
  rintro r rfl; decide +kernel

theorem test_hyps_CapsulesAndHoldsComplete_read : ∀ s x, x = { newSess 3 1 false with reads := [(0, 0, 65536)] } → s = withCmds (sessOn live x 3 0) [cmdIn 0 (lay [(0, 1, 0x10)])] →
    coreLive s = true ∧ sessRec s 3 = some x ∧ (0 < 2 ^ 20) ∧ cmdOf (putSess s { x with reads := [] }) 0 = some (cmdIn 0 (lay [(0, 1, 0x10)])) := by
  rintro s x rfl rfl; decide

theorem test_hyps_HteEntriesComplete_reply : ∀ t, t = hteEnt [(0, 1, 0x73), (8, 4, 2 ^ 18), (32, 1, 2)] → ∀ s, s = hteOn 0 t → coreLive s = true ∧ hteReserved t.bytes = false ∧
    hteEntry s 1 0x73 = some t ∧ bitAt (fld t.bytes 32 1) 1 = true ∧ fld t.bytes 12 4 = 0 ∧ ((cmdById s (fld t.bytes 8 4)).map Cmd.session) = some 3 ∧
    sessLive s 3 = true := by rintro t rfl s rfl; decide

theorem test_hyps_HteEntriesComplete_rdma : ∀ t, t = hteEnt [(0, 1, 0x74), (8, 4, 2 ^ 18), (12, 4, 65536), (16, 8, 0x1000000000)] → ∀ s, s = hteOn 0 t →
    hteReserved t.bytes = false ∧ hteEntry s 1 0x74 = some t ∧ (rdmaCheck s t).toBool = true ∧ ((sessRec s 3).map fun x => x.reads.length) = some 0 := by
  rintro t rfl s rfl; decide

theorem test_hyps_HteEntriesComplete_write : ∀ t, t = hteEnt [(0, 1, 0x75), (8, 4, 2 ^ 18), (12, 4, 64), (16, 8, 0x1000000000), (32, 8, 65472)] → ∀ s, s = hteOn 0 t →
    hteReserved t.bytes = false ∧ hteEntry s 1 0x75 = some t ∧ (rdmaCheck s t).toBool = true ∧ (fabRead s 4 (fld t.bytes 16 8) (fld t.bytes 12 4)).2 = some (zeros 64) := by
  rintro t rfl s rfl; decide +kernel

theorem test_hyps_HteEntriesComplete_send : ∀ t, t = hteEnt [(0, 1, 0x76), (8, 2, 3), (12, 4, 64), (16, 8, 0x1000000000)] → ∀ s, s = hteOn 1 t →
    hteReserved t.bytes = false ∧ hteEntry s 1 0x76 = some t ∧ 64 ≤ fld t.bytes 12 4 ∧ fld t.bytes 12 4 ≤ 65624 ∧ sessLive s (fld t.bytes 8 2) = true ∧
    sessKind s (fld t.bytes 8 2) = 1 ∧ (fabRead s 3 (fld t.bytes 16 8) (fld t.bytes 12 4)).2 = some (zeros 64) := by rintro t rfl s rfl; decide +kernel

theorem test_hyps_HteEntriesComplete_post : ∀ t, t = hteEnt [(0, 1, 0x77), (12, 4, 65664), (16, 8, 0x17FFFF0000)] → ∀ s, s = hteOn 0 t →
    hteReserved t.bytes = false ∧ hteEntry s 1 0x77 = some t ∧ 1024 ≤ fld t.bytes 12 4 ∧ fld t.bytes 12 4 ≤ 65664 ∧ fld t.bytes 12 4 % 64 = 0 ∧
    fld t.bytes 16 8 % 64 = 0 := by rintro t rfl s rfl; decide

theorem test_hyps_HteEntriesComplete_close : ∀ t, t = hteEnt [(0, 1, 0x78), (8, 2, 3)] → ∀ s, s = hteOn 0 t →
    hteReserved t.bytes = false ∧ hteEntry s 1 0x78 = some t ∧ sessState s (fld t.bytes 8 2) ≠ 0 ∧ sessState s (fld t.bytes 8 2) ≠ 4 := by
  rintro t rfl s rfl; decide

theorem test_hyps_SessionHoldWriteCompletes : ∀ v, v = 2 ^ 31 + 65535 → coreOn live 7 = true ∧ bits v 16 14 = 0 ∧ flag live F.HTE_SESS_HOLD_REQ = false ∧
    (∀ s, s = setF live F.HTE_SESS_HOLD_REQ 1 → coreOn s 7 = true ∧ flag s F.HTE_SESS_HOLD_REQ = true ∧ bitAt v 31 = true ∧ getF s F.HTE_SESS_HOLD_SESSION ≠ v % 65536) := by
  rintro v rfl; refine ⟨by decide, by decide, by decide, ?_⟩; rintro s rfl; decide

theorem test_hyps_KeyReadsComplete : ∀ q ∈ [(0x13, capRead 0x13 0 0 0 0 0, 0, 0), (0x11, capRead 0x11 0 0 0 0 4096, 0, 1), (0x11, capRead 0x11 0 7 1 9 4096, 1, 0),
    (0x19, capRead 0x19 0 0 0 9 32, 0, 1), (0x1A, capRead 0x1A 0 0 0 0 512, 0, 0)], ∀ c, c = cmdIn 0 q.2.1 → capOp c.capsule = q.1 ∧
    (KeyTurn (atKey c) 0 (capOp c.capsule) c placeA ∧ bucketGet (atKey c) sliceA 0 = some (bucketA kvOn, readA (atKey c)) ∧
      entryOf (bucketA kvOn) (capNsid c.capsule) placeA = some entryA) ∧ (capP2 c.capsule = 0 ∨ capP2 c.capsule = entryA.version) ∧ capP1 c.capsule ≤ entryA.length ∧
    capFlag c.capsule 5 = false ∧ capKeyLen c.capsule > 0 ∧ capNsid c.capsule ≠ 0 ∧ q.2.2.2 = (if q.1 ≠ 0x11 then q.2.2.2 else if capP0 c.capsule = 0 then entryA.length - capP1 c.capsule
      else min (capP0 c.capsule) (entryA.length - capP1 c.capsule)) ∧
    (∃ v h b d r, readObject (readA (atKey c)) c.index (sliceGroup (readA (atKey c)) sliceA) entryA placeA.hash q.2.2.1 q.2.2.2 = (v, .found h (capKey c.capsule) b d r)) ∧
    missingMask (readObject (readA (atKey c)) c.index (sliceGroup (readA (atKey c)) sliceA) entryA placeA.hash q.2.2.1 q.2.2.2).1 c.index (sliceGroup (readA (atKey c)) sliceA) entryA
      (capP1 c.capsule) q.2.2.2 = 0 := by
  intro q hq c hc; subst hc
  simp only [List.mem_cons, List.not_mem_nil, or_false] at hq
  rcases hq with rfl | rfl | rfl | rfl | rfl
  all_goals
    refine ⟨?_, turn_of ⟨rfl, rfl, rfl⟩ ?_, ?_, ?_, ?_, ?_, ?_, ?_, found_of ?_, ?_⟩ <;> decide +kernel

/-- LIST of namespace 5 from slice 65535, LIFE, and STAT of the device and of namespace 5, and of a key of namespace 0, accepted. -/
def listOn : State := withCmds kvOn [cmdIn 0 (lay [(0, 1, 0x15), (4, 2, 5), (6, 2, 64), (32, 4, 4096), (40, 8, 65535)]),
  cmdIn 1 (lay [(0, 1, 0x1B)]), cmdIn 2 (lay [(0, 1, 0x1A)]), cmdIn 3 (lay [(0, 1, 0x1A), (4, 2, 5)]),
  cmdIn 4 (lay [(0, 1, 0x1A), (2, 2, 1), (6, 2, 72)] ++ [0x61, 0, 0, 0, 0, 0, 0, 0])]

theorem test_hyps_ListLifeAndStatComplete : ∀ f, f = (fun i => cmdIn i (((cmdOf listOn i).map Cmd.capsule).getD [])) → coreLive listOn = true ∧
    (∀ i < 5, cmdReady listOn (f i) = true) ∧ cmdWith listOn 0 0x15 = some (f 0) ∧ capP1 (f 0).capsule = 65535 ∧
    cmdWith listOn 1 0x1B = some (f 1) ∧ cmdWith listOn 2 0x1A = some (f 2) ∧ capKeyLen (f 2).capsule = 0 ∧ capNsid (f 2).capsule = 0 ∧
    cmdWith listOn 3 0x1A = some (f 3) ∧ capKeyLen (f 3).capsule = 0 ∧ capNsid (f 3).capsule ≠ 0 ∧ (nsOf listOn (capNsid (f 3).capsule)).isSome = true ∧
    cmdWith listOn 4 0x1A = some (f 4) ∧ 0 < capKeyLen (f 4).capsule ∧ capNsid (f 4).capsule = 0 := by
  rintro f rfl; decide +kernel

theorem test_hyps_ListLifeAndStatComplete_walk : ∀ c l, listWalk c l false 4096 listOn (cursorAt listOn (65535 % 65536) (bits 65535 16 32)) [] 0 = (listOn, .done [] 0 none) := by
  intro c l
  have h : (sliceHeld listOn 65535 && actsFor listOn 65535) = false := by decide +kernel
  have hc : cursorAt listOn (65535 % 65536) (bits 65535 16 32) = none := by
    have hd : (List.range 65536).drop (65535 % 65536 + 1) = [] := List.drop_of_length_le (by simp)
    simp only [cursorAt, hd]
    rw [if_neg (by simp [h])]; rfl
  rw [hc, listWalk]

/-- PUT, and CAS of version 9, with the inline value 2A. -/
def capPut : Bytes := capA 0x10 1
def capCas : Bytes := lay [(0, 1, 0x14), (1, 1, 1), (2, 2, 1), (4, 2, 5), (6, 2, 80), (16, 4, 1), (48, 8, 9)] ++ [0x61, 0, 0, 0, 0, 0, 0, 0, 0x2A]

/-- What a stored value asks beyond the change of its key, as a test. -/
def valueTest (c : Cmd) : Bool :=
  let s := readA (atKey c)
  sliceGState s sliceA != 5 && !(capFlag c.capsule 4) && (capOp c.capsule != 0x14 || capP2 c.capsule == 9) &&
    !(quotaExceeded s (capNsid c.capsule) 1 (capVlen c.capsule)) && !(lacksSpace s) && decide (nextVersion s sliceA ≤ versionTop) &&
    decide (capOp c.capsule = 0x10 ∨ capOp c.capsule = 0x14) && capNsid c.capsule == 5 &&
    prefixHolds s 5 (capKey c.capsule) == []

/-- RETAINED is the prefix holds' alone. -/
theorem retained_kvOn (s : State) (key : Bytes) : retainedBy s (bucketA kvOn) 5 placeA key =
    (let pre := prefixHolds s 5 key
     let d := (pre.map fun x => if dateInForce s x.expiry then x.expiry else 0).foldl max 0
     if d > 0 || !pre.isEmpty then some (d, 2 * b2n (!pre.isEmpty)) else none) := by
  simp only [retainedBy, keyHolds, keyHold_kvOn, Option.any_none, b2n]
  simp

theorem value_of {c : Cmd} (hc : freshCmd c) (hs : valueShort c = false) (h : changeTest [] c = true) (hv : valueTest c = true) :
    ValueAllowed (atKey c) 0 (capOp c.capsule) c placeA (bucketA kvOn) (readA (atKey c)) := by
  simp only [valueTest, Bool.and_eq_true, Bool.not_eq_true', Bool.or_eq_true, bne_iff_ne, beq_iff_eq, decide_eq_true_eq] at hv
  obtain ⟨⟨⟨⟨⟨⟨⟨⟨b, d⟩, e⟩, f⟩, g⟩, i⟩, j⟩, k⟩, m⟩ := hv
  obtain ⟨h1, h2⟩ := change_of hc h
  refine ⟨h1, j, hs, ?_, b, ?_, ?_, ?_, g, ?_, i⟩
  · rw [k, retained_kvOn, m]; rfl
  · intro _ q; rw [d] at q; cases q
  · intro q; rw [h2]; exact e.resolve_left (fun x => x q)
  · rw [h2]; exact f
  · rw [h2]; intro q; cases q

theorem test_hyps_ValuesComplete : ∀ cap ∈ [capPut, capCas], ∀ c, c = cmdIn 0 cap →
    ValueAllowed (atKey c) 0 (capOp c.capsule) c placeA (bucketA kvOn) (readA (atKey c)) ∧
    (valueOf c).length ≤ 65072 := by
  intro cap hq c hc; subst hc
  simp only [List.mem_cons, List.not_mem_nil, or_false] at hq
  rcases hq with rfl | rfl
  all_goals exact ⟨value_of ⟨rfl, rfl, rfl⟩ (by decide +kernel) (by decide +kernel) (by decide +kernel), by decide +kernel⟩

theorem test_hyps_ValuesComplete_packed : ∀ c, c = cmdIn 0 capPut → ∀ v, v = nextVersion (readA (atKey c)) sliceA → ∃ t,
    Packed (readA (atKey c)) { c with started := true } placeA (packedRecord (valueHeader (readA (atKey c)) c placeA (valueOf c) v) (capKey c.capsule) (valueOf c))
      (fun stripe unit => changeBytes 1 0 sliceA 0 (entryBytes (entryAt (capNsid c.capsule) placeA stripe unit (valueOf c).length v))
        (entrySlotWord (entryAt (capNsid c.capsule) placeA stripe unit (valueOf c).length v)) 0 0 v)
      (replyBytes c.capsule ST.ok 0 0 v 0 []) (if asksAll (readA (atKey c)) c then 2 else 3) id t := by
  rintro c rfl v rfl; exact packed_of (by decide +kernel)

/-- PUT of a value of 65,073 bytes, all in. -/
def capLarge : Bytes := lay [(0, 1, 0x10), (2, 2, 1), (4, 2, 5), (6, 2, 72), (16, 4, 65073), (20, 4, 1), (32, 4, 65073)] ++ [0x61, 0, 0, 0, 0, 0, 0, 0]
def cmdLarge : Cmd := { cmdIn 0 capLarge with value := zeros 65073 }

/-- The serials, the key and the intent of a large value are to be had, as a test. -/
def largeTest (c : Cmd) (n : Nat) : Bool :=
  let s := readA (atKey c)
  let v := nextVersion s sliceA
  match groupRec s 7, writingSet s 7, nsKey s 5 with
  | some g, some x, some key =>
    match takeSerials s g (largeRun x.k n) with
    | some (serial, v0) =>
      let w := if capFlag c.capsule 0 then v0 else codeUnits v0 [stagingSlot c.index]
      let stripe := stripeId g.seat serial
      let ch := stampChange w (changeBytes 1 0 sliceA 0 (entryBytes (entryAt 5 placeA stripe 0 n v)) (entrySlotWord (entryAt 5 placeA stripe 0 n v)) 0 0 v)
      let i := newIntent 7 stripe (largeRun x.k n) x false false 5 1 [ch] ((sliceBow s sliceA).toList)
        (largeUnits s 7 5 g.seat serial x key (largeStream (valueHeader s c placeA (valueOf c) v) (capKey c.capsule) (valueOf c)) (largeRun x.k n))
      (openIntent (putCmd w { c with started := true, intent := some (7, stripe), reply := some (replyBytes c.capsule ST.ok 0 0 v 0 []), waits := if asksAll s c then 2 else 1 })
        { i with durAll := asksAll s c }).isSome
    | none => false
  | _, _, _ => false

theorem test_hyps_ValuesComplete_large : ValueAllowed (atKey cmdLarge) 0 (capOp cmdLarge.capsule) cmdLarge placeA (bucketA kvOn) (readA (atKey cmdLarge)) ∧
    65072 < (valueOf cmdLarge).length ∧ sliceGroup (readA (atKey cmdLarge)) sliceA = 7 ∧ largeTest cmdLarge 65073 = true := by
  have hl : cmdLarge.value.length = 65073 := List.length_replicate ..
  refine ⟨value_of ⟨rfl, rfl, rfl⟩ ?_ (by decide +kernel) (by decide +kernel), ?_, by decide +kernel, by decide +kernel⟩
  · simp only [valueShort, hl]; decide +kernel
  · have h : capFlag cmdLarge.capsule 0 = false := by decide +kernel
    rw [valueOf, h, if_neg (by decide), hl]; decide

/-- DELETE, DISCARD, and RETAIN and RELEASE of key 61. -/
def capKeyOp (op flags p1 : Nat) : Bytes := lay [(0, 1, op), (1, 1, flags), (2, 2, 1), (4, 2, 5), (6, 2, 72), (40, 8, p1)] ++ [0x61, 0, 0, 0, 0, 0, 0, 0]

theorem test_hyps_RemovalsComplete : ∀ op ∈ [0x12, 0x16], ∀ c, c = cmdIn 0 (capKeyOp op 0 0) →
    ChangeTurn (atKey c) 0 op c placeA (bucketA kvOn) (readA (atKey c)) ∧ retainedBy (readA (atKey c)) (bucketA kvOn) (capNsid c.capsule) placeA (capKey c.capsule) = none ∧
    entryOf (bucketA kvOn) (capNsid c.capsule) placeA = some entryA ∧ capP2 c.capsule = 0 ∧ nextVersion (readA (atKey c)) sliceA ≤ versionTop := by
  intro op ho c hc; subst hc
  simp only [List.mem_cons, List.not_mem_nil, or_false] at ho
  rcases ho with rfl | rfl
  all_goals
    exact ⟨(change_of ⟨rfl, rfl, rfl⟩ (by decide +kernel)).1, by rw [show capNsid _ = 5 by decide +kernel, retained_kvOn]; decide +kernel,
      (change_of (hs := []) ⟨rfl, rfl, rfl⟩ (by decide +kernel)).2, by decide +kernel, by decide +kernel⟩

theorem test_hyps_RemovalsComplete_packed : ∀ c, c = cmdIn 0 (capKeyOp 0x12 0 0) → ∃ t,
    Packed (readA (atKey c)) { c with started := true } placeA (removalRecord c.capsule placeA 0 (nextVersion (readA (atKey c)) sliceA) (calendarOr0 (readA (atKey c))))
      (fun _ _ => removeChange placeA entryA (nextVersion (readA (atKey c)) sliceA)) (replyBytes c.capsule ST.ok 0 0 entryA.version 0 []) 3 id t := by
  rintro c rfl; exact packed_of (by decide +kernel)

theorem test_hyps_HeldKeyIsNotRemoved : ∀ cap ∈ [capKeyOp 0x12 0 0, capKeyOp 0x16 0 0, capPut, capCas], ∀ c hs, c = cmdIn 0 cap → hs = [⟨5, [0x61], 0, true, 1⟩] →
    ChangeTurn (atHold hs c) 0 (capOp c.capsule) c placeA (bucketA kvOn) (readA (atHold hs c)) ∧ valueShort c = false ∧
    retainedBy (readA (atHold hs c)) (bucketA kvOn) (capNsid c.capsule) placeA (capKey c.capsule) = some (0, 2) := by
  intro cap hq c hs hc hh; subst hc hh
  simp only [List.mem_cons, List.not_mem_nil, or_false] at hq
  rcases hq with rfl | rfl | rfl | rfl
  all_goals
    exact ⟨(change_of ⟨rfl, rfl, rfl⟩ (by decide +kernel)).1, by decide +kernel, by rw [show capNsid _ = 5 by decide +kernel, retained_kvOn]; decide +kernel⟩

theorem test_hyps_KeyHoldsComplete : ∀ p1 ∈ [0, 2 ^ 64 - 1], ∀ c, c = cmdIn 0 (capKeyOp 0x17 0 p1) → ∀ u, u = readA (atKey c) → capFlag c.capsule 4 = false ∧ capP1 c.capsule = p1 ∧
    ChangeTurn (atKey c) 0 0x17 c placeA (bucketA kvOn) u ∧ entryOf (bucketA kvOn) (capNsid c.capsule) placeA = some entryA ∧
    keyHold (bucketA kvOn) (capNsid c.capsule) placeA = none ∧ u.kv.retention.isSome = false ∧
    holdsUsed u placeA (bucketA kvOn) < 123 + ((bkHoldList (bucketA kvOn)).filter (holdOver u)).length ∧ keyHoldCount u < 1048576 := by
  intro p1 ho c hc u hu; subst hc hu
  simp only [List.mem_cons, List.not_mem_nil, or_false] at ho
  rcases ho with rfl | rfl
  all_goals
    refine ⟨by decide +kernel, by decide +kernel, (change_of ⟨rfl, rfl, rfl⟩ (by decide +kernel)).1,
      (change_of (hs := []) ⟨rfl, rfl, rfl⟩ (by decide +kernel)).2, keyHold_kvOn, by decide +kernel, ?_, by decide +kernel⟩
    rw [holdsUsed, bucketA_holds]
    exact Nat.lt_of_lt_of_le (m := 123) (by decide +kernel) (Nat.le_add_right ..)

/-- An administrative command on namespace 9, tenant 9 or prefix 61 of namespace 5, with a body of zeros. -/
def capAdmin (op : Nat) : Bytes :=
  if op = 0x17 ∨ op = 0x18 then lay [(0, 1, op), (1, 1, 16), (2, 2, 1), (4, 2, 5), (6, 2, 72)] ++ [0x61, 0, 0, 0, 0, 0, 0, 0]
  else lay [(0, 1, op), (1, 1, 1), (36, 4, 9)] ++ zeros (if op = 0x20 ∨ op = 0x21 then 32 else if op = 0x28 then 56 else 0)

/-- It stands accepted on an AUTHENTICATED session; the slices of namespace 9 and tenant 9 are with their bow when `away`. -/
def adminOn (c : Cmd) (away : Bool) : State :=
  let s := withCmds (sessOn rigged (newSess 3 1 false) 3 0) [c]
  { s with kv := { s.kv with slices := if away then [34629, 43703, 32126].map fun x => { newSlice x 0 with takeover := 4 } else [] } }

/-- What the first clauses ask, as a test. -/
def adminTest (op : Nat) (c : Cmd) (away : Bool) : Bool :=
  let s := adminOn c away
  let cap := hostCapsule s { c with started := true }
  let u := putCmd s { c with started := true }
  coreLive s && (cmdWith s 0 op == some c) && cmdReady s c && (op != 0x17 && op != 0x18 || capFlag c.capsule 4) && !((cmdOf s 0).any Cmd.started) &&
    !(adminBodyBad c.capsule) && !(s.epoch.refusing && s.epoch.phase == 2) && !(intentsHeld s) && actsFor u (keyPlace u 0 (adminKey cap)).slice == !away

theorem test_hyps_AdministrativeChangesComplete : (([0x20, 0x21, 0x22, 0x28, 0x29, 0x17, 0x18] : List Nat).all fun op =>
    adminTest op (cmdIn 0 (capAdmin op)) false && adminTest op (cmdIn 0 (capAdmin op)) true) = true := by decide +kernel

theorem test_hyps_AdministrativeChangesComplete_asked : ∀ u, u = adminOn { cmdIn 0 (capAdmin 0x20) with started := true } true →
    ∀ h, h = actingHull u (keyPlace u 0 (adminKey (capAdmin 0x20))).slice → ∀ r, r = peerRequest u h { op := 0x88, arg0 := 0 } (capAdmin 0x20) →
    r.2 ≠ 0 ∧ (cmdOf r.1 0).isSome = true := by rintro u rfl h rfl r rfl; decide +kernel

theorem test_hyps_AdministrativeChangesComplete_bad : ∀ c, c = cmdIn 0 (lay [(0, 1, 0x20), (1, 1, 1), (36, 4, 9)] ++ [2]) →
    adminBodyBad c.capsule = true ∧ ((cmdOf (adminOn { c with started := true } false) 0).any Cmd.started) = true ∧ cmdReady (adminOn c false) c = true := by
  rintro c rfl; decide +kernel

/-- Namespaces and tenants for the plans: namespace 5, tenants 9 and 10 with TENANT_ADMIN, no rig active. -/
def planOn : State := { live with
  kv := { live.kv with nss := [⟨5, 0, 0, 0, zeros 16, 1, 70, [], [], 1⟩], tenants := [⟨9, zeros 48, 2, [], 1⟩, ⟨10, zeros 48, 2, [], 1⟩] } }

theorem test_hyps_AdministrativePlans_ns : ∀ p, p = (fun op n : Nat => lay [(0, 1, op), (1, 1, 1), (36, 4, n)]) → capOp (p 0x20 5) = 0x20 ∧
    (nsOf planOn (capP0 (p 0x20 5) % 4096)).isSome = true ∧ (nsOf planOn (capP0 (p 0x20 4095) % 4096)).isSome = false ∧ (freeKeySlot planOn).isSome = true ∧
    capOp (p 0x21 5) = 0x21 ∧ (nsOf planOn (capP0 (p 0x22 4095) % 4096)).isNone = true := by rintro p rfl; decide +kernel

theorem test_hyps_AdministrativePlans_peers : (adminPeers planOn).all (xportLoaded planOn) = true := by decide +kernel

theorem test_hyps_AdministrativePlans_tenant : ∀ p, p = (fun op n f : Nat => lay [(0, 1, op), (1, 1, f), (36, 4, n)] ++ zeros 56) →
    (capOp (p 0x28 65535 17) = 0x28 ∧ capFlag (p 0x28 65535 17) 4 = true ∧ (tenantOf planOn (capP0 (p 0x28 65535 17) % 65536)).isNone = true) ∧
    (capFlag (p 0x28 9 17) 4 = true ∧ (tenantOf planOn (capP0 (p 0x28 9 17) % 65536)).isSome = true ∧ otherAdmin planOn (capP0 (p 0x28 9 17) % 65536) = true) ∧
    (capFlag (p 0x28 11 1) 4 = false ∧ (tenantOf planOn (capP0 (p 0x28 11 1) % 65536)).isNone = true ∧ planOn.kv.tenants.length < 16384) ∧
    (capOp (p 0x29 10 1) = 0x29 ∧ (tenantOf planOn (capP0 (p 0x29 10 1) % 65536)).isSome = true) := by rintro p rfl; decide +kernel

/-- A peer message delivered on session 3 of `rigged`, AUTHENTICATED. -/
def peerOn (b : Bytes) : State :=
  let s := sessOn rigged (newSess 3 1 true) 3 1
  { s with hte := { s.hte with peerIn := [(3, b)] }, kv := { s.kv with tenants := [⟨9, zeros 48, 3, [], 1⟩] } }

/-- A message taken leaves the state without it. -/
theorem peer_of {op : Nat} {b : Bytes} (h : fld b 0 1 = op) : PeerTurn (peerOn b) op 3 b { peerOn b with hte := { (peerOn b).hte with peerIn := [] } } := by
  refine ⟨rfl, ?_, ?_⟩
  · show ([(3, b)] : List (Nat × Bytes)).find? _ = _
    simp [h]
  · show _ = { peerOn b with hte := { (peerOn b).hte with peerIn := ([(3, b)] : List (Nat × Bytes)).erase (3, b) } }
    simp

theorem test_hyps_ClocksAndRecordsComplete : (∀ c, c = cmdIn 0 (lay [(0, 1, 0x30), (36, 4, 999999999), (40, 8, 5)]) → CmdTurn (adminOn c false) 0 0x30 c) ∧
    (∀ c, c = cmdIn 0 (lay [(0, 1, 0x2A), (36, 4, 9)]) → CmdTurn (adminOn c false) 0 0x2A c ∧
      (tenantOf { adminOn c false with kv := { rigged.kv with tenants := [⟨9, zeros 48, 3, [], 1⟩] } } (capP0 c.capsule % 65536)).isSome = true) ∧
    ({ live with kv := { live.kv with retention := some (5, 0) } }).kv.retention.isSome = true ∧ coreLive live = true := by
  refine ⟨?_, ?_, rfl, rfl⟩
  · rintro c rfl; unfold CmdTurn; decide +kernel
  · rintro c rfl; unfold CmdTurn; decide +kernel

/-- A forwarded NS_CREATE of namespace 9 by tenant 9, its TAG 77. -/
def msgForward : Bytes := peerBytes { op := 0x88, tag := 77, arg0 := 9 } (capAdmin 0x20)
/-- A CHECK of namespace 9, and its removal. -/
def msgCheck (arg0 kind : Nat) : Bytes :=
  peerBytes { op := 0x89, tag := 78, arg0 := arg0 } (recHeader { kind := kind, keyLen := 5, nsid := 0, length := 0, version := 2, fprint := 0, created := 0 } 136 ++ pad8 (nsRecKey 9))

theorem test_hyps_ClocksAndRecordsComplete_forward : ∀ u, u = { peerOn msgForward with hte := { (peerOn msgForward).hte with peerIn := [] } } →
    PeerTurn (peerOn msgForward) 0x88 3 msgForward u ∧ forwardReply u (sessHull u 3) (readPeer msgForward).tag = none ∧
    (u.kv.changes.find? fun c => c.kind == 1 && c.tag == (readPeer msgForward).tag && c.hull == sessHull u 3) = none ∧
    (∀ m, maskCapsule (peerBody msgForward) m = capAdmin 0x20) ∧ actsFor u (keyPlace u 0 (adminKey (capAdmin 0x20))).slice = true ∧
    tenantMay u ((readPeer msgForward).arg0 % 65536) (capAdmin 0x20) = true ∧ (u.epoch.refusing && u.epoch.phase == 2) = false := by
  rintro u rfl
  refine ⟨peer_of (by decide +kernel), by decide +kernel, rfl, ?_, by decide +kernel, by decide +kernel, rfl⟩
  intro m
  have h : peerBody msgForward = capAdmin 0x20 := by decide +kernel
  have g : (decide (capOp (capAdmin 0x20) = 0x28) && !(capFlag (capAdmin 0x20) 4)) = false := by decide +kernel
  rw [h, maskCapsule, g]; rfl

theorem test_hyps_ClocksAndRecordsComplete_record : ∀ q ∈ [(1, 1), (0, 2)], ∀ b, b = msgCheck q.1 q.2 → PeerTurn (peerOn b) 0x89 3 b { peerOn b with hte := { (peerOn b).hte with peerIn := [] } } ∧
    (readRecHeader (peerBody b)).any (fun h => h.kind == q.2 && h.keyLen == 5) = true ∧ nsInUse { peerOn b with hte := { (peerOn b).hte with peerIn := [] } } (fld (slice (peerBody b) 128 5) 3 2) = false ∧ bitAt (readPeer b).arg0 0 = (q.1 == 1) := by
  intro q hq b hb; rw [hb]
  simp only [List.mem_cons, List.not_mem_nil, or_false] at hq
  rcases hq with rfl | rfl <;> exact ⟨peer_of (by decide +kernel), by decide +kernel, by decide +kernel, by decide +kernel⟩

theorem test_hyps_ClocksAndRecordsComplete_resend : ∀ x : AdminChange, x = ⟨4, capAdmin 0x20, 9, 0, 0, 0, 2, [], false, 1, [(101, 5)], 0, [], (0, 0), none, 0⟩ →
    ({ live with kv := { live.kv with changes := [x] } }.kv.changes.find? fun c => c.id == 4 && c.waiting.any fun w => w.1 == 101) = some x := by rintro x rfl; decide +kernel

theorem test_hyps_ClocksAndRecordsComplete_join : ∀ b u, b = peerBytes { op := 0x87, tag := 5 } [] → u = { peerOn b with hte := { (peerOn b).hte with peerIn := [] } } →
    PeerTurn (peerOn b) 0x87 3 b u ∧ xportLoaded { u with cip := { u.cip with slots := [⟨71, 3, false, 0, 0, xportKey u (sessHull u 3)⟩] } } (sessHull u 3) = true := by
  intro b u hb hu; rw [hu, hb]
  refine ⟨peer_of (by decide +kernel), ?_⟩
  simp only [xportLoaded, List.any_cons, List.any_nil, Bool.or_false]
  rw [Bool.and_eq_true]; exact ⟨rfl, beq_iff_eq.2 rfl⟩

theorem test_hyps_RetentionClockRises : ({ live with kv := { live.kv with retention := some (7, opsec live) } }).kv.retention = some (7, opsec live) := rfl

theorem test_hyps_BucketsAndStripesComplete_timers : (openFor kvOn 7 5).bind OpenStripe.firstAt = some 0 ∧ coreLive kvOn = true ∧
    (∀ c, c = { cmdIn 9 [] with retryAt := some 77 } → cmdOf (withCmds live [c]) 9 = some c ∧ c.retryAt = some 77) ∧
    (∀ f : Fetch, f = ⟨0, 7, 32, 0, 0, 0, 65535, none, false⟩ →
      ({ live with hte := { live.hte with fetches := [f] } }.hte.fetches.find? fun f => f.tag == 65535 && f.reply.isNone) = some f) := by
  refine ⟨by decide +kernel, rfl, ?_, ?_⟩
  · rintro c rfl; decide +kernel
  · rintro f rfl; decide +kernel

/-- `kvOn` with the directory word of the bucket in another state. -/
def bucketOn (st : Byte) : State := { kvOn with mem := kvOn.mem.map fun c => if c.1 = 0x1701000007 then (c.1, st) else c }

theorem test_hyps_BucketsAndStripesComplete_evict : ∀ s, s = bucketOn 128 → coreLive s = true ∧ sliceHeld s sliceA = true ∧ 0 < 2 ^ sliceB s sliceA ∧
    dirState s sliceA 0 = 2 ∧ dirBusy s sliceA 0 = false ∧ pendingChanges s = [] := by rintro s rfl; decide +kernel

theorem test_hyps_BucketsAndStripesComplete_writeback : sliceHeld kvOn sliceA = true ∧ 0 < 2 ^ sliceB kvOn sliceA ∧ dirState kvOn sliceA 0 = 3 ∧
    dirBusy kvOn sliceA 0 = false ∧ pendingChanges kvOn = [] := by decide +kernel

theorem test_hyps_BucketsAndStripesComplete_discard : ∀ d u, d = ⟨sliceA, 0, 5, [], [], 0, none⟩ → u = { kvOn with kv := { kvOn.kv with discards := [d] } } →
    u = { u with kv := { u.kv with discards := u.kv.discards.filter fun d => !(discardDone u d) } } ∧ (u.kv.discards.find? fun d => d.mirror.isNone) = some d := by
  rintro d u rfl rfl; exact ⟨rfl, rfl⟩

theorem test_hyps_BucketsAndStripesComplete_rebuild : ((kvOn.kv.rebuilds.find? fun r => r.group == 7).isNone ∧ (groupRec kvOn 7).isSome) ∧
    ((rebuildOn.kv.rebuilds.find? fun r => r.group == 7).map IndexRebuild.left) = some [(64, 1)] ∧ ((genOf rebuildOn 7 1).map GenSet.k) = some 1 ∧
    (match (readStripe rebuildOn (crewUser rebuildOn 3 7) 7 1 64 (List.range 1)).2 with | .units _ _ _ => true | _ => false) = true := by decide +kernel

theorem test_hyps_FragmentsComplete_write : ∀ b u, b = fragMsg 0x81 2 0 0 [] → u = peerGone (seatOn []) → PeerTurn (peerAt (seatOn []) b) 0x81 3 b u ∧
    fragCheck5 u 3 b = none ∧ (holding u (readPeer b).group (readPeer b).stripe).kind = 9 ∧ bitAt (readPeer b).pflags 1 = true ∧
    (journalFragment u 7 (unit0 (readPeer b).stripe) (readPeer b).pos (readPeer b).gen (readPeer b).k (readPeer b).m ((readPeer b).arg1 % 2 ^ 32) (sessHull u 3)
      (readPeer b).arg0 true (peerBody b)).isSome = true := by
  intro b u hb hu; rw [hu, hb]; exact ⟨peerAt_turn (by decide +kernel), by decide +kernel, by decide +kernel, by decide +kernel, by decide +kernel⟩

theorem test_hyps_FragmentsComplete_repeated : ∀ crc ∈ [77, 78], ∀ b u, b = fragMsg 0x81 0 0 crc [1] → u = peerGone (seatOn [fragA 0]) →
    PeerTurn (peerAt (seatOn [fragA 0]) b) 0x81 3 b u ∧ fragCheck5 u 3 b = none ∧ (holding u (readPeer b).group (readPeer b).stripe).kind = 0 ∧
    (holding u (readPeer b).group (readPeer b).stripe).pos = (readPeer b).pos := by
  intro crc hc b u hb hu; rw [hu, hb]
  refine ⟨peerAt_turn ?_, ?_, ?_, ?_⟩ <;> (simp only [List.mem_cons, List.not_mem_nil, or_false] at hc; rcases hc with rfl | rfl <;> decide +kernel)

theorem test_hyps_FragmentsComplete_read : ∀ off ∈ [0, 65535], ∀ b u, b = fragMsg 0x82 0 off 0 [] → u = peerGone (seatOn [fragA 0]) →
    PeerTurn (peerAt (seatOn [fragA 0]) b) 0x82 3 b u ∧ ((readPeer b).group ≠ 0 ∨ (readPeer b).pos ≠ 0xFF) ∧ (readPeer b).arg0 % 2 ^ 32 < 65536 ∧
    (holding u (readPeer b).group (readPeer b).stripe).kind ∉ [2, 3, 4, 9] ∧ (holding u (readPeer b).group (readPeer b).stripe).pos = (readPeer b).pos ∧
    (holdingBytes u (readPeer b).group (readPeer b).stripe).isSome = true := by
  intro off ho b u hb hu; rw [hu, hb]
  refine ⟨peerAt_turn ?_, ?_⟩ <;> (simp only [List.mem_cons, List.not_mem_nil, or_false] at ho; rcases ho with rfl | rfl <;> decide +kernel)

/-- An outcome is recorded where the ring has room. -/
theorem outcome_of {s : State} {group stripe run result : Nat} (h : ringRoom s 128 = true) : ∃ v, seatOutcome s group stripe run result = some v := by
  simp only [seatOutcome]
  split
  · exact ⟨_, rfl⟩
  · have hb : alignUp (64 + (le 8 (unit0 stripe) ++ le 8 run ++ le 1 result ++ zeros 47).length) 64 = 128 := by simp [le_length, zeros, alignUp]
    simp only [pjAppend, hb, h, Bool.not_true, Bool.false_eq_true, if_false, Option.map_some]; exact ⟨_, rfl⟩

theorem test_hyps_FragmentsComplete_replace : ∀ b u, b = fragMsg 0x93 0 0 (crc32c [1, 2]) [1, 2] → u = peerGone (seatOn [fragA 4]) →
    PeerTurn (peerAt (seatOn [fragA 4]) b) 0x93 3 b u ∧ fragCheck5 u 3 b = none ∧ (holding u (readPeer b).group (readPeer b).stripe).kind ∈ [0, 2, 4] ∧
    (holding u (readPeer b).group (readPeer b).stripe).pos = (readPeer b).pos ∧ crc32c (peerBody b) = (readPeer b).arg1 % 2 ^ 32 ∧
    ∃ w v, journalFragment u (readPeer b).group (unit0 (readPeer b).stripe) (readPeer b).pos (readPeer b).gen (readPeer b).k (readPeer b).m
      ((readPeer b).arg1 % 2 ^ 32) (sessHull u 3) (readPeer b).arg0 false (peerBody b) = some w ∧ seatOutcome w (readPeer b).group (readPeer b).stripe 1 1 = some v := by
  intro b u hb hu; rw [hu, hb]
  refine ⟨peerAt_turn (by decide +kernel), by decide +kernel, by decide +kernel, by decide +kernel, by decide +kernel, ?_⟩
  have h : ((journalFragment (peerGone (seatOn [fragA 4])) (readPeer (fragMsg 0x93 0 0 (crc32c [1, 2]) [1, 2])).group
      (unit0 (readPeer (fragMsg 0x93 0 0 (crc32c [1, 2]) [1, 2])).stripe) (readPeer (fragMsg 0x93 0 0 (crc32c [1, 2]) [1, 2])).pos
      (readPeer (fragMsg 0x93 0 0 (crc32c [1, 2]) [1, 2])).gen (readPeer (fragMsg 0x93 0 0 (crc32c [1, 2]) [1, 2])).k
      (readPeer (fragMsg 0x93 0 0 (crc32c [1, 2]) [1, 2])).m ((readPeer (fragMsg 0x93 0 0 (crc32c [1, 2]) [1, 2])).arg1 % 2 ^ 32)
      (sessHull (peerGone (seatOn [fragA 4])) 3) (readPeer (fragMsg 0x93 0 0 (crc32c [1, 2]) [1, 2])).arg0 false
      (peerBody (fragMsg 0x93 0 0 (crc32c [1, 2]) [1, 2]))).any fun w => ringRoom w 128) = true := by decide +kernel
  obtain ⟨w, hw, hr⟩ := some_of h
  obtain ⟨v, hv⟩ := outcome_of hr
  exact ⟨w, v, hw, hv⟩

theorem test_hyps_FragmentsComplete_outcomes : ∀ op ∈ [0x83, 0x84, 0x85], ∀ b u, b = fragMsg op 0 0 1 [] → u = peerGone (seatOn [fragA 0]) →
    PeerTurn (peerAt (seatOn [fragA 0]) b) op 3 b u ∧ (readPeer b).arg1 ≠ 0 ∧
    ∀ result ∈ [1, 2, 4], ∃ v, seatOutcome u (readPeer b).group (readPeer b).stripe (readPeer b).arg1 result = some v := by
  intro op h b u hb hu; rw [hu, hb]
  simp only [List.mem_cons, List.not_mem_nil, or_false] at h
  rcases h with rfl | rfl | rfl <;> exact ⟨peerAt_turn (by decide +kernel), by decide +kernel, fun _ _ => outcome_of (by decide +kernel)⟩

theorem test_hyps_FragmentsComplete_resend : ∀ r : PeerReq, r = ⟨3, 6, 0x81, [], 0, 1, 101⟩ →
    ({ live with hte := { live.hte with requests := [r] } }.hte.requests.find? fun r => r.tag == 6 && r.op == 0x81 && decide (r.sentAt > live.now)) = some r := by
  rintro r rfl; decide +kernel

/-- The lost marker of stripe 96, recorded. -/
def markerA : NoteRec := ⟨3, 0, 7, 96, 1, 2, [(4, 0)]⟩

theorem test_hyps_FragmentsComplete_lost : ∀ b s u, b = fragMsg 0x92 0 1 0 (le 8 96 ++ le 1 1 ++ zeros 7) →
    s = { seatOn [] with media := { (seatOn []).media with notes := [markerA] } } → u = peerGone s → PeerTurn (peerAt s b) 0x92 3 b u ∧
    (groupRec u (readPeer b).group).any (fun g => (lostEntries (peerBody b) ((readPeer b).arg0 % 65536)).all fun e =>
      (stripeSeats u (readPeer b).group e.2 e.1).contains g.seat && (u.media.notes.any fun n => n.kind == 3 && n.group == (readPeer b).group && n.ident == unit0 e.1) &&
        markerRecorded u (readPeer b).group e.1) = true := by
  intro b s u hb hs hu; rw [hu, hs, hb]; exact ⟨peerAt_turn (by decide +kernel), by decide +kernel⟩

theorem test_hyps_FragmentsComplete_inventory : ∀ kept ∈ [0, 256], ∀ b u, b = fragMsg 0x90 0 kept 0 [] → u = peerGone (seatOn [fragA 0]) →
    PeerTurn (peerAt (seatOn [fragA 0]) b) 0x90 3 b u ∧ (groupRec u (readPeer b).group).any (fun g => !(g.isLost ((readPeer b).arg0 % 32)) &&
      decide ((((if bitAt (readPeer b).arg0 8 then g.kept.map (fun x => (x.stripe, x.genId)) else heldStripes u (readPeer b).group).filter fun e =>
        (stripeSeats u (readPeer b).group e.2 e.1).contains ((readPeer b).arg0 % 32) && decide (e.1 > (readPeer b).arg1 || (readPeer b).arg1 == 0)).foldr
          insertStripe []).length ≤ 4096)) = true := by
  intro k hk b u hb hu; rw [hu, hb]
  refine ⟨peerAt_turn ?_, ?_⟩ <;> (simp only [List.mem_cons, List.not_mem_nil, or_false] at hk; rcases hk with rfl | rfl <;> decide +kernel)

theorem test_hyps_FragmentsComplete_disown : ∀ b s, b = peerBytes { op := 0x8B, arg0 := 65535 } [] →
    s = { seatOn [] with kv := { (seatOn []).kv with slices := [{ newSlice 65535 0 with takeover := 4 }] } } →
    PeerTurn (peerAt s b) 0x8B 3 b (peerGone s) ∧ actsFor (peerGone s) ((readPeer b).arg0 % 65536) = false := by
  intro b s hb hs; rw [hs, hb]; exact ⟨peerAt_turn (by decide +kernel), by decide +kernel⟩

/-- `kvOn` with group 7 changed, an AUTHENTICATED session 3 with hull 101 and a FRAG_WRITE to it outstanding. -/
def groupOn (f : Group → Group) : State :=
  let s := sessPut (sessOn kvOn (newSess 3 1 true) 3 1) 3 72 8 101
  { s with groups := s.groups.map f, hte := { s.hte with requests := [⟨3, 6, 0x81, fragMsg 0x81 0 0 0 [], 0, 0, 101⟩] } }

theorem test_hyps_GroupsComplete : (groupRec (groupOn id) 7).isSome = true ∧ coreLive (groupOn id) = true ∧ 2 < groupSeats (groupOn id) 7 ∧
    (groupRec (groupOn id) 7).any (fun g => g.seat != 2) = true := by decide +kernel

theorem test_hyps_GroupsComplete_status : ∀ b, b = peerBytes { op := 0x86, group := 7, epoch := 5 } ([4, 2, 1] ++ zeros 61) → ∀ u p, u = peerGone (groupOn id) →
    p = noteReport u (sessHull u 3) (readStatus (peerBody b)).staged (readStatus (peerBody b)).phase → PeerTurn (peerAt (groupOn id) b) 0x86 3 b u ∧ (readPeer b).group = 7 ∧
    (groupRec p 7).isSome = true ∧ hullSeat p 7 (sessHull u 3) = some (readStatus (peerBody b)).seat ∧ (readStatus (peerBody b)).dev ∉ [5, 6, 7, 8] ∧
    (groupRec p 7).any (fun r => ((r.info (readStatus (peerBody b)).seat).getD (noInfo (readStatus (peerBody b)).seat 0)).dev != 8) = true := by
  rintro b rfl u p rfl rfl; exact ⟨peerAt_turn (by decide +kernel), by decide +kernel⟩

theorem test_hyps_GroupsComplete_forming : ∀ s, s = groupOn (fun g => { g with gstate := 1, seats := [⟨1, 60 * sec, 4, 1, 0, 0, 5, 0, 0, [], []⟩], descriptor := some 1 }) →
    (groupRec s 7).any (fun g => (writingSet s 7).any fun x =>
      let u := reach s (g.formingAt + 60 * sec)
      let fails := (List.range (groupSeats u 7)).filter fun t => t != g.seat && (g.isLost t || (peerSession u 1 (seatHull u 7 t)).isNone ||
        !(match g.info t with | some i => i.epoch == activeEpoch u && (i.dev == 4 || i.dev == 5) | none => false))
      g.gstate == 1 && !g.returning && g.descriptor.isSome && fails == [2] && decide (fails.length ≤ x.m) && majority u g) = true := by
  rintro s rfl; decide +kernel

theorem test_hyps_GroupsComplete_writeLimit : ∀ s u, s = groupOn id → u = reach s (s.media.settings.writeLimitMs * ms) →
    ((s.hte.requests.find? fun r => r.tag == 6 && (r.op == 0x81 || r.op == 0x83 || r.op == 0x84)).bind fun r => hullSeat u (fld r.msg 4 4) r.hull) = some 1 := by
  rintro s u rfl rfl; decide +kernel

theorem test_hyps_GroupsComplete_notice : ∀ b s, b = peerBytes { op := 0x91, group := 7, arg0 := 0x402, arg1 := 10 * 2 ^ 32 + 3 } [] →
    s = groupOn (fun g => { g with gstate := 4, lost := 4 }) → PeerTurn (peerAt s b) 0x91 3 b (peerGone s) ∧ (readPeer b).group = 7 ∧
    bits (readPeer b).arg0 8 8 = 4 ∧ (groupRec (peerGone s) 7).any (fun r => r.gstate == 4) = true := by
  rintro b s rfl rfl; exact ⟨peerAt_turn (by decide +kernel), by decide +kernel⟩

/-- A container that names an epoch leader. -/
def leaderOf (n : Nat) : Bytes := lay [(24, 8, n)]

/-- `rigged` with the container of epoch 6 staged, in a phase. -/
def epochOn (phase leader : Nat) : State :=
  let s := setFs (sessOn rigged (newSess 3 1 true) 3 1) [(F.RIG_STAGED_EPOCH_EPOCH, 6), (F.RIG_STAGED_CRC_CRC, 7), (F.RIG_STATUS_STAGED, 1)]
  { s with rig := { s.rig with kept := [(6, leaderOf leader)] }, epoch := { s.epoch with phase := phase, epoch := 6 } }

/-- A message of an epoch change to epoch 6. -/
def epochMsg (op : Nat) : Bytes := peerBytes { op := op, epoch := 5, tag := 6, arg0 := 6, arg1 := 7 } []

theorem test_hyps_EpochChangeComplete_start : ∃ n c, coreLive (epochOn 0 n) = true ∧ stagedRig (epochOn 0 n) = some c ∧
    flag (epochOn 0 n) F.RIG_STATUS_STAGED = true ∧ rigOn (epochOn 0 n) = true ∧ rigLeader c ≠ Config.hull := by
  by_cases h : Config.hull = 100
  · exact ⟨101, leaderOf 101, by decide +kernel, by decide +kernel, by decide +kernel, by decide +kernel, by rw [h]; decide +kernel⟩
  · refine ⟨100, leaderOf 100, by decide +kernel, by decide +kernel, by decide +kernel, by decide +kernel, ?_⟩
    have g : rigLeader (leaderOf 100) = 100 := by decide +kernel
    rw [g]; exact fun x => h x.symm

/-- The leader a container names. -/
theorem leaderOf_leader {n : Nat} (h : n < 2 ^ 64) : rigLeader (leaderOf n) = n := by
  have e : leaderOf n = zeros 24 ++ (le 8 n ++ zeros 32) := by
    simp only [leaderOf, lay, List.foldl_cons, List.foldl_nil, patch, le_length]
    simp [zeros, fit]
  rw [rigLeader, e]; exact fld_at rfl rfl (by simp [zeros]) h

/-- A device that is leader, its active rig with no other device, whose container of epoch 6 is staged. -/
def leadOn : State :=
  let s := setFs live [(F.RIG_EPOCH_EPOCH, 5), (F.RIG_STAGED_EPOCH_EPOCH, 6), (F.RIG_STAGED_CRC_CRC, 7), (F.RIG_STATUS_STAGED, 1)]
  { s with rig := { s.rig with kept := [(6, leaderOf Config.hull)] } }

theorem test_hyps_EpochChangeComplete_lead : ∀ c v w, c = leaderOf Config.hull → v = containerView c → w = enterStaged (bulkCopies leadOn v) v →
    coreLive leadOn = true ∧ stagedRig leadOn = some c ∧ flag leadOn F.RIG_STATUS_STAGED = true ∧ rigLeader c = Config.hull ∧ w.epoch.phase = 1 ∧ rigOn w = true ∧
    (changePeers w v).all (reportsStaged w w.epoch.epoch) = true := by
  rintro c v w rfl rfl rfl
  refine ⟨by decide +kernel, ?_, by decide +kernel, leaderOf_leader ?_, by decide +kernel, by decide +kernel, by decide +kernel⟩
  · have h : getF leadOn F.RIG_STAGED_EPOCH_EPOCH = 6 := by decide +kernel
    simp only [stagedRig, h]; rfl
  · have := Config.hullIndex.isLt; unfold Config.hull; omega

theorem test_hyps_EpochChangeComplete_phases : (coreLive (epochOn 5 100) = true ∧ (epochOn 5 100).epoch.phase = 5) ∧
    (coreLive (epochOn 2 100) = true ∧ (epochOn 2 100).epoch.phase = 2 ∧ (stagedRig (epochOn 2 100)).isSome = true) := by decide +kernel

theorem test_hyps_EpochChangeComplete_messages : ∀ op ∈ [0x8C, 0x8D, 0x8E, 0x8F], ∀ b, b = epochMsg op →
    PeerTurn (peerAt (epochOn 2 100) b) op 3 b (peerGone (epochOn 2 100)) ∧ (readPeer b).arg0 = 6 ∧ (peerGone (epochOn 2 100)).epoch.phase = 2 ∧
    (peerGone (epochOn 2 100)).epoch.epoch = 6 ∧ getF (peerGone (epochOn 2 100)) F.RIG_STAGED_EPOCH_EPOCH = 6 ∧
    activeEpoch (peerGone (epochOn 2 100)) ≠ 6 ∧ outcomeOf (peerGone (epochOn 2 100)) 6 ≠ some true ∧
    (epochAnswer (peerGone (epochOn 2 100)) 6).1 ≠ 1 := by
  intro op h b hb; rw [hb]
  simp only [List.mem_cons, List.not_mem_nil, or_false] at h
  rcases h with rfl | rfl | rfl | rfl <;> exact ⟨peerAt_turn (by decide +kernel), by decide +kernel⟩

theorem test_hyps_EpochChangeComplete_prepare : ∀ b u, b = epochMsg 0x8C → u = peerGone (epochOn 1 100) → PeerTurn (peerAt (epochOn 1 100) b) 0x8C 3 b u ∧
    (u.epoch.phase ≠ 2 ∨ u.epoch.epoch ≠ 6) ∧ getF u F.RIG_STAGED_EPOCH_EPOCH = 6 ∧ getF u F.RIG_STAGED_CRC_CRC = (readPeer b).arg1 % 2 ^ 32 ∧
    outcomeOf u 6 = none ∧ drained (advance (sealAll { u with epoch := { u.epoch with preparer := some (3, (readPeer b).tag) } })) = true ∧
    (stagedRig (advance (sealAll { u with epoch := { u.epoch with preparer := some (3, (readPeer b).tag) } }))).isSome = true := by
  intro b u hb hu; rw [hu, hb]; exact ⟨peerAt_turn (by decide +kernel), by decide +kernel⟩

theorem test_hyps_EpochChangeComplete_copy (h : Config.hull = 100) : ∀ b s u, b = peerBytes { op := 0x8A, arg0 := 65535 } [] →
    s = { seatOn [] with kv := { (seatOn []).kv with slices := [{ newSlice 65535 0 with takeover := 4 }] } } → u = peerGone s →
    PeerTurn (peerAt s b) 0x8A 3 b u ∧ actsFor u ((readPeer b).arg0 % 65536) = false ∧
    (roleHulls (activeView u) ((readPeer b).arg0 % 65536)).contains Config.hull = true := by
  intro b s u hb hs hu; rw [hu, hs, hb]; exact ⟨peerAt_turn (by decide +kernel), by decide +kernel, by rw [h]; decide +kernel⟩

theorem test_hyps_EpochChangeComplete_asked : ∀ b u, b = peerBytes { op := 0x8A, arg0 := sliceA } [] → u = peerGone (sessPut (seatOn []) 3 72 8 100) →
    PeerTurn (peerAt (sessPut (seatOn []) 3 72 8 100) b) 0x8A 3 b u ∧ actsFor u ((readPeer b).arg0 % 65536) = true ∧ sliceWhole u ((readPeer b).arg0 % 65536) = true ∧
    peerLen b = 0 ∧ (roleHulls (activeView u) ((readPeer b).arg0 % 65536)).contains (sessHull u 3) = true := by
  intro b u hb hu; rw [hu, hb]; exact ⟨peerAt_turn (by decide +kernel), by decide +kernel⟩

theorem test_hyps_EpochChangeComplete_swap (h : Config.hull = 100) : ∀ s : State, s = { setFs live [(F.RIG_STATUS_SWAPPING, 1)] with rig := { live.rig with staged := some ⟨[], [], 0, 0⟩ } } →
    coreLive s = true ∧ s.rig.staged = some ⟨[], [], 0, 0⟩ ∧ flag s F.RIG_STATUS_SWAPPING = true ∧ rigCrowded (activeView (rigSwapEnd s ⟨[], [], 0, 0⟩)) = false ∧
    rigDropsLive s (activeView (rigSwapEnd s ⟨[], [], 0, 0⟩)) = false := by rintro s rfl; simp only [rigCrowded, h]; decide +kernel

/-- A channel with a partner whose hull number follows this device's. -/
def chanB : PairCh := ⟨0, 1, 0, 0, 0, Config.hull + 1, 0, 0, 0, 0, none, 0, 0, 0, [], 0, none, false, false, 0, false⟩

theorem test_hyps_PeerSessionsComplete_open : ∀ s : State, s = { live with pj := { live.pj with chans := [chanB] } } → coreLive s = true ∧
    (chanWith s (Config.hull + 1)).isSome = true ∧ Config.hull < Config.hull + 1 ∧ anySession s 2 (Config.hull + 1) = none ∧ s.hte.sessions = [] ∧
    freeSession s = some 0 := by
  rintro s rfl
  refine ⟨by decide +kernel, ?_, by omega, rfl, rfl, by decide +kernel⟩
  simp [chanWith, chanB]

theorem test_hyps_PeerSessionsComplete_rep : (sessRec (sessOn live (newSess 3 1 true) 0 1) 3).any Sess.initiator = true ∧
    sessState (sessOn live (newSess 3 1 true) 0 1) 3 = 0 ∧ coreLive (sessOn live (newSess 3 1 true) 0 1) = true := by decide +kernel

/-- The body of a HELLO of hull 101. -/
def helloA (nonce eph : Bytes) : Bytes := fit (le 8 101 ++ le 8 5 ++ le 8 0 ++ fit nonce 32 ++ fit eph 97) 256
/-- `rigged` with session 3 CONNECTED as initiator or responder, KIND 1. -/
def helloOn (init : Bool) : State := sessOn rigged { newSess 3 1 init with ready := true } 1 1

/-- A HELLO body of a peer of the rig passes where this device's hull number is 100 and the signature verifies. -/
theorem helloGood_of (h : Config.hull = 100) (v : ∀ k m g, Config.ecdsaVerify k m g = true) (j : Bool) {body own : Bytes} {i : Bool}
    (hl : (body.length == 256 && fld body 0 8 == 101) = true) : helloGood (peerGone (helloOn j)) body own i = true := by
  simp only [Bool.and_eq_true, beq_iff_eq] at hl
  have g : (groupHulls (peerGone (helloOn j))).contains 101 = true := by
    simp only [groupHulls, rigPeers, h]; cases j <;> decide +kernel
  obtain ⟨k, hk⟩ : ∃ k, rigPublicKey (peerGone (helloOn j)) 101 = some k := by
    apply Option.isSome_iff_exists.1
    cases j <;> decide +kernel
  simp only [helloGood, hl.1, hl.2, g, hk, v, decide_true, Bool.and_true]

theorem test_hyps_PeerSessionsComplete_hello (h : Config.hull = 100) (v : ∀ k m g, Config.ecdsaVerify k m g = true) : ∀ b u,
    b = peerBytes { op := 0x80, tag := 6 } (helloA [] []) → u = peerGone (helloOn false) → PeerTurn (peerAt (helloOn false) b) 0x80 3 b u ∧
    (sessRec u 3).any (fun x => !x.initiator) = true ∧ sessState u 3 = 1 ∧ bitAt (fld b 1 1) 0 = false ∧ u.cox.dropped = false ∧
    helloGood u (peerBody b) [] true = true := by
  intro b u hb hu; rw [hu, hb]
  exact ⟨peerAt_turn (by decide +kernel), by decide +kernel, by decide +kernel, by decide +kernel, by decide +kernel,
    helloGood_of h v _ (by decide +kernel)⟩

theorem test_hyps_PeerSessionsComplete_helloReply (h : Config.hull = 100) (v : ∀ k m g, Config.ecdsaVerify k m g = true) : ∀ b u,
    b = peerBytes { op := 0x80, pflags := 1, tag := 6 } (helloA [] []) → u = peerGone (helloOn true) → PeerTurn (peerAt (helloOn true) b) 0x80 3 b u ∧
    (sessRec u 3).any (fun x => x.initiator) = true ∧ sessState u 3 = 1 ∧ bitAt (fld b 1 1) 0 = true ∧ fld b 2 2 = 0 ∧ sessKind u 3 = 1 ∧
    ∀ x : Sess, helloGood u (peerBody b) (zeros 24 ++ x.nonce ++ x.ephPub) false = true := by
  intro b u hb hu; rw [hu, hb]
  exact ⟨peerAt_turn (by decide +kernel), by decide +kernel, by decide +kernel, by decide +kernel, by decide +kernel, by decide +kernel,
    fun x => helloGood_of h v _ (by decide +kernel)⟩

theorem test_hyps_PeerSessionsComplete_replyReceived : ∀ b s, b = peerBytes { op := 0x81, pflags := 1, tag := 6 } [] →
    s = sessOn live { newSess 3 1 true with ready := true } 3 1 → coreLive s = true ∧ carriesPeer s 3 = true ∧ sessState s 3 = 3 ∧
    bitAt (fld b 1 1) 0 = true ∧ fld b 0 1 ≠ 0x80 := by
  intro b s hb hs; rw [hs, hb]; decide +kernel

/-- A message of `rigged`'s peer: a FRAG_COMMIT, and an EPOCH_QUERY with its SEQ and MAC under the key of zeros. -/
def msgCommit : Bytes := peerBytes { op := 0x83, group := 7, epoch := 5, tag := 6, arg1 := 1 } []
def msgQuery : Bytes :=
  let b := peerBytes { op := 0x8F, tag := 6, arg0 := 6 } []
  b ++ le 8 1 ++ peerMac (zeros 32) 1 1 b

theorem test_hyps_PeerSessionsComplete_message : ∀ b ∈ [msgCommit, msgQuery], ∀ s, s = sessOn rigged { newSess 3 1 true with ready := true, key := some (zeros 32) } 3 1 →
    sessKind s 3 ≠ 2 ∧ carriesPeer s 3 = true ∧ (flag s F.HTE_SESS_HOLD_HELD && getF s F.HTE_SESS_HOLD_SESSION == 3) = false ∧
    bitAt (fld b 1 1) 0 = false ∧ peerFormOk b = true ∧ peerAssigned (fld b 0 1) = true ∧
    (peerControl (fld b 0 1) = true → ((sessRec s 3).any fun x => peerSealOk x b) = true) ∧ sessState s 3 = 3 ∧
    (s.hte.peerIn.filter fun p => p.1 == 3).length + (s.kv.changes.filter fun c => c.kind == 1 && c.owner == 3).length < 1024 ∧ ¬ (fld b 0 1 = 0x81 ∨ fld b 0 1 = 0x93) := by
  intro b hb s hs; subst hs
  simp only [List.mem_cons, List.not_mem_nil, or_false] at hb
  rcases hb with rfl | rfl <;> decide +kernel

theorem test_hyps_JournalRegistersComplete : ∀ core ∈ [0, 7], (∀ a ∈ [F.ES_CTRL_TEST.addr, F.PJ_CTRL_ENABLE.addr, F.PJ_CTRL_RESTORE.addr, (F.PJ_VMAP_VALID 511).addr,
    (F.PJ_ALLOC_REQ_BYTES core).addr], StoreTurn live core a (coreActs live core)) ∧ flag live F.PJ_CTRL_ENABLE = false ∧ flag live F.PJ_CTRL_DUMP_ARM = false ∧
    live.pj.loading = false ∧ (StoreTurn kvOn core (F.PJ_ALLOC_REQ_BYTES core).addr (coreActs kvOn core) ∧ alignUp 1 64 ≠ 0 ∧
    ringRoom (coreActs kvOn core) (alignUp 1 64) = true ∧ padNeeded (coreActs kvOn core) (alignUp 1 64) = 0 ∧ alignUp 0 64 = 0) := by
  intro core h
  simp only [List.mem_cons, List.not_mem_nil, or_false] at h
  refine ⟨?_, by decide +kernel, by decide +kernel, by decide +kernel, ?_, ?_⟩
  · intro a ha
    apply store_of
    revert a
    rcases h with rfl | rfl <;> decide +kernel
  · apply store_of; rcases h with rfl | rfl <;> decide +kernel
  · rcases h with rfl | rfl <;> decide +kernel

theorem test_hyps_JournalRegistersComplete_vmap : ∀ u v, u = setFs live [(F.FC_LUN_STATUS_PRESENT 0 0, 1), (F.PJ_VMAP_VALID 3, 1)] → v = 2 ^ 63 →
    bits v 40 23 = 0 ∧ bits v 24 6 = 0 ∧ flag u F.PJ_CTRL_DUMP_ARM = false ∧ bitAt v 63 = true ∧ vmapLun u v = true ∧
    ∀ i < 512, ¬ (i ≠ 511 ∧ i / 256 = 511 / 256 ∧ flag u (F.PJ_VMAP_VALID i) = true ∧ getF u (F.PJ_VMAP_CHANNEL i) = bits v 35 5) := by rintro u v rfl rfl; decide +kernel

/-- What the loader makes of a container that fails a check. -/
theorem loader_of {s : State} (h : rigCheck s (readLoose (linePieces (max 256 (min (getF s F.RIG_SRC_LEN_BYTES) 0x10000000) / 256 + 2) (getF s F.RIG_SRC_ADDR_ADDR)
      (max 256 (min (getF s F.RIG_SRC_LEN_BYTES) 0x10000000))) s 10).2.1 (getF s F.RIG_SRC_LEN_BYTES) (readLoose (linePieces (max 256 (min (getF s F.RIG_SRC_LEN_BYTES) 0x10000000)
      / 256 + 2) (getF s F.RIG_SRC_ADDR_ADDR) (max 256 (min (getF s F.RIG_SRC_LEN_BYTES) 0x10000000))) s 10).2.2 ≠ 0) : ∃ t, LoaderEnds s t :=
  ⟨_, Or.inl ⟨_, _, rfl, rfl, h, rfl⟩⟩

/-- A restore under way: in READY, in BOOT with no rig, and in BOOT with a rig of epoch 5 whose container is kept. -/
def restOn (dev active : Nat) : State := { live with
  pwr := { live.pwr with dev := dev }
  pj := { live.pj with loading := true }
  rig := { live.rig with active := active, kept := [(5, [1])] } }

theorem test_hyps_JournalRegistersComplete_restoreEnd : (∀ q ∈ [(4, 0), (1, 0), (1, 5)], coreLive (restOn q.1 q.2) = true ∧ (restOn q.1 q.2).pj.loading = true ∧
      (restoreEnd (restOn q.1 q.2)).pwr.dev = q.1 ∧ (q.1 = 1 → startEpoch (reloadKeys { restoreEnd (restOn q.1 q.2) with pwr := { (restoreEnd (restOn q.1 q.2)).pwr with dev := 2 } }) = q.2)) ∧
    ∀ y, y = reloadKeys { restoreEnd (restOn 1 5) with pwr := { (restoreEnd (restOn 1 5)).pwr with dev := 2 } } → 5 = y.rig.active ∧
      (y.rig.kept.find? fun k => k.1 == 5) = some (5, [1]) ∧
      (∃ t, LoaderEnds (setF (crewStore y (getF y F.RIG_SRC_ADDR_ADDR) [1]) F.RIG_SRC_LEN_BYTES 1) t) ∧ y.epoch.phase ∉ [1, 2, 5, 6] := by
  refine ⟨by decide +kernel, ?_⟩
  rintro y rfl
  exact ⟨by decide +kernel, by decide +kernel, loader_of (by decide +kernel), by decide +kernel⟩

theorem test_hyps_PairFramesComplete_ack : PairFrame (pairAt (pairOn [] 0) (pairFrameOf chanC (zeros 32) 2 4 (le 8 1))) 2 chanC (le 8 1) 4 (pairGone (pairOn [] 0) chanC) :=
  pairC_of (by decide +kernel) (by decide) rfl

/-- A change made by a frame leaves the channel there, as a test. -/
def mirrorTest (u : State) (b x : Bytes) : Bool := (mirrorRecord u b x).any fun v => (chanWith v 101).isSome

theorem mirror_of {u : State} {b x : Bytes} (h : mirrorTest u b x = true) : ∃ v t, mirrorRecord u b x = some v ∧ PairTaken v chanC 5 t := by
  obtain ⟨v, h1, h2⟩ := some_of h
  obtain ⟨t, h3⟩ := pairTaken_of (seq := 5) h2
  exact ⟨v, t, h1, h3⟩

theorem test_hyps_PairFramesComplete_intent : ∀ b u, b = recOf 1 (zeros 64) → u = pairGone (pairOn [] 0) chanC →
    PairFrame (pairAt (pairOn [] 0) (pairFrameOf chanC (zeros 32) 0x10 5 b)) 0x10 chanC b 5 u ∧ ∃ v t, mirrorRecord u b (rkBody b) = some v ∧ PairTaken v chanC 5 t := by
  intro b u hb hu; subst hb hu; exact ⟨pairC_of (by decide +kernel) (by decide +kernel) rfl, mirror_of (by decide +kernel)⟩

theorem test_hyps_PairFramesComplete_outcome : ∀ b u, b = recOf 2 (zeros 64) → u = pairGone (pairOn [] 0) chanC →
    PairFrame (pairAt (pairOn [] 0) (pairFrameOf chanC (zeros 32) 0x11 5 b)) 0x11 chanC b 5 u ∧ ringRoom u (alignUp b.length 64) = true ∧
    takeChanges (heldChanges u (fld (rkBody b) 8 2) ((rkBody b).drop 64)) u = some (u, [], []) ∧
    ∃ v t, mirrorRecord (dropCopies u []) b ((rkBody b).take 8 ++ le 2 0 ++ slice (rkBody b) 10 54 ++ []) = some v ∧ PairTaken v chanC 5 t := by
  intro b u hb hu; subst hb hu
  have h : fld (rkBody (recOf 2 (zeros 64))) 8 2 = 0 := by decide +kernel
  exact ⟨pairC_of (by decide +kernel) (by decide +kernel) rfl, by decide +kernel, by rw [h]; rfl, mirror_of (by decide +kernel)⟩

theorem test_hyps_PairFramesComplete_index : ∀ b u, b = recOf 3 (zeros 64) → u = pairGone (pairOn [] 0) chanC →
    PairFrame (pairAt (pairOn [] 0) (pairFrameOf chanC (zeros 32) 0x12 5 b)) 0x12 chanC b 5 u ∧ ringRoom u (alignUp b.length 64) = true ∧
    takeChanges (heldChanges u (fld (rkBody b) 0 2) ((rkBody b).drop 64)) u = some (u, [], []) ∧
    ∃ v t, mirrorRecord (dropCopies u []) b (le 2 0 ++ zeros 62 ++ []) = some v ∧ PairTaken v chanC 5 t := by
  intro b u hb hu; subst hb hu
  have h : fld (rkBody (recOf 3 (zeros 64))) 0 2 = 0 := by decide +kernel
  exact ⟨pairC_of (by decide +kernel) (by decide +kernel) rfl, by decide +kernel, by rw [h]; rfl, mirror_of (by decide +kernel)⟩

theorem test_hyps_PairFramesComplete_open : ∀ b u, b = recOf 4 (zeros 64) → u = pairGone (pairOn [] 0) chanC →
    PairFrame (pairAt (pairOn [] 0) (pairFrameOf chanC (zeros 32) 0x13 5 b)) 0x13 chanC b 5 u ∧
    ((pjKind u 4).any fun q => rkSource q.2 == rkSource b && rkGroup q.2 == rkGroup b && rkIntent q.2 == rkIntent b) = false ∧
    slotsFree u (fld (rkBody b) 2 1) = some [] ∧
    ∃ v t, mirrorRecord u b ((rkBody b).take 40 ++ ((List.range 20).map fun j => le 4 ((([] : List Nat)[j]?).getD 0xFFFFFFFF)).flatten ++ zeros 8) = some v ∧
      PairTaken v chanC 5 t := by
  intro b u hb hu; subst hb hu
  exact ⟨pairC_of (by decide +kernel) (by decide +kernel) rfl, by decide +kernel, by decide +kernel, mirror_of (by decide +kernel)⟩

theorem test_hyps_PairFramesComplete_append : ∀ b u s, b = le 8 64 ++ zeros 56 → s = pairOn [(4, 1, 101, 64, zeros 64)] 0 → u = pairGone s chanC →
    PairFrame (pairAt s (pairFrameOf chanC (zeros 32) 0x14 5 b)) 0x14 chanC b 5 u ∧
    (((pjKind u 4).filter fun q => rkMirror q.2 && rkSource q.2 == chanC.partner && rkIntent q.2 == unit0 (fld b 0 8)).getLast?.any fun q => (chanWith (crewStore u (slotAddr64 u
      (fld (rkBody q.2) (40 + 4 * (fld b 0 8 % 32)) 4) + 64 + fld b 8 4) (slice b 64 (fld b 12 4))) 101).isSome) = true := by
  intro b u s hb hs hu; subst hb hs hu; exact ⟨pairC_of (by decide +kernel) (by decide +kernel) rfl, by decide +kernel⟩

theorem test_hyps_PairFramesComplete_retire : ∀ b u, b = le 8 64 ++ le 4 7 → u = pairGone (pairOn [] 0) chanC →
    PairFrame (pairAt (pairOn [] 0) (pairFrameOf chanC (zeros 32) 0x15 5 b)) 0x15 chanC b 5 u ∧ ∃ t, PairTaken (retireIntent u (fld b 8 4) (fld b 0 8)) chanC 5 t := by
  intro b u hb hu; subst hb hu; exact ⟨pairC_of (by decide +kernel) (by decide +kernel) rfl, pairTaken_of (by decide +kernel)⟩

theorem test_hyps_PairFramesComplete_hello : ∀ b u w named x mine v, b = zeros 64 → u = pairGone (pairOn [] 0) chanC → w = putChan2 u { chanC with lost := bitAt (fld b 0 1) 0 } →
    named = (w.kv.slices.filter fun x => bitAt (fld b (64 + x.slice / 8) 1) (x.slice % 8) && (activeView w).strokeDev x.slice == selfIndex w) →
    x = named.foldl (fun s x => setActing (putSlice s { x with takeover := 4 }) x.slice false) w →
    mine = (((pjKind (if named.any (fun x => x.takeover != 4) then raiseView x else x) 1 ++ pjKind (if named.any (fun x => x.takeover != 4) then raiseView x else x) 4).filter
      fun r => rkMirror r.2 && rkSource r.2 == chanC.partner).map fun r => (rkGroup r.2, rkIntent r.2)) →
    v = mine.eraseDups.foldl (fun s q => askIntent s chanC.partner q.1 q.2) (if named.any (fun x => x.takeover != 4) then raiseView x else x) →
    PairFrame (pairAt (pairOn [] 0) (pairFrameOf chanC (zeros 32) 1 5 b)) 1 chanC b 5 u ∧ v.pj.replay ≠ 2 ∧ ∃ t, PairTaken v chanC 5 t := by
  intro b u w named x mine v hb hu hw hn hx hm hv; subst hb hu hw hn hx hm hv
  exact ⟨pairC_of (by decide +kernel) (by decide +kernel) rfl, by decide +kernel, pairTaken_of (by decide +kernel)⟩

theorem test_hyps_PairFramesComplete_query : ∀ b u s, b = le 8 64 ++ le 4 7 → s = pairOn [(2, 1, 101, 64, [1])] 0 → u = pairGone s chanC →
    PairFrame (pairAt s (pairFrameOf chanC (zeros 32) 0x30 5 b)) 0x30 chanC b 5 u ∧
    (((pjKind u 2).filter fun r => rkGroup r.2 == fld b 8 4 && rkIntent r.2 == fld b 0 8).getLast?.any fun o =>
      (chanWith (pairSend u 101 0x31 (le 8 (fld b 0 8) ++ le 4 (fld b 8 4) ++ le 1 (fld (rkBody o.2) 0 1))).1 101).isSome) = true := by
  intro b u s hb hs hu; subst hb hs hu; exact ⟨pairC_of (by decide +kernel) (by decide +kernel) rfl, by decide +kernel⟩

theorem test_hyps_PairFramesComplete_answer : ∀ b u run w, b = le 8 64 ++ le 4 7 ++ [4] → u = pairGone (pairOn [] 0) chanC →
    run = ((((pjKind u 1).find? fun r => rkGroup r.2 == fld b 8 4 && rkIntent r.2 == fld b 0 8).map fun r => fld (rkBody r.2) 0 4).getD 1) →
    w = keptDecided u (fld b 8 4) (fld b 0 8) run 1 →
    PairFrame (pairAt (pairOn [] 0) (pairFrameOf chanC (zeros 32) 0x31 5 b)) 0x31 chanC b 5 u ∧ fld b 12 1 = 4 ∧ chanC.lost = false ∧
    (u.pj.intents.any fun i => i.group == fld b 8 4 && i.stripe == fld b 0 8 && !i.resolving) = false ∧
    ∃ t, PairTaken (retireIntent { w with pj := { w.pj with intents := u.pj.intents.filter fun i => !(i.group == fld b 8 4 && i.stripe == fld b 0 8) } }
      (fld b 8 4) (fld b 0 8)) chanC 5 t := by
  intro b u run w hb hu hr hw; subst hb hu hr hw
  exact ⟨pairC_of (by decide +kernel) (by decide +kernel) rfl, by decide +kernel, rfl, by decide +kernel, pairTaken_of (by decide +kernel)⟩

theorem test_hyps_PairFramesComplete_ready : ∀ b u w, b = le 2 1 ++ le 2 sliceA → u = pairGone (pairOn [] 4) chanC →
    w = (u.kv.slices.filter fun x => (handSlices b).contains x.slice && x.takeover == 4).foldl (fun s x => setActing (putSlice s { x with takeover := 0 }) x.slice true) u →
    PairFrame (pairAt (pairOn [] 4) (pairFrameOf chanC (zeros 32) 0x20 5 b)) 0x20 chanC b 5 u ∧
    (u.kv.slices.filter fun x => (handSlices b).contains x.slice && x.takeover == 4) ≠ [] ∧
    ∃ t, PairTaken (pairSend (startCopying (logCrew (raiseView w) EV.handback)
        ((u.kv.slices.filter fun x => (handSlices b).contains x.slice && x.takeover == 4).map Slice.slice)) 101 0x21 b).1 chanC 5 t := by
  intro b u w hb hu hw; subst hb hu hw; exact ⟨pairC_of (by decide +kernel) (by decide +kernel) rfl, by decide +kernel, pairTaken_of (by decide +kernel)⟩

theorem test_hyps_PairFramesComplete_handAck : ∀ b u, b = le 2 1 ++ le 2 sliceA → u = pairGone (pairOn [] 3) chanC →
    PairFrame (pairAt (pairOn [] 3) (pairFrameOf chanC (zeros 32) 0x21 5 b)) 0x21 chanC b 5 u ∧
    ∃ t, PairTaken ((u.kv.slices.filter fun x => (handSlices b).contains x.slice && x.takeover == 3).foldl (fun s x => putSlice s { x with takeover := 0 }) u) chanC 5 t := by
  intro b u hb hu; subst hb hu; exact ⟨pairC_of (by decide +kernel) (by decide +kernel) rfl, pairTaken_of (by decide +kernel)⟩

/-- `pairOn` with the slice of key 61 placed with another stroke and bow seat, the group changed, and its open stripe gone. -/
def handOn (strokeSeat bowSeat stage : Nat) (f : Group → Group) : State :=
  let s := pairOn [] stage
  { s with
    mem := (riggedMem ++ (if strokeSeat = 0 then [] else [(0x114B612, BitVec.ofNat 8 strokeSeat)]) ++ (if bowSeat = 0 then [] else [(0x114B613, BitVec.ofNat 8 bowSeat)]) ++
      [(0x170004B617, 192), (0x1701000006, 8), (0x1701000007, 192)])
    groups := s.groups.map f
    pj := { s.pj with opens := [], chans := [{ chanC with sent := [(1, 0x10, [], [1])], lastAckAt := some 0, path := 0 }] } }

theorem test_hyps_PairTimersComplete_channel : ∀ s, s = setFs (handOn 0 1 0 id) [(F.PLK_STATUS_LINK, 1)] → coreLive s = true ∧
    (chanWith s 101).any (fun c => c.st == 2 && (c.sent.any fun f => f.2.2.2 != []) && !c.mute && c.lastAckAt == some 0 && c.path != 1) = true ∧
    flag s F.PLK_STATUS_LINK = true ∧ (s.groups.any fun g => g.solo.contains 101) = false ∧
    ((heldSlices s).any fun x => (activeView s).strokeDev x == selfIndex s && sliceBow s x == some 101) = true ∧
    (s.pj.leases.any fun l => l.1 == 101) = false := by rintro s rfl; decide +kernel

theorem test_hyps_PairTimersComplete_takeover : ∀ s u v y, s = (let s := handOn 1 0 1 fun g => { g with lost := 2, seats := [⟨2, sec, 4, 3, 0, 0, 5, 0, 0, [], []⟩] }
      { s with pj := { s.pj with taken := [(101, 1, 7)] } }) → u = reach (takeoverStart s) (7 + 1000 * ms) →
    v = (takenSlices u 101 [1]).foldl (fun s x => setActing (putSlice s { x with takeover := 2 }) x.slice true) u →
    y = takeoverResolve (startCopying (logCrew (raiseView { v with pj := { v.pj with taken := (101, 2, v.now) :: v.pj.taken.filter fun t => t.1 != 101 } })
      EV.takeover) ((takenSlices u 101 [1]).map Slice.slice)) 101 →
    (takeoverStart s).pj.taken.find? (fun t => t.1 == 101 && t.2.1 == 1) = some (101, 1, 7) ∧ takenSlices u 101 [1] ≠ [] ∧
    ((takenSlices u 101 [1]).all fun x => hullLost u (sliceGroup u x.slice) 101 && (groupRec u (sliceGroup u x.slice)).any fun g => !g.ownLost && majority u g) = true ∧
    resolvesNoSet y = false := by
  rintro s u v y rfl rfl rfl rfl; decide +kernel

/-- The stroke has come back and its seat reports READY. -/
theorem test_hyps_PairTimersComplete_handback : ∀ s h, s = (let s := handOn 1 0 5 fun g => { g with seats := [⟨1, sec, 4, 3, 0, 0, 5, 0, 0, [], []⟩] }
      { s with kv := { s.kv with handed := [sliceA] } }) → h = handCopies s 101 ((takenSlices s 101 [2, 5]).map Slice.slice) → takenSlices s 101 [2, 5] ≠ [] ∧
    ((takenSlices s 101 [2, 5]).all fun x => strokeBack s (sliceGroup s x.slice) 101 && x.takeover == 5) = true ∧
    (h.hte.requests.any fun r => r.op == 0x8A && r.hull == 101) = false ∧
    (let groups := ((takenSlices s 101 [2, 5]).map fun x => sliceGroup h x.slice).eraseDups
     let u := advance ((h.pj.opens.filter fun o => groups.contains o.group && !o.sealing).foldl sealStripe h)
     (!(u.pj.opens.any fun o => groups.contains o.group) &&
       !(u.pj.intents.any fun i => groups.contains i.group && (decide (i.step < 5) || !(allMirrored u i.group i.outMirror)))) = true) := by
  rintro s h rfl rfl; decide +kernel

theorem test_hyps_PairTimersComplete_handResend : ∀ s, s = handOn 1 0 3 id → takenSlices s 101 [3] ≠ [] ∧
    ((takenSlices s 101 [3]).all fun x => !(hullLost s (sliceGroup s x.slice) 101)) = true := by rintro s rfl; decide +kernel

theorem test_hyps_PairTimersComplete_intents : ∀ s i, i = { intentA with step := 6, seatsLeft := [1], resolving := true, probes := [(64, 1)] } →
    s = { handOn 0 1 0 id with pj := { (handOn 0 1 0 id).pj with intents := [i] } } → intentOf s 7 64 = some i ∧ i.step = 6 ∧
    i.seatsLeft.filter (seatCounts s 7) ≠ [] ∧ i.resolving = true ∧ i.probes ≠ [] ∧
    (intentOf ((i.probes.map fun q => ((stripeSeats ((s.hte.requests.filter fun r => r.op == 0x82 && fld r.msg 4 4 == 7 &&
        i.probes.contains (unit0 (fld r.msg 16 8), fld r.msg 24 1)).foldl resendRequest (reach s (i.sentAt + s.media.settings.fragReadMs * ms))) 7 i.genId q.1)[q.2]?).getD 0).foldl
      (fun s t => missDeadline s 7 t) ((s.hte.requests.filter fun r => r.op == 0x82 && fld r.msg 4 4 == 7 &&
        i.probes.contains (unit0 (fld r.msg 16 8), fld r.msg 24 1)).foldl resendRequest (reach s (i.sentAt + s.media.settings.fragReadMs * ms)))) 7 64).isSome = true := by
  rintro s i rfl rfl; decide +kernel

/-- `pairOn` in REPLAY, with what its journal holds, its one channel having heard a PAIR_HELLO or not. -/
def replayOn (recs : List (Nat × Nat × Nat × Nat × Bytes)) (heard : Bool) : State :=
  let s := pairOn recs 0
  { s with pwr := { s.pwr with dev := 3 }, pj := { s.pj with replay := 1, opens := [], chans := [{ chanC with rxSeq := if heard then 4 else 0 }] } }

theorem test_hyps_PairTimersComplete_replay : (∀ s, s = replayOn [(1, 0, 100, 64, zeros 64)] false → coreLive s = true ∧ s.pwr.dev = 3 ∧ s.pj.replay = 1 ∧ ownJournaled s = true ∧
      hellosIn s = false) ∧
    ∀ s, s = replayOn [] true → coreLive s = true ∧ s.pwr.dev = 3 ∧ ownJournaled s = false ∧ hellosIn s = true ∧ resolvesNoSet (replayLoad s) = false := by
  refine ⟨?_, ?_⟩ <;> (rintro s rfl; decide +kernel)

theorem test_hyps_PairTimersComplete_contact : coreLive kvOn = true ∧ (groupRec kvOn 7).any (fun g => !(majority kvOn g)) = true := by decide +kernel

/-- `rebuildOn` with its group changed. -/
def losing (f : Group → Group) : State := { rebuildOn with groups := rebuildOn.groups.map f }

/-- A rebuild under way with one position of stripe 64 missing, or none. -/
def rebuildA (missing : List (Nat × Nat × Nat × Nat)) : Rebuild := ⟨1, true, missing, 0, 1, false, [], [], [], 0, 0⟩

/-- A stripe kept: 64, packed or of a large object in the slice of key 61. -/
def keptA (packed : Bool) : KeptStripe := ⟨64, 1, 5, packed, false, false, if packed then 65536 else sliceA⟩

theorem test_hyps_RebuildComplete_start : ∀ epoch ∈ [5, 6], ∀ s, s = { losing (fun g => { g with lost := 1, seats := [⟨1, 0, 4, 3, 0, 0, epoch, 0, 0, [], []⟩] }) with
      pj := kvOn.pj } → coreLive s = true ∧ (groupRec s 7).any (fun g => g.ownLost && g.rebuild.isNone && !g.returning &&
      decide ((newestEpoch g).1 ≤ activeEpoch s) == (epoch == 5)) = true ∧ s.pwr.dev = 4 ∧ (s.pj.intents.any fun i => i.resolving && i.group == 7) = false ∧
    (s.hte.requests.any fun r => r.op == 0x82 && fld r.msg 4 4 == 0 && fld r.msg 24 1 == 0xFF) = false := by
  intro e he s hs; subst hs
  simp only [List.mem_cons, List.not_mem_nil, or_false] at he
  rcases he with rfl | rfl <;> decide +kernel

/-- A position is made again, and what comes of it passes a test. -/
def remadeTest (s : State) (user group stripe pos gen : Nat) (ok : State → Bool) : Bool :=
  match genOf s group gen with
  | none => false
  | some x =>
    match (readStripe s user group gen stripe (List.range x.k)).2 with
    | .units d _ _ =>
      let v := (readStripe s user group gen stripe (List.range x.k)).1
      let unit := if pos < x.k then (d[pos]?).getD [] else parityUnit x 65536 (pos - x.k) d
      if pos < x.k && allZero unit then ok (addNote (dropFetches v user) 2 pos group stripe 1)
      else (programFrag v none ⟨group, stripe, pos, 0, 0, 0, 0, crc32c unit, gen, x.k, x.m⟩ unit).any fun w => ok (dropFetches w user)
    | _ => false

theorem remade_of {s : State} {user group stripe pos gen : Nat} {ok : State → Bool} (h : remadeTest s user group stripe pos gen ok = true) :
    ∃ t, Remade s user group stripe pos gen t ∧ ok t = true := by
  simp only [remadeTest] at h
  split at h
  · cases h
  · rename_i x hx
    split at h
    · rename_i d dec reps hr
      by_cases hz : (decide (pos < x.k) && allZero (if pos < x.k then (d[pos]?).getD [] else parityUnit x 65536 (pos - x.k) d)) = true
      · rw [if_pos hz] at h
        simp only [Bool.and_eq_true, decide_eq_true_eq] at hz
        exact ⟨_, ⟨x, _, d, dec, reps, _, hx, Prod.ext rfl hr, rfl, fun _ _ => rfl, fun q => absurd hz q⟩, h⟩
      · rw [if_neg hz] at h
        simp only [Bool.and_eq_true, decide_eq_true_eq] at hz
        obtain ⟨w, hw, hk⟩ := some_of h
        exact ⟨_, ⟨x, _, d, dec, reps, _, hx, Prod.ext rfl hr, rfl, fun a b => absurd ⟨a, b⟩ hz, fun _ => ⟨w, hw, rfl⟩⟩, hk⟩
    · cases h

/-- Group 7 with that rebuild. -/
def groupB : Group := ⟨7, 0, 2, 0, 0, 0, false, none, [], 2, 2 ^ 24, [], 0, [], [], none, [], [], some (rebuildA [(64, 0, 1, 0)]), 0, []⟩

theorem test_hyps_RebuildComplete_position : ∀ s g, s = losing (fun g => { g with rebuild := some (rebuildA [(64, 0, 1, 0)]) }) → g = groupB → groupRec s 7 = some g ∧
    g.rebuild = some (rebuildA [(64, 0, 1, 0)]) ∧ nextMissing s g [(64, 0, 1, 0)] = some (64, 0, 1, 1) ∧
    ∃ u, Remade (reach s s.media.repairAt) (crewUser s 1 7) 7 64 0 1 u ∧ (groupRec (repairSpent u (repairRate u g 1 1)) 7).isSome = true := by
  rintro s g rfl rfl
  exact ⟨rfl, rfl, by decide +kernel, remade_of (by decide +kernel)⟩

theorem test_hyps_RebuildComplete_again : ∀ s, s = losing (fun g => { g with rebuild := some (rebuildA []) }) →
    (groupRec s 7).any (fun g => g.rebuild == some (rebuildA []) && (nextMissing s g []).isNone) = true := by rintro s rfl; decide +kernel

theorem test_hyps_RebuildComplete_rate : kvOn.media.settings.rebuildMin ≤ kvOn.media.settings.rebuildMax := by decide

theorem test_hyps_RebuildComplete_repair : ∀ s, s = { losing id with media := { rebuildOn.media with frags := [⟨7, 64, 0, 4, 0, 0, 1, 0, 1, 1, 1⟩] } } →
    (groupRec s 7).any (fun g => (nextMissing s g ((s.media.frags.filter fun f => f.group == 7 && f.kind == 4).map
      fun f => (f.stripe, f.pos, fragGen s f, 0))) == some (64, 0, 1, 1)) = true ∧ ∃ u, Remade (reach s s.media.repairAt) (crewUser s 2 7) 7 64 0 1 u ∧ true = true := by
  rintro s rfl; exact ⟨by decide +kernel, remade_of (by decide +kernel)⟩

theorem test_hyps_RebuildComplete_rewrite : ∀ packed s, s = losing (fun g => { g with kept := [keptA packed] }) → intentsHeld s = false ∧
    (groupRec s 7).any (fun g => (keptOf g (unit0 64)).any fun x => !x.open_ && !x.lost && x.slice != 65537 && x.packed == packed &&
      (genOf s 7 x.genId).any fun set => match (readStripe s (crewUser s 0 7) 7 x.genId x.stripe (List.range set.k)).2 with | .units _ _ _ => true | _ => false) = true := by
  rintro packed s rfl; cases packed <;> decide +kernel

theorem test_hyps_RigAndErasureComplete_stores : ∀ core ∈ [0, 7], (∀ a ∈ [F.RIG_CTRL_STAGE.addr, F.RIG_CTRL_ACTIVATE.addr, F.RIG_CTRL_DISCARD.addr],
    StoreTurn live core a (coreActs live core)) ∧ flag live F.RIG_STATUS_BUSY = false ∧ flag live F.RIG_STATUS_SWAPPING = false ∧
    getF live F.RIG_SRC_ADDR_ADDR % 64 = 0 ∧ getF live F.RIG_IMAGE_ADDR_ADDR % 65536 = 0 ∧
    unfencedHit live [(getF live F.RIG_SRC_ADDR_ADDR, getF live F.RIG_SRC_LEN_BYTES)] = false := by
  intro core h
  simp only [List.mem_cons, List.not_mem_nil, or_false] at h
  refine ⟨?_, by decide +kernel⟩
  intro a ha; apply store_of; revert a
  rcases h with rfl | rfl <;> decide +kernel

theorem test_hyps_RigAndErasureComplete_stageEnd : ∀ s, s = setFs live [(F.RIG_STATUS_BUSY, 1)] → coreLive s = true ∧ flag s F.RIG_STATUS_BUSY = true ∧
    ∃ t, LoaderEnds s t := by rintro s rfl; exact ⟨by decide +kernel, by decide +kernel, loader_of (by decide +kernel)⟩

/-- An erasure entry of queue 2 on generator set 0: XMASK, PMASK and its list of addresses at 0x10_0020_0000. -/
def ecT (op xm pm : Nat) : Taken := taken 2 0 (lay [(0, 1, op), (2, 1, 1), (10, 3, xm), (13, 1, pm), (16, 8, 0x1000200000)])

/-- `rigged` with such an entry; position `p` of the list names 0x10_0030_0000 (none for 24), the others address 0. -/
def ecOn (t : Taken) (p : Nat) : State :=
  withTaken { setFs rigged [(F.EC_CTRL_ENABLE, 1)] with
    mem := riggedMem ++ (if p = 24 then [] else [(0x1000200000 + 8 * p + 2, 0x30), (0x1000200000 + 8 * p + 4, 0x10)]) } [t]

theorem read_of {r : State × Option Bytes} (h : r.2.isSome = true) : r = (r.1, some (r.2.getD [])) := by
  obtain ⟨v, o⟩ := r; cases o <;> simp at h ⊢

/-- What the clauses of the three opcodes share, as a test; and the list read. -/
def ecTest (op : Nat) (t : Taken) (p : Nat) : Bool :=
  let s := ecOn t p
  let x := (activeView s).genSet 0
  coreLive s && (ecEntry s 2 op == some t) && !(flag s F.RIG_STATUS_SWAPPING) && decide (fld t.bytes 13 1 < 16) && fld t.bytes 14 2 == 0 &&
    decide (fld t.bytes 16 8 % 64 = 0) && allZero (slice t.bytes 32 32) && decide (fld t.bytes 8 2 < (activeView s).count 4) && fld t.bytes 8 2 == 0 &&
    decide (x.geom < (activeView s).count 6) && x.k == 1 && x.m == 1
def ecList (t : Taken) (p : Nat) : List Nat :=
  (List.range 24).map fun i => fld ((fabRead (ecOn t p) 8 (fld t.bytes 16 8) 192).2.getD []) (8 * i) 8

theorem test_hyps_RigAndErasureComplete_common : ∀ q ∈ [(0x60, ecT 0x60 0 1, 1), (0x61, ecT 0x61 1 0, 0), (0x62, ecT 0x62 0 1, 24)], ecTest q.1 q.2.1 q.2.2 = true ∧
    (fabRead (ecOn q.2.1 q.2.2) 8 (fld q.2.1.bytes 16 8) 192).2.isSome = true ∧
    ecList q.2.1 q.2.2 = (List.range 24).map fun i => if i = q.2.2 then 0x1000300000 else 0 := by
  intro q h
  simp only [List.mem_cons, List.not_mem_nil, or_false] at h
  rcases h with rfl | rfl | rfl <;> decide +kernel

/-- A position with address 0 is read as zeros. -/
theorem ecUnits_zero (addrs : List Nat) (p : Nat) (s : State) (h : (addrs[p]?).getD 0 = 0) :
    ecUnits addrs [p] s = (countF s F.EC_CNT_BYTES_COUNT 65536, some [(p, zeros 65536)]) := by
  simp only [ecUnits, ecUnit, h, if_true]

/-- A unit is written where memory takes it. -/
theorem ecWrites_one (addrs : List Nat) (p : Nat) (b : Bytes) (s : State) (h : memFault s ((addrs[p]?).getD 0) 65536 true = none) (hb : b.length = 65536) :
    ∃ d, ecWrites addrs [(p, b)] s = (d, true) := by
  have hn : b ≠ [] := by intro h; simp [h] at hb
  have h1 : (fabWrite s 8 ((addrs[p]?).getD 0) b).2 = true := by
    simp only [fabWrite, hn, if_false, hb, h]; split <;> rfl
  simp only [ecWrites]
  split
  · rename_i h2; rw [h2] at h1; simp at h1
  · exact ⟨_, rfl⟩

theorem gfSum_length (n : Nat) (l : List (Nat × Bytes)) : (gfSum n l).length = n := by
  have h : ∀ a : Bytes, a.length = n → (l.foldl (fun acc t => xorBytes acc (fit (gfScale t.1 t.2) n)) a).length = n := by
    induction l with
    | nil => intro a h; exact h
    | cons t l ih => intro a h; exact ih _ (by simp [xorBytes, h, fit, zeros]; omega)
  exact h _ (by simp [zeros])

theorem test_hyps_RigAndErasureComplete_encode : ∀ t s addrs v w, t = ecT 0x60 0 1 → s = ecOn t 1 → addrs = ecList t 1 →
    v = (fabRead s 8 (fld t.bytes 16 8) 192).1 → w = countF v F.EC_CNT_BYTES_COUNT 65536 → bitList (fld t.bytes 13 1) 4 = [0] ∧
    ecPmask ((activeView s).genSet 0) t.bytes = 0 ∧ (∀ p ∈ [0, 1], (addrs[p]?).getD 0 % 64 = 0) ∧
    overlaps ((addrs[1]?).getD 0) 65536 (fld t.bytes 16 8) 192 = false ∧ (addrs[0]?).getD 0 = 0 ∧
    ecUnits addrs [0] v = (w, some [(0, zeros 65536)]) ∧ ∀ b : Bytes, ∃ d, ecWrites addrs [(1, parityUnit ((activeView s).genSet 0) 65536 0 [b])] w = (d, true) := by
  intro t s addrs v w ht hs ha hv hw
  have e : addrs = (List.range 24).map fun i => if i = 1 then 0x1000300000 else 0 := by subst ha ht; decide +kernel
  have hm : memFault w 0x1000300000 65536 true = none := by rw [hw, hv, hs, ht]; decide +kernel
  refine ⟨by subst ht; decide +kernel, by subst hs ht; decide +kernel, by rw [e]; decide +kernel, by rw [e]; subst ht; decide +kernel, by rw [e]; decide +kernel, ?_, ?_⟩
  · rw [hw, ecUnits_zero _ _ _ (by rw [e]; decide +kernel)]
  · intro b; exact ecWrites_one _ _ _ _ (by rw [e]; exact hm) (gfSum_length _ _)

theorem test_hyps_RigAndErasureComplete_decode : ∀ t s addrs v w, t = ecT 0x61 1 0 → s = ecOn t 0 → addrs = ecList t 0 →
    v = (fabRead s 8 (fld t.bytes 16 8) 192).1 → w = countF v F.EC_CNT_BYTES_COUNT 65536 → bitList (fld t.bytes 10 3) 24 = [0] ∧
    ecXmask ((activeView s).genSet 0) t.bytes = 0 ∧ (activeView v).decodeIndex ((activeView s).genSet 0) [0] < (activeView v).count 7 ∧
    (∀ p ∈ [1, 0], (addrs[p]?).getD 0 % 64 = 0) ∧ overlaps ((addrs[0]?).getD 0) 65536 (fld t.bytes 16 8) 192 = false ∧ (addrs[1]?).getD 0 = 0 ∧
    ecUnits addrs [1] v = (w, some [(1, zeros 65536)]) ∧
    ∀ f : Nat → Bytes, ∃ d, ecWrites addrs [(0, decodeUnit (activeView v) ((activeView s).genSet 0) [0] 65536 0 f)] w = (d, true) := by
  intro t s addrs v w ht hs ha hv hw
  have e : addrs = (List.range 24).map fun i => if i = 0 then 0x1000300000 else 0 := by subst ha ht; decide +kernel
  have hm : memFault w 0x1000300000 65536 true = none := by rw [hw, hv, hs, ht]; decide +kernel
  refine ⟨by subst ht; decide +kernel, by subst hs ht; decide +kernel, by subst hv hs ht; decide +kernel, by rw [e]; decide +kernel,
    by rw [e]; subst ht; decide +kernel, by rw [e]; decide +kernel, ?_, ?_⟩
  · rw [hw, ecUnits_zero _ _ _ (by rw [e]; decide +kernel)]
  · intro f; exact ecWrites_one _ _ _ _ (by rw [e]; exact hm) (gfSum_length _ _)

theorem test_hyps_RigAndErasureComplete_check : ∀ t s addrs v, t = ecT 0x62 0 1 → s = ecOn t 24 → addrs = ecList t 24 →
    v = (fabRead s 8 (fld t.bytes 16 8) 192).1 → bitList (fld t.bytes 13 1) 4 = [0] ∧ ecPmask ((activeView s).genSet 0) t.bytes = 0 ∧
    (∀ p ∈ [0, 1], (addrs[p]?).getD 0 = 0) ∧ ∃ w us, ecUnits addrs [0, 1] v = (w, some us) := by
  intro t s addrs v ht hs ha hv
  have e : addrs = (List.range 24).map fun i => if i = 24 then 0x1000300000 else 0 := by subst ha ht; decide +kernel
  refine ⟨by subst ht; decide +kernel, by subst hs ht; decide +kernel, by rw [e]; decide +kernel, ?_⟩
  have h0 : (addrs[0]?).getD 0 = 0 := by rw [e]; decide +kernel
  have h1 : (addrs[1]?).getD 0 = 0 := by rw [e]; decide +kernel
  simp only [ecUnits, ecUnit, h0, h1, if_true]; exact ⟨_, _, rfl⟩

theorem test_hyps_RigAndErasureComplete_end : ∀ t s, t = { ecT 0x60 0 1 with result := some (zeros 12, false) } → s = ecOn t 24 →
    doneEntry s 2 0x60 0x62 = some t := by rintro t s rfl rfl; decide +kernel

/-- `live` with a heap valid at CAPACITY 2 that holds entries, and core 0's FPH_ARG. -/
def heapOn (heap : Nat) (es : List (Nat × Nat)) : State :=
  let s := setFs live [(F.FPH_HEAP_VALID heap, 1), (F.FPH_HEAP_CAPACITY heap, 2), (F.FPH_ARG_KEY 0, 9), (F.FPH_ARG_VALUE 0, 9)]
  { s with media := { s.media with heaps := [(heap, es)] } }

theorem test_hyps_HeapOperations : ∀ heap ∈ [1024, 1039], StoreTurn (heapOn heap []) 0 (F.FPH_CMD_OP 0).addr (coreActs (heapOn heap []) 0) ∧
    flag (coreActs (heapOn heap []) 0) (F.FPH_HEAP_VALID heap) = true ∧
    (heapOf (coreActs (heapOn heap []) 0) heap).length < getF (coreActs (heapOn heap []) 0) (F.FPH_HEAP_CAPACITY heap) ∧
    pushOk (coreActs (heapOn heap []) 0) heap (getF (coreActs (heapOn heap []) 0) (F.FPH_ARG_VALUE 0)) = true ∧
    heapOf (coreActs (heapOn heap []) 0) heap = [] ∧ heapOf (coreActs (heapOn heap [(1, 2), (1, 3)]) 0) heap = (1, 2) :: [(1, 3)] ∧
    getF (coreActs (heapOn heap [(1, 2), (1, 3)]) 0) (F.FPH_HEAP_CAPACITY heap) ≤ (heapOf (coreActs (heapOn heap [(1, 2), (1, 3)]) 0) heap).length ∧
    flag (coreActs live 0) (F.FPH_HEAP_VALID heap) = false := by
  intro heap h
  simp only [List.mem_cons, List.not_mem_nil, or_false] at h
  rcases h with rfl | rfl <;> exact ⟨store_of (by decide +kernel), by decide +kernel⟩

theorem test_hyps_HeapReturnsLowestKey : ([(1, 2), (1, 3), (4, 0)] : List (Nat × Nat)).Pairwise (fun x y => x.1 < y.1 ∨ (x.1 = y.1 ∧ x.2 ≤ y.2)) := by decide

/-- `live` with LUN 0 in use, a block set of a state and with flags, and what media management keeps. -/
def mediaOn (bsn : Nat) (state flags : Byte) (f : Media → Media) : State :=
  let s := setFs live [(F.FC_LUN_STATUS_PRESENT 0 0, 1), (F.FC_LUN_GEOM_PLANES 0 0, 4), (F.FC_LUN_GEOM_PPB 0 0, 256)]
  { s with mem := [(btAddr s bsn, state)] ++ (if flags = 0 then [] else [(btAddr s bsn + 1, flags)]), media := f s.media }

theorem test_hyps_MediaComplete_failed : ∀ s, s = { setFs (mediaOn 3 3 0 (fun m => { m with eraseFails := List.replicate 8 (0, 0) })) [(F.FC_LUN_STATUS_DEAD 0 0, 1)] with
      fc := { live.fc with reviveFailed := [0] } } → coreLive s = true ∧ lunUsed s 0 = true ∧
    (flag s (F.FC_LUN_STATUS_DEAD (0 / 32) (0 % 32)) = true ∧ s.fc.reviveFailed.contains 0 = true) ∧
    8 ≤ (s.media.eraseFails.filter fun e => e.1 == 0 && decide (s.now ≤ e.2 + 86400 * sec)).length := by rintro s rfl; decide +kernel

theorem test_hyps_MediaComplete_retired : ∀ s, s = setFs { live with media := { live.media with retired := List.range 126 } }
      [(F.FC_LUN_STATUS_PRESENT 0 0, 1), (F.FC_LUN_GEOM_PLANES 0 0, 4), (F.FC_LUN_GEOM_PPB 0 0, 256)] → coreLive s = true ∧ lunUsed s 0 = true ∧ 504 ≤ 4 * lunRetired s 0 := by rintro s rfl; decide +kernel

theorem test_hyps_MediaComplete_collection : ∀ s u, s = mediaOn 3 3 4 id → u = { s with media := { s.media with collecting := 0 :: s.media.collecting.filter (· != 0) } } →
    coreLive s = true ∧ lunUsed s 0 = true ∧ (heapOf s 0).length < s.media.settings.gcLow ∧
    (u.media.victims.find? fun v => bsnLun v.1 == 0 && decide (btValid u v.1 > 0)) = none ∧ pickVictim u 0 true = some 3 := by
  rintro s u rfl rfl; decide +kernel

theorem test_hyps_MediaComplete_migration : ∀ s, s = mediaOn 3 3 1 id → slcTarget s (heldCount s) < slcInUse s ∧
    (s.media.victims.find? fun v => btFlag s v.1 0 && decide (btValid s v.1 > 0)) = none ∧
    leastBy (btFirst s) ((usedBsns s).filter fun b => btState s b == 3 && btFlag s b 0) = some 3 := by rintro s rfl; decide +kernel

theorem test_hyps_MediaComplete_retry : ∀ s, s = { mediaOn 3 2 0 id with fc := { live.fc with nand := [⟨3, 7, [([1, 2, 3], [])]⟩] } } →
    (strideAt s 3 7).isSome = true ∧ lunUsed s (bsnLun 3) = true ∧ 2 ≤ btState s 3 ∧ btState s 3 ≤ 4 := by rintro s rfl; decide +kernel

theorem test_hyps_MediaComplete_notes : ∀ s, s = mediaOn 3 2 2 (fun m => { m with opens := [(0, 2, 3)], notes := [⟨2, 1, 7, 96, 1, 5, []⟩] }) →
    ((voidNotes s).media.notes.filter fun n => n.places.isEmpty).take 2048 ≠ [] ∧
    (placeTwice (voidNotes s) (fun w => ⟨4, 0, w, 0, 0, 0, 0, 0, 0, 0, 0, 0⟩)
      ((((voidNotes s).media.notes.filter fun n => n.places.isEmpty).take 2048).map noteBytes).flatten).isSome = true := by rintro s rfl; decide +kernel

theorem test_hyps_MediaComplete_program : ∀ x : Stride, x = ⟨3, 7, [([1], [])]⟩ → ([x].find? fun x => x.bsn == 3) = some x := by rintro x rfl; decide

/-- What leads to a checkpoint: time, or changes on one LUN. -/
def ckptOn (since : List (Nat × Nat)) : State :=
  setFs (mediaOn 3 2 2 (fun m => { m with opens := [(0, 2, 3)], since := since })) [(F.HTE_CTRL_ACCEPT, 1)]

/-- The harbour is docking: nothing is accepted and no session is open. -/
def docking : State := { mediaOn 3 2 2 (fun m => { m with opens := [(0, 2, 3)] }) with pwr := { live.pwr with dev := 5 } }

theorem test_hyps_MediaComplete_checkpoint : (∀ s : State, s = ckptOn [] → ((s.media.since.any fun x => decide (x.2 ≥ s.media.settings.ckptLun)) || dockNear s) = false ∧
      (makeCheckpoint (reach s (s.media.ckptAt + s.media.settings.ckptS * sec))).isSome = true) ∧
    (∀ s : State, s = ckptOn [(0, 2 ^ 40)] → ((s.media.since.any fun x => decide (x.2 ≥ s.media.settings.ckptLun)) && !dockNear s) = true) ∧
    dockNear docking = true := by
  refine ⟨?_, ?_, by decide +kernel⟩ <;> (intro s hs; subst hs; decide +kernel)

theorem test_hyps_MediaComplete_sweep : ∀ saved ∈ [0, 2 ^ 60], ∀ s, s = { live with media := { live.media with sweepSaved := (0, 0, 0, saved) } } →
    (decide (s.now ≥ s.media.sweepSaved.2.2.2 + 600 * sec) == (saved == 0 && decide (s.now ≥ 600 * sec))) = true := by
  intro saved h s hs; subst hs
  simp only [List.mem_cons, List.not_mem_nil, or_false] at h
  rcases h with rfl | rfl <;> decide +kernel

theorem test_hyps_MediaComplete_scans : ∀ s : State, s = { mediaOn 3 3 0 (fun m => { m with ckpt := some ⟨1, [], [], [], [], []⟩ }) with pwr := { live.pwr with dev := 2 } } →
    (s.pwr.dev = 2 ∧ s.pwr.fullScan = false ∧ s.media.ckpt.isSome = true) ∧
    ∀ v : State, v = { s with media := { s.media with ckpt := none, format := some ⟨504, 255, 1000, 4, 0, []⟩ } } → v.pwr.dev = 2 ∧ v.media.ckpt = none ∧
      (logCrew v EV.mapFullScan).media.format.isNone = false := by rintro s rfl; refine ⟨by decide +kernel, ?_⟩; rintro v rfl; decide +kernel

theorem test_hyps_MediaComplete_vault : ∀ s, s = setFs (mediaOn 3 1 0 (fun m => { m with heaps := [(0, [(5, 3)])] })) [(F.PJ_VMAP_VALID 511, 1), (F.FPH_HEAP_VALID 0, 1)] →
    flag s F.PJ_CTRL_DUMP_ARM = false ∧ flag s (F.PJ_VMAP_VALID 511) = true ∧
    (((List.range 4).map fun t => lunIndex (getF s (F.PJ_VMAP_CHANNEL 511)) (4 * getF s (F.PJ_VMAP_CE 511) + t)).find? fun l => lunUsed s l && !(heapOf s l).isEmpty) = some 0 ∧
    (heapPop s 0).isSome = true := by rintro s rfl; decide +kernel

theorem test_hyps_MediaComplete_full : ∀ s, s = mediaOn 3 3 0 (fun m => { m with format := some ⟨0, 0, 0, 0, 0, []⟩ }) → s.media.format.isSome = true ∧ s.media.readOnly = none ∧
    capFrags s ≤ heldCount s + journaledCount s := by rintro s rfl; decide +kernel

/-- A flash entry of queue 2 on LUN slot 0: planes, block, page, flags of a feature. -/
def fcT (op planes block page feature fflags : Nat) : Taken :=
  taken 2 0 (lay [(0, 1, op), (2, 1, 1), (8, 1, 0), (9, 1, planes), (10, 2, 0xFFFF), (12, 2, block), (14, 2, page), (16, 8, 0x1000200000), (24, 8, 0x1000300000), (40, 1, feature), (41, 1, fflags)])

/-- `live` with channel 0 running and bound to queue 2, its LUN 0 present, block set 3 in a state, and such an entry taken. -/
def fcOn (t : Taken) (state : Byte) : State :=
  let s := setFs live [(F.FC_QBIND_VALID 0 0, 1), (F.FC_QBIND_QUEUE 0 0, 2), (F.FC_STATUS_READY 0, 1), (F.FC_CTRL_RUN 0, 1), (F.FC_LUN_STATUS_PRESENT 0 0, 1)]
  withTaken { s with mem := if state = 0 then [] else [(btAddr s 3, state)] } [t]

/-- The turn of an entry, as a test. -/
def fcTurnTest (s : State) (op : Nat) (t : Taken) : Bool :=
  coreLive s && (openAt s 2 0 op == some t) && (fcBinding s 2 == some 0) &&
  decide (((List.range 32).filter fun m => bindsAny s (F.FC_QBIND_VALID m) (F.FC_QBIND_QUEUE m) 2).length ≤ 1) && fcRuns s 0 &&
  !(fcFieldBad s t.bytes) && lunUp s 0 (fld t.bytes 8 1) && fcHead s 0 t && !(fcOverlap s t.bytes)

theorem fcTurn_of {s : State} {op : Nat} {t : Taken} (h : fcTurnTest s op t = true) : FcTurn s 2 0 op 0 t := by
  simp only [fcTurnTest, Bool.and_eq_true, beq_iff_eq, decide_eq_true_eq, Bool.not_eq_true'] at h
  obtain ⟨⟨⟨⟨⟨⟨⟨⟨h1, h2⟩, h3⟩, h4⟩, h5⟩, h6⟩, h7⟩, h8⟩, h9⟩ := h
  exact ⟨h1, h2, h3, h4, h5, h6, h7, h8, h9⟩

theorem test_hyps_FlashEntriesComplete_turns : ∀ q ∈ [(0x40, 1, 0), (0x43, 15, 0), (0x44, 0, 0x89), (0x45, 0, 0)], ∀ t, t = fcT q.1 q.2.1 3 0 q.2.2 0 →
    FcTurn (fcOn t 0) 2 0 q.1 0 t ∧ fld t.bytes 40 1 ∉ fixedFeatures ∧ bitAt (fld t.bytes 41 1) 0 = false ∧ vaultLun (fcOn t 0) 0 (fld t.bytes 8 1) = false := by
  intro q h t ht; subst ht
  simp only [List.mem_cons, List.not_mem_nil, or_false] at h
  rcases h with rfl | rfl | rfl | rfl <;> exact ⟨fcTurn_of (by decide +kernel), by decide +kernel⟩

theorem test_hyps_FlashEntriesComplete_feature : ∀ t, t = fcT 0x44 0 3 0 0x89 1 → FcTurn (fcOn t 0) 2 0 0x44 0 t ∧ fld t.bytes 40 1 ∉ fixedFeatures ∧
    bitAt (fld t.bytes 41 1) 0 = true ∧ (fcFetch 0 (fld t.bytes 8 1) [(fld t.bytes 16 8, 4)] (fcOn t 0)).2.isSome = true := by
  rintro t rfl; exact ⟨fcTurn_of (by decide +kernel), by decide +kernel⟩

theorem test_hyps_FlashEntriesComplete_program : ∀ t s, t = fcT 0x41 15 3 0 0 0 → s = fcOn t 2 → FcTurn s 2 0 0x41 0 t ∧ fcRoundOpen s 0 (fld t.bytes 8 1) = true ∧
    fld t.bytes 12 2 ≤ 511 ∧ (fcBlockState s 0 (fld t.bytes 8 1) (fcBsn 0 t.bytes)).2 = some 2 ∧
    (let u := (fcBlockState s 0 (fld t.bytes 8 1) (fcBsn 0 t.bytes)).1
     let r := fcFetch 0 (fld t.bytes 8 1) (fcBuffers t.bytes) u
     (r.2.isSome && !(fallbackHeld r.1 (fcBsn 0 t.bytes)) && fld t.bytes 14 2 == (blockStrides r.1 (fcBsn 0 t.bytes)).length) = true) := by
  intro t s ht hs; rw [hs, ht]; exact ⟨fcTurn_of (by decide +kernel), by decide +kernel⟩

theorem test_hyps_FlashEntriesComplete_erase : ∀ st ∈ [(4 : Byte), 5], ∀ t s, t = fcT 0x42 15 3 0 0 0 → s = fcOn t st → FcTurn s 2 0 0x42 0 t ∧
    fcRoundOpen s 0 (fld t.bytes 8 1) = true ∧ (fcBlockState s 0 (fld t.bytes 8 1) (fcBsn 0 t.bytes)).2 = some st.toNat ∧
    fallbackHeld (fcBlockState s 0 (fld t.bytes 8 1) (fcBsn 0 t.bytes)).1 (fcBsn 0 t.bytes) = false := by
  intro st h t s ht hs; rw [hs, ht]
  simp only [List.mem_cons, List.not_mem_nil, or_false] at h
  rcases h with rfl | rfl <;> exact ⟨fcTurn_of (by decide +kernel), by decide +kernel⟩

/-- An operation on LUN slot 0 of channel 0. -/
def fcOpA (op : Nat) : FcOp := ⟨0, 0, 2, 0, op, 0, (fcT op 15 3 0 0 0).bytes, []⟩

theorem test_hyps_FlashEntriesComplete_waits : ∀ t s, t = fcT 0x41 15 3 0 0 0 →
    s = { fcOn t 2 with fc := { live.fc with ops := [{ fcOpA 0x42 with slot := 1, entry := [] }] } } → FcTurn s 2 0 0x41 0 t ∧
    fcRoundOpen s 0 (fld t.bytes 8 1) = false := by
  intro t s ht hs; rw [hs, ht]; exact ⟨fcTurn_of (by decide +kernel), by decide +kernel⟩

/-- `live` with an operation under way on block set 3 in a state. -/
def fcRun (op : Nat) (state : Byte) : State := let s := fcOn (fcT op 15 3 0 0 0) state; { s with fc := { s.fc with ops := [fcOpA op] } }

theorem test_hyps_FlashChannelsComplete_ends : lunOp (fcRun 0x40 0) 0 0 = some (fcOpA 0x40) ∧ (fcOpA 0x40).op ∉ [0x41, 0x42] ∧
    lunOp (fcRun 0x41 2) 0 0 = some (fcOpA 0x41) ∧ btState (fcRun 0x41 2) (fcBsn 0 (fcOpA 0x41).entry) = 2 ∧
    (blockStrides (fcRun 0x41 2) (fcBsn 0 (fcOpA 0x41).entry)).length = fld (fcOpA 0x41).entry 14 2 ∧
    lunOp (fcRun 0x42 4) 0 0 = some (fcOpA 0x42) ∧ btState (fcRun 0x42 4) (fcBsn 0 (fcOpA 0x42).entry) = 4 ∧ (fcRun 0x42 4).media.victims = [] ∧
    (fcOpA 0x40).op ≠ 0x7F ∧ lunOp (fcRun 0x7F 0) 0 0 = some (fcOpA 0x7F) := by decide +kernel

theorem test_hyps_FlashChannelsComplete_victim : ∀ s, s = { fcRun 0x42 4 with media := { live.media with victims := [(3, [])] } } →
    (s.media.victims.all fun v => v.1 == fcBsn 0 (fcOpA 0x42).entry && victimReady s v) = true := by rintro s rfl; decide +kernel

theorem test_hyps_FlashChannelsComplete_events : StoreTurn live 7 (F.FC_LUN_CTRL_REVIVE 31 31).addr (coreActs live 7) ∧ domainOn live .flash = true ∧
    flag (fcRun 0x40 0) (F.FC_CTRL_RUN 0) = true ∧ flag (fcOn (fcT 0x40 15 3 0 0 0) 0) (F.FC_LUN_STATUS_PRESENT 0 0) = true ∧
    lunOp (fcOn (fcT 0x40 15 3 0 0 0) 0) 0 0 = none ∧ (fcRun 0x40 0).fc.stopped.contains 0 = false ∧ live.cox.verified = true :=
  ⟨store_of (by decide +kernel), by decide +kernel⟩

theorem test_hyps_FlashChannelsComplete_round : domainOn rigged .flash = true ∧ rigActive rigged = true ∧ rigged.rig.newSchedule = false ∧
    wantedSched (reach rigged (rigged.fc.roundAt + (powerRounds rigged (getF rigged (F.FC_ROUND_SCHED 0))).2 * us)) = getF rigged (F.FC_ROUND_SCHED 0) := by decide +kernel

theorem test_hyps_FlashChannelsComplete_ready : ∀ s : State, s = { live with fc := { live.fc with starting := [(31, 0)] } } →
    (s.fc.starting.any fun p => p.1 == 31) = true ∧ s.cox.loading = none := by rintro s rfl; decide +kernel

theorem test_hyps_FlashChannelsComplete_window : ∀ u, u = coreActs (setFs live [(F.FC_GROUPS_MEMBER 3, 1)]) 0 → windowFault u 0 0x1004 4 true = none ∧
    windowMembers u 0 = [3] ∧ (match membersWrite (coreRid 0) 0 0x1004 4 0 (some 8) (windowMembers u 0) u with | .next _ => true | _ => false) = true := by
  rintro u rfl; decide +kernel

/-- The register of a group window's offset, the same of every channel, as a test. -/
def windowReg (o value : Nat) : Bool := match busTarget (fcWindow 0 + o) with
  | .reg _ r => ((List.range 32).all fun n => decide (busTarget (fcWindow n + o) = .reg (fcWindow n + o) r)) && !(reservedHit r value)
  | _ => false

theorem test_hyps_FlashChannelsComplete_windowReg : (0x1004 : Nat) ∉ [0x0C, 0x10, 0x14, 0x18, 0x1C, 0x20] ∧ bitAt (2 ^ 30) 31 = false ∧
    ∃ r, (∀ n < 32, busTarget (fcWindow n + 0x1004) = .reg (fcWindow n + 0x1004) r) ∧ reservedHit r (2 ^ 30) = false := by
  have h : windowReg 0x1004 (2 ^ 30) = true := by decide +kernel
  simp only [windowReg] at h
  split at h
  · rename_i r _
    simp only [Bool.and_eq_true, List.all_eq_true, List.mem_range, decide_eq_true_eq, Bool.not_eq_true'] at h
    exact ⟨by decide, by decide, r, h.1, h.2⟩
  · cases h

/-- `live` with the staging cache on, way 15 open to requesters 1 and 8, and what it holds. -/
def cacheOn (f : Sc → Sc) : State :=
  let s := setFs live [(F.SC_STATUS_ENABLED, 1), (F.SC_CTRL_ENABLE, 1), (F.SC_WAYMASK_MASK 0, 0), (F.SC_WAYMASK_MASK 1, 0x8000), (F.SC_WAYMASK_MASK 8, 0x8000)]
  { s with sc := f s.sc }

/-- The line of the lowest DRAM address, and a line held. -/
def line0 : Nat := 0x10000000
def lineA (n way : Nat) (dirty : Bool) : ScLine := ⟨line0 + n, way, 1, dirty, false, zeros 256⟩
/-- A read that missed. -/
def missA (rid n : Nat) : ScReq := ⟨rid, 0, (line0 + n) * 256, 8, none, false, 0⟩

theorem test_hyps_CacheAccessesComplete : ∀ rid ∈ [1, 8], ∀ u, u = scActs (cacheOn id) rid 7 0x1000000000 (min 300 (256 - 0x1000000000 % 256)) true →
    coreLive (cacheOn id) = true ∧ coreOn (cacheOn id) 7 = true ∧ memFault u 0 1 false = none ∧ isDram 0x1000000000 = true ∧
    memFault u 0x1000000000 (min 300 (256 - 0x1000000000 % 256)) true = none ∧ u.sc.maint = none ∧ scPort u rid = none ∧
    memFault (scActs (cacheOn id) rid 7 0x4000000000 8 false) 0x4000000000 8 false = some 0 := by
  intro rid h u hu; subst hu
  simp only [List.mem_cons, List.not_mem_nil, or_false] at h
  rcases h with rfl | rfl <;> decide +kernel

theorem test_hyps_CacheAccessesComplete_fetch : ∀ u, u = scActs (cacheOn id) 0 7 0x1000000000 4 false → memFault u 0x1000000000 4 false = none ∧ isDram 0x1000000000 = true ∧
    staleCode u 7 0x1000000000 4 = false := by rintro u rfl; decide +kernel

theorem test_hyps_CacheAccessesComplete_outstanding : ∀ s, s = cacheOn (fun c => { c with lines := [lineA 0 15 false], ports := [⟨8, line0 + 1, [missA 8 1]⟩] }) →
    (scPort s 8).any (fun p => (heldLine s (0x1000000000 / 256)).isSome && p.line != 0x1000000000 / 256 && (p.waiting.all fun q => q.addr / 256 == p.line)) = true ∧
    (scPort s 8).any (fun p => 0x1000000180 / 256 == p.line) = true ∧
    (scPort s 8).any (fun _ => (heldLine s (0x1000000200 / 256)).isNone) = true := by rintro s rfl; decide +kernel

theorem test_hyps_CacheAccessesComplete_behind : ∀ s, s = cacheOn (fun c => { c with ports := [⟨8, line0 + 1, [missA 8 1, missA 8 2]⟩] }) →
    (scPort s 8).any (fun p => p.waiting.any fun q => q.addr / 256 != p.line) = true := by rintro s rfl; decide +kernel

theorem test_hyps_CacheEngineCompletes_fill : ∀ rid ∈ [0, 8], ∀ s, s = cacheOn (fun c => { c with ports := [⟨rid, line0 + 1, [missA rid 1]⟩] }) →
    coreLive s = true ∧ (scPort s rid).any (fun p => p.waiting == [missA rid 1] && (evicting s p.line).isNone && (heldLine s p.line).isNone) = true ∧
    mayAlloc s rid = (rid == 8) ∧ evictFull s = false ∧ (dramFetch s (missA rid 1) ((line0 + 1) * 256) 256).2.isSome = true := by
  intro rid h s hs; subst hs
  simp only [List.mem_cons, List.not_mem_nil, or_false] at h
  rcases h with rfl | rfl <;> decide +kernel

theorem test_hyps_CacheEngineCompletes_ends : ∀ s, s = cacheOn (fun c => { c with evict := [lineA 2 3 true], disabling := [(15, true)], maint := some ⟨3, true, 0, 0, [line0]⟩ }) →
    (evicting s (line0 + 2)).isSome = true ∧ (s.sc.disabling.find? fun p => p.1 == 15) = some (15, true) ∧ s.sc.maint.isSome = true := by rintro s rfl; decide +kernel

theorem test_hyps_CacheEngineCompletes_stores : ∀ a ∈ [F.SC_WAY_STATUS_DISABLED.addr, F.SC_MAINT_CTRL_GO.addr, F.SC_PF_CTRL_GO.addr, F.SC_CTRL_ENABLE.addr],
    StoreTurn (cacheOn id) 7 a (coreActs (cacheOn id) 7) := by
  intro a ha; apply store_of; revert a; decide +kernel

theorem test_hyps_CacheEngineCompletes_range : ∀ q ∈ [(1, 0, 0), (0, line0, line0)], ∀ w, w = setF (setF (setFs (coreActs (cacheOn id) 7) [(F.SC_MAINT_START_LINE, q.2.1),
      (F.SC_MAINT_END_LINE, q.2.2)]) F.SC_MAINT_CTRL_OP 2) F.SC_MAINT_CTRL_ALL q.1 →
    q.1 % 2 = 1 ∨ (isDram (getF w F.SC_MAINT_START_LINE * 256) = true ∧ isDram (getF w F.SC_MAINT_END_LINE * 256) = true ∧
      getF w F.SC_MAINT_START_LINE ≤ getF w F.SC_MAINT_END_LINE) := by
  intro q h w hw; subst hw
  simp only [List.mem_cons, List.not_mem_nil, or_false] at h
  rcases h with rfl | rfl <;> decide +kernel

theorem test_hyps_CacheEngineCompletes_switch : (scOn (cacheOn id) = true ∧ (cacheOn id).sc.ports = [] ∧ (cacheOn id).sc.evict = []) ∧
    (∀ s, s = cacheOn (fun c => { c with hints := [(line0, 511, 8)] }) → coreLive s = true ∧ s.sc.hints = (line0, 511, 8) :: [] ∧ scOn s = true) ∧
    (scOn live = false ∧ live.sc.lines = []) ∧ ((setFs live [(F.DMC_SCRUB_ENABLE, 1)]).pwr.on.contains .dram = true ∧
      flag (setFs live [(F.DMC_SCRUB_ENABLE, 1)]) F.DMC_SCRUB_ENABLE = true ∧ isDram 0x1000000000 = true) := by
  refine ⟨by decide +kernel, ?_, by decide +kernel, by decide +kernel⟩
  rintro s rfl; decide +kernel

theorem test_hyps_CacheEngineCompletes_way : ∀ u, u = coreActs (setFs (cacheOn id) [(F.SC_WAY_STATUS_DISABLED, 0x8001)]) 7 →
    0x8000 / 2 ^ 15 % 2 = 1 ∧ getF u F.SC_WAY_STATUS_DISABLED / 2 ^ 15 % 2 = 1 := by rintro u rfl; decide +kernel

theorem test_hyps_CacheEngineCompletes_again : (∀ s, s = { live with sc := { live.sc with lines := [lineA 0 15 false], stale := [line0] } } →
      StoreTurn s 7 F.SC_CTRL_ENABLE.addr (coreActs s 7) ∧ scOn (coreActs s 7) = false ∧ staleHeld (coreActs s 7) = true) ∧
    staleHeld (coreActs live 7) = false ∧ (∀ s, s = cacheOn (fun c => { c with maint := some ⟨1, false, 0, 0, []⟩ }) →
      StoreTurn s 7 F.SC_MAINT_CTRL_GO.addr (coreActs s 7) ∧ (coreActs s 7).sc.maint.isSome = true) := by
  refine ⟨?_, by decide +kernel, ?_⟩ <;> (intro s hs; subst hs; exact ⟨store_of (by decide +kernel), by decide +kernel⟩)

/-- Queue 2: rings of 4 slots, its index block at 0x10_0010_2000. -/
def queueA : Queue := ⟨2, 1, false, 0, 2, 2, 5, true, 0x1000100000, 0x1000101000, 0x1000102000, 0, 0, 0, 0, [], false, none, [], 0⟩

/-- `live` with the manager on, that queue, and memory. -/
def wqOn (x : Queue) (mem : List Host.Cell) : State :=
  let s := setFs live [(F.WQ_CTRL_ENABLE, 1), (F.FC_QBIND_VALID 0 0, 1), (F.FC_QBIND_QUEUE 0 0, 9)]
  { s with mem := mem, wq := { s.wq with queues := [x] } }

theorem test_hyps_WorkQueuesComplete_doorbell : ∀ fb ∈ [false, true], ∀ x, x = { queueA with fromBlock := fb, sqPi := if fb then 4 else 0 } →
    ∀ s, s = wqOn x [(0x1000102000, 4)] → coreLive s = true ∧ queueOf s 2 = some x ∧ (fabRead s 5 x.idx 8).2 = some [4, 0, 0, 0, 0, 0, 0, 0] ∧
    unfencedHit s (postedRanges s x) = false ∧ idxSub 4 x.sqCi ≤ 2 ^ x.log2s ∧ (fb = true → idxSub x.sqPi 0 ≤ 2 ^ x.log2s) := by
  intro fb h x hx s hs; subst hs; subst hx
  simp only [List.mem_cons, List.not_mem_nil, or_false] at h
  rcases h with rfl | rfl <;> decide +kernel

/-- `live` with that queue and its posted slot 0 written by core 2, with no fence since. -/
def unfencedOn : State := let s := wqOn queueA [(0x1000102000, 1)]; { s with cores := { s.cores with unfenced := [(2, 0x1000100000, 4)] } }

theorem test_hyps_WorkQueuesComplete_unfenced : queueOf unfencedOn 2 = some queueA ∧ queueA.poll = 0 ∧ unfencedHit unfencedOn (postedRanges unfencedOn queueA) = true := by decide +kernel

theorem test_hyps_WorkQueuesComplete_doorbellCq : ∀ x, x = { queueA with cqPi := 6, held := [zeros 16] } → ∀ s, s = wqOn x [(0x100010200C, 2)] →
    queueOf s 2 = some x ∧ (fabRead s 5 x.idx 16).2.any (fun b => fld b 12 4 == 2 && decide (idxSub x.cqPi (fld b 12 4) ≤ 2 ^ x.log2c)) = true := by
  rintro x rfl s rfl; decide +kernel

theorem test_hyps_WorkQueuesComplete_poll : ∀ c ∈ [(0x01010000 : Nat), 0], ∀ x, x = { queueA with poll := 1 } →
    ∀ s, s = wqOn x (if c = 0 then [] else [(0x1000100002, 1), (0x1000100003, 1)]) → queueOf s 2 = some x ∧
    (fabRead (countF s F.WQ_CNT_POLL_COUNT 1) 5 (sqSlot x x.sqPi) 64).2.any (fun b => fld b 0 4 == c) = true ∧
    x.poll ≠ 0 ∧ x.state = 1 ∧ x.held = [] ∧ flag s F.WQ_CTRL_ENABLE = true ∧ phaseOf x.log2s x.sqPi = 1 ∧ idxSub x.sqPi x.sqCi < 2 ^ x.log2s := by
  intro c h x hx s hs; subst hs; subst hx
  simp only [List.mem_cons, List.not_mem_nil, or_false] at h
  rcases h with rfl | rfl <;> decide +kernel

theorem test_hyps_WorkQueuesComplete_take : ∀ op ∈ [(0x50 : Nat), 0], ∀ n, n = (if op = 0x50 then 2 else 1) → ∀ x, x = { queueA with sqPi := n } →
    ∀ s, s = wqOn x (if op = 0 then [(0x1000100002, 1)] else [(0x1000100000, 0x50), (0x1000100002, 2)]) →
    queueOf s 2 = some x ∧ wqLegacy s = false ∧ flag s F.WQ_CTRL_ENABLE = true ∧ x.sqPi ≠ x.sqCi ∧ wqHeld s 2 = false ∧ blockTakes s 2 = true ∧
    takenOpen s 2 + dueCount s 2 + x.held.length < cqFree x + 32 ∧
    (fabRead s 5 (sqSlot x x.sqCi) 64).2.any (fun h => fld h 0 1 == op && opAllowed (fabRead s 5 (sqSlot x x.sqCi) 64).1 2 op && fld h 2 1 == n &&
      !(bitAt (fld h 1 1) 1) && !(commonReserved h)) = true ∧ opSlots op = some n ∧ n ≤ idxSub x.sqPi x.sqCi ∧
    (readSlots (fabRead s 5 (sqSlot x x.sqCi) 64).1 x x.sqCi n).2.isSome = true := by
  intro op h n hn x hx s hs; subst hs; subst hx; subst hn
  simp only [List.mem_cons, List.not_mem_nil, or_false] at h
  rcases h with rfl | rfl <;> decide +kernel

/-- An entry of queue 0 on queue 2. -/
def adminT (op : Nat) : Taken := taken 0 0 (lay [(0, 1, op), (2, 1, 1), (8, 2, 2), (12, 1, 2), (13, 1, 2), (24, 8, 0x1000100000), (32, 8, 0x1000101000), (40, 8, 0x1000102000)])

theorem test_hyps_WorkQueuesComplete_admin : ∀ op ∈ [1, 2, 3], ∀ s, s = withTaken { wqOn { queueA with state := 2 } [] with
      wq := ⟨if op = 1 then [] else [{ queueA with state := if op = 3 then 2 else 1 }], [], none, [], []⟩ } [adminT op] →
    openEntry s 0 op = some (adminT op) ∧ fld (adminT op).bytes 8 2 = 2 ∧ adminReserved (adminT op).bytes = false ∧ adminStatus s (adminT op).bytes = 0 ∧
    (queueOf s 2).isSome = (op != 1) ∧ (op = 1 → queueClash s (adminT op).bytes = false) := by
  intro op h s hs; subst hs
  simp only [List.mem_cons, List.not_mem_nil, or_false] at h
  rcases h with rfl | rfl | rfl <;> decide +kernel

theorem test_hyps_WorkQueuesComplete_nop : openEntry (withTaken live [taken 0 0 (zeros 64)]) 0 0 = some (taken 0 0 (zeros 64)) ∧
    ((withTaken live [taken 2 0 (zeros 64)]).wq.taken.find? fun t => t.queue == 2 && !t.ended && t.result.isNone && fld t.bytes 0 1 == 0) = some (taken 2 0 (zeros 64)) := by
  decide +kernel

theorem test_hyps_WorkQueuesComplete_drained : ∀ x, x = { queueA with state := 3 } → ∀ t, t = { adminT 2 with result := some (zeros 12, false) } →
    ∀ s, s = { wqOn x [] with wq := ⟨[x], [t], some (2, 0), [], []⟩ } → queueOf s 2 = some x ∧ s.wq.destroying = some (2, 0) ∧
    takenOpen s 2 = 0 ∧ dueCount s 2 = 0 ∧ (s.wq.taken.find? fun t => t.queue == 0 && t.index == 0 && !t.ended) = some t := by
  rintro x rfl t rfl s rfl; decide +kernel

theorem test_hyps_WorkQueuesComplete_legacy : ∀ s, s = setFs (wqOn { queueA with state := 2 } []) [(F.WQ_CTRL_LEGACY, 1)] →
    queueOf s 2 = some { queueA with state := 2 } ∧ wqLegacy s = true ∧ openEntry (withTaken live [taken 2 0 (zeros 64)]) 2 0 = some (taken 2 0 (zeros 64)) ∧
    (flag live F.WQ_ECINV_HOLD = true → getF live F.WQ_ECINV_QUEUE = 2) := by rintro s rfl; decide +kernel

/-- A descriptor of 128 bytes from 0x10_0020_0000 to 0x10_0030_0000 with DFLAGS, the last of its chain. -/
def descA (flags : Nat) : Bytes := lay [(0, 1, flags), (4, 4, 128), (8, 8, 0x1000200000), (16, 8, 0x1000300000), (24, 8, 2 ^ 63)]

/-- That descriptor at 0x10_0010_0000, and a LINK that goes on at 0x10_0010_0040 behind it. -/
def descMem : List Host.Cell := [(0x1000100004, 128), (0x100010000A, 0x20), (0x100010000C, 0x10), (0x1000100012, 0x30), (0x1000100014, 0x10), (0x100010001F, 0x80)]

/-- A channel on a descriptor. -/
def chanA (n flags : Nat) : DmaCh := ⟨n, some (descA flags), 0, 0, [], none, false, 0, [], 0, false, none⟩

/-- `live` with the engine on, a channel in a STATE, its line PREQ, that memory, and what the channel holds. -/
def dmaOn (n st preq : Nat) (c : DmaCh) : State :=
  let s := setFs live [(F.DMA_CTRL_ENABLE, 1), (F.DMA_CH_STATUS_STATE n, st), (F.DMA_CH_CFG_PREQ n, preq), (F.DMA_CH_CFG_QUOTA n, 4), (F.DMA_CH_DESC_ADDR n, 0x40004000), (F.DMA_CH_LAST_ADDR n, 0x1000100000)]
  { s with mem := descMem, dma := { s.dma with chans := [c] } }

/-- A channel starts the descriptor at an address, as a test. -/
def startsTest (u : State) (n a : Nat) : Bool :=
  let w := putChan (setChanState (setF u (F.DMA_CH_DESC_ADDR n) (a / 64)) n 1)
    { chanOf u n with desc := none, done := 0, issued := 0, bursts := [], last := none, covered := 0, follow := 0, irqAfter := false }
  match (fabRead w (dmaRid n) (a / 64 * 64) 64).2 with
  | none => false
  | some d =>
    let c := { chanOf u n with desc := some d, done := 0, issued := 0, bursts := [], last := none, covered := 0, follow := 0, irqAfter := false }
    !(descReserved d) && !(descOverlap d) && !(descFault (putChan (fabRead w (dmaRid n) (a / 64 * 64) 64).1 c) n d)

theorem dmaStarts_of {u : State} {n a : Nat} (h : startsTest u n a = true) : ∃ t, DmaStarts u n a t := by
  simp only [startsTest] at h
  split at h
  · cases h
  · rename_i d hd
    simp only [Bool.and_eq_true, Bool.not_eq_true'] at h
    exact ⟨_, _, d, Prod.ext rfl hd, h.1.1, rfl, h.2, h.1.2⟩

theorem test_hyps_DmaChannelsComplete_start : ∀ n ∈ [0, 31], ∀ u, u = coreActs (dmaOn n 0 0 (chanA n 0)) 7 →
    unfencedHit u [(descAddr u n, 64)] = false ∧ descAddr u n = 0x1000100000 ∧ ∃ t, DmaStarts u n (descAddr u n) t := by
  intro n h u hu; subst hu
  simp only [List.mem_cons, List.not_mem_nil, or_false] at h
  rcases h with rfl | rfl <;> exact ⟨by decide +kernel, by decide +kernel, dmaStarts_of (by decide +kernel)⟩

theorem test_hyps_DmaChannelsComplete_unfenced : ∀ s, s = { dmaOn 31 2 0 (chanA 31 0) with cores := { live.cores with unfenced := [(2, 0x1000100010, 4)] } } →
    StoreTurn s 7 (F.DMA_CH_CTRL_GO 31).addr (coreActs s 7) ∧ unfencedHit (coreActs s 7) [(descAddr (coreActs s 7) 31, 64)] = true := by
  intro s hs; subst hs; exact ⟨store_of (by decide +kernel), by decide +kernel⟩

theorem test_hyps_DmaChannelsComplete_stores : ∀ q ∈ [(0, 0), (7, 31)], ∀ st ∈ [0, 1, 2, 3], ∀ b ∈ [F.DMA_CH_CTRL_GO q.2, F.DMA_CH_CTRL_KICK q.2, F.DMA_CH_CTRL_STOP q.2,
      F.DMA_CH_CTRL_RESUME q.2, F.DMA_CH_CTRL_ABORT q.2], ∀ s, s = dmaOn q.2 st 0 (chanA q.2 0) →
    StoreTurn s q.1 b.addr (coreActs s q.1) ∧ getF (coreActs s q.1) (F.DMA_CH_STATUS_STATE q.2) = st ∧ descFault (coreActs s q.1) q.2 (descA 0) = false ∧
    ((chanOf (coreActs s q.1) q.2).desc = some (descA 0) ∧ (chanOf (coreActs s q.1) q.2).bursts = [] ∧ (chanOf (coreActs s q.1) q.2).follow = 0) := by
  intro q h st h1 b h2 s hs; subst hs
  refine ⟨store_of ?_, ?_⟩ <;> revert st b <;> simp only [List.mem_cons, List.not_mem_nil, or_false] at h <;> rcases h with rfl | rfl <;> decide +kernel

/-- What a KICK of channel 31 reads again: the LINK of its last descriptor, which ends the chain or names the descriptor at 0x10_0010_0000. -/
def kickOn (last : Bool) : State :=
  let s := dmaOn 31 2 0 (chanA 31 0)
  { s with mem := if last then descMem else descMem ++ [(0x100010025A, 0x10), (0x100010025C, 0x10)] }

theorem test_hyps_DmaChannelsComplete_kick : ∀ last, ∀ u, u = coreActs (if last then kickOn true else setFs (kickOn false) [(F.DMA_CH_LAST_ADDR 31, 0x1000100240)]) 7 →
    unfencedHit u [(getF u (F.DMA_CH_LAST_ADDR 31) + 24, 8)] = false ∧ getF u (F.DMA_CH_STATUS_STATE 31) = 2 ∧
    (∀ v, v = (fabRead u (dmaRid 31) (getF u (F.DMA_CH_LAST_ADDR 31) + 24) 8).1 → getF v (F.DMA_CH_STATUS_STATE 31) = 2 ∧
      (fabRead u (dmaRid 31) (getF u (F.DMA_CH_LAST_ADDR 31) + 24) 8).2.any (fun w => bitAt (leNat w) 63 == last && (last || bits (leNat w) 0 48 == 0x1000100000)) = true ∧
      (last = false → ∃ t, DmaStarts v 31 0x1000100000 t)) := by
  intro last u hu; subst hu
  refine ⟨by cases last <;> decide +kernel, by cases last <;> decide +kernel, ?_⟩
  intro v hv; subst hv
  refine ⟨by cases last <;> decide +kernel, by cases last <;> decide +kernel, ?_⟩
  rintro rfl; exact dmaStarts_of (by decide +kernel)

/-- A HALTED channel that holds no descriptor. -/
def resumeOn : State := dmaOn 0 3 0 { chanA 0 0 with desc := none }

theorem test_hyps_DmaChannelsComplete_resume : ∃ t, DmaStarts (coreActs resumeOn 0) 0 (descAddr (coreActs resumeOn 0) 0) t := dmaStarts_of (by decide +kernel)

theorem test_hyps_DmaChannelsComplete_stop : ∀ u, u = coreActs (dmaOn 0 1 0 (chanA 0 0)) 7 →
    ∀ v, v = dmaStopped (putChan u { chanOf u 0 with stopping := true }) 0 →
    (dmaAppend ((chanOf v 0).records.length + 1) v 0).2 = true ∧ (chanOf (dmaAppend ((chanOf v 0).records.length + 1) v 0).1 0).records = [] ∧
    (chanOf (dmaAppend ((chanOf v 0).records.length + 1) v 0).1 0).follow = 2 ∧ (chanOf (coreActs resumeOn 0) 0).desc = none ∧
    (chanOf (coreActs (dmaOn 0 1 0 { chanA 0 0 with bursts := [⟨0, [1]⟩] }) 0) 0).bursts ≠ [] := by
  rintro u rfl v rfl; decide +kernel

/-- DMA_RUN of channel 31 on queue 2. -/
def dmaRunT : Taken := taken 2 0 (lay [(0, 1, 0x10), (2, 1, 1), (8, 2, 31), (16, 8, 0x1000100000)])

theorem test_hyps_DmaChannelsComplete_run : ∀ st ∈ [0, 1, 2, 3], ∀ s, s = withTaken (dmaOn 31 st 0 (chanA 31 0)) [dmaRunT] → coreLive s = true ∧
    runEntry s 2 = some dmaRunT ∧ (st = 0 ∨ st = 2 → ∃ z, DmaStarts (putChan s { chanOf s 31 with run := some (dmaRunT.queue, dmaRunT.index) }) 31 (fld dmaRunT.bytes 16 8) z) ∧ fld dmaRunT.bytes 8 2 = 31 ∧ allZero (slice dmaRunT.bytes 10 6) = true ∧ allZero (slice dmaRunT.bytes 32 32) = true ∧
    (chanOf s 31).run = none ∧ getF s (F.DMA_CH_STATUS_STATE 31) = st := by
  intro st h s hs; subst hs
  refine ⟨?_, ?_, fun _ => dmaStarts_of ?_, ?_⟩ <;> revert st <;> decide +kernel

theorem test_hyps_DmaTransfersComplete_grant : ∀ q ∈ [(0, 0), (31, 4)], ∀ s, s = setFs (dmaOn q.1 1 1 (chanA q.1 q.2)) [(F.DMA_REQ_SET_LINES, 1)] →
    coreLive s = true ∧ dmaPick s = some q.1 ∧ (chanOf s q.1).desc = some (descA q.2) ∧
    (fabRead { s with dma := { s.dma with lastLow := q.1 } } (dmaRid q.1) (srcAddr (descA q.2) 0)
      (if dflag (descA q.2) 2 then 1 else burstLen s (chanA q.1 q.2) (descA q.2))).2.isSome = true := by
  intro q h s hs; subst hs
  simp only [List.mem_cons, List.not_mem_nil, or_false] at h
  rcases h with rfl | rfl <;> decide +kernel

theorem test_hyps_DmaTransfersComplete_written : ∀ b, b = DmaBurst.mk 0 (List.replicate 64 1) → ∀ q ∈ [(0, 0), (31, 8)], ∀ c, c = { chanA q.1 q.2 with issued := 64, bursts := [b] } →
    ∀ s, s = dmaOn q.1 1 1 c → (chanOf s q.1).bursts = b :: [] ∧ (chanOf s q.1).stopping = false ∧
    (fabWrite s (dmaRid q.1) (dstAddr (descA q.2) b.start) (if dflag (descA q.2) 3 then b.data.drop (b.data.length - 1) else b.data)).2 = true ∧
    wrapRecords (descA q.2) { c with bursts := [], done := 64 } = [] := by
  intro b hb q h c hc s hs; subst hs; subst hc; subst hb
  simp only [List.mem_cons, List.not_mem_nil, or_false] at h
  rcases h with rfl | rfl <;> decide +kernel

theorem test_hyps_DmaTransfersComplete_peripheral : ∀ preq ∈ [32, 63], ∀ s, s = dmaOn 31 1 preq { chanA 31 4 with bursts := [⟨0, [1]⟩, ⟨1, [2, 3]⟩] } →
    (chanOf s 31).bursts = [⟨0, [1]⟩] ++ [⟨1, [2, 3]⟩] ∧ 32 ≤ getF s (F.DMA_CH_CFG_PREQ 31) ∧ dflag (descA 4) 2 = true ∧ chanPeriph s 31 = true := by
  intro p h s hs; subst hs
  simp only [List.mem_cons, List.not_mem_nil, or_false] at h
  rcases h with rfl | rfl <;> decide +kernel

theorem test_hyps_DmaTransfersComplete_end : ∀ c, c = { chanA 31 0 with issued := 128, done := 128 } → ∀ s, s = dmaOn 31 1 0 c →
    getF s (F.DMA_CH_STATUS_STATE 31) = 1 ∧ descDone (chanOf s 31) (descA 0) = true ∧ (chanOf s 31).records = [] ∧ dflag (descA 0) 0 = false ∧
    dflag (descA 0) 1 = false ∧ bitAt (fld (descA 0) 24 8) 63 = true ∧ flag s (F.DMA_CH_STATUS_KICK_PEND 31) = false := by rintro c rfl s rfl; decide +kernel

theorem test_hyps_DmaTransfersComplete_lines : ∀ core ∈ [0, 7], ∀ a ∈ [F.DMA_REQ_SET_LINES.addr, F.DMA_REQ_CLR_LINES.addr, F.DMA_CQ_CI_INDEX.addr],
    StoreTurn live core a (coreActs live core) := by
  intro core h a ha; apply store_of; revert core a; decide +kernel

theorem test_hyps_DmaTransfersComplete_ci : ∀ u, u = setFs (coreActs live 7) [(F.DMA_CQ_PI_INDEX, 3)] → idxSub 3 (getF u F.DMA_CQ_CI_INDEX) ≤
    idxSub (getF u F.DMA_CQ_PI_INDEX) (getF u F.DMA_CQ_CI_INDEX) ∧ ∀ n < 32, flag (setF u F.DMA_CQ_CI_INDEX 3) (F.DMA_CH_STATUS_CQ_WAIT n) = false := by
  rintro u rfl; decide +kernel

/-- Three entries of bank 0 and one of bank 63, width 0, that match key 5 where valid; the search on port 7 latched for stepping. -/
def asuA : Asu := ⟨[⟨0, 3, 5, 255⟩, ⟨0, 9, 5, 255⟩, ⟨63, 2, 5, 255⟩], [⟨0, 9, true, 4, 90⟩, ⟨63, 2, true, 4, 20⟩, ⟨0, 3, true, 4, 30⟩],
  [⟨7, some (5, 2 ^ 63 + 1, 0), [(0, 3), (0, 9)], 1⟩], none⟩

/-- `live` with the Palette on, banks 0 and 63 enabled at width 0, and its contents. -/
def asuOn (a : Asu) : State := { setFs live [(F.ASU_CTRL_ENABLE, 1), (F.ASU_BANK_CFG_ENABLE 0, 1), (F.ASU_BANK_CFG_ENABLE 63, 1), (F.ASU_RESULT_READY 7, 1)] with asu := a }

theorem test_hyps_PaletteReportsBestMatch : coreLive (asuOn asuA) = true ∧ (portOf (asuOn asuA) 7).running = some (5, 2 ^ 63 + 1, 0) ∧ flag (asuOn asuA) F.ASU_CTRL_ENABLE = true ∧
    (asuMatches (moveProgress (asuOn asuA)) 5 (2 ^ 63 + 1) 0).length = 3 ∧ asuMatches (moveProgress (asuOn asuA)) 6 (2 ^ 63 + 1) 0 = [] := by decide +kernel

/-- Of equal PRIO the lowest bank and then the lowest index wins: Table and sentence of R458. -/
theorem test_best_match : (asuSearch (asuOn asuA) 5 (2 ^ 63 + 1) 0).2.index = 3 ∧ (asuSearch (asuOn asuA) 5 (2 ^ 63) 0).2.bank = 63 ∧
    (asuSearch (asuOn asuA) 5 (2 ^ 63 + 1) 0).2.multi = true := by decide +kernel

theorem test_hyps_PaletteCommandsComplete_stores : ∀ core ∈ [0, 7], ∀ bank ∈ [0, 63], ∀ b ∈ [F.ASU_SEARCH_GO core, F.ASU_STEP_CTRL_NEXT core, F.ASU_WENTRY_GO core,
    F.ASU_MOVE_CTRL_GO, F.ASU_BANK_CFG_ENABLE bank], StoreTurn (asuOn asuA) core b.addr (coreActs (asuOn asuA) core) := by
  intro core h bank h1 b h2; apply store_of; revert b; revert core bank; decide +kernel

theorem test_hyps_PaletteCommandsComplete_steps : ∀ u, u = coreActs (asuOn asuA) 7 → flag u (F.ASU_RESULT_READY 7) = true ∧
    (portOf u 7).latched[(portOf u 7).steps]? = some (0, 9) ∧ bankEntries u 63 = 2048 ∧ u.asu.move = none ∧ (∀ m, u.asu.move = some m → m.bank ≠ 63) := by
  rintro u rfl
  have h : (coreActs (asuOn asuA) 7).asu.move = none := by decide +kernel
  exact ⟨by decide +kernel, by decide +kernel, by decide +kernel, h, by rw [h]; intro m hm; cases hm⟩

theorem test_hyps_PaletteCommandsComplete_stepEnd : ∀ u, u = coreActs (asuOn { asuA with ports := [⟨7, none, [(0, 3)], 1⟩] }) 7 →
    (portOf u 7).latched[(portOf u 7).steps]? = none := by rintro u rfl; decide +kernel

theorem test_hyps_PaletteCommandsComplete_move : ∀ q ∈ [(1, 1, 2047), (0, 0, 2046)], ∀ u, u = coreActs (asuOn asuA) 7 → u.asu.move = none ∧ q.2.2 < 2048 ∧ q.2.1 ≤ q.2.2 ∧
    (q.1 % 2 = 1 → 0 < q.2.1 ∧ q.2.1 ≤ bankEntries u 63) ∧ ¬(q.1 % 2 = 0 ∧ bankEntries u 63 ≤ q.2.2 + 1) := by
  intro q h u hu; subst hu
  simp only [List.mem_cons, List.not_mem_nil, or_false] at h
  rcases h with rfl | rfl <;> decide +kernel

theorem test_hyps_PaletteCommandsComplete_moveEnd : ∀ s, s = asuOn { asuA with move := some ⟨0, 3, 9, true, 2⟩ } → coreLive s = true ∧ s.asu.move = some ⟨0, 3, 9, true, 2⟩ := by
  rintro s rfl; decide +kernel

theorem test_hyps_PaletteCommandsComplete_bankCfg : ∀ value ∈ [(0 : Nat), 2 ^ 31 + 2], bits value 2 29 = 0 ∧ value % 4 ≠ 3 := by decide

theorem test_hyps_PaletteCommandsComplete_queue : ∀ t, t = taken 2 0 (lay [(0, 1, 0x50), (2, 1, 2), (8, 8, 2 ^ 63), (16, 1, 2)] ++ [5] ++ zeros 63) →
    ∀ s, s = withTaken (asuOn asuA) [t] → openEntry s 2 0x50 = some t ∧ allZero (slice t.bytes 17 47) = true ∧ fld t.bytes 16 1 < 3 := by rintro t rfl s rfl; decide +kernel

/-- A write to memory that no fault stops succeeds, whatever the bytes. -/
theorem fabWrite_ok {s : State} {rid a n : Nat} (h : memFault s a n true = none) (bs : Bytes) (hb : bs.length = n) : (fabWrite s rid a bs).2 = true := by
  subst hb
  simp only [fabWrite, h]
  split
  · rfl
  · split <;> rfl

theorem cipWrite_ok {s : State} {q a n : Nat} (h : memFault s a n true = none) (bs : Bytes) (hb : bs.length = n) : (cipWrite s q a bs).2 = true := by
  have := fabWrite_ok (rid := 9) h bs hb
  simp only [cipWrite]
  split
  · rename_i s' hc; rw [hc] at this; cases this
  · exact this

/-- `live` with both engines on and its key slots, and entries taken. -/
def cipOn (slots : List KeySlot) (ctxs : List DigCtx) (t : Taken) : State :=
  let s := setFs live [(F.CIP_CTRL_ENABLE, 1), (F.DIG_CTRL_ENABLE, 1)]
  withTaken { s with cip := { s.cip with slots := slots, ctxs := ctxs, kek := some (zeros 32), escrow := some (zeros 32) } } [t]

/-- A GCM entry of one byte and no associated data on slot 16. -/
def gcmT (op : Nat) : Taken := taken 2 0 (lay [(0, 1, op), (2, 1, 1), (8, 2, 16), (12, 4, 1), (32, 8, 0x1000200000), (40, 8, 0x1000300000)])

/-- Slot 16 with a GCM key, slot 4,095 with a transport key. -/
def slotsA : List KeySlot := [⟨16, 1, true, 5, 1, zeros 32⟩, ⟨4095, 3, false, 0, 0, zeros 32⟩]

theorem test_hyps_CipherEntriesComplete_gcm : ∀ op ∈ [0x20, 0x21], ∀ t, t = gcmT op → ∀ s, s = cipOn slotsA [] t → coreLive s = true ∧ flag s F.CIP_CTRL_ENABLE = true ∧
    openEntry s 2 op = some t ∧ fld t.bytes 28 4 = 0 ∧ gcmKey s (gcmEntry t.bytes) = (0, zeros 32) ∧ (gcmEntry t.bytes).len = 1 ∧
    (cipRead s 2 (gcmEntry t.bytes).aad (gcmEntry t.bytes).aadLen) = (s, some []) ∧ gcmOverlap (gcmEntry t.bytes) ((gcmEntry t.bytes).dst + 1) = false ∧
    gcmOverlap (gcmEntry t.bytes) ((gcmEntry t.bytes).src + 1) = false ∧
    (cipRead s 2 (gcmEntry t.bytes).src 1).2 = some [0] ∧ (cipRead s 2 (gcmEntry t.bytes).src 17).2 = some (zeros 17) := by
  intro op h t ht s hs; subst hs; subst ht
  simp only [List.mem_cons, List.not_mem_nil, or_false] at h
  rcases h with rfl | rfl <;> decide +kernel

theorem test_hyps_CipherEntriesComplete_gcmWrite : ∀ bs : Bytes, bs.length = 1 ∨ bs.length = 17 → ∀ s, s = cipOn slotsA [] (gcmT 0x20) →
    (cipWrite (countF (cipRead s 2 0x1000200000 1).1 F.CIP_CNT_GCM_BYTES_COUNT 1) 2 0x1000300000 bs).2 = true := by
  rintro bs (hb | hb) s rfl <;> exact cipWrite_ok (by decide +kernel) _ hb

/-- An XTS entry of one unit of 4,096 bytes on slot 1. -/
def xtsT (op : Nat) : Taken := taken 2 0 (lay [(0, 1, op), (2, 1, 1), (8, 2, 1), (12, 4, 4096), (32, 8, 0x1000200000), (40, 8, 0x1000300000)])

theorem test_hyps_CipherEntriesComplete_xts : ∀ op ∈ [0x22, 0x23], ∀ x, x = KeySlot.mk 1 2 false 0 0 (zeros 64) → ∀ t, t = xtsT op → ∀ s, s = cipOn [x] [] t →
    openEntry s 2 op = some t ∧ fld t.bytes 11 1 = 0 ∧ fld t.bytes 48 8 = 0 ∧ fld t.bytes 8 2 = 1 ∧ slotOf s 1 = some x ∧ fld t.bytes 10 1 = 0 ∧ fld t.bytes 12 4 = 4096 ∧
    overlaps (fld t.bytes 32 8) 4096 (fld t.bytes 40 8) 4096 = false ∧ (cipRead s 2 (fld t.bytes 32 8) 4096).2.isSome = true := by
  intro op h x hx t ht s hs; subst hs; subst ht; subst hx
  simp only [List.mem_cons, List.not_mem_nil, or_false] at h
  rcases h with rfl | rfl <;> decide +kernel

theorem test_hyps_CipherEntriesComplete_xtsWrite : ∀ bs : Bytes, bs.length = 4096 → ∀ s, s = cipOn [⟨1, 2, false, 0, 0, zeros 64⟩] [] (xtsT 0x22) →
    (cipWrite s 2 0x1000300000 bs).2 = true ∧ (xtsRun true (zeros 64) 4096 1 5 (zeros 4096)).length = 4096 := by
  rintro bs hb s rfl; exact ⟨cipWrite_ok (by decide +kernel) _ hb, by decide +kernel⟩

/-- A key operation on slot 16 with WRAPPER and WSLOT. -/
def keyT (op wrapper wslot kkind : Nat) : Taken := taken 2 0 (lay [(0, 1, op), (2, 1, 1), (8, 2, 16), (10, 1, wrapper), (12, 2, wslot), (16, 4, kkind), (32, 8, 0x1000200000)])

/-- The blob of the UNWRAP clause is one that EXPORT made; that the 36 steps of RFC 5649 give its record back is not evaluated here. -/
theorem test_hyps_CipherEntriesComplete_keys : ∀ q ∈ [(0x24, 1, 0, 0), (0x24, 3, 4095, 0), (0x25, 0, 0, 1), (0x26, 1, 0, 0), (0x26, 2, 0, 0), (0x26, 3, 4095, 0), (0x27, 0, 0, 0)],
    ∀ t, t = keyT q.1 q.2.1 q.2.2.1 q.2.2.2 → ∀ s, s = cipOn slotsA [] t → openEntry s 2 q.1 = some t ∧ keyopReserved t.bytes = false ∧ slotOpen (fld t.bytes 8 2) = true ∧
    fld t.bytes 10 1 = q.2.1 ∧ fld t.bytes 12 2 = q.2.2.1 ∧ fld t.bytes 16 4 = q.2.2.2 ∧ (q.2.1 = 0 ∨ wslotOk s q.2.1 q.2.2.1 = true ∧ wrapperKey s q.2.1 q.2.2.1 = some (zeros 32)) ∧
    fld t.bytes 32 8 % 64 = 0 ∧ slotOf s 16 = some ⟨16, 1, true, 5, 1, zeros 32⟩ ∧ flag s F.CIP_STATUS_RNG_FAIL = false ∧ (cipRead s 2 0x1000200000 64).2.isSome = true ∧
    recordOk (keyRecord ⟨16, 1, true, 5, 1, zeros 32⟩) = true := by
  intro q h t ht s hs; subst hs; subst ht
  simp only [List.mem_cons, List.not_mem_nil, or_false] at h
  rcases h with rfl | rfl | rfl | rfl | rfl | rfl | rfl <;> decide +kernel

theorem test_hyps_CipherEntriesComplete_exportWrite : ∀ s, s = cipOn slotsA [] (keyT 0x26 1 0 0) →
    (cipWrite s 2 0x1000200000 (keyBlob (zeros 32) 1 (keyRecord ⟨16, 1, true, 5, 1, zeros 32⟩))).2 = true := by
  rintro s rfl; exact cipWrite_ok (n := 64) (by decide +kernel) _ (by decide +kernel)

/-- A digest entry of one byte on context 63 with its flags. -/
def digT (flags : Nat) : Taken := taken 2 0 (lay [(0, 1, 0x30), (2, 1, 1), (8, 1, 63), (9, 1, flags), (12, 4, 1), (16, 8, 0x1000200000), (24, 8, 0x1000300000)])

theorem test_hyps_CipherEntriesComplete_digest : ∀ flags ∈ [1, 2, 5, 6], ∀ t, t = digT flags → ∀ s, s = cipOn [] [⟨63, bitAt flags 2, [7]⟩] t → openEntry s 2 0x30 = some t ∧
    fld t.bytes 8 1 = 63 ∧ fld t.bytes 9 1 = flags ∧ fld t.bytes 10 2 = 0 ∧ allZero (slice t.bytes 40 24) = true ∧ digShared s 2 63 = false ∧
    (if bitAt (fld t.bytes 9 1) 0 then some ⟨63, bitAt flags 2, []⟩ else ctxOf s 63) = some ⟨63, bitAt flags 2, if bitAt flags 0 then [] else [7]⟩ ∧
    (fabRead s 9 (fld t.bytes 16 8) (fld t.bytes 12 4)).2 = some [0] ∧ overlaps (fld t.bytes 16 8) 1 (fld t.bytes 24 8) 48 = false := by
  intro op h t ht s hs; subst hs; subst ht
  simp only [List.mem_cons, List.not_mem_nil, or_false] at h
  rcases h with rfl | rfl | rfl | rfl <;> decide +kernel

theorem test_hyps_CipherEntriesComplete_digestWrite : ∀ s, s = cipOn [] [⟨63, false, [7]⟩] (digT 2) → (fabWrite s 9 0x1000300000 (sha256 [7, 0])).2 = true ∧
    (fabWrite s 9 0x1000300000 (sha384 [7, 0])).2 = true := by
  rintro s rfl; exact ⟨fabWrite_ok (n := 32) (by decide +kernel) _ (by decide +kernel), fabWrite_ok (n := 48) (by decide +kernel) _ (by decide +kernel)⟩

theorem test_hyps_CipherEntriesComplete_ends : ∀ t, t = { gcmT 0x20 with result := some (zeros 12, false) } → ∀ u, u = { digT 2 with result := some (zeros 12, false) } →
    doneEntry (cipOn slotsA [] t) 2 0x20 0x27 = some t ∧ doneEntry (cipOn [] [] u) 2 0x30 0x30 = some u := by rintro t rfl u rfl; decide +kernel

/-- `live` with port `p` enabled in RATE 0, its link up or down, and what the port holds. -/
def netOn (p link : Nat) (fs : List (Fld × Nat)) (x : MacPort) : State :=
  let s := setFs live ([(mp p F.MACA_CTRL_ENABLE, 1), (mp p F.MACA_STATUS_LINK, link), (mp p F.MACA_MAXFRAME_BYTES, 1522), (F.PLK_CTRL_ENABLE, 1)] ++ fs)
  { s with net := { s.net with ports := [x] } }
/-- A port that holds nothing. -/
def portA (p : Nat) : MacPort := ⟨p, [], none, none, [], [], 0, 0, []⟩

theorem test_hyps_PortsAndClockComplete_stores : ∀ core ∈ [0, 7], ∀ p ∈ [0, 1], ∀ a ∈ [F.MACA_PTP_CTRL_LOAD.addr, F.MACA_PTP_CTRL_STEP.addr, (mp p F.MACA_TSQ_POP_POP).addr],
    StoreTurn (netOn p 0 [] (portA p)) core a (coreActs (netOn p 0 [] (portA p)) core) := by
  intro core h p h1 a ha; apply store_of; revert core p a; decide +kernel

theorem test_hyps_PortsAndClockComplete_links : ∀ p ∈ [0, 1], ∀ en ∈ [0, 1], ∀ s, s = netOn p 0 [(mp p F.MACA_PREEMPT_ENABLE, en)] (portA p) → ∀ u,
    u = showRate (linkChange s p 1) p → macOn s p = true ∧ macLink s p = false ∧ flag s (mp p F.MACA_PREEMPT_ENABLE) = (en == 1) ∧
    macLink (netOn p 1 [] (portA p)) p = true ∧ domainOn s .lanes = true ∧ flag s F.PLK_CTRL_ENABLE = true ∧ flag s F.PLK_STATUS_LINK = false ∧
    flag (netOn p 1 [(F.PLK_STATUS_LINK, 1)] (portA p)) F.PLK_STATUS_LINK = true ∧ domainOn (coreActs s 7) .lane0 = true ∧ coreOn s 7 = true := by
  intro p h en h1 s hs u hu; subst hu; subst hs; revert p en; decide +kernel

theorem test_hyps_PortsAndClockComplete_verify : ∀ p ∈ [0, 1], ∀ k ∈ [2, 3], ∀ s, s = netOn p 1 [(mp p F.MACA_STATUS_VERIFY, 1)] { portA p with verifySent := k, verifyAt := 99 } →
    getF s (mp p F.MACA_STATUS_VERIFY) = 1 ∧ (macOf s p).verifySent = k ∧ macOn s p = true := by
  intro p h k h1 s hs; subst hs; revert p k; decide +kernel

theorem test_hyps_PortsAndClockComplete_pause : ∀ p ∈ [0, 1], ∀ s, s = netOn p 1 [(mp p F.MACA_FC_RX_PAUSE, 1), (mp p F.MACA_PREEMPT_ENABLE, 1), (mp p F.MACA_FC_RX_PFC, 0x80)]
      { portA p with paused := [(7, 500)] } → macOn s p = true ∧ macLink s p = true ∧ flag s (mp p F.MACA_PREEMPT_ENABLE) = true ∧ flag s (mp p F.MACA_FC_RX_PAUSE) = true ∧
    ((macOf s p).paused.find? fun e => e.1 == 7) = some (7, 500) ∧ bitAt (getF s (mp p F.MACA_FC_RX_PFC)) 7 = true ∧ bitAt (getF s (mp p F.MACA_FC_RX_PFC)) 0 = false := by
  intro p h s hs; subst hs; revert p; decide +kernel

/-- A frame of 64 bytes with its FCS, to the broadcast address. -/
def frameA (t0 t1 : Byte) : Bytes := List.replicate 6 0xFF ++ zeros 6 ++ [t0, t1] ++ zeros 46

/-- A frame in the store of port `p` for ring 7, and the fields of that ring: one buffer of 2,048 bytes posted, its address in the slot. -/
def storedA : MacStored := ⟨7, frameA 8 0, 5, 0, false, 0⟩
def ringA (p : Nat) : List (Fld × Nat) := [(mp p (F.MACA_RXR_CFG_ENABLE 7), 1), (mp p (F.MACA_RXR_CFG_QUOTA 7), 1), (mp p (F.MACA_RXR_CFG_LOG2S 7), 2), (mp p (F.MACA_RXR_BASE_ADDR 7), 0x4000400), (mp p (F.MACA_RXR_PI_INDEX 7), 1)]
def netMem : List Host.Cell := [(0x1000100002, 0x20), (0x1000100004, 0x10), (0x1000100008, 60)]
def ringOn (p : Nat) (x : MacPort) : State := { netOn p 1 (ringA p) x with mem := netMem }

/-- No frame waits for a ring. -/
theorem ringIdle_of {s : State} {p r : Nat} (h : ((macOf s p).store.any fun f => f.ring == r) = false) : RingIdle s p r := by
  intro f hf
  have h1 := List.find?_some hf
  have h2 := List.mem_of_find?_eq_some hf
  rw [List.any_eq_false] at h
  exact absurd h1 (h f h2)

/-- A frame stands first for a ring that has buffers for it, none follows, and it is placed whole, as a test. -/
def placesTest (s : State) (p r : Nat) : Bool :=
  match (macOf s p).store.find? fun f => f.ring == r with
  | none => false
  | some f =>
    let n := max 1 (ceilDiv f.data.length (bufSize s p r))
    let w := placeParts n (putMac s { macOf s p with store := (macOf s p).store.erase f }) p f true f.data
    flag s (rxf p r F.MACA_RXR_CFG_ENABLE F.SVC_RXR_CFG_ENABLE) &&
      decide (n ≤ idxSub (getF s (rxf p r F.MACA_RXR_PI_INDEX F.SVC_RXR_PI_INDEX)) (getF s (rxf p r F.MACA_RXR_CI_INDEX F.SVC_RXR_CI_INDEX))) &&
      (match w.2 with | .ok b => b | .error _ => false) && !((macOf w.1 p).store.any fun g => g.ring == r)

theorem ringPlaces_of {s : State} {p r : Nat} (h : placesTest s p r = true) : ∃ t, RingPlaces s p r t := by
  simp only [placesTest] at h
  split at h
  · cases h
  · rename_i f hf
    simp only [Bool.and_eq_true, Bool.not_eq_true', decide_eq_true_eq] at h
    obtain ⟨⟨⟨h1, h2⟩, h3⟩, h4⟩ := h
    refine ⟨_, Or.inr ⟨f, _, hf, h1, h2, Prod.ext rfl ?_, rfl, ?_⟩⟩
    · revert h3; cases (placeParts (max 1 (ceilDiv f.data.length (bufSize s p r))) (putMac s { macOf s p with store := (macOf s p).store.erase f }) p f true f.data).2 <;> simp
    · apply ringIdle_of; split <;> exact h4

theorem test_hyps_FramesComplete_received : ∀ p ∈ [0, 1], ∀ fcs ∈ [1, 3], ∀ f, f = frameA 8 0 → ∀ s, s = setFs (ringOn p (portA p)) [(mp p F.MACA_FILTER_DEFAULT, 7)] →
    ∀ u v, u = countRx (if fcs = 3 then countF s (mp p F.MACA_CNT_FEC_CORR_COUNT) 1 else s) p (f.length + 4) → v = (asuUse u (3 + p) (fit f 64) 2).1 →
    64 ≤ f.length + 4 ∧ f.length + 4 ≤ getF u (mp p F.MACA_MAXFRAME_BYTES) ∧ beNat (slice f 12 2) ≠ 0x8100 ∧ beNat (slice f 12 2) ≠ 0x8808 ∧ (etherType f).1 ≠ 0x88B5 ∧
    macAdmits u p f = true ∧ isRoce f = false ∧ (asuUse u (3 + p) (fit f 64) 2).2.hit = false ∧ flag v (mp p F.MACA_FILTER_DROP_MISS) = false ∧ macOn s p = true ∧
    macLink s p = true ∧ getF v (mp p F.MACA_FILTER_DEFAULT) = 7 := by
  intro p h fcs h1 f hf s hs u v hu hv; subst hv; subst hu; subst hs; subst hf; revert p fcs; decide +kernel

/-- A frame is stored for a ring and placed, or turned away where its QUOTA is 0. -/
theorem test_hyps_FramesComplete_taken : ∀ p ∈ [0, 1], (∃ t, StoreTakes (ringOn p (portA p)) p 7 (frameA 8 0) 7 true t) ∧
    ∃ t, StoreTakes (netOn p 1 [(mp p (F.MACA_RXR_CFG_QUOTA 0), 0)] (portA p)) p 0 (frameA 8 0) 0 false t := by
  intro p h
  simp only [List.mem_cons, List.not_mem_nil, or_false] at h
  rcases h with rfl | rfl
  · have h1 : ∃ t, RingPlaces (putMac (ringOn 0 (portA 0)) { macOf (ringOn 0 (portA 0)) 0 with store := (macOf (ringOn 0 (portA 0)) 0).store ++
        [⟨7, frameA 8 0, if 0 = 2 then 0 else ptpStamp (ringOn 0 (portA 0)) (getF (ringOn 0 (portA 0)) (mp 0 F.MACA_PTP_RXLAT_NS)), 7, true, (ringOn 0 (portA 0)).now⟩] }) 0 7 t :=
      ringPlaces_of (by decide +kernel)
    obtain ⟨t, ht⟩ := h1
    exact ⟨⟨t, Or.inr ⟨by simp only [StoreRoom]; decide +kernel, ht⟩⟩, _, Or.inl ⟨by simp only [StoreRoom]; decide +kernel, rfl⟩⟩
  · have h1 : ∃ t, RingPlaces (putMac (ringOn 1 (portA 1)) { macOf (ringOn 1 (portA 1)) 1 with store := (macOf (ringOn 1 (portA 1)) 1).store ++
        [⟨7, frameA 8 0, if 1 = 2 then 0 else ptpStamp (ringOn 1 (portA 1)) (getF (ringOn 1 (portA 1)) (mp 1 F.MACA_PTP_RXLAT_NS)), 7, true, (ringOn 1 (portA 1)).now⟩] }) 1 7 t :=
      ringPlaces_of (by decide +kernel)
    obtain ⟨t, ht⟩ := h1
    exact ⟨⟨t, Or.inr ⟨by simp only [StoreRoom]; decide +kernel, ht⟩⟩, _, Or.inl ⟨by simp only [StoreRoom]; decide +kernel, rfl⟩⟩

/-- A frame that a Palette entry of bank 0 classifies with ADATA `d`. -/
theorem test_hyps_FramesComplete_classified : ∀ d ∈ [0, 7, 8, 15], ∀ f, f = frameA 8 0 → ∀ s, s = { netOn 1 1 [(F.ASU_CTRL_ENABLE, 1), (F.ASU_BANK_CFG_ENABLE 0, 1),
      (F.ASU_BANK_CFG_WIDTH 0, 2), (F.ASU_USE_BANKS_BANKS 4, 1)] (portA 1) with asu := ⟨[], [⟨0, 0, true, 1, d⟩], [], none⟩ } → ∀ u, u = countRx s 1 (f.length + 4) →
    (asuUse u 4 (fit f 64) 2).2.hit = true ∧ (asuUse u 4 (fit f 64) 2).2.adata = d := by
  intro d h f hf s hs u hu; subst hu; subst hs; subst hf; revert d; decide +kernel

/-- A stored frame is placed once PI posts a buffer, and nothing waits after the wait of the only one has ended. -/
theorem test_hyps_FramesComplete_placed : ∀ p ∈ [0, 1], ∀ s, s = setF (ringOn p { portA p with store := [storedA] }) (mp p (F.MACA_RXR_PI_INDEX 7)) 0 →
    StoreTurn s 7 (mp p (F.MACA_RXR_PI_INDEX 7)).addr (coreActs s 7) ∧ idxSub 1 (getF (coreActs s 7) (mp p (F.MACA_RXR_CI_INDEX 7))) = 1 ∧
    (∃ t, RingPlaces (setF (coreActs s 7) (mp p (F.MACA_RXR_PI_INDEX 7)) 1) p 7 t) ∧ ((macOf s p).store.find? fun f => f.ring == 7) = some storedA ∧
    ∃ t, RingPlaces (countF (putMac (reach s (storedA.arrived + getF s (mp p F.MACA_RX_WAIT_MICROS) * us)) { macOf s p with store := (macOf s p).store.erase storedA })
      (mp p F.MACA_CNT_RX_NOBUF_COUNT) 1) p 7 t := by
  intro p h s hs; subst hs
  simp only [List.mem_cons, List.not_mem_nil, or_false] at h
  rcases h with rfl | rfl <;>
    exact ⟨store_of (by decide +kernel), by decide +kernel, ringPlaces_of (by decide +kernel), by decide +kernel, _, Or.inl ⟨ringIdle_of (by decide +kernel), rfl⟩⟩

/-- A write that enables a receive ring finds a stored frame for it. -/
theorem test_hyps_RegisterWriteCompletes_rings : ∀ b v, b = (F.MACA_RXR_CFG_ENABLE 7).addr → v = 2 ^ 31 + 2 ^ 20 + 2 ^ 17 → ∀ a,
    a = coreActs (setF (ringOn 0 { portA 0 with store := [storedA] }) (F.MACA_RXR_CFG_ENABLE 7) 0) 7 → ∀ t, t = fieldsWrite (coreRid 7) b 0 32 v (rowOf b).fields a →
    flag t (mp 0 (F.MACA_RXR_CFG_ENABLE 7)) = true ∧ (∃ u, RingPlaces t 0 7 u) ∧
    ∀ w, w = fieldsWrite (coreRid 7) 0x010D000208 0 32 (2 ^ 31 + 2 ^ 17) (rowOf 0x010D000208).fields (coreActs live 7) → flag w F.SVC_RXR_CFG_ENABLE = true ∧
      ∃ u, RingPlaces (svcHeldPlace w) 2 0 u := by
  rintro b v rfl rfl a rfl t rfl
  refine ⟨by decide +kernel, ringPlaces_of (by decide +kernel), ?_⟩
  rintro w rfl
  exact ⟨by decide +kernel, _, Or.inl ⟨ringIdle_of (by decide +kernel), rfl⟩⟩

/-- A slot the core has written and not fenced. -/
theorem test_hyps_FramesComplete_unfenced : ∀ s, s = { netOn 0 1 [(F.MACA_TXR_CFG_LOG2S 7, 2), (F.MACA_TXR_BASE_ADDR 7, 0x4000400)] (portA 0) with
      cores := { live.cores with unfenced := [(7, 0x1000100008, 4)] } } → ∀ u, u = coreActs s 7 → StoreTurn s 7 (mp 0 (F.MACA_TXR_PI_INDEX 7)).addr u ∧
    idxSub 1 (getF u (mp 0 (F.MACA_TXR_CI_INDEX 7))) ≤ 2 ^ getF u (mp 0 (F.MACA_TXR_CFG_LOG2S 7)) ∧
    unfencedHit u ((List.range (min (2 ^ getF u (mp 0 (F.MACA_TXR_CFG_LOG2S 7))) (idxSub 1 (getF u (mp 0 (F.MACA_TXR_PI_INDEX 7)))))).map fun k =>
      (slotAddr u (mp 0 (F.MACA_TXR_BASE_ADDR 7)) (mp 0 (F.MACA_TXR_CFG_LOG2S 7)) (getF u (mp 0 (F.MACA_TXR_PI_INDEX 7)) + k), 32)) = true := by
  rintro s rfl u rfl; exact ⟨store_of (by decide +kernel), by decide +kernel, by decide +kernel⟩

theorem test_hyps_FramesComplete_indices : ∀ core ∈ [0, 7], ∀ p ∈ [0, 1], ∀ r ∈ [0, 7], ∀ s, s = netOn p 1 [] (portA p) → StoreTurn s core (mp p (F.MACA_RXR_PI_INDEX r)).addr (coreActs s core) ∧
    StoreTurn s core (mp p (F.MACA_TXR_PI_INDEX r)).addr (coreActs s core) ∧ (coreActs s core).cores.unfenced = [] ∧ idxSub 1 (getF (coreActs s core) (mp p (F.MACA_RXR_CI_INDEX r))) = 1 ∧
    idxSub 1 (getF (coreActs s core) (mp p (F.MACA_TXR_CI_INDEX r))) = 1 := by
  intro core h p h1 r h2 s hs; subst hs
  refine ⟨store_of ?_, store_of ?_, rfl, ?_⟩ <;> revert core p r <;> decide +kernel

/-- The fields of transmit ring 7 with one slot posted. -/
def txA (p : Nat) : List (Fld × Nat) := [(mp p (F.MACA_TXR_CFG_ENABLE 7), 1), (mp p (F.MACA_TXR_CFG_LOG2S 7), 2), (mp p (F.MACA_TXR_BASE_ADDR 7), 0x4000400), (mp p (F.MACA_TXR_PI_INDEX 7), 1)]
/-- A frame of 200 bytes being sent on queue 3. -/
def sendA (crew : Bool) : MacTx := ⟨3, crew, zeros 200, 0, 5, false, 0⟩

theorem test_hyps_FramesComplete_start : ∀ p ∈ [0, 1], ∀ s, s = { netOn p 1 (txA p) (portA p) with mem := netMem } → macOn s p = true ∧ (macOf s p).sending = none ∧
    (macOf s p).cutFrame = none ∧ bestQueue s p 0 (List.range 8) = some 7 ∧ bestQueue s p 8 (List.range 7) = some 3 ∧ ringHead s p 3 = false ∧
    (readTx s p 7 (mp p (F.MACA_TXR_BASE_ADDR 7)) (mp p (F.MACA_TXR_CFG_LOG2S 7)) (mp p (F.MACA_TXR_CI_INDEX 7)) (getF s (mp p F.MACA_MAXFRAME_BYTES) - 4)).2.1 = 0 ∧
    bestQueue (netOn p 1 [] (portA p)) p 8 (List.range 8) = some 3 := by
  intro p h s hs; subst hs; revert p; decide +kernel

theorem test_hyps_FramesComplete_cut : ∀ p ∈ [0, 1], ∀ s, s = netOn p 1 [(mp p F.MACA_STATUS_PREEMPT, 1), (mp p F.MACA_PREEMPT_EXPRESS, 0x80)] { portA p with sending := some (sendA false) } →
    (macOf s p).sending = some (sendA false) ∧ flag s (mp p F.MACA_STATUS_PREEMPT) = true ∧ isExpress s p 3 = false ∧
    bestQueue s p 0x80 ((List.range 8).filter (isExpress s p)) = some 7 ∧ cutPoint (sendA false) 61 = some 64 ∧ cutPoint (sendA false) 136 = some 136 := by
  intro p h s hs; subst hs; revert p; decide +kernel

theorem test_hyps_FramesComplete_pair : ∀ fcs ∈ [1, 3], ∀ f, f = frameA 0x88 0xB5 → ∀ s, s = netOn 0 1 [(F.PLK_STATUS_LINK, 1)] (portA 0) → domainOn s .lanes = true ∧
    flag s F.PLK_CTRL_ENABLE = true ∧ flag s F.PLK_STATUS_LINK = true ∧ 64 ≤ f.length + 4 ∧ f.length + 4 ≤ 9216 ∧ (fcs = 1 ∨ fcs = 3) ∧ beNat (slice f 12 2) = 0x88B5 ∧
    leNat (slice f 0 6) = 2 ^ 48 - 1 := by
  intro fcs h f hf s hs; subst hs; subst hf; revert fcs; decide +kernel

/-- A round of SHA-2 keeps its eight variables. -/
theorem shaRound_length (p : Sha2) (v : List Nat) (kw : Nat × Nat) (h : v.length = 8) : (shaRound p v kw).length = 8 := by
  unfold shaRound; split
  · rfl
  · exact h

theorem shaRounds_length (p : Sha2) (l : List (Nat × Nat)) : ∀ v : List Nat, v.length = 8 → (l.foldl (shaRound p) v).length = 8 := by
  induction l with
  | nil => intro v h; exact h
  | cons x xs ih => intro v h; exact ih _ (shaRound_length p v x h)

theorem shaBlocks_length (p : Sha2) (l : List Bytes) : ∀ v : List Nat, v.length = 8 → (l.foldl (shaBlock p) v).length = 8 := by
  induction l with
  | nil => intro v h; exact h
  | cons x xs ih => intro v h; exact ih _ (by simp [shaBlock, h, shaRounds_length p _ v h])

theorem flatten_be (k : Nat) : ∀ l : List Nat, ((l.map (be k)).flatten).length = k * l.length := by
  intro l
  induction l with
  | nil => simp
  | cons x xs ih => simp only [List.map_cons, List.flatten_cons, List.length_append, ih, be_length, List.length_cons]; rw [Nat.mul_add, Nat.mul_one, Nat.add_comm]

theorem sha384_length (b : Bytes) : (sha384 b).length = 48 := by
  have h := fun (m : List Bytes) => shaBlocks_length sha384P m (((shaPrimes.drop 8).take 8).map (rootFrac 2)) (by simp only [List.length_map]; rfl)
  simp only [sha384, sha2, List.length_take, flatten_be, h]; rfl

/-- The MAC that a request carries. -/
def macA (s : State) (q : Bytes) : Bytes := svcMacOf s (zeros 48) 0 (q ++ zeros 16)

theorem macA_length (s : State) (q : Bytes) : (macA s q).length = 16 := by
  simp [macA, svcMacOf, hmacSha384, hmac, List.length_take, sha384_length]

theorem macA_right {s : State} {q : Bytes} (h : 48 ≤ q.length) : svcMacRight s (zeros 48) (q ++ macA s q) = true := by
  have hm := macA_length s q
  have e1 : (q ++ macA s q).drop ((q ++ macA s q).length - 16) = macA s q := by
    rw [List.length_append, hm, Nat.add_sub_cancel]; exact List.drop_left' rfl
  have e2 : svcMacOf s (zeros 48) 0 (q ++ macA s q) = macA s q := by
    have t1 : (q ++ macA s q).take ((q ++ macA s q).length - 16) = q := by
      rw [List.length_append, hm, Nat.add_sub_cancel]; exact List.take_left' rfl
    have t2 : (q ++ zeros 16).take ((q ++ zeros 16).length - 16) = q := by
      rw [List.length_append, show (zeros 16).length = 16 from rfl, Nat.add_sub_cancel]; exact List.take_left' rfl
    simp only [macA, svcMacOf, t2] at t1 ⊢
    rw [t1]
  unfold svcMacRight
  rw [e1, e2]
  simp only [beq_self_eq_true, Bool.and_true, decide_eq_true_eq, List.length_append, hm]
  omega

/-- A request up to its trailer. -/
def reqHead (op a0 a1 : Nat) (body : Bytes) : Bytes :=
  le 4 0x33515A41 ++ le 1 op ++ le 1 2 ++ zeros 2 ++ le 8 Config.hull ++ zeros 4 ++ le 2 body.length ++ zeros 2 ++ le 8 a0 ++ le 8 a1 ++ body

theorem reqHead_length (op a0 a1 : Nat) (body : Bytes) : (reqHead op a0 a1 body).length = 40 + body.length := by
  simp only [reqHead, List.length_append, le_length, zeros, List.length_replicate]

/-- What the MAC of a request with SEQ 1 covers. -/
def reqA (op a0 a1 : Nat) (body : Bytes) : Bytes := reqHead op a0 a1 body ++ le 8 1

/-- A service request with its trailer. -/
def svcReq (s : State) (op a0 a1 : Nat) (body : Bytes) : Bytes := (zeros 12 ++ [0x88, 0xB6]) ++ (reqA op a0 a1 body ++ macA s (reqA op a0 a1 body))

/-- A state with the enclosure key of zeros and one request waiting. -/
def svcAt (s : State) (fs : List Bytes) : State :=
  { s with cox := { s.cox with enclosure := some (zeros 48), svcSeq := 0, dropped := false }, svc := { s.svc with requests := fs, init := none } }

/-- What Cox accepts of it. -/
def svcGone (s : State) : State := { svcAt s [] with cox := { (svcAt s []).cox with svcSeq := 1 } }

theorem reqA_length (op a0 a1 : Nat) (body : Bytes) : (reqA op a0 a1 body).length = 48 + body.length := by
  simp only [reqA, List.length_append, le_length, reqHead_length]; omega

theorem svcAccept_of {s : State} {op a0 a1 : Nat} {body : Bytes} (hc : domainOn s .cox = true)
    (h : (svcLen (svcReq s op a0 a1 body) == body.length && svcAuth (svcReq s op a0 a1 body)) = true) :
    svcAccept (svcAt s []) (svcReq s op a0 a1 body) = some (svcGone s) := by
  simp only [Bool.and_eq_true, beq_iff_eq] at h
  have hr := reqA_length op a0 a1 body
  have hm := macA_length s (reqA op a0 a1 body)
  have e1 : svcSigned (svcReq s op a0 a1 body) = reqA op a0 a1 body ++ macA s (reqA op a0 a1 body) := by
    have : svcBody (svcReq s op a0 a1 body) = reqA op a0 a1 body ++ macA s (reqA op a0 a1 body) := List.drop_left' rfl
    rw [svcSigned, this, h.1, if_pos h.2]
    exact List.take_of_length_le (by rw [List.length_append, hr, hm]; omega)
  have e2 : svcSeqOf (reqA op a0 a1 body ++ macA s (reqA op a0 a1 body)) = 1 := by
    rw [svcSeqOf, List.length_append, hr, hm, reqA]
    exact fld_at (a := reqHead op a0 a1 body) (b := le 8 1) (by rw [List.append_assoc]) rfl (by rw [reqHead_length]; omega) (by decide)
  have e3 : svcMacRight (svcAt s []) (zeros 48) (reqA op a0 a1 body ++ macA s (reqA op a0 a1 body)) = true :=
    macA_right (s := s) (by rw [hr]; omega)
  have hc' : domainOn (svcAt s []) .cox = true := hc
  simp only [svcAccept, e1, e2, show (svcAt s []).cox.enclosure = some (zeros 48) from rfl, show (svcAt s []).cox.dropped = false from rfl,
    show (svcAt s []).cox.svcSeq = 0 from rfl, e3, h.2, hc']
  rfl

/-- What a turn needs of the state and the request, as a test. -/
def svcTest (s : State) (op a0 a1 : Nat) (body : Bytes) : Bool :=
  let f := svcReq s op a0 a1 body
  coreLive s && s.pwr.dev != 7 && domainOn s .cox && svcOp f == op && svcLen f == body.length && svcAuth f && svcArg0 f == a0 && svcArg1 f == a1

theorem serviceTurn_of {s : State} {op a0 a1 : Nat} {body : Bytes} (h : svcTest s op a0 a1 body = true) :
    ServiceTurn (svcAt s [svcReq s op a0 a1 body]) op (svcReq s op a0 a1 body) (svcGone s) := by
  simp only [svcTest, Bool.and_eq_true, beq_iff_eq, bne_iff_ne, ne_eq] at h
  obtain ⟨⟨⟨⟨⟨⟨⟨h1, h2⟩, h3⟩, h4⟩, h5⟩, h6⟩, h7⟩, h8⟩ := h
  refine ⟨h1, h2, h6, [], ?_, svcAccept_of (s := s) (op := op) (a0 := a0) (a1 := a1) (body := body) h3 (by rw [h5, h6]; simp)⟩
  show takeFrame op [svcReq s op a0 a1 body] = _
  simp [takeFrame, h4]

theorem test_hyps_ServiceCommandsComplete_turns : ∀ q ∈ [(0x10, 0, zeros 145), (0x11, 1, zeros 56), (0x12, 0, zeros 32), (0x13, 5, []), (0x20, 1024, [7]), (0x28, 0, zeros 1024),
    (0x29, 0, []), (0x30, 0, []), (0x31, 0, [])], ServiceTurn (svcAt kvOn [svcReq kvOn q.1 q.2.1 0 q.2.2]) q.1 (svcReq kvOn q.1 q.2.1 0 q.2.2) (svcGone kvOn) ∧
    svcLen (svcReq kvOn q.1 q.2.1 0 q.2.2) = q.2.2.length ∧ svcArg0 (svcReq kvOn q.1 q.2.1 0 q.2.2) = q.2.1 := by
  intro q h
  simp only [List.mem_cons, List.not_mem_nil, or_false] at h
  rcases h with rfl | rfl | rfl | rfl | rfl | rfl | rfl | rfl | rfl <;> exact ⟨serviceTurn_of (by decide +kernel), by decide +kernel, by decide +kernel⟩

theorem test_hyps_ServiceCommandsComplete_conditions : (svcGone kvOn).cox.dropped = false ∧ (nsOf (svcGone kvOn) 5).isSome = true ∧ (svcGone kvOn).pwr.dev = 4 ∧
    pieceStatus (svcReq kvOn 0x20 1024 0 [7]) imageLimit = ST.ok ∧ pieceStatus (svcReq kvOn 0x28 0 0 (zeros 1024)) rigLimit = ST.ok ∧
    gathered (svcGone kvOn).svc.rig 0 = some [] ∧ flag kvOn F.RIG_STATUS_BUSY = false ∧ flag kvOn F.RIG_STATUS_SWAPPING = false := by decide +kernel

theorem test_hyps_ServiceCommandsComplete_stage :
    ∃ v, LoaderEnds (setF (crewStore (svcGone kvOn) (getF (svcGone kvOn) F.RIG_SRC_ADDR_ADDR) []) F.RIG_SRC_LEN_BYTES 0) v := loader_of (by decide +kernel)

theorem test_hyps_ServiceCommandsComplete_init : ∀ f, f = svcReq kvOn 0x11 1 0 (zeros 56) → ∀ s, s = svcAt kvOn [f] → initWaiting s = none ∧ (svcGone kvOn).kv.tenants = [] ∧
    adminBodyBad (initCapsule (svcGone kvOn) f) = false ∧ (check9 (svcGone kvOn) (initCapsule (svcGone kvOn) f)).2 = none := by rintro f rfl s rfl; decide +kernel

theorem test_hyps_ServiceCommandsComplete_exists : ∀ s, s = { kvOn with kv := { kvOn.kv with tenants := [⟨1, [], 0, [], 1⟩] } } →
    ServiceTurn (svcAt s [svcReq s 0x11 1 0 (zeros 56)]) 0x11 (svcReq s 0x11 1 0 (zeros 56)) (svcGone s) ∧ (svcGone s).kv.tenants ≠ [] := by
  rintro s rfl; exact ⟨serviceTurn_of (by decide +kernel), by decide +kernel⟩

/-- `kvOn` with a gathered bundle of four bytes and a fallback map of the active image. -/
def imageOn : State := { kvOn with svc := { kvOn.svc with image := [(0, [1, 2, 3, 4])] }, cox := { kvOn.cox with fallback := some ⟨[], 0, crc32c kvOn.cox.image, 0⟩ } }

theorem test_hyps_ServiceCommandsComplete_image : ∀ f, f = svcReq imageOn 0x21 4 (crc32c [1, 2, 3, 4]) [] → ServiceTurn (svcAt imageOn [f]) 0x21 f (svcGone imageOn) ∧
    imageWhole (svcGone imageOn) f = some [1, 2, 3, 4] ∧ installCheck (svcGone imageOn) 4 (crc32c [1, 2, 3, 4]) [1, 2, 3, 4] false ≠ 4 ∧ svcArg1 f < 2 ^ 32 := by
  rintro f rfl; exact ⟨serviceTurn_of (by decide +kernel), by decide +kernel⟩

theorem test_hyps_ServiceCommandsComplete_leave : ∀ s, s = { kvOn with pwr := { kvOn.pwr with dev := 6 } } →
    ServiceTurn (svcAt s [svcReq s 0x32 0 0 []]) 0x32 (svcReq s 0x32 0 0 []) (svcGone s) ∧ (svcGone s).pwr.dev = 6 ∧ (svcGone s).media.readOnly = none := by
  rintro s rfl; exact ⟨serviceTurn_of (by decide +kernel), by decide +kernel⟩

/-- `imageOn` in HALTED with no startable image. -/
def loaderOn : State := { imageOn with pwr := { imageOn.pwr with dev := 7 }, cox := { imageOn.cox with verified := false } }

theorem test_hyps_ServiceCommandsComplete_loader : loaderServes loaderOn = true ∧ domainOn loaderOn .svc = true ∧ ∀ q ∈ [(0x20, 0, 0, [9]), (0x21, 4, crc32c [1, 2, 3, 4], [])],
    svcOp (svcReq loaderOn q.1 q.2.1 q.2.2.1 q.2.2.2) = q.1 ∧ svcAccept (svcAt loaderOn []) (svcReq loaderOn q.1 q.2.1 q.2.2.1 q.2.2.2) = some (svcGone loaderOn) ∧
    (q.1 = 0x20 ∨ imageWhole (svcGone loaderOn) (svcReq loaderOn q.1 q.2.1 q.2.2.1 q.2.2.2) = some [1, 2, 3, 4]) := by
  refine ⟨by decide +kernel, by decide +kernel, ?_⟩
  intro q h
  simp only [List.mem_cons, List.not_mem_nil, or_false] at h
  rcases h with rfl | rfl <;> exact ⟨by decide +kernel, svcAccept_of (by decide +kernel) (by decide +kernel), by decide +kernel⟩

theorem test_hyps_ServiceCommandsComplete_responder : ∀ q ∈ [(1, 0, 0), (2, 0, 0), (3, 0, 1), (3, 0, 16), (4, 63, 64512)], ∀ f, f = svcReq live q.1 q.2.1 q.2.2 [] →
    ∀ s, s = { setFs live [(F.SVC_CTRL_RESPOND, 1)] with svc := { live.svc with responder := [f] } } →
    ResponderTurn s q.1 f { s with svc := { s.svc with responder := [] } } ∧ svcArg0 f = q.2.1 ∧ svcArg1 f = q.2.2 := by
  intro q h f hf s hs; rw [hs]
  have hd : domainOn (setFs live [(F.SVC_CTRL_RESPOND, 1)]) .svc = true ∧ flag (setFs live [(F.SVC_CTRL_RESPOND, 1)]) F.SVC_CTRL_RESPOND = true := by decide +kernel
  refine ⟨⟨hd.1, hd.2, [], ?_, rfl⟩, ?_⟩
  · show takeFrame q.1 [f] = _
    have : svcOp f = q.1 := by
      rw [hf]; simp only [List.mem_cons, List.not_mem_nil, or_false] at h
      rcases h with rfl | rfl | rfl | rfl | rfl <;> decide +kernel
    simp [takeFrame, this]
  · rw [hf]; simp only [List.mem_cons, List.not_mem_nil, or_false] at h
    rcases h with rfl | rfl | rfl | rfl | rfl <;> decide +kernel

/-- A service frame without a trailer, to a hull number. -/
def frameS (hull op : Nat) : Bytes :=
  zeros 12 ++ [0x88, 0xB6] ++ le 4 0x33515A41 ++ le 1 op ++ le 1 0 ++ zeros 2 ++ le 8 hull ++ zeros 4 ++ le 2 0 ++ zeros 2 ++ zeros 16 ++ zeros 20

/-- `live` with the service port on. -/
def portS (fs : List (Fld × Nat)) : State := setFs live ([(F.SVC_CTRL_ENABLE, 1), (F.SVC_CTRL_RESPOND, 1)] ++ fs)

theorem test_hyps_ServicePortCompletes_service (hh : Config.hull = 100) : ∀ q ∈ [(2 ^ 64 - 1, 1), (100, 4), (100, 0x10), (100, 0x7F)], ∀ f, f = frameS q.1 q.2 →
    64 ≤ f.length + 4 ∧ f.length + 4 ≤ 1518 ∧ beNat (slice f 12 2) = 0x88B6 ∧ bitAt (fld f 19 1) 0 = false ∧ svcMalformed f = false ∧ svcOp f = q.2 ∧ fld f 22 8 = q.1 ∧
    (fld f 22 8 = Config.hull ∨ q.1 = 2 ^ 64 - 1) := by
  intro q h f hf; rw [hf, hh]
  simp only [List.mem_cons, List.not_mem_nil, or_false] at h
  rcases h with rfl | rfl | rfl | rfl <;> decide +kernel

theorem test_hyps_ServicePortCompletes_crew : ∀ c ∈ [0, 1], ∀ u, u = portS [(F.SVC_CTRL_CREW, c)] → domainOn u .svc = true ∧ flag u F.SVC_CTRL_ENABLE = true ∧
    flag u F.SVC_CTRL_CREW = (c == 1) ∧ flag u F.SVC_CTRL_RESPOND = true ∧ loaderServes u = false ∧ svcCrew 0x10 = true ∧ svcResponder 0x7F = false ∧ svcCrew 0x7F = false ∧
    loaderServes { u with pwr := { u.pwr with dev := 7 }, cox := { u.cox with verified := false } } = true ∧ beNat (slice (frameA 8 0) 12 2) = 0x800 ∧
    leNat (slice (frameA 8 0) 0 6) = 2 ^ 48 - 1 ∧ storedBytes u 2 none + 64 ≤ 16384 ∧ flag u F.SVC_RXR_CFG_ENABLE = false := by
  intro c h u hu; subst hu; revert c; decide +kernel

theorem test_hyps_ServicePortCompletes_send : ∀ s, s = { portS [(F.SVC_TXR_CFG_ENABLE, 1), (F.SVC_TXR_CFG_LOG2S, 2), (F.SVC_TXR_BASE_ADDR, 0x4000400), (F.SVC_TXR_PI_INDEX, 1)] with mem := netMem } →
    s.svc.sending = none ∧ s.svc.replies = [] ∧ svcTxPosted s = true ∧ (readTx s 2 0 F.SVC_TXR_BASE_ADDR F.SVC_TXR_CFG_LOG2S F.SVC_TXR_CI_INDEX 1514).2.1 = 0 := by rintro s rfl; decide +kernel

theorem test_hyps_ServicePortCompletes_taken : ∀ s, s = portS [(F.SVC_CTRL_CREW, 1)] → ∃ t, StoreTakes s 2 0 (frameA 8 0) 0 false t := by
  rintro s rfl
  exact ⟨_, Or.inr ⟨by simp only [StoreRoom]; decide +kernel, Or.inl ⟨fun _ _ => Or.inl (by decide +kernel), rfl⟩⟩⟩

theorem getF_setWords (s : State) (f : Nat → Fld) (b : Bytes) (g : Fld) (h : ∀ i < b.length / 4, fldKey (f i) ≠ fldKey g) : getF (setWords s f b) g = getF s g := by
  have key : ∀ l : List Nat, (∀ i ∈ l, fldKey (f i) ≠ fldKey g) → ∀ s, getF (l.foldl (fun s i => setF s (f i) (fld b (4 * i) 4)) s) g = getF s g := by
    intro l
    induction l with
    | nil => intro _ s; rfl
    | cons x xs ih =>
      intro hl s
      rw [List.foldl_cons, ih (fun i hi => hl i (List.mem_cons_of_mem _ hi)), getF_setF_other _ _ (hl x List.mem_cons_self)]
  exact key _ (fun i hi => h i (List.mem_range.1 hi)) s

theorem setWords_cox (s : State) (f : Nat → Fld) (b : Bytes) : (setWords s f b).cox = s.cox := by
  have key : ∀ (l : List Nat) (s : State), (l.foldl (fun s i => setF s (f i) (fld b (4 * i) 4)) s).cox = s.cox := by
    intro l
    induction l with
    | nil => intro s; rfl
    | cons x xs ih => intro s; rw [List.foldl_cons, ih]; rfl
  exact key _ s

/-- A start in step 4: the image has verified, nothing but SVC and Cox is on, the thresholds as a board sets them. -/
def startOn (ds : List Domain) : State :=
  let s := setFs State.reset [(F.PWR_THERM_T_T1, 90), (F.PWR_THERM_T_T2, 100), (F.PWR_THERM_T_T3, 125)]
  { s with pwr := { s.pwr with start := 4, on := [.aon, .svc, .cox] ++ ds }, cox := { s.cox with verified := true } }

theorem thresholds_of {s : State} (h : (takeBoard s).cox.board = [] ∧ takeBoard s = s) : thresholdsOk (loadBoard s) = thresholdsOk s := by
  have hb : s.cox.board = [] := h.2 ▸ h.1
  have hk : ∀ i, kvGet ([] : List (Nat × Nat)) i = none := fun _ => rfl
  simp only [loadBoard, hb, hk]; rfl

theorem test_hyps_StartsAndResetsComplete_power : State.reset.pwr.start = 1 ∧ State.reset.pj.dumping = none ∧ (State.reset.pwr.resetHold = none ∧ State.reset.pwr.dev = 1) ∧
    (∀ ds ∈ [[], [Domain.core, .dram]], (2 ≤ (startOn ds).pwr.start ∧ (startOn ds).pwr.resetHold = none ∧ (startOn ds).pwr.dev = 1) ∧ (startOn ds).cox.verified = true ∧
      domainOn (startOn ds) .lane0 = false ∧ domainOn (startOn ds) .flash = false) ∧
    domainOn { startOn [] with pwr := { (startOn []).pwr with on := [.aon, .svc] } } .cox = false := by decide +kernel

/-- FLASH is the last of the three, and the board's thresholds are in order: the crew is released. -/
theorem test_hyps_StartsAndResetsComplete_release : ∀ u, u = { domainUp (startOn [.core, .dram]) .flash with pins := { (startOn []).pins with flashPwrEn := true } } →
    (domainOn u .core && domainOn u .dram && domainOn u .flash) = true ∧ u.cox.verified = true ∧ u.cox.releasedAt = none ∧
    thresholdsOk (loadBoard (takeBoard (loadService (loadKeys (loadCrew u))))) = true := by
  intro u hu
  have h0 : u.cox.board = [] ∧ (List.range 6).all (fun i => (cfgLookup u (0x10000001 + i)).isNone) = true ∧ (bundleSection u.cox.image 2).isNone = true := by subst hu; decide +kernel
  refine ⟨by subst hu; decide +kernel, by subst hu; decide +kernel, by subst hu; decide +kernel, ?_⟩
  have hc : loadCrew u = u := by
    simp only [loadCrew]; cases h : bundleSection u.cox.image 2 with
    | none => rfl
    | some x => rw [h] at h0; simp at h0
  rw [hc]
  generalize hv : loadService (loadKeys u) = v
  have hcox : v.cox = u.cox := by
    rw [← hv, loadService, setWords_cox]; simp [loadKeys, setSlot, slotShow]
  have hl : ∀ i < 6, cfgLookup v (0x10000001 + i) = none := by
    intro i hi
    have : cfgLookup v (0x10000001 + i) = cfgLookup u (0x10000001 + i) := by
      simp only [cfgLookup, cfgInUse, cfgKept, settingsVer, hcox]; rfl
    rw [this]; exact Option.isNone_iff_eq_none.1 (List.all_eq_true.1 h0.2.1 i (List.mem_range.2 hi))
  have ht : takeBoard v = v := by
    have := hl 0 (by decide); have := hl 1 (by decide); have := hl 2 (by decide); have := hl 3 (by decide); have := hl 4 (by decide); have := hl 5 (by decide)
    simp_all [takeBoard, List.range_succ]
  rw [ht, thresholds_of ⟨by rw [ht, hcox]; exact h0.1, ht⟩]
  have hw : ∀ g, fldKey F.SVC_ADDR_ADDR ≠ fldKey g → (∀ i < 25, fldKey (F.SVC_IDKEY_BYTES i) ≠ fldKey g) → getF v g = getF (loadKeys u) g := by
    intro g h1 h2
    rw [← hv, loadService, getF_setWords, getF_setF_other _ _ h1]
    intro i hi
    have : (fit (fit (Config.ecPublic Config.identityKey) 97) 100).length = 100 := by
      simp only [fit, List.length_take, List.length_append, zeros, List.length_replicate]; omega
    rw [this] at hi; exact h2 i hi
  simp only [thresholdsOk]
  rw [hw _ (by decide) (by decide), hw _ (by decide) (by decide), hw _ (by decide) (by decide)]
  subst hu; decide +kernel

/-- An image of four empty sections, of the first key set. -/
def imageA : Bytes :=
  let digest := be 48 0x38b060a751ac96384cd9327eb1b1e36a21fdb71114be07434c0cc7bf63f6e1da274edebfe76f65fbd51ad2f14898b95b
  le 4 0x33465A41 ++ [3, 0, 4, 0] ++ le 4 36864 ++ zeros 12 ++ le 2 0x7160 ++ le 2 1 ++ zeros 36 ++ ([(3, 16384, 16384), (2, 32768, 16), (1, 36864, 0), (4, 36864, 0)].map
    fun q => le 4 q.1 ++ zeros 4 ++ le 4 q.2.1 ++ le 4 q.2.2 ++ digest).flatten

/-- It passes the checks of Table 19-2 where the signatures do and the key set is the one whose digest is fused, which are Config's. -/
theorem bootCheck_of (hv : ∀ k m g, Config.ecdsaVerify k m g = true) (hl : ∀ k m g, Config.lmsVerify k m g = true) (hk : Config.keySetDigest 0 = sha384 []) {s : State}
    (h : (s.cox.image == imageA && !(s.cox.revoked.contains 0) && s.cox.svnFused == 0 && (newestCopy (s.cox.copies.filter fun c => some c.copy != s.cox.keptOld)).isNone) = true) :
    bootCheck s = 0 := by
  simp only [Bool.and_eq_true, beq_iff_eq, Bool.not_eq_true', Option.isNone_iff_eq_none] at h
  obtain ⟨⟨⟨h1, h2⟩, h3⟩, h4⟩ := h
  have e : fld imageA 5 1 = 0 ∧ sha384 (slice imageA 1024 164) = sha384 [] := by decide +kernel
  unfold bootCheck
  simp only [h1, h3, h4, e.1, e.2, h2, hk, hv, hl]
  decide +kernel

/-- A wake with that image, with a checkpoint or without, and what Cox starts with. -/
def wakeA (image : Bytes) (ckpt : Bool) : State :=
  let t := setFs live [(F.PWR_STATUS_STATE, 1), (F.PWR_THERM_T_T1, 90), (F.PWR_THERM_T_T2, 100), (F.PWR_THERM_T_T3, 125)]
  { t with pwr := { t.pwr with waking := true, start := 0, on := [.aon, .svc] }, cox := { t.cox with verified := false, image := image, releasedAt := none }
           media := { t.media with ckpt := if ckpt then some ⟨1, [], [], [], [], []⟩ else none } }
def wakeU (image : Bytes) (ckpt : Bool) : State :=
  let w := domainUp (domainUp (wakeA image ckpt) .svc) .cox
  { w with pwr := { w.pwr with start := 3, dev := 1 } }

theorem test_hyps_StartsAndResetsComplete_wake : ((wakeA [] true).pwr.waking = true ∧ (wakeA [] true).pwr.start = 0 ∧ (wakeU [] true).cox.verified = false ∧ (wakeU [] true).cox.phase = 0) ∧
    bootCheck (drawNonce (wakeU [] true)) = 1 ∧ ((wakeA imageA true).pwr.waking = true ∧ (wakeA imageA true).pwr.start = 0 ∧ (wakeU imageA true).cox.verified = false ∧
      (wakeU imageA true).cox.phase = 0) := by decide +kernel

theorem test_hyps_StartsAndResetsComplete_image (hv : ∀ k m g, Config.ecdsaVerify k m g = true) (hl : ∀ k m g, Config.lmsVerify k m g = true)
    (hk : Config.keySetDigest 0 = sha384 []) : ∀ c, bootCheck (drawNonce (wakeU imageA c)) = 0 := by
  intro c; apply bootCheck_of hv hl hk; cases c <;> decide +kernel

/-- The domains are up. -/
def wakeUp (ckpt : Bool) (fail : Nat) : State :=
  let y := ([Domain.core, .dram, .flash, .lane0]).foldl domainUp (bootDone (drawNonce (wakeU imageA ckpt)))
  dramTrain { y with pwr := { y.pwr with mtimeAt := y.now }, pins := { y.pins with flashPwrEn := true } } fail

theorem test_hyps_StartsAndResetsComplete_wakeUp : (wakeUp true 1).pwr.dev = 7 ∧ ∀ c, (wakeUp c 0).pwr.dev ≠ 7 ∧ (wakeUp c 0).cox.verified = true ∧
    (wakeUp c 0).cox.releasedAt = none ∧ (domainOn (wakeUp c 0) .core && domainOn (wakeUp c 0) .dram && domainOn (wakeUp c 0) .flash) = true := by decide +kernel

/-- The load of the service address and the identity key, word by word. -/
theorem loadService_words (s : State) : loadService s = (List.range 25).foldl (fun s i => setF s (F.SVC_IDKEY_BYTES i) (fld (fit (fit (Config.ecPublic Config.identityKey) 97) 100)
    (4 * i) 4)) (setF s F.SVC_ADDR_ADDR (leNat (0x02 :: be 5 (Config.hull % 2 ^ 40)))) := by
  have h : (fit (fit (Config.ecPublic Config.identityKey) 97) 100).length = 100 := by
    simp only [fit, List.length_take, List.length_append, zeros, List.length_replicate]; omega
  simp only [loadService, setWords, h]

/-- Cox's last steps before the crew is released. -/
def wakeX (ckpt : Bool) : State := loadBoard (takeBoard (loadService (loadKeys (loadCrew (wakeUp ckpt 0)))))

theorem test_hyps_StartsAndResetsComplete_thresholds : ∀ c, thresholdsOk (wakeX c) = true := by
  intro c; simp only [wakeX, loadService_words]; cases c <;> decide +kernel

/-- RECOVERY with a checkpoint or without, with a record of this device in the journal or none. The kernel does not evaluate the load of 32 channels
between `wakeX` and here; the clauses from RECOVERY on are witnessed at this state. -/
def wakeY (ckpt : Bool) (rec : Bytes) : State := { setFs live (if rec = [] then [] else [(F.PJ_HEAD_OFFSET, 128)]) with
  mem := memPut [] ringBase rec
  pwr := { live.pwr with dev := 2 }
  pj := { live.pj with units := 1, chans := [{ chanC with rxSeq := 0 }] }
  media := { live.media with ckpt := if ckpt then some ⟨1, [], [], [], [], []⟩ else none } }
def wakeR (rec : Bytes) : State :=
  let y := wakeY true rec
  let z := scanEnd (adoptScan y [] (((((scanStrides y).map strideItems).flatten.filter fun i => decide (scanSeq i ≥ 1)).foldr insertItem []).foldl applyItem ([], [], [])))
  if z.pj.replay = 0 then replayScan z else z

theorem test_hyps_StartsAndResetsComplete_recovery : (∀ c, startEpoch (wakeY c []) = 0 ∧ coreLive (wakeY c []) = true ∧ (wakeY c []).pwr.dev = 2 ∧ (wakeY c []).pwr.fullScan = false ∧
      (wakeY c []).media.ckpt = (if c then some ⟨1, [], [], [], [], []⟩ else none)) ∧
    (wakeR []).pj.replay = 1 ∧ ownJournaled (wakeR []) = false ∧ coreLive (wakeR []) = true ∧ (wakeR []).pwr.dev = 3 ∧ resolvesNoSet (replayLoad (wakeR [])) = false := by
  decide +kernel

theorem test_hyps_StartsAndResetsComplete_waits : (wakeR (recOf 1 (zeros 64))).pj.replay = 1 ∧ ownJournaled (wakeR (recOf 1 (zeros 64))) = true ∧
    hellosIn (wakeR (recOf 1 (zeros 64))) = false := by decide +kernel

/-- `live` in a power state. -/
def powerOn (st : Nat) (fs : List (Fld × Nat)) : State := setFs live ([(F.PWR_STATUS_STATE, st)] ++ fs)

theorem test_hyps_StartsAndResetsComplete_go : ∀ core ∈ [0, 7], ∀ st ∈ [2, 3], ∀ s, s = { powerOn st [] with cores := { (powerOn st []).cores with waiting := [2, 3, 4, 5, 6, 7] } } →
    ∀ v, v = coreActs s core → StoreTurn s core F.PWR_CTRL_GO.addr v ∧ flag v F.PWR_STATUS_BUSY = false ∧ getF v F.PWR_STATUS_STATE = st ∧ getF v F.PWR_THERM_STEP < 3 ∧
    getF v F.PJ_HEAD_OFFSET = getF v F.PJ_TAIL_OFFSET ∧ dockReady (setF v F.PWR_CTRL_TARGET 1) = true ∧ (core = 7 ∨ busyCores (setF v F.PWR_CTRL_TARGET 2) = 0) := by
  intro core h st h1 s hs v hv; subst hv; subst hs
  refine ⟨store_of ?_, ?_⟩ <;> revert core st <;> decide +kernel

theorem test_hyps_StartsAndResetsComplete_down : ∀ s, s = { live with pwr := { live.pwr with move := some .deepDock } } → s.pwr.move = some .deepDock := by rintro s rfl; rfl

theorem test_hyps_AlwaysOnDomainCompletes_wakes : ∀ s, s = powerOn 1 [(F.AON_WAKE_AT_SECONDS, 9)] → asleep s = true ∧ s.pwr.move = none ∧ s.pwr.waking = false ∧
    getF s F.AON_WAKE_AT_SECONDS ≠ 0 ∧ asleep (reach s 5) = true ∧ asleep (powerOn 3 []) = false := by rintro s rfl; decide +kernel

theorem test_hyps_AlwaysOnDomainCompletes_docked : ∀ s, s = { live with pwr := { live.pwr with wakes := [(101, 5, 7)] } } → coreLive s = true ∧
    (s.pwr.wakes.find? fun w => w.1 == 101) = some (101, 5, 7) := by rintro s rfl; decide +kernel

theorem test_hyps_AlwaysOnDomainCompletes_watchdog : ∀ core ∈ [0, 7], ∀ e ∈ [0, 1], ∀ s, s = setFs live [(F.AON_WDOG_ENABLE, e)] →
    StoreTurn s core F.AON_WDOG_ENABLE.addr (coreActs s core) ∧ StoreTurn s core F.AON_WDOG_KICK.addr (coreActs s core) ∧ flag (coreActs s core) F.AON_WDOG_ENABLE = (e == 1) := by
  intro core h e h1 s hs; subst hs
  refine ⟨store_of ?_, store_of ?_, ?_⟩ <;> revert core e <;> decide +kernel

theorem test_hyps_AlwaysOnDomainCompletes_expiry : ∀ s, s = { live with pwr := { live.pwr with wdogAt := some 9 } } → s.pwr.wdogAt = some 9 ∧ s.pj.dumping = none ∧
    (pentTrigger (reach s 9) 2 0).pj.dumping = none ∧ s.pins.pfailN = true ∧ ({ s with pj := { s.pj with dumping := some (0, 3) } } : State).pj.dumping.isSome = true := by
  rintro s rfl; decide +kernel

theorem test_hyps_AlwaysOnDomainCompletes_thermal : ∀ s, s = setFs live [(F.PWR_THERM_T_T1, 90), (F.PWR_THERM_T_T2, 100), (F.PWR_THERM_T_T3, 125)] →
    s.pwr.resetHold = none ∧ tjOf 128 = 128 ∧ tjOf 127 = 127 ∧ tjOf 99 < 100 ∧ tjOf 511 < 100 ∧ ({ s with pwr := { s.pwr with resetHold := some 5 } } : State).pwr.resetHold = some 5 ∧
    getF (setF s F.PWR_THERM_TJ 127) F.PWR_THERM_STEP < stepReached (setF s F.PWR_THERM_TJ 127) (tjOf 127) ∧
    stepReached (setF s F.PWR_THERM_TJ 89) (tjOf 89) ≤ getF (setF s F.PWR_THERM_TJ 89) F.PWR_THERM_STEP ∧
    ({ s with pwr := { s.pwr with coolSince := some 4 } } : State).pwr.coolSince = some 4 := by rintro s rfl; decide +kernel

/-- A request on channel `c` of the mailbox. -/
def mailOn (c op : Nat) (p : Bytes) (s : State) : State :=
  let b := le 2 op ++ zeros 2 ++ le 4 p.length ++ zeros 8 ++ p
  setWords (setF s (F.COX_MBc_STATUS_BUSY c) 1) (F.COX_MBc_REQ_BYTES c) (b ++ zeros (alignUp b.length 4 - b.length))

theorem mail_of {s : State} {op lo hi c : Nat} {p : Bytes} (h : (domainOn s .cox && s.cox.verified && s.cox.loading.isNone && s.pj.dumping.isNone && mbNext s == some c && mbOp (mbBytes s c) == op &&
    fld (mbBytes s c) 2 2 == 0 && decide (lo ≤ mbLen (mbBytes s c)) && decide (mbLen (mbBytes s c) ≤ hi) && mbPayload (mbBytes s c) == p) = true) : MailTurn s op lo hi c p := by
  simp only [Bool.and_eq_true, beq_iff_eq, decide_eq_true_eq, Option.isNone_iff_eq_none] at h
  obtain ⟨⟨⟨⟨⟨⟨⟨⟨⟨h1, h2⟩, h3⟩, h0⟩, h4⟩, h5⟩, h6⟩, h7⟩, h8⟩, h9⟩ := h
  exact ⟨h1, h2, h3, h0, h4, h5, h6, h7, h8, h9.symm⟩

theorem test_hyps_CoxCommandsComplete_go : ∀ core ∈ [0, 7], ∀ c ∈ [0, 3], StoreTurn live core (F.COX_MBc_CTRL_GO c).addr (coreActs live core) ∧
    flag (coreActs live core) (F.COX_MBc_STATUS_BUSY c) = false := by
  intro core h c h1; refine ⟨store_of ?_, ?_⟩ <;> revert core c <;> decide +kernel

/-- `live` with a settings record and an enclosure key of zeros. -/
def coxOn : State := { live with cox := { live.cox with enclosure := some (zeros 48), copies := [⟨0, 0, 3, [⟨0x20000000, false, 1, [7]⟩], 96⟩] } }

theorem test_hyps_CoxCommandsComplete_turns : ∀ q ∈ [(0, 1, 4, 4, le 4 0x20000000), (3, 2, 8, 1000, le 4 0x20000000 ++ le 4 1), (0, 0x10, 4, 4, le 4 0x80000001), (3, 0x20, 0, 0, []),
      (0, 0x40, 32, 32, zeros 32), (0, 0x41, 0, 0, []), (3, 0x50, 8, 8, le 8 0x1000200000), (3, 0x71, 4, 4, le 4 9), (0, 0x70, 1, 1, [0]), (3, 0x70, 1, 1, [1])],
    MailTurn (mailOn q.1 q.2.1 q.2.2.2.2 coxOn) q.2.1 q.2.2.1 q.2.2.2.1 q.1 q.2.2.2.2 := by
  intro q h
  simp only [List.mem_cons, List.not_mem_nil, or_false] at h
  rcases h with rfl | rfl | rfl | rfl | rfl | rfl | rfl | rfl | rfl | rfl <;> exact mail_of (by decide +kernel)

theorem test_hyps_CoxCommandsComplete_conditions : ∀ s, s = mailOn 0 1 (le 4 0x20000000) coxOn → coxKey 0x20000000 = false ∧ cfgLookup s 0x20000000 = some (⟨0x20000000, false, 1, [7]⟩, 0) ∧
    (cfgAppend s 0x20000000 true []).isSome = true ∧ domainOn s .flash = true ∧ bitList 0x80000001 32 = [0, 31] ∧ s.cox.dropped = false ∧
    getF s F.PJ_HEAD_OFFSET = getF s F.PJ_TAIL_OFFSET := by rintro s rfl; decide +kernel

/-- HELLO messages by their labels and lengths. -/
theorem test_hyps_CoxCommandsComplete_sign (hh : Config.hull = 100) : ∀ q ∈ [(true, 170), (false, 299)], ∀ p, p = helloLabel q.1 ++ le 8 100 ++ zeros (q.2 - 18) →
    MailTurn (mailOn 0 0x21 p coxOn) 0x21 0 1008 0 p ∧ fld p 10 8 = Config.hull ∧ p.take 10 = helloLabel q.1 ∧ p.length = q.2 := by
  intro q h p hp; rw [hp, hh]
  simp only [List.mem_cons, List.not_mem_nil, or_false] at h
  rcases h with rfl | rfl <;> exact ⟨mail_of (by decide +kernel), by decide +kernel⟩

theorem test_hyps_CoxCommandsComplete_peerKey : ∀ slot ∈ [16, 4095], ∀ p, p = le 4 7 ++ le 2 slot ++ le 1 1 ++ zeros 178 → ∀ s, s = mailOn 1 0x22 p { coxOn with cox := { coxOn.cox with ephs := [(7, [3])] } } →
    MailTurn s 0x22 185 185 1 p ∧ fld p 7 1 = 0 ∧ fld p 6 1 ≤ 1 ∧ slotOpen (fld p 4 2) = true ∧ (s.cox.ephs.find? fun e => e.1 == fld p 0 4) = some (7, [3]) := by
  intro slot h p hp s hs; rw [hs, hp]
  simp only [List.mem_cons, List.not_mem_nil, or_false] at h
  rcases h with rfl | rfl <;> exact ⟨mail_of (by decide +kernel), by decide +kernel⟩

theorem test_hyps_CoxCommandsComplete_xport : ∀ p, p = le 2 1 ++ le 2 16 → ∀ s, s = mailOn 2 0x23 p kvOn → MailTurn s 0x23 4 4 2 p ∧ rigActive s = true ∧ s.cox.dropped = false ∧
    fld p 0 2 < (activeView s).count 1 ∧ slotOpen (fld p 2 2) = true := by rintro p rfl s rfl; exact ⟨mail_of (by decide +kernel), by decide +kernel⟩

/-- A service payload with SEQ 1 up to its MAC, and the MAC under a key and a nonce of zeros, as evaluated. -/
def payA (op : Nat) (body : Bytes) : Bytes := le 4 0x33515A41 ++ le 1 op ++ le 1 2 ++ zeros 14 ++ le 2 body.length ++ zeros 18 ++ body ++ le 8 1
def paysA : List (Nat × Bytes × Nat) := [(0x30, [], 281999434776922929369299176148170623241), (0x11, zeros 56, 312003492258525390716344228688708622276),
  (0x12, zeros 32, 93763316226505705421998122156504672625), (0x10, zeros 145, 235518501876986799976119006309535130085)]
/-- A state with such a payload in DRAM. -/
def payOn (x : Nat × Bytes × Nat) : State := memWrite coxOn 0x1000200000 (payA x.1 x.2.1 ++ le 16 x.2.2)

theorem payA_mac : ∀ x ∈ paysA, svcMacRight coxOn (zeros 48) (payA x.1 x.2.1 ++ le 16 x.2.2) = true := by
  intro x h
  simp only [paysA, List.mem_cons, List.not_mem_nil, or_false] at h
  rcases h with rfl | rfl | rfl | rfl <;> decide +kernel

theorem test_hyps_CoxCommandsComplete_mac : ∀ dir ∈ [0, 1], ∀ x, x = (0x30, ([] : Bytes), 281999434776922929369299176148170623241) → ∀ p, p = le 1 dir ++ le 8 0x1000200000 ++ le 4 64 →
    ∀ s, s = mailOn 0 0x30 p (payOn x) → MailTurn s 0x30 13 13 0 p ∧ (svcPayload s (fld p 1 8) (fld p 9 4)).2 = some (payA x.1 x.2.1 ++ le 16 x.2.2) ∧ s.cox.enclosure = some (zeros 48) ∧
    fld p 0 1 = dir ∧ 64 ≤ fld p 9 4 := by
  intro dir h x hx p hp s hs; rw [hs, hp, hx]
  simp only [List.mem_cons, List.not_mem_nil, or_false] at h
  rcases h with rfl | rfl <;> exact ⟨mail_of (by decide +kernel), by decide +kernel⟩

theorem test_hyps_CoxCommandsComplete_unmask : ∀ q ∈ [(0x11, 0x32, 120, 1), (0x12, 0x32, 96, 2), (0x10, 0x31, 209, 3)], ∀ x, x = paysA.getD q.2.2.2 (0, [], 0) →
    ∀ p, p = le 8 0x1000200000 ++ le 4 q.2.2.1 → ∀ s, s = mailOn 0 q.2.1 p (payOn x) → MailTurn s q.2.1 12 12 0 p ∧
    (svcPayload s (fld p 0 8) (fld p 8 4)).2.any (fun b => b == payA x.1 x.2.1 ++ le 16 x.2.2 && fld b 4 1 == q.1 && b.length == q.2.2.1) = true ∧ svcNonce s = svcNonce coxOn := by
  intro q h x hx p hp s hs; rw [hs, hp, hx]
  simp only [List.mem_cons, List.not_mem_nil, or_false] at h
  rcases h with rfl | rfl | rfl <;> exact ⟨mail_of (by decide +kernel), by decide +kernel⟩

/-- The signature is Config's. -/
theorem test_hyps_CoxCommandsComplete_unlock (hv : ∀ k m g, Config.ecdsaVerify k m g = true) : ∀ level ∈ [1, 2], ∀ p, p = le 1 level ++ zeros 103 →
    ∀ s, s = mailOn 0 0x42 p { coxOn with cox := { coxOn.cox with challenge := some (zeros 64) } } → MailTurn s 0x42 104 104 0 p ∧ allZero (slice p 1 7) = true ∧ fld p 0 1 = level ∧
    s.cox.challenge = some (zeros 64) ∧ Config.ecdsaVerify Config.debugKey ([0x41, 0x5A, 0x4B, 0x2D, 0x44, 0x45, 0x42, 0x55, 0x47] ++ zeros 64 ++ p.take 1) (slice p 8 96) = true := by
  intro level h p hp s hs
  have : MailTurn s 0x42 104 104 0 p ∧ allZero (slice p 1 7) = true ∧ fld p 0 1 = level ∧ s.cox.challenge = some (zeros 64) := by
    rw [hs, hp]
    simp only [List.mem_cons, List.not_mem_nil, or_false] at h
    rcases h with rfl | rfl <;> exact ⟨mail_of (by decide +kernel), by decide +kernel⟩
  exact ⟨this.1, this.2.1, this.2.2.1, this.2.2.2, hv _ _ _⟩

theorem test_hyps_CoxCommandsComplete_images : ∀ s, s = { coxOn with cox := { coxOn.cox with fallback := some ⟨[0], 0, 0, 0⟩, releasedAt := some 5 }, pwr := { coxOn.pwr with dev := 1 } } →
    (∀ p, p = zeros 20 ++ le 1 8 ++ zeros 20 → MailTurn (mailOn 0 0x51 p s) 0x51 41 41 0 p ∧ fld p 32 4 = 0 ∧ bits (fld p 0 16) 35 5 ≠ bits (fld p 16 16) 35 5 ∧
      (∀ e ∈ [fld p 0 16, fld p 16 16], bits e 40 8 = 0 ∧ bits e 24 6 = 0 ∧ bits e 64 64 = 0 ∧ (fallbackCopy (mailOn 0 0x51 p s) ⟨[fld p 0 16, fld p 16 16], 0, 0, 0⟩ e).isSome = true)) ∧
    (∀ p, p = le 8 0x1000200000 ++ le 4 1 ++ le 4 (crc32c [0]) → MailTurn (mailOn 0 0x52 p s) 0x52 16 16 0 p ∧ (coxRead s (fld p 0 8) (min (fld p 8 4) (48 * 1024 * 1024))).2 = ([0], false) ∧
      installCheck s (fld p 8 4) (fld p 12 4) [0] false = 0) ∧
    (let t := { s with cox := { s.cox with phase := 2 } }; (MailTurn (mailOn 0 0x53 [] t) 0x53 0 0 0 [] ∧ t.cox.phase = 2 ∧ t.cox.releasedAt = some 5 ∧ t.pj.dumping = none)) ∧
    (let t := { s with cox := { s.cox with phase := 3 } }; t.cox.fallback = some ⟨[0], 0, 0, 0⟩ ∧ domainOn t .cox = true ∧ t.pwr.dev = 1 ∧
      ([0].findSome? (fallbackCopy t ⟨[0], 0, 0, 0⟩)) = some [] ∧ t.cox.keptOld = none) := by
  intro s hs
  refine ⟨?_, ?_, ⟨mail_of ?_, ?_⟩, ?_⟩
  · intro p hp; rw [hs, hp]; exact ⟨mail_of (by decide +kernel), by decide +kernel⟩
  · intro p hp; rw [hs, hp]; exact ⟨mail_of (by decide +kernel), by decide +kernel⟩
  all_goals rw [hs]; decide +kernel

theorem test_hyps_CoxCommandsComplete_logClear : ∀ p, p = le 16 10217555606314643723430244037231116037 ++ le 8 7 → ∀ s, s = mailOn 0 0x60 p coxOn → MailTurn s 0x60 24 24 0 p ∧
    p.take 16 = (hmacSha384 (zeros 48) ([0x41, 0x5A, 0x4B, 0x2D, 0x4C, 0x4F, 0x47, 0x2D, 0x43, 0x4C, 0x52] ++ svcNonce s ++ slice p 16 8)).take 16 := by
  intro p hp s hs; rw [hs, hp]; exact ⟨mail_of (by decide +kernel), by decide +kernel⟩

/-- The checks of the image rest on Config's functions. -/
theorem test_hyps_CoxCommandsComplete_boot : ∀ s, s = { live with pwr := { live.pwr with dev := 1 }, cox := { live.cox with verified := false } } → bootCheck (drawNonce s) = 0 →
    domainOn s .cox = true ∧ s.cox.verified = false ∧ s.pwr.dev = 1 ∧ s.cox.phase = 0 ∧ bootCheck (drawNonce s) = 0 := by
  intro s hs hb; exact ⟨by rw [hs]; decide +kernel, by rw [hs], by rw [hs], by rw [hs]; decide +kernel, hb⟩

theorem test_hyps_LogbookAndPinsComplete_submit : ∀ code ∈ [0x1000, 0x707F], ∀ s, s = setFs live [(F.LOG_RL_OVR_BURST 0, 255), (F.LOG_RL_OVR_BURST 895, 255)] →
    1 ≤ code / 4096 ∧ code / 4096 ≤ 7 ∧ code / 128 % 32 = 0 ∧ s.lb.buffer.length < 256 ∧ bucketBurst s ((code / 4096 - 1) * 128 + code % 128) = none ∧ coreOn s 0 = true ∧
    coreOn s 7 = true := by
  intro code h s hs; subst hs; revert code; decide +kernel

theorem test_hyps_LogbookAndPinsComplete_refused : ∀ code ∈ [0x0FFF, 0x8000, 0x1080, 0xFFFF], code / 4096 = 0 ∨ 7 < code / 4096 ∨ code / 128 % 32 ≠ 0 := by decide

theorem test_hyps_LogbookAndPinsComplete_clear : ∀ s, s = { setFs live [(F.LOG_HEAD_SEQ, 300)] with cox := { live.cox with clearGranted := some 290 }, lb := { live.lb with buffer := [], nextSeq := 301 } } →
    ∀ p, p = logSubmit (setF s F.LOG_CLEAR_UPTO_SEQ 290) 2 EV.logCleared (getF s F.LOG_LOW_SEQ) (max (getF s F.LOG_LOW_SEQ) (min 290 (getF s F.LOG_HEAD_SEQ) + 1)) 290 0 →
    (match p.2 with | .accepted q => q == s.lb.nextSeq | _ => false) = true := by rintro s rfl p rfl; decide +kernel

theorem test_hyps_LogbookAndPinsComplete_buffers : ∀ r, r = LogRec.mk 5 0x1000 0 0 0 0 0 0 0 0 0 0 0 →  ∀ s, s = { live with lb := { live.lb with buffer := [(9, r)], buckets := [⟨0, 1, 50, 0, false⟩] } } →
    s.lb.buffer = (9, r) :: [] ∧ codeBucket 0x1000 = some 0 ∧ (bucketBurst s 0).isSome = true ∧ (bucketOf s 0).spent ≠ 0 := by rintro r rfl s rfl; decide +kernel

theorem test_hyps_LogbookAndPinsComplete_snapshots : ∀ w, w = pentCapture live 4 0 → ∀ s, s = { live with pent := { live.pent with writing := some w } } → s.pent.writing = some w := by
  rintro w rfl s rfl; rfl

theorem test_hyps_LogbookAndPinsComplete_smbus : (smbRegister live 0x01).any (fun r => r.1 == .byte) = true ∧ (smbRegister live 0x00).any (fun r => r.1 == .word) = true ∧
    (smbRegister live 0x06).any (fun r => r.1 == .block) = true ∧ (smbRegister live 0x01).isSome = true ∧ smbRegister live 0x0B = none ∧ smbRegister live 0xFF = none ∧
    ({ live with pins := { live.pins with smbAlertN := false } } : State).pins.smbAlertN = false ∧ domainOn live .cox = true ∧
    ({ live with pins := { live.pins with jtagLevel := 2 } } : State).pins.jtagLevel ≠ 0 ∧ live.pj.dumping = none := by decide +kernel

theorem test_hyps_StepKeepsInvariant : State.Inv kvOn ∧ ∃ t, step kvOn = .next t := by
  refine ⟨⟨?_, ?_, kvOn_wf, ?_⟩, ?_⟩
  · decide +kernel
  · decide +kernel
  · decide +kernel
  · exact ⟨_, rfl⟩

end Sys2Proof.Tests
end

section
/-! PROOFS. What the family "scope" states of the queue, of memory, of register fields by their types, and of the reset state. -/

namespace Sys2Proof.Machine

/-! ### Words -/

/-- What a number keeps after the bits it shares with another are taken away. -/
theorem testBit_sub_and (m n i : Nat) : (m - (m &&& n)).testBit i = (m.testBit i && !n.testBit i) := by
  have hle : m &&& n ≤ m := Nat.and_le_left
  have hlow : (m &&& n) % 2 = 1 ↔ m % 2 = 1 ∧ n % 2 = 1 := Nat.and_mod_two_eq_one
  induction i generalizing m n with
  | zero =>
    have hdiff : (m - (m &&& n)) % 2 = 1 ↔ m % 2 = 1 ∧ ¬ n % 2 = 1 := by omega
    simp only [Nat.testBit_zero, hdiff, Bool.decide_and, decide_not]
  | succ i ih =>
    have hhalf : (m - (m &&& n)) / 2 = m / 2 - (m / 2 &&& n / 2) := by
      rw [← Nat.and_div_two]; omega
    simp only [Nat.testBit_succ, hhalf]
    exact ih _ _ Nat.and_le_left Nat.and_mod_two_eq_one

/-- A value that fits its width has nothing left once its width is masked out. -/
theorem sub_and_full_mask {x w : Nat} (h : x < 2 ^ w) : x - (x &&& (2 ^ w - 1)) = 0 := by
  rw [Nat.and_two_pow_sub_one_eq_mod, Nat.mod_eq_of_lt h, Nat.sub_self]

/-- Where the low `w` bits of a number are masked out, `w` bits put there read back. -/
theorem sub_and_full_mask_add_mod (m : Nat) {w x : Nat} (h : x < 2 ^ w) : (m - (m &&& (2 ^ w - 1)) + x) % 2 ^ w = x := by
  have hdiv : m - m % 2 ^ w = 2 ^ w * (m / 2 ^ w) := by have := Nat.div_add_mod m (2 ^ w); omega
  rw [Nat.and_two_pow_sub_one_eq_mod, hdiv, Nat.mul_add_mod, Nat.mod_eq_of_lt h]

theorem bits_lt (v lo w : Nat) : bits v lo w < 2 ^ w := Nat.mod_lt _ (Nat.two_pow_pos w)

theorem testBit_bits (v lo : Nat) {w i : Nat} (h : i < w) : (bits v lo w).testBit i = v.testBit (lo + i) := by
  simp only [bits, Nat.testBit_mod_two_pow, h, Nat.testBit_div_two_pow, decide_true, Bool.true_and, Nat.add_comm]

theorem length_le (n v : Nat) : (le n v).length = n := by
  induction n generalizing v with
  | zero => rfl
  | succ n ih => simp only [le, List.length_cons, ih]

/-! ### The fabric as a running crew core meets it -/

theorem core_lt_of_coreOn {s : State} {core : Nat} (h : coreOn s core = true) : core < 8 := by
  simp only [coreOn, Bool.and_eq_true, decide_eq_true_eq] at h
  exact h.1.1.1

theorem coreRid_le_one {s : State} {core : Nat} (h : coreOn s core = true) : coreRid core ≤ 1 := by
  have := core_lt_of_coreOn h
  simp only [coreRid]; omega

theorem coreRuns_on {s : State} {core : Nat} (h : coreOn s core = true) (k : State → Res) : coreRuns s core k = k (coreActs s core) := by
  simp [coreRuns, h]

/-- A write of a running crew core outside the windows that the fabric accepts is a store at its target (R38). -/
theorem exec_registerWrite_of_coreOn {s : State} {core addr width value : Nat} (hon : coreOn s core = true) (hwin : windowOf addr = none)
    (hfault : busFault (coreActs s core) addr width true = none) :
    exec (.registerWrite 0 core addr width value) s = busStore (coreActs s core) (coreRid core) core addr width value := by
  show execRegisterWrite 0 core addr width value s = _
  simp only [execRegisterWrite, onBus, Nat.zero_le, if_true, coreRuns_on hon, hwin, busWrite, busRid, hfault]

/-- A read of a running crew core outside the windows that the fabric accepts, of an address that no swap holds back, returns what it loads. -/
theorem exec_rcCounterRead_of_coreOn {s u : State} {core addr width v : Nat} (hon : coreOn s core = true) (hwin : windowOf addr = none)
    (hfault : busFault (coreActs s core) addr width false = none) (hswap : swapWaits (coreActs s core) addr width = false)
    (hload : busLoad (coreActs s core) (coreRid core) addr width = (u, some v)) :
    exec (.rcCounterRead 0 core addr width) s = .next (emit u (.readValue addr v)) := by
  show execRcCounterRead 0 core addr width s = _
  simp only [execRcCounterRead, onBus, Nat.zero_le, if_true, coreRuns_on hon, hswap, Bool.false_eq_true, if_false, busRead, hwin, busRid, hfault, hload]

/-- An engine's write that memory accepts succeeds. -/
theorem fabWrite_ok {s : State} {rid a : Nat} {bs : Bytes} (h : memFault s a bs.length true = none) : (fabWrite s rid a bs).2 = true := by
  simp only [fabWrite, h]
  split
  · rfl
  · split <;> rfl

/-- The fabric accepts an access to memory only where memory does. -/
theorem memFault_of_busFault {s : State} {a n : Nat} {wr : Bool} (ht : busTarget a = .mem) (h : busFault s a n wr = none) : memFault s a n wr = none := by
  simp only [busFault, ht] at h
  split at h
  · cases h
  · exact h

/-! ### Registers written and read -/

/-- A register write that hits no reserved bit and no listed misuse writes its fields and then has what `afterWrite` gives it. -/
theorem regWrite_run {s t : State} {rid a b width value v old new : Nat} {r : RegFam} (hv : v = value % 2 ^ (8 * width) * 2 ^ (8 * (a - b)))
    (hres : reservedHit r v = false) (hold : old = composed s b r.fields)
    (hnew : new = old - (old &&& ((2 ^ (8 * width) - 1) * 2 ^ (8 * (a - b)))) + v) (hmis : regMisuse s b old new = none)
    (ht : t = fieldsWrite rid b (8 * (a - b)) (8 * width) v r.fields s)
    (hclash : width = 8 → new ≠ old → placesRegion b = true → regionsClash t = none) : regWrite s rid a b width value r = afterWrite s t b v := by
  subst hv hold hnew ht
  simp only [regWrite, hres, Bool.false_eq_true, and_false, if_false, hmis, ite_self]
  split
  · rename_i hf
    split at hf
    · rename_i hc
      obtain ⟨_, hw, hne, hp⟩ := hc
      rw [hclash hw hne hp] at hf; cases hf
    · cases hf
  · rfl

/-- Nothing besides the fields where the register is none of those that `afterWrite` names. -/
theorem afterWrite_plain {old s : State} {b v : Nat}
    (hb : b ∉ [0x010C000400, 0x010C000428, 0x0102000000, 0x0100400018, 0x010F200000, 0x010100000C, 0x0101000210, 0x010D000208])
    (hmac : ¬ (0x010C000000 ≤ b ∧ b < 0x010C200000)) : afterWrite old s b v = .next s := by
  simp only [List.mem_cons, List.not_mem_nil, or_false, not_or] at hb
  obtain ⟨h1, h2, h3, h4, h5, h6, h7, h8⟩ := hb
  have hwithin : within b 0x010C000000 0x200000 = false := by
    simp only [within, Bool.and_eq_false_iff, decide_eq_false_iff_not]; omega
  simp [afterWrite, h1, h2, h3, h4, h5, h6, h7, h8, hwithin]

/-- The registers of a data port lie in its own megabyte. -/
theorem macPort_place {p o : Nat} (ho : o < 0x100000) :
    (0x010C000000 + p * 0x100000 + o - 0x010C000000) / 0x100000 = p ∧ (0x010C000000 + p * 0x100000 + o) % 0x100000 = o ∧
      (0x010C000000 + p * 0x100000 + o) % 0x100 / 0x20 = o % 0x100 / 0x20 ∧ (0x010C000000 + p * 0x100000 + o) % 0x20 = o % 0x20 := by
  omega

/-- A data port's register besides the clock's: MODE shows its rate, a receive ring that is enabled is looked at, nothing else happens. -/
theorem afterWrite_mac {old s : State} {b v p o : Nat} (hp : p < 2) (hb : b = 0x010C000000 + p * 0x100000 + o) (ho : o < 0x100000)
    (h1 : b ≠ 0x010C000400) (h2 : b ≠ 0x010C000428) :
    afterWrite old s b v =
      if (0x100 ≤ o ∧ o < 0x200) ∧ o % 0x20 = 8 ∧ flag s (mp p (F.MACA_RXR_CFG_ENABLE (o % 0x100 / 0x20))) = true then
        ringLook s p (o % 0x100 / 0x20)
      else if o = 4 then .next (showRate s p) else .next s := by
  obtain ⟨hport, hoff, hring, hlow⟩ := macPort_place (p := p) ho
  have hmac : within b 0x010C000000 0x200000 = true := by
    simp only [within, Bool.and_eq_true, decide_eq_true_eq]; omega
  have hrx : within o 0x100 0x100 = true ↔ 0x100 ≤ o ∧ o < 0x200 := by
    simp only [within, Bool.and_eq_true, decide_eq_true_eq]
  have hne : ∀ n, n < 0x010C000000 ∨ 0x010C200000 ≤ n → ¬ b = n := by omega
  have hw := hne 0x0102000000 (by decide)
  have hd := hne 0x0100400018 (by decide)
  have hj := hne 0x010F200000 (by decide)
  have hs := hne 0x010100000C (by decide)
  have hm := hne 0x0101000210 (by decide)
  have hv := hne 0x010D000208 (by decide)
  rw [afterWrite]
  simp only [h1, h2, hw, hd, hj, hs, hm, hv, hmac, or_self, if_false, false_and, true_and]
  simp only [hb, hport, hoff, hring, hlow, hrx]

/-- An RW field that a write covers takes the written bits for its own. -/
theorem fieldWrite_rw {s : State} {rid b lo n v : Nat} {d : FDef} (hty : d.ty = .rw) (hrow : d.row = false) (hlo : lo ≤ d.lo)
    (hhi : d.lo + d.width ≤ lo + n) (hw : 0 < d.width) : fieldWrite s rid b lo n v d =
      setF s (fieldAt d b) (getF s (fieldAt d b) - (getF s (fieldAt d b) &&& (2 ^ d.width - 1)) + bits v d.lo d.width) := by
  have hl : max d.lo lo = d.lo := by omega
  have hh : min (d.lo + d.width) (lo + n) = d.lo + d.width := by omega
  have hn : ¬ d.lo + d.width ≤ d.lo := by omega
  simp only [fieldWrite, hty, hrow, hl, hh, hn, Nat.add_sub_cancel_left, Nat.sub_self, Nat.pow_zero, Nat.mul_one, decide_false, Bool.or_self,
    Bool.false_eq_true, if_false]

/-- A W1C field that a write covers loses the bits written as 1. -/
theorem fieldWrite_w1c {s : State} {rid b lo n v : Nat} {d : FDef} (hty : d.ty = .w1c) (hrow : d.row = false) (hlo : lo ≤ d.lo)
    (hhi : d.lo + d.width ≤ lo + n) (hw : 0 < d.width) : fieldWrite s rid b lo n v d =
      setF s (fieldAt d b) (getF s (fieldAt d b) - (getF s (fieldAt d b) &&& bits v d.lo d.width)) := by
  have hl : max d.lo lo = d.lo := by omega
  have hh : min (d.lo + d.width) (lo + n) = d.lo + d.width := by omega
  have hn : ¬ d.lo + d.width ≤ d.lo := by omega
  simp only [fieldWrite, hty, hrow, hl, hh, hn, Nat.add_sub_cancel_left, Nat.sub_self, Nat.pow_zero, Nat.mul_one, decide_false, Bool.or_self,
    Bool.false_eq_true, if_false]

/-- A read of a counter that is alone in its register and wholly read clears it. -/
theorem clearRead_single {s : State} {b n : Nat} {d : FDef} (hty : d.ty = .rc) (hn : d.lo + d.width ≤ n) (hw : 0 < d.width) :
    clearRead b 0 n [d] s = setF s (fieldAt d b) (getF s (fieldAt d b) - (getF s (fieldAt d b) &&& (2 ^ d.width - 1))) := by
  have hl : max d.lo 0 = d.lo := by omega
  have hh : min (d.lo + d.width) (0 + n) = d.lo + d.width := by omega
  have hlt : d.lo < d.lo + d.width := by omega
  simp only [clearRead, hl, hh, hty, hlt, and_self, if_true, Nat.add_sub_cancel_left, Nat.sub_self, Nat.pow_zero, Nat.mul_one]

/-- A read of a register whose reads have no row of their own, half as wide as the fabric, clears what it returns. -/
theorem regRead_narrow {s : State} {b width : Nat} {r : RegFam} (hwide : r.wide = false) (hclaim : ¬ (0x0100802000 ≤ b ∧ b < 0x0100802800))
    (hptp : b ≠ 0x010C000408) (halloc : ¬ (0x010F200100 ≤ b ∧ b < 0x010F200180)) :
    regRead s b b width r = (clearRead b 0 (8 * width) r.fields s, bits (shownReg s b r) 0 (8 * width)) := by
  have h1 : within b 0x0100802000 0x800 = false := by
    simp only [within, Bool.and_eq_false_iff, decide_eq_false_iff_not]; omega
  have h2 : within b 0x010F200100 128 = false := by
    simp only [within, Bool.and_eq_false_iff, decide_eq_false_iff_not]; omega
  simp only [regRead, h1, h2, hptp, hwide, Bool.false_eq_true, false_and, if_false, Bool.and_false, Bool.false_and, Nat.sub_self, Nat.mul_zero]

end Sys2Proof.Machine

section Settled

open Sys2Proof Sys2Proof.Machine

/-- Settles O1: `step` takes the front of the queue off and runs it. -/
theorem stepRunsFrontCommand : Obligations.StepRunsFrontCommand := by
  unfold Obligations.StepRunsFrontCommand
  intro c rest s
  rfl

/-- Settles O6, from the rules of memory: a write keeps the canonical form, and in that form a read goes byte by byte. -/
theorem memoryReadsBackWhatWasWritten : Obligations.MemoryReadsBackWhatWasWritten := by
  unfold Obligations.MemoryReadsBackWhatWasWritten
  intro s a bs x hwf
  have hwf' : Memory.wf (memWrite s a bs).mem := memPut_wf hwf a bs
  refine ⟨hwf', ?_, ?_⟩
  · show memGet (memPut s.mem a bs) x = _
    split
    · next hin =>
      obtain ⟨i, rfl⟩ := Nat.exists_eq_add_of_le hin.1
      rw [memGet_memPut_in _ _ _ _ (by omega), Nat.add_sub_cancel_left]
    · next hout => exact memGet_memPut_out _ _ _ _ (by omega)
  · rw [memRead_eq _ hwf']
    refine List.ext_getElem (by simp) fun i hi hi' => ?_
    simp only [List.getElem_map, List.getElem_range]
    show memGet (memPut s.mem a bs) (a + i) = _
    rw [memGet_memPut_in _ _ _ _ hi', List.getD_eq_getElem?_getD, List.getElem?_eq_getElem hi', Option.getD_some]

/-- Settles O9: the written bits replace the field's own. -/
theorem rwFieldReadsWhatWasWritten : Obligations.RwFieldReadsWhatWasWritten := by
  unfold Obligations.RwFieldReadsWhatWasWritten
  intro s rid b lo n v d hty hrow hlo hhi hw
  rw [fieldWrite_rw hty hrow hlo hhi hw]
  refine ⟨?_, fun g hg => getF_setF_other _ _ (Ne.symm hg), rfl⟩
  rw [getF_setF_same]
  exact sub_and_full_mask_add_mod _ (bits_lt _ _ _)

/-- Settles O10: the bits written as 1 are taken from the field, which stays within its width. -/
theorem w1cFieldClears : Obligations.W1cFieldClears := by
  unfold Obligations.W1cFieldClears
  intro s rid b lo n v d hty hrow hlo hhi hw hfit i hi
  rw [fieldWrite_w1c hty hrow hlo hhi hw, getF_setF_same]
  have hfit' : getF s (fieldAt d b) - (getF s (fieldAt d b) &&& bits v d.lo d.width) < 2 ^ (fieldAt d b).width :=
    Nat.lt_of_le_of_lt (Nat.sub_le _ _) hfit
  rw [Nat.mod_eq_of_lt hfit', testBit_sub_and, testBit_bits _ _ hi]

/-- Settles O11: the fabric loads the register, and the load clears its one field. -/
theorem rcReadReturnsAndClears : Obligations.RcReadReturnsAndClears := by
  unfold Obligations.RcReadReturnsAndClears
  intro s core addr b r d hon hwin htgt haddr hwide hfields hty hhi hw hfault hswap hclaim hptp halloc
  subst haddr
  have hload : busLoad (coreActs s core) (coreRid core) addr 4 =
      (clearRead addr 0 32 [d] (coreActs s core), some (bits (shownReg (coreActs s core) addr r) 0 32)) := by
    simp only [busLoad, htgt, regRead_narrow hwide hclaim hptp halloc, hfields]
  refine ⟨_, exec_rcCounterRead_of_coreOn hon hwin hfault hswap hload, ?_⟩
  rw [clearRead_single hty hhi hw]
  refine ⟨rfl, fun hfit => ?_, fun g hg => getF_setF_other _ _ (Ne.symm hg), rfl⟩
  rw [getF_emit, getF_setF_same]
  have hzero := sub_and_full_mask hfit
  exact (congrArg (· % 2 ^ d.width) hzero).trans (Nat.zero_mod _)

/-- Settles O7: memory accepts the write, which as the core's own reaches the fabric. -/
theorem memoryStoreCompletes : Obligations.MemoryStoreCompletes := by
  unfold Obligations.MemoryStoreCompletes
  intro s core addr width value hon hwin htgt hfault hmis
  have hmem : memFault (coreWrote (coreActs s core) core addr width) addr (le width value).length true = none := by
    rw [length_le]; exact memFault_of_busFault htgt hfault
  simp only [exec_registerWrite_of_coreOn hon hwin hfault, busStore, htgt, coreRid_le_one hon, if_true, hmis, fabWrite_ok hmem]
  rfl

/-- Settles O8: the write acts on the fields, and `afterWrite` says register by register what it does besides. -/
theorem registerWriteCompletes : Obligations.RegisterWriteCompletes := by
  unfold Obligations.RegisterWriteCompletes
  intro s a t core addr width value b v old new r hon hwin htgt ha hfault hv hres hold hnew hmis ht hclash
  subst ha
  have hrun : exec (.registerWrite 0 core addr width value) s = afterWrite (coreActs s core) t b v := by
    rw [exec_registerWrite_of_coreOn hon hwin hfault]
    simp only [busStore, htgt]
    exact regWrite_run hv hres hold hnew hmis ht hclash
  simp only [hrun]
  refine ⟨fun hb hmac => afterWrite_plain hb hmac, ?ptp, ?wq, ?watchdog, ?journal, ?detectors, ?maintenance, ?port, ?service⟩
  case ptp => intro hb; rw [afterWrite, if_pos hb]
  case wq => rintro rfl; rfl
  case watchdog =>
    rintro rfl
    by_cases h : flag (coreActs s core) F.AON_WDOG_ENABLE = true <;> simp [afterWrite, h, within]
  case journal => rintro u rfl rfl; rfl
  case detectors => rintro rfl; rfl
  case maintenance =>
    rintro rfl
    by_cases h : bitAt v 31 = true ∧ bits v 0 2 = 0 <;> simp [afterWrite, h, within]
  case port =>
    intro p o n u hp hb ho h1 h2 hn
    subst hn
    rw [afterWrite_mac hp hb ho h1 h2]
    refine ⟨fun h4 => ?_, fun h4 hoff => ?_, fun hlo hhi h8 hen hplace => ?_⟩
    · rw [if_neg (by omega), if_pos h4]
    · rw [if_neg (fun h => hoff ⟨h.1.1, h.1.2, h.2⟩), if_neg h4]
    · rw [if_pos ⟨⟨hlo, hhi⟩, h8, hen⟩, ringLook, if_neg (by omega)]
      exact placeAll_run hplace
  case service =>
    rintro u rfl
    refine ⟨fun hoff => ?_, fun hen hplace => ?_⟩
    · simp [afterWrite, hoff, within]
    · simp only [afterWrite, hen]
      exact placeAll_run hplace

/-- Settles O60, by evaluation of the reset state; a field whose key is none of the four listed reads its reset value. -/
theorem resetState : Obligations.ResetState := by
  unfold Obligations.ResetState
  refine ⟨⟨by decide, List.Pairwise.nil, ⟨List.Pairwise.nil, by simp [State.reset]⟩, by simp [State.reset, Pj.reset]⟩, rfl, rfl, rfl, rfl, by decide,
    by decide, by decide, by decide, rfl, rfl, ?_⟩
  intro f hf
  simp only [List.mem_cons, List.not_mem_nil, or_false, not_or] at hf
  obtain ⟨hcycles, hnew, hhead, haccepted⟩ := hf
  have hkeys : kvGet regsReset (fldKey f) = none :=
    (if_neg (Ne.symm hcycles)).trans ((if_neg (Ne.symm hnew)).trans ((if_neg (Ne.symm hhead)).trans (if_neg (Ne.symm haccepted))))
  show (kvGet regsReset (fldKey f)).getD f.reset = f.reset
  rw [hkeys, Option.getD_none]

end Settled
end

section
namespace Sys2Proof.Machine

/-! ### What outcomes and answers carry -/

/-- The form of the stores, said of a command's outcome: the next state has it, where there is one. -/
def Res.Inv (r : Res) : Prop := ∀ t, r = .next t → t.Inv

/-- What is said of an answer that need not come: it holds of the answer, where there is one. -/
def OnSome {α : Type} (P : α → Prop) (o : Option α) : Prop := ∀ a, o = some a → P a

/-- The same, said of an outcome that carries more than a state. -/
def OnNext {σ : Type} (P : σ → Prop) (r : Host.Outcome σ Fault Refusal) : Prop := ∀ a, r = .next a → P a

theorem State.Inv.regsWf {s : State} (h : s.Inv) : kvWf s.regs := h.1

theorem State.Inv.shadowWf {s : State} (h : s.Inv) : kvWf s.shadow := h.2.1

theorem State.Inv.memWf {s : State} (h : s.Inv) : Memory.wf s.mem := h.2.2.1

theorem State.Inv.vaultWf {s : State} (h : s.Inv) : ∀ i ∈ s.pj.vault, Memory.wf i.cells := h.2.2.2

section Forms

variable {α β : Type} {P : α → Prop} {Q : β → Prop} {c : Prop} [Decidable c]

theorem State.Inv.next {s : State} (h : s.Inv) : Res.Inv (.next s) := by
  rintro t ⟨⟩; exact h

theorem Res.Inv.fault {f : Fault} : Res.Inv (.fault f) := fun _ e => nomatch e

theorem Res.Inv.refused {x : Refusal} : Res.Inv (.refused x) := fun _ e => nomatch e

theorem Res.Inv.of_eq {r : Res} {t : State} (h : r.Inv) (e : r = .next t) : t.Inv := h t e

theorem Res.Inv.andThen {r : Res} {k : State → Res} (hr : r.Inv) (hk : ∀ t, t.Inv → Res.Inv (k t)) : Res.Inv (andThen r k) := by
  cases r with
  | next s => exact hk s (hr s rfl)
  | fault f => exact .fault
  | refused x => exact .refused

theorem OnNext.next {a : α} (h : P a) : OnNext P (.next a) := by
  rintro b ⟨⟩; exact h

theorem OnNext.fault {f : Fault} : OnNext P (.fault f) := fun _ e => nomatch e

theorem OnNext.ite {r u : Host.Outcome α Fault Refusal} (hr : OnNext P r) (hu : OnNext P u) : OnNext P (if c then r else u) := by
  split
  · exact hr
  · exact hu

theorem State.Inv.ite {s t : State} (hs : s.Inv) (ht : t.Inv) : (if c then s else t).Inv := by
  split
  · exact hs
  · exact ht

theorem State.Inv.fst_ite {p q : State × α} (hp : p.1.Inv) (hq : q.1.Inv) : (if c then p else q).1.Inv := by
  split
  · exact hp
  · exact hq

theorem State.Inv.snd_ite {p q : α × State} (hp : p.2.Inv) (hq : q.2.Inv) : (if c then p else q).2.Inv := by
  split
  · exact hp
  · exact hq

theorem Res.Inv.ite {r u : Res} (hr : r.Inv) (hu : u.Inv) : Res.Inv (if c then r else u) := by
  split
  · exact hr
  · exact hu

theorem OnSome.ite {o u : Option α} (ho : OnSome P o) (hu : OnSome P u) : OnSome P (if c then o else u) := by
  split
  · exact ho
  · exact hu

theorem OnSome.none : OnSome P none := nofun

theorem OnSome.some {a : α} (h : P a) : OnSome P (some a) := by
  rintro b ⟨⟩; exact h

theorem OnSome.map {o : Option α} {f : α → β} (ho : OnSome P o) (hf : ∀ a, P a → Q (f a)) : OnSome Q (o.map f) := by
  cases o with
  | none => exact .none
  | some a => exact .some (hf a (ho a rfl))

theorem OnSome.bind {o : Option α} {f : α → Option β} (ho : OnSome P o) (hf : ∀ a, P a → OnSome Q (f a)) : OnSome Q (o.bind f) := by
  cases o with
  | none => exact .none
  | some a => exact hf a (ho a rfl)

theorem OnSome.map_any {o : Option α} {f : α → β} (hf : ∀ a, Q (f a)) : OnSome Q (o.map f) := by
  cases o with
  | none => exact .none
  | some a => exact .some (hf a)

theorem OnSome.bind_any {o : Option α} {f : α → Option β} (hf : ∀ a, OnSome Q (f a)) : OnSome Q (o.bind f) := by
  cases o with
  | none => exact .none
  | some a => exact hf a

theorem OnSome.getD {o : Option State} {s : State} (ho : OnSome State.Inv o) (h : s.Inv) : (o.getD s).Inv := by
  cases o with
  | none => exact h
  | some t => exact ho t rfl

/-- A state that comes with an answer, once the pair is taken apart. -/
theorem State.Inv.of_fst {p : State × α} {t : State} {x : α} (h : p.1.Inv) (e : p = (t, x)) : t.Inv := by
  subst e; exact h

theorem State.Inv.of_snd {p : α × State} {t : State} {x : α} (h : p.2.Inv) (e : p = (x, t)) : t.Inv := by
  subst e; exact h

theorem State.Inv.of_eq {s t : State} (h : s.Inv) (e : s = t) : t.Inv := e ▸ h

/-- What holds of an answer, once it has come. -/
theorem OnSome.of_eq {o : Option α} {a : α} (h : OnSome P o) (e : o = Option.some a) : P a := h a e

theorem OnSome.foldl {γ : Type} {f : Option α → γ → Option α} {l : List γ} {o : Option α} (ho : OnSome P o)
    (hf : ∀ u x, OnSome P u → OnSome P (f u x)) : OnSome P (l.foldl f o) := by
  induction l generalizing o with
  | nil => exact ho
  | cons x l ih => exact ih (hf o x ho)

theorem State.Inv.foldl_fst {γ : Type} {f : State × α → γ → State × α} {l : List γ} {p : State × α} (hp : p.1.Inv)
    (hf : ∀ q x, q.1.Inv → (f q x).1.Inv) : (l.foldl f p).1.Inv := by
  induction l generalizing p with
  | nil => exact hp
  | cons x l ih => exact ih (hf p x hp)

end Forms

section Blocks

variable {s : State} {now free : Nat} {out : List Out} {poison : List Nat} {irq : Irq} {cores : Cores} {wq : Wq} {pwr : Pwr} {lb : Logbook}
  {pent : Pent} {pins : Pins} {hte : Hte} {kv : Kv} {groups : List Group} {epoch : Epoch} {cox : Cox} {fc : Fc} {dma : Dma} {asu : Asu} {cip : Cip}
  {sc : Sc} {net : Net} {svc : Svc} {rig : Rig} {media : Media} {pending : List Instr}

/-- The form rests on the registers, the shadows, memory and the vault images alone: the fields of other blocks may be set. -/
theorem State.Inv.same (h : s.Inv) : State.Inv ⟨now, free, out, s.regs, s.shadow, s.mem, poison, irq, cores, wq, pwr, lb, pent, pins, s.pj, hte,
    kv, groups, epoch, cox, fc, dma, asu, cip, sc, net, svc, rig, media, pending⟩ := h

variable {units rseq armMark cleanMark replay : Nat} {rx : List Bytes} {ports kept reserved : List (Nat × Nat)} {intents : List Intent}
  {opens : List OpenStripe} {chans : List PairCh} {lost loading : Bool} {dumping : Option (Nat × Nat)} {testAt restoring : Option Nat}
  {leases : List (Nat × Bool)} {taken : List (Nat × Nat × Nat)}

/-- Of the journal's fields the vault images alone bear on the form. -/
theorem State.Inv.same_pj (h : s.Inv) : State.Inv ⟨now, free, out, s.regs, s.shadow, s.mem, poison, irq, cores, wq, pwr, lb, pent, pins,
    ⟨units, rx, rseq, ports, intents, opens, chans, s.pj.vault, armMark, cleanMark, lost, dumping, testAt, restoring, loading, replay, leases, taken,
      kept, reserved⟩, hte, kv, groups, epoch, cox, fc, dma, asu, cip, sc, net, svc, rig, media, pending⟩ := h

/-- The vault images may change where each keeps the canonical form of its cells. -/
theorem State.Inv.vault {vault : List VaultImage} (h : s.Inv) (hv : ∀ i ∈ vault, Memory.wf i.cells) : State.Inv ⟨now, free, out, s.regs, s.shadow,
    s.mem, poison, irq, cores, wq, pwr, lb, pent, pins, ⟨units, rx, rseq, ports, intents, opens, chans, vault, armMark, cleanMark, lost, dumping, testAt,
      restoring, loading, replay, leases, taken, kept, reserved⟩, hte, kv, groups, epoch, cox, fc, dma, asu, cip, sc, net, svc, rig, media, pending⟩ :=
  ⟨h.regsWf, h.shadowWf, h.memWf, hv⟩

end Blocks

end Sys2Proof.Machine
end

section
/-! What keeps the form of the stores: one lemma for each operation of the model that yields a state, in the order of the model's files. The lemma
for an operation cites the lemmas for those it calls, so that each is taken apart once; the last is that for a step. -/

namespace Sys2Proof.Machine

/-! ### The form is kept: `Machine/Ops.lean` -/

theorem State.Inv.whileCore {s : State} {k : State → Res} (h : s.Inv) (hk : ∀ t, t.Inv → Res.Inv (k t)) : Res.Inv (whileCore s k) :=
  .ite (hk _ h) h.next

/-! ### The form is kept: `Machine/CacheOps.lean` -/

theorem State.Inv.dmcLatch {s : State} {rid a : Nat} {scrub : Bool} (h : s.Inv) : (dmcLatch s rid a scrub).Inv :=
  .ite (h.countF _ _) ((((((h.countF _ _).fresh.setF _ _).setF _ _).setF _ _).setF _ _).setF _ _)

theorem State.Inv.dramLine {s : State} {rid a n : Nat} (h : s.Inv) : (dramLine s rid a n).1.Inv := .fst_ite h.dmcLatch (h.countF _ _)

theorem State.Inv.dramStore {s : State} {a : Nat} {b : Bytes} (h : s.Inv) : (dramStore s a b).Inv :=
  .ite ((h.memWrite _ _).countF _ _).same ((h.memWrite _ _).countF _ _)

theorem State.Inv.scDrop {s : State} {la : Nat} (h : s.Inv) : (scDrop s la).Inv := h.same

theorem State.Inv.scHold {s : State} {l : ScLine} (h : s.Inv) : (scHold s l).Inv := h.same

theorem State.Inv.streamWrite {s : State} {rid la : Nat} (h : s.Inv) : (streamWrite s rid la).Inv :=
  .ite h.same (.ite h.same (.ite h (.ite h.same h.same)))

theorem State.Inv.wayVisit {s : State} {w : Nat} (h : s.Inv) : (wayVisit s w).Inv := .ite h.same (h.same.setF _ _)

theorem State.Inv.wayFail {s : State} {w : Nat} {ue : Bool} (h : s.Inv) : (wayFail s w ue).Inv := .ite h h.same

theorem State.Inv.wayCorrected {s : State} {w : Nat} (h : s.Inv) : (wayCorrected s w).Inv :=
  .ite ((h.countF _ _).setF _ _).wayFail ((h.countF _ _).setF _ _)

theorem State.Inv.lineLost {s : State} {l : ScLine} {rid : Nat} (h : s.Inv) : (lineLost s l rid).Inv :=
  (State.Inv.logEv (.ite h (((((h.setF _ _).setF _ _).setF _ _).setF _ _).setF _ _)) _ _ _ _).same.scDrop.wayFail

theorem State.Inv.scEvict {s : State} {l : ScLine} (h : s.Inv) : (scEvict s l).Inv := .ite h.scDrop.same (h.scDrop.countF _ _)

theorem State.Inv.evictWrite {s : State} {l : ScLine} (h : s.Inv) : (evictWrite s l).Inv := h.same.dramStore.countF _ _

theorem State.Inv.scVictim {s : State} {ways : List Nat} {la : Nat} (h : s.Inv) : (scVictim s ways la).1.Inv := by
  unfold Machine.scVictim
  extract_lets _ p
  have hp : p.2.Inv := h.fresh
  split
  · exact h
  · exact hp

theorem State.Inv.scAlloc {s : State} {ways : List Nat} {rid la : Nat} {data : Bytes} {dirty corrected : Bool} (h : s.Inv) :
    (scAlloc s ways rid la data dirty corrected).Inv := by
  unfold Machine.scAlloc
  extract_lets v s₁
  have hv : v.1.Inv := h.scVictim
  have hs₁ : s₁.Inv := by
    unfold s₁
    split
    · exact hv.scEvict
    · exact hv
  exact hs₁.wayVisit.scHold

theorem State.Inv.evictRoom {s : State} (h : s.Inv) : (evictRoom s).Inv := by
  unfold Machine.evictRoom
  refine .ite h ?_
  split
  · exact h.evictWrite
  · exact h

theorem State.Inv.scHit {s : State} {rid : Nat} {l : ScLine} (h : s.Inv) : (scHit s rid l).Inv := h.wayVisit.countF _ _

theorem State.Inv.scRead {s : State} {rid a n : Nat} (h : s.Inv) : (scRead s rid a n).1.Inv := by
  unfold Machine.scRead
  refine .fst_ite h.dramLine ?_
  extract_lets _ s₁ s₂
  have hs₁ : s₁.Inv := by
    unfold s₁
    split
    · exact h.evictWrite
    · exact h
  have hs₂ : s₂.Inv := hs₁.countF _ _
  split
  · exact h.scHit
  · refine .fst_ite ?_ (hs₂.countF _ _).dramLine
    split
    next e =>
      exact .of_fst hs₂.dramLine e
    next s₃ _ e =>
      have hs₃ : s₃.Inv := .of_fst hs₂.dramLine e
      exact hs₃.evictRoom.scAlloc

theorem State.Inv.offStore {s : State} {a : Nat} {b : Bytes} (h : s.Inv) : (offStore s a b).Inv := .ite h.dramStore.same h.dramStore

theorem State.Inv.scWrite {s : State} {rid a : Nat} {b : Bytes} (h : s.Inv) : (scWrite s rid a b).Inv := by
  unfold Machine.scWrite
  refine .ite h.offStore ?_
  extract_lets _ s₁ _ s₂ s₃ s₄ s₅ _ p _ s₆
  have hs₁ : s₁.Inv := h.streamWrite
  have hs₂ : s₂.Inv := .ite hs₁.dramStore hs₁
  have hs₃ : s₃.Inv := by
    unfold s₃
    split
    · exact hs₁.evictWrite
    · exact hs₁
  have hs₄ : s₄.Inv := .ite hs₃.dramStore hs₃
  have hs₅ : s₅.Inv := hs₄.countF _ _
  have hp : p.1.Inv := .fst_ite hs₅ hs₅.dramLine
  have hs₆ : s₆.Inv := hs₅.countF _ _
  split
  · exact hs₂.scHit.scHold
  · exact .ite hp.evictRoom.scAlloc (.ite hs₆ hs₆.dramStore)

theorem State.Inv.scReadAll {l : List (Nat × Nat)} {s : State} {n : Nat} (h : s.Inv) : (scReadAll l s n).1.Inv := by
  induction l generalizing s n with
  | nil => exact h
  | cons x xs ih =>
    unfold Machine.scReadAll
    split
    next e =>
      exact .of_fst h.scRead e
    next s₁ _ e =>
      have hs₁ : s₁.Inv := .of_fst h.scRead e
      split
      next e₁ =>
        exact .of_fst (ih hs₁) e₁
      next e₁ =>
        exact .of_fst (ih hs₁) e₁

theorem State.Inv.scWriteAll {l : List (Nat × Nat)} {s : State} {n : Nat} {b : Bytes} (h : s.Inv) : (scWriteAll l s n b).Inv := by
  induction l generalizing s n b with
  | nil => exact h
  | cons x xs ih =>
    unfold Machine.scWriteAll
    exact ih h.scWrite

theorem State.Inv.fabRead {s : State} {rid a n : Nat} (h : s.Inv) : (fabRead s rid a n).1.Inv := by
  unfold Machine.fabRead
  refine .fst_ite h ?_
  split
  · exact h.fabLatch _ _ _ _
  · refine .fst_ite ?_ h
    split
    next s₁ e =>
      have hs₁ : s₁.Inv := .of_fst h.scReadAll e
      exact hs₁.fabLatch _ _ _ _
    · exact h.scReadAll

theorem State.Inv.fabWrite {s : State} {rid a : Nat} {bs : Bytes} (h : s.Inv) : (fabWrite s rid a bs).1.Inv := by
  unfold Machine.fabWrite
  refine .fst_ite h ?_
  split
  · exact h.fabLatch _ _ _ _
  · exact .fst_ite h.scWriteAll (h.memWrite _ _)

theorem State.Inv.storeAs {s : State} {rid a : Nat} {b : Bytes} (h : s.Inv) : (storeAs s rid a b).Inv := h.fabWrite

theorem State.Inv.crewStore {s : State} {a : Nat} {b : Bytes} (h : s.Inv) : (crewStore s a b).Inv := h.storeAs

theorem State.Inv.touch {s : State} {rid a n : Nat} (h : s.Inv) : (touch s rid a n).Inv := h.fabRead

/-! ### The form is kept: `Machine/Queues.lean` -/

theorem State.Inv.putQueue {s : State} {q : Queue} (h : s.Inv) : (putQueue s q).Inv := h.same

theorem State.Inv.readSlots {s : State} {q : Queue} {n n1 : Nat} (h : s.Inv) : (readSlots s q n n1).1.Inv := by
  induction n1 generalizing s q n with
  | zero => exact h
  | succ n₁ ih =>
    unfold Machine.readSlots
    split
    next e =>
      exact .of_fst h.fabRead e
    next s₁ _ e =>
      have hs₁ : s₁.Inv := .of_fst h.fabRead e
      split
      next e₁ =>
        exact .of_fst (ih hs₁) e₁
      next e₁ =>
        exact .of_fst (ih hs₁) e₁

theorem State.Inv.cqWrite {s : State} {q : Queue} {rec : Bytes} (h : s.Inv) : (cqWrite s q rec).1.Inv := h.fabWrite.fabWrite.countF _ _

theorem State.Inv.cqFlush {n : Nat} {s : State} {q : Queue} (h : s.Inv) : (cqFlush n s q).1.Inv := by
  induction n generalizing s q with
  | zero => exact h
  | succ n ih =>
    unfold Machine.cqFlush
    split
    · exact h
    · exact .fst_ite h (ih h.cqWrite)

theorem State.Inv.cqDue {s : State} {q : Queue} {rec : Bytes} (h : s.Inv) : (cqDue s q rec).1.Inv := .fst_ite h.cqWrite h

theorem State.Inv.cqPost {s : State} {q : Nat} {rec : Bytes} (h : s.Inv) : (cqPost s q rec).Inv := by
  unfold Machine.cqPost
  split
  · exact h.cqDue.putQueue
  · exact h

theorem State.Inv.wqStop {s : State} {q : Queue} {code index : Nat} (h : s.Inv) : (wqStop s q code index).Inv := by
  unfold Machine.wqStop
  refine .ite h.putQueue ?_
  extract_lets _ p s₁ s₂
  have hp : p.1.Inv := .fst_ite h h.cqDue
  have hs₁ : s₁.Inv := hp.putQueue
  have hs₂ : s₂.Inv := .ite (hs₁.setF _ _) ((((hs₁.setF _ _).setF _ _).setF _ _).setF _ _)
  exact hs₂.logEv _ _ _ _

theorem State.Inv.putTaken {s : State} {t : Taken} (h : s.Inv) : (putTaken s t).Inv := h.same

theorem State.Inv.entryResult {s : State} {t : Taken} {res : Bytes} {failed : Bool} (h : s.Inv) : (entryResult s t res failed).Inv := h.putTaken

theorem State.Inv.entryEnd {s : State} {t : Taken} {res : Bytes} {failed : Bool} (h : s.Inv) : (entryEnd s t res failed).Inv := by
  unfold Machine.entryEnd
  extract_lets _ _ _ s₁
  have hs₁ : s₁.Inv := h.same
  split
  · exact hs₁.putQueue
  · exact hs₁

theorem State.Inv.endDone {s : State} {t : Taken} (h : s.Inv) : (endDone s t).Inv := h.entryEnd

theorem State.Inv.wqComplete {s : State} {q : Nat} (h : s.Inv) : (wqComplete s q).Inv := by
  unfold Machine.wqComplete
  extract_lets
  split
  · exact h
  · refine .ite h.same.cqPost ?_
    extract_lets s₁ _ s₂
    have hs₁ : s₁.Inv := h.same
    have hs₂ : s₂.Inv := .ite hs₁.cqPost hs₁
    split
    · exact hs₁.cqPost
    · refine .ite ?_ hs₂
      split
      · extract_lets s₃
        have hs₃ : s₃.Inv := hs₂.cqPost
        split
        · exact hs₃.putQueue
        · exact hs₃
      · exact hs₂

theorem State.Inv.legacyTook {s : State} {block q : Nat} {newRound : Bool} (h : s.Inv) : (legacyTook s block q newRound).Inv := h.same

theorem State.Inv.wqPost {s : State} {q : Nat} {entry : Bytes} (h : s.Inv) : (wqPost s q entry).1.Inv := by
  unfold Machine.wqPost
  split
  · exact .fst_ite h.fabWrite.putQueue.fabWrite h
  · exact h

/-! ### The form is kept: `Machine/Cipher.lean` -/

theorem State.Inv.slotShow {s : State} {k : Nat} (h : s.Inv) : (slotShow s k).Inv := ((((h.setF _ _).setF _ _).setF _ _).setF _ _).setF _ _

theorem State.Inv.setSlot {s : State} {k : KeySlot} (h : s.Inv) : (setSlot s k).Inv := h.same.slotShow

theorem State.Inv.clearSlot {s : State} {k : Nat} (h : s.Inv) : (clearSlot s k).Inv := h.same.slotShow

theorem State.Inv.cipLatch {s : State} {q : Nat} {wr : Bool} {a : Nat} (h : s.Inv) : (cipLatch s q wr a).Inv :=
  .ite h ((((h.setF _ _).setF _ _).setF _ _).setF _ _)

theorem State.Inv.cipRead {s : State} {q a n : Nat} (h : s.Inv) : (cipRead s q a n).1.Inv := by
  unfold Machine.cipRead
  split
  next s₁ e =>
    have hs₁ : s₁.Inv := .of_fst h.fabRead e
    exact hs₁.cipLatch
  · exact h.fabRead

theorem State.Inv.cipWrite {s : State} {q a : Nat} {b : Bytes} (h : s.Inv) : (cipWrite s q a b).1.Inv := by
  unfold Machine.cipWrite
  split
  next s₁ e =>
    have hs₁ : s₁.Inv := .of_fst h.fabWrite e
    exact hs₁.cipLatch
  · exact h.fabWrite

theorem State.Inv.cipDone {s : State} {t : Taken} {cstatus : Nat} {tail : Bytes} (h : s.Inv) : Res.Inv (cipDone s t cstatus tail) :=
  (h.entryResult.setF _ _).next

theorem State.Inv.execCipGcmEnc {queue : Nat} {s : State} (h : s.Inv) : Res.Inv (execCipGcmEnc queue s) := by
  unfold Machine.execCipGcmEnc
  refine h.whileCore fun s₁ hs₁ => ?_
  split
  · exact hs₁.next
  · extract_lets
    refine .ite .fault ?_
    refine .ite hs₁.cipDone ?_
    refine .ite .fault ?_
    split
    next s₂ e₁ =>
      have hs₂ : s₂.Inv := .of_fst hs₁.cipRead e₁
      exact hs₂.cipDone
    next s₂ _ e₁ =>
      have hs₂ : s₂.Inv := .of_fst hs₁.cipRead e₁
      split
      next s₃ e₂ =>
        have hs₃ : s₃.Inv := .of_fst hs₂.cipRead e₂
        exact hs₃.cipDone
      next s₃ _ e₂ =>
        have hs₃ : s₃.Inv := .of_fst hs₂.cipRead e₂
        extract_lets _ s₄
        have hs₄ : s₄.Inv := hs₃.countF _ _
        split
        next s₅ e₃ =>
          have hs₅ : s₅.Inv := .of_fst hs₄.cipWrite e₃
          exact hs₅.cipDone
        next s₅ e₃ =>
          have hs₅ : s₅.Inv := .of_fst hs₄.cipWrite e₃
          exact hs₅.cipDone

theorem State.Inv.execCipGcmDec {queue : Nat} {s : State} (h : s.Inv) : Res.Inv (execCipGcmDec queue s) := by
  unfold Machine.execCipGcmDec
  refine h.whileCore fun s₁ hs₁ => ?_
  split
  · exact hs₁.next
  · extract_lets
    refine .ite .fault ?_
    refine .ite hs₁.cipDone ?_
    refine .ite .fault ?_
    split
    next s₂ e₁ =>
      have hs₂ : s₂.Inv := .of_fst hs₁.cipRead e₁
      exact hs₂.cipDone
    next s₂ _ e₁ =>
      have hs₂ : s₂.Inv := .of_fst hs₁.cipRead e₁
      split
      next s₃ e₂ =>
        have hs₃ : s₃.Inv := .of_fst hs₂.cipRead e₂
        exact hs₃.cipDone
      next s₃ _ e₂ =>
        have hs₃ : s₃.Inv := .of_fst hs₂.cipRead e₂
        extract_lets _ s₄
        have hs₄ : s₄.Inv := hs₃.countF _ _
        split
        next s₅ e₃ =>
          have hs₅ : s₅.Inv := .of_fst hs₄.cipWrite e₃
          exact hs₅.cipDone
        next s₅ e₃ =>
          have hs₅ : s₅.Inv := .of_fst hs₄.cipWrite e₃
          exact hs₅.cipDone

theorem State.Inv.cipXts {enc : Bool} {t : Taken} {queue : Nat} {s : State} (h : s.Inv) : Res.Inv (cipXts enc t queue s) := by
  unfold Machine.cipXts
  extract_lets
  refine .ite .fault ?_
  split
  · exact h.cipDone
  · refine .ite h.cipDone ?_
    refine .ite h.cipDone ?_
    refine .ite .fault ?_
    split
    next s₁ e =>
      have hs₁ : s₁.Inv := .of_fst h.cipRead e
      exact hs₁.cipDone
    next s₁ _ e =>
      have hs₁ : s₁.Inv := .of_fst h.cipRead e
      extract_lets s₂
      have hs₂ : s₂.Inv := hs₁.countF _ _
      split
      next s₃ e₁ =>
        have hs₃ : s₃.Inv := .of_fst hs₂.cipWrite e₁
        exact hs₃.cipDone
      next s₃ e₁ =>
        have hs₃ : s₃.Inv := .of_fst hs₂.cipWrite e₁
        exact hs₃.cipDone

theorem State.Inv.execCipXtsEnc {queue : Nat} {s : State} (h : s.Inv) : Res.Inv (execCipXtsEnc queue s) := by
  unfold Machine.execCipXtsEnc
  refine h.whileCore fun s₁ hs₁ => ?_
  split
  · exact hs₁.next
  · exact hs₁.cipXts

theorem State.Inv.execCipXtsDec {queue : Nat} {s : State} (h : s.Inv) : Res.Inv (execCipXtsDec queue s) := by
  unfold Machine.execCipXtsDec
  refine h.whileCore fun s₁ hs₁ => ?_
  split
  · exact hs₁.next
  · exact hs₁.cipXts

theorem State.Inv.execCipUnwrap {queue : Nat} {s : State} (h : s.Inv) : Res.Inv (execCipUnwrap queue s) := by
  unfold Machine.execCipUnwrap
  refine h.whileCore fun s₁ hs₁ => ?_
  split
  · exact hs₁.next
  · extract_lets
    refine .ite .fault ?_
    refine .ite hs₁.cipDone ?_
    split
    · exact hs₁.cipDone
    · split
      next s₂ e =>
        have hs₂ : s₂.Inv := .of_fst hs₁.cipRead e
        exact hs₂.cipDone
      next s₂ _ e =>
        have hs₂ : s₂.Inv := .of_fst hs₁.cipRead e
        split
        · exact hs₂.cipDone
        · exact .ite hs₂.setSlot.cipDone hs₂.cipDone

theorem State.Inv.execCipGenkey {queue : Nat} {s : State} (h : s.Inv) : Res.Inv (execCipGenkey queue s) := by
  unfold Machine.execCipGenkey
  refine h.whileCore fun s₁ hs₁ => ?_
  split
  · exact hs₁.next
  · exact .ite .fault (.ite hs₁.cipDone (.ite hs₁.cipDone (hs₁.freshBytes _).setSlot.cipDone))

theorem State.Inv.execCipExport {queue : Nat} {s : State} (h : s.Inv) : Res.Inv (execCipExport queue s) := by
  unfold Machine.execCipExport
  refine h.whileCore fun s₁ hs₁ => ?_
  split
  · exact hs₁.next
  · extract_lets
    split
    · exact .ite .fault hs₁.cipDone
    · refine .ite .fault ?_
      refine .ite hs₁.cipDone ?_
      split
      · exact hs₁.cipDone
      · split
        next s₂ e =>
          have hs₂ : s₂.Inv := .of_fst hs₁.cipWrite e
          exact hs₂.cipDone
        next s₂ e =>
          have hs₂ : s₂.Inv := .of_fst hs₁.cipWrite e
          exact hs₂.cipDone

theorem State.Inv.execCipClear {queue : Nat} {s : State} (h : s.Inv) : Res.Inv (execCipClear queue s) := by
  unfold Machine.execCipClear
  refine h.whileCore fun s₁ hs₁ => ?_
  split
  · exact hs₁.next
  · exact .ite .fault (.ite hs₁.cipDone hs₁.clearSlot.cipDone)

theorem State.Inv.execCipEntryEnd {queue : Nat} {s : State} (h : s.Inv) : Res.Inv (execCipEntryEnd queue s) := by
  unfold Machine.execCipEntryEnd
  refine h.whileCore fun s₁ hs₁ => ?_
  split
  · exact hs₁.next
  · extract_lets _ s₂ s₃ s₄
    have hs₂ : s₂.Inv := hs₁.endDone
    have hs₃ : s₃.Inv := .ite (hs₂.countF _ _) (.ite (hs₂.countF _ _) hs₂)
    have hs₄ : s₄.Inv := .ite (hs₃.countF _ _) hs₃
    exact (hs₄.setF _ _).next

theorem State.Inv.putCtx {s : State} {c : Nat} {o : Option DigCtx} (h : s.Inv) : (putCtx s c o).Inv := ((h.same.setF _ _).setF _ _).setF _ _

theorem State.Inv.digLatch {s : State} {q : Nat} {wr : Bool} {a : Nat} (h : s.Inv) : (digLatch s q wr a).Inv :=
  .ite h ((((h.setF _ _).setF _ _).setF _ _).setF _ _)

theorem State.Inv.digDone {s : State} {t : Taken} {cstatus : Nat} (h : s.Inv) : Res.Inv (digDone s t cstatus) := (h.entryResult.setF _ _).next

theorem State.Inv.execDigUpdate {queue : Nat} {s : State} (h : s.Inv) : Res.Inv (execDigUpdate queue s) := by
  unfold Machine.execDigUpdate
  refine h.whileCore fun s₁ hs₁ => ?_
  split
  · exact hs₁.next
  · extract_lets _ _ _ _ _ _ old
    refine .ite .fault ?_
    refine .ite .fault ?_
    refine .ite .fault ?_
    clear_value old
    split
    · exact hs₁.digDone
    · refine .ite hs₁.digDone ?_
      split
      next s₂ e =>
        have hs₂ : s₂.Inv := .of_fst hs₁.fabRead e
        exact hs₂.digLatch.digDone
      next s₂ _ e =>
        have hs₂ : s₂.Inv := .of_fst hs₁.fabRead e
        extract_lets s₃
        have hs₃ : s₃.Inv := hs₂.countF _ _
        refine .ite ?_ hs₃.putCtx.digDone
        split
        next s₄ e₁ =>
          have hs₄ : s₄.Inv := .of_fst hs₃.fabWrite e₁
          exact hs₄.digLatch.digDone
        next s₄ e₁ =>
          have hs₄ : s₄.Inv := .of_fst hs₃.fabWrite e₁
          exact (hs₄.countF _ _).putCtx.digDone

theorem State.Inv.execDigEntryEnd {queue : Nat} {s : State} (h : s.Inv) : Res.Inv (execDigEntryEnd queue s) := by
  unfold Machine.execDigEntryEnd
  refine h.whileCore fun s₁ hs₁ => ?_
  split
  · exact hs₁.next
  · exact (hs₁.endDone.setF _ _).next

/-! ### The form is kept: `Machine/ConfigStore.lean` -/

theorem State.Inv.putCopy {s : State} {c : CfgCopy} (h : s.Inv) : (putCopy s c).Inv := h.same

theorem State.Inv.cfgAppend {s : State} {key : Nat} {del : Bool} {data : Bytes} (h : s.Inv) : OnSome State.Inv (cfgAppend s key del data) :=
  .ite .none (.some h.putCopy)

/-! ### The form is kept: `Machine/Flags.lean` -/

theorem State.Inv.coreActs {s : State} {c : Nat} (h : s.Inv) : (coreActs s c).Inv := h.same

theorem State.Inv.coreWrote {s : State} {c a n : Nat} (h : s.Inv) : (coreWrote s c a n).Inv := h.same

theorem State.Inv.coreFence {s : State} {c : Nat} (h : s.Inv) : (coreFence s c).Inv := h.same

theorem State.Inv.coreFenceI {s : State} {c : Nat} (h : s.Inv) : (coreFenceI s c).Inv := h.same

theorem Res.Inv.whenFenced {s : State} {ranges : List (Nat × Nat)} {k : Res} (hk : Res.Inv k) : Res.Inv (whenFenced s ranges k) :=
  .ite .fault hk

theorem State.Inv.coreRuns {s : State} {c : Nat} {k : State → Res} (h : s.Inv) (hk : ∀ t, t.Inv → Res.Inv (k t)) : Res.Inv (coreRuns s c k) :=
  .ite (hk _ h.coreActs) h.next

theorem State.Inv.coreStore {s : State} {core a : Nat} {k : State → Res} (h : s.Inv) (hk : ∀ t, t.Inv → Res.Inv (k t)) :
    Res.Inv (coreStore s core a k) :=
  h.coreRuns fun _ hs₁ => .ite (hk _ hs₁) ((hs₁.fabLatch _ _ _ _).emit _).next

/-! ### The form is kept: `Machine/Rig.lean` -/

theorem State.Inv.readLoose {l : List (Nat × Nat)} {s : State} {n : Nat} (h : s.Inv) : (readLoose l s n).1.Inv := by
  induction l generalizing s n with
  | nil => exact h
  | cons x xs ih =>
    unfold Machine.readLoose
    exact ih h.fabRead

theorem State.Inv.keepContainer {s : State} {epoch : Nat} {c : Bytes} (h : s.Inv) : (keepContainer s epoch c).Inv := h.same

theorem State.Inv.rigStageEnd {s : State} (h : s.Inv) : Res.Inv (rigStageEnd s) := by
  unfold Machine.rigStageEnd
  extract_lets _ _ _ r _ _ s₁ _ _ _ _ s₂ _ s₃ s₄ s₅
  have hr : r.1.Inv := h.readLoose
  have hs₁ : s₁.Inv := hr.setF _ _
  have hs₂ : s₂.Inv := hs₁.fabWrite
  have hs₃ : s₃.Inv := hs₂.same
  have hs₄ : s₄.Inv := hs₃.keepContainer
  have hs₅ : s₅.Inv := ((hs₄.setF _ _).setF _ _).setF _ _
  refine .ite ((((hs₁.setF _ _).setF _ _).logCrew _).pulse _).next ?_
  refine .ite .fault ?_
  split
  · exact .fault
  · exact ((hs₅.logCrew _).pulse _).next

theorem State.Inv.execRigCtrlStage {core : Nat} {s : State} (h : s.Inv) : Res.Inv (execRigCtrlStage core s) :=
  h.coreStore fun _ hs₁ => .ite hs₁.next (.ite .fault (.whenFenced (hs₁.setF _ _).next))

theorem State.Inv.rigActivate {s : State} (h : s.Inv) : (rigActivate s).Inv := .ite h (.ite ((h.setF _ _).setF _ _) (h.setF _ _))

theorem State.Inv.execRigCtrlActivate {core : Nat} {s : State} (h : s.Inv) : Res.Inv (execRigCtrlActivate core s) :=
  h.coreStore fun _ hs₁ => hs₁.rigActivate.next

theorem State.Inv.rigDiscard {s : State} (h : s.Inv) : (rigDiscard s).Inv := .ite h ((h.same.setF _ _).setF _ _)

theorem State.Inv.rigTables {offs cnts l : List Nat} {s : State} (h : s.Inv) : (rigTables offs cnts l s).Inv := by
  induction l generalizing offs cnts s with
  | nil => exact h
  | cons x xs ih =>
    unfold Machine.rigTables
    exact ih ((h.setF _ _).setF _ _)

theorem State.Inv.rigSwapEnd {s : State} {st : RigStaged} (h : s.Inv) : (rigSwapEnd s st).Inv :=
  (((((((((h.readLoose.memWrite _ _).rigTables.setF _ _).setF _ _).setF _ _).setF _ _).setF _ _).setF _ _).same.setF _ _).logCrew _).pulse _

/-! ### The form is kept: `Machine/Vault.lean` -/

theorem State.Inv.vaultGone {s : State} {bsn : Nat} (h : s.Inv) : (vaultGone s bsn).Inv := by
  refine .ite h (h.vault fun i hi => ?_)
  obtain ⟨j, hj, rfl⟩ := List.mem_map.1 hi
  split
  · exact h.vaultWf j hj
  · exact h.vaultWf j hj

/-! ### The form is kept: `Machine/Flash.lean` -/

theorem State.Inv.nandPut {s : State} {s1 : Stride} (h : s.Inv) : (nandPut s s1).Inv := h.vaultGone.same

theorem State.Inv.nandErase {s : State} {bsn : Nat} (h : s.Inv) : (nandErase s bsn).Inv := h.vaultGone.same

theorem State.Inv.freePlanes {n : Nat} {s : State} (h : s.Inv) : (freePlanes n s).2.Inv := by
  induction n generalizing s with
  | zero => exact h
  | succ n ih =>
    unfold Machine.freePlanes
    exact ih ((h.freshBytes _).freshBytes _)

theorem State.Inv.nandSpoil {s : State} {bsn page : Nat} (h : s.Inv) : (nandSpoil s bsn page).Inv := h.freePlanes.nandPut

theorem State.Inv.spoilAll {l : List Stride} {s : State} (h : s.Inv) : (spoilAll l s).Inv := by
  induction l generalizing s with
  | nil => exact h
  | cons x xs ih =>
    unfold Machine.spoilAll
    exact ih h.nandSpoil

theorem State.Inv.showIdle {s : State} {n : Nat} (h : s.Inv) : (showIdle s n).Inv := h.setF _ _

theorem State.Inv.lunFree {s : State} {n slot : Nat} (h : s.Inv) : (lunFree s n slot).Inv := (h.same.setF _ _).showIdle

theorem State.Inv.fcLatch {s : State} {n slot : Nat} {wr : Bool} {a : Nat} (h : s.Inv) : (fcLatch s n slot wr a).Inv :=
  .ite h ((((h.setF _ _).setF _ _).setF _ _).setF _ _)

theorem State.Inv.fcFetch {n slot : Nat} {l : List (Nat × Nat)} {s : State} (h : s.Inv) : (fcFetch n slot l s).1.Inv := by
  induction l generalizing n slot s with
  | nil => exact h
  | cons x xs ih =>
    unfold Machine.fcFetch
    split
    next s₁ e =>
      have hs₁ : s₁.Inv := .of_fst h.fabRead e
      exact hs₁.fcLatch
    next s₁ _ e =>
      have hs₁ : s₁.Inv := .of_fst h.fabRead e
      split
      next e₁ =>
        exact .of_fst (ih hs₁) e₁
      next e₁ =>
        exact .of_fst (ih hs₁) e₁

theorem State.Inv.fcStore {n slot : Nat} {l : List (Nat × Bytes)} {s : State} (h : s.Inv) : (fcStore n slot l s).1.Inv := by
  induction l generalizing n slot s with
  | nil => exact h
  | cons x xs ih =>
    unfold Machine.fcStore
    split
    next s₁ e =>
      have hs₁ : s₁.Inv := .of_fst h.fabWrite e
      exact hs₁.fcLatch
    next s₁ e =>
      have hs₁ : s₁.Inv := .of_fst h.fabWrite e
      exact ih hs₁

theorem State.Inv.fcSpoil {l : List (Nat × Nat)} {s : State} (h : s.Inv) : (fcSpoil l s).Inv := by
  induction l generalizing s with
  | nil => exact h
  | cons x xs ih =>
    unfold Machine.fcSpoil
    exact ih (h.freshBytes _).fabWrite

theorem State.Inv.fcIssue {s : State} {n : Nat} {t : Taken} {data : List (Bytes × Bytes)} (h : s.Inv) : (fcIssue s n t data).Inv := by
  unfold Machine.fcIssue
  extract_lets _ s₁ _ _ s₂ s₃
  have hs₁ : s₁.Inv := by
    unfold s₁
    split
    · exact h.countF _ _
    · exact h
  have hs₂ : s₂.Inv := hs₁.same
  have hs₃ : s₃.Inv := (hs₂.setF _ _).setF _ _
  exact hs₃.emit _

theorem State.Inv.fcWait {s : State} {t : Taken} (h : s.Inv) : (fcWait s t).Inv := .ite h h.same

theorem State.Inv.fcEndAt {s : State} {n : Nat} {t : Taken} {status : Nat} (h : s.Inv) : (fcEndAt s n t status).Inv :=
  (State.Inv.entryEnd (.ite (h.countF _ _) h)).showIdle

theorem State.Inv.fcStart {queue index op : Nat} {s : State} {start : State → Nat → Taken → Res} (h : s.Inv)
    (hstart : ∀ t x y, t.Inv → Res.Inv (start t x y)) : Res.Inv (fcStart queue index op s start) := by
  unfold Machine.fcStart
  split
  · exact .ite .fault (.ite h.next (.ite h.fcEndAt.next (.ite h.fcEndAt.next (.ite h.next (.ite .fault (hstart _ _ _ h))))))
  · exact h.next

theorem State.Inv.fcApply {s : State} {n : Nat} {t : Taken} (h : s.Inv) : (fcApply s n t).Inv := h.setF _ _

theorem State.Inv.execFcRead {queue index : Nat} {s : State} (h : s.Inv) : Res.Inv (execFcRead queue index s) :=
  h.whileCore fun _ hs₁ => hs₁.fcStart fun _ _ _ hs₂ => hs₂.fcApply.fcIssue.next

theorem State.Inv.execFcReadHeader {queue index : Nat} {s : State} (h : s.Inv) : Res.Inv (execFcReadHeader queue index s) :=
  h.whileCore fun _ hs₁ => hs₁.fcStart fun _ _ _ hs₂ => hs₂.fcApply.fcIssue.next

theorem State.Inv.fcBlockState {s : State} {n slot bsn : Nat} (h : s.Inv) : (fcBlockState s n slot bsn).1.Inv := by
  unfold Machine.fcBlockState
  extract_lets
  split
  next s₁ e =>
    have hs₁ : s₁.Inv := .of_fst h.fabRead e
    exact hs₁.fcLatch
  next e =>
    exact .of_fst h.fabRead e

theorem State.Inv.fcGated {s : State} {n : Nat} {t : Taken} {go : State → Nat → Option Nat → Res} (h : s.Inv)
    (hgo : ∀ t x y, t.Inv → Res.Inv (go t x y)) : Res.Inv (fcGated s n t go) := by
  unfold Machine.fcGated
  extract_lets
  refine .ite h.fcWait.next ?_
  refine .ite h.fcEndAt.next ?_
  split
  next s₁ e =>
    have hs₁ : s₁.Inv := .of_fst h.fcBlockState e
    exact hs₁.fcEndAt.next
  next s₁ _ e =>
    have hs₁ : s₁.Inv := .of_fst h.fcBlockState e
    exact .ite hs₁.fcEndAt.next (hgo _ _ _ hs₁)

theorem State.Inv.execFcProgram {queue index : Nat} {s : State} (h : s.Inv) : Res.Inv (execFcProgram queue index s) := by
  unfold Machine.execFcProgram
  refine h.whileCore fun s₁ hs₁ => ?_
  refine hs₁.fcStart fun s₂ n t hs₂ => ?_
  refine hs₂.fcGated fun s₃ slot st hs₃ => ?_
  extract_lets
  split
  next s₄ e =>
    have hs₄ : s₄.Inv := .of_fst hs₃.fcFetch e
    exact hs₄.fcEndAt.next
  next s₄ _ e =>
    have hs₄ : s₄.Inv := .of_fst hs₃.fcFetch e
    exact .ite .fault (.ite .fault hs₄.fcIssue.next)

theorem State.Inv.execFcErase {queue index : Nat} {s : State} (h : s.Inv) : Res.Inv (execFcErase queue index s) :=
  h.whileCore fun _ hs₁ => hs₁.fcStart fun _ _ _ hs₂ => hs₂.fcGated fun _ _ _ hs₃ => .ite .fault hs₃.fcIssue.next

theorem State.Inv.execFcFeature {queue index : Nat} {s : State} (h : s.Inv) : Res.Inv (execFcFeature queue index s) := by
  unfold Machine.execFcFeature
  refine h.whileCore fun s₁ hs₁ => ?_
  refine hs₁.fcStart fun s₂ n t hs₂ => ?_
  refine .ite .fault ?_
  refine .ite ?_ hs₂.fcIssue.next
  split
  next s₃ e =>
    have hs₃ : s₃.Inv := .of_fst hs₂.fcFetch e
    exact hs₃.fcEndAt.next
  next s₃ _ e =>
    have hs₃ : s₃.Inv := .of_fst hs₂.fcFetch e
    exact hs₃.fcIssue.next

theorem State.Inv.execFcResetLun {queue index : Nat} {s : State} (h : s.Inv) : Res.Inv (execFcResetLun queue index s) :=
  h.whileCore fun _ hs₁ => hs₁.fcStart fun _ _ _ hs₂ => .ite .fault hs₂.fcIssue.next

theorem State.Inv.fcReadPlane {s : State} {bsn page bad q : Nat} (h : s.Inv) : (fcReadPlane s bsn page bad q).1.Inv := by
  unfold Machine.fcReadPlane
  split
  · exact h
  · refine .fst_ite ?_ ?_
    · extract_lets d h₁
      have hd : d.2.Inv := h.freshBytes _
      have hh₁ : h₁.2.Inv := hd.freshBytes _
      exact hh₁
    · exact h

theorem State.Inv.fcReadPlanes {bsn page bad : Nat} {b : Bytes} {l : List Nat} {s : State} (h : s.Inv) : (fcReadPlanes bsn page bad b l s).1.Inv := by
  induction l generalizing bsn page bad b s with
  | nil => exact h
  | cons x xs ih =>
    unfold Machine.fcReadPlanes
    exact ih h.fcReadPlane

theorem State.Inv.fcReadMoved {s : State} {n : Nat} {b : Bytes} (h : s.Inv) : (fcReadMoved s n b).Inv := .ite (h.countF _ _) (h.fresh.countF _ _)

theorem State.Inv.fcReadEnd {s : State} {o : FcOp} {bits corrected bad badWords : Nat} (h : s.Inv) :
    (fcReadEnd s o bits corrected bad badWords).1.Inv := by
  unfold Machine.fcReadEnd
  extract_lets _ _ r w s₁ s₂ s₃ _ s₄ _ s₅
  have hr : r.1.Inv := h.fcReadPlanes
  have hw : w.1.Inv := hr.fcStore
  have hs₁ : s₁.Inv := .ite hw hw.fcSpoil
  have hs₂ : s₂.Inv := ((hs₁.countF _ _).countF _ _).fcReadMoved
  have hs₃ : s₃.Inv := .ite (hs₂.countF _ _) hs₂
  have hs₄ : s₄.Inv := (hs₃.countF _ _).countF _ _
  have hs₅ : s₅.Inv := .ite (hs₄.countF _ _) hs₄
  exact hs₅

theorem State.Inv.fcWriteEnd {s : State} {o : FcOp} {fail : Bool} (h : s.Inv) : (fcWriteEnd s o fail).1.Inv := by
  unfold Machine.fcWriteEnd
  extract_lets _ _ _ s₁ s₂ _ _ s₃ s₄
  have hs₁ : s₁.Inv := (h.countF _ _).countF _ _
  have hs₂ : s₂.Inv := hs₁.countF _ _
  have hs₃ : s₃.Inv := (h.countF _ _).countF _ _
  have hs₄ : s₄.Inv := .ite (.ite hs₂.same.nandSpoil hs₂.nandPut) (.ite hs₃.spoilAll hs₃.nandErase)
  exact hs₄

theorem State.Inv.fcFeatureEnd {s : State} {o : FcOp} (h : s.Inv) : (fcFeatureEnd s o).1.Inv := by
  unfold Machine.fcFeatureEnd
  extract_lets _ _ _ p w
  have hp : p.2.Inv := by
    unfold p
    split
    · exact h
    · exact h.freshBytes _
  have hw : w.1.Inv := hp.fcStore
  exact .fst_ite h.same (.ite hw hw.fcSpoil)

theorem State.Inv.fcEnd {s : State} {o : FcOp} {fail bits corrected bad badWords : Nat} (h : s.Inv) :
    (fcEnd s o fail bits corrected bad badWords).Inv := by
  unfold Machine.fcEnd
  extract_lets s₁ r
  have hs₁ : s₁.Inv := h.lunFree
  have hr : r.1.Inv := .fst_ite hs₁.fcReadEnd (.fst_ite hs₁.fcWriteEnd (.fst_ite hs₁.fcFeatureEnd (hs₁.setF _ _)))
  refine .ite hs₁ ?_
  split
  · exact hr
  · exact hr.entryEnd.showIdle

theorem State.Inv.fcCut {s : State} {o : FcOp} (h : s.Inv) : (fcCut s o).Inv := .ite h.nandSpoil (.ite h.spoilAll h)

theorem State.Inv.fcShort {s : State} {o : FcOp} {status : Nat} (h : s.Inv) : (fcShort s o status).Inv := by
  unfold Machine.fcShort
  extract_lets s₁
  have hs₁ : s₁.Inv := h.fcCut.lunFree
  split
  · exact hs₁
  · exact hs₁.entryEnd.showIdle

theorem State.Inv.fcReset {s : State} {n slot : Nat} (h : s.Inv) : (fcReset s n slot).Inv := (((h.same.setF _ _).setF _ _).setF _ _).emit _

theorem State.Inv.execFcLunTimeout {channel slot : Nat} {s : State} (h : s.Inv) : Res.Inv (execFcLunTimeout channel slot s) := by
  unfold Machine.execFcLunTimeout
  split
  · exact h.next
  · exact .ite h.next (((State.Inv.fcShort (.ite (h.reach _).same (h.reach _))).fcReset.countF _ _).logCrew _).next

theorem State.Inv.execLunResetTimeout {channel slot : Nat} {s : State} (h : s.Inv) : Res.Inv (execLunResetTimeout channel slot s) := by
  unfold Machine.execLunResetTimeout
  split
  · exact h.next
  · exact .ite h.next ((((h.reach _).lunFree.setF _ _).setF _ _).logCrew _).next

theorem State.Inv.lunRevive {s : State} {channel slot ready : Nat} (h : s.Inv) : (lunRevive s channel slot ready).Inv :=
  .ite h (.ite (((h.setF _ _).emit _).same.setF _ _) (((h.setF _ _).emit _).reach _).same)

theorem State.Inv.execFcRevive {core channel slot ready : Nat} {s : State} (h : s.Inv) : Res.Inv (execFcRevive core channel slot ready s) :=
  h.coreStore fun _ hs₁ => hs₁.lunRevive.next

theorem State.Inv.fcShortAll {status : Nat} {l : List FcOp} {s : State} (h : s.Inv) : (fcShortAll status l s).Inv := by
  induction l generalizing status s with
  | nil => exact h
  | cons x xs ih =>
    unfold Machine.fcShortAll
    exact ih h.fcShort

theorem State.Inv.execSequencerFault {channel : Nat} {s : State} (h : s.Inv) : Res.Inv (execSequencerFault channel s) :=
  .ite h.next ((h.fcShortAll.same.setF _ _).logCrew _).next

theorem State.Inv.execLunTempPoll {channel slot valid temp : Nat} {s : State} (h : s.Inv) : Res.Inv (execLunTempPoll channel slot valid temp s) :=
  .ite h.next (.ite ((h.setF _ _).setF _ _).next ((h.setF _ _).setF _ _).next)

theorem State.Inv.roundSet {sched round : Nat} {l : List Nat} {s : State} (h : s.Inv) : (roundSet sched round l s).Inv := by
  induction l generalizing sched round s with
  | nil => exact h
  | cons x xs ih =>
    unfold Machine.roundSet
    exact ih ((h.setF _ _).setF _ _)

theorem State.Inv.execFcRoundTick {s : State} (h : s.Inv) : Res.Inv (execFcRoundTick s) :=
  .ite h.next (.ite (h.reach _).same.same.roundSet.next (h.reach _).same.roundSet.next)

theorem State.Inv.fcLoad {s : State} {n : Nat} (h : s.Inv) : (fcLoad s n).Inv := (((((h.memWrite _ _).setF _ _).setF _ _).setF _ _).setF _ _).same

theorem State.Inv.fcLoadAll {l : List Nat} {s : State} (h : s.Inv) : (fcLoadAll l s).Inv := by
  induction l generalizing s with
  | nil => exact h
  | cons x xs ih =>
    unfold Machine.fcLoadAll
    exact ih h.fcLoad

theorem State.Inv.execChannelStart {s : State} (h : s.Inv) : Res.Inv (execChannelStart s) := .ite h.next h.same.fcLoadAll.next

theorem State.Inv.lunIdentify {s : State} {n slot : Nat} {t : FcTarget} (h : s.Inv) : (lunIdentify s n slot t).Inv :=
  (((((((h.setF _ _).setF _ _).setF _ _).setF _ _).setF _ _).setF _ _).setF _ _).setF _ _

theorem State.Inv.lunIdentifyAll {n : Nat} {ts : List FcTarget} {l : List Nat} {s : State} (h : s.Inv) : (lunIdentifyAll n ts l s).Inv := by
  induction l generalizing n ts s with
  | nil => exact h
  | cons x xs ih =>
    unfold Machine.lunIdentifyAll
    exact ih h.lunIdentify

theorem State.Inv.initFailed {l : List FcTarget} {s : State} (h : s.Inv) : (initFailed l s).Inv := by
  induction l generalizing s with
  | nil => exact h
  | cons x xs ih =>
    unfold Machine.initFailed
    exact ih (.ite (h.logCrew _) h)

theorem State.Inv.channelReady {s : State} {n : Nat} {ts : List FcTarget} (h : s.Inv) : (channelReady s n ts).Inv :=
  (((h.lunIdentifyAll.initFailed.setF _ _).same.setF _ _).setF _ _).setF _ _

/-! ### The form is kept: `Machine/MediaOps.lean` -/

theorem State.Inv.btSet {s : State} {bsn o n v : Nat} (h : s.Inv) : (btSet s bsn o n v).Inv := h.crewStore

theorem State.Inv.btMark {s : State} {bsn i : Nat} (h : s.Inv) : (btMark s bsn i).Inv := .ite h h.btSet

theorem State.Inv.btLive {s : State} {bsn : Nat} {up : Bool} (h : s.Inv) : (btLive s bsn up).Inv := .ite h.btSet h.same.btSet

theorem State.Inv.putHeap {s : State} {h : Nat} {es : List (Nat × Nat)} (hs : s.Inv) : (putHeap s h es).Inv := (hs.memWrite _ _).same.setF _ _

theorem State.Inv.heapPush {s : State} {h key value : Nat} (hs : s.Inv) : OnSome State.Inv (heapPush s h key value) :=
  .ite .none (.some hs.putHeap)

theorem State.Inv.heapPop {s : State} {h : Nat} (hs : s.Inv) : OnSome (fun p => p.2.Inv) (heapPop s h) := by
  unfold Machine.heapPop
  split
  · exact .none
  · exact .ite (.some hs.putHeap) .none

theorem State.Inv.programStride {s : State} {bsn page wseq : Nat} {planes : List (Bytes × Bytes)} (h : s.Inv) :
    (programStride s bsn page wseq planes).Inv :=
  .ite (((h.nandPut.countF _ _).countF _ _).countF _ _).same.btSet.btSet (((h.nandPut.countF _ _).countF _ _).countF _ _).same.btSet

theorem State.Inv.nextSeq {s : State} (h : s.Inv) : (nextSeq s).2.Inv := h.same

theorem State.Inv.programSummaries {bsn d n n1 : Nat} {s : State} (h : s.Inv) : (programSummaries bsn d n n1 s).Inv := by
  induction n generalizing bsn d n1 s with
  | zero => exact h
  | succ n ih =>
    unfold Machine.programSummaries
    exact ih h.nextSeq.programStride

theorem State.Inv.dropOpen {s : State} {bsn : Nat} (h : s.Inv) : (dropOpen s bsn).Inv := h.same

theorem State.Inv.markClosed {s : State} {bsn : Nat} (h : s.Inv) : (markClosed s bsn).Inv := h.dropOpen.btSet.btSet.btSet

theorem State.Inv.closeBlock {s : State} {bsn : Nat} (h : s.Inv) : (closeBlock s bsn).Inv := h.programSummaries.markClosed

theorem State.Inv.openStream {s : State} {l stream : Nat} (h : s.Inv) : OnSome (fun p => p.2.Inv) (openStream s l stream) := by
  unfold Machine.openStream
  split
  · exact .some h
  · split
    · exact .none
    next s₁ e₂ =>
      have hs₁ : s₁.Inv := h.heapPop _ e₂
      exact .some hs₁.btSet.btSet.btSet.btSet.same

theorem State.Inv.placeStride {s : State} {l stream : Nat} {h : Nat → Nat → List (Bytes × Bytes)} (hs : s.Inv) :
    OnSome (fun p => p.2.Inv) (placeStride s l stream h) := by
  unfold Machine.placeStride
  split
  · exact .none
  next s₁ e =>
    have hs₁ : s₁.Inv := hs.openStream _ e
    exact .some (.ite hs₁.nextSeq.programStride.closeBlock hs₁.nextSeq.programStride)

theorem State.Inv.putFrag {s : State} {f : FragItem} (h : s.Inv) : (putFrag s f).Inv := by
  unfold Machine.putFrag
  extract_lets s₁ _ s₂
  have hs₁ : s₁.Inv := by
    unfold s₁
    split
    · exact .ite h.btLive h
    · exact h
  have hs₂ : s₂.Inv := hs₁.same
  exact .ite hs₂.btLive hs₂

theorem State.Inv.dropFrag {s : State} {group stripe : Nat} (h : s.Inv) : (dropFrag s group stripe).Inv := by
  unfold Machine.dropFrag
  split
  · exact h
  · exact .ite h.same.btLive h.same

theorem State.Inv.addNote {s : State} {kind pos group ident run : Nat} (h : s.Inv) : (addNote s kind pos group ident run).Inv :=
  .ite (h.nextSeq.same.foldl _ _ fun _ _ hs₁ => hs₁.dropFrag) (.ite h.nextSeq.same.putFrag (.ite h.nextSeq.same.same h.nextSeq.same))

theorem State.Inv.programFrag {s : State} {copyTo : Option Nat} {f : FragItem} {unit : Bytes} (h : s.Inv) :
    OnSome State.Inv (programFrag s copyTo f unit) := by
  unfold Machine.programFrag
  split
  · exact .none
  · extract_lets
    split
    · exact .none
    next s₁ e =>
      have hs₁ : s₁.Inv := h.placeStride _ e
      exact .some (State.Inv.putFrag (.ite hs₁ hs₁.same))

theorem State.Inv.placeTwice {s : State} {h : Nat → PageHead} {body : Bytes} (hs : s.Inv) : OnSome (fun p => p.2.Inv) (placeTwice s h body) := by
  unfold Machine.placeTwice
  extract_lets
  split
  · exact .none
  · split
    · exact .none
    next s₁ e =>
      have hs₁ : s₁.Inv := hs.placeStride _ e
      extract_lets s₂
      have hs₂ : s₂.Inv := hs₁.btLive
      split
      · exact .some hs₂
      · split
        · exact .some hs₂
        next s₃ e₁ =>
          have hs₃ : s₃.Inv := hs₂.placeStride _ e₁
          exact .some hs₃.btLive

/-! ### The form is kept: `Machine/Palette.lean` -/

theorem State.Inv.putUnit {s : State} {a : AsuUnit} (h : s.Inv) : (putUnit s a).Inv := h.same

theorem State.Inv.putEnt {s : State} {a : AsuEnt} (h : s.Inv) : (putEnt s a).Inv := h.same

theorem State.Inv.copyEnt {s : State} {b src dst : Nat} (h : s.Inv) : (copyEnt s b src dst).Inv :=
  (h.foldl _ _ fun _ _ hs₁ => hs₁.putUnit).putEnt

theorem State.Inv.moveCopy {n : Nat} {s : State} (h : s.Inv) : (moveCopy n s).Inv := by
  induction n generalizing s with
  | zero => exact h
  | succ n ih =>
    unfold Machine.moveCopy
    split
    · exact h
    · exact .ite h (ih h.copyEnt.same)

theorem State.Inv.moveProgress {s : State} (h : s.Inv) : (moveProgress s).Inv := by
  unfold Machine.moveProgress
  split
  · exact h
  · exact h.fresh.moveCopy

theorem State.Inv.asuSearch {s : State} {key banks width : Nat} (h : s.Inv) : (asuSearch s key banks width).1.Inv := by
  unfold Machine.asuSearch
  refine .fst_ite h ?_
  extract_lets s₁ _ s₂ _ s₃
  have hs₁ : s₁.Inv := h.moveProgress
  have hs₂ : s₂.Inv := hs₁.countF _ _
  have hs₃ : s₃.Inv := hs₂.countF _ _
  split
  · exact hs₂
  · exact .ite (hs₃.countF _ _) hs₃

theorem State.Inv.asuUse {s : State} {user : Nat} {key : Bytes} {width : Nat} (h : s.Inv) : (asuUse s user key width).1.Inv := h.asuSearch

theorem State.Inv.putPort {s : State} {p : AsuPort} (h : s.Inv) : (putPort s p).Inv := h.same.setF _ _

theorem State.Inv.clearResult {s : State} {c : Nat} (h : s.Inv) : (clearResult s c).Inv :=
  ((((((h.setF _ _).setF _ _).setF _ _).setF _ _).setF _ _).setF _ _).setF _ _

theorem State.Inv.setPortBytes {s : State} {f : Nat → Nat → Fld} {c v : Nat} (h : s.Inv) : (setPortBytes s f c v).Inv :=
  h.foldl _ _ fun _ _ hs₁ => hs₁.setF _ _

theorem State.Inv.execAsuSearchGo {core width : Nat} {s : State} (h : s.Inv) : Res.Inv (execAsuSearchGo core width s) :=
  h.coreStore fun _ hs₁ => (hs₁.setF _ _).clearResult.putPort.next

theorem State.Inv.execAsuSearchResult {core : Nat} {s : State} (h : s.Inv) : Res.Inv (execAsuSearchResult core s) := by
  unfold Machine.execAsuSearchResult
  refine h.whileCore fun s₁ hs₁ => ?_
  split
  · exact hs₁.next
  · refine .ite hs₁.next ?_
    exact ((((((((((hs₁.asuSearch.setF _ _).setF _ _).setF _ _).setF _ _).setF _ _).setF _ _).setF _ _).setF _ _).setF _ _).setF _ _).putPort.next

theorem State.Inv.stepRefresh {s : State} {c : Nat} (h : s.Inv) : (stepRefresh s c).Inv := .ite ((h.setF _ _).setF _ _) h

theorem State.Inv.execAsuStepNext {core : Nat} {s : State} (h : s.Inv) : Res.Inv (execAsuStepNext core s) := by
  unfold Machine.execAsuStepNext
  refine h.coreStore fun s₁ hs₁ => ?_
  refine .ite hs₁.next ?_
  extract_lets _ s₂
  have hs₂ : s₂.Inv := hs₁.moveProgress.putPort
  split
  · exact (((hs₂.setF _ _).setF _ _).setF _ _).stepRefresh.next
  · exact ((hs₁.setF _ _).setF _ _).next

theorem State.Inv.touchBank {s : State} {b : Nat} (h : s.Inv) : (touchBank s b).Inv :=
  h.foldl _ _ fun _ _ hs₁ => State.Inv.stepRefresh (.ite (hs₁.setF _ _) hs₁)

theorem State.Inv.execAsuEntryWrite {core valid bank index : Nat} {s : State} (h : s.Inv) : Res.Inv (execAsuEntryWrite core valid bank index s) := by
  unfold Machine.execAsuEntryWrite
  refine h.coreStore fun s₁ hs₁ => ?_
  extract_lets s₂ s₃ _ _ _ _ _ _ s₄ s₅
  have hs₂ : s₂.Inv := (((hs₁.setF _ _).setF _ _).setF _ _).setF _ _
  have hs₃ : s₃.Inv := hs₂.setF _ _
  have hs₄ : s₄.Inv := hs₃.foldl _ _ fun s₆ _ hs₆ => hs₆.putUnit
  have hs₅ : s₅.Inv := hs₄.putEnt
  exact .ite ((hs₃.setF _ _).setF _ _).next (.ite ((hs₃.setF _ _).setF _ _).next (hs₅.setF _ _).touchBank.next)

theorem State.Inv.execAsuEntryRead {core bank index : Nat} {s : State} (h : s.Inv) : Res.Inv (execAsuEntryRead core bank index s) := by
  unfold Machine.execAsuEntryRead
  refine h.coreStore fun s₁ hs₁ => ?_
  extract_lets s₂ _ _ s₃ p q s₄ _ _ s₅ s₆
  have hs₂ : s₂.Inv := hs₁.moveProgress
  have hs₃ : s₃.Inv := ((hs₂.setF _ _).setF _ _).setF _ _
  have hp : p.2.Inv := hs₃.fresh
  have hq : q.2.Inv := hp.setPortBytes.setPortBytes.fresh
  have hs₄ : s₄.Inv := (hq.setF _ _).setF _ _
  have hs₅ : s₅.Inv := hs₃.foldl _ _ fun s₇ _ hs₇ => (hs₇.setF _ _).setF _ _
  have hs₆ : s₆.Inv := (hs₅.setF _ _).setF _ _
  exact .ite ((hs₄.setF _ _).setF _ _).next ((hs₆.setF _ _).setF _ _).next

theorem State.Inv.execAsuMove {core dir bank last first : Nat} {s : State} (h : s.Inv) : Res.Inv (execAsuMove core dir bank last first s) := by
  unfold Machine.execAsuMove
  refine h.coreStore fun s₁ hs₁ => ?_
  extract_lets s₂ _ _ _ _ _ s₃
  have hs₂ : s₂.Inv := (((hs₁.setF _ _).setF _ _).setF _ _).setF _ _
  have hs₃ : s₃.Inv := hs₂.same
  exact .ite (hs₂.setF _ _).next ((hs₃.setF _ _).setF _ _).touchBank.next

theorem State.Inv.execAsuMoveEnd {s : State} (h : s.Inv) : Res.Inv (execAsuMoveEnd s) := by
  unfold Machine.execAsuMoveEnd
  refine h.whileCore fun s₁ hs₁ => ?_
  split
  · exact hs₁.next
  · exact ((((hs₁.moveCopy.putEnt.same.setF _ _).setF _ _).setF _ _).countF _ _).touchBank.next

theorem State.Inv.execAsuBankCfgWrite {core bank value : Nat} {s : State} (h : s.Inv) : Res.Inv (execAsuBankCfgWrite core bank value s) :=
  h.coreStore fun _ hs₁ => .ite .fault (.ite .fault (.ite ((hs₁.setF _ _).setF _ _).same.touchBank.next ((hs₁.setF _ _).setF _ _).next))

theorem State.Inv.execAsuSearch {queue : Nat} {s : State} (h : s.Inv) : Res.Inv (execAsuSearch queue s) := by
  unfold Machine.execAsuSearch
  refine h.whileCore fun s₁ hs₁ => ?_
  split
  · exact hs₁.next
  · exact .ite .fault (.ite hs₁.entryEnd.next (.ite hs₁.next hs₁.asuSearch.entryEnd.next))

/-! ### The form is kept: `Machine/Logbook.lean` -/

theorem State.Inv.execLogSubmit {core code : Nat} {s : State} (h : s.Inv) : Res.Inv (execLogSubmit core code s) :=
  h.coreRuns fun _ hs₁ => (((((hs₁.logSubmit _ _ _ _ _ _).setF _ _).setF _ _).setF _ _).setF _ _).next

theorem State.Inv.setWords {s : State} {f : Nat → Fld} {b : Bytes} (h : s.Inv) : (setWords s f b).Inv := h.foldl _ _ fun _ _ hs₁ => hs₁.setF _ _

theorem State.Inv.execLogRdGo {core : Nat} {s : State} (h : s.Inv) : Res.Inv (execLogRdGo core s) :=
  h.coreRuns fun _ hs₁ => (((hs₁.setWords.setF _ _).setF _ _).setF _ _).next

theorem State.Inv.putControl {s : State} {low : Nat} (h : s.Inv) : (putControl s low).Inv := h.same

theorem State.Inv.programRec {s : State} {r : LogRec} (h : s.Inv) : (programRec s r).Inv :=
  .ite (.ite (h.same.setF _ _) h.same) (.ite (h.same.setF _ _) h.same)

theorem State.Inv.execLogRecordProgram {s : State} (h : s.Inv) : Res.Inv (execLogRecordProgram s) := by
  unfold Machine.execLogRecordProgram
  split
  · exact h.next
  · exact h.same.programRec.next

theorem State.Inv.programAll {l : List (Nat × LogRec)} {s : State} (h : s.Inv) : (programAll l s).Inv := by
  induction l generalizing s with
  | nil => exact h
  | cons x xs ih =>
    unfold Machine.programAll
    exact ih h.programRec

theorem State.Inv.programBuffer {s : State} (h : s.Inv) : (programBuffer s).Inv := h.same.programAll

theorem State.Inv.execLogClearUptoWrite {upto : Nat} {s : State} (h : s.Inv) : Res.Inv (execLogClearUptoWrite upto s) := by
  unfold Machine.execLogClearUptoWrite
  refine .ite h.next ?_
  extract_lets _ _ s₁ p x _ s₂ s₃
  have hs₁ : s₁.Inv := h.setF _ _
  have hp : p.1.Inv := hs₁.logSubmit _ _ _ _ _ _
  have hx : x.Inv := hp
  have hs₂ : s₂.Inv := hx.same.programBuffer
  have hs₃ : s₃.Inv := hs₂.putControl.setF _ _
  split
  · exact (hs₃.same.setF _ _).next
  · exact hp.next

theorem State.Inv.execLogTokenRefill {code : Nat} {s : State} (h : s.Inv) : Res.Inv (execLogTokenRefill code s) := by
  unfold Machine.execLogTokenRefill
  split
  · exact h.next
  · extract_lets
    split
    · exact .ite h.next ((h.reach _).putBucket _).next
    · exact h.next

/-- The strobe splits the register store by key: both parts list their keys in rising order still. -/
theorem State.Inv.execSnapStrobe {core : Nat} {s : State} (h : s.Inv) : Res.Inv (execSnapStrobe core s) := by
  refine h.coreRuns fun t ht => State.Inv.next ?_
  refine ((((State.Inv.bumpF ?_ _ _).setF _ _).setF _ _).setF _ _).setF _ _
  exact ⟨kvWf_filter ht.regsWf _, kvWf_filter ht.regsWf _, ht.memWf, ht.vaultWf⟩

theorem State.Inv.pentTrigger {s : State} {cause fatal : Nat} (h : s.Inv) : (pentTrigger s cause fatal).Inv := by
  unfold Machine.pentTrigger
  split
  · exact h.same
  · exact .ite (h.same.setF _ _) ((h.setF _ _).logEv _ _ _ _)

theorem State.Inv.execPentSnapshotEnd {s : State} (h : s.Inv) : Res.Inv (execPentSnapshotEnd s) := by
  unfold Machine.execPentSnapshotEnd
  split
  · exact h.next
  · exact ((((h.same.setF _ _).setF _ _).setF _ _).setF _ _).next

theorem State.Inv.execPentSlotErase {s : State} (h : s.Inv) : Res.Inv (execPentSlotErase s) := h.same.next

/-! ### The form is kept: `Machine/PowerOps.lean` -/

theorem State.Inv.counterRecord {s : State} (h : s.Inv) : (counterRecord s).Inv := h.same

theorem State.Inv.wakeDevice {s : State} {cause pattern : Nat} (h : s.Inv) : (wakeDevice s cause pattern).Inv :=
  (((h.setF _ _).setF _ _).logEv _ _ _ _).same

theorem State.Inv.wakeEvent {s : State} {cause pattern : Nat} (h : s.Inv) : (wakeEvent s cause pattern).Inv := by
  unfold Machine.wakeEvent
  split
  · exact .ite h (h.same.setF _ _)
  · exact .ite h (h.same.setF _ _)
  · exact .ite h.wakeDevice h

/-! ### The form is kept: `Machine/Hte.lean` -/

theorem State.Inv.sessPut {s : State} {id o n v : Nat} (h : s.Inv) : (sessPut s id o n v).Inv := h.memWrite _ _

theorem State.Inv.putSess {s : State} {s1 : Sess} (h : s.Inv) : (putSess s s1).Inv := h.same

theorem State.Inv.modSess {s : State} {id : Nat} {f : Sess → Sess} (h : s.Inv) : (modSess s id f).Inv := by
  unfold Machine.modSess
  split
  · exact h.putSess
  · exact h

theorem State.Inv.postExc {s : State} {e : Bytes} (h : s.Inv) : (postExc s e).Inv := .ite h.same (.ite h.wqPost h.same)

theorem State.Inv.excDrain {l : List Bytes} {s : State} (h : s.Inv) : (excDrain l s).Inv := by
  induction l generalizing s with
  | nil => exact h
  | cons x xs ih =>
    unfold Machine.excDrain
    exact .ite (ih (.fst_ite h.wqPost h)) h.same

theorem State.Inv.sessFree {s : State} {id : Nat} (h : s.Inv) : (sessFree s id).Inv :=
  .ite (State.Inv.memWrite (.ite (h.postExc.setF _ _) h.postExc) _ _).same h

theorem State.Inv.putCmd {s : State} {c : Cmd} (h : s.Inv) : (putCmd s c).Inv := h.same

theorem State.Inv.endCmd {s : State} {c : Cmd} (h : s.Inv) : (endCmd s c).Inv := (h.same.sessPut.setF _ _).sessFree

theorem State.Inv.closeCmds {l : List Cmd} {s : State} (h : s.Inv) : (closeCmds l s).Inv := by
  induction l generalizing s with
  | nil => exact h
  | cons x xs ih =>
    unfold Machine.closeCmds
    exact ih (.ite h.endCmd h.putCmd)

theorem State.Inv.hteDone {s : State} {t : Taken} {hstatus : Nat} (h : s.Inv) : (hteDone s t hstatus).Inv := h.entryEnd

theorem State.Inv.endReads {s : State} {id hstatus : Nat} (h : s.Inv) : (endReads s id hstatus).Inv := by
  unfold Machine.endReads
  extract_lets _ s₁
  have hs₁ : s₁.Inv := by
    unfold s₁
    refine h.foldl _ _ fun s₂ r hs₂ => ?_
    split
    · exact hs₂.hteDone
    · exact hs₂
  exact hs₁.modSess

theorem State.Inv.sessClose {s : State} {id cause : Nat} (h : s.Inv) : (sessClose s id cause).Inv :=
  .ite h.endReads.sessPut.modSess.closeCmds.sessFree h

theorem State.Inv.sendDreq {s : State} {id : Nat} (h : s.Inv) : (sendDreq s id).Inv := h.emit _

theorem State.Inv.sessDrop {s : State} {id cause : Nat} (h : s.Inv) : (sessDrop s id cause).Inv := .ite h.sessClose.sendDreq h

theorem State.Inv.countStatus {s : State} {status : Nat} (h : s.Inv) : (countStatus s status).Inv :=
  .ite (h.countF _ _) (.ite (h.countF _ _) (.ite (h.countF _ _) (.ite (h.countF _ _) h)))

theorem State.Inv.refuse {s : State} {id : Nat} {msg : Bytes} (h : s.Inv) : (refuse s id msg).Inv := (h.emit _).countStatus

theorem State.Inv.hostSend {s : State} {id : Nat} {msg : Bytes} (h : s.Inv) : (hostSend s id msg).Inv := .ite h.refuse h

theorem State.Inv.finish {s : State} {c : Cmd} {msg : Bytes} (h : s.Inv) : (finish s c msg).Inv := .ite h.putCmd (.ite h.endCmd h.hostSend.endCmd)

theorem State.Inv.answer {s : State} {c : Cmd} {status r0 r1 : Nat} (h : s.Inv) : (answer s c status r0 r1).Inv := h.finish

theorem State.Inv.answerData {s : State} {c : Cmd} {status r0 r1 : Nat} {d : Bytes} (h : s.Inv) : (answerData s c status r0 r1 d).Inv :=
  .ite h.finish (.ite (State.Inv.finish (.ite h (h.emit _))) h.finish)

theorem State.Inv.conflict {s : State} {c : Cmd} {status gstate hint : Nat} (h : s.Inv) : (conflict s c status gstate hint).Inv := h.answer

theorem State.Inv.onCmd {s : State} {i op : Nat} {run : State → Cmd → Res} (h : s.Inv) (hrun : ∀ t x, t.Inv → Res.Inv (run t x)) :
    Res.Inv (onCmd s i op run) := by
  unfold Machine.onCmd
  refine h.whileCore fun s₁ hs₁ => ?_
  split
  · exact .ite (hrun _ _ hs₁) hs₁.next
  · exact hs₁.next

/-! ### The form is kept: `Machine/Index.lean` -/

theorem State.Inv.putSliceWord {s : State} {n w : Nat} (h : s.Inv) : (putSliceWord s n w).Inv := h.crewStore

theorem State.Inv.setActing {s : State} {n : Nat} {on : Bool} (h : s.Inv) : (setActing s n on).Inv :=
  .ite (.ite h.same h) (State.Inv.putSliceWord (.ite h.same h))

theorem State.Inv.putDir {s : State} {rid n bucket st busy count holds slot : Nat} (h : s.Inv) :
    (putDir s rid n bucket st busy count holds slot).Inv :=
  h.storeAs

theorem State.Inv.storeBucket {s : State} {rid n bucket slot st : Nat} {b : Bytes} (h : s.Inv) : (storeBucket s rid n bucket slot st b).Inv :=
  h.storeAs.putDir

theorem State.Inv.bucketGet {s : State} {n bucket : Nat} (h : s.Inv) : OnSome (fun p => p.2.Inv) (bucketGet s n bucket) := by
  unfold Machine.bucketGet
  refine .ite .none ?_
  extract_lets t
  have ht : t.Inv := h.touch
  refine .ite (.some ht.touch) ?_
  refine .ite ?_ (.some ht)
  split
  · exact .some ht.storeBucket
  · exact .none

theorem State.Inv.bucketOpen {s : State} {n bucket : Nat} (h : s.Inv) : OnSome (fun p => p.2.Inv) (bucketOpen s n bucket) := by
  unfold Machine.bucketOpen
  split
  · exact .none
  next t₁ e =>
    have ht₁ : t₁.Inv := h.bucketGet _ e
    exact .ite (.map_any fun _ => ht₁.storeBucket) (.some ht₁)

theorem State.Inv.changeBucket {s : State} {c : Bytes} (h : s.Inv) : OnSome (fun p => p.2.Inv) (changeBucket s c) := by
  unfold Machine.changeBucket
  split
  · exact .none
  next t₁ e =>
    have ht₁ : t₁.Inv := h.bucketOpen _ e
    split
    · exact .none
    · exact .some ht₁.storeBucket

theorem State.Inv.noteDelta {s : State} {c : Bytes} (h : s.Inv) : (noteDelta s c).Inv := .ite h.same h

theorem State.Inv.notePurge {s : State} {c : Bytes} (h : s.Inv) : (notePurge s c).Inv := h.same

theorem State.Inv.noteHold {s : State} {c : Bytes} (h : s.Inv) : (noteHold s c).Inv := .ite h.same h

theorem State.Inv.changeAll {l : List Bytes} {s : State} (h : s.Inv) : (changeAll l s).1.Inv := by
  induction l generalizing s with
  | nil => exact h
  | cons x xs ih =>
    unfold Machine.changeAll
    refine .fst_ite (ih h.notePurge) ?_
    split
    next s₁ e =>
      have hs₁ : s₁.Inv := h.changeBucket _ e
      exact ih hs₁.noteDelta.noteHold
    · exact ih (h.logCrew _)

theorem State.Inv.putSlice {s : State} {s1 : Slice} (h : s.Inv) : (putSlice s s1).Inv := h.same

/-! ### The form is kept: `Machine/Groups.lean` -/

theorem State.Inv.peerEmit {s : State} {id : Nat} {msg : Bytes} (h : s.Inv) : (peerEmit s id msg).Inv := by
  unfold Machine.peerEmit
  split
  · exact h
  · exact .ite (h.putSess.emit _) (h.emit _)

theorem State.Inv.putGroup {s : State} {g : Group} (h : s.Inv) : (putGroup s g).Inv := h.same

theorem State.Inv.wakeSeat {s : State} {hull : Nat} (h : s.Inv) : (wakeSeat s hull).Inv := .ite h h.same

theorem State.Inv.peerRequest {s : State} {hull : Nat} {h : PeerHdr} {body : Bytes} (hs : s.Inv) : (peerRequest s hull h body).1.Inv :=
  (State.Inv.same (.ite hs.wakeSeat hs)).peerEmit

theorem State.Inv.dropRequests {s : State} {p : PeerReq → Bool} (h : s.Inv) : (dropRequests s p).Inv := h.same

theorem State.Inv.resendRequest {s : State} {r : PeerReq} (h : s.Inv) : (resendRequest s r).Inv := h.same.peerEmit

theorem State.Inv.peerReply {s : State} {id : Nat} {req : Bytes} {status arg0 arg1 : Nat} {body : Bytes} {void : optParam Bool false}
    (h : s.Inv) : (peerReply s id req status arg0 arg1 body void).Inv :=
  .ite h h.peerEmit

theorem State.Inv.tellHulls {h : PeerHdr} {body : Bytes} {l : List Nat} {s : State} (hs : s.Inv) : (tellHulls h body l s).Inv := by
  induction l generalizing h body s with
  | nil => exact hs
  | cons x xs ih =>
    unfold Machine.tellHulls
    split
    · exact ih hs.peerEmit
    · exact ih hs

theorem State.Inv.sendStatusAs {s : State} {id dev : Nat} (h : s.Inv) : (sendStatusAs s id dev).Inv := by
  unfold Machine.sendStatusAs
  split
  · exact h
  · exact h.putGroup.tellHulls

theorem State.Inv.sendStatus {s : State} {id : Nat} (h : s.Inv) : (sendStatus s id).Inv := h.sendStatusAs

theorem State.Inv.tellChanged {s : State} (h : s.Inv) : (tellChanged s).Inv := h.foldl _ _ fun _ _ hs₁ => hs₁.sendStatus

theorem State.Inv.sendAllStatus {s : State} (h : s.Inv) : (sendAllStatus s).Inv := h.foldl _ _ fun _ _ hs₁ => hs₁.sendStatus

theorem State.Inv.setGState {s : State} {id st : Nat} (h : s.Inv) : (setGState s id st).Inv := by
  unfold Machine.setGState
  split
  · exact h
  · exact .ite h (h.putGroup.sendStatus.logCrew _)

theorem State.Inv.putFetch {s : State} {f : Fetch} (h : s.Inv) : (putFetch s f).Inv := h.same

theorem State.Inv.lostMarker {s : State} {pos group stripe gen : Nat} (h : s.Inv) : (lostMarker s pos group stripe gen).Inv := h.addNote.same

theorem State.Inv.markLost {s : State} {id : Nat} {l : List (Nat × Nat)} (h : s.Inv) : (markLost s id l).Inv := by
  induction l generalizing s id with
  | nil => exact h
  | cons x xs ih =>
    unfold Machine.markLost
    split
    · exact h
    · extract_lets s₁ _ _ s₂ s₃
      have hs₁ : s₁.Inv := h.putGroup
      have hs₂ : s₂.Inv := hs₁.foldl _ _ fun s₄ _ hs₄ => hs₄.peerRequest
      have hs₃ : s₃.Inv := .ite hs₂.lostMarker hs₂
      exact ih (hs₃.logCrew _)

theorem State.Inv.probeStripe {s : State} {id : Nat} {st : Nat × Nat} (h : s.Inv) : (probeStripe s id st).Inv := by
  unfold Machine.probeStripe
  split
  · exact h.foldl _ _ fun s₁ _ hs₁ => hs₁.peerRequest.putFetch
  · exact h

theorem State.Inv.compareRows {s : State} {id : Nat} (h : s.Inv) : (compareRows s id).Inv := by
  unfold Machine.compareRows
  split
  · exact h
  · exact .ite (h.setGState.markLost.foldl _ _ fun s₁ _ hs₁ => hs₁.probeStripe) h

theorem State.Inv.afterDegraded {s : State} {id : Nat} (h : s.Inv) : (afterDegraded s id).Inv := by
  unfold Machine.afterDegraded
  split
  · exact h
  · exact .ite h (.ite h.setGState (.ite h.setGState h))

theorem State.Inv.soloCheck {s : State} {id : Nat} (h : s.Inv) : (soloCheck s id).Inv := by
  unfold Machine.soloCheck
  split
  · exact h
  · exact .ite (h.putGroup.logCrew _) h.putGroup

theorem State.Inv.orphanCheck {s : State} {id before : Nat} (h : s.Inv) : (orphanCheck s id before).Inv := by
  unfold Machine.orphanCheck
  split
  · exact h
  · exact .ite (h.logCrew _) h

theorem State.Inv.replan {s : State} {id : Nat} (h : s.Inv) : (replan s id).Inv := by
  unfold Machine.replan
  split
  · exact h
  · exact .ite (h.logCrew _) h

theorem State.Inv.declareLost {s : State} {id seat : Nat} (h : s.Inv) : (declareLost s id seat).Inv := by
  unfold Machine.declareLost
  split
  · exact h
  · refine .ite h ?_
    extract_lets _ s₁ s₂ s₃ s₄ s₅
    have hs₁ : s₁.Inv := h.putGroup
    have hs₂ : s₂.Inv := .ite (hs₁.putGroup.logCrew _) hs₁
    have hs₃ : s₃.Inv := hs₂.sendStatus.logCrew _
    have hs₄ : s₄.Inv := .ite (hs₃.logCrew _) hs₃
    have hs₅ : s₅.Inv := hs₄.replan
    exact hs₅.compareRows.soloCheck.orphanCheck

theorem State.Inv.tryDeclare {s : State} {id seat : Nat} (h : s.Inv) : (tryDeclare s id seat).Inv := by
  unfold Machine.tryDeclare
  split
  · exact h
  · exact .ite h.declareLost h

theorem State.Inv.declareSelf {s : State} (h : s.Inv) : (declareSelf s).Inv := h.foldl _ _ fun _ _ hs₁ => hs₁.declareLost

theorem State.Inv.enterReadOnly {s : State} {reason : Nat} (h : s.Inv) : (enterReadOnly s reason).Inv :=
  .ite h.same (h.same.declareSelf.same.logCrew _).sendAllStatus

theorem State.Inv.raiseView {s : State} (h : s.Inv) : (raiseView s).Inv := h.same

theorem State.Inv.addKept {s : State} {id : Nat} {k : KeptStripe} (h : s.Inv) : (addKept s id k).Inv := by
  unfold Machine.addKept
  split
  · exact h.putGroup
  · exact h

theorem State.Inv.dropKept {s : State} {id stripe : Nat} (h : s.Inv) : (dropKept s id stripe).Inv := by
  unfold Machine.dropKept
  split
  · exact h.putGroup
  · exact h

/-! ### The form is kept: `Machine/JournalOps.lean` -/

theorem State.Inv.tailMove {n : Nat} {s : State} (h : s.Inv) : (tailMove n s).Inv := by
  induction n generalizing s with
  | zero => exact h
  | succ n ih =>
    unfold Machine.tailMove
    refine .ite h ?_
    split
    · exact .ite (ih (h.setF _ _)) h
    · exact h

theorem State.Inv.tailStep {s : State} (h : s.Inv) : (tailStep s).Inv := h.tailMove

theorem State.Inv.pjRetire {s : State} {off : Nat} (h : s.Inv) : (pjRetire s off).Inv := h.crewStore.tailStep

theorem State.Inv.ringWritten {s : State} (h : s.Inv) : (ringWritten s).Inv := h.same_pj.tailStep

theorem State.Inv.nextRseq {s : State} (h : s.Inv) : (nextRseq s).2.Inv := h.same_pj

theorem State.Inv.putRecord {s : State} {b : Bytes} (h : s.Inv) : (putRecord s b).Inv := h.storeAs.setF _ _

theorem State.Inv.padRecord {s : State} {n : Nat} (h : s.Inv) : (padRecord s n).Inv := .ite h h.nextRseq.putRecord.tailStep

theorem State.Inv.pjAppend {s : State} {kind rflags group source intent : Nat} {body : Bytes} (h : s.Inv) :
    OnSome State.Inv (pjAppend s kind rflags group source intent body) :=
  .ite .none (.some h.padRecord.nextRseq.putRecord)

theorem State.Inv.pjWrite {s : State} {kind group intent : Nat} {body : Bytes} (h : s.Inv) : (pjWrite s kind group intent body).Inv :=
  OnSome.getD h.pjAppend h

theorem State.Inv.journalFragment {s : State} {group stripe pos gen k m ucrc keeper intent : Nat} {void : Bool} {unit : Bytes} (h : s.Inv) :
    OnSome State.Inv (journalFragment s group stripe pos gen k m ucrc keeper intent void unit) := by
  unfold Machine.journalFragment
  refine .ite h.pjAppend ?_
  split
  · exact .ite .none h.crewStore.pjAppend
  · exact .none

theorem State.Inv.settleFragments {s : State} (h : s.Inv) : (settleFragments s).Inv := h.foldl _ _ fun _ _ hs₁ => hs₁.pjRetire

theorem State.Inv.seatOutcome {s : State} {group stripe run result : Nat} (h : s.Inv) : OnSome State.Inv (seatOutcome s group stripe run result) :=
  .ite (.some h) (.map h.pjAppend fun _ hs₁ => State.Inv.settleFragments (.ite hs₁.addNote hs₁))

theorem State.Inv.putChan2 {s : State} {c : PairCh} (h : s.Inv) : (putChan2 s c).Inv := h.same_pj

theorem State.Inv.pairOut {s : State} {c : PairCh} {f : Bytes} (h : s.Inv) : (pairOut s c f).Inv := by
  unfold Machine.pairOut
  split
  · exact ((h.emit _).countF _ _).countF _ _
  · exact h.emit _
  · exact h

theorem State.Inv.pairFlush {s : State} {c : PairCh} {l : List (Nat × Nat × Bytes × Bytes)} (h : s.Inv) : (pairFlush s c l).1.Inv := by
  induction l generalizing s c with
  | nil => exact h
  | cons x xs ih =>
    unfold Machine.pairFlush
    split
    · exact h
    · exact .fst_ite (ih h.pairOut) (ih h)

theorem State.Inv.pairPush {s : State} {hull : Nat} (h : s.Inv) : (pairPush s hull).Inv := by
  unfold Machine.pairPush
  split
  · exact h
  · exact h.pairFlush.putChan2

theorem State.Inv.pairChannel {s : State} {hull : Nat} (h : s.Inv) : (pairChannel s hull).Inv := .ite h h.same_pj

theorem State.Inv.pairSend {s : State} {hull ptype : Nat} {body : Bytes} (h : s.Inv) : (pairSend s hull ptype body).1.Inv := by
  unfold Machine.pairSend
  extract_lets s₁
  have hs₁ : s₁.Inv := h.pairChannel
  split
  · exact hs₁
  · exact hs₁.putChan2.pairPush

theorem State.Inv.pairSendAll {ptype : Nat} {body : Bytes} {l : List Nat} {s : State} (h : s.Inv) : (pairSendAll ptype body l s).1.Inv := by
  induction l generalizing ptype body s with
  | nil => exact h
  | cons x xs ih =>
    unfold Machine.pairSendAll
    exact ih h.pairSend

theorem State.Inv.mirrorLast {ptype : Nat} {hulls : List Nat} {s : State} (h : s.Inv) : (mirrorLast ptype hulls s).1.Inv := by
  unfold Machine.mirrorLast
  extract_lets s₁
  have hs₁ : s₁.Inv := by
    unfold s₁
    refine .ite h ?_
    split
    · exact h.touch
    · exact h
  exact hs₁.pairSendAll

theorem State.Inv.pairAck {s : State} {c : PairCh} (h : s.Inv) : (pairAck s c).Inv := by
  unfold Machine.pairAck
  split
  · exact h
  · exact .ite h h.pairOut.putChan2

/-! ### The form is kept: `Machine/Stripes.lean` -/

theorem State.Inv.takeSerials {s : State} {g : Group} {n : Nat} (h : s.Inv) : OnSome (fun p => p.2.Inv) (takeSerials s g n) :=
  .ite .none (.some h.putGroup)

theorem State.Inv.putIntent {s : State} {i : Intent} (h : s.Inv) : (putIntent s i).Inv := h.same_pj

theorem State.Inv.ownUnit {s : State} {i : Intent} {u : IntentUnit} (h : s.Inv) : (ownUnit s i u).1.Inv := by
  unfold Machine.ownUnit
  extract_lets
  refine .fst_ite h ?_
  split
  next e =>
    exact h.journalFragment _ e
  · exact h

theorem State.Inv.fragWrite {s : State} {i : Intent} {u : IntentUnit} (h : s.Inv) : (fragWrite s i u).Inv := h.peerRequest

theorem State.Inv.sendUnits {i : Intent} {own : Nat} {first : Bool} {l : List IntentUnit} {s : State} (h : s.Inv) :
    (sendUnits i own first l s).1.Inv := by
  induction l generalizing i own first s with
  | nil => exact h
  | cons x xs ih =>
    unfold Machine.sendUnits
    exact ih (.fst_ite h (.fst_ite h.ownUnit (.fst_ite h.fragWrite h)))

theorem State.Inv.ownOutcome {s : State} {i : Intent} {seats : List Nat} (h : s.Inv) : (ownOutcome s i seats).1.Inv := by
  unfold Machine.ownOutcome
  extract_lets
  refine .fst_ite h ?_
  split
  next e =>
    exact h.seatOutcome _ e
  · exact h

theorem State.Inv.sendOutcome {s : State} {i : Intent} (h : s.Inv) : (sendOutcome s i).1.Inv :=
  (h.foldl _ _ fun _ _ hs₁ => hs₁.peerRequest).ownOutcome

theorem State.Inv.settleIndexRecords {s : State} (h : s.Inv) : (settleIndexRecords s).Inv := h.foldl _ _ fun _ _ hs₁ => hs₁.pjRetire

theorem State.Inv.retireIntent {s : State} {group stripe : Nat} (h : s.Inv) : (retireIntent s group stripe).Inv :=
  (h.foldl _ _ fun _ _ hs₁ => hs₁.pjRetire).settleIndexRecords

theorem State.Inv.keptDecided {s : State} {group stripe run result : Nat} (h : s.Inv) : (keptDecided s group stripe run result).Inv := by
  unfold Machine.keptDecided
  split
  · exact h.putGroup
  · exact h

theorem State.Inv.writeOutcome {s : State} {i : Intent} {result : Nat} (h : s.Inv) : (writeOutcome s i result).Inv := by
  unfold Machine.writeOutcome
  extract_lets
  split
  · exact h.putIntent
  next s₁ e =>
    have hs₁ : s₁.Inv := h.pjAppend _ e
    exact (hs₁.mirrorLast.foldl _ _ fun s₂ _ hs₂ => hs₂.pjRetire).keptDecided.putIntent

theorem State.Inv.applyIntent {s : State} {i : Intent} (h : s.Inv) : (applyIntent s i).1.Inv := h.changeAll

theorem State.Inv.answerWaiting {all : Bool} {l : List Cmd} {s : State} (h : s.Inv) : (answerWaiting all l s).Inv := by
  induction l generalizing all s with
  | nil => exact h
  | cons x xs ih =>
    unfold Machine.answerWaiting
    split
    · exact ih h
    · exact ih h.finish

theorem State.Inv.intentStep {s : State} {i : Intent} (h : s.Inv) : (intentStep s i).Inv := by
  unfold Machine.intentStep
  extract_lets _ r r₁ _ s₁ _ a _ p s₂ _ s₃ r₂ r₃ _ s₄ _ s₅
  have hr : r.1.Inv := h.sendUnits
  have hr₁ : r₁.1.Inv := h.sendUnits
  have hs₁ : s₁.Inv := hr₁.putIntent
  have ha : a.1.Inv := hs₁.applyIntent
  have hp : p.1.Inv := .fst_ite ha.putIntent hs₁
  have hs₂ : s₂.Inv := hp
  have hs₃ : s₃.Inv := hs₂.answerWaiting
  have hr₂ : r₂.1.Inv := h.sendOutcome
  have hr₃ : r₃.1.Inv := h.ownOutcome
  have hs₄ : s₄.Inv := hr₃.putIntent
  have hs₅ : s₅.Inv := hs₄.same_pj.retireIntent
  refine .ite h ?_
  refine .ite h.writeOutcome ?_
  refine .ite (.ite hr.putIntent h) ?_
  exact .ite (.ite h (.ite (.ite hs₃.writeOutcome hs₃) hs₂)) (.ite (.ite hr₂.putIntent h) (.ite (.ite hs₅.pairSendAll hs₄) h))

theorem State.Inv.advanceIntent {s : State} {group stripe : Nat} (h : s.Inv) : (advanceIntent s group stripe).Inv := by
  unfold Machine.advanceIntent
  refine h.foldl _ _ fun s₁ _ hs₁ => ?_
  split
  · exact hs₁.intentStep
  · exact hs₁

theorem State.Inv.openIntent {s : State} {i : Intent} (h : s.Inv) : OnSome State.Inv (openIntent s i) := by
  unfold Machine.openIntent
  extract_lets
  split
  · exact .none
  next s₁ e =>
    have hs₁ : s₁.Inv := h.pjAppend _ e
    exact .some (hs₁.mirrorLast.foldl _ _ fun s₂ _ hs₂ => hs₂.addKept).same_pj.advanceIntent

theorem State.Inv.putOpen {s : State} {o : OpenStripe} (h : s.Inv) : (putOpen s o).Inv := h.same_pj

theorem State.Inv.codeUnits {s : State} {units : List Nat} (h : s.Inv) : (codeUnits s units).Inv := h.foldl _ _ fun _ _ hs₁ => hs₁.touch.touch

theorem State.Inv.sealNow {s : State} {o : OpenStripe} {clear : Bool} (h : s.Inv) : (sealNow s o clear).Inv := by
  unfold Machine.sealNow
  extract_lets _ _ s₁
  have hs₁ : s₁.Inv := .ite h h.codeUnits
  split
  · exact h
  · refine .ite h ?_
    extract_lets
    split
    next s₂ e =>
      have hs₂ : s₂.Inv := hs₁.openIntent _ e
      exact hs₂.same_pj
    · exact hs₁

theorem State.Inv.sealStripe {s : State} {o : OpenStripe} (h : s.Inv) : (sealStripe s o).Inv := h.putOpen.sealNow

theorem State.Inv.openPacked {s : State} {g : Group} {nsid sealUs keyGen : Nat} (h : s.Inv) :
    OnSome (fun p => p.2.Inv) (openPacked s g nsid sealUs keyGen) := by
  unfold Machine.openPacked
  split
  · exact .none
  · split
    · split
      · exact .none
      next s₁ e =>
        have hs₁ : s₁.Inv := h.takeSerials _ e
        exact .some (hs₁.foldl _ _ fun s₂ _ hs₂ => hs₂.storeAs).pjWrite.mirrorLast.same_pj
    · exact .none

theorem State.Inv.appendFrames {o : OpenStripe} {u n n1 : Nat} {b : Bytes} {s : State} (h : s.Inv) : (appendFrames o u n n1 b s).1.Inv := by
  induction n generalizing o u n1 b s with
  | zero => exact h
  | succ n ih =>
    unfold Machine.appendFrames
    exact .fst_ite h (ih h.pairSendAll)

theorem State.Inv.writeOpen {s : State} {o : OpenStripe} {u off : Nat} {b : Bytes} (h : s.Inv) : (writeOpen s o u off b).1.Inv :=
  h.storeAs.appendFrames.putOpen

theorem State.Inv.packInto {n : Nat} {s : State} {n1 n2 n3 n4 n5 n6 : Nat} {b : Bytes} (h : s.Inv) :
    OnSome (fun p => p.2.Inv) (packInto n s n1 n2 n3 n4 n5 n6 b) := by
  induction n generalizing s n1 n2 n3 n4 n5 n6 b with
  | zero =>
    unfold Machine.packInto
    exact .none
  | succ n ih =>
    unfold Machine.packInto
    split
    · exact .none
    · split
      · split
        · exact .none
        next s₁ e =>
          have hs₁ : s₁.Inv := h.openPacked _ e
          exact ih hs₁
      · split
        · exact ih h.sealStripe
        · exact .some h.writeOpen

theorem State.Inv.clearStripe {s : State} {g : Group} {recs : Bytes} (h : s.Inv) : OnSome State.Inv (clearStripe s g recs) :=
  .map h.openPacked fun _ hp => hp.writeOpen.sealStripe

theorem State.Inv.packRecord {s : State} {slice nsid owner : Nat} {rec_ : Bytes} (h : s.Inv) :
    OnSome (fun p => p.2.Inv) (packRecord s slice nsid owner rec_) :=
  h.packInto

theorem State.Inv.indexRecord {s : State} {slice stripe : Nat} {changes : List Bytes} (h : s.Inv) :
    OnSome (fun p => p.1.Inv) (indexRecord s slice stripe changes) := by
  unfold Machine.indexRecord
  extract_lets
  split
  · exact .none
  next s₁ e =>
    have hs₁ : s₁.Inv := h.pjAppend _ e
    exact .some hs₁.mirrorLast

theorem State.Inv.journalParts {slice n : Nat} {l : List Bytes} {s : State} (h : s.Inv) : OnSome State.Inv (journalParts slice n l s) := by
  induction n generalizing slice l s with
  | zero =>
    unfold Machine.journalParts
    exact .some h
  | succ n ih =>
    unfold Machine.journalParts
    refine .ite (.some h) ?_
    extract_lets
    split
    · exact .none
    next s₁ e =>
      have hs₁ : s₁.Inv := h.pjAppend _ e
      exact ih hs₁.changeAll

theorem State.Inv.journalApply {s : State} {slice : Nat} {changes : List Bytes} (h : s.Inv) : OnSome State.Inv (journalApply s slice changes) :=
  .ite .none h.journalParts

theorem State.Inv.cmdProgress {l : List Cmd} {s : State} (h : s.Inv) : (cmdProgress l s).Inv := by
  induction l generalizing s with
  | nil => exact h
  | cons x xs ih =>
    unfold Machine.cmdProgress
    refine .ite (ih h) ?_
    extract_lets s₁ _ s₂
    have hs₁ : s₁.Inv := h.changeAll
    have hs₂ : s₂.Inv := hs₁.putCmd
    split
    · exact ih hs₂.finish
    · exact ih (.ite hs₂.finish hs₂)
    · exact ih hs₂

theorem State.Inv.openProgress {s : State} (h : s.Inv) : (openProgress s).Inv := h.foldl _ _ fun _ _ hs₁ => hs₁.sealNow

theorem State.Inv.sealStale {s : State} (h : s.Inv) : (sealStale s).Inv := h.foldl _ _ fun _ _ hs₁ => hs₁.sealStripe

theorem State.Inv.sealOldest {s : State} (h : s.Inv) : (sealOldest s).Inv := by
  unfold Machine.sealOldest
  split
  · exact h.sealStripe
  · exact h

theorem State.Inv.advance {s : State} (h : s.Inv) : (advance s).Inv :=
  h.sealStale.openProgress.cmdProgress.foldl _ _ fun _ _ hs₁ => hs₁.advanceIntent

theorem State.Inv.sealAll {s : State} (h : s.Inv) : (sealAll s).Inv := h.foldl _ _ fun _ _ hs₁ => hs₁.sealStripe

/-! ### The form is kept: `Machine/Slices.lean` -/

theorem State.Inv.layRuns {l : List (Nat × Nat × Bytes)} {n : Nat} {s : State} (h : s.Inv) : (layRuns l n s).Inv := by
  induction l generalizing n s with
  | nil => exact h
  | cons x xs ih =>
    unfold Machine.layRuns
    exact ih h.crewStore.putSliceWord

theorem State.Inv.dirCompact {s : State} (h : s.Inv) : (dirCompact s).Inv := h.layRuns

theorem State.Inv.holdSlice {s : State} {n b : Nat} (h : s.Inv) : (holdSlice s n b).Inv := by
  unfold Machine.holdSlice
  refine .ite h ?_
  extract_lets s₁
  have hs₁ : s₁.Inv := .ite h.dirCompact h
  split
  · exact hs₁
  · exact hs₁.crewStore.putSliceWord.putSlice

theorem State.Inv.leaveSlice {s : State} {n : Nat} (h : s.Inv) : (leaveSlice s n).Inv := h.crewStore.putSliceWord.same.addNote

theorem State.Inv.renewSlice {s : State} {n b : Nat} (h : s.Inv) : (renewSlice s n b).Inv := h.leaveSlice.holdSlice.putSlice.setActing

theorem State.Inv.sendCopy {s : State} {hull n n1 : Nat} {l : List Bytes} (h : s.Inv) : (sendCopy s hull n n1 l).Inv := by
  induction n1 generalizing s hull n l with
  | zero => exact h
  | succ n₁ ih =>
    unfold Machine.sendCopy
    exact .ite h.peerRequest (ih h.peerRequest)

theorem State.Inv.copyTo {s : State} {hull n : Nat} {cs : List Bytes} (h : s.Inv) : (copyTo s hull n cs).Inv := h.sendCopy

theorem State.Inv.askCopy {s : State} {n : Nat} (h : s.Inv) : (askCopy s n).Inv := h.peerRequest

theorem State.Inv.fillSlice {n n1 : Nat} {l : List Bytes} {s : State} (h : s.Inv) : (fillSlice n n1 l s).1.Inv := by
  induction n1 generalizing n l s with
  | zero => exact h
  | succ n₁ ih =>
    unfold Machine.fillSlice
    refine .fst_ite h ?_
    extract_lets
    split
    · exact h
    next s₁ e =>
      have hs₁ : s₁.Inv := h.journalApply _ e
      exact ih hs₁

theorem State.Inv.relaySlice {s : State} {n b' : Nat} (h : s.Inv) : (relaySlice s n b').Inv := by
  unfold Machine.relaySlice
  extract_lets _ _ _ s₁ s₂ _ s₃
  have hs₁ : s₁.Inv := h.renewSlice
  have hs₂ : s₂.Inv := by
    unfold s₂
    split
    · exact hs₁.putSlice
    · exact hs₁
  have hs₃ : s₃.Inv := hs₂.same
  exact hs₃.same

theorem State.Inv.refillEnd {s : State} {r : Slice} (h : s.Inv) : (refillEnd s r).Inv := by
  unfold Machine.refillEnd
  extract_lets s₁ s₂
  have hs₁ : s₁.Inv := h.putSlice
  have hs₂ : s₂.Inv := hs₁.logCrew _
  refine .ite ?_ hs₁
  split
  · exact .ite hs₂ hs₂.copyTo
  · exact hs₂

theorem State.Inv.refillStep {s : State} {n : Nat} (h : s.Inv) : (refillStep s n).Inv := by
  unfold Machine.refillStep
  split
  · exact h
  · refine .ite h ?_
    extract_lets f
    have hf : f.1.Inv := h.fillSlice
    split
    · exact hf
    · exact .ite hf.refillEnd hf.putSlice

theorem State.Inv.refillAll {s : State} (h : s.Inv) : (refillAll s).Inv := h.foldl _ _ fun _ _ hs₁ => hs₁.refillStep

/-! ### The form is kept: `Machine/Journal.lean` -/

theorem State.Inv.setLimit {s : State} (h : s.Inv) : (setLimit s).Inv := h.setF _ _

theorem State.Inv.controlBlock {s : State} (h : s.Inv) : (controlBlock s).Inv := h.crewStore

theorem State.Inv.journalResize {s : State} (h : s.Inv) : (journalResize s).Inv := .ite h h.same_pj.controlBlock

theorem State.Inv.setJournalSize {s : State} (h : s.Inv) : (setJournalSize s).Inv := .ite (h.same_pj.logCrew _) h.same_pj

theorem State.Inv.esTestStart {s : State} {v0 : Nat} (h : s.Inv) : (esTestStart s v0).Inv := .ite h (((h.setF _ _).setF _ _).setF _ _).same_pj

theorem State.Inv.execEsTest {core v0 : Nat} {s : State} (h : s.Inv) : Res.Inv (execEsTest core v0 s) :=
  h.coreStore fun _ hs₁ => hs₁.esTestStart.next

theorem State.Inv.esTestEnd {s : State} {v1 : Nat} (h : s.Inv) : (esTestEnd s v1).Inv := by
  unfold Machine.esTestEnd
  split
  · exact h
  · exact ((((((h.reach _).setF _ _).setF _ _).setF _ _).setLimit.setF _ _).setF _ _).same_pj.pulse _

theorem State.Inv.execEsTestEnd {v1 : Nat} {s : State} (h : s.Inv) : Res.Inv (execEsTestEnd v1 s) := h.whileCore fun _ hs₁ => hs₁.esTestEnd.next

theorem State.Inv.keepVault {s : State} {entry value : Nat} (h : s.Inv) : (keepVault s entry value).Inv := h.same_pj

theorem State.Inv.pjEnable {s : State} (h : s.Inv) : (pjEnable s).Inv :=
  .ite h (.ite (h.keepVault.setJournalSize.same.logCrew _) (h.keepVault.setJournalSize.controlBlock.setF _ _))

theorem State.Inv.execPjEnable {core : Nat} {s : State} (h : s.Inv) : Res.Inv (execPjEnable core s) := h.coreStore fun _ hs₁ => hs₁.pjEnable.next

theorem State.Inv.putVmap {s : State} {entry value : Nat} (h : s.Inv) : (putVmap s entry value).Inv :=
  ((((h.setF _ _).setF _ _).setF _ _).setF _ _).setF _ _

theorem State.Inv.execPjVmapWrite {core entry value : Nat} {s : State} (h : s.Inv) : Res.Inv (execPjVmapWrite core entry value s) := by
  unfold Machine.execPjVmapWrite
  refine h.coreStore fun s₁ hs₁ => ?_
  extract_lets _ s₂
  have hs₂ : s₂.Inv := hs₁.putVmap.keepVault.setLimit
  exact .ite hs₁.next (.ite .fault (.ite .fault (State.Inv.next (.ite hs₂.setJournalSize hs₂))))

/-- The offsets and RSEQ that `ringFound` takes from the records it has found, for any such records. It stands apart for the kernel, which recurses
too deep where `ringFound` is unfolded beneath `State.Inv`. -/
def ringFrom (s : State) (n : Nat) (rs : List (Nat × Bytes)) : State :=
  match rs with
  | [] => setF (setF s F.PJ_TAIL_OFFSET 0) F.PJ_HEAD_OFFSET 0
  | r :: rest =>
    let oldest := rest.foldl (fun a b => if rkSeq b.2 < rkSeq a.2 then b else a) r
    let newest := rest.foldl (fun a b => if rkSeq b.2 > rkSeq a.2 then b else a) r
    let stop := newest.1 + rkLen newest.2
    let s := setF (setF s F.PJ_TAIL_OFFSET oldest.1) F.PJ_HEAD_OFFSET (if stop ≤ oldest.1 then stop + n else stop)
    tailMove (n / 64 + 1) { s with pj := { s.pj with rseq := rkSeq newest.2 + 1 } }

theorem ringFound_eq (s : State) :
    Machine.ringFound s = ringFrom s (pjRingBytes s) (scanFrom s (pjRingBytes s / 64 + 1) 0 (pjRingBytes s)) := rfl

theorem State.Inv.ringFrom {s : State} {n : Nat} {rs : List (Nat × Bytes)} (h : s.Inv) : (ringFrom s n rs).Inv := by
  cases rs with
  | nil => exact (h.setF _ _).setF _ _
  | cons r rest => exact State.Inv.tailMove (((h.setF _ _).setF _ _).same_pj)

theorem State.Inv.ringFound {s : State} (h : s.Inv) : (ringFound s).Inv := by
  rw [ringFound_eq]
  exact h.ringFrom

theorem State.Inv.execPjRestore {core : Nat} {s : State} (h : s.Inv) : Res.Inv (execPjRestore core s) :=
  h.coreStore fun _ hs₁ => .ite hs₁.next hs₁.same_pj.next

theorem foldl_choose_mem {α : Type} (p : α → α → Prop) [∀ a b, Decidable (p a b)] (l : List α) (a : α) :
    l.foldl (fun a b => if p a b then b else a) a ∈ a :: l := by
  induction l generalizing a with
  | nil => exact List.mem_singleton.2 rfl
  | cons b l ih =>
    rcases List.mem_cons.1 (ih (if p a b then b else a)) with h | h
    · simp only [List.foldl_cons, h]
      split
      · exact List.mem_cons_of_mem _ List.mem_cons_self
      · exact List.mem_cons_self
    · exact List.mem_cons_of_mem _ (List.mem_cons_of_mem _ h)

theorem newestImage_mem {s : State} {i : VaultImage} (h : newestImage s = some i) : i ∈ s.pj.vault := by
  unfold newestImage at h
  split at h
  · cases h
  · next j rest e =>
    have hmem := foldl_choose_mem (fun a b : VaultImage => b.seq > a.seq) rest j
    rw [← e] at hmem
    cases h
    exact (List.mem_filter.1 hmem).1

/-- Cells in canonical form put in place of others within a range leave the whole in canonical form. -/
theorem replaceCells_wf {m cells : List Host.Cell} {lo hi : Nat} (hm : Memory.wf m) (hc : Memory.wf cells) (hlh : lo ≤ hi) :
    Memory.wf (replaceCells m lo hi cells) := by
  obtain ⟨hbelow, hzbelow⟩ := memWf_filter hm fun c => decide (c.1 < lo)
  obtain ⟨hin, hzin⟩ := memWf_filter hc fun c => decide (lo ≤ c.1) && decide (c.1 < hi)
  obtain ⟨habove, hzabove⟩ := memWf_filter hm fun c => decide (hi ≤ c.1)
  refine ⟨?_, fun c hmem => ?_⟩
  · simp only [replaceCells, List.map_append]
    refine List.pairwise_append.2 ⟨List.pairwise_append.2 ⟨hbelow, hin, ?_⟩, habove, ?_⟩
    · intro x hx y hy
      obtain ⟨c, hcm, rfl⟩ := List.mem_map.1 hx
      obtain ⟨d, hdm, rfl⟩ := List.mem_map.1 hy
      have h1 : c.1 < lo := by simpa using (List.mem_filter.1 hcm).2
      have h2 : lo ≤ d.1 ∧ d.1 < hi := by simpa using (List.mem_filter.1 hdm).2
      omega
    · intro x hx y hy
      obtain ⟨d, hdm, rfl⟩ := List.mem_map.1 hy
      have h2 : hi ≤ d.1 := by simpa using (List.mem_filter.1 hdm).2
      rcases List.mem_append.1 hx with hx | hx
      · obtain ⟨c, hcm, rfl⟩ := List.mem_map.1 hx
        have h1 : c.1 < lo := by simpa using (List.mem_filter.1 hcm).2
        omega
      · obtain ⟨c, hcm, rfl⟩ := List.mem_map.1 hx
        have h1 : lo ≤ c.1 ∧ c.1 < hi := by simpa using (List.mem_filter.1 hcm).2
        omega
  · rcases List.mem_append.1 hmem with hmem | hmem
    · rcases List.mem_append.1 hmem with hmem | hmem
      · exact hzbelow c hmem
      · exact hzin c hmem
    · exact hzabove c hmem

/-- A restored image's cells are canonical, and stand between what memory lists below and above the journal. -/
theorem State.Inv.restoreEnd {s : State} (h : s.Inv) : (restoreEnd s).Inv := by
  unfold Machine.restoreEnd
  extract_lets _ s₁
  have hs₁ : s₁.Inv := h.same_pj
  split
  · exact (hs₁.setF _ _).pulse _
  next i e =>
    extract_lets s₂ top _ cells _ _ _ _ s₃
    have hs₂ : s₂.Inv := hs₁.setF _ _
    refine .ite ((hs₂.setF _ _).pulse _) ?_
    have hcells : Memory.wf cells := replaceCells_wf hs₂.memWf (hs₁.vaultWf i (newestImage_mem e)) (Nat.le_add_right _ _)
    have hs₃ : s₃.Inv := ⟨hs₂.regsWf, hs₂.shadowWf, hcells, hs₂.vaultWf⟩
    exact State.Inv.pulse (State.Inv.ringFound ((hs₃.setF _ _).setF _ _)) _

theorem State.Inv.execPjAllocReq {core bytes : Nat} {s : State} (h : s.Inv) : Res.Inv (execPjAllocReq core bytes s) :=
  h.coreStore fun _ hs₁ => .ite (hs₁.setF _ _).next ((((hs₁.padRecord.nextRseq.same_pj.setF _ _).setF _ _).setF _ _).setF _ _).same_pj.next

theorem State.Inv.allocRead {s : State} {core width : Nat} (h : s.Inv) : (allocRead s core width).1.Inv := .fst_ite (h.setF _ _).same_pj h

theorem State.Inv.execPjAllocRead {core width : Nat} {s : State} (h : s.Inv) : Res.Inv (execPjAllocRead core width s) :=
  h.coreRuns fun _ hs₁ => (hs₁.allocRead.emit _).next

theorem State.Inv.emptyJournal {s : State} (h : s.Inv) : (emptyJournal s).Inv := (h.setF _ _).same_pj

theorem State.Inv.zeroUnnamed {p : State × OpenStripe} {p1 : Nat × Nat × RecHdr × Bytes} (hp : p.1.Inv) : (zeroUnnamed p p1).1.Inv := by
  unfold Machine.zeroUnnamed
  refine .fst_ite hp ?_
  extract_lets r
  have hr : r.1.Inv := hp.writeOpen
  split
  · exact .fst_ite hr.putGroup hr
  · exact hr

theorem State.Inv.finishOpen {s : State} {o : OpenStripe} (h : s.Inv) : (finishOpen s o).Inv :=
  (State.Inv.sealStripe (.foldl_fst h.same_pj fun _ _ hp => hp.zeroUnnamed)).logCrew _

theorem State.Inv.indexReplay {s : State} (h : s.Inv) : (indexReplay s).Inv := h.changeAll

theorem State.Inv.armDump {s : State} (h : s.Inv) : (armDump s).Inv := by
  unfold Machine.armDump
  extract_lets q _ s₁ keep
  have hs₁ : s₁.Inv := h.same_pj.setF _ _
  refine .ite h (State.Inv.setF (hs₁.vault fun i hi => ?_) _ _)
  exact hs₁.vaultWf i (List.mem_filter.1 hi).1

theorem State.Inv.trimsAgain {s : State} (h : s.Inv) : (trimsAgain s).Inv := h.foldl _ _ fun _ _ hs₁ => .ite hs₁.addNote hs₁

theorem State.Inv.replayScan {s : State} (h : s.Inv) : (replayScan s).Inv := by
  unfold Machine.replayScan
  extract_lets _ s₁ x₁ _ s₂
  have hs₁ : s₁.Inv := h.same_pj
  have hx₁ : x₁.Inv := hs₁.emptyJournal
  have hs₂ : s₂.Inv := .ite (hx₁.same_pj.declareSelf.logCrew _) (.ite hs₁.emptyJournal (.ite (hs₁.logCrew _) hs₁))
  exact hs₂.trimsAgain.indexReplay.armDump

/-! ### The form is kept: `Machine/Pair.lean` -/

theorem State.Inv.startProbes {s : State} {i : Intent} (h : s.Inv) : (startProbes s i).Inv :=
  (h.foldl _ _ fun _ _ hs₁ => hs₁.peerRequest).putIntent

theorem State.Inv.decideIntent {s : State} {i : Intent} {result : Nat} (h : s.Inv) : (decideIntent s i result).Inv := by
  unfold Machine.decideIntent
  extract_lets a _ s₁ _ s₂
  have ha : a.1.Inv := .fst_ite h h.applyIntent
  have hs₁ : s₁.Inv := ha.writeOutcome
  have hs₂ : s₂.Inv := .ite hs₁.markLost hs₁
  exact (hs₂.logCrew _).advanceIntent

theorem State.Inv.resolveStep {s : State} {i : Intent} (h : s.Inv) : (resolveStep s i).Inv := by
  unfold Machine.resolveStep
  refine .ite h ?_
  refine .ite ?_ (.ite h.decideIntent h.putIntent)
  split
  · exact h
  · exact h.putIntent.advanceIntent.logCrew _

theorem State.Inv.resolveBegin {s : State} {i : Intent} (h : s.Inv) : (resolveBegin s i).Inv := by
  unfold Machine.resolveBegin
  refine .ite h.resolveStep ?_
  extract_lets s₁
  have hs₁ : s₁.Inv := h.startProbes
  split
  · exact hs₁.resolveStep
  · exact hs₁

theorem State.Inv.probeAnswered {s : State} {i : Intent} {stripe pos : Nat} {isHeld : Bool} (h : s.Inv) :
    (probeAnswered s i stripe pos isHeld).Inv :=
  h.putIntent.resolveStep

theorem State.Inv.missDeadline {s : State} {group seat : Nat} (h : s.Inv) : (missDeadline s group seat).Inv := by
  unfold Machine.missDeadline
  split
  · exact h
  · exact .ite h.putGroup.tryDeclare h.putGroup

theorem State.Inv.execProbeResend {group stripe : Nat} {s : State} (h : s.Inv) : Res.Inv (execProbeResend group stripe s) := by
  unfold Machine.execProbeResend
  refine h.whileCore fun s₁ hs₁ => ?_
  split
  · exact hs₁.next
  · refine .ite hs₁.next ?_
    extract_lets s₂ _ s₃ _ s₄
    have hs₂ : s₂.Inv := hs₁.reach _
    have hs₃ : s₃.Inv := hs₂.foldl _ _ fun s₅ _ hs₅ => hs₅.resendRequest
    have hs₄ : s₄.Inv := hs₃.foldl _ _ fun s₅ _ hs₅ => hs₅.missDeadline
    split
    · exact hs₄.putIntent.resolveStep.next
    · exact hs₄.next

theorem State.Inv.execFragCommitResend {group stripe : Nat} {s : State} (h : s.Inv) : Res.Inv (execFragCommitResend group stripe s) := by
  unfold Machine.execFragCommitResend
  refine h.whileCore fun s₁ hs₁ => ?_
  split
  · exact hs₁.next
  · exact .ite hs₁.next ((hs₁.reach _).foldl _ _ fun s₂ _ hs₂ => hs₂.resendRequest).putIntent.next

theorem State.Inv.pairRekey {s : State} {hull : Nat} (h : s.Inv) : (pairRekey s hull).Inv := by
  unfold Machine.pairRekey
  extract_lets s₁
  have hs₁ : s₁.Inv := h.pairChannel
  split
  · exact hs₁
  · exact hs₁.putChan2.pairPush

theorem State.Inv.pairResend {s : State} {c : PairCh} (h : s.Inv) : (pairResend s c).Inv := (h.foldl _ _ fun _ _ hs₁ => hs₁.pairOut).putChan2

theorem State.Inv.choosePath {s : State} {partner : Nat} {farEnd : Bool} (h : s.Inv) : (choosePath s partner farEnd).Inv := by
  unfold Machine.choosePath
  split
  · exact h
  · exact .ite h ((h.putChan2.pairResend.pairPush.logCrew _).pulse _)

theorem State.Inv.pathsFall {s : State} (h : s.Inv) : (pathsFall s).Inv := h.foldl _ _ fun _ _ hs₁ => hs₁.choosePath

theorem State.Inv.execPairPathChange {partner linkEnd : Nat} {s : State} (h : s.Inv) : Res.Inv (execPairPathChange partner linkEnd s) :=
  h.whileCore fun _ hs₁ => hs₁.choosePath.next

theorem State.Inv.keyChannel {s : State} {hull : Nat} {key : Bytes} (h : s.Inv) : (keyChannel s hull key).Inv := by
  unfold Machine.keyChannel
  split
  · exact h
  · exact h.putChan2.setSlot.pairRekey

theorem State.Inv.pairReject {s : State} (h : s.Inv) : Res.Inv (pairReject s) := (h.logCrew _).next

theorem State.Inv.pairTake {ptype : Nat} {s : State} {run : State → PairCh → Bytes → Option State} (h : s.Inv)
    (hrun : ∀ t x y, t.Inv → OnSome State.Inv (run t x y)) : Res.Inv (pairTake ptype s run) := by
  unfold Machine.pairTake
  split
  · exact h.next
  · extract_lets _ s0 _ s₁
    have hs0 : s0.Inv := h
    have hs₁ : s₁.Inv := h.same_pj
    refine .ite h.next ?_
    split
    · exact hs₁.pairReject
    · extract_lets open_ _ s₂
      have hs₂ : s₂.Inv := hs₁.putChan2
      clear_value open_
      split
      · exact hs₁.pairReject
      · refine .ite ?_ ?_
        · refine .ite hs₂.next ?_
          split
          next s₃ e =>
            have hs₃ : s₃.Inv := (hrun _ _ _ hs₂) _ e
            exact hs₃.next
          · exact hs₂.next
        · refine .ite hs₂.next ?_
          split
          · exact hs0.next
          next s₃ e =>
            have hs₃ : s₃.Inv := (hrun _ _ _ hs₂) _ e
            split
            · exact hs₃.putChan2.pairAck.advance.next
            · exact hs₃.next

theorem State.Inv.mirrorRecord {s : State} {r body : Bytes} (h : s.Inv) : OnSome State.Inv (mirrorRecord s r body) := .ite (.some h) h.pjAppend

theorem State.Inv.execAck {s : State} (h : s.Inv) : Res.Inv (execAck s) :=
  h.whileCore fun _ hs₁ => hs₁.pairTake fun _ _ _ hs₂ => .some hs₂.same_pj.putChan2.pairPush.advance

theorem State.Inv.execIntentFrame {s : State} (h : s.Inv) : Res.Inv (execIntentFrame s) :=
  h.whileCore fun _ hs₁ => hs₁.pairTake fun _ _ _ hs₂ => hs₂.mirrorRecord

theorem State.Inv.takeChanges {l : List Bytes} {s : State} (h : s.Inv) : OnSome (fun p => p.1.Inv) (takeChanges l s) := by
  induction l generalizing s with
  | nil =>
    unfold Machine.takeChanges
    exact .some h
  | cons x xs ih =>
    unfold Machine.takeChanges
    refine .ite (.map (ih h.notePurge) fun r hr => hr) ?_
    split
    · exact .none
    next s₁ _ e₁ =>
      have hs₁ : s₁.Inv := h.changeBucket _ e₁
      exact .map (ih hs₁.noteDelta.noteHold) fun r hr => hr
    · exact .map (ih (h.logCrew _)) fun r hr => hr

theorem State.Inv.dropCopies {s : State} {xs : List Nat} (h : s.Inv) : (dropCopies s xs).Inv := h.foldl _ _ fun _ _ hs₁ => hs₁.renewSlice.askCopy

theorem State.Inv.execOutcomeFrame {s : State} (h : s.Inv) : Res.Inv (execOutcomeFrame s) := by
  unfold Machine.execOutcomeFrame
  refine h.whileCore fun s₁ hs₁ => ?_
  refine hs₁.pairTake fun s₂ _ body hs₂ => ?_
  extract_lets
  refine .ite .none ?_
  split
  · exact .none
  next s₃ _ _ e =>
    have hs₃ : s₃.Inv := hs₂.takeChanges _ e
    exact hs₃.dropCopies.mirrorRecord

theorem State.Inv.execIndexFrame {s : State} (h : s.Inv) : Res.Inv (execIndexFrame s) := by
  unfold Machine.execIndexFrame
  refine h.whileCore fun s₁ hs₁ => ?_
  refine hs₁.pairTake fun s₂ _ body hs₂ => ?_
  extract_lets
  refine .ite .none ?_
  split
  · exact .none
  next s₃ _ _ e =>
    have hs₃ : s₃.Inv := hs₂.takeChanges _ e
    exact hs₃.dropCopies.mirrorRecord

theorem State.Inv.execOpenStripeFrame {s : State} (h : s.Inv) : Res.Inv (execOpenStripeFrame s) := by
  unfold Machine.execOpenStripeFrame
  refine h.whileCore fun s₁ hs₁ => ?_
  refine hs₁.pairTake fun s₂ _ body hs₂ => ?_
  extract_lets
  refine .ite (.some hs₂) ?_
  split
  · exact .none
  · exact (hs₂.foldl _ _ fun s₃ _ hs₃ => hs₃.crewStore).mirrorRecord

theorem State.Inv.execAppend {s : State} (h : s.Inv) : Res.Inv (execAppend s) := by
  unfold Machine.execAppend
  refine h.whileCore fun s₁ hs₁ => ?_
  refine hs₁.pairTake fun s₂ c body hs₂ => ?_
  extract_lets
  split
  · exact .some hs₂
  · exact .some hs₂.crewStore

theorem State.Inv.execRetire {s : State} (h : s.Inv) : Res.Inv (execRetire s) :=
  h.whileCore fun _ hs₁ => hs₁.pairTake fun _ _ _ hs₂ => .some hs₂.retireIntent

theorem State.Inv.askIntent {s : State} {hull group stripe : Nat} (h : s.Inv) : (askIntent s hull group stripe).Inv := h.pairSend

theorem State.Inv.askResolvers {s : State} {group stripe : Nat} {xs : List Nat} (h : s.Inv) : (askResolvers s group stripe xs).Inv :=
  h.foldl _ _ fun _ _ hs₁ => hs₁.askIntent

theorem State.Inv.execPairHello {s : State} (h : s.Inv) : Res.Inv (execPairHello s) := by
  unfold Machine.execPairHello
  refine h.whileCore fun s₁ hs₁ => ?_
  refine hs₁.pairTake fun s₂ c body hs₂ => ?_
  extract_lets _ s₃ _ _ s₄ s₅ _ s₆
  have hs₃ : s₃.Inv := hs₂.putChan2
  have hs₄ : s₄.Inv := hs₃.foldl _ _ fun s₇ _ hs₇ => hs₇.putSlice.setActing
  have hs₅ : s₅.Inv := .ite hs₄.raiseView hs₄
  have hs₆ : s₆.Inv := hs₅.foldl _ _ fun s₇ _ hs₇ => hs₇.askIntent
  exact .some (hs₆.foldl _ _ fun s₇ _ hs₇ => hs₇.askIntent)

theorem State.Inv.execIntentQuery {s : State} (h : s.Inv) : Res.Inv (execIntentQuery s) :=
  h.whileCore fun _ hs₁ => hs₁.pairTake fun _ _ _ hs₂ => .some hs₂.pairSend

theorem State.Inv.execIntentAnswer {s : State} (h : s.Inv) : Res.Inv (execIntentAnswer s) := by
  unfold Machine.execIntentAnswer
  refine h.whileCore fun s₁ hs₁ => ?_
  refine hs₁.pairTake fun s₂ c body hs₂ => ?_
  extract_lets _ _ _ _ told
  refine .ite (.some hs₂) ?_
  refine .ite ?_ ?_
  · exact .ite (.some hs₂) (.some hs₂.keptDecided.same_pj.retireIntent)
  · clear_value told
    split
    · exact .some (.ite hs₂ hs₂.same_pj.retireIntent)
    · extract_lets _ _ a
      have ha : a.1.Inv := hs₂.changeAll
      refine .ite (.some hs₂) ?_
      split
      · exact .none
      next s₃ e =>
        have hs₃ : s₃.Inv := ha.pjAppend _ e
        exact .some (.ite hs₃.keptDecided hs₃.keptDecided.same_pj.retireIntent)

theorem State.Inv.startCopyingIn {s : State} {group : Nat} {xs : List Nat} (h : s.Inv) : (startCopyingIn s group xs).Inv :=
  h.foldl _ _ fun _ _ hs₁ => hs₁.same.foldl _ _ fun _ _ hs₂ => hs₂.peerRequest

theorem State.Inv.startCopying {s : State} {xs : List Nat} (h : s.Inv) : (startCopying s xs).Inv := h.foldl _ _ fun _ _ hs₁ => hs₁.startCopyingIn

theorem State.Inv.takeoverStart {s : State} (h : s.Inv) : (takeoverStart s).Inv := by
  unfold Machine.takeoverStart
  extract_lets _ _ _ s₁
  have hs₁ : s₁.Inv := h.foldl _ _ fun s₂ _ hs₂ => hs₂.putSlice
  refine hs₁.foldl _ _ fun s₂ h₁ hs₂ => ?_
  extract_lets _ s₃
  have hs₃ : s₃.Inv := by
    unfold s₃
    split
    · exact hs₂.putChan2
    · exact hs₂
  exact hs₃.same_pj

theorem State.Inv.execHandbackReady {s : State} (h : s.Inv) : Res.Inv (execHandbackReady s) := by
  unfold Machine.execHandbackReady
  refine h.whileCore fun s₁ hs₁ => ?_
  refine hs₁.pairTake fun s₂ c body hs₂ => ?_
  extract_lets _ _ s₃ s₄
  have hs₃ : s₃.Inv := hs₂.foldl _ _ fun s₅ _ hs₅ => hs₅.putSlice.setActing
  have hs₄ : s₄.Inv := .ite hs₃ (hs₃.raiseView.logCrew _).startCopying
  exact .some hs₄.pairSend

theorem State.Inv.execHandbackAck {s : State} (h : s.Inv) : Res.Inv (execHandbackAck s) :=
  h.whileCore fun _ hs₁ => hs₁.pairTake fun _ _ _ hs₂ => .some (hs₂.foldl _ _ fun _ _ hs₃ => hs₃.putSlice)

theorem State.Inv.sendHandback {s : State} {hull : Nat} {xs : List Nat} (h : s.Inv) : (sendHandback s hull xs).Inv := by
  unfold Machine.sendHandback
  extract_lets s₁
  have hs₁ : s₁.Inv := h.pairSend
  split
  · exact hs₁.putChan2
  · exact hs₁

theorem State.Inv.handCopies {s : State} {hull : Nat} {xs : List Nat} (h : s.Inv) : (handCopies s hull xs).Inv :=
  (h.foldl _ _ fun _ _ hs₁ => hs₁.copyTo).same

theorem State.Inv.execHandbackStart {partner : Nat} {s : State} (h : s.Inv) : Res.Inv (execHandbackStart partner s) := by
  unfold Machine.execHandbackStart
  refine h.whileCore fun s₁ hs₁ => ?_
  extract_lets _ _ s' s₂ s₃ _ s₄ _ s₅ _ s₆
  have hs' : s'.Inv := hs₁.handCopies
  have hs₂ : s₂.Inv := hs'
  have hs₃ : s₃.Inv := hs₂.foldl _ _ fun s₇ _ hs₇ => hs₇.putSlice
  have hs₄ : s₄.Inv := (hs₃.foldl _ _ fun s₇ _ hs₇ => hs₇.sealStripe).advance
  have hs₅ : s₅.Inv := hs₄.foldl _ _ fun s₇ _ hs₇ => hs₇.putSlice.setActing
  have hs₆ : s₆.Inv := hs₅.same
  exact .ite hs₁.next (.ite hs'.next (.ite hs₄.next hs₆.raiseView.sendHandback.next))

theorem State.Inv.execHandbackResend {partner : Nat} {s : State} (h : s.Inv) : Res.Inv (execHandbackResend partner s) := by
  unfold Machine.execHandbackResend
  refine h.whileCore fun s₁ hs₁ => ?_
  exact .ite hs₁.next (.ite (hs₁.foldl _ _ fun s₂ _ hs₂ => hs₂.putSlice).takeoverStart.next (hs₁.reach _).sendHandback.next)

theorem State.Inv.takeOpen {s : State} {o : OpenStripe} (h : s.Inv) : (takeOpen s o).Inv := by
  unfold Machine.takeOpen
  extract_lets _ _ r
  have hr : r.1.Inv := .foldl_fst h fun p _ hp => hp.zeroUnnamed
  refine .ite h.finishOpen ?_
  split
  · exact .ite hr (hr.foldl _ _ fun s₁ _ hs₁ => hs₁.ownUnit)
  · exact hr

theorem State.Inv.takeoverResolve {s : State} {hull : Nat} (h : s.Inv) : (takeoverResolve s hull).Inv :=
  (h.same_pj.foldl _ _ fun _ _ hs₁ => hs₁.takeOpen).foldl _ _ fun _ _ hs₁ => .ite hs₁.resolveBegin hs₁.advanceIntent

theorem State.Inv.execTakeoverTimer {partner : Nat} {s : State} (h : s.Inv) : Res.Inv (execTakeoverTimer partner s) := by
  unfold Machine.execTakeoverTimer
  refine h.whileCore fun s₁ hs₁ => ?_
  extract_lets s₂
  have hs₂ : s₂.Inv := hs₁.takeoverStart
  split
  · exact hs₂.next
  · extract_lets s₃ _ _ s₄ _ s₅ s₆
    have hs₃ : s₃.Inv := hs₂.reach _
    have hs₄ : s₄.Inv := hs₃.foldl _ _ fun s₇ _ hs₇ => hs₇.putSlice.setActing
    have hs₅ : s₅.Inv := hs₄.same_pj
    have hs₆ : s₆.Inv := (hs₅.raiseView.logCrew _).startCopying.takeoverResolve
    exact .ite hs₃.next (.ite .fault hs₆.advance.next)

theorem State.Inv.execPairResendTimer {partner : Nat} {s : State} (h : s.Inv) : Res.Inv (execPairResendTimer partner s) := by
  unfold Machine.execPairResendTimer
  refine h.whileCore fun s₁ hs₁ => ?_
  split
  · exact hs₁.next
  · exact .ite hs₁.next (hs₁.reach _).pairResend.next

theorem State.Inv.execPairAckTimer {partner : Nat} {s : State} (h : s.Inv) : Res.Inv (execPairAckTimer partner s) := by
  unfold Machine.execPairAckTimer
  refine h.whileCore fun s₁ hs₁ => ?_
  split
  · exact hs₁.next
  · exact .ite (hs₁.reach _).pairAck.next hs₁.next

theorem State.Inv.execLeaseLapse {partner : Nat} {s : State} (h : s.Inv) : Res.Inv (execLeaseLapse partner s) := by
  unfold Machine.execLeaseLapse
  refine h.whileCore fun s₁ hs₁ => ?_
  split
  · exact hs₁.next
  · split
    · exact hs₁.next
    · exact .ite hs₁.next (((hs₁.reach _).same_pj.logCrew _).pulse _).next

theorem State.Inv.execMajorityContactLoss {group : Nat} {s : State} (h : s.Inv) : Res.Inv (execMajorityContactLoss group s) := by
  unfold Machine.execMajorityContactLoss
  refine h.whileCore fun s₁ hs₁ => ?_
  split
  · exact hs₁.next
  · extract_lets _ lapse
    refine .ite ?_ ?_
    · exact State.Inv.next (.ite hs₁.putGroup ((hs₁.putGroup.logCrew _).pulse _))
    · clear_value lapse
      split
      · exact hs₁.next
      · exact State.Inv.next (.ite (hs₁.reach _).putGroup (((hs₁.reach _).putGroup.logCrew _).pulse _))

/-! ### The form is kept: `Machine/Seat.lean` -/

theorem State.Inv.onPeer {op : Nat} {s : State} {run : State → Nat → Bytes → Res} (h : s.Inv)
    (hrun : ∀ t x y, t.Inv → Res.Inv (run t x y)) : Res.Inv (onPeer op s run) := by
  unfold Machine.onPeer
  refine h.whileCore fun s₁ hs₁ => ?_
  extract_lets
  split
  · exact hs₁.next
  · exact hrun _ _ _ hs₁.same

theorem State.Inv.putBack {s : State} {id : Nat} {b : Bytes} (h : s.Inv) : (putBack s id b).Inv := h.same

theorem State.Inv.execFragWrite {s : State} (h : s.Inv) : Res.Inv (execFragWrite s) := by
  unfold Machine.execFragWrite
  refine h.onPeer fun s₁ id b hs₁ => ?_
  extract_lets
  split
  · exact hs₁.peerReply.next
  · refine .ite hs₁.peerReply.next ?_
    refine .ite (.ite hs₁.peerReply.next (hs₁.logCrew _).peerReply.next) ?_
    refine .ite hs₁.peerReply.next ?_
    split
    · exact hs₁.peerReply.next
    next s₂ e =>
      have hs₂ : s₂.Inv := hs₁.journalFragment _ e
      exact hs₂.peerReply.next

theorem State.Inv.execFragRead {s : State} (h : s.Inv) : Res.Inv (execFragRead s) := by
  unfold Machine.execFragRead
  refine h.onPeer fun s₁ id b hs₁ => ?_
  extract_lets
  refine .ite ?_ ?_
  · split
    · exact hs₁.peerReply.next
    · exact .ite hs₁.peerReply.next hs₁.peerReply.next
  · refine .ite hs₁.peerReply.next ?_
    refine .ite hs₁.peerReply.next ?_
    refine .ite hs₁.peerReply.next ?_
    refine .ite hs₁.peerReply.next ?_
    refine .ite hs₁.peerReply.next ?_
    split
    · exact hs₁.peerReply.next
    · exact hs₁.peerReply.next

theorem State.Inv.outcomeRow {op result : Nat} {s : State} (h : s.Inv) : Res.Inv (outcomeRow op result s) := by
  unfold Machine.outcomeRow
  refine h.onPeer fun s₁ id b hs₁ => ?_
  extract_lets
  refine .ite hs₁.peerReply.next ?_
  split
  next s₂ e =>
    have hs₂ : s₂.Inv := hs₁.seatOutcome _ e
    exact hs₂.peerReply.next
  · exact hs₁.putBack.next

theorem State.Inv.execFragCommit {s : State} (h : s.Inv) : Res.Inv (execFragCommit s) := h.outcomeRow

theorem State.Inv.execFragRollback {s : State} (h : s.Inv) : Res.Inv (execFragRollback s) := h.outcomeRow

theorem State.Inv.execFragFree {s : State} (h : s.Inv) : Res.Inv (execFragFree s) := h.outcomeRow

theorem State.Inv.execFragReplace {s : State} (h : s.Inv) : Res.Inv (execFragReplace s) := by
  unfold Machine.execFragReplace
  refine h.onPeer fun s₁ id b hs₁ => ?_
  extract_lets
  split
  · exact hs₁.peerReply.next
  · refine .ite hs₁.peerReply.next ?_
    refine .ite hs₁.peerReply.next ?_
    split
    · exact hs₁.peerReply.next
    next s₂ e =>
      have hs₂ : s₂.Inv := by
        refine OnSome.of_eq (P := State.Inv) ?_ e
        exact .bind hs₁.journalFragment fun s₃ hs₃ => hs₃.seatOutcome
      exact hs₂.peerReply.next

theorem State.Inv.execFragWriteResend {tag : Nat} {s : State} (h : s.Inv) : Res.Inv (execFragWriteResend tag s) := by
  unfold Machine.execFragWriteResend
  refine h.whileCore fun s₁ hs₁ => ?_
  split
  · exact hs₁.next
  · exact (hs₁.reach _).resendRequest.next

theorem State.Inv.execStripeLost {s : State} (h : s.Inv) : Res.Inv (execStripeLost s) := by
  unfold Machine.execStripeLost
  refine h.onPeer fun s₁ id b hs₁ => ?_
  extract_lets
  split
  · exact hs₁.peerReply.next
  · extract_lets _ _ s₂
    have hs₂ : s₂.Inv := hs₁.foldl _ _ fun s₃ _ hs₃ => (hs₃.logCrew _).lostMarker
    exact .ite hs₂.peerReply.next hs₂.putBack.next

theorem State.Inv.execInventory {s : State} (h : s.Inv) : Res.Inv (execInventory s) := by
  unfold Machine.execInventory
  refine h.onPeer fun s₁ id b hs₁ => ?_
  extract_lets
  split
  · exact hs₁.peerReply.next
  · exact .ite hs₁.putBack.next hs₁.peerReply.next

/-! ### The form is kept: `Machine/GroupRows.lean` -/

theorem State.Inv.descriptorStripe {s : State} {id : Nat} (h : s.Inv) : (descriptorStripe s id).Inv := by
  unfold Machine.descriptorStripe
  split
  · refine .ite h ?_
    refine .ite h.putGroup ?_
    refine .ite h ?_
    refine .ite (h.foldl _ _ fun s₁ _ hs₁ => hs₁.sealStripe) ?_
    split
    · exact h
    next s₁ e =>
      have hs₁ : s₁.Inv := h.clearStripe _ e
      split
      · exact hs₁.putGroup
      · exact hs₁
  · exact h

theorem State.Inv.descriptors {s : State} (h : s.Inv) : (descriptors s).Inv := h.foldl _ _ fun _ _ hs₁ => hs₁.descriptorStripe

theorem State.Inv.tryForm {s : State} {id : Nat} (h : s.Inv) : (tryForm s id).Inv := by
  unfold Machine.tryForm
  split
  · exact h
  · exact .ite h.setGState h

theorem State.Inv.tryForms {s : State} (h : s.Inv) : (tryForms s).Inv := h.foldl _ _ fun _ _ hs₁ => hs₁.tryForm

theorem State.Inv.purgeAdvance {s : State} {g : Group} (h : s.Inv) : (purgeAdvance s g).Inv := by
  unfold Machine.purgeAdvance
  refine h.foldl _ _ fun s₁ x hs₁ => ?_
  split
  · exact hs₁
  · exact .ite hs₁.putSlice hs₁

theorem State.Inv.purgeAdvances {s : State} (h : s.Inv) : (purgeAdvances s).Inv := h.foldl _ _ fun _ _ hs₁ => hs₁.purgeAdvance

theorem State.Inv.cycleStep {s : State} {group : Nat} (h : s.Inv) : (cycleStep s group).Inv := by
  unfold Machine.cycleStep
  split
  · exact h
  · exact .ite h.putGroup (h.putGroup.foldl _ _ fun s₁ _ hs₁ => hs₁.putSlice)

theorem State.Inv.journalFound {s : State} (h : s.Inv) : (journalFound s).Inv := .ite h.same_pj h

theorem State.Inv.unmute {s : State} (h : s.Inv) : (unmute s).Inv := h.same_pj

theorem State.Inv.settle {s : State} (h : s.Inv) : (settle s).Inv := by
  unfold Machine.settle
  extract_lets s₁ s₂
  have hs₁ : s₁.Inv := h.tryForms.takeoverStart.unmute
  have hs₂ : s₂.Inv := hs₁.foldl _ _ fun s₃ _ hs₃ => hs₃.resolveStep
  exact hs₂.advance.refillAll.descriptors.purgeAdvances.journalResize.journalFound.tellChanged

theorem State.Inv.suspendCommands {s : State} {id : Nat} (h : s.Inv) : (suspendCommands s id).Inv := by
  unfold Machine.suspendCommands
  extract_lets _ s₁
  have hs₁ : s₁.Inv := h.foldl _ _ fun s₂ _ hs₂ => hs₂.writeOutcome.advanceIntent.foldl _ _ fun s₃ _ hs₃ => hs₃.conflict
  refine hs₁.foldl _ _ fun s₂ c hs₂ => ?_
  extract_lets s₃
  have hs₃ : s₃.Inv := by
    unfold s₃
    refine hs₂.foldl _ _ fun s₄ o hs₄ => ?_
    refine hs₄.foldl _ _ fun s₅ r hs₅ => ?_
    split
    · exact hs₅.writeOpen
    · exact hs₅
  exact hs₃.conflict

theorem State.Inv.ownSeatLost {s : State} {id : Nat} (h : s.Inv) : (ownSeatLost s id).Inv := by
  unfold Machine.ownSeatLost
  split
  · exact h
  · exact .ite h.putGroup h.putGroup.setGState

theorem State.Inv.adoptStatus {s : State} {g : Group} {s1 : StatusBody} {senderHull : Nat} (h : s.Inv) : (adoptStatus s g s1 senderHull).Inv := by
  unfold Machine.adoptStatus
  extract_lets _ _ _ _ _ _ _ _ _ s₁ s₂ s₃ s₄ s₅ s₆
  have hs₁ : s₁.Inv := h.putGroup
  have hs₂ : s₂.Inv := .ite hs₁ (hs₁.logCrew _)
  have hs₃ : s₃.Inv := .ite (hs₂.logCrew _) hs₂
  have hs₄ : s₄.Inv := .ite hs₃ hs₃.replan
  have hs₅ : s₅.Inv := .ite hs₄.ownSeatLost hs₄
  have hs₆ : s₆.Inv := hs₅.compareRows.soloCheck
  exact .ite h (.ite hs₆.suspendCommands hs₆)

theorem State.Inv.seatAwake {s : State} {hull : Nat} (h : s.Inv) : (seatAwake s hull).Inv :=
  .ite h (h.same.foldl _ _ fun _ _ hs₁ => hs₁.same.resendRequest)

theorem State.Inv.noteReport {s : State} {hull epoch phase : Nat} (h : s.Inv) : (noteReport s hull epoch phase).Inv := h.same

theorem State.Inv.execGroupStatus {s : State} (h : s.Inv) : Res.Inv (execGroupStatus s) := by
  unfold Machine.execGroupStatus
  refine h.onPeer fun s₁ id b hs₁ => ?_
  extract_lets _ _ _ s₂
  have hs₂ : s₂.Inv := hs₁.noteReport
  split
  · refine .ite hs₂.settle.next ?_
    extract_lets _ _ _ s₃ s₄ s₅ s₆ s₇
    have hs₃ : s₃.Inv := hs₂.putGroup
    have hs₄ : s₄.Inv := .ite (hs₃.logCrew _) hs₃
    have hs₅ : s₅.Inv := .ite hs₄.seatAwake hs₄
    have hs₆ : s₆.Inv := hs₅.adoptStatus
    have hs₇ : s₇.Inv := .ite hs₆.tryDeclare hs₆
    exact hs₇.settle.next
  · exact hs₂.settle.next

theorem State.Inv.execGroupStatusTimer {group : Nat} {s : State} (h : s.Inv) : Res.Inv (execGroupStatusTimer group s) := by
  unfold Machine.execGroupStatusTimer
  refine h.whileCore fun s₁ hs₁ => ?_
  split
  · exact hs₁.next
  · exact (State.Inv.sendStatus (.ite (hs₁.reach _).cycleStep (hs₁.reach _))).settle.next

theorem State.Inv.execFormingTimeout {group : Nat} {s : State} (h : s.Inv) : Res.Inv (execFormingTimeout group s) := by
  unfold Machine.execFormingTimeout
  refine h.whileCore fun s₁ hs₁ => ?_
  split
  · exact .ite hs₁.next (.ite (hs₁.reach _).next ((hs₁.reach _).foldl _ _ fun s₂ _ hs₂ => hs₂.declareLost).setGState.afterDegraded.settle.next)
  · exact hs₁.next

theorem State.Inv.execSeatSilenceExpiry {group seat : Nat} {s : State} (h : s.Inv) : Res.Inv (execSeatSilenceExpiry group seat s) := by
  unfold Machine.execSeatSilenceExpiry
  refine h.whileCore fun s₁ hs₁ => ?_
  split
  · exact hs₁.next
  · exact .ite hs₁.next (hs₁.reach _).tryDeclare.settle.next

theorem State.Inv.execWriteLimitExpiry {tag : Nat} {s : State} (h : s.Inv) : Res.Inv (execWriteLimitExpiry tag s) := by
  unfold Machine.execWriteLimitExpiry
  refine h.whileCore fun s₁ hs₁ => ?_
  split
  · exact hs₁.next
  · extract_lets s₂
    have hs₂ : s₂.Inv := hs₁.reach _
    split
    · exact hs₂.tryDeclare.settle.next
    · exact hs₂.next

theorem State.Inv.execRebuildNotice {s : State} (h : s.Inv) : Res.Inv (execRebuildNotice s) := by
  unfold Machine.execRebuildNotice
  refine h.onPeer fun s₁ id b hs₁ => ?_
  extract_lets
  split
  · exact hs₁.peerReply.next
  · exact hs₁.putGroup.setGState.afterDegraded.settle.peerReply.next

theorem State.Inv.freeStripe {s : State} {group stripe run gen : Nat} (h : s.Inv) : (freeStripe s group stripe run gen).Inv := by
  unfold Machine.freeStripe
  extract_lets
  split
  · exact h
  next s₁ e =>
    have hs₁ : s₁.Inv := by
      refine OnSome.of_eq (P := State.Inv) ?_ e
      exact .ite h.seatOutcome (.some h)
    exact (hs₁.foldl _ _ fun s₂ _ hs₂ => hs₂.peerRequest).foldl _ _ fun s₂ _ hs₂ => hs₂.dropKept

theorem State.Inv.execSliceDisown {s : State} (h : s.Inv) : Res.Inv (execSliceDisown s) :=
  h.onPeer fun _ _ _ hs₁ => (State.Inv.peerReply (.ite hs₁ hs₁.same)).next

/-! ### The form is kept: `Machine/Replay.lean` -/

theorem State.Inv.replayLoad {s : State} (h : s.Inv) : (replayLoad s).Inv := by
  unfold Machine.replayLoad
  extract_lets _ _ _ s₁ s₂ s₃ s₄
  have hs₁ : s₁.Inv := h.same_pj
  have hs₂ : s₂.Inv := hs₁.foldl _ _ fun s₅ _ hs₅ => hs₅.advanceIntent
  have hs₃ : s₃.Inv := hs₂.foldl _ _ fun s₅ _ hs₅ => .ite hs₅.resolveBegin hs₅.askResolvers
  have hs₄ : s₄.Inv := hs₃.foldl _ _ fun s₅ _ hs₅ => .ite hs₅.finishOpen hs₅.askResolvers
  exact hs₄.foldl _ _ fun s₅ _ hs₅ => hs₅.takeoverResolve

theorem State.Inv.replayAgain {s : State} (h : s.Inv) : (replayAgain s).Inv := h.foldl _ _ fun _ _ hs₁ => hs₁.resolveStep

theorem State.Inv.leaveReplay {s : State} (h : s.Inv) : (leaveReplay s).Inv := by
  unfold Machine.leaveReplay
  extract_lets _ s₁
  have hs₁ : s₁.Inv := .ite (h.logCrew _) h
  split
  · exact hs₁.enterReadOnly.settle
  · exact hs₁.same.sendAllStatus.settle

theorem State.Inv.execReplay {s : State} (h : s.Inv) : Res.Inv (execReplay s) := by
  unfold Machine.execReplay
  refine h.whileCore fun s₁ hs₁ => ?_
  refine .ite hs₁.next ?_
  extract_lets s₂ s₃ s₄
  have hs₂ : s₂.Inv := .ite hs₁.replayScan hs₁
  have hs₃ : s₃.Inv := .ite hs₂.replayLoad hs₂
  have hs₄ : s₄.Inv := hs₃.replayAgain.settle
  exact .ite hs₂.next (.ite .fault (State.Inv.next (.ite hs₄ hs₄.leaveReplay)))

/-! ### The form is kept: `Machine/Fetch.lean` -/

theorem State.Inv.dropFetches {s : State} {user : Nat} (h : s.Inv) : (dropFetches s user).Inv := h.same

theorem State.Inv.askUnit {s : State} {user group stripe : Nat} {g : GenSet} {pos seat : Nat} {retried : Bool} (h : s.Inv) :
    (askUnit s user group stripe g pos seat retried).Inv :=
  .ite h.wakeSeat.putFetch h.peerRequest.putFetch

theorem State.Inv.askAll {s : State} {user group stripe : Nat} {g : GenSet} {seats : List Nat} {us : List UnitState} {ps : List Nat}
    (h : s.Inv) : (askAll s user group stripe g seats us ps).Inv :=
  h.foldl _ _ fun _ _ hs₁ => hs₁.askUnit

theorem State.Inv.readStripe {s : State} {user group gen stripe : Nat} {want : List Nat} (h : s.Inv) :
    (readStripe s user group gen stripe want).1.Inv := by
  unfold Machine.readStripe
  split
  · extract_lets
    refine .fst_ite h ?_
    refine .fst_ite h ?_
    refine .fst_ite h ?_
    refine .fst_ite h.askAll ?_
    refine .fst_ite h.askAll ?_
    refine .fst_ite h ?_
    refine .fst_ite h.askAll ?_
    split
    · exact h
    · refine .fst_ite h.askAll ?_
      split
      · exact h
      · exact h
  · exact h
  · exact h

theorem State.Inv.replaceUnit {s : State} {group gen stripe : Nat} {p : Nat × Bytes} (h : s.Inv) : (replaceUnit s group gen stripe p).Inv := by
  unfold Machine.replaceUnit
  split
  · exact h
  · extract_lets _ s₁
    have hs₁ : s₁.Inv := h.logCrew _
    refine .ite ?_ hs₁.peerRequest
    split
    next s₂ e =>
      have hs₂ : s₂.Inv := hs₁.journalFragment _ e
      exact OnSome.getD hs₂.seatOutcome hs₂
    · exact hs₁

theorem State.Inv.stripeLostNow {s : State} {group gen stripe : Nat} (h : s.Inv) : (stripeLostNow s group gen stripe).Inv := by
  unfold Machine.stripeLostNow
  refine .ite h ?_
  extract_lets s₁
  have hs₁ : s₁.Inv := h.markLost
  split
  · exact .ite hs₁.setGState.suspendCommands hs₁
  · exact hs₁

theorem State.Inv.copyRecord {s : State} {h : RecHdr} {b : Bytes} (hs : s.Inv) : OnSome State.Inv (copyRecord s h b) := by
  unfold Machine.copyRecord
  extract_lets p
  split
  · exact .none
  next s₁ e =>
    have hs₁ : s₁.Inv := by
      refine OnSome.of_eq (P := fun p => p.2.Inv) ?_ e
      exact .ite .none hs.packRecord
    refine .ite (.some hs₁) ?_
    extract_lets
    split
    · exact .none
    next s₂ _ e₂ =>
      have hs₂ : s₂.Inv := hs₁.indexRecord _ e₂
      exact .some hs₂.changeAll

theorem State.Inv.copyRecords {l : List (RecHdr × Bytes)} {s : State} (h : s.Inv) : (copyRecords l s).1.Inv := by
  induction l generalizing s with
  | nil => exact h
  | cons x xs ih =>
    unfold Machine.copyRecords
    split
    next s₁ e =>
      have hs₁ : s₁.Inv := h.copyRecord _ e
      exact ih hs₁
    · exact h

theorem State.Inv.readRun {s : State} {user group gen k : Nat} {l : List Nat} (h : s.Inv) : (readRun s user group gen k l).1.Inv := by
  induction l generalizing s user group gen k with
  | nil => exact h
  | cons x xs ih =>
    unfold Machine.readRun
    extract_lets r t
    have hr : r.1.Inv := h.readStripe
    have ht : t.1.Inv := ih hr
    split
    · exact ht
    · exact ht
    · exact ht
    · exact ht

theorem State.Inv.copyLarge {s : State} {group : Nat} {h : RecHdr} {key stream : Bytes} (hs : s.Inv) :
    OnSome State.Inv (copyLarge s group h key stream) := by
  unfold Machine.copyLarge
  extract_lets
  split
  · extract_lets
    split
    · exact .none
    next s₁ e =>
      have hs₁ : s₁.Inv := hs.takeSerials _ e
      exact hs₁.openIntent
  · exact .none

theorem State.Inv.disownDone {s : State} {c : Copying} (h : s.Inv) : (disownDone s c).Inv :=
  .ite h (h.same.foldl _ _ fun _ _ hs₁ => hs₁.peerRequest)

theorem State.Inv.copyOut {s : State} {c : Copying} {stripe gen : Nat} (h : s.Inv) : Res.Inv (copyOut s c stripe gen) := by
  unfold Machine.copyOut
  extract_lets
  split
  · exact .fault
  · extract_lets r
    have hr : r.1.Inv := h.readStripe
    split
    · exact hr.next
    · exact hr.dropFetches.next
    · exact .fault
    · exact hr.same.dropFetches.disownDone.next
    · exact hr.stripeLostNow.same.dropFetches.disownDone.next
    · exact hr.stripeLostNow.same.dropFetches.disownDone.next
    · extract_lets _ w
      have hw : w.1.Inv := hr.copyRecords
      split
      · exact State.Inv.next (.ite hw.same.dropFetches.disownDone hw.sealOldest.advance)
      · extract_lets _ run
        have hrun : run.1.Inv := hr.readRun
        split
        · exact State.Inv.next (.ite hrun hrun.same.dropFetches.disownDone)
        · extract_lets
          split
          next s₁ e =>
            have hs₁ : s₁.Inv := hrun.copyLarge _ e
            exact hs₁.same.dropFetches.disownDone.next
          · exact hrun.next

theorem State.Inv.freeDead {s : State} {group : Nat} {k : KeptStripe} (h : s.Inv) : (freeDead s group k).Inv := .ite h h.freeStripe.cycleStep

theorem State.Inv.markCopied {s : State} {group stripe : Nat} (h : s.Inv) : (markCopied s group stripe).Inv := by
  unfold Machine.markCopied
  split
  · exact h.putGroup
  · exact h

theorem State.Inv.copyDescriptor {s : State} {group stripe : Nat} {recs : Bytes} (h : s.Inv) : (copyDescriptor s group stripe recs).Inv := by
  unfold Machine.copyDescriptor
  refine .ite (h.foldl _ _ fun s₁ _ hs₁ => hs₁.sealStripe).advance ?_
  split
  next s₁ e =>
    have hs₁ : s₁.Inv := by
      refine OnSome.of_eq (P := State.Inv) ?_ e
      exact .bind_any fun _ => h.clearStripe
    exact hs₁.markCopied
  · exact h.sealOldest.advance

theorem State.Inv.rewritePacked {s : State} {group : Nat} {k : KeptStripe} (h : s.Inv) : Res.Inv (rewritePacked s group k) := by
  unfold Machine.rewritePacked
  extract_lets
  split
  · exact .fault
  · extract_lets r s₁
    have hr : r.1.Inv := h.readStripe
    have hs₁ : s₁.Inv := hr.dropFetches
    split
    · exact hr.next
    · exact hr.dropFetches.next
    · exact .fault
    · exact hr.dropFetches.next
    · exact hr.dropFetches.stripeLostNow.next
    · exact hr.dropFetches.stripeLostNow.next
    · extract_lets _ _ w
      have hw : w.1.Inv := hs₁.copyRecords
      refine .ite hs₁.cycleStep.next ?_
      refine .ite hs₁.freeDead.next ?_
      exact .ite hs₁.cycleStep.next (.ite hs₁.copyDescriptor.cycleStep.next (State.Inv.cycleStep (.ite hw.markCopied hw.sealOldest.advance)).next)

theorem State.Inv.execStripeRewrite {group stripe : Nat} {s : State} (h : s.Inv) : Res.Inv (execStripeRewrite group stripe s) := by
  unfold Machine.execStripeRewrite
  refine h.whileCore fun s₁ hs₁ => ?_
  extract_lets
  refine .ite hs₁.next ?_
  split
  · exact hs₁.next
  · split
    · split
      · exact (hs₁.foldl _ _ fun s₂ _ hs₂ => hs₂.disownDone).next
      · exact hs₁.copyOut
    · refine .ite hs₁.next ?_
      exact .ite (State.Inv.next (.ite hs₁ hs₁.freeDead)) (.ite hs₁.freeDead.next (.ite hs₁.rewritePacked (.ite hs₁.cycleStep.next hs₁.freeDead.next)))

/-! ### The form is kept: `Machine/Epoch.lean` -/

theorem State.Inv.bulkCopies {s : State} {v : RigView} (h : s.Inv) : (bulkCopies s v).Inv :=
  (h.foldl _ _ fun _ _ hs₁ => hs₁.foldl _ _ fun _ _ hs₂ => hs₂.copyTo).same

theorem State.Inv.lastDeltas {s : State} {v : RigView} (h : s.Inv) : (lastDeltas s v).Inv :=
  (h.foldl _ _ fun _ _ hs₁ => hs₁.foldl _ _ fun _ _ hs₂ => hs₂.copyTo).same

theorem State.Inv.takeCopy {s : State} {x b : Nat} {changes : List Bytes} (h : s.Inv) : (takeCopy s x b changes).1.Inv := by
  unfold Machine.takeCopy
  extract_lets _ t s₁ _ chs f ms g
  have ht : t.Inv := h.holdSlice
  have hs₁ : s₁.Inv := by
    refine .ite (.ite h.renewSlice h) ?_
    split
    · exact ht.putSlice
    · exact ht
  have hf : f.1.Inv := (hs₁.foldl _ _ fun u _ hu => hu.notePurge).fillSlice
  have hg : g.1.Inv := hf.fillSlice
  refine .fst_ite hs₁ (.fst_ite hf (.fst_ite hf (.fst_ite hg ?_)))
  dsimp only
  split
  · exact hg.refillEnd
  · exact hg

theorem State.Inv.execSliceCopy {s : State} (h : s.Inv) : Res.Inv (execSliceCopy s) := by
  unfold Machine.execSliceCopy
  refine h.onPeer fun s₁ id b hs₁ => ?_
  extract_lets
  refine .ite hs₁.peerReply.copyTo.next ?_
  split
  · exact hs₁.peerReply.next
  · exact State.Inv.next (.ite hs₁.takeCopy.peerReply hs₁.takeCopy.putBack)

theorem State.Inv.openChannel {s : State} {hull : Nat} (h : s.Inv) : (openChannel s hull).Inv := by
  unfold Machine.openChannel
  refine .ite h ?_
  extract_lets s₁
  have hs₁ : s₁.Inv := h.pairChannel
  split
  · exact hs₁.keyChannel
  · exact hs₁

theorem State.Inv.rigChannels {s : State} (h : s.Inv) : (rigChannels s).Inv := (h.foldl _ _ fun _ _ hs₁ => hs₁.openChannel).same_pj

theorem State.Inv.stagedNow {s : State} (h : s.Inv) : (stagedNow s).Inv := h.rigChannels.tellChanged

theorem State.Inv.execRigStageEnd {s : State} (h : s.Inv) : Res.Inv (execRigStageEnd s) :=
  h.whileCore fun _ hs₁ => .ite (Res.Inv.andThen hs₁.rigStageEnd fun _ hs₂ => hs₂.stagedNow.next) hs₁.next

theorem State.Inv.execRigCtrlDiscard {core : Nat} {s : State} (h : s.Inv) : Res.Inv (execRigCtrlDiscard core s) :=
  h.coreStore fun _ hs₁ => hs₁.rigDiscard.stagedNow.next

theorem State.Inv.recordOutcome {s : State} {e : Nat} {commit : Bool} (h : s.Inv) : (recordOutcome s e commit).Inv := h.same

theorem State.Inv.recordBehind {s : State} {e : Nat} (h : s.Inv) : (recordBehind s e).Inv := h.same

theorem State.Inv.tellStaged {s : State} {v : RigView} (h : s.Inv) : (tellStaged s v).Inv := by
  unfold Machine.tellStaged
  split
  · exact h
  · exact h.foldl _ _ fun s₁ _ hs₁ => hs₁.tellHulls

theorem State.Inv.enterStaged {s : State} {v : RigView} (h : s.Inv) : (enterStaged s v).Inv := .ite h.same.sendAllStatus.tellStaged h

theorem State.Inv.sendChange {s : State} {op : Nat} {hulls : List Nat} (h : s.Inv) : (sendChange s op hulls).Inv :=
  h.foldl _ _ fun _ _ hs₁ => hs₁.peerRequest

theorem State.Inv.execEpochChangeStart {s : State} (h : s.Inv) : Res.Inv (execEpochChangeStart s) := by
  unfold Machine.execEpochChangeStart
  refine h.whileCore fun s₁ hs₁ => ?_
  split
  · exact hs₁.next
  · exact .ite hs₁.next (.ite hs₁.bulkCopies.enterStaged.same.sendChange.sealAll.advance.next hs₁.bulkCopies.enterStaged.next)

theorem State.Inv.epochAbort {s : State} (h : s.Inv) : (epochAbort s).Inv :=
  ((State.Inv.same (.ite h.recordOutcome.same.rigDiscard h.recordOutcome.same)).logCrew _).sendAllStatus

theorem State.Inv.commitSwap {s : State} (h : s.Inv) : (commitSwap s).Inv := h.same.rigActivate

theorem State.Inv.epochDecide {s : State} {limit : Bool} (h : s.Inv) : (epochDecide s limit).Inv := by
  unfold Machine.epochDecide
  refine .ite h ?_
  extract_lets _ s₁ s₂ _ s₃
  have hs₁ : s₁.Inv := by
    unfold s₁
    split
    · exact h.lastDeltas
    · exact h
  have hs₂ : s₂.Inv := hs₁.recordOutcome
  have hs₃ : s₃.Inv := hs₂.same
  exact .ite hs₃.sendChange.commitSwap (.ite h.sendChange.epochAbort h)

theorem State.Inv.execEpochLeaderLimit {s : State} (h : s.Inv) : Res.Inv (execEpochLeaderLimit s) :=
  h.whileCore fun _ hs₁ => .ite (hs₁.reach _).epochDecide.settle.next hs₁.next

theorem State.Inv.execEpochPrepare {s : State} (h : s.Inv) : Res.Inv (execEpochPrepare s) := by
  unfold Machine.execEpochPrepare
  refine h.onPeer fun s₁ id b hs₁ => ?_
  extract_lets _ _ _ s₂ s₃ _ s₄
  have hs₂ : s₂.Inv := hs₁.same.sealAll.advance
  have hs₃ : s₃.Inv := by
    unfold s₃
    split
    · exact hs₂.lastDeltas
    · exact hs₂
  have hs₄ : s₄.Inv := hs₃.same
  exact .ite hs₁.peerReply.next (.ite hs₁.peerReply.next (.ite hs₂.putBack.next hs₄.sendAllStatus.peerReply.next))

theorem State.Inv.execEpochCommit {s : State} (h : s.Inv) : Res.Inv (execEpochCommit s) :=
  h.onPeer fun _ _ _ hs₁ => .ite hs₁.peerReply.next (.ite hs₁.peerReply.next hs₁.recordOutcome.commitSwap.putBack.next)

theorem State.Inv.execEpochAbort {s : State} (h : s.Inv) : Res.Inv (execEpochAbort s) :=
  h.onPeer fun _ _ _ hs₁ => (State.Inv.peerReply (.ite hs₁.same.epochAbort hs₁)).settle.next

theorem State.Inv.execEpochQuery {s : State} (h : s.Inv) : Res.Inv (execEpochQuery s) := by
  unfold Machine.execEpochQuery
  refine h.onPeer fun s₁ id b hs₁ => ?_
  extract_lets _ _ s₂ _ s₃
  have hs₂ : s₂.Inv := .ite hs₁.recordBehind (.ite hs₁.recordOutcome hs₁)
  have hs₃ : s₃.Inv := .ite hs₂.same.sendAllStatus hs₂
  exact hs₃.peerReply.next

theorem State.Inv.epochAnswered {s : State} {hull code : Nat} (h : s.Inv) : (epochAnswered s hull code).Inv :=
  .ite h (.ite h.same.recordOutcome.commitSwap (.ite h.same.epochAbort h.same.same))

theorem State.Inv.execEpochPreparedTimeout {s : State} (h : s.Inv) : Res.Inv (execEpochPreparedTimeout s) :=
  h.whileCore fun _ hs₁ => .ite hs₁.next (hs₁.reach _).dropRequests.same.sendChange.next

theorem State.Inv.rigGroups {s : State} (h : s.Inv) : (rigGroups s).Inv :=
  h.same.foldl _ _ fun _ _ hs₁ => hs₁.setGState.compareRows.afterDegraded

theorem State.Inv.rigSlices {s : State} {acted sameTaken : List Nat} (h : s.Inv) : (rigSlices s acted sameTaken).1.Inv := by
  unfold Machine.rigSlices
  extract_lets _ _ s₁ s₂ s₃ s₄ s₅
  have hs₁ : s₁.Inv := h.foldl _ _ fun s₆ _ hs₆ => hs₆.leaveSlice
  have hs₂ : s₂.Inv := hs₁.foldl _ _ fun s₆ _ hs₆ => hs₆.relaySlice
  have hs₃ : s₃.Inv := hs₂.foldl _ _ fun s₆ _ hs₆ => hs₆.holdSlice
  have hs₄ : s₄.Inv := by
    unfold s₄
    refine hs₃.foldl _ _ fun s₆ x hs₆ => ?_
    split
    · exact hs₆.putSlice
    · exact hs₆
  have hs₅ : s₅.Inv := hs₄.foldl _ _ fun s₆ _ hs₆ => hs₆.setActing
  exact hs₅

theorem State.Inv.rerunHeld {s : State} (h : s.Inv) : (rerunHeld s).Inv := h.foldl _ _ fun _ _ hs₁ => .ite hs₁ hs₁.finish

theorem State.Inv.applyRig {s : State} {first : Bool} {acted sameTaken : List Nat} (h : s.Inv) : (applyRig s first acted sameTaken).Inv :=
  (State.Inv.rerunHeld (.ite h.rigGroups.rigSlices.raiseView.rigChannels h.rigGroups.rigSlices.raiseView.rigChannels.startCopying)).settle

theorem State.Inv.leaderDone {s : State} (h : s.Inv) : (leaderDone s).Inv := .ite (h.same.logCrew _).sendAllStatus h

/-! ### The form is kept: `Machine/Admin.lean` -/

theorem State.Inv.saveRetention {s : State} (h : s.Inv) : (saveRetention s).Inv := by
  unfold Machine.saveRetention
  split
  · exact OnSome.getD h.same.cfgAppend h.same
  · exact h

theorem State.Inv.clockSet {s : State} {seconds nanos : Nat} {force : Bool} (h : s.Inv) : (clockSet s seconds nanos force).1.Inv :=
  (((h.setF _ _).setF _ _).setF _ _).same.logCrew _

theorem State.Inv.execClockSet {cmd : Nat} {s : State} (h : s.Inv) : Res.Inv (execClockSet cmd s) :=
  h.onCmd fun _ _ hs₁ => hs₁.clockSet.answer.next

theorem State.Inv.execPtpTimeApply {seconds nanos : Nat} {s : State} (h : s.Inv) : Res.Inv (execPtpTimeApply seconds nanos s) :=
  h.whileCore fun _ hs₁ => hs₁.clockSet.next

theorem State.Inv.execRetentionClockSave {s : State} (h : s.Inv) : Res.Inv (execRetentionClockSave s) :=
  h.whileCore fun _ hs₁ => .ite (hs₁.reach _).saveRetention.next hs₁.next

theorem State.Inv.putAccess {s : State} {p : (Nat × Nat) × Nat × Nat × Nat × Bool} (h : s.Inv) : (putAccess s p).Inv := h.putUnit.putEnt

theorem State.Inv.accessSync {s : State} (h : s.Inv) : (accessSync s).Inv :=
  .ite h ((h.same.foldl _ _ fun _ _ hs₁ => hs₁.putAccess).foldl _ _ fun _ _ hs₁ => hs₁.touchBank)

theorem State.Inv.putNs {s : State} {n : Namespace} (h : s.Inv) : (putNs s n).Inv := h.same

theorem State.Inv.purgeSlice {nsid n : Nat} {l : List Nat} {s : State} (h : s.Inv) : (purgeSlice nsid n l s).1.Inv := by
  induction l generalizing nsid n s with
  | nil => exact h
  | cons x xs ih =>
    unfold Machine.purgeSlice
    extract_lets r t
    have hr : r.1.Inv := by
      unfold r
      split
      · exact h
      · split
        next e =>
          exact h.journalApply _ e
        · exact h
    have ht : t.1.Inv := ih hr
    exact ht

theorem State.Inv.purgeNs {nsid : Nat} {l : List Nat} {s : State} (h : s.Inv) : (purgeNs nsid l s).1.Inv := by
  induction l generalizing nsid s with
  | nil => exact h
  | cons x xs ih =>
    unfold Machine.purgeNs
    exact ih h.purgeSlice

theorem State.Inv.removeNs {s : State} {nsid : Nat} (h : s.Inv) : (removeNs s nsid).1.Inv :=
  (State.Inv.same (.ite (h.foldl _ _ fun _ _ hs₁ => hs₁.clearSlot).addNote (h.foldl _ _ fun _ _ hs₁ => hs₁.clearSlot))).purgeNs

theorem State.Inv.nsSeal {s : State} {nsid : Nat} (h : s.Inv) : (nsSeal s nsid).Inv := h.foldl _ _ fun _ _ hs₁ => hs₁.sealStripe

theorem State.Inv.closeTenant {s : State} {id : Nat} (h : s.Inv) : (closeTenant s id).1.Inv := h.foldl _ _ fun _ _ hs₁ => hs₁.sessDrop

theorem State.Inv.applyRecord {s : State} {removal : Bool} {key value : Bytes} {version : Nat} (h : s.Inv) :
    (applyRecord s removal key value version).1.Inv := by
  unfold Machine.applyRecord
  extract_lets _ _ r _ _ r₁
  have hr : r.1.Inv := h.removeNs
  have hr₁ : r₁.1.Inv := h.same.closeTenant
  refine .fst_ite ?_ ?_
  · exact .fst_ite (State.Inv.accessSync (.ite (hr.logCrew _) hr)) (h.putNs.logCrew _).accessSync
  · exact .fst_ite (.fst_ite (hr₁.logCrew _).accessSync (h.same.logCrew _).accessSync) (h.same.logCrew _)

theorem State.Inv.adminPlan {s : State} {cap : Bytes} (h : s.Inv) : (adminPlan s cap).2.Inv := by
  unfold Machine.adminPlan
  extract_lets _ _ _ _ salt key
  have hsalt : salt.2.Inv := .snd_ite h (h.freshBytes _)
  have hkey : key.2.Inv := hsalt.freshBytes _
  refine .snd_ite ?_ ?_
  · refine .snd_ite h ?_
    split
    · exact hkey.setSlot.putNs
    · exact h
  · refine .snd_ite ?_ ?_
    · split
      · exact h
      · exact h
    · refine .snd_ite (.snd_ite h h) ?_
      refine .snd_ite (.snd_ite h (.snd_ite h (.snd_ite h h))) ?_
      exact .snd_ite (.snd_ite h (.snd_ite h h)) (.snd_ite (.snd_ite h (.snd_ite h h)) (.snd_ite h h))

theorem State.Inv.putChange {s : State} {c : AdminChange} (h : s.Inv) : (putChange s c).Inv := h.same

theorem State.Inv.endChange {s : State} {c : AdminChange} {status res : Nat} (h : s.Inv) : (endChange s c status res).Inv := by
  unfold Machine.endChange
  extract_lets _ s₁ _ _ _ _ s₂
  have hs₁ : s₁.Inv := h.same
  have hs₂ : s₂.Inv := hs₁.same
  refine .ite hs₁ ?_
  refine .ite ?_ ?_
  · split
    · exact hs₁.answer
    · exact hs₁
  · refine .ite ?_ hs₁.same
    split
    · exact hs₂.peerEmit
    · exact hs₂

theorem State.Inv.sendRecord {s : State} {c : AdminChange} {l : List Nat} (h : s.Inv) : (sendRecord s c l).1.Inv := by
  induction l generalizing s c with
  | nil => exact h
  | cons x xs ih =>
    unfold Machine.sendRecord
    exact ih h.peerRequest

theorem State.Inv.noteCount {s : State} {key : Bytes} {o : Option Nat} (h : s.Inv) : (noteCount s key o).Inv := by
  unfold Machine.noteCount
  split
  · exact h
  · exact h.same

theorem State.Inv.sendOut {s : State} {c : AdminChange} (h : s.Inv) : OnSome State.Inv (sendOut s c) := by
  unfold Machine.sendOut
  extract_lets
  refine .ite .none ?_
  split
  · exact .none
  next s₁ e =>
    have hs₁ : s₁.Inv := h.packRecord _ e
    extract_lets
    split
    · exact .none
    next s₂ _ e₂ =>
      have hs₂ : s₂.Inv := hs₁.indexRecord _ e₂
      exact .some hs₂.changeAll.applyRecord.noteCount.sendRecord.putChange

theorem State.Inv.endBlocked {s : State} {c : AdminChange} {n : Nat} (h : s.Inv) : (endBlocked s c n).Inv := by
  unfold Machine.endBlocked
  split
  · exact h.fresh.endChange
  · exact (h.logCrew _).endChange
  · exact h.endChange

theorem State.Inv.tryOut {back s : State} {c : AdminChange} (h : back.Inv) (hs : s.Inv) : (tryOut back s c).Inv := by
  unfold Machine.tryOut
  refine .ite h.endBlocked ?_
  split
  next e =>
    exact hs.sendOut _ e
  · exact .ite h.nsSeal h.sealOldest

theorem State.Inv.finishRemoval {s : State} {c : AdminChange} (h : s.Inv) : (finishRemoval s c).Inv :=
  .ite (.ite h.applyRecord.putChange h.applyRecord) h

theorem State.Inv.adminStep {s : State} {c : AdminChange} (h : s.Inv) : (adminStep s c).Inv := by
  unfold Machine.adminStep
  extract_lets _ _ s₁
  have hs₁ : s₁.Inv := h.finishRemoval
  refine .ite (.ite h.endChange h) ?_
  refine .ite ?_ ?_
  · refine .ite h ?_
    split
    · exact h
    next t₁ e =>
      have ht₁ : t₁.Inv := .of_snd h.adminPlan e
      exact ht₁.endChange
    next t₁ e =>
      have ht₁ : t₁.Inv := .of_snd h.adminPlan e
      exact .ite ht₁.sendRecord.putChange (h.tryOut ht₁)
  · refine .ite (.ite h (.ite h.endChange (.ite h.endChange (h.tryOut h)))) ?_
    split
    · exact .ite hs₁.endChange hs₁
    · exact hs₁

theorem State.Inv.zeroChange {s : State} (h : s.Inv) : (zeroChange s).Inv := .ite h (.ite h.same h)

theorem State.Inv.adminProgress {s : State} (h : s.Inv) : (adminProgress s).Inv := by
  unfold Machine.adminProgress
  extract_lets s₁
  have hs₁ : s₁.Inv := h.zeroChange
  refine hs₁.foldl _ _ fun s₂ id hs₂ => ?_
  split
  · exact hs₂.adminStep
  · exact hs₂

theorem State.Inv.settleAll {s : State} (h : s.Inv) : (settleAll s).Inv := h.settle.adminProgress

theorem State.Inv.newChange {s : State} {cap : Bytes} {tenant kind owner tag : Nat} (h : s.Inv) : (newChange s cap tenant kind owner tag).Inv :=
  h.same.adminProgress

theorem State.Inv.routeChange {s : State} {cap : Bytes} {tenant kind owner : Nat} (h : s.Inv) : (routeChange s cap tenant kind owner).1.Inv :=
  .fst_ite h.newChange h.peerRequest

theorem State.Inv.adminRow {cmd op : Nat} {s : State} (h : s.Inv) : Res.Inv (adminRow cmd op s) := by
  unfold Machine.adminRow
  refine h.onCmd fun s₁ c hs₁ => ?_
  extract_lets _ _ _ s₂ r
  have hs₂ : s₂.Inv := hs₁.putCmd
  have hr : r.1.Inv := hs₂.routeChange
  refine .ite hs₁.settleAll.next ?_
  refine .ite hs₁.answer.next ?_
  refine .ite hs₁.conflict.next ?_
  refine .ite hs₁.next ?_
  refine State.Inv.next ?_
  split
  · exact .ite hr hr.putCmd
  · exact hr

theorem State.Inv.execNsCreate {cmd : Nat} {s : State} (h : s.Inv) : Res.Inv (execNsCreate cmd s) := h.adminRow

theorem State.Inv.execNsSet {cmd : Nat} {s : State} (h : s.Inv) : Res.Inv (execNsSet cmd s) := h.adminRow

theorem State.Inv.execNsDelete {cmd : Nat} {s : State} (h : s.Inv) : Res.Inv (execNsDelete cmd s) := h.adminRow

theorem State.Inv.execTenantSet {cmd : Nat} {s : State} (h : s.Inv) : Res.Inv (execTenantSet cmd s) := h.adminRow

theorem State.Inv.execTenantDelete {cmd : Nat} {s : State} (h : s.Inv) : Res.Inv (execTenantDelete cmd s) := h.adminRow

theorem State.Inv.execTenantQuery {cmd : Nat} {s : State} (h : s.Inv) : Res.Inv (execTenantQuery cmd s) := by
  unfold Machine.execTenantQuery
  refine h.onCmd fun s₁ c hs₁ => ?_
  split
  · exact hs₁.answer.next
  · exact hs₁.answerData.next

theorem State.Inv.execAdminForward {s : State} (h : s.Inv) : Res.Inv (execAdminForward s) := by
  unfold Machine.execAdminForward
  refine h.onPeer fun s₁ id b hs₁ => ?_
  extract_lets
  split
  · exact hs₁.peerEmit.next
  · split
    · exact hs₁.putChange.settleAll.next
    · exact .ite hs₁.peerReply.next (.ite hs₁.peerEmit.next (.ite hs₁.peerEmit.next hs₁.newChange.next))

theorem State.Inv.takeKey {s : State} {hull : Nat} {v : Bytes} (h : s.Inv) : OnSome (fun p => p.2.2.Inv) (takeKey s hull v) := by
  unfold Machine.takeKey
  split
  · exact .ite (.some h.setSlot) .none
  · exact .none

theorem State.Inv.execAdminRecord {s : State} (h : s.Inv) : Res.Inv (execAdminRecord s) := by
  unfold Machine.execAdminRecord
  refine h.onPeer fun s₁ id b hs₁ => ?_
  extract_lets
  split
  · exact hs₁.peerReply.next
  · extract_lets _ _ _ _ r s₂
    have hr : r.1.Inv := hs₁.applyRecord
    have hs₂ : s₂.Inv := hr.noteCount
    refine .ite hs₁.peerReply.next ?_
    refine .ite ?_ ?_
    · refine .ite hs₁.putBack.next ?_
      split
      · exact (hs₁.logCrew _).peerReply.next
      next s₃ e =>
        have hs₃ : s₃.Inv := hs₁.takeKey _ e
        exact (hs₃.putNs.logCrew _).accessSync.peerReply.settleAll.next
    · exact .ite hs₁.nsSeal.putBack.next (State.Inv.settleAll (.ite hs₂.peerReply hs₂.putBack)).next

theorem State.Inv.resendRecord {s : State} {c : AdminChange} {hull : Nat} (h : s.Inv) : (resendRecord s c hull).Inv := by
  unfold Machine.resendRecord
  split
  · exact h
  · exact h.dropRequests.sendRecord.putChange

theorem State.Inv.execAdminRecordResend {change hull : Nat} {s : State} (h : s.Inv) : Res.Inv (execAdminRecordResend change hull s) := by
  unfold Machine.execAdminRecordResend
  refine h.whileCore fun s₁ hs₁ => ?_
  split
  · exact hs₁.next
  · exact (hs₁.reach _).resendRecord.settleAll.next

theorem State.Inv.sendOwn {s : State} {hull : Nat} (h : s.Inv) : (sendOwn s hull).Inv :=
  (h.foldl _ _ fun _ _ hs₁ => hs₁.peerRequest).foldl _ _ fun _ _ hs₁ => hs₁.peerRequest

theorem State.Inv.execJoin {s : State} (h : s.Inv) : Res.Inv (execJoin s) :=
  h.onPeer fun _ _ _ hs₁ => .ite hs₁.putBack.next hs₁.sendOwn.peerReply.next

/-! ### The form is kept: `Machine/Arch.lean` -/

theorem State.Inv.execFence {core : Nat} {s : State} (h : s.Inv) : Res.Inv (execFence core s) := h.coreRuns fun _ hs₁ => hs₁.coreFence.next

theorem State.Inv.execFenceI {core : Nat} {s : State} (h : s.Inv) : Res.Inv (execFenceI core s) := h.coreRuns fun _ hs₁ => hs₁.coreFenceI.next

theorem State.Inv.execWfi {core : Nat} {s : State} (h : s.Inv) : Res.Inv (execWfi core s) := h.coreRuns fun _ hs₁ => .ite hs₁.same.next hs₁.next

theorem State.Inv.claimRead {s : State} {core : Nat} (h : s.Inv) : (claimRead s core).1.Inv := by
  unfold Machine.claimRead
  split
  · exact h
  · exact h.same

theorem State.Inv.execIrqClaim {core : Nat} {s : State} (h : s.Inv) : Res.Inv (execIrqClaim core s) :=
  h.coreRuns fun _ hs₁ => (hs₁.claimRead.emit _).next

theorem State.Inv.execIrqComplete {core id : Nat} {s : State} (h : s.Inv) : Res.Inv (execIrqComplete core id s) :=
  h.coreRuns fun _ hs₁ => hs₁.same.next

theorem State.Inv.execMachineTimerExpiry {core : Nat} {s : State} (h : s.Inv) : Res.Inv (execMachineTimerExpiry core s) :=
  h.whileCore fun _ hs₁ => .ite hs₁.next (hs₁.reach _).same.next

theorem State.Inv.execFabErrClear {core : Nat} {s : State} (h : s.Inv) : Res.Inv (execFabErrClear core s) :=
  h.coreRuns fun _ hs₁ => (hs₁.setF _ _).next

/-! ### The form is kept: `Machine/Cache.lean` -/

theorem State.Inv.putScPort {s : State} {rid : Nat} {p : Option ScPort} (h : s.Inv) : (putScPort s rid p).Inv := h.same

theorem State.Inv.scAnswer {s : State} {r : ScReq} {kind : Option Nat} {b : Bytes} (h : s.Inv) : (scAnswer s r kind b).Inv := by
  unfold Machine.scAnswer
  split
  · exact .ite h (h.emit _)
  · exact .ite (State.Inv.emit (.ite (h.fabLatch _ _ _ _) ((h.fabLatch _ _ _ _).emit _)) _) (.ite (h.fabLatch _ _ _ _) ((h.fabLatch _ _ _ _).emit _))

theorem State.Inv.scServe {s : State} {r : ScReq} {l : ScLine} (h : s.Inv) : (scServe s r l).Inv := by
  unfold Machine.scServe
  extract_lets _ s₁ s₂ _ p s₃
  have hs₁ : s₁.Inv := by
    unfold s₁
    split
    · exact h.streamWrite
    · exact h
  have hs₂ : s₂.Inv := hs₁.scHit
  have hp : p.1.Inv := .fst_ite hs₂.dramLine hs₂
  have hs₃ : s₃.Inv := .ite hp.wayFail (.ite hp.wayCorrected hp)
  refine .ite hs₂.lineLost.scAnswer ?_
  split
  · exact hs₃.scDrop.scAnswer
  · extract_lets
    split
    · exact hs₃.scHold.scAnswer
    · exact State.Inv.scHold (.ite hs₃.dramStore hs₃)

theorem State.Inv.dramFetch {s : State} {r : ScReq} {a n : Nat} (h : s.Inv) : (dramFetch s r a n).1.Inv :=
  .fst_ite h.dmcLatch (.fst_ite (h.dramLine.countF _ _) h.dramLine)

theorem State.Inv.scIssue {s : State} {r : ScReq} (h : s.Inv) : (scIssue s r).Inv := by
  unfold Machine.scIssue
  extract_lets _ p s₁
  have hp : p.1.Inv := h.dramFetch
  have hs₁ : s₁.Inv := h.countF _ _
  refine .ite ?_ ?_
  · split
    · exact h.offStore
    · exact hp.scAnswer
  · split
    · exact h.scServe
    · refine .ite h.putScPort ?_
      split
      · exact hs₁.putScPort
      · exact .ite h.putScPort h.scWrite

theorem State.Inv.scReplay {l : List ScReq} {s : State} (h : s.Inv) : (scReplay l s).Inv := by
  induction l generalizing s with
  | nil => exact h
  | cons x xs ih =>
    unfold Machine.scReplay
    split
    · exact ih h.putScPort
    · exact ih h.scIssue

theorem State.Inv.scActs {s : State} {rid core addr n : Nat} {wr : Bool} (h : s.Inv) : (scActs s rid core addr n wr).Inv :=
  .ite (.ite h.coreActs.coreWrote h.coreActs) h

theorem State.Inv.execScAccess {rid core addr len write : Nat} {data : Bytes} {err : Nat} {s : State} (h : s.Inv) :
    Res.Inv (execScAccess rid core addr len write data err s) := by
  unfold Machine.execScAccess
  refine h.whileCore fun s₁ hs₁ => ?_
  refine .ite hs₁.next ?_
  extract_lets _ s₂
  have hs₂ : s₂.Inv := hs₁.scActs
  split
  · exact hs₂.scAnswer.next
  · refine .ite hs₂.next ?_
    refine .ite .fault ?_
    refine .ite .fault ?_
    split
    · exact hs₂.scIssue.next
    · extract_lets
      split
      · exact .ite hs₂.scServe.next hs₂.putScPort.next
      · exact .ite hs₂.scWrite.next hs₂.putScPort.next

theorem State.Inv.execScFillComplete {rid : Nat} {s : State} (h : s.Inv) : Res.Inv (execScFillComplete rid s) := by
  unfold Machine.execScFillComplete
  refine h.whileCore fun s₁ hs₁ => ?_
  split
  · exact hs₁.next
  · split
    · exact hs₁.putScPort.next
    · refine .ite hs₁.next ?_
      refine .ite hs₁.putScPort.scReplay.next ?_
      extract_lets _ _ f s₂ s₃ _ s₄
      have hf : f.1.Inv := hs₁.dramFetch
      have hs₂ : s₂.Inv := hf.putScPort
      have hs₃ : s₃.Inv := by
        unfold s₃
        split
        · exact hs₂.scAnswer
        · exact .ite hs₂.scAlloc.scAnswer (hs₂.countF _ _).scAnswer
      have hs₄ : s₄.Inv := .ite (hs₃.foldl _ _ fun s₅ _ hs₅ => hs₅.putScPort.scReplay) hs₃
      exact hs₄.scReplay.next

theorem State.Inv.execScEvictionDone {line err : Nat} {s : State} (h : s.Inv) : Res.Inv (execScEvictionDone line err s) := by
  unfold Machine.execScEvictionDone
  refine h.whileCore fun s₁ hs₁ => ?_
  split
  · exact hs₁.next
  · extract_lets _ s₂ s₃
    have hs₂ : s₂.Inv := hs₁.same
    have hs₃ : s₃.Inv := .ite (.ite hs₂.lineLost hs₂.wayFail) (.ite hs₁.evictWrite.wayCorrected hs₁.evictWrite)
    exact (hs₃.foldl _ _ fun s₄ _ hs₄ => hs₄.putScPort.scReplay).next

theorem State.Inv.execScWayDisableEnd {way : Nat} {s : State} (h : s.Inv) : Res.Inv (execScWayDisableEnd way s) := by
  unfold Machine.execScWayDisableEnd
  refine h.whileCore fun s₁ hs₁ => ?_
  split
  · exact hs₁.next
  · extract_lets _ s₂ _ s₃ s₄ s₅
    have hs₂ : s₂.Inv := hs₁.foldl _ _ fun s₆ _ hs₆ => State.Inv.scDrop (.ite hs₆.dramStore hs₆)
    have hs₃ : s₃.Inv := hs₂.same
    have hs₄ : s₄.Inv := hs₃.setF _ _
    have hs₅ : s₅.Inv := .ite (hs₄.setF _ _) hs₄
    exact (hs₅.logEv _ _ _ _).next

theorem State.Inv.execScWayEnable {core ways : Nat} {s : State} (h : s.Inv) : Res.Inv (execScWayEnable core ways s) :=
  h.coreStore fun _ hs₁ => (((hs₁.foldl _ _ fun _ _ hs₂ => hs₂.setF _ _).setF _ _).setF _ _).next

theorem State.Inv.maintVisit {op : Nat} {s : State} {la : Nat} (h : s.Inv) : (maintVisit op s la).Inv := by
  unfold Machine.maintVisit
  split
  · exact h
  · extract_lets s₁ s₂
    have hs₁ : s₁.Inv := h.wayVisit
    have hs₂ : s₂.Inv := .ite (hs₁.dramStore.countF _ _) hs₁
    exact .ite (.ite (hs₁.dramStore.scHold.countF _ _) hs₁) (.ite hs₁.scDrop hs₂.scDrop)

theorem State.Inv.maintGo {core op all : Nat} {s : State} (h : s.Inv) : Res.Inv (maintGo core op all s) := by
  unfold Machine.maintGo
  refine h.coreStore fun s₁ hs₁ => ?_
  refine .ite (hs₁.setF _ _).next ?_
  extract_lets s₂ _ _ _ _ p _ s₃
  have hs₂ : s₂.Inv := (hs₁.setF _ _).setF _ _
  have hp : p.2.Inv := hs₂.fresh
  have hs₃ : s₃.Inv := hp.foldl _ _ fun s₄ _ hs₄ => hs₄.maintVisit
  exact .ite (hs₂.setF _ _).next (hs₃.same.setF _ _).next

theorem State.Inv.execScClean {core all : Nat} {s : State} (h : s.Inv) : Res.Inv (execScClean core all s) := h.whileCore fun _ hs₁ => hs₁.maintGo

theorem State.Inv.execScInvalidate {core all : Nat} {s : State} (h : s.Inv) : Res.Inv (execScInvalidate core all s) :=
  h.whileCore fun _ hs₁ => hs₁.maintGo

theorem State.Inv.execScCleanInvalidate {core all : Nat} {s : State} (h : s.Inv) : Res.Inv (execScCleanInvalidate core all s) :=
  h.whileCore fun _ hs₁ => hs₁.maintGo

theorem State.Inv.maintEcc {s : State} {left : List Nat} {la err : Nat} (h : s.Inv) : (maintEcc s left la err).Inv := by
  unfold Machine.maintEcc
  split
  · exact h
  · exact .ite h.scHold.wayCorrected (.ite (.ite h.lineLost h.scDrop.wayFail) h)

theorem State.Inv.execScMaintEnd {line err : Nat} {s : State} (h : s.Inv) : Res.Inv (execScMaintEnd line err s) := by
  unfold Machine.execScMaintEnd
  refine h.whileCore fun s₁ hs₁ => ?_
  split
  · exact hs₁.next
  · exact (((hs₁.maintEcc.foldl _ _ fun s₂ _ hs₂ => hs₂.maintVisit).same.setF _ _).setF _ _).next

theorem State.Inv.execScPrefetchHint {core lines rid : Nat} {s : State} (h : s.Inv) : Res.Inv (execScPrefetchHint core lines rid s) := by
  unfold Machine.execScPrefetchHint
  refine h.coreStore fun s₁ hs₁ => ?_
  exact .ite (((hs₁.setF _ _).setF _ _).countF _ _).next (.ite ((hs₁.setF _ _).setF _ _).next ((hs₁.setF _ _).setF _ _).same.next)

theorem State.Inv.prefetchLine {rid : Nat} {s : State} {la : Nat} (h : s.Inv) : (prefetchLine rid s la).Inv :=
  .ite h (.ite h (h.countF _ _).scAlloc)

theorem State.Inv.execScPrefetchFetch {s : State} (h : s.Inv) : Res.Inv (execScPrefetchFetch s) := by
  unfold Machine.execScPrefetchFetch
  refine h.whileCore fun s₁ hs₁ => ?_
  split
  · exact hs₁.next
  · exact State.Inv.next (.ite (hs₁.same.foldl _ _ fun s₂ _ hs₂ => hs₂.prefetchLine) hs₁.same)

theorem State.Inv.drainPorts {l : List ScReq} {s : State} (h : s.Inv) : (drainPorts l s).Inv := by
  induction l generalizing s with
  | nil => exact h
  | cons x xs ih =>
    unfold Machine.drainPorts
    extract_lets p s₁
    have hp : p.1.Inv := h.scRead
    have hs₁ : s₁.Inv := by
      unfold s₁
      split
      · exact h.scWrite
      · exact hp.scAnswer
    exact ih hs₁

theorem State.Inv.execScDisable {core : Nat} {s : State} (h : s.Inv) : Res.Inv (execScDisable core s) := by
  unfold Machine.execScDisable
  refine h.coreStore fun s₁ hs₁ => ?_
  exact .ite (hs₁.setF _ _).next (((hs₁.setF _ _).same.drainPorts.foldl _ _ fun s₂ _ hs₂ => hs₂.evictWrite).same.setF _ _).next

theorem State.Inv.execScEnable {core : Nat} {s : State} (h : s.Inv) : Res.Inv (execScEnable core s) :=
  h.coreStore fun _ hs₁ => .ite (hs₁.setF _ _).next (.ite .fault ((hs₁.setF _ _).setF _ _).next)

theorem State.Inv.execDmcScrub {addr err : Nat} {s : State} (h : s.Inv) : Res.Inv (execDmcScrub addr err s) :=
  .ite h.next (.ite h.same.dmcLatch.next (.ite (h.countF _ _).next h.next))

theorem State.Inv.execDmcTempRefresh {high : Nat} {s : State} (h : s.Inv) : Res.Inv (execDmcTempRefresh high s) :=
  State.Inv.next (.ite (h.setF _ _) h)

/-! ### The form is kept: `Machine/Capacity.lean` -/

theorem State.Inv.lifeBytes {s : State} (h : s.Inv) : (lifeBytes s).2.Inv := by
  unfold Machine.lifeBytes
  extract_lets sets
  clear_value sets
  split
  · exact h
  · exact h.same

/-! ### The form is kept: `Machine/Kv.lean` -/

theorem State.Inv.readMore {n : Nat} {s : State} {n1 : Nat} (h : s.Inv) : (readMore n s n1).Inv := by
  induction n generalizing s n1 with
  | zero => exact h
  | succ n ih =>
    unfold Machine.readMore
    split
    · exact h
    · exact .ite h (ih (h.emit _).modSess.putCmd)

theorem State.Inv.handOn {s : State} {c : Cmd} {reason adata missing : Nat} (h : s.Inv) : (handOn s c reason adata missing).Inv :=
  h.fabWrite.putCmd.postExc

theorem State.Inv.keyRow {cmd op : Nat} {s : State} {run : State → Cmd → KeyPlace → Res} (h : s.Inv)
    (hrun : ∀ t x y, t.Inv → Res.Inv (run t x y)) : Res.Inv (keyRow cmd op s run) :=
  h.onCmd fun _ _ hs₁ => .ite hs₁.next (.ite hs₁.finish.next (.ite hs₁.next (.ite hs₁.conflict.next (hrun _ _ _ hs₁))))

theorem State.Inv.journalDiscard {s : State} {d : Discarded} (h : s.Inv) : OnSome State.Inv (journalDiscard s d) := by
  unfold Machine.journalDiscard
  refine .ite (.some h) ?_
  refine .ite .none ?_
  split
  · exact .none
  next s₁ e =>
    have hs₁ : s₁.Inv := h.packRecord _ e
    split
    · exact .none
    next s₂ _ e₁ =>
      have hs₂ : s₂.Inv := hs₁.indexRecord _ e₁
      exact .some hs₂.same

theorem State.Inv.flushDiscards {l : List Discarded} {s : State} (h : s.Inv) : OnSome State.Inv (flushDiscards l s) := by
  induction l generalizing s with
  | nil =>
    unfold Machine.flushDiscards
    exact .some h
  | cons x xs ih =>
    unfold Machine.flushDiscards
    split
    · exact .none
    next s₁ e =>
      have hs₁ : s₁.Inv := h.journalDiscard _ e
      exact ih hs₁

theorem State.Inv.changeRow {cmd op : Nat} {s : State} {run : State → Cmd → KeyPlace → Bytes → Res} (h : s.Inv)
    (hrun : ∀ t x y z, t.Inv → Res.Inv (run t x y z)) : Res.Inv (changeRow cmd op s run) := by
  unfold Machine.changeRow
  refine h.keyRow fun s₁ c p hs₁ => ?_
  refine .ite hs₁.fresh.conflict.next ?_
  refine .ite hs₁.conflict.next ?_
  refine .ite hs₁.next ?_
  split
  · exact hs₁.next
  next s₂ e =>
    have hs₂ : s₂.Inv := hs₁.flushDiscards _ e
    split
    · exact hs₂.next
    next t₁ e₁ =>
      have ht₁ : t₁.Inv := hs₂.bucketOpen _ e₁
      exact hrun _ _ _ _ ht₁

theorem State.Inv.packCommand
    {s : State} {c : Cmd} {p : KeyPlace} {nsid : Nat} {rec_ : Bytes} {change : Nat → Nat → Bytes} {reply : Bytes} {waits : Nat} {done : State → State}
    (h : s.Inv) (hdone : ∀ t, t.Inv → (done t).Inv) : Res.Inv (packCommand s c p nsid rec_ change reply waits done) := by
  unfold Machine.packCommand
  extract_lets stuck
  have hstuck : stuck.Inv := h.sealOldest.settleAll
  refine .ite h.answer.next ?_
  refine .ite h.next ?_
  split
  · exact hstuck.next
  next s₁ e =>
    have hs₁ : s₁.Inv := h.packRecord _ e
    extract_lets
    split
    · exact h.next
    next s₂ _ e₁ =>
      have hs₂ : s₂.Inv := hs₁.indexRecord _ e₁
      exact (hdone _ hs₂).putCmd.settleAll.next

theorem State.Inv.putLarge {s : State} {c : Cmd} {p : KeyPlace} {h : RecHdr} {value : Bytes} {all : Bool} (hs : s.Inv) :
    Res.Inv (putLarge s c p h value all) := by
  unfold Machine.putLarge
  extract_lets
  split
  · extract_lets
    split
    · exact hs.answer.next
    next s₁ e =>
      have hs₁ : s₁.Inv := hs.takeSerials _ e
      extract_lets s1
      have hs1 : s1.Inv := .ite hs₁ hs₁.codeUnits
      split
      · exact hs.next
      next s₂ e₂ =>
        have hs₂ : s₂.Inv := hs1.putCmd.openIntent _ e₂
        exact hs₂.settleAll.next
  · exact hs.next

theorem State.Inv.storeValue {s : State} {c : Cmd} {p : KeyPlace} {version : Nat} (h : s.Inv) : Res.Inv (storeValue s c p version) :=
  .ite h.putLarge (h.packCommand fun _ ha => ha)

theorem State.Inv.putRow {cmd op : Nat} {s : State} (h : s.Inv) : Res.Inv (putRow cmd op s) := by
  unfold Machine.putRow
  refine h.changeRow fun s₁ c p b hs₁ => ?_
  extract_lets
  refine .ite (State.Inv.next (.ite hs₁.readMore hs₁.endCmd)) ?_
  split
  · exact hs₁.answer.next
  · refine .ite hs₁.conflict.next ?_
    refine .ite hs₁.answer.next ?_
    exact .ite hs₁.answer.next (.ite hs₁.answer.next (.ite hs₁.answer.next (.ite (hs₁.logCrew _).answer.next (.ite hs₁.answer.next hs₁.storeValue))))

theorem State.Inv.execPut {cmd : Nat} {s : State} (h : s.Inv) : Res.Inv (execPut cmd s) := h.putRow

theorem State.Inv.execCas {cmd : Nat} {s : State} (h : s.Inv) : Res.Inv (execCas cmd s) := h.putRow

theorem State.Inv.execDelete {cmd : Nat} {s : State} (h : s.Inv) : Res.Inv (execDelete cmd s) := by
  unfold Machine.execDelete
  refine h.changeRow fun s₁ c p b hs₁ => ?_
  extract_lets
  split
  · exact hs₁.answer.next
  · exact hs₁.answer.next
  · exact .ite hs₁.answer.next (.ite hs₁.answer.next (hs₁.packCommand fun a ha => ha))

theorem State.Inv.execDiscard {cmd : Nat} {s : State} (h : s.Inv) : Res.Inv (execDiscard cmd s) := by
  unfold Machine.execDiscard
  refine h.changeRow fun s₁ c p b hs₁ => ?_
  extract_lets
  split
  · exact hs₁.answer.next
  · exact hs₁.answer.next
  · exact .ite hs₁.answer.next (.ite hs₁.answer.next hs₁.changeAll.same.answer.next)

theorem State.Inv.execDiscardDurable {s : State} (h : s.Inv) : Res.Inv (execDiscardDurable s) := by
  unfold Machine.execDiscardDurable
  refine h.whileCore fun s₁ hs₁ => ?_
  extract_lets _ s₂
  have hs₂ : s₂.Inv := hs₁.same
  split
  · exact hs₂.next
  · exact State.Inv.next (.ite hs₂ (OnSome.getD hs₂.journalDiscard hs₂.sealOldest).settleAll)

theorem State.Inv.execExists {cmd : Nat} {s : State} (h : s.Inv) : Res.Inv (execExists cmd s) := by
  unfold Machine.execExists
  refine h.keyRow fun s₁ c p hs₁ => ?_
  split
  · exact hs₁.next
  next t₁ e =>
    have ht₁ : t₁.Inv := hs₁.bucketGet _ e
    split
    · exact ht₁.answer.next
    · exact ht₁.answer.next

theorem State.Inv.holdCommand {s : State} {c : Cmd} {p : KeyPlace} {e : Entry} {recKind hkind expiry recExpiry : Nat} {reply : Bytes}
    (h : s.Inv) : Res.Inv (holdCommand s c p e recKind hkind expiry recExpiry reply) :=
  h.packCommand fun _ hs₁ => hs₁.putSlice

theorem State.Inv.execRetain {cmd : Nat} {s : State} (h : s.Inv) : Res.Inv (execRetain cmd s) := by
  unfold Machine.execRetain
  split
  · exact h.next
  · refine .ite h.adminRow ?_
    refine h.changeRow fun s₁ c₁ p b hs₁ => ?_
    extract_lets
    split
    · exact hs₁.answer.next
    · exact .ite hs₁.finish.next (.ite hs₁.answer.next (.ite hs₁.answer.next hs₁.holdCommand))

theorem State.Inv.execRelease {cmd : Nat} {s : State} (h : s.Inv) : Res.Inv (execRelease cmd s) := by
  unfold Machine.execRelease
  split
  · exact h.next
  · refine .ite h.adminRow ?_
    refine h.changeRow fun s₁ c₁ p b hs₁ => ?_
    extract_lets
    split
    · exact .ite hs₁.answer.next hs₁.holdCommand
    · exact hs₁.answer.next

theorem State.Inv.execSealTimerExpiry {group nsid : Nat} {s : State} (h : s.Inv) : Res.Inv (execSealTimerExpiry group nsid s) := by
  unfold Machine.execSealTimerExpiry
  refine h.whileCore fun s₁ hs₁ => ?_
  split
  · exact hs₁.next
  · split
    · exact hs₁.next
    · exact (hs₁.reach _).sealStripe.settleAll.next

theorem State.Inv.execBucketLoad {slice bucket : Nat} {s : State} (h : s.Inv) : Res.Inv (execBucketLoad slice bucket s) := by
  unfold Machine.execBucketLoad
  refine h.whileCore fun s₁ hs₁ => ?_
  refine .ite ?_ hs₁.next
  split
  next s₂ e =>
    have hs₂ : s₂.Inv := hs₁.bucketGet _ e
    exact hs₂.next
  · exact hs₁.next

theorem State.Inv.putBucketItem {s : State} {i : BucketItem} (h : s.Inv) : (putBucketItem s i).Inv := by
  unfold Machine.putBucketItem
  extract_lets old _ _ s₁
  have hs₁ : s₁.Inv := h.same.btLive
  clear_value old
  split
  · exact .ite hs₁ hs₁.btLive
  · exact hs₁

theorem State.Inv.execBucketWriteback {slice bucket : Nat} {s : State} (h : s.Inv) : Res.Inv (execBucketWriteback slice bucket s) := by
  unfold Machine.execBucketWriteback
  refine h.whileCore fun s₁ hs₁ => ?_
  extract_lets
  refine .ite hs₁.next ?_
  split
  · exact hs₁.next
  · split
    · exact hs₁.next
    next s₂ e₁ =>
      have hs₂ : s₂.Inv := hs₁.placeStride _ e₁
      exact hs₂.storeBucket.putBucketItem.settleIndexRecords.next

theorem State.Inv.execBucketEvict {slice bucket : Nat} {s : State} (h : s.Inv) : Res.Inv (execBucketEvict slice bucket s) :=
  h.whileCore fun _ hs₁ => .ite hs₁.next hs₁.putDir.next

/-! ### The form is kept: `Machine/Objects.lean` -/

theorem State.Inv.readSpan {user group gen stripe k : Nat} {wants l : List Nat} {s : State} (h : s.Inv) :
    (readSpan user group gen stripe k wants l s).1.Inv := by
  induction l generalizing user group gen stripe k wants s with
  | nil => exact h
  | cons x xs ih =>
    unfold Machine.readSpan
    exact ih h.readStripe

theorem State.Inv.readObject {s : State} {user group : Nat} {e : Entry} {fprint off len : Nat} (h : s.Inv) :
    (readObject s user group e fprint off len).1.Inv := by
  unfold Machine.readObject
  split
  · exact h
  · extract_lets
    split
    · exact h
    · extract_lets r
      have hr : r.1.Inv := h.readSpan
      split
      · exact hr
      · exact hr
      · exact hr
      · exact hr
      · exact hr
      · refine .fst_ite hr ?_
        split
        · exact hr
        · exact hr

theorem State.Inv.readDone {s : State} {user group : Nat} {decoded : Bool} {repairs : List (Nat × Nat × Bytes)} (h : s.Inv) :
    (readDone s user group decoded repairs).Inv :=
  State.Inv.foldl (.ite (h.dropFetches.logCrew _) h.dropFetches) _ _ fun _ _ hs₁ => hs₁.replaceUnit

theorem State.Inv.sourcesMissing {s : State} {c : Cmd} (h : s.Inv) : (sourcesMissing s c).Inv := .ite h.dropFetches.answer (.ite h h.putCmd)

theorem State.Inv.execDegradedReadRetry {cmd : Nat} {s : State} (h : s.Inv) : Res.Inv (execDegradedReadRetry cmd s) := by
  unfold Machine.execDegradedReadRetry
  refine h.whileCore fun s₁ hs₁ => ?_
  split
  · exact hs₁.next
  · split
    · exact hs₁.next
    · extract_lets s₂
      have hs₂ : s₂.Inv := (hs₁.reach _).putCmd
      refine State.Inv.next (hs₂.foldl _ _ fun s₃ f hs₃ => ?_)
      split
      · exact hs₃.askUnit
      · exact hs₃

theorem State.Inv.probesJudged {s : State} {f : Fetch} (h : s.Inv) : (probesJudged s f).Inv := by
  unfold Machine.probesJudged
  refine .ite h ?_
  extract_lets _ _ _ _ s₁
  have hs₁ : s₁.Inv := h.same
  refine .ite h ?_
  split
  · exact .ite hs₁.stripeLostNow hs₁
  · exact hs₁

theorem State.Inv.execFragReadDeadline {tag : Nat} {s : State} (h : s.Inv) : Res.Inv (execFragReadDeadline tag s) := by
  unfold Machine.execFragReadDeadline
  refine h.whileCore fun s₁ hs₁ => ?_
  split
  · exact hs₁.next
  · exact (hs₁.reach _).putFetch.dropRequests.probesJudged.missDeadline.settleAll.next

/-! ### The form is kept: `Machine/Reads.lean` -/

theorem State.Inv.objectEnd
    {s : State} {c : Cmd} {group : Nat} {e : Entry} {r1 : Nat} {r : ObjRead} {ok : Bytes → Bool → List (Nat × Nat × Bytes) → Res}
    (h : s.Inv) (hok : ∀ x y z, Res.Inv (ok x y z)) : Res.Inv (objectEnd s c group e r1 r ok) := by
  unfold Machine.objectEnd
  split
  · exact h.next
  · exact .ite (hok _ _ _) (h.readDone.logCrew _).answer.next
  · exact (h.dropFetches.logCrew _).answer.next
  · exact h.dropFetches.answer.next
  · exact State.Inv.next (.ite (h.dropFetches.stripeLostNow.logCrew _).answer h.dropFetches.stripeLostNow.answer)
  · exact h.sourcesMissing.next
  · exact .fault

theorem State.Inv.execGet {cmd : Nat} {s : State} (h : s.Inv) : Res.Inv (execGet cmd s) := by
  unfold Machine.execGet
  refine h.keyRow fun s₁ c p hs₁ => ?_
  split
  · exact hs₁.next
  next t₁ e =>
    have ht₁ : t₁.Inv := hs₁.bucketGet _ e
    extract_lets
    split
    · exact ht₁.dropFetches.answer.next
    · refine .ite ht₁.dropFetches.answer.next ?_
      refine .ite ht₁.dropFetches.answer.next ?_
      exact .ite ht₁.readObject.handOn.next (ht₁.readObject.objectEnd fun _ _ _ => ht₁.readObject.readDone.answerData.next)

theorem State.Inv.parityOf {s : State} {user group gen stripe : Nat} {g : GenSet} (h : s.Inv) : (parityOf s user group gen stripe g).1.Inv := by
  unfold Machine.parityOf
  extract_lets r
  have hr : r.1.Inv := h.readStripe
  split
  · exact .fst_ite hr.askAll (.fst_ite hr hr)
  · exact hr

theorem State.Inv.parityRun {user group gen : Nat} {g : GenSet} {l : List Nat} {s : State} (h : s.Inv) : (parityRun user group gen g l s).1.Inv := by
  induction l generalizing user group gen g s with
  | nil => exact h
  | cons x xs ih =>
    unfold Machine.parityRun
    extract_lets a b
    have ha : a.1.Inv := h.parityOf
    have hb : b.1.Inv := ih ha
    split
    · exact hb
    · exact hb
    · exact hb
    · exact hb
    · exact hb
    · exact hb

theorem State.Inv.fixityReply {s : State} {c : Cmd} {e : Entry} {bytes : Bytes} {dec : Bool} {parity mismatch : Nat} (h : s.Inv) :
    (fixityReply s c e bytes dec parity mismatch).Inv :=
  h.answerData

theorem State.Inv.execFixity {cmd : Nat} {s : State} (h : s.Inv) : Res.Inv (execFixity cmd s) := by
  unfold Machine.execFixity
  refine h.keyRow fun s₁ c p hs₁ => ?_
  split
  · exact hs₁.next
  next t₁ e =>
    have ht₁ : t₁.Inv := hs₁.bucketGet _ e
    extract_lets
    split
    · exact ht₁.dropFetches.answer.next
    · refine .ite ht₁.dropFetches.answer.next ?_
      extract_lets r
      have hr : r.1.Inv := ht₁.readObject
      refine hr.objectEnd fun bytes dec reps => ?_
      split
      · extract_lets _ q
        have hq : q.1.Inv := hr.parityRun
        split
        · exact hq.next
        · extract_lets s₂ s₃
          have hs₂ : s₂.Inv := hq.readDone.foldl _ _ fun s₄ _ hs₄ => hs₄.logCrew _
          have hs₃ : s₃.Inv := by
            unfold s₃
            refine hs₂.foldl _ _ fun s₄ w hs₄ => ?_
            split
            · exact hs₄.replaceUnit
            · exact hs₄
          exact hs₃.fixityReply.next
        · exact hq.objectEnd fun _ _ _ => hq.next
        · exact hq.objectEnd fun _ _ _ => hq.next
        · exact .fault
        · exact hq.sourcesMissing.next
        · exact hq.next
        · exact hq.next
      · exact hr.readDone.fixityReply.next

theorem State.Inv.unreadKey {s : State} (h : s.Inv) : (unreadKey s).2.Inv := h.fresh.freshBytes _

theorem State.Inv.listEntries {c : Cmd} {n bucket : Nat} {b : Bytes} {needKey : Bool} {l : List Nat} {s : State} (h : s.Inv) :
    (listEntries c n bucket b needKey l s).1.Inv := by
  induction l generalizing c n bucket b needKey s with
  | nil => exact h
  | cons x xs ih =>
    unfold Machine.listEntries
    extract_lets _ _ _ r t _ k
    have hr : r.1.Inv := .fst_ite h.readObject h
    have ht : t.1.Inv := ih hr
    have hk : k.2.Inv := ht.unreadKey
    split
    · exact ht
    · exact ht
    · exact ht
    · exact .fst_ite ht ht
    · exact .fst_ite ht.stripeLostNow.unreadKey ht.stripeLostNow.unreadKey
    · exact .fst_ite hk hk
    · exact .fst_ite hk hk
    · exact ht
    · exact ht
    · exact ht
    · exact ht

theorem State.Inv.listWalk {c : Cmd} {limit : Nat} {needKey : Bool} {fuel : Nat} {s : State} {q : Option (Nat × Nat)} {acc : Bytes} {n : Nat}
    (h : s.Inv) : (listWalk c limit needKey fuel s q acc n).1.Inv := by
  induction fuel generalizing s q acc n with
  | zero => cases q <;> exact h
  | succ fuel ih =>
    rcases q with _ | ⟨x, k⟩
    · exact h
    · unfold Machine.listWalk
      extract_lets cap b idx r next
      have hr : r.1.Inv := h.listEntries
      refine .fst_ite h ?_
      split
      · exact hr
      · exact hr
      · exact hr
      · exact .fst_ite (.fst_ite hr hr) (.fst_ite hr (ih hr))

theorem State.Inv.execList {cmd : Nat} {s : State} (h : s.Inv) : Res.Inv (execList cmd s) := by
  unfold Machine.execList
  refine h.onCmd fun s₁ c hs₁ => ?_
  extract_lets _ _ _ _ _ r _ s₂
  have hr : r.1.Inv := hs₁.listWalk
  have hs₂ : s₂.Inv := hr.dropFetches
  split
  · exact hr.putCmd.next
  · exact hr.putCmd.sourcesMissing.next
  · exact .fault
  · exact hr.dropFetches.finish.next
  · exact hs₂.answerData.next

theorem State.Inv.statKey {cmd : Nat} {s : State} (h : s.Inv) : Res.Inv (statKey cmd s) := by
  unfold Machine.statKey
  refine h.keyRow fun s₁ c p hs₁ => ?_
  split
  · exact hs₁.next
  next t₁ e =>
    have ht₁ : t₁.Inv := hs₁.bucketGet _ e
    split
    · exact ht₁.dropFetches.answer.next
    · extract_lets _ r
      have hr : r.1.Inv := ht₁.readObject
      split
      · exact hr.next
      · exact hr.sourcesMissing.next
      · exact .fault
      · exact .ite hr.readDone.answerData.next (hr.readDone.logCrew _).answer.next
      · exact hr.fresh.fresh.dropFetches.answerData.next
      · exact hr.fresh.fresh.dropFetches.answerData.next
      · exact hr.stripeLostNow.fresh.fresh.dropFetches.answerData.next

theorem State.Inv.statDevice {s : State} (h : s.Inv) : (statDevice s).2.Inv := h.fresh.fresh

theorem State.Inv.execStat {cmd : Nat} {s : State} (h : s.Inv) : Res.Inv (execStat cmd s) := by
  unfold Machine.execStat
  split
  · exact h.next
  · refine .ite (h.onCmd fun s₁ _ hs₁ => hs₁.answer.next) ?_
    refine .ite h.statKey ?_
    refine h.onCmd fun s₁ c₁ hs₁ => ?_
    refine .ite hs₁.statDevice.answerData.next ?_
    split
    · exact hs₁.answerData.next
    · exact hs₁.answer.next

theorem State.Inv.execLife {cmd : Nat} {s : State} (h : s.Inv) : Res.Inv (execLife cmd s) := h.onCmd fun _ _ hs₁ => hs₁.lifeBytes.answer.next

/-! ### The form is kept: `Machine/Rebuild.lean` -/

theorem State.Inv.askInventory {s : State} {group seat target mode cursor : Nat} (h : s.Inv) : (askInventory s group seat target mode cursor).Inv :=
  h.peerRequest

theorem State.Inv.rebuildEntry {mode : Nat} {s : State} {group : Nat} {e : Nat × Nat × Nat × Nat} (h : s.Inv) : (rebuildEntry mode s group e).Inv := by
  unfold Machine.rebuildEntry
  split
  · exact h
  · split
    · exact h
    · extract_lets _ _ _ own _ s₁
      have hs₁ : s₁.Inv := h.putGroup
      clear_value own
      split
      · exact h.putGroup
      · exact .ite (.ite hs₁ (hs₁.logCrew _).lostMarker) (.ite h.putGroup (.ite h.putGroup h.putGroup))

theorem State.Inv.rebuildNotice {s : State} {g : Group} {phase done found : Nat} (h : s.Inv) : (rebuildNotice s g phase done found).Inv :=
  h.tellHulls

theorem State.Inv.rebuildAsk {s : State} {group : Nat} {r : Rebuild} (h : s.Inv) : (rebuildAsk s group r).Inv := by
  unfold Machine.rebuildAsk
  split
  · exact h
  · exact h.putGroup.foldl _ _ fun s₁ _ hs₁ => hs₁.askInventory.askInventory

theorem State.Inv.freeUnlisted {s : State} {g : Group} {r : Rebuild} (h : s.Inv) : OnSome State.Inv (freeUnlisted s g r) :=
  .foldl (.some h) fun _ _ hs₁ => .bind hs₁ fun _ hs₂ => hs₂.seatOutcome

theorem State.Inv.replacementCeiling {s : State} {g : Group} {r : Rebuild} (h : s.Inv) : (replacementCeiling s g r).Inv := by
  unfold Machine.replacementCeiling
  refine .ite h ?_
  extract_lets
  split
  · exact h.putGroup
  · exact h

theorem State.Inv.rebuildDecide {s : State} {group : Nat} (h : s.Inv) : (rebuildDecide s group).Inv := by
  unfold Machine.rebuildDecide
  split
  · exact h
  · split
    · exact h
    · split
      · exact h
      next s₁ e =>
        have hs₁ : s₁.Inv := h.freeUnlisted _ e
        refine .ite h ?_
        refine .ite ?_ ?_
        · split
          · exact hs₁.putGroup
          · exact hs₁
        · extract_lets s₂ _ _ _ s₃ s₄ _ s₅
          have hs₂ : s₂.Inv := hs₁.replacementCeiling
          have hs₃ : s₃.Inv := hs₂.putGroup.rebuildNotice
          have hs₄ : s₄.Inv := .ite (hs₃.logCrew _) hs₃
          have hs₅ : s₅.Inv := hs₂.putGroup.rebuildNotice.logCrew _
          exact .ite hs₄.setGState.settleAll (.ite hs₂.putGroup hs₅.setGState.settleAll)

theorem State.Inv.rebuildInventory {s : State} {group seat mode cursor : Nat} {body : Bytes} (h : s.Inv) :
    (rebuildInventory s group seat mode cursor body).Inv := by
  unfold Machine.rebuildInventory
  extract_lets s₁
  have hs₁ : s₁.Inv := h.foldl _ _ fun s₂ _ hs₂ => hs₂.rebuildEntry
  split
  · exact hs₁
  · split
    · exact hs₁
    · exact .ite hs₁.askInventory hs₁.putGroup.rebuildDecide

theorem State.Inv.rigFetch {s : State} {group seat epoch b : Nat} (h : s.Inv) : (rigFetch s group seat epoch b).Inv := h.peerRequest

theorem State.Inv.returnDone {s : State} {g : Group} (h : s.Inv) : (returnDone s g).Inv := h.putGroup.setGState

theorem State.Inv.execRebuildStart {group : Nat} {s : State} (h : s.Inv) : Res.Inv (execRebuildStart group s) := by
  unfold Machine.execRebuildStart
  refine h.whileCore fun s₁ hs₁ => ?_
  split
  · exact hs₁.next
  · refine .ite hs₁.next ?_
    extract_lets _ _ _ s₂ s₃ s₄
    have hs₂ : s₂.Inv := hs₁.putGroup
    have hs₃ : s₃.Inv := .ite hs₂ (hs₂.foldl _ _ fun s₅ _ hs₅ => hs₅.peerRequest)
    have hs₄ : s₄.Inv := hs₁.rebuildAsk
    exact .ite (.ite hs₁.next hs₁.rigFetch.next) (.ite hs₁.next (.ite (State.Inv.next (.ite hs₃.returnDone.rebuildAsk hs₃)) hs₄.rebuildDecide.next))

theorem State.Inv.joinAnswered {s : State} {hull : Nat} (h : s.Inv) : (joinAnswered s hull).Inv := by
  unfold Machine.joinAnswered
  refine h.foldl _ _ fun s₁ g hs₁ => ?_
  split
  · exact hs₁
  · exact .ite hs₁.putGroup.returnDone.rebuildAsk.rebuildDecide hs₁.putGroup

theorem State.Inv.repairSpent {s : State} {rate : Nat} (h : s.Inv) : (repairSpent s rate).Inv := h.same

theorem State.Inv.remake {s : State} {user group stripe pos gen : Nat} (h : s.Inv) : OnNext (fun p => p.1.Inv) (remake s user group stripe pos gen) := by
  unfold Machine.remake
  split
  · exact .fault
  · extract_lets r
    have hr : r.1.Inv := h.readStripe
    split
    · exact .next hr
    · exact .fault
    · exact .next hr.dropFetches
    · exact .next hr.dropFetches.lostMarker
    · exact .next hr.dropFetches.stripeLostNow
    · exact .next (hr.dropFetches.logCrew _).stripeLostNow
    · extract_lets
      refine .ite (.next hr.dropFetches.addNote) ?_
      split
      · exact .next hr
      next t e => exact .next (hr.programFrag t e).dropFetches

theorem State.Inv.execRebuildPosition {group : Nat} {s : State} (h : s.Inv) : Res.Inv (execRebuildPosition group s) := by
  refine h.whileCore fun s₁ hs₁ => ?_
  split
  · exact hs₁.next
  · split
    · exact hs₁.next
    · refine .ite hs₁.next ?_
      split
      · exact hs₁.rebuildAsk.rebuildDecide.next
      · split
        · exact .fault
        · exact .refused
        next s₂ e => exact State.Inv.next ((hs₁.reach _).remake (s₂, none) e)
        next s₂ ok e =>
          have hs₂ : s₂.Inv := (hs₁.reach _).remake (s₂, some ok) e
          extract_lets s₃
          have hs₃ : s₃.Inv := .ite hs₂.repairSpent hs₂
          split
          · exact hs₃.next
          · exact hs₃.putGroup.next

theorem State.Inv.execRebuildRateSample {group hostBytes : Nat} {s : State} (h : s.Inv) : Res.Inv (execRebuildRateSample group hostBytes s) := by
  unfold Machine.execRebuildRateSample
  refine h.whileCore fun s₁ hs₁ => ?_
  extract_lets _ _ _ _ _ s₂
  have hs₂ : s₂.Inv := hs₁.same
  refine .ite .fault ?_
  split
  · exact hs₁.next
  · exact hs₂.putGroup.next

theorem State.Inv.execRebuildProgressTimer {group : Nat} {s : State} (h : s.Inv) : Res.Inv (execRebuildProgressTimer group s) := by
  unfold Machine.execRebuildProgressTimer
  refine h.whileCore fun s₁ hs₁ => ?_
  split
  · exact hs₁.next
  · split
    · exact hs₁.next
    · exact .ite hs₁.next (hs₁.reach _).putGroup.rebuildNotice.next

theorem State.Inv.repairEnds {s : State} (h : s.Inv) : (repairEnds s).Inv := .ite h (h.logCrew _).same

theorem State.Inv.execLocalRepair {group : Nat} {s : State} (h : s.Inv) : Res.Inv (execLocalRepair group s) := by
  refine h.whileCore fun s₁ hs₁ => ?_
  split
  · exact hs₁.next
  · extract_lets
    split
    · exact hs₁.next
    · split
      · exact .fault
      · exact .refused
      next s₂ e => exact State.Inv.next ((hs₁.reach _).remake (s₂, none) e)
      next s₂ e =>
        have hs₂ : s₂.Inv := (hs₁.reach _).remake (s₂, some false) e
        exact hs₂.repairEnds.next
      next s₂ e =>
        have hs₂ : s₂.Inv := (hs₁.reach _).remake (s₂, some true) e
        extract_lets _ _ s₃
        have hs₃ : s₃.Inv := hs₂.same.repairSpent
        exact (State.Inv.repairEnds (.ite (hs₃.logCrew _) hs₃)).next

theorem State.Inv.putIndexRebuild {s : State} {r : IndexRebuild} (h : s.Inv) : (putIndexRebuild s r).Inv := h.same

theorem State.Inv.indexRebuildBegin {s : State} {group : Nat} {slices : List Nat} (h : s.Inv) : (indexRebuildBegin s group slices).Inv :=
  (h.foldl _ _ fun _ _ hs₁ => hs₁.renewSlice).same.foldl _ _ fun _ _ hs₁ => hs₁.askInventory

theorem State.Inv.indexInventory {s : State} {r : IndexRebuild} {seat cursor : Nat} {body : Bytes} (h : s.Inv) :
    (indexInventory s r seat cursor body).Inv :=
  .ite h.putIndexRebuild.askInventory h.putIndexRebuild

theorem State.Inv.indexRebuildEnd {s : State} {r : IndexRebuild} (h : s.Inv) : (indexRebuildEnd s r).Inv := by
  unfold Machine.indexRebuildEnd
  extract_lets _ _ _ s₁ _ s₂
  have hs₁ : s₁.Inv := h.foldl _ _ fun s₃ _ hs₃ => hs₃.logCrew _
  have hs₂ : s₂.Inv := by
    unfold s₂
    refine hs₁.foldl _ _ fun s₃ x₁ hs₃ => ?_
    extract_lets
    split
    · exact hs₃.putSlice
    · exact hs₃
  exact hs₂.same.settleAll

theorem State.Inv.execIndexRebuildFromStripes {group : Nat} {slices : List Nat} {s : State} (h : s.Inv) :
    Res.Inv (execIndexRebuildFromStripes group slices s) := by
  unfold Machine.execIndexRebuildFromStripes
  refine h.whileCore fun s₁ hs₁ => ?_
  split
  · exact .ite hs₁.next hs₁.indexRebuildBegin.next
  · split
    · exact .ite hs₁.indexRebuildEnd.next hs₁.next
    · split
      · exact .fault
      · extract_lets _ q
        have hq : q.1.Inv := hs₁.readStripe
        split
        · exact hq.next
        · exact hq.dropFetches.next
        · exact .fault
        · exact hq.dropFetches.putIndexRebuild.next
        · exact hq.dropFetches.stripeLostNow.putIndexRebuild.next
        · exact (hq.dropFetches.logCrew _).stripeLostNow.putIndexRebuild.next
        · exact hq.dropFetches.putIndexRebuild.next

/-! ### The form is kept: `Machine/Media.lean` -/

theorem State.Inv.heapAnswer {s : State} {core heap : Nat} {r : Option State} {ret : Option (Nat × Nat)} (h : s.Inv) (hr : OnSome State.Inv r) :
    (heapAnswer s core heap r ret).Inv := by
  cases r with
  | none => exact (((h.setF _ _).setF _ _).setF _ _).setF _ _
  | some t => exact ((((hr t rfl).setF _ _).setF _ _).setF _ _).setF _ _

theorem State.Inv.execFphPush {core heap : Nat} {s : State} (h : s.Inv) : Res.Inv (execFphPush core heap s) := by
  unfold Machine.execFphPush
  refine h.coreStore fun s₁ hs₁ => ?_
  extract_lets
  split
  · exact (hs₁.heapAnswer .none).next
  next s₂ e =>
    have hs₂ : s₂.Inv := hs₁.heapPush _ e
    exact .ite (hs₁.heapAnswer (.some hs₂)).next .fault

theorem State.Inv.execFphPop {core heap : Nat} {s : State} (h : s.Inv) : Res.Inv (execFphPop core heap s) :=
  h.coreStore fun _ hs₁ => (hs₁.heapAnswer (.map hs₁.heapPop fun _ hself => hself)).next

theorem State.Inv.execFphPeek {core heap : Nat} {s : State} (h : s.Inv) : Res.Inv (execFphPeek core heap s) :=
  h.coreStore fun _ hs₁ => (hs₁.heapAnswer (.map hs₁.heapPop fun _ _ => hs₁)).next

theorem State.Inv.execFphClear {core heap : Nat} {s : State} (h : s.Inv) : Res.Inv (execFphClear core heap s) :=
  h.coreStore fun _ hs₁ => (hs₁.heapAnswer (.ite (.some hs₁.putHeap) .none)).next

theorem State.Inv.readOnlyFor {s : State} {reason : Nat} (h : s.Inv) : (readOnlyFor s reason).Inv := .ite h.enterReadOnly h.same

theorem State.Inv.sparesCheck {s : State} (h : s.Inv) : (sparesCheck s).Inv := by
  unfold Machine.sparesCheck
  split
  · exact h
  · exact .ite (State.Inv.readOnlyFor (.ite (h.same.logCrew _) h)) (.ite (h.same.logCrew _) h)

theorem State.Inv.dropVictim {s : State} {b : Nat} (h : s.Inv) : (dropVictim s b).Inv := h.same

theorem State.Inv.retireBlock {s : State} {b : Nat} (h : s.Inv) : (retireBlock s b).Inv :=
  (h.same.dropOpen.dropVictim.btSet.logCrew _).sparesCheck

theorem State.Inv.foundMissing {s : State} {fs : List FragItem} (h : s.Inv) : (foundMissing s fs).Inv :=
  .ite h ((h.logCrew _).foldl _ _ fun _ _ hs₁ => hs₁.replan)

theorem State.Inv.lunFail {s : State} {l : Nat} (h : s.Inv) : (lunFail s l).Inv := by
  unfold Machine.lunFail
  exact (((h.foundMissing.foldl _ _ fun s₁ _ hs₁ => hs₁.addNote).same.putHeap.foldl _ _ fun s₁ _ hs₁ => hs₁.btSet).logCrew _).sparesCheck

theorem State.Inv.execLunDeclareFailed {lun : Nat} {s : State} (h : s.Inv) : Res.Inv (execLunDeclareFailed lun s) :=
  h.whileCore fun _ hs₁ => .ite hs₁.lunFail.next hs₁.next

theorem State.Inv.copyStride {s : State} {l : Nat} {s1 : Stride} (h : s.Inv) : OnSome (fun p => p.2.Inv) (copyStride s l s1) := h.placeStride

theorem State.Inv.noteTarget {s : State} {v t : Nat} (h : s.Inv) : (noteTarget s v t).Inv := h.same

theorem State.Inv.copyFrag {v l : Nat} {s : State} {f : FragItem} (h : s.Inv) : (copyFrag v l s f).Inv := by
  unfold Machine.copyFrag
  split
  · exact h
  · split
    · exact h
    next s₁ e =>
      have hs₁ : s₁.Inv := h.programFrag _ e
      split
      · exact hs₁.noteTarget
      · exact hs₁

theorem State.Inv.copyBucket {v l : Nat} {s : State} {i : BucketItem} (h : s.Inv) : (copyBucket v l s i).Inv := by
  unfold Machine.copyBucket
  split
  · exact h
  · split
    · exact h
    next s₁ e =>
      have hs₁ : s₁.Inv := h.copyStride _ e
      exact hs₁.putBucketItem.noteTarget

theorem State.Inv.copyCkpt {v l : Nat} {s : State} {p : Nat × Nat} (h : s.Inv) : (copyCkpt v l s p).Inv := by
  unfold Machine.copyCkpt
  split
  · split
    · exact h
    next s₁ e =>
      have hs₁ : s₁.Inv := h.copyStride _ e
      exact hs₁.same.btLive.btLive.noteTarget
  · exact h

theorem State.Inv.moveNotes {s : State} {p : Nat × Nat} {f : NoteRec → List (Nat × Nat) → List (Nat × Nat)} (h : s.Inv) : (moveNotes s p f).Inv :=
  h.same

theorem State.Inv.copyNotes {v l : Nat} {s : State} {p : Nat × Nat} (h : s.Inv) : (copyNotes v l s p).Inv := by
  unfold Machine.copyNotes
  extract_lets
  refine .ite h.moveNotes.btLive ?_
  split
  · exact h
  next s₁ e =>
    have hs₁ : s₁.Inv := h.placeStride _ e
    exact hs₁.moveNotes.btLive.btLive.noteTarget

theorem State.Inv.copyVictim {s : State} {v : Nat} (h : s.Inv) : (copyVictim s v).Inv := by
  unfold Machine.copyVictim
  extract_lets _ s₁ s₂ s₃
  have hs₁ : s₁.Inv := h.foldl _ _ fun s₄ _ hs₄ => hs₄.copyFrag
  have hs₂ : s₂.Inv := hs₁.foldl _ _ fun s₄ _ hs₄ => hs₄.copyBucket
  have hs₃ : s₃.Inv := hs₂.foldl _ _ fun s₄ _ hs₄ => hs₄.copyNotes
  exact hs₃.foldl _ _ fun s₄ _ hs₄ => hs₄.copyCkpt

theorem State.Inv.freeBlock {s : State} {b : Nat} (h : s.Inv) : (freeBlock s b).Inv :=
  OnSome.getD h.dropVictim.btSet.btSet.btSet.btSet.btSet.btSet.btSet.heapPush h.dropVictim.btSet.btSet.btSet.btSet.btSet.btSet.btSet

theorem State.Inv.eraseFailed {s : State} {b : Nat} (h : s.Inv) : (eraseFailed s b).Inv := h.same.retireBlock

theorem State.Inv.reapVictim {s : State} {sel : Nat → Bool} {fail : Bool} (h : s.Inv) : (reapVictim s sel fail).Inv := by
  unfold Machine.reapVictim
  split
  · exact h
  · exact .ite h.retireBlock (.ite ((h.countF _ _).countF _ _).spoilAll.eraseFailed ((h.countF _ _).countF _ _).nandErase.freeBlock)

theorem State.Inv.takeVictim {s : State} {b : Nat} (h : s.Inv) : (takeVictim s b).Inv := h.same.btSet.copyVictim

theorem State.Inv.stopCopies {s : State} {l : Nat} (h : s.Inv) : (stopCopies s l).Inv := by
  unfold Machine.stopCopies
  split
  · exact .ite h h.closeBlock
  · exact h

theorem State.Inv.execCollection {lun eraseFail : Nat} {s : State} (h : s.Inv) : Res.Inv (execCollection lun eraseFail s) := by
  unfold Machine.execCollection
  refine h.whileCore fun s₁ hs₁ => ?_
  refine .ite hs₁.next ?_
  extract_lets _ _ _ _ _ s₂ _ _ s₃ s₄
  have hs₂ : s₂.Inv := hs₁.same
  have hs₃ : s₃.Inv := .ite hs₂.same hs₂
  have hs₄ : s₄.Inv := by
    unfold s₄
    split
    · exact hs₂.copyVictim
    · split
      · exact hs₂.takeVictim
      · exact .ite hs₃.stopCopies hs₃
  exact hs₄.reapVictim.next

theorem State.Inv.execMigration {idle eraseFail : Nat} {s : State} (h : s.Inv) : Res.Inv (execMigration idle eraseFail s) := by
  unfold Machine.execMigration
  refine h.whileCore fun s₁ hs₁ => ?_
  extract_lets _ _ _ _ s1
  have hs1 : s1.Inv := by
    unfold s1
    split
    · exact hs₁.copyVictim
    · split
      · exact hs₁.takeVictim
      · exact hs₁.foldl _ _ fun s₂ _ hs₂ => hs₂.stopCopies
  exact hs1.reapVictim.next

theorem State.Inv.markRefresh {s : State} {b : Nat} (h : s.Inv) : (markRefresh s b).Inv := .ite h (h.btMark.same.logCrew _)

theorem State.Inv.reconcileAll {s : State} (h : s.Inv) : (reconcileAll s).Inv := h.foldl _ _ fun _ _ hs₁ => hs₁.rebuildAsk

theorem State.Inv.rewriteCopy {s : State} {p : Nat × Nat} (h : s.Inv) : OnSome (fun p => p.2.Inv) (rewriteCopy s p) := by
  unfold Machine.rewriteCopy
  extract_lets
  split
  · split
    next s₁ e =>
      have hs₁ : s₁.Inv := h.placeStride _ e
      exact .some hs₁.btLive
    · exact .none
  · exact .none

theorem State.Inv.notesUnreadable {s : State} {p : Nat × Nat} (h : s.Inv) : (notesUnreadable s p).Inv := by
  unfold Machine.notesUnreadable
  extract_lets _ _ s₁ _ s₂ s₃
  have hs₁ : s₁.Inv := .ite h h.btLive
  have hs₂ : s₂.Inv := by
    unfold s₂
    refine hs₁.foldl _ _ fun s₄ o hs₄ => ?_
    split
    next s₅ e =>
      have hs₅ : s₅.Inv := hs₄.rewriteCopy _ e
      exact hs₅.same
    · exact hs₄
  have hs₃ : s₃.Inv := hs₂.moveNotes
  exact .ite (hs₃.logCrew _).reconcileAll hs₃

theorem State.Inv.ckptUnreadable {s : State} {p : Nat × Nat} (h : s.Inv) : (ckptUnreadable s p).Inv := by
  unfold Machine.ckptUnreadable
  split
  · exact h
  · refine .ite h ?_
    extract_lets s₁
    have hs₁ : s₁.Inv := h.btLive
    split
    · exact hs₁.same
    · split
      next s₂ e =>
        have hs₂ : s₂.Inv := hs₁.rewriteCopy _ e
        exact hs₂.same
      · exact hs₁.same

theorem State.Inv.bucketUnreadable {s : State} {i : BucketItem} (h : s.Inv) : (bucketUnreadable s i).Inv := by
  unfold Machine.bucketUnreadable
  extract_lets _ s₁
  have hs₁ : s₁.Inv := h.same.btLive
  refine .ite hs₁ ?_
  refine .ite hs₁.putDir ?_
  refine .ite ?_ hs₁.renewSlice.askCopy
  split
  · exact hs₁.putSlice
  · exact hs₁

theorem State.Inv.strideUnreadable {s : State} {b p : Nat} (h : s.Inv) : (strideUnreadable s b p).Inv := by
  unfold Machine.strideUnreadable
  extract_lets s₁ _ s₂ _ s₃ s₄
  have hs₁ : s₁.Inv := (h.nandSpoil.logCrew _).markRefresh
  have hs₂ : s₂.Inv := .ite hs₁.btMark hs₁.same
  have hs₃ : s₃.Inv := hs₂.foundMissing.foldl _ _ fun s₅ _ hs₅ => hs₅.addNote
  have hs₄ : s₄.Inv := hs₃.foldl _ _ fun s₅ _ hs₅ => hs₅.bucketUnreadable
  exact hs₄.notesUnreadable.ckptUnreadable

theorem State.Inv.strideRead {s : State} {b p step bits : Nat} (h : s.Inv) : (strideRead s b p step bits).Inv :=
  .ite (.ite h.btSet.markRefresh h.btSet) h.strideUnreadable

theorem State.Inv.execReadRetry {bsn page step bits : Nat} {s : State} (h : s.Inv) : Res.Inv (execReadRetry bsn page step bits s) :=
  h.whileCore fun _ hs₁ => .ite hs₁.strideRead.next hs₁.next

theorem State.Inv.sweepOne {s : State} {r : Nat × Nat} (h : s.Inv) : (sweepOne s r).Inv := by
  unfold Machine.sweepOne
  split
  · exact (h.logCrew _).same
  · exact State.Inv.same (.ite h.strideRead.markRefresh h.strideRead)

theorem State.Inv.sweepSave {s : State} (h : s.Inv) : (sweepSave s).Inv := h.same

theorem State.Inv.execSweep {reads : List (Nat × Nat)} {s : State} (h : s.Inv) : Res.Inv (execSweep reads s) := by
  unfold Machine.execSweep
  refine h.whileCore fun s₁ hs₁ => ?_
  exact State.Inv.next (.ite (hs₁.foldl _ _ fun s₂ _ hs₂ => hs₂.sweepOne).sweepSave (hs₁.foldl _ _ fun s₂ _ hs₂ => hs₂.sweepOne))

theorem State.Inv.voidNotes {s : State} (h : s.Inv) : (voidNotes s).Inv := h.foldl _ _ fun _ _ hs₁ => .ite hs₁.addNote hs₁

theorem State.Inv.execNoteRecord {s : State} (h : s.Inv) : Res.Inv (execNoteRecord s) := by
  unfold Machine.execNoteRecord
  refine h.whileCore fun s₁ hs₁ => ?_
  extract_lets s₂
  have hs₂ : s₂.Inv := hs₁.voidNotes
  refine .ite hs₂.next ?_
  split
  · exact hs₂.next
  next s₃ e =>
    have hs₃ : s₃.Inv := hs₂.placeTwice _ e
    exact hs₃.same.settleFragments.next

theorem State.Inv.failedStride {b : Nat} {s : State} {p : Nat} (h : s.Inv) : (failedStride b s p).Inv := by
  unfold Machine.failedStride
  extract_lets _ s₁ s₂
  have hs₁ : s₁.Inv := by
    unfold s₁
    refine h.nandSpoil.foundMissing.foldl _ _ fun s₃ f hs₃ => ?_
    split
    · exact hs₃.putFrag.copyFrag
    · exact hs₃.addNote
  have hs₂ : s₂.Inv := hs₁.foldl _ _ fun s₃ _ hs₃ => hs₃.bucketUnreadable
  exact hs₂.notesUnreadable.ckptUnreadable

theorem State.Inv.resubmit {s : State} {s1 : Stride} (h : s.Inv) : (resubmit s s1).Inv := by
  unfold Machine.resubmit
  split
  · refine .ite (OnSome.getD h.programFrag h) ?_
    split
    next e =>
      exact h.placeStride _ e
    · exact h
  · exact h

theorem State.Inv.execProgramFailure {bsn : Nat} {unreadable : List Nat} {summaryFail : Nat} {s : State} (h : s.Inv) :
    Res.Inv (execProgramFailure bsn unreadable summaryFail s) := by
  unfold Machine.execProgramFailure
  refine h.whileCore fun s₁ hs₁ => ?_
  split
  · exact hs₁.next
  · extract_lets _ s₂ s₃ s₄ s₅ s₆
    have hs₂ : s₂.Inv := hs₁.same
    have hs₃ : s₃.Inv := hs₂.btSet
    have hs₄ : s₄.Inv := .ite hs₃.markClosed.btMark hs₃.closeBlock
    have hs₅ : s₅.Inv := hs₄.btMark.logCrew _
    have hs₆ : s₆.Inv := hs₅.foldl _ _ fun s₇ _ hs₇ => hs₇.failedStride
    exact hs₆.resubmit.next

theorem State.Inv.makeCheckpoint {s : State} (h : s.Inv) : OnSome State.Inv (makeCheckpoint s) := by
  unfold Machine.makeCheckpoint
  extract_lets _ r
  have hr : r.2.Inv := h.freshBytes _
  split
  · exact .none
  next s₁ e =>
    have hs₁ : s₁.Inv := hr.placeTwice _ e
    exact .some (hs₁.foldl _ _ fun s₂ _ hs₂ => hs₂.btLive).same

theorem State.Inv.closeOpens {s : State} (h : s.Inv) : (closeOpens s).Inv := h.foldl _ _ fun _ _ hs₁ => .ite hs₁ hs₁.closeBlock

theorem State.Inv.execCheckpoint {s : State} (h : s.Inv) : Res.Inv (execCheckpoint s) := by
  unfold Machine.execCheckpoint
  refine h.whileCore fun s₁ hs₁ => ?_
  extract_lets _ _ s₂ s₃
  have hs₂ : s₂.Inv := .ite hs₁.closeOpens hs₁
  have hs₃ : s₃.Inv := .ite hs₂ (hs₂.reach _)
  exact (OnSome.getD hs₃.makeCheckpoint hs₃).next

theorem State.Inv.tableEntry {wear : List (Nat × Nat)} {s : State} {b : Nat} (h : s.Inv) : (tableEntry wear s b).Inv := by
  unfold Machine.tableEntry
  extract_lets _ _ r
  have hr : r.2.Inv := h.fresh
  refine .ite h.crewStore ?_
  refine .ite h.crewStore ?_
  refine .ite ?_ h.crewStore
  split
  · exact h.crewStore
  · exact hr.crewStore

theorem State.Inv.rebuildHeap {s : State} {l : Nat} (h : s.Inv) : (rebuildHeap s l).Inv :=
  (State.Inv.putHeap (.ite h (((h.setF _ _).setF _ _).setF _ _))).foldl _ _ fun _ _ hs₁ => OnSome.getD hs₁.heapPush hs₁

theorem State.Inv.dirRebuild {s : State} {n : Nat} (h : s.Inv) : (dirRebuild s n).Inv := h.foldl _ _ fun _ _ hs₁ => .ite hs₁.putDir hs₁.putDir

theorem State.Inv.adoptScan {s : State} {wear : List (Nat × Nat)} {m : List FragItem × List NoteRec × List BucketItem} (h : s.Inv) :
    (adoptScan s wear m).Inv :=
  ((h.same.foldl _ _ fun _ _ hs₁ => hs₁.tableEntry).foldl _ _ fun _ _ hs₁ => hs₁.rebuildHeap).foldl _ _ fun _ _ hs₁ => hs₁.dirRebuild

theorem State.Inv.scanEnd {s : State} (h : s.Inv) : (scanEnd s).Inv := h.same.sendAllStatus

theorem State.Inv.execSummaryScan {s : State} (h : s.Inv) : Res.Inv (execSummaryScan s) := by
  unfold Machine.execSummaryScan
  refine h.whileCore fun s₁ hs₁ => ?_
  split
  · exact hs₁.next
  · exact .ite hs₁.next hs₁.adoptScan.scanEnd.next

theorem State.Inv.formatMedia {s : State} (h : s.Inv) : (formatMedia s).Inv := h.same.same.same

theorem State.Inv.execFullScan {unreadable : Nat} {bad : List Nat} {s : State} (h : s.Inv) : Res.Inv (execFullScan unreadable bad s) := by
  unfold Machine.execFullScan
  refine h.whileCore fun s₁ hs₁ => ?_
  refine .ite hs₁.next ?_
  extract_lets s₂ _ _ s₃ _ s₄ s₅
  have hs₂ : s₂.Inv := hs₁.logCrew _
  have hs₃ : s₃.Inv := hs₂.same
  have hs₄ : s₄.Inv := hs₃.adoptScan
  have hs₅ : s₅.Inv := .ite hs₄.formatMedia hs₄
  exact (OnSome.getD hs₅.makeCheckpoint hs₅).scanEnd.next

theorem State.Inv.execVaultSetReplace {entry : Nat} {s : State} (h : s.Inv) : Res.Inv (execVaultSetReplace entry s) := by
  unfold Machine.execVaultSetReplace
  refine h.whileCore fun s₁ hs₁ => ?_
  refine .ite hs₁.next ?_
  extract_lets
  split
  · exact hs₁.next
  · split
    · exact hs₁.next
    next s₂ e₂ =>
      have hs₂ : s₂.Inv := hs₁.heapPop _ e₂
      exact (((hs₂.setF _ _).setF _ _).keepVault.btSet.retireBlock.setLimit.setJournalSize.logCrew _).next

theorem State.Inv.execMediaFull {s : State} (h : s.Inv) : Res.Inv (execMediaFull s) := by
  unfold Machine.execMediaFull
  refine h.whileCore fun s₁ hs₁ => ?_
  extract_lets _ _ s₂
  have hs₂ : s₂.Inv := hs₁.same
  refine .ite hs₁.next ?_
  refine .ite (.ite (hs₁.logCrew _).readOnlyFor.next hs₁.next) ?_
  exact .ite (.ite (hs₂.same.foldl _ _ fun s₃ _ hs₃ => hs₃.ownSeatLost).sendAllStatus.next hs₂.next) hs₁.next

theorem State.Inv.strideProgrammed {s : State} {s1 : Stride} (h : s.Inv) : (strideProgrammed s s1).Inv := by
  unfold Machine.strideProgrammed
  extract_lets _ _ s₁ s₂
  have hs₁ : s₁.Inv := h.same
  have hs₂ : s₂.Inv := hs₁.btSet
  split
  · extract_lets s₃ s₄ s₅
    have hs₃ : s₃.Inv := hs₂.same
    have hs₄ : s₄.Inv := .ite hs₃.btSet hs₃
    have hs₅ : s₅.Inv := by
      unfold s₅
      refine hs₄.foldl _ _ fun s₆ i hs₆ => ?_
      split
      · exact .ite hs₆.putFrag hs₆
      · exact hs₆.putBucketItem
      · exact hs₆.same
    exact hs₅.settleFragments
  · exact hs₂

theorem State.Inv.execFcOperationEnd {channel slot fail bits corrected bad badWords : Nat} {s : State} (h : s.Inv) :
    Res.Inv (execFcOperationEnd channel slot fail bits corrected bad badWords s) := by
  unfold Machine.execFcOperationEnd
  split
  · exact h.next
  · extract_lets _ _ t
    have ht : t.Inv := h.fcEnd
    refine .ite (.ite .fault (State.Inv.next (.ite ht ht.strideProgrammed))) ?_
    exact .ite (.ite .fault (State.Inv.next (.ite ht.eraseFailed ht.freeBlock))) ht.next

/-! ### The form is kept: `Machine/Sessions.lean` -/

theorem State.Inv.takeAck {s : State} {session : Nat} {s1 : Sess} {rnr : Bool} (h : s.Inv) : (takeAck s session s1 rnr).Inv :=
  .ite (.ite h.modSess h.sessClose) h.modSess

theorem State.Inv.execRocePacketReceived {session icrc header opcode rnr ce : Nat} {s : State} (h : s.Inv) :
    Res.Inv (execRocePacketReceived session icrc header opcode rnr ce s) := by
  unfold Machine.execRocePacketReceived
  refine h.whileCore fun s₁ hs₁ => ?_
  split
  · exact hs₁.next
  · refine .ite hs₁.next ?_
    extract_lets _ s₂
    have hs₂ : s₂.Inv := .ite ((hs₁.modSess.emit _).countF _ _) hs₁
    exact State.Inv.next (.ite hs₂.takeAck (hs₂.emit _).sessClose)

theorem State.Inv.setStep {s : State} {session step : Nat} (h : s.Inv) : (setStep s session step).Inv := h.sessPut.modSess

theorem State.Inv.execCnpReceived {session : Nat} {s : State} (h : s.Inv) : Res.Inv (execCnpReceived session s) := by
  unfold Machine.execCnpReceived
  refine h.whileCore fun s₁ hs₁ => ?_
  split
  · exact hs₁.next
  · exact .ite hs₁.next (State.Inv.next (.ite (hs₁.countF _ _).modSess.setStep.modSess (hs₁.countF _ _).modSess))

theorem State.Inv.execRateRecoveryExpiry {session : Nat} {s : State} (h : s.Inv) : Res.Inv (execRateRecoveryExpiry session s) := by
  unfold Machine.execRateRecoveryExpiry
  refine h.whileCore fun s₁ hs₁ => ?_
  split
  · exact hs₁.next
  · exact .ite hs₁.next (hs₁.reach _).setStep.next

theorem State.Inv.execLocalAckTimeout {session : Nat} {s : State} (h : s.Inv) : Res.Inv (execLocalAckTimeout session s) := by
  unfold Machine.execLocalAckTimeout
  refine h.whileCore fun s₁ hs₁ => ?_
  split
  · exact hs₁.next
  · exact .ite hs₁.next (.ite (hs₁.putSess.emit _).next (.ite ((hs₁.reach _).putSess.emit _).next hs₁.next))

theorem State.Inv.execQpRetryExhausted {session : Nat} {s : State} (h : s.Inv) : Res.Inv (execQpRetryExhausted session s) :=
  h.whileCore fun _ hs₁ => hs₁.sessClose.next

theorem State.Inv.sessConnect {s : State} {s1 : Sess} {kind : Nat} {ready : Bool} (h : s.Inv) : (sessConnect s s1 kind ready).Inv :=
  State.Inv.putSess (.ite (h.sessPut.sessPut.sessPut.setF _ _) h.sessPut.sessPut.sessPut)

theorem State.Inv.execCmReq {service comm mtu pkey timeout retry rnr : Nat} {s : State} (h : s.Inv) :
    Res.Inv (execCmReq service comm mtu pkey timeout retry rnr s) := by
  unfold Machine.execCmReq
  refine h.whileCore fun s₁ hs₁ => ?_
  split
  · exact (hs₁.emit _).next
  · extract_lets kind reject
    have hreject : reject.Inv := hs₁.emit _
    clear_value kind
    split
    · exact hreject.next
    · extract_lets
      refine .ite ?_ hreject.next
      split
      · exact (hreject.pulse _).next
      · exact (hs₁.sessConnect.emit _).next

theorem State.Inv.execCmRtu {session : Nat} {s : State} (h : s.Inv) : Res.Inv (execCmRtu session s) :=
  h.whileCore fun _ hs₁ => State.Inv.next (.ite hs₁.modSess hs₁)

theorem State.Inv.execCmDreq {session : Nat} {s : State} (h : s.Inv) : Res.Inv (execCmDreq session s) :=
  h.whileCore fun _ hs₁ => State.Inv.next (.ite (hs₁.emit _).sessClose hs₁)

theorem State.Inv.execHandshakeTimerExpiry {session : Nat} {s : State} (h : s.Inv) : Res.Inv (execHandshakeTimerExpiry session s) := by
  unfold Machine.execHandshakeTimerExpiry
  refine h.whileCore fun s₁ hs₁ => ?_
  split
  · exact .ite (hs₁.reach _).sessDrop.next hs₁.next
  · exact hs₁.next

theorem State.Inv.capsuleChecks {s : State} {session : Nat} {b : Bytes} (h : s.Inv) : (capsuleChecks s session b).1.Inv := by
  unfold Machine.capsuleChecks
  extract_lets _ _ r
  have hr : r.1.Inv := .fst_ite h.asuUse h
  exact .fst_ite h (.fst_ite h (.fst_ite h (.fst_ite h (.fst_ite h (.fst_ite h (.fst_ite hr (.fst_ite hr hr)))))))

theorem State.Inv.check9 {s : State} {cap : Bytes} (h : s.Inv) : (check9 s cap).1.Inv := by
  unfold Machine.check9
  extract_lets _ _ _ _ _ h₁ conflictNow
  have hh₁ : h₁.2.Inv := h.fresh
  have hconflictNow : conflictNow.1.Inv := .fst_ite hh₁ h
  refine .fst_ite h ?_
  refine .fst_ite (.fst_ite h hconflictNow) ?_
  exact .fst_ite (.fst_ite hconflictNow h) (.fst_ite h (.fst_ite hconflictNow (.fst_ite h (.fst_ite h (.fst_ite h h)))))

theorem State.Inv.takeUp {s : State} {i : Nat} (h : s.Inv) : (takeUp s i).Inv := by
  unfold Machine.takeUp
  split
  · exact h
  · refine .ite h ?_
    extract_lets r
    have hr : r.1.Inv := h.check9
    split
    · exact hr.conflict
    · exact .ite hr.putCmd.hostSend hr

theorem State.Inv.handReason {s : State} {b : Bytes} (h : s.Inv) : (handReason s b).1.Inv := by
  unfold Machine.handReason
  extract_lets _ _ r h₁ s₁ s₂
  have hr : r.1.Inv := h.asuUse
  have hh₁ : h₁.1.Inv := .fst_ite hr.asuUse hr
  have hs₁ : s₁.Inv := hh₁
  have hs₂ : s₂.Inv := hs₁.touch
  exact .fst_ite h (.fst_ite h (.fst_ite h (.fst_ite h (.fst_ite h (.fst_ite hr (.fst_ite hs₂ (.fst_ite hs₂ (.fst_ite hs₂ hs₂))))))))

theorem State.Inv.acceptCmd {s : State} {session : Nat} {b : Bytes} (h : s.Inv) : (acceptCmd s session b).1.Inv := by
  unfold Machine.acceptCmd
  split
  · exact h
  · exact (h.sessPut.setF _ _).same

theorem State.Inv.routeCmd {s : State} {c : Cmd} (h : s.Inv) : (routeCmd s c).Inv :=
  .ite (.ite h.handReason h.handReason.readMore) (.ite h.handReason.handOn h.handReason.handOn.takeUp)

theorem State.Inv.releaseSwapHeld {s : State} (h : s.Inv) : (releaseSwapHeld s).Inv := h.foldl _ _ fun _ _ hs₁ => hs₁.putCmd.routeCmd

theorem State.Inv.execCapsule {session : Nat} {message : Bytes} {s : State} (h : s.Inv) : Res.Inv (execCapsule session message s) := by
  unfold Machine.execCapsule
  refine h.whileCore fun s₁ hs₁ => ?_
  refine .ite hs₁.next ?_
  refine .ite (hs₁.emit _).next ?_
  extract_lets _ r
  have hr : r.1.Inv := hs₁.capsuleChecks
  refine .ite .fault ?_
  split
  · exact hr.refuse.next
  · exact hr.refuse.next
  · split
    next s₂ e =>
      have hs₂ : s₂.Inv := .of_fst hr.acceptCmd e
      exact hs₂.next
    next s₂ _ e =>
      have hs₂ : s₂.Inv := .of_fst hr.acceptCmd e
      exact .ite hs₂.putCmd.next hs₂.routeCmd.next

theorem State.Inv.execExcQueueRoom {s : State} (h : s.Inv) : Res.Inv (execExcQueueRoom s) :=
  h.whileCore fun _ hs₁ => (hs₁.excDrain.foldl _ _ fun _ _ hs₂ => .ite hs₂.takeUp hs₂).next

theorem State.Inv.answerInline {s : State} {c : Cmd} {r0 r1 : Nat} {d : Bytes} (h : s.Inv) : (answerInline s c r0 r1 d).Inv := h.finish

theorem State.Inv.execOpen {cmd : Nat} {s : State} (h : s.Inv) : Res.Inv (execOpen cmd s) :=
  h.onCmd fun _ _ hs₁ => .ite hs₁.conflict.next ((hs₁.freshBytes _).sessPut.sessPut.sessPut.memWrite _ _).modSess.answerInline.next

theorem State.Inv.execAuth {cmd : Nat} {s : State} (h : s.Inv) : Res.Inv (execAuth cmd s) := by
  unfold Machine.execAuth
  refine h.onCmd fun s₁ c hs₁ => ?_
  extract_lets _ _ _ _ _ _ s₂ s₃ _ s₄
  have hs₂ : s₂.Inv := hs₁.sessPut.sessPut.modSess
  have hs₃ : s₃.Inv := hs₂.accessSync
  have hs₄ : s₄.Inv := (hs₁.logCrew _).answer
  exact .ite hs₁.conflict.next (.ite hs₃.answerInline.next (State.Inv.next (.ite hs₄.sessPut hs₄.sessDrop)))

theorem State.Inv.execClose {cmd : Nat} {s : State} (h : s.Inv) : Res.Inv (execClose cmd s) := h.onCmd fun _ _ hs₁ => hs₁.answer.sessDrop.next

theorem State.Inv.execNop {cmd : Nat} {s : State} (h : s.Inv) : Res.Inv (execNop cmd s) := h.onCmd fun _ _ hs₁ => hs₁.answer.next

theorem State.Inv.execResultFetch {cmd : Nat} {s : State} (h : s.Inv) : Res.Inv (execResultFetch cmd s) := by
  unfold Machine.execResultFetch
  refine h.onCmd fun s₁ c hs₁ => ?_
  split
  · exact hs₁.answer.next
  · split
    · exact hs₁.answer.next
    · exact hs₁.putCmd.finish.next

theorem State.Inv.execResultRelease {cmd : Nat} {s : State} (h : s.Inv) : Res.Inv (execResultRelease cmd s) := by
  unfold Machine.execResultRelease
  refine h.onCmd fun s₁ c hs₁ => ?_
  split
  · exact hs₁.answer.next
  · exact (State.Inv.answer (.ite hs₁.endCmd hs₁.putCmd)).next

theorem State.Inv.execRdmaReadResponse {session : Nat} {data : Bytes} {s : State} (h : s.Inv) : Res.Inv (execRdmaReadResponse session data s) := by
  unfold Machine.execRdmaReadResponse
  refine h.whileCore fun s₁ hs₁ => ?_
  split
  · exact hs₁.next
  · split
    · exact hs₁.next
    · refine .ite hs₁.next ?_
      extract_lets s₂ s₃
      have hs₂ : s₂.Inv := hs₁.putSess
      have hs₃ : s₃.Inv := by
        unfold s₃
        split
        · exact hs₂.putCmd.storeAs
        · exact hs₂
      refine .ite ?_ (hs₃.foldl _ _ fun s₄ _ hs₄ => hs₄.readMore).next
      split
      · exact hs₂.next
      · exact hs₂.fabWrite.hteDone.next

theorem State.Inv.execRdmaErrorNak {session : Nat} {s : State} (h : s.Inv) : Res.Inv (execRdmaErrorNak session s) :=
  h.whileCore fun _ hs₁ => hs₁.sessClose.next

theorem State.Inv.execHteSessHoldWrite {core value : Nat} {s : State} (h : s.Inv) : Res.Inv (execHteSessHoldWrite core value s) :=
  h.coreStore fun _ hs₁ => .ite .fault (.ite hs₁.next (((hs₁.setF _ _).setF _ _).setF _ _).next)

theorem State.Inv.execHteReply {queue : Nat} {s : State} (h : s.Inv) : Res.Inv (execHteReply queue s) := by
  unfold Machine.execHteReply
  refine h.whileCore fun s₁ hs₁ => ?_
  split
  · exact hs₁.next
  · extract_lets
    refine .ite hs₁.hteDone.next ?_
    split
    · exact hs₁.hteDone.next
    · refine .ite (State.Inv.hteDone (.ite hs₁ hs₁.endCmd)).next ?_
      refine .ite hs₁.endCmd.hteDone.next ?_
      split
      next s₂ e =>
        have hs₂ : s₂.Inv := .of_fst hs₁.fabRead e
        exact hs₂.hteDone.next
      next s₂ _ e =>
        have hs₂ : s₂.Inv := .of_fst hs₁.fabRead e
        exact (State.Inv.hteDone (.ite hs₂.hostSend hs₂.hostSend.endCmd)).next

theorem State.Inv.execHteRdmaRead {queue : Nat} {s : State} (h : s.Inv) : Res.Inv (execHteRdmaRead queue s) := by
  unfold Machine.execHteRdmaRead
  refine h.whileCore fun s₁ hs₁ => ?_
  split
  · exact hs₁.next
  · split
    · exact hs₁.hteDone.next
    · split
      · exact hs₁.next
      · exact .ite hs₁.next (hs₁.emit _).putSess.next

theorem State.Inv.execHteRdmaWrite {queue : Nat} {s : State} (h : s.Inv) : Res.Inv (execHteRdmaWrite queue s) := by
  unfold Machine.execHteRdmaWrite
  refine h.whileCore fun s₁ hs₁ => ?_
  split
  · exact hs₁.next
  · split
    · exact hs₁.hteDone.next
    · split
      next s₂ e =>
        have hs₂ : s₂.Inv := .of_fst hs₁.fabRead e
        exact hs₂.hteDone.next
      next s₂ _ e =>
        have hs₂ : s₂.Inv := .of_fst hs₁.fabRead e
        exact (hs₂.emit _).hteDone.next

theorem State.Inv.execHteSend {queue : Nat} {s : State} (h : s.Inv) : Res.Inv (execHteSend queue s) := by
  unfold Machine.execHteSend
  refine h.whileCore fun s₁ hs₁ => ?_
  split
  · exact hs₁.next
  · extract_lets
    refine .ite hs₁.hteDone.next ?_
    refine .ite hs₁.hteDone.next ?_
    refine .ite hs₁.hteDone.next ?_
    split
    next s₂ e =>
      have hs₂ : s₂.Inv := .of_fst hs₁.fabRead e
      exact hs₂.hteDone.next
    next s₂ _ e =>
      have hs₂ : s₂.Inv := .of_fst hs₁.fabRead e
      exact (hs₂.emit _).hteDone.next

theorem State.Inv.execHteRxPost {queue : Nat} {s : State} (h : s.Inv) : Res.Inv (execHteRxPost queue s) := by
  unfold Machine.execHteRxPost
  refine h.whileCore fun s₁ hs₁ => ?_
  split
  · exact hs₁.next
  · exact .ite hs₁.hteDone.next hs₁.same.hteDone.next

theorem State.Inv.execHteClose {queue : Nat} {s : State} (h : s.Inv) : Res.Inv (execHteClose queue s) := by
  unfold Machine.execHteClose
  refine h.whileCore fun s₁ hs₁ => ?_
  split
  · exact hs₁.next
  · exact .ite hs₁.hteDone.next (.ite hs₁.hteDone.next hs₁.sessDrop.hteDone.next)

/-! ### The form is kept: `Machine/Peers.lean` -/

theorem State.Inv.execPeerSessionOpen {hull kind : Nat} {s : State} (h : s.Inv) : Res.Inv (execPeerSessionOpen hull kind s) := by
  unfold Machine.execPeerSessionOpen
  refine h.whileCore fun s₁ hs₁ => ?_
  extract_lets
  refine .ite hs₁.next ?_
  split
  · exact hs₁.next
  · exact (hs₁.putSess.same.sessPut.sessPut.emit _).next

theorem State.Inv.coxEph {s : State} (h : s.Inv) : (coxEph s).2.2.Inv := (h.freshBytes _).same

theorem State.Inv.takePeerKey {s : State} {id ctx : Nat} {peerBody nonce : Bytes} {initiator : Bool} (h : s.Inv) :
    (takePeerKey s id ctx peerBody nonce initiator).Inv :=
  .ite h.same.sessPut.modSess h.same.sessPut.modSess.keyChannel

theorem State.Inv.sendHello {s : State} {id : Nat} (h : s.Inv) : (sendHello s id).Inv := .ite h (h.coxEph.freshBytes _).modSess.same.peerEmit

theorem State.Inv.execCmRep {session accepted : Nat} {s : State} (h : s.Inv) : Res.Inv (execCmRep session accepted s) := by
  unfold Machine.execCmRep
  refine h.whileCore fun s₁ hs₁ => ?_
  split
  · exact hs₁.next
  · exact .ite hs₁.next (.ite (hs₁.sessConnect.emit _).sendHello.next (hs₁.memWrite _ _).same.next)

theorem State.Inv.resendForward {s : State} {r : PeerReq} (h : s.Inv) : (resendForward s r).Inv := by
  unfold Machine.resendForward
  split
  · exact h.resendRequest
  · exact h.same.resendRequest

theorem State.Inv.sessionUp {s : State} {hull : Nat} (h : s.Inv) : (sessionUp s hull).Inv := by
  unfold Machine.sessionUp
  extract_lets s₁ s₂ _ s₃
  have hs₁ : s₁.Inv := h.foldl _ _ fun s₄ _ hs₄ => hs₄.tellHulls
  have hs₂ : s₂.Inv := by
    unfold s₂
    split
    · exact .ite hs₁.tellStaged hs₁
    · exact hs₁
  have hs₃ : s₃.Inv := by
    unfold s₃
    refine hs₂.foldl _ _ fun s₄ r hs₄ => ?_
    refine .ite hs₄.resendForward ?_
    refine .ite ?_ hs₄.resendRequest
    split
    · exact hs₄.resendRecord
    · exact hs₄.resendRequest
  exact hs₃.settleAll

theorem State.Inv.execHello {s : State} (h : s.Inv) : Res.Inv (execHello s) := by
  unfold Machine.execHello
  refine h.onPeer fun s₁ id b hs₁ => ?_
  extract_lets _ _ _ _ e n _ s₂ s₃
  have he : e.2.2.Inv := hs₁.coxEph
  have hn : n.2.Inv := he.freshBytes _
  have hs₂ : s₂.Inv := hn.modSess
  have hs₃ : s₃.Inv := hs₂.peerReply
  split
  · exact hs₁.next
  · refine .ite (State.Inv.next (.ite hs₁ hs₁.peerReply)) ?_
    refine .ite ?_ ?_
    · refine .ite ?_ (hs₁.logCrew _).sessDrop.next
      extract_lets s₄ s₅
      have hs₄ : s₄.Inv := hs₁.takePeerKey
      have hs₅ : s₅.Inv := hs₄.sessPut.modSess
      refine .ite hs₅.sessionUp.next ?_
      split
      · exact hs₅.peerEmit.next
      · exact hs₅.next
    · exact .ite hs₁.next (.ite hs₃.takePeerKey.sessPut.next (hs₁.peerReply.logCrew _).sessDrop.next)

theorem State.Inv.unitSettled {s : State} {r : PeerReq} (h : s.Inv) : (unitSettled s r).Inv := by
  unfold Machine.unitSettled
  extract_lets
  split
  · exact h
  · exact h.putIntent

theorem State.Inv.requestLater {s : State} {r : PeerReq} {at_ : Nat} (h : s.Inv) : (requestLater s r at_).Inv := h.same

theorem State.Inv.releaseHeld {s : State} {hull : Nat} (h : s.Inv) : (releaseHeld s hull).Inv := by
  unfold Machine.releaseHeld
  split
  · exact h
  · exact .ite h h.same.resendRequest

theorem State.Inv.requestDone {s : State} {r : PeerReq} (h : s.Inv) : (requestDone s r).Inv := h.dropRequests.releaseHeld

theorem State.Inv.fragWriteReply {s : State} {r : PeerReq} {b : Bytes} (h : s.Inv) : (fragWriteReply s r b).Inv := by
  unfold Machine.fragWriteReply
  extract_lets _ _ _ _ s₁ _ s₂
  have hs₁ : s₁.Inv := h.requestLater
  have hs₂ : s₂.Inv := h.foldl _ _ fun s₃ _ hs₃ => hs₃.requestDone.unitSettled
  refine .ite h.requestDone.unitSettled ?_
  refine .ite h.requestLater ?_
  refine .ite h.requestLater ?_
  refine .ite ?_ ?_
  · split
    · exact .ite hs₁.setGState.suspendCommands hs₁
    · exact hs₁
  · refine .ite ?_ ?_
    · split
      · exact hs₂.putGroup
      · exact hs₂
    · split
      · exact h.requestDone
      · exact .ite h.putGroup.resendRequest h.requestDone.tryDeclare

theorem State.Inv.fragReadReply {s : State} {r : PeerReq} {b : Bytes} (h : s.Inv) : (fragReadReply s r b).Inv := by
  unfold Machine.fragReadReply
  extract_lets _ _ _ _ _ s₁ _ s₂
  have hs₁ : s₁.Inv := h.requestDone
  have hs₂ : s₂.Inv := hs₁.crewStore
  refine .ite (.ite hs₁ (.ite hs₂.peerRequest (hs₂.setF _ _))) ?_
  split
  · exact (State.Inv.requestDone (.ite h.replan h)).putFetch.probesJudged
  · split
    · exact .ite h.requestDone.probeAnswered h
    · exact h.requestDone

theorem State.Inv.inventoryReply {s : State} {r : PeerReq} {b : Bytes} (h : s.Inv) : (inventoryReply s r b).Inv := by
  unfold Machine.inventoryReply
  extract_lets _ _ _ _ _ _ s₁
  have hs₁ : s₁.Inv := h.requestDone
  refine .ite h.requestLater ?_
  split
  · exact hs₁
  · extract_lets _ s₂ s₃
    have hs₂ : s₂.Inv := .ite hs₁.rebuildInventory hs₁
    have hs₃ : s₃.Inv := by
      unfold s₃
      split
      · exact hs₂.indexInventory
      · exact hs₂
    split
    · exact hs₃
    · exact .ite hs₃.same.disownDone hs₃.same.peerRequest

theorem State.Inv.forwardAnswered {s : State} {r : PeerReq} {b : Bytes} (h : s.Inv) : (forwardAnswered s r b).Inv := by
  unfold Machine.forwardAnswered
  extract_lets _ _ s₁
  have hs₁ : s₁.Inv := h.requestDone
  split
  · exact hs₁.same
  · refine .ite ?_ hs₁.finish
    extract_lets q
    have hq : q.1.Inv := hs₁.routeChange
    split
    · exact .ite hq hq.putCmd
    · exact hq

theorem State.Inv.recordAnswered {s : State} {r : PeerReq} {b : Bytes} (h : s.Inv) : (recordAnswered s r b).Inv := by
  unfold Machine.recordAnswered
  extract_lets
  split
  · exact h.requestDone
  · exact .ite h h.requestDone.putChange

theorem State.Inv.outcomeAnswered {s : State} {r : PeerReq} {b : Bytes} (h : s.Inv) : (outcomeAnswered s r b).Inv := by
  unfold Machine.outcomeAnswered
  refine .ite h ?_
  extract_lets _ s₁
  have hs₁ : s₁.Inv := h.requestDone
  split
  · exact hs₁.putIntent
  · exact hs₁

theorem State.Inv.replyEffect {s : State} {r : PeerReq} {b : Bytes} (h : s.Inv) : (replyEffect s r b).Inv := by
  unfold Machine.replyEffect
  extract_lets _ s₁
  have hs₁ : s₁.Inv := h.requestDone
  refine .ite h.fragWriteReply ?_
  refine .ite h.fragReadReply ?_
  refine .ite h.outcomeAnswered ?_
  refine .ite h.requestDone.joinAnswered ?_
  refine .ite h.forwardAnswered ?_
  refine .ite h.recordAnswered ?_
  refine .ite (.ite hs₁ hs₁.same.epochDecide) ?_
  exact .ite (.ite h hs₁.same.leaderDone) (.ite h.requestDone.epochAnswered (.ite h.inventoryReply h.requestDone))

theorem State.Inv.peerSealFail {s : State} {id : Nat} (h : s.Inv) : (peerSealFail s id).Inv := (h.logCrew _).sessDrop

theorem State.Inv.peerSealTake {s : State} {id : Nat} {b : Bytes} (h : s.Inv) : (peerSealTake s id b).Inv := .ite h.modSess h

theorem State.Inv.peerPlace {s : State} {id : Nat} {b : Bytes} (h : s.Inv) : OnSome State.Inv (peerPlace s id b) := by
  unfold Machine.peerPlace
  split
  · exact .none
  · exact .some h.same.fabWrite.peerSealTake.postExc

theorem State.Inv.peerReplyIn {s : State} {id : Nat} {b : Bytes} (h : s.Inv) : (peerReplyIn s id b).Inv := by
  unfold Machine.peerReplyIn
  split
  · exact h
  · refine .ite h ?_
    refine .ite h.peerSealFail ?_
    split
    · refine .ite h.replyEffect.settleAll ?_
      split
      next s₁ e =>
        have hs₁ : s₁.Inv := h.peerPlace _ e
        exact hs₁.replyEffect.settleAll
      · exact h.emit _
    · exact OnSome.getD h.peerPlace (h.emit _)

theorem State.Inv.execPeerReplyReceived {session : Nat} {message : Bytes} {s : State} (h : s.Inv) :
    Res.Inv (execPeerReplyReceived session message s) :=
  h.whileCore fun _ hs₁ => .ite hs₁.peerReplyIn.next hs₁.next

theorem State.Inv.peerDeliver {s : State} {id : Nat} {b : Bytes} (h : s.Inv) : (peerDeliver s id b).Inv := by
  unfold Machine.peerDeliver
  split
  · exact h.emit _
  next s₁ e =>
    have hs₁ : s₁.Inv := h.peerPlace _ e
    exact .ite (State.Inv.same (.ite hs₁.sessPut.modSess hs₁)).sessionUp (State.Inv.same (.ite hs₁.sessPut.modSess hs₁))

theorem State.Inv.execPeerMessage {session : Nat} {message : Bytes} {s : State} (h : s.Inv) : Res.Inv (execPeerMessage session message s) := by
  unfold Machine.execPeerMessage
  refine h.whileCore fun s₁ hs₁ => ?_
  extract_lets
  refine .ite hs₁.same_pj.next ?_
  refine .ite hs₁.next ?_
  refine .ite (hs₁.emit _).next ?_
  refine .ite (State.Inv.next (.ite hs₁.peerReplyIn hs₁)) ?_
  refine .ite hs₁.peerReply.next ?_
  refine .ite hs₁.peerReply.next ?_
  refine .ite hs₁.peerSealFail.next ?_
  refine .ite hs₁.peerReply.next ?_
  refine .ite hs₁.peerSealTake.peerReply.next ?_
  split
  · exact hs₁.peerReply.next
  · exact hs₁.peerDeliver.next

/-! ### The form is kept: `Machine/Reset.lean` -/

theorem State.Inv.coresOff {s : State} {off : Nat → Bool} (h : s.Inv) : (coresOff s off).Inv := h.same

theorem State.Inv.clearCore {s : State} (h : s.Inv) : (clearCore s).Inv := h.same.same.same_pj.coresOff.same.same.setF _ _

theorem State.Inv.clearFlash {s : State} (h : s.Inv) : (clearFlash s).Inv := (h.foldl _ _ fun _ _ hs₁ => hs₁.fcCut).same

theorem State.Inv.clearCox {s : State} (h : s.Inv) : (clearCox s).Inv := h.same

theorem State.Inv.clearPort {s : State} {p : Nat} (h : s.Inv) : (clearPort s p).Inv := h.same

theorem State.Inv.clearDomain {s : State} {d : Domain} (h : s.Inv) : (clearDomain s d).Inv := by
  unfold Machine.clearDomain
  extract_lets s₁ s₂
  have hs₂ : s₂.Inv := ⟨kvWf_filter h.regsWf _, kvWf_filter h.shadowWf _, memWf_filter h.memWf _, h.vaultWf⟩
  cases d with
  | aon => exact hs₂
  | svc => exact hs₂.clearPort.same
  | cox => exact hs₂.clearCox
  | core => exact hs₂.clearCore
  | crew2 => exact hs₂.coresOff
  | dram => exact hs₂.same
  | flash => exact hs₂.clearFlash
  | lane0 => exact hs₂.clearPort.same
  | lanes => exact hs₂.clearPort

theorem State.Inv.domainOff {s : State} {d : Domain} (h : s.Inv) : (domainOff s d).Inv := h.clearDomain.same

theorem State.Inv.deviceReset {s : State} {cause : Nat} (h : s.Inv) : (deviceReset s cause).Inv := by
  unfold Machine.deviceReset
  extract_lets _ s₁ _ s₂ _ _ s₃ s₄ s₅
  have hs₁ : s₁.Inv := h.foldl _ _ fun s₆ _ hs₆ => hs₆.domainOff
  have hs₂ : s₂.Inv := .ite hs₁.same hs₁
  have hs₃ : s₃.Inv := hs₂.same
  have hs₄ : s₄.Inv := ((hs₃.setF _ _).setF _ _).setF _ _
  have hs₅ : s₅.Inv := (hs₄.setF _ _).setF _ _
  exact hs₅.logEv _ _ _ _

theorem State.Inv.logbookStart {s : State} (h : s.Inv) : (logbookStart s).Inv :=
  ((State.Inv.setF (.ite h.same.putControl h.same) _ _).setF _ _).setF _ _

theorem State.Inv.pentStart {s : State} (h : s.Inv) : (pentStart s).Inv := (h.same.setF _ _).setF _ _

theorem State.Inv.powerOnReset {s : State} (h : s.Inv) : (powerOnReset s).Inv :=
  ((h.foldl _ _ fun _ _ hs₁ => hs₁.domainOff).clearDomain.same.setF _ _).logbookStart.pentStart.logEv _ _ _ _

theorem State.Inv.alertLow {s : State} (h : s.Inv) : (alertLow s).Inv := h.same

theorem State.Inv.enterHalted {s : State} {code : Nat} (h : s.Inv) : (enterHalted s code).Inv :=
  .ite h (h.pentTrigger.alertLow.same.logCox _ _ _ _).sendAllStatus

theorem State.Inv.bootHalted {s : State} (h : s.Inv) : (bootHalted s).Inv := h.same.alertLow.setF _ _

/-! ### The form is kept: `Machine/Cox.lean` -/

theorem State.Inv.setEscrow {s : State} {key : Bytes} (h : s.Inv) : (setEscrow s key).Inv := h.same.setF _ _

theorem State.Inv.mbWrite {s : State} {c status : Nat} {payload : Bytes} (h : s.Inv) : (mbWrite s c status payload).Inv :=
  ((h.setWords.setF _ _).setF _ _).same

theorem State.Inv.mbUnknown {n : Nat} {s : State} (h : s.Inv) : (mbUnknown n s).Inv := by
  induction n generalizing s with
  | zero => exact h
  | succ n ih =>
    unfold Machine.mbUnknown
    split
    · exact .ite h (ih h.mbWrite)
    · exact h

theorem State.Inv.mbReply {s : State} {c status : Nat} {payload : Bytes} (h : s.Inv) : (mbReply s c status payload).Inv := h.mbWrite.mbUnknown

theorem State.Inv.onMailbox {op lo hi : Nat} {s : State} {run : State → Nat → Bytes → Res} (h : s.Inv)
    (hrun : ∀ t x y, t.Inv → Res.Inv (run t x y)) : Res.Inv (onMailbox op lo hi s run) := by
  unfold Machine.onMailbox
  refine .ite h.next ?_
  split
  · exact h.next
  · exact .ite h.next (.ite .fault (.ite h.mbReply.next (hrun _ _ _ h)))

theorem State.Inv.execCoxMailboxGo {core channel : Nat} {s : State} (h : s.Inv) : Res.Inv (execCoxMailboxGo core channel s) :=
  h.coreStore fun _ hs₁ => .ite hs₁.next (State.Inv.next (.ite (hs₁.setF _ _).mbUnknown (hs₁.setF _ _)))

theorem State.Inv.coxRead {s : State} {a n : Nat} (h : s.Inv) : (coxRead s a n).1.Inv := h.readLoose

theorem State.Inv.execCfgRead {s : State} (h : s.Inv) : Res.Inv (execCfgRead s) := by
  unfold Machine.execCfgRead
  refine h.onMailbox fun s₁ c p hs₁ => ?_
  extract_lets
  refine .ite hs₁.mbReply.next ?_
  split
  · exact State.Inv.next (.ite hs₁.mbReply hs₁.mbReply)
  · exact hs₁.mbReply.next

theorem State.Inv.execCfgWrite {s : State} (h : s.Inv) : Res.Inv (execCfgWrite s) := by
  unfold Machine.execCfgWrite
  refine h.onMailbox fun s₁ c p hs₁ => ?_
  extract_lets
  refine .ite .fault ?_
  refine .ite hs₁.mbReply.next ?_
  split
  next s₂ e =>
    have hs₂ : s₂.Inv := hs₁.cfgAppend _ e
    exact hs₂.mbReply.next
  · exact hs₁.mbReply.next

theorem State.Inv.execFcLoad {s : State} (h : s.Inv) : Res.Inv (execFcLoad s) :=
  h.onMailbox fun _ _ _ hs₁ => .ite hs₁.mbReply.next (.ite hs₁.mbReply.next hs₁.same.fcLoadAll.next)

theorem State.Inv.execChannelReady {channel : Nat} {targets : List FcTarget} {s : State} (h : s.Inv) :
    Res.Inv (execChannelReady channel targets s) := by
  unfold Machine.execChannelReady
  refine .ite h.next ?_
  extract_lets s₁
  have hs₁ : s₁.Inv := h.channelReady
  split
  · exact hs₁.next
  · exact .ite hs₁.same.mbReply.next hs₁.same.next

theorem State.Inv.execPeerEph {s : State} (h : s.Inv) : Res.Inv (execPeerEph s) := h.onMailbox fun _ _ _ hs₁ => hs₁.coxEph.mbReply.next

theorem State.Inv.execPeerSign {s : State} (h : s.Inv) : Res.Inv (execPeerSign s) :=
  h.onMailbox fun _ _ _ hs₁ => .ite hs₁.mbReply.next (.ite hs₁.mbReply.next hs₁.mbReply.next)

theorem State.Inv.execPeerKey {s : State} (h : s.Inv) : Res.Inv (execPeerKey s) := by
  unfold Machine.execPeerKey
  refine h.onMailbox fun s₁ c p hs₁ => ?_
  extract_lets _ _ _ s₂
  have hs₂ : s₂.Inv := hs₁.same
  refine .ite .fault ?_
  refine .ite hs₁.mbReply.next ?_
  split
  · exact hs₁.mbReply.next
  · extract_lets _ s₃ s₄
    have hs₃ : s₃.Inv := hs₂.setSlot
    have hs₄ : s₄.Inv := by
      unfold s₄
      split
      · exact hs₃.pairRekey
      · exact hs₃
    exact hs₄.mbReply.next

theorem State.Inv.execXportLoad {s : State} (h : s.Inv) : Res.Inv (execXportLoad s) :=
  h.onMailbox fun _ _ _ hs₁ => .ite hs₁.mbReply.next (.ite hs₁.mbReply.next hs₁.setSlot.mbReply.next)

theorem State.Inv.svcPayload {s : State} {addr len : Nat} (h : s.Inv) : (svcPayload s addr len).1.Inv := .fst_ite h h.coxRead

theorem State.Inv.execSvcMac {s : State} (h : s.Inv) : Res.Inv (execSvcMac s) := by
  unfold Machine.execSvcMac
  refine h.onMailbox fun s₁ c p hs₁ => ?_
  extract_lets _ _ r x
  have hr : r.1.Inv := hs₁.svcPayload
  have hx : x.Inv := hr
  split
  · exact hr.mbReply.next
  · exact hr.mbReply.next
  · exact .ite hr.mbReply.next (.ite hr.mbReply.next (.ite hr.fabWrite.mbReply.next (.ite hx.same.mbReply.next hr.mbReply.next)))

theorem State.Inv.execSvcKeySet {s : State} (h : s.Inv) : Res.Inv (execSvcKeySet s) := by
  unfold Machine.execSvcKeySet
  refine h.onMailbox fun s₁ c p hs₁ => ?_
  extract_lets r x
  have hr : r.1.Inv := hs₁.svcPayload
  have hx : x.Inv := hr
  split
  · exact hr.mbReply.next
  · exact .ite hr.mbReply.next (.ite hr.mbReply.next (.ite hr.mbReply.next hx.same.mbReply.next))

theorem State.Inv.execSvcUnmask {s : State} (h : s.Inv) : Res.Inv (execSvcUnmask s) := by
  unfold Machine.execSvcUnmask
  refine h.onMailbox fun s₁ c p hs₁ => ?_
  extract_lets r
  have hr : r.1.Inv := hs₁.svcPayload
  split
  · exact hr.mbReply.next
  · exact hr.mbReply.next
  · exact .ite hr.mbReply.next (.ite hr.mbReply.next (.ite hr.mbReply.next (.ite hr.mbReply.next hr.setEscrow.mbReply.next)))

theorem State.Inv.showCox {s : State} (h : s.Inv) : (showCox s).Inv := ((((h.setF _ _).setF _ _).setF _ _).setF _ _).setF _ _

theorem State.Inv.execAttest {s : State} (h : s.Inv) : Res.Inv (execAttest s) :=
  h.onMailbox fun _ _ _ hs₁ => State.Inv.next (.ite hs₁.mbReply hs₁.mbReply)

theorem State.Inv.execDebugChallenge {s : State} (h : s.Inv) : Res.Inv (execDebugChallenge s) :=
  h.onMailbox fun _ _ _ hs₁ => (hs₁.freshBytes _).same.mbReply.next

theorem State.Inv.execDebugUnlock {s : State} (h : s.Inv) : Res.Inv (execDebugUnlock s) := by
  unfold Machine.execDebugUnlock
  refine h.onMailbox fun s₁ c p hs₁ => ?_
  extract_lets _ _ s₂ _ s₃ _ _ s₄
  have hs₂ : s₂.Inv := hs₁.foldl _ _ fun s₅ _ hs₅ => hs₅.clearSlot
  have hs₃ : s₃.Inv := (hs₂.same.setF _ _).setF _ _
  have hs₄ : s₄.Inv := hs₃.same
  exact .ite .fault (.ite hs₁.mbReply.next (.ite (hs₁.logCox _ _ _ _).mbReply.next (hs₄.showCox.logCox _ _ _ _).mbReply.next))

theorem State.Inv.drawNonce {s : State} (h : s.Inv) : (drawNonce s).Inv := (h.freshBytes _).same.setWords

theorem State.Inv.trialSettings {s : State} (h : s.Inv) : (trialSettings s).Inv := by
  unfold Machine.trialSettings
  split
  · exact .ite h.putCopy.same h
  · exact h

theorem State.Inv.bootDone {s : State} (h : s.Inv) : (bootDone s).Inv := (State.Inv.same (.ite h.trialSettings h)).showCox

theorem State.Inv.execBootVerify {s : State} (h : s.Inv) : Res.Inv (execBootVerify s) := by
  unfold Machine.execBootVerify
  refine .ite h.next ?_
  extract_lets s₁ _ _ _ s₂ _ s₃
  have hs₁ : s₁.Inv := h.drawNonce
  have hs₂ : s₂.Inv := .ite hs₁.same hs₁
  have hs₃ : s₃.Inv := hs₂.logCox _ _ _ _
  refine .ite (State.Inv.showCox (.ite hs₁.same hs₁.bootHalted)).next ?_
  exact .ite hs₂.bootDone.next (State.Inv.showCox (.ite hs₃.same hs₃.bootHalted)).next

theorem State.Inv.execImageExport {s : State} (h : s.Inv) : Res.Inv (execImageExport s) :=
  h.onMailbox fun _ _ _ hs₁ => State.Inv.next (.ite hs₁.fabWrite.mbReply hs₁.fabWrite.mbReply)

theorem State.Inv.execFallbackSet {s : State} (h : s.Inv) : Res.Inv (execFallbackSet s) :=
  h.onMailbox fun _ _ _ hs₁ => .ite .fault (.ite hs₁.mbReply.next (.ite .fault hs₁.same.mbReply.next))

theorem State.Inv.installImage {s : State} {b : Bytes} (h : s.Inv) : (installImage s b).Inv := h.same

theorem State.Inv.execImageInstall {cut : Nat} {s : State} (h : s.Inv) : Res.Inv (execImageInstall cut s) := by
  unfold Machine.execImageInstall
  refine h.onMailbox fun s₁ c p hs₁ => ?_
  exact .ite hs₁.coxRead.mbReply.next (.ite hs₁.coxRead.same.showCox.next hs₁.coxRead.installImage.showCox.mbReply.next)

theorem State.Inv.execImageConfirm {s : State} (h : s.Inv) : Res.Inv (execImageConfirm s) :=
  h.onMailbox fun _ _ _ hs₁ => .ite hs₁.mbReply.next (hs₁.same.logCox _ _ _ _).showCox.mbReply.next

theorem State.Inv.execFallbackRestore {cut : Nat} {s : State} (h : s.Inv) : Res.Inv (execFallbackRestore cut s) := by
  unfold Machine.execFallbackRestore
  split
  · exact h.next
  · refine .ite h.next ?_
    refine .ite h.same.next ?_
    split
    · exact h.bootHalted.next
    · exact (h.same.logCox _ _ _ _).showCox.next

theorem State.Inv.execTrialTimeout {s : State} (h : s.Inv) : Res.Inv (execTrialTimeout s) := by
  unfold Machine.execTrialTimeout
  split
  · exact .ite (h.reach _).deviceReset.next h.next
  · exact h.next

theorem State.Inv.execLogClear {s : State} (h : s.Inv) : Res.Inv (execLogClear s) := by
  unfold Machine.execLogClear
  refine h.onMailbox fun s₁ c p hs₁ => ?_
  split
  · exact hs₁.mbReply.next
  · exact .ite hs₁.mbReply.next (.ite hs₁.same.mbReply.next hs₁.mbReply.next)

theorem State.Inv.execReset {s : State} (h : s.Inv) : Res.Inv (execReset s) :=
  h.onMailbox fun _ _ _ hs₁ => .ite hs₁.mbReply.next (.ite hs₁.mbReply.next hs₁.deviceReset.next)

theorem State.Inv.execFatal {s : State} (h : s.Inv) : Res.Inv (execFatal s) := h.onMailbox fun _ _ _ hs₁ => hs₁.mbReply.enterHalted.next

theorem State.Inv.loadCrew {s : State} (h : s.Inv) : (loadCrew s).Inv := by
  unfold Machine.loadCrew
  split
  · exact h.fabWrite
  · exact h

theorem State.Inv.loadKeys {s : State} (h : s.Inv) : (loadKeys s).Inv := (h.setSlot.same.setF _ _).setF _ _

theorem State.Inv.loadService {s : State} (h : s.Inv) : (loadService s).Inv := (h.setF _ _).setWords

theorem State.Inv.takeBoard {s : State} (h : s.Inv) : (takeBoard s).Inv := by
  unfold Machine.takeBoard
  refine h.foldl _ _ fun s₁ i hs₁ => ?_
  split
  · exact .ite hs₁ hs₁.same
  · exact hs₁

theorem State.Inv.loadBoard {s : State} (h : s.Inv) : (loadBoard s).Inv := by
  unfold Machine.loadBoard
  extract_lets put s₁ s₂
  have hput : ∀ t i f, t.Inv → (put t i f).Inv := by
    intro t i f ht
    unfold put
    split
    · exact ht.setF _ _
    · exact ht
  have hs₁ : s₁.Inv := hput _ _ _ (hput _ _ _ (hput _ _ _ h))
  have hs₂ : s₂.Inv := hput _ _ _ (hput _ _ _ (hput _ _ _ hs₁))
  exact hs₂.same

theorem State.Inv.coxRelease {s : State} (h : s.Inv) : Res.Inv (coxRelease s) :=
  .ite h.next (.ite .fault h.loadCrew.loadKeys.loadService.takeBoard.loadBoard.same.showCox.next)

/-! ### The form is kept: `Machine/Dma.lean` -/

theorem State.Inv.dmaSync {s : State} (h : s.Inv) : (dmaSync s).Inv := (h.setF _ _).setF _ _

theorem State.Inv.putChan {s : State} {c : DmaCh} (h : s.Inv) : (putChan s c).Inv := (h.same.setF _ _).dmaSync

theorem State.Inv.setChanState {s : State} {n st : Nat} (h : s.Inv) : (setChanState s n st).Inv := (h.setF _ _).dmaSync

theorem State.Inv.dmaRunEnd {s : State} {n dstatus : Nat} (h : s.Inv) : (dmaRunEnd s n dstatus).Inv := by
  unfold Machine.dmaRunEnd
  extract_lets _ s₁
  have hs₁ : s₁.Inv := h.putChan
  split
  · exact h
  · split
    · exact hs₁.entryEnd
    · exact hs₁

theorem State.Inv.dmaRecord {s : State} {n cookie bytes cstat : Nat} (h : s.Inv) : (dmaRecord s n cookie bytes cstat).1.Inv :=
  .fst_ite (h.fabWrite.bumpF _ _) h.fabWrite

theorem State.Inv.dmaCookie {s : State} {n : Nat} (h : s.Inv) : (dmaCookie s n).2.Inv := by
  unfold Machine.dmaCookie
  split
  · exact h
  · exact h.fresh

theorem State.Inv.dmaAppend {n : Nat} {s : State} {n1 : Nat} (h : s.Inv) : (dmaAppend n s n1).1.Inv := by
  induction n generalizing s n1 with
  | zero => exact h
  | succ n ih =>
    unfold Machine.dmaAppend
    extract_lets _ ck
    have hck : ck.2.Inv := h.dmaCookie
    split
    · exact h.setF _ _
    · exact .fst_ite (h.setF _ _) (.fst_ite (ih hck.putChan.dmaRecord) hck.putChan.dmaRecord)

theorem State.Inv.dmaHalt {s : State} {n cause dir a : Nat} (h : s.Inv) : (dmaHalt s n cause dir a).Inv :=
  ((State.Inv.putChan (.ite h ((((h.setF _ _).setF _ _).setF _ _).setF _ _))).setChanState.logEv _ _ _ _).dmaAppend.dmaRunEnd

theorem State.Inv.dmaStart {s : State} {n a : Nat} (h : s.Inv) : Res.Inv (dmaStart s n a) := by
  unfold Machine.dmaStart
  extract_lets _ s₁ s₂
  have hs₁ : s₁.Inv := h.setF _ _
  have hs₂ : s₂.Inv := hs₁.setChanState
  split
  next s₃ e =>
    have hs₃ : s₃.Inv := .of_fst hs₂.putChan.fabRead e
    exact hs₃.dmaHalt.next
  next s₃ _ e =>
    have hs₃ : s₃.Inv := .of_fst hs₂.putChan.fabRead e
    exact .ite .fault (.ite hs₃.putChan.dmaHalt.next (.ite .fault hs₃.putChan.next))

theorem State.Inv.dmaEnded {s : State} {n : Nat} (h : s.Inv) : (dmaEnded s n).Inv := (h.setF _ _).setChanState.dmaRunEnd

theorem State.Inv.dmaRelink {s : State} {n a : Nat} (h : s.Inv) : Res.Inv (dmaRelink s n a) := by
  unfold Machine.dmaRelink
  split
  next s₁ e =>
    have hs₁ : s₁.Inv := .of_fst h.fabRead e
    exact hs₁.dmaHalt.next
  next s₁ _ e =>
    have hs₁ : s₁.Inv := .of_fst h.fabRead e
    exact .ite hs₁.dmaStart (State.Inv.next (.ite hs₁ hs₁.dmaEnded))

theorem State.Inv.dmaFollow {s : State} {n : Nat} (h : s.Inv) : Res.Inv (dmaFollow s n) := by
  unfold Machine.dmaFollow
  split
  · exact h.next
  · exact .ite (h.countF _ _).dmaStart (.ite ((h.countF _ _).setF _ _).dmaRelink (h.countF _ _).dmaEnded.next)

theorem State.Inv.dmaIdle {s : State} {n : Nat} (h : s.Inv) : (dmaIdle s n).Inv := h.putChan.setChanState.dmaRunEnd

theorem State.Inv.dmaStopped {s : State} {n : Nat} (h : s.Inv) : (dmaStopped s n).Inv := h.putChan

theorem State.Inv.dmaSettle {s : State} {n : Nat} (h : s.Inv) : Res.Inv (dmaSettle s n) := by
  unfold Machine.dmaSettle
  extract_lets
  split
  next s₁ e =>
    have hs₁ : s₁.Inv := .of_fst h.dmaAppend e
    exact hs₁.dmaHalt.next
  next s₁ e =>
    have hs₁ : s₁.Inv := .of_fst h.dmaAppend e
    extract_lets _ s₂ s₃ s₄ p
    have hs₂ : s₂.Inv := .ite (hs₁.setF _ _) hs₁
    have hs₃ : s₃.Inv := hs₂.putChan
    have hs₄ : s₄.Inv := hs₃.dmaStopped
    have hp : p.1.Inv := hs₄.dmaAppend
    exact .ite hs₁.next (.ite hs₃.next (.ite hs₃.dmaIdle.next (.ite (.ite hp.dmaHalt.next (.ite hp.next hp.dmaIdle.next)) hs₃.dmaFollow)))

theorem State.Inv.execDmaGo {core channel : Nat} {s : State} (h : s.Inv) : Res.Inv (execDmaGo core channel s) :=
  h.coreStore fun _ hs₁ => .ite (.whenFenced hs₁.dmaStart) hs₁.next

theorem State.Inv.execDmaRun {queue : Nat} {s : State} (h : s.Inv) : Res.Inv (execDmaRun queue s) := by
  unfold Machine.execDmaRun
  refine h.whileCore fun s₁ hs₁ => ?_
  split
  · exact hs₁.next
  · exact .ite .fault (.ite hs₁.putChan.dmaStart hs₁.entryEnd.next)

theorem State.Inv.execDmaKick {core channel : Nat} {s : State} (h : s.Inv) : Res.Inv (execDmaKick core channel s) :=
  h.coreStore fun _ hs₁ => .ite (hs₁.setF _ _).next (.ite (.whenFenced hs₁.dmaRelink) hs₁.next)

theorem State.Inv.execDmaStop {core channel : Nat} {s : State} (h : s.Inv) : Res.Inv (execDmaStop core channel s) :=
  h.coreStore fun _ hs₁ => .ite hs₁.next (.ite hs₁.putChan.dmaStopped.dmaSettle hs₁.putChan.next)

theorem State.Inv.execDmaResume {core channel : Nat} {s : State} (h : s.Inv) : Res.Inv (execDmaResume core channel s) := by
  unfold Machine.execDmaResume
  refine h.coreStore fun s₁ hs₁ => ?_
  extract_lets
  refine .ite hs₁.next ?_
  split
  · exact hs₁.dmaStart
  · exact .ite hs₁.dmaStart hs₁.putChan.setChanState.next

theorem State.Inv.execDmaAbort {core channel : Nat} {s : State} (h : s.Inv) : Res.Inv (execDmaAbort core channel s) :=
  h.coreStore fun _ hs₁ => State.Inv.next (.ite hs₁.setChanState hs₁)

theorem State.Inv.execDmaBurstGrant {channel : Nat} {s : State} (h : s.Inv) : Res.Inv (execDmaBurstGrant channel s) := by
  unfold Machine.execDmaBurstGrant
  refine h.whileCore fun s₁ hs₁ => ?_
  refine .ite hs₁.next ?_
  extract_lets _ _ s₂
  have hs₂ : s₂.Inv := .ite hs₁.same hs₁.same
  split
  · exact hs₁.next
  · extract_lets
    split
    next s₃ e =>
      have hs₃ : s₃.Inv := .of_fst hs₂.fabRead e
      exact hs₃.dmaHalt.next
    next s₃ _ e =>
      have hs₃ : s₃.Inv := .of_fst hs₂.fabRead e
      exact hs₃.putChan.next

theorem State.Inv.execDmaBurstWritten {channel : Nat} {s : State} (h : s.Inv) : Res.Inv (execDmaBurstWritten channel s) := by
  unfold Machine.execDmaBurstWritten
  refine h.whileCore fun s₁ hs₁ => ?_
  extract_lets
  split
  · extract_lets
    split
    next s₂ e =>
      have hs₂ : s₂.Inv := .of_fst hs₁.fabWrite e
      exact hs₂.dmaHalt.next
    next s₂ e =>
      have hs₂ : s₂.Inv := .of_fst hs₁.fabWrite e
      exact .ite (hs₂.putChan.countF _ _).dmaStopped.dmaSettle (hs₂.putChan.countF _ _).dmaSettle
  · exact hs₁.next

theorem State.Inv.execDmaPeripheralLast {channel bytes : Nat} {s : State} (h : s.Inv) : Res.Inv (execDmaPeripheralLast channel bytes s) := by
  unfold Machine.execDmaPeripheralLast
  refine h.whileCore fun s₁ hs₁ => ?_
  extract_lets
  split
  · exact .ite hs₁.putChan.next hs₁.next
  · exact hs₁.next

theorem State.Inv.execDmaPeripheralAbort {channel : Nat} {s : State} (h : s.Inv) : Res.Inv (execDmaPeripheralAbort channel s) := by
  unfold Machine.execDmaPeripheralAbort
  refine h.whileCore fun s₁ hs₁ => ?_
  extract_lets
  split
  · exact .ite hs₁.dmaHalt.next hs₁.next
  · exact hs₁.next

theorem State.Inv.execDmaDescriptorEnd {channel : Nat} {s : State} (h : s.Inv) : Res.Inv (execDmaDescriptorEnd channel s) := by
  unfold Machine.execDmaDescriptorEnd
  refine h.whileCore fun s₁ hs₁ => ?_
  extract_lets
  split
  · exact hs₁.next
  · exact .ite hs₁.next hs₁.putChan.dmaSettle

theorem State.Inv.setLines {s : State} {v : Nat} (h : s.Inv) : (setLines s v).Inv := (h.setF _ _).setF _ _

theorem State.Inv.execDmaReqSet {core lines : Nat} {s : State} (h : s.Inv) : Res.Inv (execDmaReqSet core lines s) :=
  h.coreStore fun _ hs₁ => .ite .fault hs₁.setLines.next

theorem State.Inv.execDmaReqClr {core lines : Nat} {s : State} (h : s.Inv) : Res.Inv (execDmaReqClr core lines s) :=
  h.coreStore fun _ hs₁ => .ite .fault (hs₁.countF _ _).setLines.next

theorem State.Inv.dmaRelease {l : List Nat} {s : State} (h : s.Inv) : Res.Inv (dmaRelease l s) := by
  induction l generalizing s with
  | nil => exact h.next
  | cons x xs ih =>
    unfold Machine.dmaRelease
    exact Res.Inv.andThen (.ite h.dmaSettle h.next) fun a ha => ih ha

theorem State.Inv.execDmaCqCiWrite {core index : Nat} {s : State} (h : s.Inv) : Res.Inv (execDmaCqCiWrite core index s) :=
  h.coreStore fun _ hs₁ => .ite .fault (hs₁.setF _ _).dmaRelease

/-! ### The form is kept: `Machine/Erasure.lean` -/

theorem State.Inv.ecLatch {s : State} {pos : Nat} {wr : Bool} {a : Nat} (h : s.Inv) : (ecLatch s pos wr a).Inv :=
  .ite h ((((h.setF _ _).setF _ _).setF _ _).setF _ _)

theorem State.Inv.ecReadLines {l : List (Nat × Nat)} {s : State} {n : Nat} (h : s.Inv) : (ecReadLines l s n).1.Inv := by
  induction l generalizing s n with
  | nil => exact h
  | cons x xs ih =>
    unfold Machine.ecReadLines
    split
    next s₁ e =>
      have hs₁ : s₁.Inv := .of_fst h.fabRead e
      exact hs₁.ecLatch
    next s₁ _ e =>
      have hs₁ : s₁.Inv := .of_fst h.fabRead e
      split
      next e₁ =>
        exact .of_fst (ih hs₁) e₁
      next e₁ =>
        exact .of_fst (ih hs₁) e₁

theorem State.Inv.ecUnit {s : State} {addrs : List Nat} {pos : Nat} (h : s.Inv) : (ecUnit s addrs pos).1.Inv := by
  unfold Machine.ecUnit
  generalize 65536 = n -- a variable in place of the size: no tactic lists 65,536 bytes
  extract_lets a r
  have hr : r.1.Inv := .fst_ite h h.ecReadLines
  clear_value r
  split
  · exact State.Inv.countF hr _ _
  · exact hr

theorem State.Inv.ecUnits {addrs l : List Nat} {s : State} (h : s.Inv) : (ecUnits addrs l s).1.Inv := by
  induction l generalizing addrs s with
  | nil => exact h
  | cons x xs ih =>
    unfold Machine.ecUnits
    split
    next e =>
      exact .of_fst h.ecUnit e
    next s₁ _ e =>
      have hs₁ : s₁.Inv := .of_fst h.ecUnit e
      split
      next e₁ =>
        exact .of_fst (ih hs₁) e₁
      next e₁ =>
        exact .of_fst (ih hs₁) e₁

theorem State.Inv.ecWrites {addrs : List Nat} {l : List (Nat × Bytes)} {s : State} (h : s.Inv) : (ecWrites addrs l s).1.Inv := by
  induction l generalizing addrs s with
  | nil => exact h
  | cons x xs ih =>
    unfold Machine.ecWrites
    extract_lets
    split
    next s₁ e =>
      have hs₁ : s₁.Inv := .of_fst h.fabWrite e
      exact hs₁.ecLatch
    next s₁ e =>
      have hs₁ : s₁.Inv := .of_fst h.fabWrite e
      exact ih hs₁

theorem State.Inv.ecSpoil {addrs l : List Nat} {s : State} (h : s.Inv) : (ecSpoil addrs l s).Inv := by
  induction l generalizing addrs s with
  | nil => exact h
  | cons x xs ih =>
    unfold Machine.ecSpoil
    exact ih (h.freshBytes _).fabWrite

theorem State.Inv.ecDone {s : State} {t : Taken} {status mismatch : Nat} (h : s.Inv) : Res.Inv (ecDone s t status mismatch) :=
  (h.entryResult.setF _ _).next

theorem State.Inv.ecRun
    {s : State} {t : Taken} {addrs ins outs : List Nat} {make : (Nat → Bytes) → State → List (Nat × Bytes) × Nat × State} (h : s.Inv)
    (hmake : ∀ x t, t.Inv → (make x t).2.2.Inv) : Res.Inv (ecRun s t addrs ins outs make) := by
  unfold Machine.ecRun
  refine .ite .fault ?_
  refine .ite .fault ?_
  split
  next s₁ e =>
    have hs₁ : s₁.Inv := .of_fst h.ecUnits e
    exact hs₁.ecSpoil.ecDone
  next s₁ _ e =>
    have hs₁ : s₁.Inv := .of_fst h.ecUnits e
    extract_lets r
    have hr : r.2.2.Inv := hmake _ _ hs₁
    split
    next s₂ e₁ =>
      have hs₂ : s₂.Inv := .of_fst hr.ecWrites e₁
      exact hs₂.ecSpoil.ecDone
    next s₂ e₁ =>
      have hs₂ : s₂.Inv := .of_fst hr.ecWrites e₁
      exact hs₂.ecDone

theorem State.Inv.ecStart {s : State} {queue op : Nat} {check : GenSet → Bytes → Nat} {work : State → Taken → GenSet → List Nat → Res}
    (h : s.Inv) (hwork : ∀ t x y z, t.Inv → Res.Inv (work t x y z)) : Res.Inv (ecStart s queue op check work) := by
  unfold Machine.ecStart
  split
  · exact h.next
  · extract_lets
    refine .ite (h.setF _ _).next ?_
    refine .ite .fault ?_
    refine .ite h.ecDone ?_
    refine .ite .fault ?_
    refine .ite h.ecDone ?_
    split
    next s₁ e =>
      have hs₁ : s₁.Inv := .of_fst h.fabRead e
      exact hs₁.fresh.ecLatch.ecDone
    next s₁ _ e =>
      have hs₁ : s₁.Inv := .of_fst h.fabRead e
      exact hwork _ _ _ _ hs₁

theorem State.Inv.execEcEncode {queue : Nat} {s : State} (h : s.Inv) : Res.Inv (execEcEncode queue s) :=
  h.whileCore fun _ hs₁ => hs₁.ecStart fun _ _ _ _ hs₂ => hs₂.ecRun fun _ _ hs₃ => hs₃

theorem State.Inv.execEcDecode {queue : Nat} {s : State} (h : s.Inv) : Res.Inv (execEcDecode queue s) :=
  h.whileCore fun _ hs₁ => hs₁.ecStart fun _ _ _ _ hs₂ => .ite .fault (hs₂.ecRun fun _ _ hs₃ => hs₃)

theorem State.Inv.execEcCheck {queue : Nat} {s : State} (h : s.Inv) : Res.Inv (execEcCheck queue s) :=
  h.whileCore fun _ hs₁ => hs₁.ecStart fun _ _ _ _ hs₂ => hs₂.ecRun fun _ _ hs₃ => hs₃

theorem State.Inv.execEcEntryEnd {queue : Nat} {s : State} (h : s.Inv) : Res.Inv (execEcEntryEnd queue s) := by
  unfold Machine.execEcEntryEnd
  refine h.whileCore fun s₁ hs₁ => ?_
  split
  · exact hs₁.next
  · exact (State.Inv.setF (.ite ((hs₁.endDone.countF _ _).countF _ _) (hs₁.endDone.countF _ _)) _ _).next

/-! ### The form is kept: `Machine/Network.lean` -/

theorem State.Inv.putMac {s : State} {m : MacPort} (h : s.Inv) : (putMac s m).Inv := h.same

theorem State.Inv.ptpSet {s : State} {ns : Nat} (h : s.Inv) : (ptpSet s ns).Inv := h.same

theorem State.Inv.execPtpLoad {core run : Nat} {s : State} (h : s.Inv) : Res.Inv (execPtpLoad core run s) :=
  h.coreStore fun _ hs₁ => (hs₁.ptpSet.setF _ _).next

theorem State.Inv.execPtpStep {core run : Nat} {s : State} (h : s.Inv) : Res.Inv (execPtpStep core run s) :=
  h.coreStore fun _ hs₁ => (hs₁.ptpSet.setF _ _).next

theorem State.Inv.ptpSecRead {s : State} {width : Nat} (h : s.Inv) : (ptpSecRead s width).1.Inv := h.setF _ _

theorem State.Inv.execPtpSecRead {core width : Nat} {s : State} (h : s.Inv) : Res.Inv (execPtpSecRead core width s) :=
  h.coreRuns fun _ hs₁ => .ite (((hs₁.fabLatch _ _ _ _).emit _).emit _).next (hs₁.ptpSecRead.emit _).next

theorem State.Inv.linkChange {s : State} {p up : Nat} (h : s.Inv) : (linkChange s p up).Inv :=
  State.Inv.logEv (.ite ((h.setF _ _).setF _ _) ((h.setF _ _).setF _ _)) _ _ _ _

theorem State.Inv.setVerify {s : State} {p v : Nat} (h : s.Inv) : (setVerify s p v).Inv := .ite h ((h.setF _ _).setF _ _)

theorem State.Inv.sendVerify {s : State} {p n : Nat} (h : s.Inv) : (sendVerify s p n).Inv := h.putMac.emit _

theorem State.Inv.showRate {s : State} {p : Nat} (h : s.Inv) : (showRate s p).Inv := h.setF _ _

theorem State.Inv.execPortLinkUp {port : Nat} {s : State} (h : s.Inv) : Res.Inv (execPortLinkUp port s) :=
  .ite (.ite h.next (.ite h.linkChange.showRate.setVerify.sendVerify.next h.linkChange.showRate.next)) (.ite h.next h.linkChange.next)

theorem State.Inv.portDown {s : State} {p : Nat} (h : s.Inv) : (portDown s p).Inv :=
  .ite (.ite h ((h.linkChange.countF _ _).setVerify.setF _ _).putMac) (.ite (h.linkChange.countF _ _) h)

theorem State.Inv.execPortLinkDown {port : Nat} {s : State} (h : s.Inv) : Res.Inv (execPortLinkDown port s) := h.portDown.next

theorem State.Inv.execVerifyTimer {port : Nat} {s : State} (h : s.Inv) : Res.Inv (execVerifyTimer port s) :=
  .ite h.next (.ite (h.reach _).sendVerify.next (h.reach _).setVerify.next)

theorem State.Inv.execVerifyFrame {port : Nat} {s : State} (h : s.Inv) : Res.Inv (execVerifyFrame port s) := State.Inv.next (.ite (h.emit _) h)

theorem State.Inv.execRespondFrame {port : Nat} {s : State} (h : s.Inv) : Res.Inv (execRespondFrame port s) :=
  .ite (h.setVerify.setF _ _).next h.next

theorem State.Inv.pauseQueue {s : State} {p q quanta : Nat} (h : s.Inv) : (pauseQueue s p q quanta).Inv := h.putMac

theorem State.Inv.pauseFrame {s : State} {p quanta : Nat} (h : s.Inv) : (pauseFrame s p quanta).Inv :=
  .ite ((h.countF _ _).foldl _ _ fun _ _ hs₁ => hs₁.pauseQueue) (h.countF _ _)

theorem State.Inv.pfcFrame {s : State} {p enables : Nat} {quanta : List Nat} (h : s.Inv) : (pfcFrame s p enables quanta).Inv :=
  (h.countF _ _).foldl _ _ fun _ _ hs₁ => .ite hs₁.pauseQueue hs₁

theorem State.Inv.countRx {s : State} {p len : Nat} (h : s.Inv) : (countRx s p len).Inv := (h.countF _ _).countF _ _

theorem State.Inv.execPauseFrame {port quanta : Nat} {s : State} (h : s.Inv) : Res.Inv (execPauseFrame port quanta s) :=
  State.Inv.next (.ite h.countRx.pauseFrame h)

theorem State.Inv.execPfcFrame {port priority quanta : Nat} {s : State} (h : s.Inv) : Res.Inv (execPfcFrame port priority quanta s) :=
  State.Inv.next (.ite h.countRx.pfcFrame h)

theorem State.Inv.execPauseExpiry {port queue : Nat} {s : State} (h : s.Inv) : Res.Inv (execPauseExpiry port queue s) := by
  unfold Machine.execPauseExpiry
  split
  · exact h.next
  · exact (h.reach _).putMac.next

theorem State.Inv.ringIrq {s : State} {p r : Nat} {tx : Bool} (h : s.Inv) : (ringIrq s p r tx).Inv :=
  .ite (.ite (.ite (h.setF _ _) h) (.ite (h.setF _ _) h)) (.ite (h.setF _ _) h)

theorem State.Inv.ringError {s : State} {p r : Nat} {tx wr : Bool} {a : Nat} (h : s.Inv) : (ringError s p r tx wr a).Inv :=
  State.Inv.logCrew (.ite (h.setF _ _) ((((((h.setF _ _).setF _ _).setF _ _).setF _ _).setF _ _).setF _ _)) _

theorem State.Inv.countNobuf {s : State} {p : Nat} (h : s.Inv) : (countNobuf s p).Inv := h.countF _ _

theorem State.Inv.placeParts {n : Nat} {s : State} {n1 : Nat} {m : MacStored} {b : Bool} {b1 : Bytes} (h : s.Inv) :
    (placeParts n s n1 m b b1).1.Inv := by
  induction n generalizing s n1 m b b1 with
  | zero => exact h
  | succ n ih =>
    unfold Machine.placeParts
    extract_lets
    split
    next s₁ e =>
      have hs₁ : s₁.Inv := .of_fst h.fabRead e
      exact hs₁.ringError
    next s₁ _ e =>
      have hs₁ : s₁.Inv := .of_fst h.fabRead e
      extract_lets
      refine .fst_ite hs₁ ?_
      refine .fst_ite hs₁ ?_
      split
      next s₂ e₁ =>
        have hs₂ : s₂.Inv := .of_fst hs₁.fabWrite e₁
        exact hs₂.ringError
      next s₂ e₁ =>
        have hs₂ : s₂.Inv := .of_fst hs₁.fabWrite e₁
        extract_lets
        split
        next s₃ e₂ =>
          have hs₃ : s₃.Inv := .of_fst hs₂.fabWrite e₂
          exact hs₃.ringError
        next s₃ e₂ =>
          have hs₃ : s₃.Inv := .of_fst hs₂.fabWrite e₂
          exact .fst_ite (hs₃.bumpF _ _).ringIrq (ih (hs₃.bumpF _ _).ringIrq)

theorem State.Inv.placeRing {n : Nat} {s : State} {n1 n2 : Nat} (h : s.Inv) : Res.Inv (placeRing n s n1 n2) := by
  induction n generalizing s n1 n2 with
  | zero => exact h.next
  | succ n ih =>
    unfold Machine.placeRing
    extract_lets
    split
    · exact h.next
    · extract_lets _ s₁
      have hs₁ : s₁.Inv := h.putMac
      refine .ite h.next ?_
      split
      · exact .fault
      next s₂ e =>
        have hs₂ : s₂.Inv := .of_fst hs₁.placeParts e
        exact ih hs₂.countNobuf
      next s₂ e =>
        have hs₂ : s₂.Inv := .of_fst hs₁.placeParts e
        exact ih (.ite hs₂.same hs₂)

theorem State.Inv.placeAll {s : State} {p r : Nat} (h : s.Inv) : Res.Inv (placeAll s p r) := h.placeRing

theorem State.Inv.storeAdmit {s : State} {p r : Nat} {frame : Bytes} {cls : Nat} {hit : Bool} (h : s.Inv) :
    Res.Inv (storeAdmit s p r frame cls hit) :=
  .ite (State.Inv.next (.ite h.countNobuf (h.countF _ _))) h.putMac.placeAll

theorem State.Inv.execRxWaitTimeout {port ring : Nat} {s : State} (h : s.Inv) : Res.Inv (execRxWaitTimeout port ring s) := by
  unfold Machine.execRxWaitTimeout
  extract_lets
  split
  · exact h.next
  · exact (h.reach _).putMac.countNobuf.placeAll

theorem State.Inv.macFiltered {s : State} {p : Nat} (h : s.Inv) : Res.Inv (macFiltered s p) := (h.countF _ _).next

theorem State.Inv.classify {s : State} {p : Nat} {frame : Bytes} (h : s.Inv) : Res.Inv (classify s p frame) :=
  .ite (.ite .fault (.ite h.asuUse.macFiltered h.asuUse.storeAdmit)) (.ite h.asuUse.macFiltered h.asuUse.storeAdmit)

theorem State.Inv.execFrameReceived {port fcs : Nat} {frame : Bytes} {s : State} (h : s.Inv) : Res.Inv (execFrameReceived port fcs frame s) := by
  unfold Machine.execFrameReceived
  extract_lets _ _ s₁ s₂
  have hs₁ : s₁.Inv := .ite (h.countF _ _) (.ite (h.countF _ _) h)
  have hs₂ : s₂.Inv := hs₁.countRx
  refine .ite h.next ?_
  refine .ite (hs₁.countF _ _).next ?_
  refine .ite (hs₂.countF _ _).next ?_
  refine .ite hs₂.macFiltered ?_
  exact .ite hs₂.pauseFrame.next (.ite hs₂.pfcFrame.next (.ite hs₂.macFiltered (.ite hs₂.next (.ite hs₂.macFiltered hs₂.classify))))

theorem State.Inv.readTx {s : State} {p t : Nat} {base log2s ci : Fld} {maxLen : Nat} (h : s.Inv) : (readTx s p t base log2s ci maxLen).1.Inv := by
  unfold Machine.readTx
  extract_lets
  split
  next s₁ e =>
    have hs₁ : s₁.Inv := .of_fst h.fabRead e
    exact hs₁.ringError
  next s₁ _ e =>
    have hs₁ : s₁.Inv := .of_fst h.fabRead e
    extract_lets
    refine .fst_ite hs₁ ?_
    split
    next s₂ e₁ =>
      have hs₂ : s₂.Inv := .of_fst hs₁.fabRead e₁
      exact hs₂.ringError
    next e₁ =>
      exact .of_fst hs₁.fabRead e₁

theorem State.Inv.execTxFrameStart {port engine len : Nat} {s : State} (h : s.Inv) : Res.Inv (execTxFrameStart port engine len s) := by
  unfold Machine.execTxFrameStart
  extract_lets
  refine .ite h.next ?_
  split
  · exact h.putMac.next
  · exact h.next
  · exact .ite h.putMac.next h.readTx.putMac.next

theorem State.Inv.execPreemptionCut {port sent engine : Nat} {s : State} (h : s.Inv) : Res.Inv (execPreemptionCut port sent engine s) := by
  unfold Machine.execPreemptionCut
  extract_lets
  split
  · exact h.next
  · refine .ite h.next ?_
    split
    · exact h.next
    · exact ((h.putMac.countF _ _).emit _).next

theorem State.Inv.tsqShow {s : State} {p : Nat} (h : s.Inv) : (tsqShow s p).Inv := (((h.setF _ _).setF _ _).setF _ _).setF _ _

theorem State.Inv.tsqPush {s : State} {p tsid stamp : Nat} (h : s.Inv) : (tsqPush s p tsid stamp).1.Inv :=
  .fst_ite ((h.setF _ _).countF _ _) h.putMac.tsqShow

theorem State.Inv.txWriteBack {s : State} {p t : Nat} {base log2s ci : Fld} {lost : Bool} {tstat : Nat} (h : s.Inv) :
    (txWriteBack s p t base log2s ci lost tstat).Inv := by
  unfold Machine.txWriteBack
  extract_lets
  split
  next s₁ e =>
    have hs₁ : s₁.Inv := .of_fst h.fabWrite e
    exact hs₁.ringError
  next s₁ e =>
    have hs₁ : s₁.Inv := .of_fst h.fabWrite e
    exact (hs₁.bumpF _ _).ringIrq

theorem State.Inv.macTxEnd {s : State} {p : Nat} (h : s.Inv) : (macTxEnd s p).Inv := by
  unfold Machine.macTxEnd
  extract_lets _ s₁
  have hs₁ : s₁.Inv := h.putMac
  split
  · exact h
  · extract_lets _ s₂ s₃ _ _ _ _ ts
    have hs₂ : s₂.Inv := .ite ((hs₁.countF _ _).countF _ _) hs₁
    have hs₃ : s₃.Inv := .ite (hs₂.emit _) hs₂
    have hts : ts.1.Inv := .fst_ite hs₃.tsqPush hs₃
    exact .ite hs₂ hts.txWriteBack

theorem State.Inv.execTsqPop {core port : Nat} {s : State} (h : s.Inv) : Res.Inv (execTsqPop core port s) :=
  h.coreStore fun _ hs₁ => hs₁.putMac.tsqShow.next

theorem State.Inv.execPairLinkFrame {fcs : Nat} {frame : Bytes} {s : State} (h : s.Inv) : Res.Inv (execPairLinkFrame fcs frame s) := by
  unfold Machine.execPairLinkFrame
  extract_lets _ _ s₁ s₂
  have hs₁ : s₁.Inv := .ite (h.countF _ _) (.ite (h.countF _ _) h)
  have hs₂ : s₂.Inv := (hs₁.countF _ _).countF _ _
  exact .ite h.next (.ite (hs₁.countF _ _).next (.ite (hs₁.countF _ _).next hs₂.same_pj.next))

/-! ### The form is kept: `Machine/ServicePort.lean` -/

theorem State.Inv.svcReply {s : State} {req : Bytes} {responder : Bool} {status arg0 arg1 : Nat} {body : Bytes} (h : s.Inv) :
    (svcReply s req responder status arg0 arg1 body).Inv := by
  unfold Machine.svcReply
  extract_lets _ _ _ free mac p _ x
  have hfree : free.2.Inv := h.freshBytes _
  have hmac : mac.2.Inv := by
    unfold mac
    split
    · exact h
    · exact hfree
  have hp : p.2.Inv := .snd_ite hmac h
  have hx : x.Inv := hp
  exact hx.same

theorem State.Inv.svcJudge {s : State} {f : Bytes} (h : s.Inv) : Res.Inv (svcJudge s f) := by
  unfold Machine.svcJudge
  extract_lets
  refine .ite (h.countF _ _).next ?_
  refine .ite (.ite h.svcReply.next h.next) ?_
  refine .ite (State.Inv.next (.ite h.same h)) ?_
  exact .ite (.ite h.svcReply.next h.next) (.ite (.ite h.svcReply.next h.next) (.ite h.same.next h.storeAdmit))

theorem State.Inv.patternWake {s : State} {frame : Bytes} {hits : List Nat} (h : s.Inv) : (patternWake s frame hits).Inv := by
  unfold Machine.patternWake
  extract_lets s₁
  have hs₁ : s₁.Inv := h.foldl _ _ fun s₂ _ hs₂ => (hs₂.countF _ _).setF _ _
  split
  · exact hs₁
  · exact .ite hs₁ (((hs₁.setF _ _).setF _ _).same.setF _ _).wakeEvent

theorem State.Inv.execSvcFrameReceived {fcs : Nat} {frame : Bytes} {s : State} (h : s.Inv) : Res.Inv (execSvcFrameReceived fcs frame s) := by
  unfold Machine.execSvcFrameReceived
  refine .ite h.next ?_
  refine .ite (h.countF _ _).next ?_
  extract_lets s₁ _ _ s₂
  have hs₁ : s₁.Inv := h.countF _ _
  have hs₂ : s₂.Inv := hs₁.patternWake
  exact .ite (hs₁.countF _ _).next (.ite hs₂.svcJudge (.ite hs₂.storeAdmit (hs₂.countF _ _).next))

theorem State.Inv.svcTxDone {s : State} {t : SvcTx} {tstat : Nat} (h : s.Inv) : (svcTxDone s t tstat).Inv :=
  .ite (h.same.setF _ _).txWriteBack (h.same.setF _ _)

theorem State.Inv.execSvcFrameSend {s : State} (h : s.Inv) : Res.Inv (execSvcFrameSend s) := by
  unfold Machine.execSvcFrameSend
  refine .ite h.next ?_
  split
  · exact (h.same.setF _ _).next
  · exact .ite h.next (h.readTx.same.setF _ _).next

theorem State.Inv.execSvcCollision {late : Nat} {s : State} (h : s.Inv) : Res.Inv (execSvcCollision late s) := by
  unfold Machine.execSvcCollision
  split
  · exact h.next
  · refine .ite h.next ?_
    exact .ite ((h.countF _ _).countF _ _).svcTxDone.next (.ite ((h.countF _ _).countF _ _).svcTxDone.next (h.countF _ _).fresh.same.next)

theorem State.Inv.execSvcBackoffExpiry {s : State} (h : s.Inv) : Res.Inv (execSvcBackoffExpiry s) := by
  unfold Machine.execSvcBackoffExpiry
  split
  · exact h.next
  · split
    · exact h.next
    · exact (h.reach _).same.next

theorem State.Inv.svcTxEnd {s : State} (h : s.Inv) : (svcTxEnd s).Inv := by
  unfold Machine.svcTxEnd
  split
  · exact h
  · exact .ite h (.ite h.svcTxDone ((h.countF _ _).svcTxDone.emit _))

theorem State.Inv.execTxFrameEnd {port : Nat} {s : State} (h : s.Inv) : Res.Inv (execTxFrameEnd port s) :=
  .ite h.macTxEnd.next (.ite h.svcTxEnd.next h.next)

theorem State.Inv.svcHeldPlace {s : State} (h : s.Inv) : (svcHeldPlace s).Inv := by
  unfold Machine.svcHeldPlace
  split
  · exact h
  · exact .ite h (h.putMac.same.setF _ _)

theorem State.Inv.ringLook {s : State} {p r : Nat} (h : s.Inv) : Res.Inv (ringLook s p r) := State.Inv.placeAll (.ite h.svcHeldPlace h)

theorem State.Inv.execRxrPiWrite {core port ring index : Nat} {s : State} (h : s.Inv) : Res.Inv (execRxrPiWrite core port ring index s) :=
  h.coreStore fun _ hs₁ => .ite .fault (hs₁.setF _ _).ringLook

theorem State.Inv.execTxrPiWrite {core port ring index : Nat} {s : State} (h : s.Inv) : Res.Inv (execTxrPiWrite core port ring index s) :=
  h.coreStore fun _ hs₁ => .ite .fault (.whenFenced (hs₁.setF _ _).next)

/-! ### The form is kept: `Machine/Start.lean` -/

theorem State.Inv.crewBases {s : State} (h : s.Inv) : (crewBases s).Inv :=
  (((((((h.setF _ _).setF _ _).setF _ _).setF _ _).setF _ _).setF _ _).setF _ _).foldl _ _ fun _ _ hs₁ => hs₁.setF _ _

theorem State.Inv.reloadKeys {s : State} (h : s.Inv) : (reloadKeys s).Inv := by
  unfold Machine.reloadKeys
  refine h.foldl _ _ fun s₁ n hs₁ => ?_
  split
  · exact .ite hs₁.setSlot hs₁
  · exact hs₁

theorem State.Inv.stageKept {s : State} {epoch : Nat} (h : s.Inv) : Res.Inv (stageKept s epoch) := by
  unfold Machine.stageKept
  split
  · exact h.next
  · exact Res.Inv.andThen (h.crewStore.setF _ _).rigStageEnd fun s₁ hs₁ => hs₁.rigChannels.next

theorem State.Inv.copyingAgain {s : State} (h : s.Inv) : (copyingAgain s).Inv := h.foldl _ _ fun _ _ hs₁ => hs₁.startCopyingIn

theorem State.Inv.startSwap {s : State} {old : Option RigView} (h : s.Inv) : (startSwap s old).Inv := by
  unfold Machine.startSwap
  split
  · exact h
  · extract_lets _ s₁ s₂
    have hs₁ : s₁.Inv := h.rigSwapEnd
    have hs₂ : s₂.Inv := by
      unfold s₂
      split
      · exact hs₁.applyRig
      · exact hs₁.applyRig
    exact hs₂.copyingAgain.sendAllStatus

theorem State.Inv.execRigSwapEnd {s : State} (h : s.Inv) : Res.Inv (execRigSwapEnd s) := by
  unfold Machine.execRigSwapEnd
  refine h.whileCore fun s₁ hs₁ => ?_
  split
  · exact hs₁.next
  · refine .ite hs₁.next ?_
    refine .ite .fault ?_
    exact .ite .fault (State.Inv.applyRig (.ite hs₁.rigSwapEnd.same hs₁.rigSwapEnd.same.same)).sendAllStatus.leaderDone.releaseSwapHeld.next

theorem State.Inv.epochResume {s : State} (h : s.Inv) : Res.Inv (epochResume s) := by
  unfold Machine.epochResume
  extract_lets
  refine .ite h.sendChange.epochAbort.next ?_
  refine .ite h.same.sendChange.leaderDone.next ?_
  refine .ite h.same.next ?_
  refine .ite ?_ ?_
  · exact Res.Inv.andThen h.same.stageKept fun s₁ hs₁ => hs₁.enterStaged.next
  · exact .ite (Res.Inv.andThen h.stageKept fun s₁ hs₁ => hs₁.same.next) h.next

theorem State.Inv.rigStart {s : State} (h : s.Inv) : Res.Inv (rigStart s) :=
  .ite h.next (Res.Inv.andThen h.stageKept fun _ hs₁ => hs₁.startSwap.epochResume)

theorem State.Inv.restoreVmap {s : State} (h : s.Inv) : (restoreVmap s).Inv :=
  (h.foldl _ _ fun _ _ hs₁ => .ite (hs₁.setF _ _) hs₁.putVmap).setLimit

theorem State.Inv.bootEnd {s : State} (h : s.Inv) : Res.Inv (bootEnd s) := .ite h.next h.same.reloadKeys.rigStart

theorem State.Inv.execPjRestoreEnd {s : State} (h : s.Inv) : Res.Inv (execPjRestoreEnd s) :=
  h.whileCore fun _ hs₁ => .ite hs₁.restoreEnd.bootEnd hs₁.next

/-! ### The form is kept: `Machine/Power.lean` -/

theorem State.Inv.domainUp {s : State} {d : Domain} (h : s.Inv) : (domainUp s d).Inv := .ite h h.same

theorem State.Inv.execSuppliesValid {s : State} (h : s.Inv) : Res.Inv (execSuppliesValid s) := .ite h.same.next h.same.same.domainUp.next

theorem State.Inv.execPowerOnReset {s : State} (h : s.Inv) : Res.Inv (execPowerOnReset s) := h.powerOnReset.next

theorem State.Inv.execDeviceReset {cause : Nat} {s : State} (h : s.Inv) : Res.Inv (execDeviceReset cause s) := .ite h.next h.deviceReset.next

theorem State.Inv.moved {s : State} {p : PState} (h : s.Inv) : (moved s p).Inv :=
  ((h.setF _ _).logEv _ _ _ _).saveRetention.sweepSave.counterRecord

theorem State.Inv.released {s : State} {v0 : Nat} (h : s.Inv) : (released s v0).Inv := by
  unfold Machine.released
  exact .ite (State.Inv.crewBases (.ite h.same.moved h)).esTestStart (State.Inv.crewBases (.ite h.same.moved h))

theorem State.Inv.releaseCrew {s : State} {v0 : Nat} (h : s.Inv) : Res.Inv (releaseCrew s v0) :=
  Res.Inv.andThen h.coxRelease fun _ ht => State.Inv.next (.ite ht.released ht)

theorem State.Inv.dramTrain {s : State} {fail : Nat} (h : s.Inv) : (dramTrain s fail).Inv := .ite (h.setF _ _) (h.setF _ _).enterHalted

theorem State.Inv.execDomainPowerUp {domain : Domain} {fail v0 : Nat} {s : State} (h : s.Inv) : Res.Inv (execDomainPowerUp domain fail v0 s) := by
  unfold Machine.execDomainPowerUp
  refine .ite h.next ?_
  split
  · exact h.domainUp.same.next
  · exact .ite h.domainUp.same.releaseCrew h.next
  · exact .ite h.domainUp.dramTrain.releaseCrew h.next
  · exact .ite h.domainUp.same.releaseCrew h.next
  · exact .ite h.domainUp.next h.next
  · exact h.next
  · exact h.next
  · exact h.next
  · exact h.next

theorem State.Inv.channelsUp {s : State} {targets : List (List FcTarget)} (h : s.Inv) : (channelsUp s targets).Inv :=
  h.fcLoadAll.foldl _ _ fun _ _ hs₁ => hs₁.channelReady

theorem State.Inv.wakeOn {s : State} {targets : List (List FcTarget)} {v0 v1 fail : Nat} (h : s.Inv) : Res.Inv (wakeOn s targets v0 v1 fail) := by
  unfold Machine.wakeOn
  extract_lets s₁ _ _ s₂ s₃
  have hs₁ : s₁.Inv := h.foldl _ _ fun s₄ _ hs₄ => hs₄.domainUp
  have hs₂ : s₂.Inv := hs₁.same
  have hs₃ : s₃.Inv := hs₂.dramTrain
  refine .ite hs₃.next ?_
  refine Res.Inv.andThen hs₃.releaseCrew fun s₄ hs₄ => ?_
  extract_lets s₅
  have hs₅ : s₅.Inv := hs₄.channelsUp.esTestEnd
  exact Res.Inv.andThen hs₅.restoreEnd.restoreVmap.pjEnable.bootEnd fun s₆ hs₆ => Res.Inv.andThen hs₆.execSummaryScan fun s₇ hs₇ => hs₇.execReplay

theorem State.Inv.execStartFromSleep {targets : List (List FcTarget)} {v0 v1 fail : Nat} {s : State} (h : s.Inv) :
    Res.Inv (execStartFromSleep targets v0 v1 fail s) :=
  .ite h.next (Res.Inv.andThen h.domainUp.domainUp.same.execBootVerify fun _ hs₁ => .ite hs₁.wakeOn hs₁.next)

theorem State.Inv.powerRefuse {s : State} {req : PState} {cause : Nat} (h : s.Inv) : (powerRefuse s req cause).Inv :=
  ((h.setF _ _).setF _ _).logEv _ _ _ _

theorem State.Inv.goRow {core : Nat} {target : PState} {s : State} {run : State → Res} (h : s.Inv) (hrun : ∀ t, t.Inv → Res.Inv (run t)) :
    Res.Inv (goRow core target s run) :=
  h.coreStore fun _ hs₁ => .ite (hs₁.setF _ _).powerRefuse.next (.ite (hs₁.setF _ _).powerRefuse.next (hrun _ (hs₁.setF _ _)))

theorem State.Inv.retrain {s : State} (h : s.Inv) : (retrain s).Inv := .ite h h.portDown

theorem State.Inv.movePaddle {s : State} (h : s.Inv) : (movePaddle s).Inv :=
  h.retrain.portDown.portDown.pathsFall.domainOff.domainOff.showRate.moved

theorem State.Inv.moveRace {s : State} (h : s.Inv) : (moveRace s).Inv := h.retrain.domainUp.domainUp.showRate.moved

theorem State.Inv.execGoRace {core : Nat} {s : State} (h : s.Inv) : Res.Inv (execGoRace core s) :=
  h.goRow fun _ hs₁ => State.Inv.next (.ite hs₁.moveRace hs₁.powerRefuse)

theorem State.Inv.execGoPaddle {core : Nat} {s : State} (h : s.Inv) : Res.Inv (execGoPaddle core s) :=
  h.goRow fun _ hs₁ => State.Inv.next (.ite hs₁.movePaddle hs₁.powerRefuse)

theorem State.Inv.goSleep {core : Nat} {target : PState} {s : State} (h : s.Inv) : Res.Inv (goSleep core target s) :=
  h.goRow fun _ hs₁ => .ite hs₁.powerRefuse.next (.ite hs₁.powerRefuse.next (.ite .fault (hs₁.same_pj.same.setF _ _).next))

theorem State.Inv.execGoDock {core : Nat} {s : State} (h : s.Inv) : Res.Inv (execGoDock core s) := h.goSleep

theorem State.Inv.execGoDeepDock {core : Nat} {s : State} (h : s.Inv) : Res.Inv (execGoDeepDock core s) := h.goSleep

theorem State.Inv.execPowerDownEnd {s : State} (h : s.Inv) : Res.Inv (execPowerDownEnd s) := by
  unfold Machine.execPowerDownEnd
  split
  · exact h.next
  · extract_lets wake s₁ s₂ _ s₃ s₄
    have hs₁ : s₁.Inv := h.saveRetention
    have hs₂ : s₂.Inv := hs₁.foldl _ _ fun s₅ _ hs₅ => hs₅.domainOff
    have hs₃ : s₃.Inv := hs₂.same
    have hs₄ : s₄.Inv := hs₃.moved.setF _ _
    refine State.Inv.next ?_
    clear_value wake
    split
    · exact hs₄.wakeDevice
    · exact hs₄

theorem State.Inv.execWakeNLow {held : Nat} {s : State} (h : s.Inv) : Res.Inv (execWakeNLow held s) := h.same.wakeEvent.next

theorem State.Inv.execAonWakeAtReached {s : State} (h : s.Inv) : Res.Inv (execAonWakeAtReached s) :=
  .ite h.next (State.Inv.next (.ite (h.reach _).wakeEvent ((h.reach _).setF _ _)))

theorem State.Inv.tellDocked {s : State} (h : s.Inv) : (tellDocked s).Inv := h.foldl _ _ fun _ _ hs₁ => hs₁.sendStatusAs

theorem State.Inv.execDockingNotice {s : State} (h : s.Inv) : Res.Inv (execDockingNotice s) :=
  h.whileCore fun _ hs₁ => ((hs₁.tellDocked.reach _).tellDocked.reach _).same.next

theorem State.Inv.execDockedWakeResend {hull : Nat} {s : State} (h : s.Inv) : Res.Inv (execDockedWakeResend hull s) := by
  unfold Machine.execDockedWakeResend
  refine h.whileCore fun s₁ hs₁ => ?_
  split
  · exact hs₁.next
  · exact (hs₁.reach _).same.next

theorem State.Inv.execDockedWakeTimeout {hull : Nat} {s : State} (h : s.Inv) : Res.Inv (execDockedWakeTimeout hull s) := by
  unfold Machine.execDockedWakeTimeout
  refine h.whileCore fun s₁ hs₁ => ?_
  split
  · exact hs₁.next
  · extract_lets s₂ _ s₃ s₄
    have hs₂ : s₂.Inv := hs₁.reach _
    have hs₃ : s₃.Inv := hs₂.same
    have hs₄ : s₄.Inv := by
      unfold s₄
      refine hs₃.foldl _ _ fun s₅ g hs₅ => ?_
      split
      · exact hs₅
      · split
        · exact .ite hs₅.putGroup hs₅
        · exact hs₅
    exact hs₄.same.next

theorem State.Inv.execWatchdogArm {core seconds : Nat} {s : State} (h : s.Inv) : Res.Inv (execWatchdogArm core seconds s) :=
  h.coreStore fun _ hs₁ => .ite hs₁.next (.ite .fault ((hs₁.setF _ _).setF _ _).same.next)

theorem State.Inv.execWatchdogKick {core : Nat} {s : State} (h : s.Inv) : Res.Inv (execWatchdogKick core s) :=
  h.coreStore fun _ hs₁ => State.Inv.next (.ite hs₁.same hs₁)

theorem State.Inv.execWatchdogExpiry {s : State} (h : s.Inv) : Res.Inv (execWatchdogExpiry s) := by
  unfold Machine.execWatchdogExpiry
  split
  · exact h.next
  · exact State.Inv.next (.ite ((h.reach _).pentTrigger.logEv _ _ _ _).same ((h.reach _).pentTrigger.logEv _ _ _ _).deviceReset)

theorem State.Inv.execCounterRecord {s : State} (h : s.Inv) : Res.Inv (execCounterRecord s) := (h.reach _).counterRecord.next

/-- Lines of the cache put over cells in canonical form leave them in it. -/
theorem foldl_memPut_wf {ls : List ScLine} {m : List Host.Cell} (hm : Memory.wf m) :
    Memory.wf (ls.foldl (fun m l => memPut m (l.line * 256) l.data) m) := by
  induction ls generalizing m with
  | nil => exact hm
  | cons l ls ih => exact ih (memPut_wf hm _ _)

/-- What a dump takes of memory and of the dirty lines of the cache is in canonical form. -/
theorem journalCells_wf {s : State} (h : Memory.wf s.mem) : Memory.wf (journalCells s) := by
  unfold journalCells
  extract_lets top dirty m
  have hm : Memory.wf m := foldl_memPut_wf h
  have hsub : ((m.dropWhile fun c => decide (c.1 < dramBase)).takeWhile fun c => decide (c.1 < top)).Sublist m :=
    (List.takeWhile_sublist _).trans (List.dropWhile_sublist _)
  exact ⟨hm.1.sublist (hsub.map _), fun c hc => hm.2 c (hsub.subset hc)⟩

theorem State.Inv.dumpBegin {s : State} (h : s.Inv) : (dumpBegin s).Inv := by
  unfold Machine.dumpBegin
  extract_lets s₁ i _ s₂
  have hs₁ : s₁.Inv := h.foldl _ _ fun t o ht => ht.fcWriteEnd
  have hs₂ : s₂.Inv := hs₁.same
  refine State.Inv.setF (hs₂.vault fun j hj => ?_) _ _
  rcases List.mem_cons.1 hj with rfl | hj
  · exact journalCells_wf hs₁.memWf
  · exact hs₂.vaultWf j (List.mem_filter.1 hj).1

theorem State.Inv.dumpFinish {s : State} (h : s.Inv) : (dumpFinish s).Inv := by
  unfold Machine.dumpFinish
  split
  · exact h
  · refine State.Inv.setF (h.vault fun i hi => ?_) _ _
    obtain ⟨j, hj, rfl⟩ := List.mem_map.1 hi
    split
    · exact h.vaultWf j hj
    · exact h.vaultWf j hj

theorem State.Inv.esAbort {s : State} (h : s.Inv) : (esAbort s).Inv := .ite h (((h.same_pj.setF _ _).setF _ _).setF _ _)

theorem State.Inv.powerFalls {s : State} {cause : Nat} (h : s.Inv) : (powerFalls s cause).Inv :=
  (State.Inv.pentTrigger (.ite h.esAbort.dumpBegin h.esAbort)).counterRecord

theorem State.Inv.execPfailNFall {s : State} (h : s.Inv) : Res.Inv (execPfailNFall s) :=
  .ite h.next (h.same.powerFalls.logEv _ _ _ _).programBuffer.next

theorem State.Inv.execVaultDumpEnd {s : State} (h : s.Inv) : Res.Inv (execVaultDumpEnd s) := .ite h.next h.dumpFinish.deviceReset.same.next

theorem State.Inv.stepChange {s : State} {k tj mask : Nat} (h : s.Inv) : (stepChange s k tj mask).Inv := ((h.setF _ _).setF _ _).logEv _ _ _ _

theorem State.Inv.stepEnter {s : State} {k tj : Nat} (h : s.Inv) : (stepEnter s k tj).Inv :=
  .ite h.same.stepChange.alertLow.movePaddle h.same.stepChange.alertLow

theorem State.Inv.thermalShutdown {s : State} {tj : Nat} (h : s.Inv) : (thermalShutdown s tj).Inv :=
  (h.powerFalls.dumpFinish.logEv _ _ _ _).programBuffer.deviceReset

theorem State.Inv.execThermalSample {tj : Nat} {s : State} (h : s.Inv) : Res.Inv (execThermalSample tj s) := by
  unfold Machine.execThermalSample
  extract_lets _ s₁
  have hs₁ : s₁.Inv := h.setF _ _
  exact .ite (State.Inv.next (.ite hs₁.same hs₁)) (.ite (State.Inv.next (.ite hs₁ hs₁.thermalShutdown)) (.ite hs₁.stepEnter.next hs₁.same.next))

theorem State.Inv.execThermalStepLeave {s : State} (h : s.Inv) : Res.Inv (execThermalStepLeave s) := by
  unfold Machine.execThermalStepLeave
  split
  · exact h.next
  · exact (h.reach _).stepChange.same.same.next

/-! ### The form is kept: `Machine/RegWrite.lean` -/

theorem State.Inv.fieldWrite {s : State} {rid b lo n v : Nat} {d : FDef} (h : s.Inv) : (fieldWrite s rid b lo n v d).Inv := by
  unfold Machine.fieldWrite
  extract_lets
  refine .ite h ?_
  split
  · exact h.setF _ _
  · exact .ite (h.setF _ _) h
  · exact h.setF _ _
  · exact h.setF _ _
  · exact h
  · exact h
  · exact h

theorem State.Inv.fieldsWrite {rid b lo n v : Nat} {l : List FDef} {s : State} (h : s.Inv) : (fieldsWrite rid b lo n v l s).Inv := by
  induction l generalizing rid b lo n v s with
  | nil => exact h
  | cons x xs ih =>
    unfold Machine.fieldsWrite
    exact ih h.fieldWrite

theorem State.Inv.afterWrite {old s : State} {b v : Nat} (hs : s.Inv) : Res.Inv (afterWrite old s b v) := by
  unfold Machine.afterWrite
  extract_lets _ _ _ _ s₁
  have hs₁ : s₁.Inv := .ite hs (hs.setF _ _)
  refine .ite hs.same.next ?_
  refine .ite (State.Inv.next (.ite hs (.ite (hs.setF _ _) hs.same))) ?_
  refine .ite (hs.setF _ _).next ?_
  refine .ite (State.Inv.next (.ite hs₁.same_pj hs₁)) ?_
  exact .ite hs.same.next (.ite (hs.setF _ _).next (.ite hs.ringLook (.ite hs.showRate.next (.ite hs.ringLook hs.next))))

theorem State.Inv.regWrite {s : State} {rid a b width value : Nat} {r : RegFam} (h : s.Inv) : Res.Inv (regWrite s rid a b width value r) := by
  unfold Machine.regWrite
  extract_lets _ _ _ _ t
  have ht : t.Inv := h.fieldsWrite
  refine .ite .fault ?_
  split
  · exact .fault
  · split
    · exact .fault
    · exact ht.afterWrite

theorem State.Inv.ctxWrite {s : State} {rid h o : Nat} {bs : Bytes} (hs : s.Inv) : Res.Inv (ctxWrite s rid h o bs) := by
  unfold Machine.ctxWrite
  extract_lets
  split
  · exact .ite .fault (.ite .fault hs.putChan2.next)
  · exact .ite .fault hs.same_pj.next

theorem State.Inv.busFail {s : State} {rid core kind a : Nat} {wr : Bool} (h : s.Inv) : (busFail s rid core kind a wr).Inv :=
  .ite ((h.fabLatch _ _ _ _).emit _) (h.fabLatch _ _ _ _)

theorem State.Inv.busStore {s : State} {rid core a width value : Nat} (h : s.Inv) : Res.Inv (busStore s rid core a width value) := by
  unfold Machine.busStore
  extract_lets _ w
  have hw : w.1.Inv := State.Inv.fabWrite (.ite h.coreWrote h)
  split
  · exact h.regWrite
  · exact h.ctxWrite
  · exact State.Inv.next (.ite (h.memWrite _ _) h)
  · split
    · exact .fault
    · exact State.Inv.next (.ite (.ite hw.ringWritten hw) (.ite (hw.emit _) hw))
  · exact h.next
  · exact h.next
  · exact h.next

theorem State.Inv.busWrite {s : State} {rid core a width value : Nat} (h : s.Inv) : Res.Inv (busWrite s rid core a width value) := by
  unfold Machine.busWrite
  split
  · exact h.busFail.next
  · exact h.busStore

theorem State.Inv.windowRevive {n o value ready : Nat} {s : State} (h : s.Inv) : (windowRevive n o value ready s).Inv := .ite h.lunRevive h

theorem State.Inv.membersWrite {rid core o width value : Nat} {ready : Option Nat} {l : List Nat} {s : State} (h : s.Inv) :
    Res.Inv (membersWrite rid core o width value ready l s) := by
  induction l generalizing rid core o width value ready s with
  | nil => exact h.next
  | cons x xs ih =>
    unfold Machine.membersWrite
    refine Res.Inv.andThen h.busStore fun s₁ hs₁ => ?_
    refine ih ?_
    split
    · exact hs₁.windowRevive
    · exact hs₁

theorem State.Inv.windowWrite {s : State} {rid core w o width value : Nat} {ready : Option Nat} (h : s.Inv) :
    Res.Inv (windowWrite s rid core w o width value ready) := by
  unfold Machine.windowWrite
  split
  · exact h.busFail.next
  · exact h.membersWrite

theorem State.Inv.onBus {s : State} {rid core : Nat} {k : State → Res} (h : s.Inv) (hk : ∀ t, t.Inv → Res.Inv (k t)) :
    Res.Inv (onBus s rid core k) :=
  .ite (h.coreRuns hk) (.ite h.next (.ite h.next (h.whileCore hk)))

theorem State.Inv.execRegisterWrite {rid core addr width value : Nat} {s : State} (h : s.Inv) :
    Res.Inv (execRegisterWrite rid core addr width value s) := by
  unfold Machine.execRegisterWrite
  refine h.onBus fun s₁ hs₁ => ?_
  split
  · exact hs₁.windowWrite
  · exact hs₁.busWrite

theorem State.Inv.execFcGroupWindowWrite {rid core window offset width value ready : Nat} {s : State} (h : s.Inv) :
    Res.Inv (execFcGroupWindowWrite rid core window offset width value ready s) :=
  h.onBus fun _ hs₁ => hs₁.windowWrite

theorem State.Inv.clearRead {b lo n : Nat} {l : List FDef} {s : State} (h : s.Inv) : (clearRead b lo n l s).Inv := by
  induction l generalizing b lo n s with
  | nil => exact h
  | cons x xs ih =>
    unfold Machine.clearRead
    exact ih (.ite (h.setF _ _) h)

theorem State.Inv.regRead {s : State} {a b width : Nat} {r : RegFam} (h : s.Inv) : (regRead s a b width r).1.Inv :=
  .fst_ite h.claimRead (.fst_ite h.allocRead (.fst_ite h.ptpSecRead (.fst_ite h (.ite h h.clearRead))))

theorem State.Inv.busLoad {s : State} {rid a width : Nat} (h : s.Inv) : (busLoad s rid a width).1.Inv := by
  unfold Machine.busLoad
  split
  · exact h.regRead
  · exact h
  · exact h
  · exact h
  · exact h
  · exact h.fabRead
  · exact h

theorem State.Inv.busRead {s : State} {rid core a width : Nat} (h : s.Inv) : (busRead s rid core a width).1.Inv := by
  unfold Machine.busRead
  split
  · split
    · exact h.busFail
    · exact h
  · split
    · exact h.busFail
    · split
      next e =>
        exact .of_fst h.busLoad e
      next s₁ e =>
        have hs₁ : s₁.Inv := .of_fst h.busLoad e
        exact .ite (hs₁.emit _) hs₁

theorem State.Inv.execRcCounterRead {rid core addr width : Nat} {s : State} (h : s.Inv) : Res.Inv (execRcCounterRead rid core addr width s) :=
  h.onBus fun _ hs₁ => .ite hs₁.next (hs₁.busRead.emit _).next

/-! ### The form is kept: `Machine/Pins.lean` -/

theorem State.Inv.smbRead {s : State} {address command : Nat} {p : SmbProtocol} (h : s.Inv) : Res.Inv (smbRead s address command p) := by
  unfold Machine.smbRead
  refine .ite h.next ?_
  split
  · exact (h.emit _).next
  · exact .ite (h.same.emit _).next ((h.same.freshBytes _).emit _).next

theorem State.Inv.execSmbusReadByte {address command : Nat} {s : State} (h : s.Inv) : Res.Inv (execSmbusReadByte address command s) := h.smbRead

theorem State.Inv.execSmbusReadWord {address command : Nat} {s : State} (h : s.Inv) : Res.Inv (execSmbusReadWord address command s) := h.smbRead

theorem State.Inv.execSmbusBlockRead {address command : Nat} {s : State} (h : s.Inv) : Res.Inv (execSmbusBlockRead address command s) := h.smbRead

theorem State.Inv.execSmbusWriteNack {address command n : Nat} {s : State} (h : s.Inv) : Res.Inv (execSmbusWriteNack address command n s) := by
  unfold Machine.execSmbusWriteNack
  refine .ite h.next ?_
  extract_lets _ s₁
  have hs₁ : s₁.Inv := by
    unfold s₁
    split
    · exact h.same
    · exact h
  exact (hs₁.emit _).next

theorem State.Inv.execSmbusAlertResponse {address : Nat} {s : State} (h : s.Inv) : Res.Inv (execSmbusAlertResponse address s) :=
  .ite h.next (h.fresh.same.emit _).next

theorem State.Inv.execSmbusClockLowTimeout {s : State} (h : s.Inv) : Res.Inv (execSmbusClockLowTimeout s) := h.same.next

theorem State.Inv.jtagOut {s : State} {action : Nat} {b : Bytes} (h : s.Inv) : (jtagOut s action b).Inv := h.same.emit _

theorem State.Inv.execJtagAccess {action addr width value : Nat} {s : State} (h : s.Inv) : Res.Inv (execJtagAccess action addr width value s) := by
  unfold Machine.execJtagAccess
  refine .ite h.next ?_
  refine .ite h.jtagOut.next ?_
  refine .ite h.jtagOut.next ?_
  refine .ite (h.freshBytes _).jtagOut.next ?_
  refine .ite h.next ?_
  refine .ite (h.freshBytes _).jtagOut.next ?_
  refine .ite (h.onBus fun s₁ hs₁ => hs₁.busRead.jtagOut.next) ?_
  exact .ite (Res.Inv.andThen h.execRegisterWrite fun s₁ hs₁ => hs₁.same.next) (.ite h.execDeviceReset h.next)

/-! ### The form is kept: `Machine/ServiceCommands.lean` -/

theorem State.Inv.onResponder {op : Nat} {s : State} {run : State → Bytes → State} (h : s.Inv) (hrun : ∀ t x, t.Inv → (run t x).Inv) :
    Res.Inv (onResponder op s run) := by
  unfold Machine.onResponder
  refine .ite h.next ?_
  split
  · exact h.next
  · exact (hrun _ _ h.same).next

theorem State.Inv.execIdentify {s : State} (h : s.Inv) : Res.Inv (execIdentify s) := h.onResponder fun _ _ hs₁ => hs₁.svcReply

theorem State.Inv.execWake {s : State} (h : s.Inv) : Res.Inv (execWake s) := h.onResponder fun _ _ hs₁ => hs₁.svcReply

theorem State.Inv.execLogRead {s : State} (h : s.Inv) : Res.Inv (execLogRead s) :=
  h.onResponder fun _ _ hs₁ => .ite hs₁.svcReply (.ite hs₁.svcReply hs₁.svcReply)

theorem State.Inv.execPentRead {s : State} (h : s.Inv) : Res.Inv (execPentRead s) :=
  h.onResponder fun _ _ hs₁ => .ite hs₁.svcReply (.ite hs₁.svcReply (.ite hs₁.svcReply hs₁.svcReply))

theorem State.Inv.svcAccept {s : State} {f : Bytes} (h : s.Inv) : OnSome State.Inv (svcAccept s f) := by
  unfold Machine.svcAccept
  split
  · exact .none
  · exact .ite (.some h.same) .none

theorem State.Inv.onService {op : Nat} {s : State} {run : State → Bytes → Res} (h : s.Inv) (hrun : ∀ t x, t.Inv → Res.Inv (run t x)) :
    Res.Inv (onService op s run) := by
  unfold Machine.onService
  refine .ite h.next ?_
  split
  · exact h.next
  · extract_lets _ s'
    have hs' : s'.Inv := h.same
    split
    next s₁ e =>
      have hs₁ : s₁.Inv := by
        refine OnSome.of_eq (P := State.Inv) ?_ e
        exact .ite (.some hs') hs'.svcAccept
      exact hrun _ _ hs₁
    · exact (hs'.logCrew _).svcReply.next

theorem State.Inv.execKeySet {s : State} (h : s.Inv) : Res.Inv (execKeySet s) :=
  h.onService fun _ _ hs₁ => .ite hs₁.svcReply.next (.ite hs₁.svcReply.next (State.Inv.svcReply (.ite hs₁.same (hs₁.same.logCrew _))).next)

theorem State.Inv.initProgress {s : State} {tag : Nat} {f : Bytes} (h : s.Inv) : (initProgress s tag f).Inv := by
  unfold Machine.initProgress
  split
  · exact h.settleAll
  · exact .ite h.same.routeChange.same h.same.same.svcReply

theorem State.Inv.execTenantInit {s : State} (h : s.Inv) : Res.Inv (execTenantInit s) := by
  unfold Machine.execTenantInit
  split
  · exact .ite h.initProgress.next h.next
  · refine h.onService fun s₁ f hs₁ => ?_
    extract_lets
    refine .ite hs₁.svcReply.next ?_
    refine .ite hs₁.svcReply.next ?_
    split
    next s₂ _ _ _ e =>
      have hs₂ : s₂.Inv := .of_fst hs₁.check9 e
      exact hs₂.svcReply.next
    next s₂ e =>
      have hs₂ : s₂.Inv := .of_fst hs₁.check9 e
      exact hs₂.same.routeChange.same.next

theorem State.Inv.execEscrowSet {s : State} (h : s.Inv) : Res.Inv (execEscrowSet s) :=
  h.onService fun _ _ hs₁ => .ite hs₁.svcReply.next hs₁.setEscrow.svcReply.next

theorem State.Inv.execEscrowRead {s : State} (h : s.Inv) : Res.Inv (execEscrowRead s) := by
  unfold Machine.execEscrowRead
  refine h.onService fun s₁ f hs₁ => ?_
  refine .ite hs₁.svcReply.next ?_
  split
  · exact hs₁.svcReply.next
  · exact State.Inv.next (.ite hs₁.svcReply hs₁.svcReply)

theorem State.Inv.takeImage {s : State} {f : Bytes} (h : s.Inv) : (takeImage s f).1.Inv := .fst_ite h h.same

theorem State.Inv.execImageData {s : State} (h : s.Inv) : Res.Inv (execImageData s) := h.onService fun _ _ hs₁ => hs₁.takeImage.svcReply.next

theorem State.Inv.execImageEnd {s : State} (h : s.Inv) : Res.Inv (execImageEnd s) := by
  unfold Machine.execImageEnd
  refine h.onService fun s₁ f hs₁ => ?_
  refine .ite hs₁.svcReply.next ?_
  split
  · exact hs₁.svcReply.next
  · exact .ite hs₁.svcReply.next hs₁.installImage.showCox.svcReply.next

theorem State.Inv.execRigData {s : State} (h : s.Inv) : Res.Inv (execRigData s) :=
  h.onService fun _ _ hs₁ => (State.Inv.svcReply (.ite hs₁.same hs₁)).next

theorem State.Inv.execRigStage {s : State} (h : s.Inv) : Res.Inv (execRigStage s) := by
  unfold Machine.execRigStage
  refine .ite h.next ?_
  refine h.onService fun s₁ f hs₁ => ?_
  split
  · exact hs₁.svcReply.next
  · exact Res.Inv.andThen (hs₁.crewStore.setF _ _).rigStageEnd fun s₂ hs₂ => .ite hs₂.svcReply.next hs₂.svcReply.next

theorem State.Inv.execScanFull {s : State} (h : s.Inv) : Res.Inv (execScanFull s) := h.onService fun _ _ hs₁ => hs₁.same.svcReply.next

theorem State.Inv.execServiceEnter {s : State} (h : s.Inv) : Res.Inv (execServiceEnter s) :=
  h.onService fun _ _ hs₁ => .ite hs₁.svcReply.next (.ite hs₁.svcReply.next hs₁.declareSelf.same.sendAllStatus.svcReply.next)

theorem State.Inv.execServiceLeave {s : State} (h : s.Inv) : Res.Inv (execServiceLeave s) := by
  unfold Machine.execServiceLeave
  refine h.onService fun s₁ f hs₁ => ?_
  refine .ite hs₁.svcReply.next ?_
  exact .ite (hs₁.same.logCrew _).sendAllStatus.svcReply.next (hs₁.same.foldl _ _ fun s₂ _ hs₂ => hs₂.ownSeatLost).sendAllStatus.svcReply.next

theorem State.Inv.execLoaderService {s : State} (h : s.Inv) : Res.Inv (execLoaderService s) := by
  unfold Machine.execLoaderService
  refine .ite h.next ?_
  split
  · exact h.next
  · extract_lets _ s₁
    have hs₁ : s₁.Inv := h.same
    refine .ite hs₁.svcReply.next ?_
    split
    · exact (hs₁.logSubmit _ _ _ _ _ _).svcReply.next
    next s₂ e =>
      have hs₂ : s₂.Inv := hs₁.svcAccept _ e
      refine .ite hs₂.takeImage.svcReply.next ?_
      split
      · exact hs₂.svcReply.next
      · exact (hs₂.installImage.svcReply.emitAll _).deviceReset.next

/-! ### The form is kept: `Machine/WorkQueue.lean` -/

theorem State.Inv.readSq {s : State} {q : Queue} (h : s.Inv) : (readSq s q).Inv := by
  unfold Machine.readSq
  split
  next s₁ e =>
    have hs₁ : s₁.Inv := .of_fst h.fabRead e
    exact hs₁.wqStop
  next s₁ _ e =>
    have hs₁ : s₁.Inv := .of_fst h.fabRead e
    exact .ite hs₁.wqStop hs₁.putQueue

theorem State.Inv.readCq {s : State} {q : Queue} (h : s.Inv) : (readCq s q).Inv := by
  unfold Machine.readCq
  split
  next s₁ e =>
    have hs₁ : s₁.Inv := .of_fst h.fabRead e
    exact hs₁.wqStop
  next s₁ _ e =>
    have hs₁ : s₁.Inv := .of_fst h.fabRead e
    exact .ite hs₁.wqStop hs₁.cqFlush.putQueue

theorem State.Inv.execWqDoorbellSq {queue : Nat} {s : State} (h : s.Inv) : Res.Inv (execWqDoorbellSq queue s) := by
  unfold Machine.execWqDoorbellSq
  refine h.whileCore fun s₁ hs₁ => ?_
  split
  · exact .ite (.whenFenced hs₁.readSq.next) hs₁.next
  · exact hs₁.next

theorem State.Inv.execWqDoorbellCq {queue : Nat} {s : State} (h : s.Inv) : Res.Inv (execWqDoorbellCq queue s) := by
  unfold Machine.execWqDoorbellCq
  refine h.whileCore fun s₁ hs₁ => ?_
  split
  · exact State.Inv.next (.ite hs₁ hs₁.readCq)
  · exact hs₁.next

theorem State.Inv.execWqPoll {queue : Nat} {s : State} (h : s.Inv) : Res.Inv (execWqPoll queue s) := by
  unfold Machine.execWqPoll
  refine h.whileCore fun s₁ hs₁ => ?_
  split
  · refine .ite hs₁.next ?_
    extract_lets s₂
    have hs₂ : s₂.Inv := hs₁.countF _ _
    split
    next s₃ e =>
      have hs₃ : s₃.Inv := .of_fst hs₂.fabRead e
      exact hs₃.wqStop.next
    next s₃ _ e =>
      have hs₃ : s₃.Inv := .of_fst hs₂.fabRead e
      exact State.Inv.next (.ite hs₃.putQueue hs₃.readCq)
  · exact hs₁.next

theorem State.Inv.wqTake {s : State} {q : Queue} {b : Bytes} {n : Nat} (h : s.Inv) : (wqTake s q b n).Inv := h.putQueue.fabWrite.same.countF _ _

theorem State.Inv.wqCheckTake {s : State} {q : Queue} (h : s.Inv) : Res.Inv (wqCheckTake s q) := by
  unfold Machine.wqCheckTake
  split
  next s₁ e =>
    have hs₁ : s₁.Inv := .of_fst h.fabRead e
    exact hs₁.wqStop.next
  next s₁ _ e =>
    have hs₁ : s₁.Inv := .of_fst h.fabRead e
    extract_lets
    split
    · exact hs₁.wqStop.next
    · refine .ite hs₁.wqStop.next ?_
      refine .ite hs₁.wqStop.next ?_
      refine .ite hs₁.wqStop.next ?_
      refine .ite .fault ?_
      split
      next s₂ e₁ =>
        have hs₂ : s₂.Inv := .of_fst hs₁.readSlots e₁
        exact hs₂.wqStop.next
      next s₂ _ e₁ =>
        have hs₂ : s₂.Inv := .of_fst hs₁.readSlots e₁
        exact hs₂.wqTake.next

theorem State.Inv.execWqEntryTake {queue : Nat} {s : State} (h : s.Inv) : Res.Inv (execWqEntryTake queue s) := by
  unfold Machine.execWqEntryTake
  refine h.whileCore fun s₁ hs₁ => ?_
  split
  · exact hs₁.next
  · refine .ite hs₁.next ?_
    refine .ite hs₁.next ?_
    refine .ite (State.Inv.next (.ite hs₁ (hs₁.putQueue.countF _ _))) ?_
    refine .ite ?_ hs₁.wqCheckTake
    split
    · exact hs₁.legacyTook.wqCheckTake
    · exact hs₁.next

theorem State.Inv.execWqCompletionDue {queue : Nat} {s : State} (h : s.Inv) : Res.Inv (execWqCompletionDue queue s) :=
  h.whileCore fun _ hs₁ => hs₁.wqComplete.next

theorem State.Inv.execWqNop {queue : Nat} {s : State} (h : s.Inv) : Res.Inv (execWqNop queue s) := by
  unfold Machine.execWqNop
  refine h.whileCore fun s₁ hs₁ => ?_
  split
  · exact hs₁.entryEnd.next
  · exact hs₁.next

theorem State.Inv.execWqHold {queue : Nat} {s : State} (h : s.Inv) : Res.Inv (execWqHold queue s) :=
  h.whileCore fun _ hs₁ => .ite hs₁.next ((((hs₁.setF _ _).setF _ _).setF _ _).setF _ _).next

theorem State.Inv.execWqUnhold {queue : Nat} {s : State} (h : s.Inv) : Res.Inv (execWqUnhold queue s) :=
  h.whileCore fun _ hs₁ => (((hs₁.setF _ _).setF _ _).setF _ _).next

theorem State.Inv.queueCreate {s : State} {b : Bytes} (h : s.Inv) : (queueCreate s b).Inv := by
  unfold Machine.queueCreate
  extract_lets _ r
  have hr : r.1.Inv := h.fabRead
  split
  · exact hr.wqStop
  · exact .ite hr.wqStop hr.putQueue

theorem State.Inv.execCreate {queue : Nat} {s : State} (h : s.Inv) : Res.Inv (execCreate queue s) := by
  unfold Machine.execCreate
  refine h.whileCore fun s₁ hs₁ => ?_
  split
  · exact hs₁.next
  · exact .ite hs₁.next (.ite .fault (.ite .fault (State.Inv.entryEnd (.ite hs₁.queueCreate hs₁)).next))

theorem State.Inv.execDestroy {queue : Nat} {s : State} (h : s.Inv) : Res.Inv (execDestroy queue s) := by
  unfold Machine.execDestroy
  refine h.whileCore fun s₁ hs₁ => ?_
  split
  · exact hs₁.next
  · refine .ite hs₁.next ?_
    refine .ite .fault ?_
    extract_lets
    split
    · exact .ite hs₁.putQueue.same.entryResult.next hs₁.entryEnd.next
    · exact hs₁.entryEnd.next

theorem State.Inv.execDestroyDrained {queue : Nat} {s : State} (h : s.Inv) : Res.Inv (execDestroyDrained queue s) := by
  unfold Machine.execDestroyDrained
  refine h.whileCore fun s₁ hs₁ => ?_
  split
  · refine .ite ?_ hs₁.next
    split
    · exact hs₁.same.entryEnd.next
    · exact hs₁.next
  · exact hs₁.next

theorem State.Inv.queueRestart {s : State} {q : Queue} {ci : Nat} (h : s.Inv) : (queueRestart s q ci).Inv := h.putQueue

theorem State.Inv.execRestart {queue : Nat} {s : State} (h : s.Inv) : Res.Inv (execRestart queue s) := by
  unfold Machine.execRestart
  refine h.whileCore fun s₁ hs₁ => ?_
  split
  · exact hs₁.next
  · refine .ite hs₁.next ?_
    refine .ite .fault ?_
    extract_lets a
    clear_value a
    split
    · exact hs₁.queueRestart.entryEnd.next
    · exact hs₁.entryEnd.next

theorem State.Inv.execWqLrestart {queue : Nat} {s : State} (h : s.Inv) : Res.Inv (execWqLrestart queue s) := by
  unfold Machine.execWqLrestart
  refine h.whileCore fun s₁ hs₁ => ?_
  split
  · exact State.Inv.next (.ite hs₁.queueRestart hs₁)
  · exact hs₁.next

/-! ### The form is kept: `Machine/Dispatch.lean` -/

theorem State.Inv.exec {i : Instr} {s : State} (h : s.Inv) : Res.Inv (exec i s) := by
  unfold Machine.exec
  split
  · exact h.execFence
  · exact h.execFenceI
  · exact h.execWfi
  · exact h.execRegisterWrite
  · exact h.execRcCounterRead
  · exact h.execFabErrClear
  · exact h.execIrqClaim
  · exact h.execIrqComplete
  · exact h.execMachineTimerExpiry
  · exact h.execRocePacketReceived
  · exact h.execCnpReceived
  · exact h.execRateRecoveryExpiry
  · exact h.execCmReq
  · exact h.execCmRtu
  · exact h.execCmDreq
  · exact h.execQpRetryExhausted
  · exact h.execHandshakeTimerExpiry
  · exact h.execCapsule
  · exact h.execOpen
  · exact h.execAuth
  · exact h.execClose
  · exact h.execNop
  · exact h.execResultFetch
  · exact h.execResultRelease
  · exact h.execRdmaReadResponse
  · exact h.execRdmaErrorNak
  · exact h.execHteSessHoldWrite
  · exact h.execExcQueueRoom
  · exact h.execHteReply
  · exact h.execHteRdmaRead
  · exact h.execHteRdmaWrite
  · exact h.execHteSend
  · exact h.execHteRxPost
  · exact h.execHteClose
  · exact h.execPeerMessage
  · exact h.execPeerReplyReceived
  · exact h.execPut
  · exact h.execGet
  · exact h.execDelete
  · exact h.execExists
  · exact h.execCas
  · exact h.execList
  · exact h.execDiscard
  · exact h.execDiscardDurable
  · exact h.execRetain
  · exact h.execRelease
  · exact h.execFixity
  · exact h.execStat
  · exact h.execLife
  · exact h.execNsCreate
  · exact h.execNsSet
  · exact h.execNsDelete
  · exact h.execTenantSet
  · exact h.execTenantDelete
  · exact h.execTenantQuery
  · exact h.execClockSet
  · exact h.execPtpTimeApply
  · exact h.execRetentionClockSave
  · exact h.execSealTimerExpiry
  · exact h.execBucketLoad
  · exact h.execBucketWriteback
  · exact h.execBucketEvict
  · exact h.execIndexRebuildFromStripes
  · exact h.execPeerSessionOpen
  · exact h.execHello
  · exact h.execFragWrite
  · exact h.execFragRead
  · exact h.execFragCommit
  · exact h.execFragRollback
  · exact h.execFragFree
  · exact h.execFragWriteResend
  · exact h.execGroupStatus
  · exact h.execGroupStatusTimer
  · exact h.execFormingTimeout
  · exact h.execJoin
  · exact h.execAdminForward
  · exact h.execAdminRecord
  · exact h.execAdminRecordResend
  · exact h.execSliceCopy
  · exact h.execSliceDisown
  · exact h.execEpochChangeStart
  · exact h.execEpochPrepare
  · exact h.execEpochCommit
  · exact h.execEpochAbort
  · exact h.execEpochQuery
  · exact h.execEpochLeaderLimit
  · exact h.execEpochPreparedTimeout
  · exact h.execStripeRewrite
  · exact h.execEsTest
  · exact h.execEsTestEnd
  · exact h.execPjEnable
  · exact h.execPjVmapWrite
  · exact h.execPfailNFall
  · exact h.execVaultDumpEnd
  · exact h.execPjRestore
  · exact h.execPjRestoreEnd
  · exact h.execPjAllocReq
  · exact h.execPjAllocRead
  · exact h.execPairHello
  · exact h.execAck
  · exact h.execIntentFrame
  · exact h.execOutcomeFrame
  · exact h.execIndexFrame
  · exact h.execOpenStripeFrame
  · exact h.execAppend
  · exact h.execRetire
  · exact h.execHandbackReady
  · exact h.execHandbackAck
  · exact h.execIntentQuery
  · exact h.execIntentAnswer
  · exact h.execPairResendTimer
  · exact h.execPairAckTimer
  · exact h.execPairPathChange
  · exact h.execLeaseLapse
  · exact h.execTakeoverTimer
  · exact h.execHandbackStart
  · exact h.execHandbackResend
  · exact h.execFragCommitResend
  · exact h.execProbeResend
  · exact h.execReplay
  · exact h.execSeatSilenceExpiry
  · exact h.execWriteLimitExpiry
  · exact h.execFragReadDeadline
  · exact h.execDegradedReadRetry
  · exact h.execStripeLost
  · exact h.execInventory
  · exact h.execRebuildNotice
  · exact h.execFragReplace
  · exact h.execLocalRepair
  · exact h.execRebuildStart
  · exact h.execRebuildPosition
  · exact h.execRebuildRateSample
  · exact h.execRebuildProgressTimer
  · exact h.execRigCtrlStage
  · exact h.execRigStageEnd
  · exact h.execRigCtrlActivate
  · exact h.execRigSwapEnd
  · exact h.execRigCtrlDiscard
  · exact h.execEcEncode
  · exact h.execEcDecode
  · exact h.execEcCheck
  · exact h.execEcEntryEnd
  · exact h.execFphPush
  · exact h.execFphPop
  · exact h.execFphPeek
  · exact h.execFphClear
  · exact h.execCollection
  · exact h.execMigration
  · exact h.execProgramFailure
  · exact h.execLunDeclareFailed
  · exact h.execNoteRecord
  · exact h.execSweep
  · exact h.execReadRetry
  · exact h.execCheckpoint
  · exact h.execSummaryScan
  · exact h.execFullScan
  · exact h.execVaultSetReplace
  · exact h.execMediaFull
  · exact h.execChannelStart
  · exact h.execChannelReady
  · exact h.execFcRead
  · exact h.execFcProgram
  · exact h.execFcErase
  · exact h.execFcReadHeader
  · exact h.execFcFeature
  · exact h.execFcResetLun
  · exact h.execFcOperationEnd
  · exact h.execFcRoundTick
  · exact h.execFcLunTimeout
  · exact h.execLunResetTimeout
  · exact h.execFcRevive
  · exact h.execSequencerFault
  · exact h.execLunTempPoll
  · exact h.execFcGroupWindowWrite
  · exact h.execScAccess
  · exact h.execScFillComplete
  · exact h.execScEvictionDone
  · exact h.execScWayDisableEnd
  · exact h.execScWayEnable
  · exact h.execScClean
  · exact h.execScInvalidate
  · exact h.execScCleanInvalidate
  · exact h.execScMaintEnd
  · exact h.execScPrefetchHint
  · exact h.execScPrefetchFetch
  · exact h.execScDisable
  · exact h.execScEnable
  · exact h.execDmcScrub
  · exact h.execDmcTempRefresh
  · exact h.execWqDoorbellSq
  · exact h.execWqDoorbellCq
  · exact h.execWqPoll
  · exact h.execWqEntryTake
  · exact h.execWqCompletionDue
  · exact h.execWqNop
  · exact h.execWqHold
  · exact h.execWqUnhold
  · exact h.execCreate
  · exact h.execDestroy
  · exact h.execDestroyDrained
  · exact h.execRestart
  · exact h.execWqLrestart
  · exact h.execDmaGo
  · exact h.execDmaRun
  · exact h.execDmaKick
  · exact h.execDmaStop
  · exact h.execDmaResume
  · exact h.execDmaAbort
  · exact h.execDmaBurstGrant
  · exact h.execDmaBurstWritten
  · exact h.execDmaPeripheralLast
  · exact h.execDmaPeripheralAbort
  · exact h.execDmaDescriptorEnd
  · exact h.execDmaReqSet
  · exact h.execDmaReqClr
  · exact h.execDmaCqCiWrite
  · exact h.execAsuSearchGo
  · exact h.execAsuSearchResult
  · exact h.execAsuStepNext
  · exact h.execAsuEntryWrite
  · exact h.execAsuEntryRead
  · exact h.execAsuMove
  · exact h.execAsuMoveEnd
  · exact h.execAsuBankCfgWrite
  · exact h.execAsuSearch
  · exact h.execCipGcmEnc
  · exact h.execCipGcmDec
  · exact h.execCipXtsEnc
  · exact h.execCipXtsDec
  · exact h.execCipUnwrap
  · exact h.execCipGenkey
  · exact h.execCipExport
  · exact h.execCipClear
  · exact h.execCipEntryEnd
  · exact h.execDigUpdate
  · exact h.execDigEntryEnd
  · exact h.execPortLinkUp
  · exact h.execPortLinkDown
  · exact h.execFrameReceived
  · exact h.execPauseFrame
  · exact h.execPfcFrame
  · exact h.execPauseExpiry
  · exact h.execVerifyTimer
  · exact h.execVerifyFrame
  · exact h.execRespondFrame
  · exact h.execTxFrameStart
  · exact h.execPreemptionCut
  · exact h.execTxFrameEnd
  · exact h.execRxrPiWrite
  · exact h.execRxWaitTimeout
  · exact h.execTxrPiWrite
  · exact h.execTsqPop
  · exact h.execPtpLoad
  · exact h.execPtpStep
  · exact h.execPtpSecRead
  · exact h.execPairLinkFrame
  · exact h.execSvcFrameReceived
  · exact h.execSvcCollision
  · exact h.execSvcBackoffExpiry
  · exact h.execIdentify
  · exact h.execWake
  · exact h.execLogRead
  · exact h.execPentRead
  · exact h.execKeySet
  · exact h.execTenantInit
  · exact h.execEscrowSet
  · exact h.execEscrowRead
  · exact h.execImageData
  · exact h.execImageEnd
  · exact h.execRigData
  · exact h.execRigStage
  · exact h.execScanFull
  · exact h.execServiceEnter
  · exact h.execServiceLeave
  · exact h.execGoRace
  · exact h.execGoPaddle
  · exact h.execGoDock
  · exact h.execGoDeepDock
  · exact h.execPowerDownEnd
  · exact h.execWakeNLow
  · exact h.execAonWakeAtReached
  · exact h.execStartFromSleep
  · exact h.execDockingNotice
  · exact h.execDockedWakeResend
  · exact h.execDockedWakeTimeout
  · exact h.execThermalSample
  · exact h.execThermalStepLeave
  · exact h.execWatchdogArm
  · exact h.execWatchdogKick
  · exact h.execWatchdogExpiry
  · exact h.execCounterRecord
  · exact h.execSuppliesValid
  · exact h.execPowerOnReset
  · exact h.execDeviceReset
  · exact h.execDomainPowerUp
  · exact h.execBootVerify
  · exact h.execFallbackRestore
  · exact h.execTrialTimeout
  · exact h.execLoaderService
  · exact h.execCoxMailboxGo
  · exact h.execCfgRead
  · exact h.execCfgWrite
  · exact h.execFcLoad
  · exact h.execPeerEph
  · exact h.execPeerSign
  · exact h.execPeerKey
  · exact h.execXportLoad
  · exact h.execSvcMac
  · exact h.execSvcKeySet
  · exact h.execSvcUnmask
  · exact h.execAttest
  · exact h.execDebugChallenge
  · exact h.execDebugUnlock
  · exact h.execImageExport
  · exact h.execFallbackSet
  · exact h.execImageInstall
  · exact h.execImageConfirm
  · exact h.execLogClear
  · exact h.execReset
  · exact h.execFatal
  · exact h.execLogSubmit
  · exact h.execLogRdGo
  · exact h.execLogRecordProgram
  · exact h.execLogClearUptoWrite
  · exact h.execLogTokenRefill
  · exact h.execSnapStrobe
  · exact h.execPentSnapshotEnd
  · exact h.execPentSlotErase
  · exact h.execSmbusReadByte
  · exact h.execSmbusReadWord
  · exact h.execSmbusBlockRead
  · exact h.execSmbusWriteNack
  · exact h.execSmbusAlertResponse
  · exact h.execSmbusClockLowTimeout
  · exact h.execCmRep
  · exact h.execLocalAckTimeout
  · exact h.execMajorityContactLoss
  · exact h.execJtagAccess
  · exact h.execSvcFrameSend

/-! ### The form is kept: `Machine/Step.lean` -/

/-- A step keeps the form: time passes, or the command at the front runs with the queue's rest. -/
theorem State.Inv.step {s : State} (h : s.Inv) : Res.Inv (step s) := by
  unfold Machine.step
  split
  · exact h.same.next
  · exact h.same.exec

end Sys2Proof.Machine
end

section
open Sys2Proof Sys2Proof.Machine

/-- Settles O59: every operation keeps the form, so the command at the front of the queue does, and so does a tick of an empty queue. -/
theorem stepKeepsInvariant : Obligations.StepKeepsInvariant := by
  unfold Obligations.StepKeepsInvariant
  exact fun s t h e => h.step t e

end

section
/-! PROOFS. What the family "voyage of a value" states of the clock, of the crew cores, of their interrupts, of the fabric error recorder and of an
access to the staging cache. -/

namespace Sys2Proof.Machine

/-! ### Interrupts (R41) -/

/-- The source `i` goes before `j` at a claim: its priority is higher, or they are equal and its ID is not the greater. -/
def ClaimsBefore (s : State) (i j : Nat) : Prop :=
  getF s (F.IRQ_SRC_ROUTE_PRIO j) < getF s (F.IRQ_SRC_ROUTE_PRIO i) ∨
    (getF s (F.IRQ_SRC_ROUTE_PRIO j) = getF s (F.IRQ_SRC_ROUTE_PRIO i) ∧ i ≤ j)

/-- The sources are listed by rising ID. -/
theorem eligible_pairwise_lt (s : State) (core : Nat) : (eligible s core).Pairwise (· < ·) :=
  (List.pairwise_lt_range.sublist (List.drop_sublist 1 _)).sublist List.filter_sublist

theorem bestSource_cons_ne_none (s : State) (i : Nat) (is : List Nat) : bestSource s (i :: is) ≠ none := by
  simp only [bestSource]
  cases bestSource s is with
  | none => simp
  | some j => dsimp only; split <;> exact Option.some_ne_none _

theorem bestSource_eq_none {s : State} {is : List Nat} : bestSource s is = none ↔ is = [] := by
  cases is with
  | nil => simp [bestSource]
  | cons i is => simp [bestSource_cons_ne_none]

/-- Among sources listed by rising ID the best is one of them and goes before every one. -/
theorem bestSource_some {s : State} {is : List Nat} {b : Nat} (hsorted : is.Pairwise (· < ·)) (hb : bestSource s is = some b) :
    b ∈ is ∧ ∀ j ∈ is, ClaimsBefore s b j := by
  induction is generalizing b with
  | nil => simp [bestSource] at hb
  | cons i is ih =>
    obtain ⟨hfirst, hrest⟩ := List.pairwise_cons.1 hsorted
    simp only [bestSource] at hb
    cases hj : bestSource s is with
    | none =>
      obtain rfl := bestSource_eq_none.1 hj
      simp only [hj, Option.some.injEq] at hb
      simp [ClaimsBefore, hb]
    | some j =>
      obtain ⟨hmem, hbest⟩ := ih hrest hj
      have hij : i < j := hfirst j hmem
      simp only [hj] at hb
      simp only [ClaimsBefore] at hbest ⊢
      split at hb
      · next hhigher =>
        obtain rfl := Option.some.inj hb
        refine ⟨List.mem_cons_of_mem _ hmem, List.forall_mem_cons.2 ⟨.inl hhigher, hbest⟩⟩
      · next hlower =>
        obtain rfl := Option.some.inj hb
        refine ⟨List.mem_cons_self, List.forall_mem_cons.2 ⟨.inr ⟨rfl, Nat.le_refl _⟩, fun k hk => ?_⟩⟩
        rcases hbest k hk with h | ⟨h, hjk⟩ <;> omega

theorem claimRead_none {s : State} {core : Nat} (h : eligible s core = []) : claimRead s core = (s, 0) := by
  rw [claimRead, bestSource_eq_none.2 h]

theorem claimRead_some {s : State} {core i : Nat} (h : bestSource s (eligible s core) = some i) :
    claimRead s core = ({ s with irq := { inService := s.irq.inService ++ [(i, core)], latch := s.irq.latch.filter (· != i) } }, i) := by
  rw [claimRead, h]

theorem exec_irqClaim_of_coreOn {s : State} {core : Nat} (hon : coreOn s core = true) :
    exec (.irqClaim core) s =
      .next (emit (claimRead (coreActs s core) core).1 (.readValue (F.IRQ_CLAIM_ID core).addr (claimRead (coreActs s core) core).2)) :=
  by
  show execIrqClaim core s = _
  exact coreRuns_on hon _

/-! ### Crew cores (R17) -/

theorem coreLive_of_coreOn {s : State} {core : Nat} (h : coreOn s core = true) : coreLive s = true := by
  simp only [coreOn, Bool.and_eq_true] at h
  exact h.1.1.2

theorem exec_wfi_of_nothing_asserted {s : State} {core : Nat} (hon : coreOn s core = true) (hirq : eligible (coreActs s core) core = [])
    (htimer : timerPending (coreActs s core) core = false) :
    exec (.wfi core) s =
      .next { coreActs s core with cores := { (coreActs s core).cores with waiting := core :: (coreActs s core).cores.waiting } } := by
  show execWfi core s = _
  simp only [execWfi, coreRuns_on hon, hirq, htimer, List.isEmpty_nil, Bool.not_false, Bool.and_self, if_true]

theorem exec_machineTimerExpiry_of_coreOn {s u : State} {core : Nat} (hon : coreOn s core = true)
    (hu : u = reach s (s.pwr.mtimeAt + 10 * getF s (F.IRQ_MTIMECMP_TIME core))) :
    exec (.machineTimerExpiry core) s = .next { u with cores := { u.cores with waiting := u.cores.waiting.filter (· != core) } } := by
  subst hu
  show execMachineTimerExpiry core s = _
  simp only [execMachineTimerExpiry, whileCore_run (coreLive_of_coreOn hon), hon, Bool.not_true, Bool.false_eq_true, if_false]

/-! ### The fabric error recorder (R44) -/

@[simp] theorem countF_mem (s : State) (f : Fld) (n : Nat) : (countF s f n).mem = s.mem := by
  simp only [countF]; split <;> rfl

@[simp] theorem logSuppress_mem (s : State) (t : TokenBucket) : (logSuppress s t).mem = s.mem := countF_mem _ _ _

@[simp] theorem logAccept_mem (s : State) (src c a b d e : Nat) (t : TokenBucket) : (logAccept s src c a b d e t).mem = s.mem := countF_mem _ _ _

@[simp] theorem logSubmit_mem (s : State) (src c a b d e : Nat) : (logSubmit s src c a b d e).1.mem = s.mem := by
  simp only [logSubmit]
  split
  · rfl
  · split
    · exact logSuppress_mem _ _
    · split
      · exact logAccept_mem _ _ _ _ _ _ _ _
      · split
        · exact logSuppress_mem _ _
        · exact logAccept_mem _ _ _ _ _ _ _ _

@[simp] theorem logEv_mem (s : State) (c a b d : Nat) : (logEv s c a b d).mem = s.mem := logSubmit_mem _ _ _ _ _ _ _

/-- While a record is latched a further failed access is counted and recorded in the logbook. -/
theorem fabLatch_of_valid {s : State} (h : flag s F.FAB_ERR_STATUS_VALID = true) (kind rid a : Nat) (wr : Bool) :
    fabLatch s kind rid wr a =
      logEv (setF (setF s F.FAB_ERR_COUNT_COUNT (min 0xFFFF (getF s F.FAB_ERR_COUNT_COUNT + 1))) F.FAB_ERR_STATUS_OVERFLOW 1)
        EV.fabricError a (kind * 256 + b2n wr * 16 + rid) 0 := by
  simp only [fabLatch, h, if_true]

/-- The logbook's registers lie above those of the fabric error recorder. -/
theorem getF_logEv_of_below {g : Fld} (hg : fldKey g < fldKey F.LOG_STATUS_NEW) (s : State) (c a b d : Nat) : getF (logEv s c a b d) g = getF s g := by
  have hkeys : fldKey F.LOG_STATUS_NEW < fldKey F.LOG_HEAD_SEQ ∧ fldKey F.LOG_STATUS_NEW < fldKey F.LOG_CNT_ACCEPTED_COUNT ∧
      fldKey F.LOG_STATUS_NEW < fldKey F.LOG_CNT_SUPPRESSED_COUNT := by decide
  obtain ⟨hhead, hacc, hsup⟩ := hkeys
  exact getF_logSubmit s 0 c a b d 0 g (by omega) (by omega) (by omega) (by omega)

/-- The fields of the recorder that hold the latched record. -/
def fabRecord : List Fld :=
  [F.FAB_ERR_STATUS_VALID, F.FAB_ERR_INFO_KIND, F.FAB_ERR_INFO_DIR, F.FAB_ERR_INFO_RID, F.FAB_ERR_ADDR_ADDR]

theorem fabRecord_keys : ∀ g ∈ fabRecord, fldKey g < fldKey F.LOG_STATUS_NEW ∧ fldKey F.FAB_ERR_COUNT_COUNT ≠ fldKey g ∧
    fldKey F.FAB_ERR_STATUS_OVERFLOW ≠ fldKey g := by decide

/-- A further failed access keeps the latched record. -/
theorem getF_fabLatch_of_valid {s : State} (h : flag s F.FAB_ERR_STATUS_VALID = true) (kind rid a : Nat) (wr : Bool) {g : Fld}
    (hg : g ∈ fabRecord) : getF (fabLatch s kind rid wr a) g = getF s g := by
  obtain ⟨hlow, hcount, hover⟩ := fabRecord_keys g hg
  rw [fabLatch_of_valid h, getF_logEv_of_below hlow, getF_setF_other _ _ hover, getF_setF_other _ _ hcount]

/-! ### Accesses to the staging cache (R392, R395) -/

/-- What its port makes of a request that the fabric admits: a port with nothing outstanding issues it; with a miss outstanding there a hit on another
line is served, and a request for the line of the miss, one behind a second miss, and a second read miss join those that wait. -/
inductive ScTakes (s : State) (r : ScReq) : State → Prop
  | issued : scPort s r.rid = none → ScTakes s r (scIssue s r)
  | served {p : ScPort} {l : ScLine} : scPort s r.rid = some p → heldLine s (r.addr / 256) = some l → r.addr / 256 ≠ p.line →
      (∀ q ∈ p.waiting, q.addr / 256 = p.line) → ScTakes s r (scServe s r l)
  | waits {p : ScPort} : scPort s r.rid = some p → r.addr / 256 = p.line ∨ (∃ q ∈ p.waiting, q.addr / 256 ≠ p.line) ∨
      (heldLine s (r.addr / 256) = none ∧ r.write = none) → ScTakes s r (putScPort s r.rid (some { p with waiting := p.waiting ++ [r] }))

/-- Every access waiting on a port is for the line of its miss. -/
theorem no_second_miss_iff (p : ScPort) : (!(p.waiting.any fun q => q.addr / 256 != p.line)) = true ↔ ∀ q ∈ p.waiting, q.addr / 256 = p.line := by
  simp

section Access

variable {s u : State} {rid core addr len write err n : Nat} {data : Bytes} {r : ScReq} (hlive : coreLive s = true)
  (hon : rid ≤ 1 → coreOn s core = true) (hn : n = min len (256 - addr % 256)) (hu : u = scActs s rid core addr n (write == 1))
  (hr : r = ⟨rid, core, addr, n, if write = 1 then some (fit data n) else none, write == 2, err⟩)

include hlive hon hn hu hr

/-- An access that the fabric fails, or whose target does not answer, is answered with the kind of the fault. -/
theorem exec_scAccess_fault {k : Nat}
    (hk : (if err = 5 then some ((memFault u addr n (write == 1)).getD 4) else memFault u addr n (write == 1)) = some k) :
    exec (.scAccess rid core addr len write data err) s = .next (scAnswer u r (some k) []) := by
  have hruns : (decide (rid ≤ 1) && !(coreOn s core)) = false := by simpa using hon
  subst hn hu hr
  show execScAccess rid core addr len write data err s = _
  simp only [execScAccess, whileCore_run hlive, hruns, Bool.false_eq_true, if_false, hk]

/-- An access to DRAM that nothing fails and that is no listed misuse goes to its port. -/
theorem exec_scAccess_takes {t : State} (hfault : memFault u addr n (write == 1) = none) (herr : err ≠ 5) (hdram : isDram addr = true) (hlen : n ≠ 0)
    (hmaint : write = 1 → u.sc.maint = none) (hcode : rid ≤ 1 → write = 2 → staleCode u core addr n = false) (htakes : ScTakes u r t) :
    exec (.scAccess rid core addr len write data err) s = .next t := by
  have hruns : (decide (rid ≤ 1) && !(coreOn s core)) = false := by simpa using hon
  have hfetch : ¬ (rid ≤ 1 ∧ write = 2 ∧ staleCode u core addr n = true) := fun ⟨h1, h2, h3⟩ => by simp [hcode h1 h2] at h3
  have hrid : r.rid = rid := by rw [hr]
  have haddr : r.addr = addr := by rw [hr]
  have hwrite : r.write = none → write ≠ 1 := by rw [hr]; rintro h rfl; cases h
  show execScAccess rid core addr len write data err s = _
  simp only [execScAccess, whileCore_run hlive, hruns, ← hn, ← hu, ← hr, herr, hfault, hdram, hlen, hfetch, Bool.false_eq_true, if_false,
    Bool.not_true, or_self]
  rw [if_neg (by rintro ⟨h1, h2⟩; simp [hmaint h1] at h2)]
  cases htakes with
  | issued hp => rw [hrid] at hp; simp only [hp]
  | served hp hl hline hfirst =>
    rw [hrid] at hp; rw [haddr] at hl hline
    simp only [hp, hl]
    rw [if_pos ⟨hline, (no_second_miss_iff _).2 hfirst⟩]
  | @waits p hp hwait =>
    rw [hrid] at hp ⊢
    rw [haddr] at hwait
    have hstays : addr / 256 ≠ p.line → (∀ q ∈ p.waiting, q.addr / 256 = p.line) → heldLine u (addr / 256) = none ∧ write ≠ 1 := by
      intro hline hfirst
      rcases hwait with h | ⟨q, hq, hne⟩ | ⟨hl, hw⟩
      · exact absurd h hline
      · exact absurd (hfirst q hq) hne
      · exact ⟨hl, hwrite hw⟩
    simp only [hp, no_second_miss_iff]
    cases hl : heldLine u (addr / 256) with
    | some l => exact if_neg fun ⟨hline, hfirst⟩ => Option.some_ne_none l (hl.symm.trans (hstays hline hfirst).1)
    | none => exact if_neg fun ⟨hw, hline, hfirst, _⟩ => (hstays hline hfirst).2 hw

end Access

end Sys2Proof.Machine

section Settled

open Sys2Proof Sys2Proof.Machine

/-- Settles O4: the sources eligible are listed by rising ID, and the claim takes the best of them. -/
theorem claimReturnsBestSource : Obligations.ClaimReturnsBestSource := by
  unfold Obligations.ClaimReturnsBestSource
  intro s core hon hsome
  obtain ⟨i, hi⟩ := Option.ne_none_iff_exists'.1 (mt (bestSource_eq_none (s := coreActs s core)).1 hsome)
  obtain ⟨hmem, hbest⟩ := bestSource_some (eligible_pairwise_lt _ _) hi
  refine ⟨i, hmem, hbest, ?_⟩
  rw [exec_irqClaim_of_coreOn hon, claimRead_some hi]
  rfl

/-- Settles O5: the recorder writes only its count and OVERFLOW, and the event it posts only registers of the logbook. -/
theorem fabricRecorderKeepsFirst : Obligations.FabricRecorderKeepsFirst := by
  unfold Obligations.FabricRecorderKeepsFirst
  intro s kind rid a wr hvalid
  have hkept : ∀ g ∈ fabRecord, getF (fabLatch s kind rid wr a) g = getF s g := fun _ hg => getF_fabLatch_of_valid hvalid kind rid a wr hg
  simp only [fabRecord, List.forall_mem_cons] at hkept
  obtain ⟨hkeptValid, hkind, hdir, hrid, haddr, _⟩ := hkept
  refine ⟨?count, ?overflow, ?valid, hkind, hdir, hrid, haddr, ?mem⟩
  case count =>
    rw [fabLatch_of_valid hvalid, getF_logEv_of_below (by decide), getF_setF_other _ _ (by decide), getF_setF_same]
    exact Nat.mod_eq_of_lt (Nat.lt_of_le_of_lt (Nat.min_le_left _ _) (by decide))
  case overflow =>
    rw [flag, fabLatch_of_valid hvalid, getF_logEv_of_below (by decide), getF_setF_same]
    rfl
  case valid => rw [flag, hkeptValid]; exact hvalid
  case mem => rw [fabLatch_of_valid hvalid, logEv_mem, setF_mem, setF_mem]

/-- Settles O2, by the equation of `step` on an empty queue. -/
theorem emptyQueueTicks : Obligations.EmptyQueueTicks := by
  unfold Obligations.EmptyQueueTicks
  intro s hempty
  rw [step, hempty]

/-- Settles O3, command by command on the state in which the core acts. -/
theorem coreCommandsComplete : Obligations.CoreCommandsComplete := by
  unfold Obligations.CoreCommandsComplete
  intro s core hon
  refine ⟨?fence, ?fenceI, ?wfi, ?complete, ?claim, ?clear, ?timer⟩
  case fence => show execFence core s = _; exact coreRuns_on hon _
  case fenceI => show execFenceI core s = _; exact coreRuns_on hon _
  case wfi => exact exec_wfi_of_nothing_asserted hon
  case complete => intro id; show execIrqComplete core id s = _; exact coreRuns_on hon _
  case claim => intro hnone; rw [exec_irqClaim_of_coreOn hon, claimRead_none hnone]
  case clear => show execFabErrClear core s = _; exact coreRuns_on hon _
  case timer => exact ⟨_, exec_machineTimerExpiry_of_coreOn hon rfl, rfl, by simp, rfl, rfl⟩

/-- Settles O43: the fabric answers an access that it fails, and any other goes to its requester's port, which takes it in one of three ways. -/
theorem cacheAccessesComplete : Obligations.CacheAccessesComplete := by
  unfold Obligations.CacheAccessesComplete
  intro s u rid core addr len write err n data r hlive hon hn hu hr
  have hrid : r.rid = rid := by rw [hr]
  have haddr : r.addr = addr := by rw [hr]
  have hwrite : write ≠ 1 → r.write = none := fun h => by rw [hr]; exact if_neg h
  refine ⟨fun k hk => exec_scAccess_fault hlive hon hn hu hr ?_, fun hk herr => exec_scAccess_fault hlive hon hn hu hr ?_, ?_⟩
  · simp only [hk, Option.getD_some, ite_self]
  · simp only [hk, herr, if_true, Option.getD_none]
  · intro hfault herr hdram hlen hmaint hcode
    have htakes : ∀ {t}, ScTakes u r t → exec (.scAccess rid core addr len write data err) s = .next t :=
      exec_scAccess_takes hlive hon hn hu hr hfault herr hdram hlen hmaint hcode
    subst hrid haddr
    exact ⟨fun hp => htakes (.issued hp), fun p l hp hl hline hfirst => htakes (.served hp hl hline hfirst),
      fun p hp hwait => htakes (.waits hp (hwait.imp_right (.imp_right (.imp_right hwrite))))⟩

end Settled
end

section
/-! PROOFS. What the family "host sessions" states: packets and their failures, connection management, capsules and the session opcodes, the entries of
crew firmware to the host transport engine, HTE_SESS_HOLD, and peer sessions. -/

namespace Sys2Proof.Machine

/-! ### Packets, congestion and retransmission (R47, R48, R69, R77, R78) -/

/-- A count leaves the context of every session. -/
@[simp] theorem sessAt_countF (s : State) (f : Fld) (k id o n : Nat) : sessAt (countF s f k) id o n = sessAt s id o n := by
  simp only [sessAt, memNat, memRead, countF_mem]

theorem takeAck_of_ack (s : State) (session : Nat) (x : Sess) :
    takeAck s session x false = modSess s session fun y => { y with retries := 0, rnrs := 0, rnrWait := false } := rfl

theorem takeAck_of_rnr {s : State} {session : Nat} {x : Sess} (h : x.rnrs < x.rnrMax) :
    takeAck s session x true = modSess s session fun y => { y with rnrs := y.rnrs + 1, rnrWait := true } := by
  simp only [takeAck, h, if_true]

theorem takeAck_of_rnr_exhausted {s : State} {session : Nat} {x : Sess} (h : x.rnrMax ≤ x.rnrs) : takeAck s session x true = sessClose s session 2 := by
  simp only [takeAck, Nat.not_lt.2 h, if_true, if_false]

/-- The atomic acknowledgement is not among the packets that the device receives. -/
theorem ne_roceAtomicAck_of_received {op : Nat} (h : op ∈ roceReceived) : op ≠ roceAtomicAck := by
  rintro rfl; exact absurd h (by decide)

section Transport

variable {s : State} {session op rnr : Nat} {x : Sess} (hlive : coreLive s = true) (hrec : sessRec s session = some x)
  (hused : sessState s session ≠ 0)

include hlive in
theorem exec_rocePacketReceived_of_badIcrc (header op rnr ce : Nat) : exec (.rocePacketReceived session 0 header op rnr ce) s = .next s := by
  show execRocePacketReceived session 0 header op rnr ce s = _
  simp only [execRocePacketReceived, whileCore_run hlive, true_or, if_true]
  cases sessRec s session <;> rfl

include hlive hrec hused

/-- A packet without a CE mark is acted on by its opcode alone. -/
theorem exec_rocePacketReceived_of_unmarked (hop : op ≠ roceAtomicAck) : exec (.rocePacketReceived session 1 1 op rnr 0) s =
    .next (if roceReceived.contains op then takeAck s session x (op == roceAck && rnr == 1)
      else sessClose (emit s (.roce session 2)) session 2) := by
  show execRocePacketReceived session 1 1 op rnr 0 s = _
  simp only [execRocePacketReceived, whileCore_run hlive, hrec, hused, hop, Nat.one_ne_zero, Nat.zero_ne_one, false_and, or_self, if_false]

theorem exec_rocePacketReceived_of_received (hop : op ∈ roceReceived) : exec (.rocePacketReceived session 1 1 op rnr 0) s =
    .next (takeAck s session x (op == roceAck && rnr == 1)) := by
  rw [exec_rocePacketReceived_of_unmarked hlive hrec hused (ne_roceAtomicAck_of_received hop), if_pos (List.contains_iff_mem.2 hop)]

theorem exec_rocePacketReceived_of_unsupported (hop : op ∉ roceReceived) (hatomic : op ≠ roceAtomicAck) :
    exec (.rocePacketReceived session 1 1 op rnr 0) s = .next (sessClose (emit s (.roce session 2)) session 2) := by
  rw [exec_rocePacketReceived_of_unmarked hlive hrec hused hatomic, if_neg (mt List.contains_iff_mem.1 hop)]

/-- A CE mark on a session that has drawn no CNP yet draws one. -/
theorem exec_rocePacketReceived_of_marked (hop : op ∈ roceReceived) (hfirst : x.cnpTx = none) : exec (.rocePacketReceived session 1 1 op 0 1) s =
    .next (takeAck (countF (emit (modSess s session fun y => { y with cnpTx := some s.now }) (.cnp session)) F.HTE_CNT_CNP_TX_COUNT 1) session x
      false) := by
  show execRocePacketReceived session 1 1 op 0 1 s = _
  have hatomic : op ≠ roceAtomicAck := ne_roceAtomicAck_of_received hop
  simp only [execRocePacketReceived, whileCore_run hlive, hrec, hused, hatomic, hfirst, List.contains_iff_mem.2 hop, Nat.one_ne_zero, or_self,
    and_self, if_true, if_false, Nat.reduceBEq, Bool.and_false]

/-- A CNP raises the step where no other has raised it. -/
theorem exec_cnpReceived_of_first (hfirst : x.raisedAt = none) (hstep : sessAt s session 85 1 < 15) : exec (.cnpReceived session) s =
    (let u := countF s F.HTE_CNT_CNP_RX_COUNT 1
     let u := modSess u session fun y => { y with cnpRx := some u.now }
     .next (modSess (setStep u session (sessAt s session 85 1 + 1)) session fun y => { y with raisedAt := some u.now })) := by
  show execCnpReceived session s = _
  simp only [execCnpReceived, whileCore_run hlive, hrec, hused, hfirst, sessAt_countF, decide_eq_true hstep, Bool.and_self, if_true, if_false]

theorem exec_rateRecoveryExpiry_of_raised (hstep : sessAt s session 85 1 ≠ 0)
    (hinterval : (rateStep s (sessAt s session 84 1) (sessAt s session 85 1)).2 ≠ 0) : exec (.rateRecoveryExpiry session) s =
      .next (setStep (reach s (max x.stepAt (x.cnpRx.getD 0) + (rateStep s (sessAt s session 84 1) (sessAt s session 85 1)).2 * us)) session
        (sessAt s session 85 1 - 1)) := by
  show execRateRecoveryExpiry session s = _
  simp only [execRateRecoveryExpiry, whileCore_run hlive, hrec, hused, hstep, hinterval, or_self, if_false]

omit hused

theorem exec_localAckTimeout_of_rnrWait (hopen : sessLive s session = true) (hready : x.ready = true) (hwait : x.rnrWait = true) :
    exec (.localAckTimeout session) s = .next (emit (putSess s { x with rnrWait := false, timerAt := s.now }) (.retransmit session)) := by
  show execLocalAckTimeout session s = _
  simp only [execLocalAckTimeout, whileCore_run hlive, hrec, hopen, hready, hwait, Bool.not_true, Bool.or_self, Bool.false_eq_true, if_true, if_false]

theorem exec_localAckTimeout_of_retry (hopen : sessLive s session = true) (hready : x.ready = true) (hwait : x.rnrWait = false)
    (hleft : x.retries < x.retryMax) (htimer : x.ackExp ≠ 0) : exec (.localAckTimeout session) s =
      .next (emit (putSess (reach s (x.timerAt + 4096 * 2 ^ x.ackExp))
        { x with retries := x.retries + 1, timerAt := max s.now (x.timerAt + 4096 * 2 ^ x.ackExp) }) (.retransmit session)) := by
  show execLocalAckTimeout session s = _
  have htime : ackTimeoutNs x = 4096 * 2 ^ x.ackExp := if_neg htimer
  simp only [execLocalAckTimeout, whileCore_run hlive, hrec, hopen, hready, hwait, hleft, htimer, htime, reach_now, Bool.not_true, Bool.or_self,
    Bool.false_eq_true, ne_eq, not_false_eq_true, and_self, if_true, if_false]

end Transport

/-! ### Connection management (R49, R51, R198) -/

section Connection

variable {s : State} {comm id session timeout retry rnr : Nat} (hlive : coreLive s = true)

include hlive

theorem exec_cmReq_of_accept (hnew : (s.hte.sessions.find? fun x => !x.initiator && x.comm == comm && sessLive s x.id) = none)
    (haccept : flag s F.HTE_CTRL_ACCEPT = true) (hlow : 2 ≤ s.pwr.dev) (hhigh : s.pwr.dev ≤ 6) (hfree : freeSession s = some id) :
    exec (.cmReq (serviceId 0) comm 4096 0xFFFF timeout retry rnr) s = .next (emit (sessConnect s
      { newSess id comm false with retryMax := min 7 retry, rnrMax := min 7 rnr, ackExp := timeout } 0 false) (.cm 1 id 0 [])) := by
  show execCmReq (serviceId 0) comm 4096 0xFFFF timeout retry rnr s = _
  simp only [execCmReq, whileCore_run hlive, hnew, haccept, hlow, hhigh, hfree, or_true, and_self, if_true]

theorem exec_cmReq_of_not_accept (hnew : (s.hte.sessions.find? fun x => !x.initiator && x.comm == comm && sessLive s x.id) = none)
    (haccept : flag s F.HTE_CTRL_ACCEPT = false) :
    exec (.cmReq (serviceId 0) comm 4096 0xFFFF timeout retry rnr) s = .next (emit s (.cm 3 0xFFFFFFFF 1 [])) := by
  show execCmReq (serviceId 0) comm 4096 0xFFFF timeout retry rnr s = _
  simp only [execCmReq, whileCore_run hlive, hnew, haccept, ne_eq, not_true_eq_false, Bool.false_eq_true, or_self, false_and, if_true, if_false]

theorem exec_cmRtu_of_connected (hstate : sessState s session = 1) :
    exec (.cmRtu session) s = .next (modSess s session fun x => { x with ready := true }) := by
  show execCmRtu session s = _
  simp only [execCmRtu, whileCore_run hlive, hstate, if_true]

theorem exec_cmDreq_of_live (hopen : sessLive s session = true) :
    exec (.cmDreq session) s = .next (sessClose (emit s (.cm 5 session 0 [])) session 1) := by
  show execCmDreq session s = _
  simp only [execCmDreq, whileCore_run hlive, hopen, if_true]

theorem exec_handshakeTimerExpiry_of_connected {t : Nat} (htimer : (sessRec s session).bind Sess.handshakeAt = some t)
    (hstate : sessState s session = 1) : exec (.handshakeTimerExpiry session) s = .next (sessDrop (reach s t) session 3) := by
  show execHandshakeTimerExpiry session s = _
  simp only [execHandshakeTimerExpiry, whileCore_run hlive, htimer, hstate, true_or, if_true]

end Connection

/-! ### Session opcodes (R56 to R58, R79 to R82) -/

section SessionOpcodes

variable {s : State} {cmd : Nat} {c : Cmd}

theorem exec_nop_of_turn (h : CmdTurn s cmd 0x06 c) : exec (.nop cmd) s = .next (answer s { c with started := true } ST.ok 0 0) := by
  show execNop cmd s = _
  exact onCmd_run h

theorem exec_close_of_turn (h : CmdTurn s cmd 0x03 c) :
    exec (.close cmd) s = .next (sessDrop (answer s { c with started := true } ST.ok 0 0) c.session 0) := by
  show execClose cmd s = _
  exact onCmd_run h

theorem exec_open_of_connected (h : CmdTurn s cmd 0x01 c) (hstate : sessState s c.session = 1) (hasked : capP0 c.capsule / 65536 = 0) :
    exec (.open cmd) s =
      (let n := freshBytes s 32
       let u := sessPut (sessPut (sessPut n.2 c.session 66 2 (capP0 c.capsule % 65536)) c.session 68 2 1024) c.session 64 1 2
       let u := memWrite u (sessBase + 128 * c.session + 88) n.1
       let u := modSess u c.session fun x => { x with nonce := (capInline c.capsule).take 32 }
       .next (answerInline u { c with started := true } Config.hull (c.session + 65536 * 1024 + 2 ^ 32) n.1)) := by
  show execOpen cmd s = _
  simp only [execOpen, onCmd_run h, hstate, hasked, ne_eq, not_true_eq_false, if_true, if_false]

theorem exec_resultRelease_of_ended {d : Cmd} (h : CmdTurn s cmd 0x05 c) (hhandle : handleCmd s c.session (capP0 c.capsule) = some d)
    (hended : d.ended = true) : exec (.resultRelease cmd) s = .next (answer (endCmd s d) { c with started := true } ST.ok 0 0) := by
  show execResultRelease cmd s = _
  simp only [execResultRelease, onCmd_run h, hhandle, hended, if_true]
  rfl

theorem exec_resultFetch_of_result {d : Cmd} {m : Bytes} (h : CmdTurn s cmd 0x04 c) (hhandle : handleCmd s c.session (capP0 c.capsule) = some d)
    (hresult : d.result = some m) : exec (.resultFetch cmd) s =
      .next (finish (putCmd s { d with fetched := true }) { c with started := true }
        (slice c.capsule 8 8 ++ slice m 8 3 ++ le 1 (fld m 11 1 % 2 + 2 * b2n d.fetched + 4) ++ m.drop 12)) := by
  show execResultFetch cmd s = _
  simp only [execResultFetch, onCmd_run h, hhandle, hresult]

/-- The right proof of the tenant that OPEN named makes the session AUTHENTICATED. -/
theorem exec_auth_of_proof {t : Tenant} (h : CmdTurn s cmd 0x02 c) (hstate : sessState s c.session = 2)
    (htenant : tenantOf s (sessAt s c.session 66 2) = some t)
    (hproof : (capInline c.capsule).take 48 = sessionProof t.secret labelSessH (((sessRec s c.session).map Sess.nonce).getD [])
      (memRead s (sessBase + 128 * c.session + 88) 32) c.session (sessAt s c.session 66 2)) :
    exec (.auth cmd) s = .next (answerInline (accessSync (modSess (sessPut (sessPut s c.session 64 1 3) c.session 80 4 (sessAt s c.session 66 2)) c.session
        fun x => { x with handshakeAt := none })) { c with started := true } 0 0 (sessionProof t.secret labelSessD
        (((sessRec s c.session).map Sess.nonce).getD []) (memRead s (sessBase + 128 * c.session + 88) 32) c.session (sessAt s c.session 66 2))) := by
  show execAuth cmd s = _
  simp only [execAuth, onCmd_run h, hstate, htenant, hproof, beq_self_eq_true, Option.map_some, Option.getD_some, ne_eq, not_true_eq_false, if_true,
    if_false]

end SessionOpcodes

/-! ### Capsules (R62, R66, R72, R76, R85, R306) -/

/-- What a reply repeats of the capsule it answers. -/
def repliedCapsule (message : Bytes) : Bytes := if message.length < 16 then fit (message.take 8) 16 else message.take 4416

theorem routeCmd_of_fast {v w : State} {c : Cmd} {a : Nat} (hpath : handReason v c.capsule = (w, 0, a)) (hfirst : orderedWaits w c = false) :
    routeCmd v c = readMore 16 w c.index := by
  simp only [routeCmd, hpath, hfirst, if_true, Bool.false_eq_true, if_false]

theorem routeCmd_of_ordered {v w : State} {c : Cmd} {a : Nat} (hpath : handReason v c.capsule = (w, 0, a)) (hbehind : orderedWaits w c = true) :
    routeCmd v c = w := by
  simp only [routeCmd, hpath, hbehind, if_true]

theorem routeCmd_of_handed {v w : State} {c : Cmd} {r a : Nat} (hpath : handReason v c.capsule = (w, r, a)) (hreason : r ≠ 0)
    (hposted : entryHeld (handOn w c r a 0) c = false) : routeCmd v c = takeUp (handOn w c r a 0) c.index := by
  simp only [routeCmd, hpath, hreason, hposted, if_false, Bool.false_eq_true]

theorem exec_capsule_of_held {s : State} {session : Nat} {message : Bytes} (hlive : coreLive s = true) (htakes : takesCapsules s session = true)
    (hheld : flag s F.HTE_SESS_HOLD_HELD = true) (hname : getF s F.HTE_SESS_HOLD_SESSION = session) :
    exec (.capsule session message) s = .next (emit s (.roce session 1)) := by
  show execCapsule session message s = _
  simp only [execCapsule, whileCore_run hlive, htakes, hheld, hname, beq_self_eq_true, Bool.and_self, Bool.not_true, Bool.false_eq_true, if_true,
    if_false]

section Capsules

variable {s u v : State} {session : Nat} {message : Bytes} {c : Cmd} (hlive : coreLive s = true) (htakes : takesCapsules s session = true)
  (hfree : flag s F.HTE_SESS_HOLD_HELD = false) (hrules : accessClash s session message = false)

include hlive htakes hfree hrules

theorem exec_capsule_of_refused {st r0 r1 : Nat} (hcheck : capsuleChecks s session message = (u, some (st, r0, r1, none))) :
    exec (.capsule session message) s = .next (refuse u session (replyBytes (repliedCapsule message) st 0 0 r0 r1 [])) := by
  show execCapsule session message s = _
  simp only [execCapsule, whileCore_run hlive, htakes, hfree, hrules, hcheck, repliedCapsule, Bool.not_true, Bool.false_and, Bool.and_false,
    Bool.false_eq_true, if_false]

theorem exec_capsule_of_redirected {st r0 r1 y : Nat} (hcheck : capsuleChecks s session message = (u, some (st, r0, r1, some y))) :
    exec (.capsule session message) s = .next (refuse u session (redirectBytes u (repliedCapsule message) y)) := by
  show execCapsule session message s = _
  simp only [execCapsule, whileCore_run hlive, htakes, hfree, hrules, hcheck, repliedCapsule, Bool.not_true, Bool.false_and, Bool.and_false,
    Bool.false_eq_true, if_false]

theorem exec_capsule_of_noSlot (hcheck : capsuleChecks s session message = (u, none)) (hslot : acceptCmd u session message = (v, none)) :
    exec (.capsule session message) s = .next v := by
  show execCapsule session message s = _
  simp only [execCapsule, whileCore_run hlive, htakes, hfree, hrules, hcheck, hslot, Bool.not_true, Bool.false_and, Bool.and_false,
    Bool.false_eq_true, if_false]

/-- A capsule that passes its checks is held in its slot while a swap runs and it needs the rig, and goes on otherwise. -/
theorem exec_capsule_of_accepted (hcheck : capsuleChecks s session message = (u, none)) (hslot : acceptCmd u session message = (v, some c)) :
    exec (.capsule session message) s =
      .next (if flag v F.RIG_STATUS_SWAPPING && needsRig message then putCmd v { c with reason := heldForSwap } else routeCmd v c) := by
  show execCapsule session message s = _
  simp only [execCapsule, whileCore_run hlive, htakes, hfree, hrules, hcheck, hslot, Bool.not_true, Bool.false_and, Bool.and_false,
    Bool.false_eq_true, if_false]
  split <;> rfl

theorem exec_capsule_of_swapHeld (hcheck : capsuleChecks s session message = (u, none)) (hslot : acceptCmd u session message = (v, some c))
    (hswap : (flag v F.RIG_STATUS_SWAPPING && needsRig message) = true) :
    exec (.capsule session message) s = .next (putCmd v { c with reason := heldForSwap }) := by
  rw [exec_capsule_of_accepted hlive htakes hfree hrules hcheck hslot, if_pos hswap]

theorem exec_capsule_of_routed (hcheck : capsuleChecks s session message = (u, none)) (hslot : acceptCmd u session message = (v, some c))
    (hswap : (flag v F.RIG_STATUS_SWAPPING && needsRig message) = false) : exec (.capsule session message) s = .next (routeCmd v c) := by
  rw [exec_capsule_of_accepted hlive htakes hfree hrules hcheck hslot, hswap, if_neg Bool.false_ne_true]

/-- A capsule taken under access rules as R471 asks completes, and the first check that fails draws its reply. -/
theorem exec_capsule_completes : Completes (.capsule session message) s fun t =>
    (∀ st r0 r1 u, capsuleChecks s session message = (u, some (st, r0, r1, none)) →
      t = refuse u session (replyBytes (repliedCapsule message) st 0 0 r0 r1 [])) ∧
    (∀ st r0 r1 y u, capsuleChecks s session message = (u, some (st, r0, r1, some y)) →
      t = refuse u session (redirectBytes u (repliedCapsule message) y)) := by
  rcases hcheck : capsuleChecks s session message with ⟨u, _ | ⟨st, r0, r1, _ | y⟩⟩
  case none =>
    rcases hslot : acceptCmd u session message with ⟨v, _ | c⟩
    · exact ⟨_, exec_capsule_of_noSlot hlive htakes hfree hrules hcheck hslot, by simp⟩
    · exact ⟨_, exec_capsule_of_accepted hlive htakes hfree hrules hcheck hslot, by simp⟩
  case some.none => exact ⟨_, exec_capsule_of_refused hlive htakes hfree hrules hcheck, by rintro _ _ _ _ ⟨⟩; rfl, by simp⟩
  case some.some => exact ⟨_, exec_capsule_of_redirected hlive htakes hfree hrules hcheck, by simp, by rintro _ _ _ _ _ ⟨⟩; rfl⟩

end Capsules

/-- With no entry held, room in the exception queue changes nothing. -/
theorem exec_excQueueRoom_of_none {s : State} (hlive : coreLive s = true) (hnone : s.hte.excHeld = []) : exec .excQueueRoom s = .next s := by
  have hdrain : excDrain [] s = s := by simp only [excDrain, ← hnone]
  show execExcQueueRoom s = _
  simp only [execExcQueueRoom, whileCore_run hlive, hnone, hdrain, List.take_nil, List.foldl_nil]

theorem exec_excQueueRoom_of_live {s : State} (hlive : coreLive s = true) : exec .excQueueRoom s =
    .next ((s.hte.excHeld.take (s.hte.excHeld.length - (excDrain s.hte.excHeld s).hte.excHeld.length)).foldl
      (fun s e => if fld e 0 1 = 0x70 then takeUp s (fld e 8 4 % 2 ^ 18) else s) (excDrain s.hte.excHeld s)) := by
  show execExcQueueRoom s = _
  exact whileCore_run hlive

/-- The response of a command's oldest RDMA READ is appended to its value and staged, and more of its session's values are asked for. -/
theorem exec_rdmaReadResponse_of_command {s u : State} {session user at_ : Nat} {x : Sess} {data : Bytes} {rest : List (Nat × Nat × Nat)} {c : Cmd}
    (hlive : coreLive s = true) (hrec : sessRec s session = some x) (hreads : x.reads = (user, at_, data.length) :: rest) (huser : user < 2 ^ 20)
    (hcmd : cmdOf (putSess s { x with reads := rest }) user = some c)
    (hu : u = storeAs (putCmd (putSess s { x with reads := rest }) { c with value := c.value ++ data }) 4 (stagingSlot user) data) :
    exec (.rdmaReadResponse session data) s =
      .next (((u.hte.cmds.filter fun c => c.session == session && decide (c.asked > 0) && c.reply.isNone).map Cmd.index).foldl
        (fun s i => readMore 16 s i) u) := by
  subst hu
  show execRdmaReadResponse session data s = _
  simp only [execRdmaReadResponse, whileCore_run hlive, hrec, hreads, hcmd, ge_iff_le, Nat.not_le.2 huser, ne_eq, not_true_eq_false, if_false]

/-! ### Entries of crew firmware (R89 to R91) -/

section HteEntries

variable {s u : State} {queue : Nat} {t : Taken} {c : Cmd} (hlive : coreLive s = true)

include hlive

theorem exec_hteReply_of_silent (hentry : hteEntry s queue 0x73 = some t) (hfields : hteReserved t.bytes = false)
    (hsilent : bitAt (fld t.bytes 32 1) 1 = true) (hlen : fld t.bytes 12 4 = 0) (hcmd : cmdById s (fld t.bytes 8 4) = some c)
    (hopen : sessLive s c.session = true) : exec (.hteReply queue) s = .next (hteDone (endCmd s c) t 0) := by
  show execHteReply queue s = _
  simp only [execHteReply, whileCore_run hlive, hentry, hfields, hsilent, hlen, hcmd, hopen, bne_self_eq_false, Bool.not_true, Bool.and_false,
    Bool.false_and, Bool.or_self, Bool.false_eq_true, if_true, if_false]

theorem exec_hteRdmaRead_of_checked {x : Sess} (hentry : hteEntry s queue 0x74 = some t) (hcheck : rdmaCheck s t = .ok c)
    (hrec : sessRec s c.session = some x) (hroom : x.reads.length < 16) : exec (.hteRdmaRead queue) s =
      .next (putSess (emit s (.rdmaRead c.session ((fld c.capsule 24 8 + fld t.bytes 32 8) % 2 ^ 64) (fld c.capsule 20 4)
        (fld t.bytes 12 4))) { x with reads := x.reads ++ [(2 ^ 20 + t.queue, t.index, fld t.bytes 12 4)] }) := by
  show execHteRdmaRead queue s = _
  simp only [execHteRdmaRead, whileCore_run hlive, hentry, hcheck, hrec, ge_iff_le, Nat.not_le.2 hroom, if_false]

theorem exec_hteRdmaWrite_of_checked {d : Bytes} (hentry : hteEntry s queue 0x75 = some t) (hcheck : rdmaCheck s t = .ok c)
    (hread : fabRead s 4 (fld t.bytes 16 8) (fld t.bytes 12 4) = (u, some d)) : exec (.hteRdmaWrite queue) s =
      .next (hteDone (emit u (.rdmaWrite c.session ((fld c.capsule 24 8 + fld t.bytes 32 8) % 2 ^ 64) (fld c.capsule 20 4) d)) t 0) := by
  show execHteRdmaWrite queue s = _
  simp only [execHteRdmaWrite, whileCore_run hlive, hentry, hcheck, hread]

theorem exec_hteSend_of_peer {m : Bytes} (hentry : hteEntry s queue 0x76 = some t) (hfields : hteReserved t.bytes = false)
    (hmin : 64 ≤ fld t.bytes 12 4) (hmax : fld t.bytes 12 4 ≤ 65624) (hopen : sessLive s (fld t.bytes 8 2) = true)
    (hkind : sessKind s (fld t.bytes 8 2) = 1) (hread : fabRead s 3 (fld t.bytes 16 8) (fld t.bytes 12 4) = (u, some m)) :
    exec (.hteSend queue) s = .next (hteDone (emit u (.peer (fld t.bytes 8 2) m)) t 0) := by
  show execHteSend queue s = _
  simp only [execHteSend, whileCore_run hlive, hentry, hfields, hopen, hkind, hread, decide_eq_false (Nat.not_lt.2 hmin), gt_iff_lt,
    decide_eq_false (Nat.not_lt.2 hmax), Bool.not_true, Bool.or_self, Bool.false_eq_true, ne_eq, not_true_eq_false, if_false]

theorem exec_hteRxPost_of_fields (hentry : hteEntry s queue 0x77 = some t) (hfields : hteReserved t.bytes = false)
    (hmin : 1024 ≤ fld t.bytes 12 4) (hmax : fld t.bytes 12 4 ≤ 65664) (hlen : fld t.bytes 12 4 % 64 = 0) (haddr : fld t.bytes 16 8 % 64 = 0) :
    exec (.hteRxPost queue) s =
      .next (hteDone { s with hte := { s.hte with rxBufs := s.hte.rxBufs ++ [(fld t.bytes 16 8, fld t.bytes 12 4)] } } t 0) := by
  show execHteRxPost queue s = _
  simp only [execHteRxPost, whileCore_run hlive, hentry, hfields, hlen, haddr, decide_eq_false (Nat.not_lt.2 hmin), gt_iff_lt,
    decide_eq_false (Nat.not_lt.2 hmax), bne_self_eq_false, Bool.or_self, Bool.false_eq_true, if_false]

theorem exec_hteClose_of_used (hentry : hteEntry s queue 0x78 = some t) (hfields : hteReserved t.bytes = false)
    (hused : sessState s (fld t.bytes 8 2) ≠ 0) (hopen : sessState s (fld t.bytes 8 2) ≠ 4) :
    exec (.hteClose queue) s = .next (hteDone (sessDrop s (fld t.bytes 8 2) 5) t 0) := by
  show execHteClose queue s = _
  simp only [execHteClose, whileCore_run hlive, hentry, hfields, beq_false_of_ne hused, hopen, Bool.or_self, Bool.false_eq_true, if_false]

end HteEntries

/-! ### HTE_SESS_HOLD (R84) -/

theorem domainOn_core_of_coreLive (h : coreLive s = true) : domainOn s .core = true := by
  simp only [coreLive, Bool.and_eq_true] at h
  exact h.1.1.1

@[simp] theorem getF_coreActs (s : State) (core : Nat) (f : Fld) : getF (coreActs s core) f = getF s f := rfl

@[simp] theorem flag_coreActs (s : State) (core : Nat) (f : Fld) : flag (coreActs s core) f = flag s f := rfl

section SessHold

variable {s : State} {core value : Nat}

/-- A running core's store to HTE_SESS_HOLD, a register of CORE, has its turn. -/
theorem storeTurn_sessHold (hon : coreOn s core = true) : StoreTurn s core F.HTE_SESS_HOLD_REQ.addr (coreActs s core) :=
  ⟨hon, domainOn_core_of_coreLive (coreLive_of_coreOn hon), rfl⟩

variable (hon : coreOn s core = true) (hfields : bits value 16 14 = 0)

include hon hfields

theorem exec_hteSessHoldWrite_of_taken
    (htaken : flag s F.HTE_SESS_HOLD_REQ = false ∨ bitAt value 31 = false ∨ getF s F.HTE_SESS_HOLD_SESSION = value % 65536) :
    exec (.hteSessHoldWrite core value) s = .next (setF (setF (setF (coreActs s core) F.HTE_SESS_HOLD_REQ (bits value 31 1)) F.HTE_SESS_HOLD_HELD
      (bits value 31 1)) F.HTE_SESS_HOLD_SESSION value) := by
  have hname : (flag s F.HTE_SESS_HOLD_REQ && bitAt value 31 && getF s F.HTE_SESS_HOLD_SESSION != value % 65536) = false := by
    rcases htaken with h | h | h <;> simp [h]
  show execHteSessHoldWrite core value s = _
  simp only [execHteSessHoldWrite, coreStore_run (storeTurn_sessHold hon), flag_coreActs, getF_coreActs, hfields, hname, ne_eq, not_true_eq_false,
    Bool.false_eq_true, if_false]

theorem exec_hteSessHoldWrite_of_ignored (hreq : flag s F.HTE_SESS_HOLD_REQ = true) (hkeep : bitAt value 31 = true)
    (hother : getF s F.HTE_SESS_HOLD_SESSION ≠ value % 65536) : exec (.hteSessHoldWrite core value) s = .next (coreActs s core) := by
  show execHteSessHoldWrite core value s = _
  simp only [execHteSessHoldWrite, coreStore_run (storeTurn_sessHold hon), flag_coreActs, getF_coreActs, hfields, hreq, hkeep, bne_iff_ne.2 hother,
    Bool.and_self, ne_eq, not_true_eq_false, if_true, if_false]

end SessHold

/-! ### Peer sessions (R198 to R201, R205, R89) -/

section PeerSessions

variable {s u : State} {hull kind id session : Nat} {x : Sess} {b message : Bytes}

theorem exec_peerSessionOpen_of_wanted (hlive : coreLive s = true)
    (hwanted : (if kind = 1 then (groupHulls s).contains hull else kind == 2 && (chanWith s hull).isSome) = true) (hlower : Config.hull < hull)
    (hnone : anySession s kind hull = none)
    (hidle : (s.hte.sessions.any fun x => x.initiator && sessState s x.id == 0 && sessKind s x.id == kind && sessHull s x.id == hull) = false)
    (hfree : freeSession s = some id) : exec (.peerSessionOpen hull kind) s =
      (let v := putSess s (newSess id s.hte.nextOrder true)
       let v := { v with hte := { v.hte with nextOrder := v.hte.nextOrder + 1 } }
       .next (emit (sessPut (sessPut v id 65 1 kind) id 72 8 hull) (.cm 0 id (serviceId kind) []))) := by
  show execPeerSessionOpen hull kind s = _
  simp only [execPeerSessionOpen, whileCore_run hlive, hwanted, decide_eq_true hlower, hnone, hidle, hfree, Option.isSome_none, Bool.not_true,
    Bool.or_self, Bool.false_eq_true, if_false]

theorem exec_cmRep_of_rep (hlive : coreLive s = true) (hrec : sessRec s session = some x) (hown : x.initiator = true)
    (hstate : sessState s session = 0) :
    exec (.cmRep session 1) s = .next (sendHello (emit (sessConnect s x (sessKind s session) true) (.cm 2 session 0 [])) session) := by
  show execCmRep session 1 s = _
  simp only [execCmRep, whileCore_run hlive, hrec, hown, hstate, bne_self_eq_false, Bool.not_true, Bool.or_self, Bool.false_eq_true, if_true, if_false]

theorem exec_cmRep_of_rej (hlive : coreLive s = true) (hrec : sessRec s session = some x) (hown : x.initiator = true)
    (hstate : sessState s session = 0) : exec (.cmRep session 0) s =
      (let v := memWrite s (sessBase + 128 * session) (zeros 128)
       .next { v with hte := { v.hte with sessions := v.hte.sessions.filter fun y => y.id != session } }) := by
  show execCmRep session 0 s = _
  simp only [execCmRep, whileCore_run hlive, hrec, hown, hstate, bne_self_eq_false, Bool.not_true, Bool.or_self, Bool.false_eq_true, Nat.zero_ne_one,
    if_false]

theorem exec_hello_of_request {e : Nat × Bytes × State} {n : Bytes × State} (hturn : PeerTurn s 0x80 id b u) (hrec : sessRec u id = some x)
    (hstate : sessState u id = 1) (hrole : x.initiator = false) (hrequest : bitAt (fld b 1 1) 0 = false) (hkey : u.cox.dropped = false)
    (hgood : helloGood u (peerBody b) [] true = true) (he : e = coxEph u) (hn : n = freshBytes e.2.2 32) : exec .hello s =
      .next (sessPut (takePeerKey (peerReply (modSess n.2 id fun y => { y with nonce := n.1, ephCtx := e.1, ephPub := e.2.1 }) id b ST.ok 0 0
        (helloBody n.2 false n.1 e.2.1 (peerBody b))) id e.1 (peerBody b) n.1 false) id 64 1 2) := by
  subst hn he
  show execHello s = _
  simp only [execHello, onPeer_run hturn, hrec, hstate, hrole, hrequest, hkey, hgood, ne_eq, not_true_eq_false, or_self, Bool.false_eq_true, if_true,
    if_false]

theorem exec_hello_of_reply (hturn : PeerTurn s 0x80 id b u) (hrec : sessRec u id = some x) (hstate : sessState u id = 1)
    (hrole : x.initiator = true) (hreply : bitAt (fld b 1 1) 0 = true) (hok : fld b 2 2 = 0)
    (hgood : helloGood u (peerBody b) (zeros 24 ++ x.nonce ++ x.ephPub) false = true) (hkind : sessKind u id = 1) : exec .hello s =
      .next (sessionUp (modSess (sessPut (takePeerKey u id x.ephCtx (peerBody b) x.nonce true) id 64 1 3) id fun y => { y with handshakeAt := none })
        (fld (peerBody b) 0 8)) := by
  show execHello s = _
  simp only [execHello, onPeer_run hturn, hrec, hstate, hrole, hreply, hok, hgood, hkind, ne_eq, not_true_eq_false, or_self, decide_true, Bool.and_self,
    if_true, if_false]

theorem exec_peerReplyReceived_of_reply (hlive : coreLive s = true) (hcarries : carriesPeer s session = true) (hstate : sessState s session = 3)
    (hreply : bitAt (fld message 1 1) 0 = true) (hop : fld message 0 1 ≠ 0x80) :
    exec (.peerReplyReceived session message) s = .next (peerReplyIn s session message) := by
  show execPeerReplyReceived session message s = _
  simp only [execPeerReplyReceived, whileCore_run hlive, hcarries, hstate, hreply, bne_iff_ne.2 hop, beq_self_eq_true, Bool.and_self, if_true]

/-- A well-formed request with a good MAC, within the outstanding limit and past the engine's checks of a fragment, is delivered. -/
theorem exec_peerMessage_of_request (hlive : coreLive s = true) (hkind : sessKind s session ≠ 2) (hcarries : carriesPeer s session = true)
    (hfree : (flag s F.HTE_SESS_HOLD_HELD && getF s F.HTE_SESS_HOLD_SESSION == session) = false) (hrequest : bitAt (fld message 1 1) 0 = false)
    (hform : peerFormOk message = true) (hop : peerAssigned (fld message 0 1) = true)
    (hseal : peerControl (fld message 0 1) = true → ((sessRec s session).any fun x => peerSealOk x message) = true)
    (hstate : sessState s session = 3)
    (hroom : fld message 0 1 ≠ 0x86 → (s.hte.peerIn.filter fun p => p.1 == session).length +
      (s.kv.changes.filter fun c => c.kind == 1 && c.owner == session).length < 1024)
    (hfrag : fld message 0 1 = 0x81 ∨ fld message 0 1 = 0x93 → fragCheck3 s message (fld message 0 1 == 0x93) = none) :
    exec (.peerMessage session message) s = .next (peerDeliver s session message) := by
  have hsealed : (peerControl (fld message 0 1) && !((sessRec s session).any fun x => peerSealOk x message)) = false := by
    cases hc : peerControl (fld message 0 1) with
    | false => rfl
    | true => rw [hseal hc]; rfl
  have hlimit : ¬ (fld message 0 1 ≠ 0x86 ∧ (s.hte.peerIn.filter fun p => p.1 == session).length +
      (s.kv.changes.filter fun c => c.kind == 1 && c.owner == session).length ≥ 1024) := fun ⟨hne, hfull⟩ => Nat.not_le.2 (hroom hne) hfull
  have hchecked : (if fld message 0 1 = 0x81 ∨ fld message 0 1 = 0x93 then fragCheck3 s message (fld message 0 1 == 0x93) else none) = none := by
    split
    · next h => exact hfrag h
    · rfl
  show execPeerMessage session message s = _
  simp only [execPeerMessage, whileCore_run hlive, beq_false_of_ne hkind, hcarries, hfree, hrequest, hform, hop, hsealed, hstate, hlimit, hchecked,
    Bool.and_false, Bool.false_and, Bool.not_true, Bool.false_eq_true, ne_eq, not_true_eq_false, false_and, if_false]

end PeerSessions

end Sys2Proof.Machine

section Settled

open Sys2Proof Sys2Proof.Machine

/-- Settles O12, by the rows of packets, CNPs and timers on a session that is not FREE. -/
theorem sessionTransportCompletes : Obligations.SessionTransportCompletes := by
  unfold Obligations.SessionTransportCompletes
  intro s session x hlive hrec hused
  have hack : (0x11 : Nat) ∈ roceReceived := by decide
  refine ⟨?good, ?rnr, ?rnrExhausted, ?unsupported, ?marked, ?badIcrc, ?cnp, ?recovery, ?retry, ?rnrOver, ?exhausted, ?errorNak⟩
  case good =>
    intro op hop
    simp only [exec_rocePacketReceived_of_received hlive hrec hused hop, Nat.reduceBEq, Bool.and_false, takeAck_of_ack]
  case rnr =>
    intro hleft
    rw [exec_rocePacketReceived_of_received hlive hrec hused hack]
    exact congrArg _ (takeAck_of_rnr hleft)
  case rnrExhausted =>
    intro hnone
    rw [exec_rocePacketReceived_of_received hlive hrec hused hack]
    exact congrArg _ (takeAck_of_rnr_exhausted hnone)
  case unsupported => exact fun op hop hatomic => exec_rocePacketReceived_of_unsupported hlive hrec hused hop hatomic
  case marked => exact fun op hop hfirst => exec_rocePacketReceived_of_marked hlive hrec hused hop hfirst
  case badIcrc => exact exec_rocePacketReceived_of_badIcrc hlive
  case cnp => exact exec_cnpReceived_of_first hlive hrec hused
  case recovery => exact exec_rateRecoveryExpiry_of_raised hlive hrec hused
  case retry => exact exec_localAckTimeout_of_retry hlive hrec
  case rnrOver => exact exec_localAckTimeout_of_rnrWait hlive hrec
  case exhausted => show execQpRetryExhausted session s = _; exact whileCore_run hlive
  case errorNak => show execRdmaErrorNak session s = _; exact whileCore_run hlive

/-- Settles O13, message by message of connection management. -/
theorem connectionCommandsComplete : Obligations.ConnectionCommandsComplete := by
  unfold Obligations.ConnectionCommandsComplete
  intro s comm id session hlive
  exact ⟨fun hnew haccept hlow hhigh hfree _ _ _ => exec_cmReq_of_accept hlive hnew haccept hlow hhigh hfree,
    fun hnew haccept _ _ _ => exec_cmReq_of_not_accept hlive hnew haccept, exec_cmRtu_of_connected hlive, exec_cmDreq_of_live hlive,
    fun _ => exec_handshakeTimerExpiry_of_connected hlive⟩

/-- Settles O14, opcode by opcode on the command whose turn has come. -/
theorem sessionOpcodesComplete : Obligations.SessionOpcodesComplete := by
  unfold Obligations.SessionOpcodesComplete
  intro s cmd c hlive hready
  have hturn : ∀ {op}, cmdWith s cmd op = some c → CmdTurn s cmd op c := fun hcmd => ⟨hlive, hcmd, hready⟩
  exact ⟨fun hcmd => exec_nop_of_turn (hturn hcmd), fun hcmd => exec_close_of_turn (hturn hcmd), fun hcmd => exec_open_of_connected (hturn hcmd),
    fun _ hcmd => exec_resultRelease_of_ended (hturn hcmd), fun _ _ hcmd => exec_resultFetch_of_result (hturn hcmd),
    fun _ hcmd => exec_auth_of_proof (hturn hcmd)⟩

/-- Settles O15: what the checks of a capsule answer decides whether it is refused or accepted, and the path of one accepted whether it is held, begun or
handed on. -/
theorem capsulesAndHoldsComplete : Obligations.CapsulesAndHoldsComplete := by
  unfold Obligations.CapsulesAndHoldsComplete
  intro s session x message hlive hrec
  refine ⟨exec_capsule_completes hlive, ?accepted, exec_capsule_of_held hlive, exec_excQueueRoom_of_none hlive, ?drained, ?response⟩
  case accepted =>
    intro u v c htakes hfree hrules hcheck hslot
    have hroutes := exec_capsule_of_routed hlive htakes hfree hrules hcheck hslot
    refine ⟨?begun, ?ordered, ?handed, exec_capsule_of_swapHeld hlive htakes hfree hrules hcheck hslot⟩
    case begun => intro w a hswap hpath hfirst; rw [hroutes hswap, routeCmd_of_fast hpath hfirst]
    case ordered => intro w a hswap hpath hbehind; rw [hroutes hswap, routeCmd_of_ordered hpath hbehind]
    case handed => intro w r a hswap hpath hreason hposted; rw [hroutes hswap, routeCmd_of_handed hpath hreason hposted]
  case drained => rintro u rfl; exact exec_excQueueRoom_of_live hlive
  case response => exact fun user at_ rest c hreads huser hcmd u hu => exec_rdmaReadResponse_of_command hlive hrec hreads huser hcmd hu

/-- Settles O16, entry by entry. -/
theorem hteEntriesComplete : Obligations.HteEntriesComplete := by
  unfold Obligations.HteEntriesComplete
  intro s queue t hlive hfields
  exact ⟨fun _ hentry => exec_hteReply_of_silent hlive hentry hfields, fun _ _ => exec_hteRdmaRead_of_checked hlive,
    fun _ _ _ => exec_hteRdmaWrite_of_checked hlive, fun _ _ hentry => exec_hteSend_of_peer hlive hentry hfields,
    fun hentry => exec_hteRxPost_of_fields hlive hentry hfields, fun hentry => exec_hteClose_of_used hlive hentry hfields⟩

/-- Settles O17: HTE_SESS_HOLD stands in CORE, which is on where a core runs, so the store acts. -/
theorem sessionHoldWriteCompletes : Obligations.SessionHoldWriteCompletes := by
  unfold Obligations.SessionHoldWriteCompletes
  intro s core value hon hfields
  exact ⟨exec_hteSessHoldWrite_of_taken hon hfields, exec_hteSessHoldWrite_of_ignored hon hfields⟩

/-- Settles O32, by the rows of CM REQ, REP, HELLO and peer messages. -/
theorem peerSessionsComplete : Obligations.PeerSessionsComplete := by
  unfold Obligations.PeerSessionsComplete
  intro s u hull kind id session b message hlive
  refine ⟨exec_peerSessionOpen_of_wanted hlive, ?rep, ?helloRequest, ?helloReply, exec_peerReplyReceived_of_reply hlive, exec_peerMessage_of_request hlive⟩
  case rep =>
    exact fun x hrec hown hstate => ⟨exec_cmRep_of_rep hlive hrec hown hstate, exec_cmRep_of_rej hlive hrec hown hstate⟩
  case helloRequest => exact fun x e n => exec_hello_of_request
  case helloReply => exact fun x => exec_hello_of_reply

end Settled
end

section
/-! PROOFS. What the family "key-value commands" states: reads of keys, LIST, LIFE and STAT, values stored, versions removed, holds, administrative
changes and their records, clocks, and crew firmware's work on buckets, open stripes and reads. -/

namespace Sys2Proof.Machine

/-! ### Turns -/

theorem CmdTurn.cmdWith_eq {s : State} {cmd op : Nat} {c : Cmd} (h : CmdTurn s cmd op c) : cmdWith s cmd op = some c := by
  obtain ⟨_, hcmd, _⟩ := h
  exact hcmd

theorem KeyTurn.cmdWith_eq {s : State} {cmd op : Nat} {c : Cmd} {p : KeyPlace} (h : KeyTurn s cmd op c p) : cmdWith s cmd op = some c := by
  obtain ⟨_, hcmd, _⟩ := h
  exact hcmd

theorem ChangeTurn.cmdWith_eq {s u : State} {cmd op : Nat} {c : Cmd} {p : KeyPlace} {b : Bytes} (h : ChangeTurn s cmd op c p b u) :
    cmdWith s cmd op = some c := by
  obtain ⟨hturn, _⟩ := h
  exact hturn.cmdWith_eq

/-! ### Reads of a stored key (R113 to R115, R129, R130) -/

/-- A read whose key is the one asked for goes on with the bytes. -/
theorem objectEnd_of_found {s : State} {c : Cmd} {group r1 : Nat} {e : Entry} {h : RecHdr} {bytes : Bytes} {dec : Bool}
    {reps : List (Nat × Nat × Bytes)} {ok : Bytes → Bool → List (Nat × Nat × Bytes) → Res} :
    objectEnd s c group e r1 (.found h (capKey c.capsule) bytes dec reps) ok = ok bytes dec reps :=
  if_pos rfl

/-- Where no version is asked for, or the entry's own, R107 finds no mismatch. -/
theorem not_version_mismatch {asked version : Nat} (h : asked = 0 ∨ asked = version) : ¬ (asked ≠ 0 ∧ asked ≠ version) := by
  omega

section KeyReads

variable {s u v : State} {cmd : Nat} {c : Cmd} {p : KeyPlace} {b : Bytes} {e : Entry} {h : RecHdr} {bytes : Bytes} {dec : Bool}
  {reps : List (Nat × Nat × Bytes)} (hbucket : bucketGet s p.slice p.bucket = some (b, u)) (hentry : entryOf b (capNsid c.capsule) p = some e)

include hbucket hentry

theorem exec_exists_of_entry (hturn : KeyTurn s cmd 0x13 c p) :
    exec (.exists cmd) s = .next (answer u { c with started := true } ST.ok e.version e.length) := by
  show execExists cmd s = _
  simp only [execExists, keyRow_run hturn, hbucket, hentry]

theorem exec_get_of_found {len : Nat} (hturn : KeyTurn s cmd 0x11 c p) (hversion : capP2 c.capsule = 0 ∨ capP2 c.capsule = e.version)
    (hoff : capP1 c.capsule ≤ e.length)
    (hlen : len = if capP0 c.capsule = 0 then e.length - capP1 c.capsule else min (capP0 c.capsule) (e.length - capP1 c.capsule))
    (hread : readObject u c.index (sliceGroup u p.slice) e p.hash (capP1 c.capsule) len = (v, .found h (capKey c.capsule) bytes dec reps))
    (hwhole : c.reason ≠ 0 ∨ missingMask v c.index (sliceGroup u p.slice) e (capP1 c.capsule) len = 0) :
    exec (.get cmd) s = .next (answerData (readDone v c.index (sliceGroup u p.slice) dec reps) { c with started := true }
      (readStatusCode dec) e.version e.length bytes) := by
  have hstays : ¬ (c.reason = 0 ∧ missingMask v c.index (sliceGroup u p.slice) e (capP1 c.capsule) len ≠ 0) := by
    rintro ⟨hfast, hmissing⟩; exact hwhole.elim (· hfast) hmissing
  subst hlen
  show execGet cmd s = _
  simp only [execGet, keyRow_run hturn, hbucket, hentry, not_version_mismatch hversion, Nat.not_lt.2 hoff, gt_iff_lt, hread, hstays, if_false]
  exact objectEnd_of_found

theorem exec_fixity_of_found (hturn : KeyTurn s cmd 0x19 c p) (hversion : capP2 c.capsule = 0 ∨ capP2 c.capsule = e.version)
    (hparity : capFlag c.capsule 5 = false)
    (hread : readObject u c.index (sliceGroup u p.slice) e p.hash 0 e.length = (v, .found h (capKey c.capsule) bytes dec reps)) :
    exec (.fixity cmd) s =
      .next (fixityReply (readDone v c.index (sliceGroup u p.slice) dec reps) { c with started := true } e bytes dec 0 0) := by
  show execFixity cmd s = _
  simp only [execFixity, keyRow_run hturn, hbucket, hentry, not_version_mismatch hversion, hread, hparity, Bool.false_and, if_false]
  exact objectEnd_of_found

/-- FIXITY of an object whose stripe is sealed compares its parity where that is asked for, and repairs what differs where the right unit is known. -/
theorem exec_fixity_of_parity {w : State} {x : GenSet} {l : List (Nat × Nat × Option Bytes)} (hturn : KeyTurn s cmd 0x19 c p)
    (hversion : capP2 c.capsule = 0 ∨ capP2 c.capsule = e.version) (hparity : capFlag c.capsule 5 = true)
    (hread : readObject u c.index (sliceGroup u p.slice) e p.hash 0 e.length = (v, .found h (capKey c.capsule) bytes dec reps))
    (hsealed : (u.pj.opens.any fun o => o.group == sliceGroup u p.slice && o.stripe == e.stripe) = false)
    (hset : genOf u (sliceGroup u p.slice) (genFor u (sliceGroup u p.slice) e.stripe) = some x)
    (hrun : parityRun c.index (sliceGroup u p.slice) (genFor u (sliceGroup u p.slice) e.stripe) x
      (runStripes e.stripe (if e.length ≤ 65072 then 1 else largeRun x.k e.length)) v = (w, .differ l)) :
    exec (.fixity cmd) s = .next (fixityReply (l.foldl (fun s r => match r.2.2 with
        | some y => replaceUnit s (sliceGroup u p.slice) (genFor u (sliceGroup u p.slice) e.stripe) r.1 (r.2.1, y)
        | none => s)
      (l.foldl (fun s _ => logCrew s EV.parityMismatch) (readDone w c.index (sliceGroup u p.slice) dec reps)))
      { c with started := true } e bytes dec 1 (b2n (!l.isEmpty))) := by
  show execFixity cmd s = _
  simp only [execFixity, keyRow_run hturn, hbucket, hentry, not_version_mismatch hversion, hread, if_false]
  refine objectEnd_of_found.trans ?_
  simp only [hparity, hsealed, hset, hrun, Bool.not_false, Bool.and_self] <;> rfl

theorem exec_stat_of_found (hturn : KeyTurn s cmd 0x1A c p) (hkeyed : capKeyLen c.capsule > 0) (hns : capNsid c.capsule ≠ 0)
    (hread : readObject u c.index (sliceGroup u p.slice) e p.hash 0 0 = (v, .found h (capKey c.capsule) bytes dec reps)) :
    exec (.stat cmd) s = .next (answerData (readDone v c.index (sliceGroup u p.slice) dec reps) { c with started := true } ST.ok 0 0
      (statObject v { c with started := true } b p e h.created h.user)) := by
  show execStat cmd s = _
  simp only [execStat, hturn.cmdWith_eq, hkeyed, hns, and_false, if_true, if_false, statKey, keyRow_run hturn, hbucket, hentry, hread]

end KeyReads

/-! ### LIST, LIFE, and STAT of a namespace or the device (R116 to R119, R130 to R132) -/

section Lists

variable {s u : State} {cmd : Nat} {c : Cmd}

/-- The next cursor of LIST (R118): the place at which the walk goes on and the view it was given at, all ones at the end. -/
def nextCursor (s : State) : Option (Nat × Nat) → Nat
  | some (x, k) => x + 2 ^ 16 * k + 2 ^ 48 * (s.kv.view % 65536)
  | none => 2 ^ 64 - 1

theorem exec_list_of_done {b : Bytes} {n : Nat} {next : Option (Nat × Nat)} (hturn : CmdTurn s cmd 0x15 c)
    (hwalk : listWalk { c with started := true } (max (if capFlag c.capsule 0 then 4096 else 0) (capBufLen c.capsule))
      (capFlag c.capsule 4 || prefixHeld s (capNsid c.capsule)) 4096 s
      (cursorAt s (capP1 c.capsule % 65536) (bits (capP1 c.capsule) 16 32)) [] 0 = (u, .done b n next)) :
    exec (.list cmd) s = .next (answerData (dropFetches u cmd)
      { c with started := true, asked := if c.asked = 0 then s.kv.view + 1 else c.asked } ST.ok
      (n + 2 ^ 32 * b2n next.isNone +
        2 ^ 33 * b2n ((if c.asked = 0 then s.kv.view + 1 else c.asked) != (dropFetches u cmd).kv.view + 1 ||
          (capP1 c.capsule != 0 && bits (capP1 c.capsule) 48 16 != (dropFetches u cmd).kv.view % 65536)))
      (nextCursor (dropFetches u cmd) next) b) := by
  show execList cmd s = _
  rcases next with _ | ⟨x, k⟩ <;> simp only [execList, onCmd_run hturn, hwalk, nextCursor]

theorem exec_life_of_turn (hturn : CmdTurn s cmd 0x1B c) : exec (.life cmd) s =
    .next (answer (lifeBytes s).2 { c with started := true } ST.ok (lifePercent s + 256 * b2n (s.pwr.dev == 5)) (lifeBytes s).1) := by
  show execLife cmd s = _
  exact onCmd_run hturn

theorem exec_stat_of_device (hturn : CmdTurn s cmd 0x1A c) (hkey : capKeyLen c.capsule = 0) (hns : capNsid c.capsule = 0) :
    exec (.stat cmd) s = .next (answerData (statDevice s).2 { c with started := true } ST.ok 0 0 (statDevice s).1) := by
  show execStat cmd s = _
  simp only [execStat, hturn.cmdWith_eq, hkey, gt_iff_lt, Nat.lt_irrefl, false_and, if_false, onCmd_run hturn, hns, if_true]

theorem exec_stat_of_namespace {x : Namespace} (hturn : CmdTurn s cmd 0x1A c) (hkey : capKeyLen c.capsule = 0) (hns : capNsid c.capsule ≠ 0)
    (hthere : nsOf s (capNsid c.capsule) = some x) :
    exec (.stat cmd) s = .next (answerData s { c with started := true } ST.ok 0 0 (statNs s x)) := by
  show execStat cmd s = _
  simp only [execStat, hturn.cmdWith_eq, hkey, gt_iff_lt, Nat.lt_irrefl, false_and, if_false, onCmd_run hturn, hns, hthere]

theorem exec_stat_of_zeroKey (hturn : CmdTurn s cmd 0x1A c) (hkey : 0 < capKeyLen c.capsule) (hns : capNsid c.capsule = 0) :
    exec (.stat cmd) s = .next (answer s { c with started := true } ST.notPermitted 0 0) := by
  show execStat cmd s = _
  simp only [execStat, hturn.cmdWith_eq, hkey, hns, and_self, if_true, onCmd_run hturn]

end Lists

/-! ### PUT and CAS (R109 to R112) -/

section Values

variable {s u : State} {cmd op : Nat} {c : Cmd} {p : KeyPlace} {b : Bytes}

/-- A PUT or CAS that nothing forbids stores its value as the next version of the slice. -/
theorem exec_putOrCas_of_allowed (h : ValueAllowed s cmd op c p b u) : exec (if op = 0x10 then .put cmd else .cas cmd) s =
    storeValue u { c with started := true } p (nextVersion u p.slice) := by
  obtain ⟨hturn, hop, hvalue, hfree, hgroup, hnew, hversion, hquota, hspace, hplace, hleft⟩ := h
  have hrow : exec (if op = 0x10 then .put cmd else .cas cmd) s = putRow cmd op s := by
    rcases hop with rfl | rfl <;> rfl
  have hvalue' : valueShort { c with started := true } = false := hvalue
  have hnotNew : ¬ (op = 0x10 ∧ capFlag c.capsule 4 = true ∧ (entryOf b (capNsid c.capsule) p).isSome = true) := by
    rintro ⟨hput, hflag, hold⟩; rw [hnew hput hflag] at hold; cases hold
  have hmatch : ¬ (op = 0x14 ∧ capP2 c.capsule ≠ ((entryOf b (capNsid c.capsule) p).map Entry.version).getD 0) :=
    fun ⟨hcas, hne⟩ => hne (hversion hcas)
  have hroom : ((entryOf b (capNsid c.capsule) p).isNone && decide (placesUsed u p b ≥ 512)) = false := by
    cases hnone : (entryOf b (capNsid c.capsule) p).isNone with
    | false => rfl
    | true => exact decide_eq_false (Nat.not_le.2 (hplace hnone))
  simp only [hrow, putRow, changeRow_run hturn, hvalue', hfree, hgroup, hnotNew, hmatch, hquota, hspace, hroom, gt_iff_lt, Nat.not_lt.2 hleft,
    Bool.false_eq_true, if_false]

theorem putRow_of_retained {expiry flags : Nat} (hturn : ChangeTurn s cmd op c p b u) (hvalue : valueShort c = false)
    (hheld : retainedBy u b (capNsid c.capsule) p (capKey c.capsule) = some (expiry, flags)) :
    putRow cmd op s = .next (answer u { c with started := true } ST.retained expiry flags) := by
  have hvalue' : valueShort { c with started := true } = false := hvalue
  simp only [putRow, changeRow_run hturn, hvalue', hheld, Bool.false_eq_true, if_false]

variable {t : State} {v : Nat}

/-- A value that one stripe unit can hold is packed with its header and key. -/
theorem storeValue_of_packed (hlen : (valueOf c).length ≤ 65072)
    (hpacked : Packed u c p (packedRecord (valueHeader u c p (valueOf c) v) (capKey c.capsule) (valueOf c))
      (fun stripe unit => changeBytes 1 0 p.slice p.bucket (entryBytes (entryAt (capNsid c.capsule) p stripe unit (valueOf c).length v))
        (entrySlotWord (entryAt (capNsid c.capsule) p stripe unit (valueOf c).length v)) 0 0 v)
      (replyBytes c.capsule ST.ok 0 0 v 0 []) (if asksAll u c then 2 else 3) id t) :
    storeValue u c p v = .next t :=
  (if_neg (Nat.not_lt.2 hlen)).trans (packCommand_run hpacked)

/-- A large value goes out under an intent of its own, with the serials of its run of stripes taken. -/
theorem putLarge_of_intent {h : RecHdr} {value : Bytes} {all : Bool} {g : Group} {x : GenSet} {key : Bytes} {serial : Nat} {v0 w y : State}
    {ch : Bytes} {stripe : Nat}
    (hgroup : groupRec u (sliceGroup u p.slice) = some g) (hset : writingSet u (sliceGroup u p.slice) = some x) (hkey : nsKey u h.nsid = some key)
    (hserials : takeSerials u g (largeRun x.k h.length) = some (serial, v0))
    (hcoded : w = if capFlag c.capsule 0 then v0 else codeUnits v0 [stagingSlot c.index]) (hstripe : stripe = stripeId g.seat serial)
    (hch : ch = stampChange w (changeBytes 1 0 p.slice p.bucket (entryBytes (entryAt h.nsid p stripe 0 h.length h.version))
      (entrySlotWord (entryAt h.nsid p stripe 0 h.length h.version)) 0 0 h.version))
    (hopen : openIntent (putCmd w { c with
        intent := some (sliceGroup u p.slice, stripe)
        reply := some (replyBytes c.capsule ST.ok 0 0 h.version 0 [])
        waits := if all then 2 else 1 })
      { newIntent (sliceGroup u p.slice) stripe (largeRun x.k h.length) x false false h.nsid 1 [ch] ((sliceBow u p.slice).toList)
        (largeUnits u (sliceGroup u p.slice) h.nsid g.seat serial x key (largeStream h (capKey c.capsule) value) (largeRun x.k h.length)) with
        durAll := all } = some y) :
    putLarge u c p h value all = .next (settleAll y) := by
  subst hcoded hstripe hch
  simp only [putLarge, hgroup, hset, hkey, hserials, hopen]

theorem storeValue_of_large (hlen : 65072 < (valueOf c).length) :
    storeValue u c p v = putLarge u c p (valueHeader u c p (valueOf c) v) (valueOf c) (asksAll u c) :=
  if_pos hlen

end Values

/-! ### DELETE and DISCARD (R115, R120, R122) -/

section Removals

variable {s u t : State} {cmd : Nat} {c : Cmd} {p : KeyPlace} {b : Bytes} {e : Entry}

theorem exec_delete_of_retained {expiry flags : Nat} (hheld : retainedBy u b (capNsid c.capsule) p (capKey c.capsule) = some (expiry, flags))
    (hturn : ChangeTurn s cmd 0x12 c p b u) : exec (.delete cmd) s = .next (answer u { c with started := true } ST.retained expiry flags) := by
  show execDelete cmd s = _
  simp only [execDelete, changeRow_run hturn, hheld]

theorem exec_discard_of_retained {expiry flags : Nat} (hheld : retainedBy u b (capNsid c.capsule) p (capKey c.capsule) = some (expiry, flags))
    (hturn : ChangeTurn s cmd 0x16 c p b u) : exec (.discard cmd) s = .next (answer u { c with started := true } ST.retained expiry flags) := by
  show execDiscard cmd s = _
  simp only [execDiscard, changeRow_run hturn, hheld]

variable (hfree : retainedBy u b (capNsid c.capsule) p (capKey c.capsule) = none) (hentry : entryOf b (capNsid c.capsule) p = some e)
  (hversion : capP2 c.capsule = 0 ∨ capP2 c.capsule = e.version) (hleft : nextVersion u p.slice ≤ versionTop)

include hfree hentry hversion hleft

theorem exec_delete_of_entry (hturn : ChangeTurn s cmd 0x12 c p b u)
    (hpacked : Packed u { c with started := true } p (removalRecord c.capsule p 0 (nextVersion u p.slice) (calendarOr0 u))
      (fun _ _ => removeChange p e (nextVersion u p.slice)) (replyBytes c.capsule ST.ok 0 0 e.version 0 []) 3 id t) :
    exec (.delete cmd) s = .next t := by
  show execDelete cmd s = _
  simp only [execDelete, changeRow_run hturn, hfree, hentry, not_version_mismatch hversion, gt_iff_lt, Nat.not_lt.2 hleft, if_false]
  exact packCommand_run hpacked

theorem exec_discard_of_entry (hturn : ChangeTurn s cmd 0x16 c p b u) : exec (.discard cmd) s =
    (let ch := stampChange u (removeChange p e (nextVersion u p.slice))
     let d : Discarded :=
       ⟨p.slice, p.bucket, capNsid c.capsule, ch, removalRecord c.capsule p 2 (nextVersion u p.slice) (calendarOr0 u), u.now, none⟩
     let w := (changeAll [ch] u).1
     .next (answer { w with kv := { w.kv with discards := w.kv.discards ++ [d] } } { c with started := true } ST.ok e.version 0)) := by
  show execDiscard cmd s = _
  simp only [execDiscard, changeRow_run hturn, hfree, hentry, not_version_mismatch hversion, gt_iff_lt, Nat.not_lt.2 hleft, if_false]

end Removals

/-! ### RETAIN and RELEASE of a key (R122 to R125, R163, R169) -/

section Holds

variable {s u t : State} {cmd : Nat} {c : Cmd} {p : KeyPlace} {b : Bytes} {e : Entry} {h : Hold} {r : Slice}

/-- A hold change whose record and index change go out, under the slice's next hold serial. -/
theorem holdCommand_of_packed {recKind hkind expiry recExpiry : Nat} {reply : Bytes} (hslice : r = (sliceRec u p.slice).getD (newSlice p.slice 0))
    (hpacked : Packed u c p
      (packedRecord { kind := recKind, keyLen := capKeyLen c.capsule, nsid := capNsid c.capsule, version := e.version, fprint := p.hash,
                      created := calendarOr0 u, expiry := recExpiry, holdSerial := (r.holdSerial + 1) % 2 ^ 32 } (capKey c.capsule) [])
      (fun _ _ => changeBytes 3 hkind p.slice p.bucket (entryBytes e) (entrySlotWord e) ((r.holdSerial + 1) % 2 ^ 32) expiry e.version) reply 3
      (fun w => putSlice w { r with holdSerial := (r.holdSerial + 1) % 2 ^ 32 }) t) :
    holdCommand u c p e recKind hkind expiry recExpiry reply = .next t := by
  subst hslice
  exact packCommand_run hpacked

/-- The limits of holds are kept: the device's count where the hold is a new one, and the places of the bucket where it needs one (R125, R163). -/
structure HoldFits (u : State) (p : KeyPlace) (b : Bytes) (h : Hold) : Prop where
  count : h.kind = 0 ∨ holdOver u h = true → keyHoldCount u < 1048576
  place : h.kind = 0 → holdsUsed u p b < 123 + ((bkHoldList b).filter (holdOver u)).length

theorem HoldFits.not_count_full (hfits : HoldFits u p b h) : ¬ ((h.kind = 0 ∨ holdOver u h = true) ∧ keyHoldCount u ≥ 1048576) :=
  fun ⟨hnew, hfull⟩ => Nat.not_le.2 (hfits.count hnew) hfull

theorem HoldFits.not_bucket_full (hfits : HoldFits u p b h) :
    (decide (holdsUsed u p b ≥ 123 + ((bkHoldList b).filter (holdOver u)).length) && h.kind == 0) = false := by
  cases hkind : h.kind == 0 with
  | false => exact Bool.and_false _
  | true => rw [decide_eq_false (Nat.not_le.2 (hfits.place (beq_iff_eq.1 hkind))), Bool.false_and]

variable (hentry : entryOf b (capNsid c.capsule) p = some e) (hkey : capFlag c.capsule 4 = false)

include hentry hkey

/-- RETAIN with EXPIRY 0 of a key without an indefinite hold sets that, and keeps the dated one. -/
theorem exec_retain_of_indefinite (hhold : h = (keyHold b (capNsid c.capsule) p).getD ⟨0, 0, 0, 0⟩) (hturn : ChangeTurn s cmd 0x17 c p b u)
    (hexpiry : capP1 c.capsule = 0) (hnone : bitAt h.kind 0 = false) (hfits : HoldFits u p b h) : exec (.retain cmd) s =
      holdCommand u { c with started := true } p e 4 (h.kind / 2 * 2 + 1) h.expiry 0
        (replyBytes c.capsule ST.ok 0 0 (if bitAt (h.kind / 2 * 2 + 1) 1 && dateInForce u h.expiry then h.expiry else 0)
          ((h.kind / 2 * 2 + 1) % 2) []) := by
  show execRetain cmd s = _
  simp only [execRetain, hturn.cmdWith_eq, hkey, changeRow_run hturn, hentry, ← hhold, hexpiry, hnone, hfits.not_count_full,
    hfits.not_bucket_full, if_true, if_false, Bool.false_eq_true]

/-- RETAIN to a later date than a dated hold has, which is still to come where the clock is known, makes it the date of the hold. -/
theorem exec_retain_of_dated {expiry : Nat} (hhold : h = (keyHold b (capNsid c.capsule) p).getD ⟨0, 0, 0, 0⟩)
    (hdate : expiry = max (if bitAt h.kind 1 then h.expiry else 0) (capP1 c.capsule)) (hturn : ChangeTurn s cmd 0x17 c p b u)
    (hexpiry : capP1 c.capsule ≠ 0) (hcomes : u.kv.retention.isSome = true → predicted u < capP1 c.capsule)
    (hlater : bitAt h.kind 1 = true → expiry ≠ h.expiry) (hfits : HoldFits u p b h) : exec (.retain cmd) s =
      holdCommand u { c with started := true } p e 3 (h.kind % 2 + 2) expiry (capP1 c.capsule)
        (replyBytes c.capsule ST.ok 0 0 (if dateInForce u expiry then expiry else 0) (h.kind % 2) []) := by
  have hnotPast : (u.kv.retention.isSome && decide (capP1 c.capsule ≤ predicted u)) = false := by
    cases hknown : u.kv.retention.isSome with
    | false => rfl
    | true => exact decide_eq_false (Nat.not_le.2 (hcomes hknown))
  have hchanges : (bitAt h.kind 1 && decide (expiry = h.expiry)) = false := by
    cases hdated : bitAt h.kind 1 with
    | false => rfl
    | true => exact decide_eq_false (hlater hdated)
  have hkind : bitAt (h.kind % 2 + 2) 1 = true ∧ (h.kind % 2 + 2) % 2 = h.kind % 2 := by
    rcases Nat.mod_two_eq_zero_or_one h.kind with h2 | h2 <;> rw [h2] <;> decide
  show execRetain cmd s = _
  simp only [execRetain, hturn.cmdWith_eq, hkey, changeRow_run hturn, hentry, ← hhold, ← hdate, hexpiry, bne_iff_ne.2 hexpiry,
    hnotPast, hchanges, hkind, hfits.not_count_full, hfits.not_bucket_full, Bool.true_and, Bool.or_self, if_false, Bool.false_eq_true]

theorem exec_release_of_indefinite (hturn : ChangeTurn s cmd 0x18 c p b u) (hhold : keyHold b (capNsid c.capsule) p = some h)
    (hindef : bitAt h.kind 0 = true) : exec (.release cmd) s =
      holdCommand u { c with started := true } p e 5 (h.kind - 1) h.expiry 0
        (replyBytes c.capsule ST.ok 0 0 (if bitAt h.kind 1 && dateInForce u h.expiry then h.expiry else 0) 0 []) := by
  show execRelease cmd s = _
  simp only [execRelease, hturn.cmdWith_eq, hkey, changeRow_run hturn, hentry, hhold, hindef, Bool.not_true, Bool.false_eq_true, if_false]

end Holds

/-! ### Administrative commands of a host (R98, R133, R212) -/

section AdminCommands

variable {s u v : State} {cmd op tenant tag : Nat} {c d : Cmd} {cap : Bytes}

theorem exec_retain_of_prefix (hturn : CmdTurn s cmd 0x17 c) (hprefix : capFlag c.capsule 4 = true) :
    exec (.retain cmd) s = adminRow cmd 0x17 s := by
  show execRetain cmd s = _
  simp only [execRetain, hturn.cmdWith_eq, hprefix, if_true]

theorem exec_release_of_prefix (hturn : CmdTurn s cmd 0x18 c) (hprefix : capFlag c.capsule 4 = true) :
    exec (.release cmd) s = adminRow cmd 0x18 s := by
  show execRelease cmd s = _
  simp only [execRelease, hturn.cmdWith_eq, hprefix, if_true]

/-- Every administrative command of a host runs the row that they share (R133). -/
theorem exec_adminCommand {q : Instr × Nat}
    (hq : q ∈ [(Instr.nsCreate cmd, 0x20), (.nsSet cmd, 0x21), (.nsDelete cmd, 0x22), (.tenantSet cmd, 0x28), (.tenantDelete cmd, 0x29), (.retain cmd, 0x17), (.release cmd, 0x18)]) (hturn : CmdTurn s cmd q.2 c)
    (hprefix : q.2 = 0x17 ∨ q.2 = 0x18 → capFlag c.capsule 4 = true) : exec q.1 s = adminRow cmd q.2 s := by
  simp only [List.mem_cons, List.not_mem_nil, or_false] at hq
  rcases hq with rfl | rfl | rfl | rfl | rfl | rfl | rfl
  · rfl
  · rfl
  · rfl
  · rfl
  · rfl
  · exact exec_retain_of_prefix hturn (hprefix (.inl rfl))
  · exact exec_release_of_prefix hturn (hprefix (.inr rfl))

theorem routeChange_of_acting {kind owner : Nat} (hacts : actsFor s (keyPlace s 0 (adminKey cap)).slice = true) :
    routeChange s cap tenant kind owner = (newChange s cap tenant kind owner 0, 0) :=
  if_pos hacts

/-- A change whose record's slice another device acts for goes there, its secret masked under the next SEQ of the session. -/
theorem routeChange_of_other {kind owner : Nat} (hacts : actsFor s (keyPlace s 0 (adminKey cap)).slice = false) :
    routeChange s cap tenant kind owner = peerRequest s (actingHull s (keyPlace s 0 (adminKey cap)).slice) { op := 0x88, arg0 := tenant }
      (maskCapsule cap (peerMask (nextSeal s (actingHull s (keyPlace s 0 (adminKey cap)).slice)).1
        (nextSeal s (actingHull s (keyPlace s 0 (adminKey cap)).slice)).2 (capP0 cap % 65536))) :=
  if_neg (by rw [hacts]; exact Bool.false_ne_true)

section Row

variable (hturn : CmdTurn s cmd op c)

include hturn

theorem adminRow_of_started (htaken : (cmdOf s cmd).any Cmd.started = true) : adminRow cmd op s = .next (settleAll s) := by
  simp only [adminRow, onCmd_run hturn, htaken, if_true]

variable (hnew : (cmdOf s cmd).any Cmd.started = false)

include hnew

theorem adminRow_of_badBody (hbody : adminBodyBad c.capsule = true) :
    adminRow cmd op s = .next (answer s { c with started := true } ST.malformed 0 0) := by
  simp only [adminRow, onCmd_run hturn, hnew, hbody, Bool.false_eq_true, if_true, if_false]

variable (hbody : adminBodyBad c.capsule = false) (htakes : (s.epoch.refusing && s.epoch.phase == 2) = false) (hfree : intentsHeld s = false)

include hbody htakes hfree

theorem adminRow_of_here (hacts : actsFor (putCmd s { c with started := true })
      (keyPlace (putCmd s { c with started := true }) 0 (adminKey (hostCapsule s { c with started := true }))).slice = true) : adminRow cmd op s =
    .next (newChange (putCmd s { c with started := true }) (hostCapsule s { c with started := true }) (sessAt s c.session 66 2) 0 cmd 0) := by
  simp only [adminRow, onCmd_run hturn, hnew, hbody, htakes, hfree, routeChange_of_acting hacts, Bool.false_eq_true, if_true, if_false]
  split <;> rfl

/-- A command whose change goes to another device keeps the TAG of the request sent there. -/
theorem adminRow_of_forwarded
    (hroute : routeChange (putCmd s { c with started := true }) (hostCapsule s { c with started := true }) (sessAt s c.session 66 2) 0 cmd = (v, tag))
    (htag : tag ≠ 0) (hcmd : cmdOf v cmd = some d) : adminRow cmd op s = .next (putCmd v { d with asked := tag }) := by
  simp only [adminRow, onCmd_run hturn, hnew, hbody, htakes, hfree, hroute, hcmd, htag, Bool.false_eq_true, if_false]

end Row
end AdminCommands

/-! ### What an administrative change comes to (R134, R136, R138) -/

theorem nsOf_putNs_same (s : State) (n : Namespace) : nsOf (putNs s n) n.nsid = some n :=
  List.find?_cons_of_pos (beq_self_eq_true _)

section Plans

variable {s : State} {cap : Bytes}

theorem adminPlan_nsCreate_of_exists (hop : capOp cap = 0x20) (hthere : (nsOf s (capP0 cap % 4096)).isSome = true) :
    adminPlan s cap = (.reply ST.exists 0, s) := by
  simp only [adminPlan, hop, hthere, if_true]

/-- The namespace that NS_CREATE makes: the settings and the given salt of its body, and a new data key in a free slot. -/
theorem adminPlan_nsCreate_of_free {k : Nat} (hop : capOp cap = 0x20) (hnone : (nsOf s (capP0 cap % 4096)).isSome = false)
    (hslot : freeKeySlot s = some k) (hkeys : (adminPeers s).all (xportLoaded s) = true) :
    ∃ v u n, adminPlan s cap = (.record v false 0, putNs u n) ∧ n.nsid = capP0 cap % 4096 ∧ n.durability = fld (capInline cap) 0 1 ∧
      n.sealUs = fld (capInline cap) 2 2 ∧ n.quota = fld (capInline cap) 8 8 ∧
      (bitAt (fld (capInline cap) 1 1) 0 = true → n.salt = slice (capInline cap) 16 16) ∧ n.slot = k := by
  simp only [adminPlan, hop, hnone, hslot, hkeys, Bool.false_eq_true, if_true, if_false]
  exact ⟨_, _, _, rfl, rfl, rfl, rfl, rfl, fun hgiven => by simp only [hgiven, if_true], rfl⟩

theorem adminPlan_nsSet_of_namespace {n : Namespace} (hop : capOp cap = 0x21) (hthere : nsOf s (capP0 cap % 4096) = some n) : adminPlan s cap =
    (.record (nsValue s { n with durability := fld (capInline cap) 0 1, sealUs := fld (capInline cap) 2 2, quota := fld (capInline cap) 8 8 } none)
      false 0, s) := by
  simp only [adminPlan, hop, hthere, Nat.reduceEqDiff, if_true, if_false]

theorem adminPlan_of_no_namespace (hop : capOp cap = 0x21 ∨ capOp cap = 0x22) (hnone : nsOf s (capP0 cap % 4096) = none) :
    adminPlan s cap = (.reply ST.notFound 0, s) := by
  rcases hop with hop | hop <;> simp only [adminPlan, hop, hnone, Nat.reduceEqDiff, Option.isNone_none, if_true, if_false]

theorem adminPlan_tenantSet_of_no_secret (hop : capOp cap = 0x28) (hkeep : capFlag cap 4 = true) (hnone : tenantOf s (capP0 cap % 65536) = none) :
    adminPlan s cap = (.reply ST.malformed 0, s) := by
  simp only [adminPlan, hop, hkeep, hnone, Nat.reduceEqDiff, Option.isNone_none, Bool.and_self, if_true, if_false]

/-- TENANT_SET that keeps a secret there is, has room for a new tenant, and leaves a TENANT_ADMIN, comes to the tenant's record. -/
theorem adminPlan_tenantSet_of_allowed (hop : capOp cap = 0x28)
    (hkeep : capFlag cap 4 = true → (tenantOf s (capP0 cap % 65536)).isSome = true)
    (hroom : (tenantOf s (capP0 cap % 65536)).isNone = true → s.kv.tenants.length < 16384)
    (hadmin : bitAt (fld (capInline cap) 48 4) 1 = true ∨ otherAdmin s (capP0 cap % 65536) = true) : adminPlan s cap =
      (.record ((if capFlag cap 4 then fit (((tenantOf s (capP0 cap % 65536)).map Tenant.secret).getD []) 48 else fit (capInline cap) 48) ++
        (capInline cap).drop 48) false (b2n (tenantOf s (capP0 cap % 65536)).isNone), s) := by
  have hsecret : (capFlag cap 4 && (tenantOf s (capP0 cap % 65536)).isNone) = false := by
    cases hflag : capFlag cap 4 with
    | false => rfl
    | true => rw [← Option.not_isSome, hkeep hflag]; rfl
  have hplace : ((tenantOf s (capP0 cap % 65536)).isNone && decide (s.kv.tenants.length ≥ 16384)) = false := by
    cases hnone : (tenantOf s (capP0 cap % 65536)).isNone with
    | false => rfl
    | true => exact decide_eq_false (Nat.not_le.2 (hroom hnone))
  have hleft : (!(bitAt (fld (capInline cap) 48 4) 1) && !(otherAdmin s (capP0 cap % 65536))) = false := by
    rcases hadmin with hgiven | hother
    · rw [hgiven]; rfl
    · rw [hother]; exact Bool.and_false _
  simp only [adminPlan, hop, hsecret, hplace, hleft, Nat.reduceEqDiff, Bool.false_eq_true, if_true, if_false]

theorem adminPlan_tenantDelete_of_tenant (hop : capOp cap = 0x29) (hthere : (tenantOf s (capP0 cap % 65536)).isSome = true) : adminPlan s cap =
    (if otherAdmin s (capP0 cap % 65536) then .record [] true 0 else .reply ST.notPermitted 1, s) := by
  have hsome : (tenantOf s (capP0 cap % 65536)).isNone = false := by rw [← Option.not_isSome, hthere]; rfl
  cases hother : otherAdmin s (capP0 cap % 65536) <;>
    simp only [adminPlan, hop, hsome, hother, Nat.reduceEqDiff, Bool.not_true, Bool.not_false, Bool.false_eq_true, if_true, if_false]

end Plans

/-! ### Clocks (R126 to R128) and a tenant shown (R136) -/

section Clocks

variable {s : State} {cmd : Nat} {c : Cmd}

theorem exec_clockSet_of_turn (hturn : CmdTurn s cmd 0x30 c) : exec (.clockSet cmd) s =
    .next (answer (clockSet s (capP1 c.capsule) (capP0 c.capsule) (capFlag c.capsule 4)).1 { c with started := true } ST.ok
      (b2n (clockSet s (capP1 c.capsule) (capP0 c.capsule) (capFlag c.capsule 4)).2.1)
      (clockSet s (capP1 c.capsule) (capP0 c.capsule) (capFlag c.capsule 4)).2.2) := by
  show execClockSet cmd s = _
  exact onCmd_run hturn

/-- Time that has no whole second in its nanoseconds is applied as it is. -/
theorem exec_ptpTimeApply_of_nanos {seconds nanos : Nat} (hlive : coreLive s = true) (hnanos : nanos < 10 ^ 9) :
    exec (.ptpTimeApply seconds nanos) s = .next (clockSet s seconds nanos false).1 := by
  have hwhole : seconds + nanos / sec = seconds := by rw [Nat.div_eq_of_lt (b := sec) hnanos, Nat.add_zero]
  show execPtpTimeApply seconds nanos s = _
  simp only [execPtpTimeApply, whileCore_run hlive, hwhole, Nat.mod_eq_of_lt (b := sec) hnanos]

theorem exec_retentionClockSave_of_known (hlive : coreLive s = true) (hknown : s.kv.retention.isSome = true) :
    exec .retentionClockSave s = .next (saveRetention (reach s (s.kv.savedAt + 60 * sec))) := by
  show execRetentionClockSave s = _
  simp only [execRetentionClockSave, whileCore_run hlive, hknown, if_true]

theorem exec_tenantQuery_of_tenant {t : Tenant} (hturn : CmdTurn s cmd 0x2A c) (hthere : tenantOf s (capP0 c.capsule % 65536) = some t) :
    exec (.tenantQuery cmd) s = .next (answerData s { c with started := true } ST.ok 0 0 (tenantValue { t with secret := [] })) := by
  show execTenantQuery cmd s = _
  simp only [execTenantQuery, onCmd_run hturn, hthere]

end Clocks

/-! ### Records passed between devices (R133, R135, R211, R212, R620) -/

section Records

variable {s u : State} {id change hull : Nat} {b cap : Bytes} {h : RecHdr}

/-- A forwarded change that is new, comes to its acting stroke and is within its tenant's rights is taken up. -/
theorem exec_adminForward_of_new (hturn : PeerTurn s 0x88 id b u) (hunanswered : forwardReply u (sessHull u id) (readPeer b).tag = none)
    (hnew : (u.kv.changes.find? fun c => c.kind == 1 && c.tag == (readPeer b).tag && c.hull == sessHull u id) = none)
    (hcap : cap = maskCapsule (peerBody b)
      (peerMask (((sessRec u id).bind Sess.key).getD []) (fld b (64 + peerLen b) 8) (capP0 (peerBody b) % 65536)))
    (hacts : actsFor u (keyPlace u 0 (adminKey cap)).slice = true) (hright : tenantMay u ((readPeer b).arg0 % 65536) cap = true)
    (htakes : (u.epoch.refusing && u.epoch.phase == 2) = false) :
    exec .adminForward s = .next (newChange u cap ((readPeer b).arg0 % 65536) 1 id (readPeer b).tag) := by
  subst hcap
  show execAdminForward s = _
  simp only [execAdminForward, onPeer_run hturn, hunanswered, hnew, hacts, hright, htakes, Bool.true_or, Bool.not_true, Bool.false_eq_true, if_false]

theorem exec_adminRecord_of_check (hturn : PeerTurn s 0x89 id b u) (hheader : readRecHeader (peerBody b) = some h)
    (hcheck : bitAt (readPeer b).arg0 0 = true) : exec .adminRecord s =
      .next (peerReply u id b (checkAnswer u (fld (slice (peerBody b) 128 h.keyLen) 3 2) (h.user == 1)) 0 0 []) := by
  show execAdminRecord s = _
  simp only [execAdminRecord, onPeer_run hturn, hheader, hcheck, if_true]

/-- A removal is applied unless commands still use its namespace, and acknowledged once nothing of it is left. -/
theorem exec_adminRecord_of_removal {key : Bytes} (hturn : PeerTurn s 0x89 id b u) (hheader : readRecHeader (peerBody b) = some h)
    (happly : bitAt (readPeer b).arg0 0 = false) (hkind : h.kind = 2) (hkey : key = slice (peerBody b) 128 h.keyLen)
    (hunused : isNsKey key = true → nsInUse u (fld key 3 2) = false) : exec .adminRecord s =
      (let r := applyRecord u true key (slice (peerBody b) (128 + alignUp h.keyLen 8) h.length) h.version
       .next (settleAll (if r.2.2 then peerReply (noteCount r.1 key r.2.1) id b ST.ok 0 0 [] else putBack (noteCount r.1 key r.2.1) id b))) := by
  have hfree : ¬ (isNsKey key = true ∧ nsInUse u (fld key 3 2) = true) := by
    rintro ⟨hns, huse⟩; rw [hunused hns] at huse; cases huse
  subst hkey
  show execAdminRecord s = _
  simp only [execAdminRecord, onPeer_run hturn, hheader, happly, hkind, hfree, Nat.reduceBEq, Nat.reduceEqDiff, and_false, Bool.and_false,
    Bool.false_and, Bool.false_eq_true, if_false]

theorem exec_adminRecordResend_of_waiting {x : AdminChange} (hlive : coreLive s = true)
    (hwaits : (s.kv.changes.find? fun c => c.id == change && c.waiting.any fun w => w.1 == hull) = some x) :
    exec (.adminRecordResend change hull) s = .next (settleAll (resendRecord (reach s (x.sentAt + 1000 * ms))
      { x with sentAt := (reach s (x.sentAt + 1000 * ms)).now } hull)) := by
  show execAdminRecordResend change hull s = _
  simp only [execAdminRecordResend, whileCore_run hlive, hwaits]

theorem exec_join_of_key (hturn : PeerTurn s 0x87 id b u) (hloaded : xportLoaded u (sessHull u id) = true) :
    exec .join s = .next (peerReply (sendOwn u (sessHull u id)) id b ST.ok 0 0 []) := by
  show execJoin s = _
  simp only [execJoin, onPeer_run hturn, hloaded, Bool.not_true, Bool.false_and, Bool.false_eq_true, if_false]

end Records

/-! ### Open stripes, buckets and discards (R109, R120, R150, R153, R156, R159, R162) -/

section Buckets

variable {s u : State} {group nsid slice bucket : Nat} {b : Bytes} (hlive : coreLive s = true)

include hlive

theorem exec_sealTimerExpiry_of_open {o : OpenStripe} {t : Nat} (hopen : openFor s group nsid = some o) (hfirst : o.firstAt = some t) :
    exec (.sealTimerExpiry group nsid) s = .next (settleAll (sealStripe (reach s (t + o.sealUs * us)) o)) := by
  show execSealTimerExpiry group nsid s = _
  simp only [execSealTimerExpiry, whileCore_run hlive, hopen, hfirst]

theorem exec_discardDurable_of_oldest {d : Discarded}
    (hu : u = { s with kv := { s.kv with discards := s.kv.discards.filter fun d => !(discardDone s d) } })
    (holdest : (u.kv.discards.find? fun d => d.mirror.isNone) = some d) :
    exec .discardDurable s = .next (if intentsHeld u then u else settleAll ((journalDiscard u d).getD (sealOldest u))) := by
  subst hu
  show execDiscardDurable s = _
  simp only [execDiscardDurable, whileCore_run hlive, holdest]

variable (hheld : sliceHeld s slice = true) (hbucket : bucket < 2 ^ sliceB s slice)

include hheld hbucket

theorem exec_bucketLoad_of_flash (hstate : dirState s slice bucket = 1) (hloads : bucketGet s slice bucket = some (b, u)) :
    exec (.bucketLoad slice bucket) s = .next u := by
  show execBucketLoad slice bucket s = _
  simp only [execBucketLoad, whileCore_run hlive, hheld, hbucket, hstate, hloads, decide_true, beq_self_eq_true, Bool.and_self, if_true]

variable (hidle : dirBusy s slice bucket = false) (hsettled : ∀ c ∈ pendingChanges s, chSlice c = slice → chBucket c ≠ bucket)

omit hlive hheld hbucket in
include hsettled in
/-- No change under way names the bucket. -/
theorem not_pending_change : ((pendingChanges s).any fun c => chSlice c == slice && chBucket c == bucket) = false := by
  simpa using hsettled

include hidle hsettled

theorem exec_bucketWriteback_of_dirty {l bsn page seq : Nat} (hstate : dirState s slice bucket = 3)
    (hb : b = (let b := peek s (bucketAddr s (dirSlot s slice bucket)) 16384; bkSeal (patch b 24 (le 8 (bkSeq b + 1))))) (hlun : systemLun s = some l)
    (hplaced : placeStride s l 2 (fun w k => bucketPlanes w slice bucket (bkSeq b) (btWear s k) (btFlag s k 0)
      (xtsUnit true (indexKey s) (slice * 2 ^ 32 + bucket) b)) = some ((bsn, page, seq), u)) :
    exec (.bucketWriteback slice bucket) s = .next (settleIndexRecords
      (putBucketItem (storeBucket u 0 slice bucket (dirSlot s slice bucket) 2 b) ⟨slice, bucket, bsn, page, 0, bkSeq b, seq⟩)) := by
  subst hb
  show execBucketWriteback slice bucket s = _
  simp only [execBucketWriteback, whileCore_run hlive, hheld, hstate, hidle, not_pending_change hsettled, decide_eq_false (Nat.not_le.2 hbucket),
    ge_iff_le, bne_self_eq_false, Bool.not_true, Bool.or_self, Bool.false_eq_true, if_false, hlun, hplaced]

theorem exec_bucketEvict_of_clean (hstate : dirState s slice bucket = 2) (hb : b = peek s (bucketAddr s (dirSlot s slice bucket)) 16384) :
    exec (.bucketEvict slice bucket) s = .next (putDir s 0 slice bucket
      (if s.media.buckets.any fun i => i.slice == slice && i.bucket == bucket then 1 else 0) 0 (bkCount b) (bkHolds b) 0) := by
  subst hb
  show execBucketEvict slice bucket s = _
  simp only [execBucketEvict, whileCore_run hlive, hheld, hstate, hidle, not_pending_change hsettled, decide_eq_false (Nat.not_le.2 hbucket),
    ge_iff_le, bne_self_eq_false, Bool.not_true, Bool.or_self, Bool.false_eq_true, if_false]

end Buckets

/-! ### Reads retried or late, and index rebuilds (R174, R260, R262, R271) -/

/-- The record put for a command is the one found under its index. -/
theorem eq_of_cmdOf_putCmd {s : State} {c d : Cmd} (h : cmdOf (putCmd s c) c.index = some d) : d = c := by
  obtain ⟨x, _, rfl⟩ := List.mem_map.1 (List.mem_of_find?_eq_some h)
  have hindex : (if x.index == c.index then c else x).index = c.index := by simpa using List.find?_some h
  split
  · rfl
  · next hne => rw [if_neg hne] at hindex; exact absurd (beq_iff_eq.2 hindex) hne

theorem index_of_cmdOf {s : State} {cmd : Nat} {c : Cmd} (h : cmdOf s cmd = some c) : c.index = cmd := by
  simpa using List.find?_some h

section CrewReads

variable {s u : State} {cmd tag group stripe gen : Nat} {slices : List Nat} (hlive : coreLive s = true)

include hlive

/-- The retry asks once more for each late position not asked for again: where there is none, only its time is gone. -/
theorem exec_degradedReadRetry_of_due {c : Cmd} {t : Nat} (hcmd : cmdOf s cmd = some c) (hdue : c.retryAt = some t) :
    Completes (.degradedReadRetry cmd) s fun v => (s.hte.fetches.filter fun f => f.user == cmd && f.isLate && !f.retried) = [] →
      v = putCmd (reach s t) { c with retryAt := none } := by
  show ∃ v, execDegradedReadRetry cmd s = .next v ∧ _
  simp only [execDegradedReadRetry, whileCore_run hlive, hcmd, hdue]
  exact ⟨_, rfl, fun hnone => congrArg (List.foldl _ _) hnone⟩

theorem exec_fragReadDeadline_of_unanswered {f : Fetch} (hasked : (s.hte.fetches.find? fun f => f.tag == tag && f.reply.isNone) = some f) :
    exec (.fragReadDeadline tag) s = .next (settleAll (missDeadline (probesJudged (dropRequests
      (putFetch (reach s (f.sentAt + s.media.settings.fragReadMs * ms)) { f with reply := some (0xFFFF, false, []) }) fun r => r.tag == tag) f)
      f.group f.seat)) := by
  show execFragReadDeadline tag s = _
  simp only [execFragReadDeadline, whileCore_run hlive, hasked]

theorem exec_indexRebuildFromStripes_of_none {r : Group} (hnone : (s.kv.rebuilds.find? fun r => r.group == group) = none)
    (hgroup : groupRec s group = some r) : exec (.indexRebuildFromStripes group slices) s = .next (indexRebuildBegin s group slices) := by
  show execIndexRebuildFromStripes group slices s = _
  simp only [execIndexRebuildFromStripes, whileCore_run hlive, hnone, hgroup, Option.isNone_some, Bool.false_eq_true, if_false]

theorem exec_indexRebuildFromStripes_of_units {r : IndexRebuild} {rest : List (Nat × Nat)} {x : GenSet} {d : List Bytes} {dec : Bool}
    {reps : List (Nat × Bytes)} (hrebuild : (s.kv.rebuilds.find? fun r => r.group == group) = some r) (hleft : r.left = (stripe, gen) :: rest)
    (hset : genOf s group gen = some x)
    (hread : readStripe s (crewUser s 3 group) group gen stripe (List.range x.k) = (u, .units d dec reps)) :
    exec (.indexRebuildFromStripes group slices) s = .next (putIndexRebuild (dropFetches u (crewUser s 3 group))
      { r with left := rest, recs := r.recs ++ keptRecords s r.slices stripe d }) := by
  show execIndexRebuildFromStripes group slices s = _
  simp only [execIndexRebuildFromStripes, whileCore_run hlive, hrebuild, hleft, hset, hread]

end CrewReads

end Sys2Proof.Machine

section Settled

open Sys2Proof Sys2Proof.Machine

/-- Settles O18, command by command on the entry found in the bucket. -/
theorem keyReadsComplete : Obligations.KeyReadsComplete := by
  unfold Obligations.KeyReadsComplete
  intro s u v cmd c p b e h bytes dec reps hbucket hentry
  exact ⟨exec_exists_of_entry hbucket hentry,
    fun hturn hversion hoff _ hlen => exec_get_of_found hbucket hentry hturn hversion hoff hlen,
    exec_fixity_of_found hbucket hentry,
    fun hturn hversion hparity _ _ _ => exec_fixity_of_parity hbucket hentry hturn hversion hparity,
    exec_stat_of_found hbucket hentry⟩

/-- Settles O19: the turn is the same for every opcode, and each command then answers as its row says. -/
theorem listLifeAndStatComplete : Obligations.ListLifeAndStatComplete := by
  unfold Obligations.ListLifeAndStatComplete
  intro s u cmd c b n next hlive hready
  have hturn : ∀ {op}, cmdWith s cmd op = some c → CmdTurn s cmd op c := fun hcmd => ⟨hlive, hcmd, hready⟩
  refine ⟨?list, fun hcmd => exec_life_of_turn (hturn hcmd), fun hcmd => exec_stat_of_device (hturn hcmd),
    fun _ hcmd => exec_stat_of_namespace (hturn hcmd), fun hcmd => exec_stat_of_zeroKey (hturn hcmd)⟩
  case list =>
    intro hcmd hwalk
    rw [exec_list_of_done (hturn hcmd) hwalk]
    rcases next with _ | ⟨x, k⟩ <;> simp only [nextCursor]

/-- Settles O20: the command comes to storing its value, which its length sends into an open stripe or under an intent of its own. -/
theorem valuesComplete : Obligations.ValuesComplete := by
  unfold Obligations.ValuesComplete
  rintro s u t cmd op c p b _ hallowed rfl
  have hrun := exec_putOrCas_of_allowed hallowed
  refine ⟨fun hlen hpacked => hrun.trans (storeValue_of_packed hlen hpacked), ?large⟩
  case large =>
    rintro hlen g x key serial v0 w y _ _ stripe ch i rfl hgroup hset hkey rfl hserials hcoded hstripe hch rfl hopen
    exact (hrun.trans (storeValue_of_large hlen)).trans (putLarge_of_intent hgroup hset hkey hserials hcoded hstripe hch hopen)

/-- Settles O21: no hold, no other version asked for and a version left, so both rows reach their change of the entry. -/
theorem removalsComplete : Obligations.RemovalsComplete := by
  unfold Obligations.RemovalsComplete
  intro s u t cmd c p b e hfree hentry hversion hleft
  exact ⟨exec_delete_of_entry hfree hentry hversion hleft, exec_discard_of_entry hfree hentry hversion hleft⟩

/-- Settles O22: each row looks at the holds of the key before anything else of the object. -/
theorem heldKeyIsNotRemoved : Obligations.HeldKeyIsNotRemoved := by
  unfold Obligations.HeldKeyIsNotRemoved
  intro s u cmd c p b expiry flags hheld
  exact ⟨exec_delete_of_retained hheld, exec_discard_of_retained hheld, fun hturn hvalue => putRow_of_retained hturn hvalue hheld,
    fun hturn hvalue => putRow_of_retained hturn hvalue hheld⟩

/-- Settles O23, hold by hold: each command comes to a change of the key's hold, whose record and index change go out. -/
theorem keyHoldsComplete : Obligations.KeyHoldsComplete := by
  unfold Obligations.KeyHoldsComplete
  intro s u t cmd c p b e h r hentry hhold hslice hkey
  refine ⟨?indefinite, ?dated, ?release⟩
  case indefinite =>
    intro hturn hexpiry hnone hcount hplace hpacked
    exact (exec_retain_of_indefinite hentry hkey hhold hturn hexpiry hnone ⟨hcount, hplace⟩).trans (holdCommand_of_packed hslice hpacked)
  case dated =>
    intro expiry hdate hturn hexpiry hcomes hlater hcount hplace hpacked
    exact (exec_retain_of_dated hentry hkey hhold hdate hturn hexpiry hcomes hlater ⟨hcount, hplace⟩).trans (holdCommand_of_packed hslice hpacked)
  case release =>
    intro hturn hhold' hindef hpacked
    exact (exec_release_of_indefinite hentry hkey hturn hhold' hindef).trans (holdCommand_of_packed hslice hpacked)

/-- Settles O24: each of these commands runs the same row, which routes the change by the slice of its record. -/
theorem administrativeChangesComplete : Obligations.AdministrativeChangesComplete := by
  unfold Obligations.AdministrativeChangesComplete
  rintro s cmd c q hq hturn hprefix _ _ _ rfl rfl rfl
  rw [exec_adminCommand hq hturn hprefix]
  refine ⟨adminRow_of_here hturn, ?forwarded, adminRow_of_started hturn, adminRow_of_badBody hturn⟩
  case forwarded =>
    intro hnew hbody htakes hfree hacts v tag d hsent htag hcmd
    exact adminRow_of_forwarded hturn hnew hbody htakes hfree ((routeChange_of_other hacts).trans hsent) htag hcmd

/-- Settles O25, opcode by opcode of the plan. -/
theorem administrativePlans : Obligations.AdministrativePlans := by
  unfold Obligations.AdministrativePlans
  intro s cap
  refine ⟨adminPlan_nsCreate_of_exists, ?create, fun _ => adminPlan_nsSet_of_namespace, adminPlan_of_no_namespace, adminPlan_tenantSet_of_no_secret,
    adminPlan_tenantSet_of_allowed, adminPlan_tenantDelete_of_tenant⟩
  case create =>
    intro hop hnone k hslot hkeys
    obtain ⟨v, u, n, hplan, hnsid, hsettings⟩ := adminPlan_nsCreate_of_free hop hnone hslot hkeys
    exact ⟨v, putNs u n, hplan, n, hnsid ▸ nsOf_putNs_same u n, hsettings⟩

/-- Settles O26, by the rows of clocks, tenants and records. -/
theorem clocksAndRecordsComplete : Obligations.ClocksAndRecordsComplete := by
  unfold Obligations.ClocksAndRecordsComplete
  intro s u cmd id c b
  exact ⟨exec_clockSet_of_turn, fun _ _ => exec_ptpTimeApply_of_nanos, exec_retentionClockSave_of_known, fun _ => exec_tenantQuery_of_tenant,
    fun _ => exec_adminForward_of_new, fun _ => exec_adminRecord_of_check, fun _ _ => exec_adminRecord_of_removal,
    fun _ _ _ => exec_adminRecordResend_of_waiting, exec_join_of_key⟩

/-- Settles O28, by the rows of open stripes, buckets, discards, reads and index rebuilds. -/
theorem bucketsAndStripesComplete : Obligations.BucketsAndStripesComplete := by
  unfold Obligations.BucketsAndStripesComplete
  intro s slice bucket hlive
  refine ⟨fun _ _ _ _ => exec_sealTimerExpiry_of_open hlive, fun _ _ => exec_bucketLoad_of_flash hlive, ?writeback, ?evict,
    fun _ _ => exec_discardDurable_of_oldest hlive, ?retry, fun _ _ => exec_fragReadDeadline_of_unanswered hlive,
    fun _ _ _ => exec_indexRebuildFromStripes_of_none hlive, fun _ _ _ _ _ _ _ _ _ _ _ => exec_indexRebuildFromStripes_of_units hlive⟩
  case writeback =>
    intro hheld hbucket hstate hidle hsettled _ _ _ _ _ _
    exact exec_bucketWriteback_of_dirty hlive hheld hbucket hidle hsettled hstate
  case evict =>
    intro hheld hbucket hstate hidle hsettled _
    exact exec_bucketEvict_of_clean hlive hheld hbucket hidle hsettled hstate
  case retry =>
    intro cmd c t hcmd hdue
    obtain ⟨v, hrun, hnoneLate⟩ := exec_degradedReadRetry_of_due hlive hcmd hdue
    refine ⟨v, hrun, fun d hd => ?_, hnoneLate⟩
    obtain rfl := index_of_cmdOf hcmd
    rw [eq_of_cmdOf_putCmd (c := { c with retryAt := none }) hd]

end Settled
end

section
/-! PROOFS. What the family "stripe groups" states of fragments at their seats, of the group itself, of epoch changes, of the pair channel and its
timers, and of rebuild, local repair and the rewriting of stripes. -/

namespace Sys2Proof.Machine

/-! ### Fragments at their seats (R193, R205, R207, R208, R268, R274, R286) -/

section Fragments

theorem PeerTurn.mem_eq {s u : State} {op id : Nat} {b : Bytes} (hturn : PeerTurn s op id b u) : u.mem = s.mem := by
  obtain ⟨_, _, rfl⟩ := hturn; rfl

theorem PeerTurn.regs_eq {s u : State} {op id : Nat} {b : Bytes} (hturn : PeerTurn s op id b u) : u.regs = s.regs := by
  obtain ⟨_, _, rfl⟩ := hturn; rfl

variable {s u v w : State} {id : Nat} {b : Bytes} {h : PeerHdr} (hh : h = readPeer b)

include hh

theorem exec_fragWrite_of_new (hturn : PeerTurn s 0x81 id b u) (hcheck : fragCheck5 u id b = none) (hkind : (holding u h.group h.stripe).kind = 9)
    (hcrc : bitAt h.pflags 1 = true ∨ crc32c (peerBody b) = h.arg1 % 2 ^ 32)
    (hstored : journalFragment u h.group (unit0 h.stripe) h.pos h.gen h.k h.m (h.arg1 % 2 ^ 32) (sessHull u id) h.arg0 (bitAt h.pflags 1)
      (peerBody b) = some v) :
    exec .fragWrite s = .next (peerReply v id b ST.ok 0 0 []) := by
  have hgood : ¬ (bitAt h.pflags 1 = false ∧ crc32c (peerBody b) ≠ h.arg1 % 2 ^ 32) := by
    rintro ⟨hdata, hbad⟩
    rcases hcrc with hvoid | hsame
    · rw [hdata] at hvoid; cases hvoid
    · exact hbad hsame
  show execFragWrite s = _
  simp only [execFragWrite, onPeer_run hturn, ← hh, hcheck, hkind, hgood, hstored, Nat.reduceEqDiff, or_self, false_and, if_false]

theorem exec_fragWrite_of_held (hturn : PeerTurn s 0x81 id b u) (hcheck : fragCheck5 u id b = none) (hkind : (holding u h.group h.stripe).kind = 0)
    (hpos : (holding u h.group h.stripe).pos = h.pos) :
    exec .fragWrite s = .next (if (holding u h.group h.stripe).ucrc = h.arg1 % 2 ^ 32 then peerReply u id b ST.ok 0 0 []
      else peerReply (logCrew u EV.fragmentConflict) id b ST.exists 0 0 []) := by
  subst hh
  show execFragWrite s = _
  simp only [execFragWrite, onPeer_run hturn, hcheck, hkind, hpos, Nat.reduceEqDiff, true_or, true_and, if_true, if_false]
  exact (apply_ite _ _ _ _).symm

theorem exec_fragRead_of_held {d : Bytes} (hturn : PeerTurn s 0x82 id b u) (hfragment : h.group ≠ 0 ∨ h.pos ≠ 0xFF)
    (hoff : h.arg0 % 2 ^ 32 < 65536) (hkind : (holding u h.group h.stripe).kind ∉ [2, 3, 4, 9]) (hpos : (holding u h.group h.stripe).pos = h.pos)
    (hbytes : holdingBytes u h.group h.stripe = some d) :
    exec .fragRead s = .next (peerReply u id b ST.ok 0 0 (slice d (h.arg0 % 2 ^ 32)
      (if h.arg0 / 2 ^ 32 = 0 then 65536 - h.arg0 % 2 ^ 32 else min (h.arg0 / 2 ^ 32) (65536 - h.arg0 % 2 ^ 32)))) := by
  simp only [List.mem_cons, List.not_mem_nil, or_false, not_or] at hkind
  obtain ⟨hvoid, hlost, hmissing, habsent⟩ := hkind
  have hrig : ¬ (h.group = 0 ∧ h.pos = 0xFF) := fun ⟨hg, hp⟩ => hfragment.elim (· hg) (· hp)
  show execFragRead s = _
  simp only [execFragRead, onPeer_run hturn, ← hh, hrig, Nat.not_le.2 hoff, ge_iff_le, hvoid, hlost, hmissing, habsent, hpos, hbytes, ne_eq,
    not_true_eq_false, or_self, if_false]

theorem exec_fragReplace_of_position (hturn : PeerTurn s 0x93 id b u) (hcheck : fragCheck5 u id b = none)
    (hkind : (holding u h.group h.stripe).kind ∈ [0, 2, 4]) (hpos : (holding u h.group h.stripe).pos = h.pos)
    (hcrc : crc32c (peerBody b) = h.arg1 % 2 ^ 32)
    (hstored : journalFragment u h.group (unit0 h.stripe) h.pos h.gen h.k h.m (h.arg1 % 2 ^ 32) (sessHull u id) h.arg0 false (peerBody b) = some w)
    (hcommit : seatOutcome w h.group h.stripe 1 1 = some v) :
    exec .fragReplace s = .next (peerReply v id b ST.ok 0 0 []) := by
  obtain ⟨x, hx⟩ : ∃ x, x = holding u h.group h.stripe := ⟨_, rfl⟩
  rw [← hx] at hkind hpos
  have hplace : ((x.kind = 0 || x.kind = 2 || x.kind = 4) && x.pos == h.pos) = true := by simpa [hpos, or_assoc] using hkind
  show execFragReplace s = _
  simp only [execFragReplace, onPeer_run hturn, ← hh, hcheck, ← hx, hplace, hcrc, hstored, Option.bind_some, hcommit, ne_eq, not_true_eq_false, Bool.not_true,
    Bool.false_eq_true, if_false]

/-- FRAG_COMMIT, FRAG_ROLLBACK and FRAG_FREE run one row. -/
theorem outcomeRow_of_run {op result : Nat} (hrun : h.arg1 ≠ 0) (hturn : PeerTurn s op id b u)
    (hdone : seatOutcome u h.group h.stripe h.arg1 result = some v) : outcomeRow op result s = .next (peerReply v id b ST.ok 0 0 []) := by
  simp only [outcomeRow, onPeer_run hturn, ← hh, hrun, hdone, if_false]

/-- No marker is new where each of this seat's is noted, so nothing but the answer is left. -/
theorem exec_stripeLost_of_recorded {g : Group} (hturn : PeerTurn s 0x92 id b u) (hgroup : groupRec u h.group = some g)
    (hnoted : ∀ e ∈ lostEntries (peerBody b) (h.arg0 % 65536), (stripeSeats u h.group e.2 e.1).contains g.seat = true →
      (u.media.notes.any fun n => n.kind == 3 && n.group == h.group && n.ident == unit0 e.1) = true ∧ markerRecorded u h.group e.1 = true) :
    exec .stripeLost s = .next (peerReply u id b ST.ok 0 0 []) := by
  obtain ⟨mine, hmine⟩ : ∃ mine, mine = (lostEntries (peerBody b) (h.arg0 % 65536)).filter fun e => (stripeSeats u h.group e.2 e.1).contains g.seat :=
    ⟨_, rfl⟩
  have hdone : ∀ e ∈ mine, (u.media.notes.any fun n => n.kind == 3 && n.group == h.group && n.ident == unit0 e.1) = true ∧
      markerRecorded u h.group e.1 = true := by
    intro e he
    obtain ⟨hlisted, hseat⟩ := List.mem_filter.1 (hmine ▸ he)
    exact hnoted e hlisted hseat
  have hnew : (mine.filter fun e => !(u.media.notes.any fun n => n.kind == 3 && n.group == h.group && n.ident == unit0 e.1)) = [] :=
    List.filter_eq_nil_iff.2 fun e he => by rw [(hdone e he).1]; decide
  have hall : (mine.all fun e => markerRecorded u h.group e.1) = true := List.all_eq_true.2 fun e he => (hdone e he).2
  show execStripeLost s = _
  simp only [execStripeLost, onPeer_run hturn, ← hh, hgroup, ← hmine, hnew, List.foldl_nil, hall, if_true]

theorem exec_inventory_of_fits {g : Group} {all : List (Nat × Nat)} (hturn : PeerTurn s 0x90 id b u) (hgroup : groupRec u h.group = some g)
    (htarget : g.isLost (h.arg0 % 32) = false)
    (hall : all = ((if bitAt h.arg0 8 then g.kept.map (fun x => (x.stripe, x.genId)) else heldStripes u h.group).filter fun e =>
      (stripeSeats u h.group e.2 e.1).contains (h.arg0 % 32) && decide (e.1 > h.arg1 || h.arg1 == 0)).foldr insertStripe [])
    (hfits : all.length ≤ 4096) :
    exec .inventory s = .next (peerReply u id b ST.ok 0 (2 ^ 64 - 1) (all.map (inventoryLine u g)).flatten) := by
  subst hh
  show execInventory s = _
  simp only [execInventory, onPeer_run hturn, hgroup, htarget, Bool.false_and, Bool.false_eq_true, if_false, ← hall, gt_iff_lt,
    Nat.not_lt.2 hfits, List.take_of_length_le hfits]

omit hh in
theorem exec_fragWriteResend_of_due {tag : Nat} {r : PeerReq} (hlive : coreLive s = true)
    (hdue : (s.hte.requests.find? fun r => r.tag == tag && r.op == 0x81 && decide (r.sentAt > s.now)) = some r) :
    exec (.fragWriteResend tag) s = .next (resendRequest (reach s r.sentAt) r) := by
  show execFragWriteResend tag s = _
  simp only [execFragWriteResend, whileCore_run hlive, hdue]

/-- A slice is noted as disowned unless this device acts for it. -/
theorem exec_sliceDisown_notes (hturn : PeerTurn s 0x8B id b u) :
    Completes .sliceDisown s fun t => ∃ v, t = peerReply v id b ST.ok 0 0 [] ∧ v.mem = s.mem ∧ v.regs = s.regs ∧
      (actsFor u (h.arg0 % 65536) = false → h.arg0 % 65536 ∈ v.kv.disowned) := by
  subst hh
  show ∃ t, execSliceDisown s = .next t ∧ _
  rw [execSliceDisown, onPeer_run hturn]
  refine ⟨_, rfl, _, rfl, ?_⟩
  dsimp only
  split
  · next hknown =>
    refine ⟨hturn.mem_eq, hturn.regs_eq, fun hother => ?_⟩
    rw [hother, Bool.false_or] at hknown
    exact List.contains_iff_mem.1 hknown
  · exact ⟨hturn.mem_eq, hturn.regs_eq, fun _ => List.mem_cons_self⟩

end Fragments

/-! ### Stripe groups (R206, R209, R262, R280, R284) -/

section Groups

variable {s u p v : State} {id group : Nat} {b : Bytes} {g r : Group} (hlive : coreLive s = true) (hgroup : groupRec s group = some g)

theorem exec_groupStatus_of_seat {x : StatusBody} {i : SeatInfo} {y : Group} (hturn : PeerTurn s 0x86 id b u) (hof : (readPeer b).group = group)
    (hx : x = readStatus (peerBody b)) (hp : p = noteReport u (sessHull u id) x.staged x.phase) (hknown : groupRec p group = some r)
    (hseat : hullSeat p group (sessHull u id) = some x.seat) (hdev : x.dev ∉ [5, 6, 7]) (hi : i = (r.info x.seat).getD (noInfo x.seat p.now))
    (hawake : i.dev ≠ 8 ∨ x.dev = 8)
    (hy : y = r.setInfo { i with heardAt := p.now, dev := x.dev, gstate := x.gstate, phase := x.phase, staged := x.staged,
                                 epoch := (readPeer b).epoch, low := x.low, cycle := x.cycle }) :
    exec .groupStatus s = .next (settle (adoptStatus (putGroup p y) y x (sessHull u id))) := by
  simp only [List.mem_cons, List.not_mem_nil, or_false, not_or] at hdev
  obtain ⟨hreadOnly, hservice, hhalted⟩ := hdev
  have hdocked : ¬ (i.dev = 8 ∧ x.dev ≠ 8) := fun ⟨h1, h2⟩ => hawake.elim (· h1) h2
  subst hy hof hi hp hx
  show execGroupStatus s = _
  simp only [execGroupStatus, onPeer_run hturn, hknown, hseat, hreadOnly, hservice, hhalted, hdocked, ne_eq, not_true_eq_false, false_and, or_self,
    if_false]

/-- A PROGRESS notice leaves the LOST bits and the G_STATE of a group that is REBUILDING. -/
theorem exec_rebuildNotice_of_progress {told : List (Nat × Nat × Nat)} (hturn : PeerTurn s 0x91 id b u)
    (htold : told = ((readPeer b).arg0 % 32, (readPeer b).arg1 % 2 ^ 32, (readPeer b).arg1 / 2 ^ 32) ::
      r.rebuilding.filter (fun q => q.1 != (readPeer b).arg0 % 32))
    (hof : (readPeer b).group = group) (hknown : groupRec u group = some r) (hphase : bits (readPeer b).arg0 8 8 = 4) (hstate : r.gstate = 4) :
    exec .rebuildNotice s =
      .next (peerReply (settle (afterDegraded (setGState (putGroup u { r with rebuilding := told }) group 4) group)) id b ST.ok 0 0 []) := by
  subst htold hof
  show execRebuildNotice s = _
  simp only [execRebuildNotice, onPeer_run hturn, hknown, hphase, hstate, Nat.reduceLeDiff, Nat.reduceEqDiff, List.isEmpty_cons, Bool.not_false,
    Bool.true_or, false_and, and_false, or_self, or_true, if_true, if_false]

include hlive

theorem exec_writeLimitExpiry_of_request {tag t : Nat} {q : PeerReq}
    (hasked : (s.hte.requests.find? fun r => r.tag == tag && (r.op == 0x81 || r.op == 0x83 || r.op == 0x84)) = some q)
    (hu : u = reach s (q.firstAt + s.media.settings.writeLimitMs * ms)) (hseat : hullSeat u (fld q.msg 4 4) q.hull = some t) :
    exec (.writeLimitExpiry tag) s = .next (settle (tryDeclare u (fld q.msg 4 4) t)) := by
  subst hu
  show execWriteLimitExpiry tag s = _
  simp only [execWriteLimitExpiry, whileCore_run hlive, hasked, hseat]

include hgroup

theorem exec_groupStatusTimer_of_group :
    exec (.groupStatusTimer group) s = .next (settle (sendStatus (if g.kept.isEmpty then cycleStep (reach s (g.sentAt + 100 * ms)) group
      else reach s (g.sentAt + 100 * ms)) group)) := by
  show execGroupStatusTimer group s = _
  simp only [execGroupStatusTimer, whileCore_run hlive, hgroup]

theorem exec_seatSilenceExpiry_of_seat {seat : Nat} (hseat : seat < groupSeats s group) (hother : seat ≠ g.seat) :
    exec (.seatSilenceExpiry group seat) s = .next (settle (tryDeclare
      (reach s (((g.info seat).map SeatInfo.heardAt).getD g.formingAt + s.media.settings.seatSilenceMs * ms)) group seat)) := by
  show execSeatSilenceExpiry group seat s = _
  simp only [execSeatSilenceExpiry, whileCore_run hlive, hgroup, ge_iff_le, Nat.not_le.2 hseat, hother, or_self, if_false]

/-- The seats for which a group stays in FORMING (Table 05-7): lost, without a session, or not reporting this epoch with READY or READ_ONLY. -/
def formingFails (s : State) (group : Nat) (g : Group) : List Nat :=
  (List.range (groupSeats s group)).filter fun t => t != g.seat && (g.isLost t || (peerSession s 1 (seatHull s group t)).isNone ||
    !(match g.info t with | some i => i.epoch == activeEpoch s && (i.dev == 4 || i.dev == 5) | none => false))

theorem exec_formingTimeout_of_fails {x : GenSet} {fails : List Nat} (hset : writingSet s group = some x) (hforming : g.gstate = 1)
    (hstays : g.returning = false) (hdescriptor : g.descriptor.isSome = true) (hu : u = reach s (g.formingAt + 60 * sec))
    (hfails : fails = formingFails u group g) (hfew : fails.length ≤ x.m) (hmajority : majority u g = true) :
    exec (.formingTimeout group) s =
      .next (settle (afterDegraded (setGState (fails.foldl (fun s t => declareLost s group t) u) group 3) group)) := by
  have hstarts : ¬ (g.gstate ≠ 1 ∨ g.returning = true) := by simp [hforming, hstays]
  have hdeclares : (g.descriptor.isNone || decide (fails.length > x.m) || !majority u g) = false := by
    simp [hmajority, hfew, Option.isNone_eq_false_iff.2 hdescriptor]
  subst hfails hu
  show execFormingTimeout group s = _
  simp only [execFormingTimeout, whileCore_run hlive, hgroup, hset, hstarts, if_false]
  exact if_neg (Bool.not_eq_true _ ▸ hdeclares)

end Groups

/-! ### Epoch changes (R213 to R217, R304, R305) -/

section EpochChange

variable {s u v w : State} {id e : Nat} {b c : Bytes} (hlive : coreLive s = true) (he : e = (readPeer b).arg0)

section Live

include hlive

theorem exec_epochChangeStart_of_member (hstaged : stagedRig s = some c) (hflag : flag s F.RIG_STATUS_STAGED = true)
    (hw : w = enterStaged (bulkCopies s (containerView c)) (containerView c)) (hleader : rigLeader c ≠ Config.hull) :
    exec .epochChangeStart s = .next w := by
  subst hw
  show execEpochChangeStart s = _
  simp only [execEpochChangeStart, whileCore_run hlive, hstaged, hflag, beq_false_of_ne hleader, Bool.and_false, Bool.false_and, Bool.not_true,
    Bool.false_eq_true, if_false]

theorem exec_epochChangeStart_of_leader {peers : List Nat} (hstaged : stagedRig s = some c) (hflag : flag s F.RIG_STATUS_STAGED = true)
    (hw : w = enterStaged (bulkCopies s (containerView c)) (containerView c)) (hpeers : peers = changePeers w (containerView c))
    (hleader : rigLeader c = Config.hull) (hphase : w.epoch.phase = 1) (hrig : rigOn w = true)
    (hready : peers.all (reportsStaged w w.epoch.epoch) = true) :
    exec .epochChangeStart s = .next (advance (sealAll (sendChange
      { w with epoch := { w.epoch with phase := 5, since := w.now, waiting := peers, allOk := true } } 0x8C peers))) := by
  subst hpeers hw
  show execEpochChangeStart s = _
  simp only [execEpochChangeStart, whileCore_run hlive, hstaged, hflag, hleader, hphase, hrig, hready, beq_self_eq_true, decide_true, Bool.and_self,
    Bool.not_true, Bool.false_eq_true, if_true, if_false]

theorem exec_epochLeaderLimit_of_preparing (hphase : s.epoch.phase = 5) :
    exec .epochLeaderLimit s = .next (settle (epochDecide (reach s (s.epoch.since + 2000 * ms)) true)) := by
  show execEpochLeaderLimit s = _
  simp only [execEpochLeaderLimit, whileCore_run hlive, hphase, if_true]

theorem exec_epochPreparedTimeout_of_prepared (hphase : s.epoch.phase = 2) (hstaged : stagedRig s = some c)
    (hv : v = dropRequests (reach s ((if s.epoch.askedAt = 0 then s.epoch.since else s.epoch.askedAt) + 10 * sec)) (fun r => r.op == 0x8F)) :
    exec .epochPreparedTimeout s = .next (sendChange
      { v with epoch := { v.epoch with askedAt := v.now, queried := [], refusing := v.epoch.refusing || !v.epoch.queried.isEmpty } } 0x8F
      ((rigDevices (activeView v) ++ rigDevices (containerView c)).eraseDups)) := by
  have hkept : ∀ t, stagedRig (reach s t) = some c := fun _ => hstaged
  subst hv
  show execEpochPreparedTimeout s = _
  simp only [execEpochPreparedTimeout, whileCore_run hlive, hphase, hkept, ne_eq, not_true_eq_false, if_false]
  rfl

/-- The swap's end changes the rig and its registers; what follows starts from there. -/
theorem exec_rigSwapEnd_of_swapping {st : RigStaged} (hstaged : s.rig.staged = some st) (hflag : flag s F.RIG_STATUS_SWAPPING = true)
    (hroom : rigCrowded (activeView (rigSwapEnd s st)) = false) (hkept : rigDropsLive s (activeView (rigSwapEnd s st)) = false) :
    Completes .rigSwapEnd s fun t => ∃ v first acted same, t = releaseSwapHeld (leaderDone (sendAllStatus (applyRig v first acted same))) ∧
      v.regs = (rigSwapEnd s st).regs ∧ v.mem = (rigSwapEnd s st).mem ∧ first = !(rigOn s) ∧ v.rig.commit = false ∧
      ((rigSwapEnd s st).epoch.phase ≠ 6 → v.epoch.phase = 0 ∧ v.epoch.preparer = none ∧ v.epoch.refusing = false) := by
  show ∃ t, execRigSwapEnd s = .next t ∧ _
  simp only [execRigSwapEnd, whileCore_run hlive, hstaged, hflag, hroom, hkept, Bool.not_true, Bool.false_eq_true, if_false]
  refine ⟨_, rfl, _, _, _, _, rfl, ?_⟩
  split
  · next hleads => exact ⟨rfl, rfl, rfl, rfl, fun hother => absurd hleads hother⟩
  · exact ⟨rfl, rfl, rfl, rfl, fun _ => ⟨rfl, rfl, rfl⟩⟩

end Live

/-- The role that the active rig gives a device for a slice is enough for a copy. -/
theorem exec_sliceCopy_of_changes {x : Nat} {r : State × Bool} (hturn : PeerTurn s 0x8A id b u) (hx : x = (readPeer b).arg0 % 65536)
    (hother : actsFor u x = false) (hrole : (roleHulls (activeView u) x).contains Config.hull = true)
    (hr : r = takeCopy u x ((activeView u).place x).log2b (bodyChanges (peerLen b / 64) (peerBody b))) :
    exec .sliceCopy s = .next (if r.2 then peerReply r.1 id b ST.ok 0 0 [] else putBack r.1 id b) := by
  subst hr hx
  show execSliceCopy s = _
  simp only [execSliceCopy, onPeer_run hturn, hother, hrole, Bool.false_and, Bool.false_eq_true, if_true, if_false]

theorem exec_sliceCopy_of_request {x : Nat} (hturn : PeerTurn s 0x8A id b u) (hx : x = (readPeer b).arg0 % 65536) (hacts : actsFor u x = true)
    (hwhole : sliceWhole u x = true) (hlen : peerLen b = 0) (hrole : (roleHulls (activeView u) x).contains (sessHull u id) = true) :
    exec .sliceCopy s = .next (copyTo (peerReply u id b ST.ok 0 0 []) (sessHull u id) x (sliceChanges u x)) := by
  subst hx
  show execSliceCopy s = _
  simp only [execSliceCopy, onPeer_run hturn, hacts, hwhole, hlen, hrole, Option.isSome_some, beq_self_eq_true, Bool.and_self, if_true]

include he

theorem exec_epochPrepare_of_prepared (hturn : PeerTurn s 0x8C id b u) (hphase : u.epoch.phase = 2) (hepoch : u.epoch.epoch = e) :
    exec .epochPrepare s = .next (peerReply u id b ST.ok 0 0 []) := by
  subst he
  show execEpochPrepare s = _
  simp only [execEpochPrepare, onPeer_run hturn, hphase, hepoch, and_self, if_true]

theorem exec_epochPrepare_of_drained (hturn : PeerTurn s 0x8C id b u) (hnew : u.epoch.phase ≠ 2 ∨ u.epoch.epoch ≠ e)
    (hepoch : getF u F.RIG_STAGED_EPOCH_EPOCH = e) (hcrc : getF u F.RIG_STAGED_CRC_CRC = (readPeer b).arg1 % 2 ^ 32) (hopen : outcomeOf u e = none)
    (hv : v = advance (sealAll { u with epoch := { u.epoch with preparer := some (id, (readPeer b).tag) } })) (hdrained : drained v = true)
    (hstaged : stagedRig v = some c) (hw : w = lastDeltas v (containerView c)) :
    exec .epochPrepare s = .next (peerReply (sendAllStatus { w with epoch := { w.epoch with
      phase := 2, epoch := e, crc := (readPeer b).arg1 % 2 ^ 32, since := w.now, askedAt := 0, queried := [], refusing := false,
      preparer := none } }) id b ST.ok 0 0 []) := by
  have hfirst : ¬ (u.epoch.phase = 2 ∧ u.epoch.epoch = e) := fun ⟨h1, h2⟩ => hnew.elim (· h1) (· h2)
  subst hw hv he
  show execEpochPrepare s = _
  simp only [execEpochPrepare, onPeer_run hturn, hfirst, hepoch, hcrc, hopen, hdrained, hstaged, ne_eq, not_true_eq_false, Option.isSome_none,
    Bool.not_true, Bool.false_eq_true, or_self, if_false]

theorem exec_epochCommit_of_epoch (hturn : PeerTurn s 0x8D id b u) :
    exec .epochCommit s = .next (if activeEpoch u = e then peerReply u id b ST.ok 0 0 []
      else if getF u F.RIG_STAGED_EPOCH_EPOCH = e then putBack (commitSwap (recordOutcome u e true)) id b else peerReply u id b ST.stateConflict 0 0 []) := by
  subst he
  show execEpochCommit s = _
  simp only [execEpochCommit, onPeer_run hturn, ne_eq, ite_not]
  split
  · rfl
  · split <;> rfl

theorem exec_epochAbort_of_staged (hturn : PeerTurn s 0x8E id b u) (hstaged : getF u F.RIG_STAGED_EPOCH_EPOCH = e) (hold : activeEpoch u ≠ e)
    (hopen : outcomeOf u e ≠ some true) :
    exec .epochAbort s = .next (settle (peerReply (epochAbort { u with epoch := { u.epoch with epoch := e } }) id b ST.ok 0 0 [])) := by
  subst he
  show execEpochAbort s = _
  simp only [execEpochAbort, onPeer_run hturn]
  rw [if_pos ⟨hstaged, hold, hopen⟩]

theorem exec_epochQuery_of_answer (hturn : PeerTurn s 0x8F id b u)
    (hv : v = (if (epochAnswer u e).1 = 7 then recordBehind u e else if (epochAnswer u e).2 then recordOutcome u e false else u)) :
    exec .epochQuery s = .next (peerReply (if (epochAnswer u e).1 = 1 then
      sendAllStatus { v with epoch := { v.epoch with phase := 3, epoch := e, preparer := none } } else v) id b ST.ok 0 (epochAnswer u e).1 []) := by
  subst hv he
  show execEpochQuery s = _
  simp only [execEpochQuery, onPeer_run hturn]

end EpochChange

/-! ### Pair frames in turn (R228, R231, R233, R235, R248 to R250, R621) -/

section PairFrames

variable {s u v w t : State} {c : PairCh} {body : Bytes} {seq ptype : Nat} (htaken : PairTaken v c seq t)

theorem PairFrame.live (h : PairFrame s ptype c body seq u) : coreLive s = true := by
  obtain ⟨hlive, _⟩ := h; exact hlive

theorem exec_ack_of_frame (hframe : PairFrame s 2 c body seq u) : exec .ack s =
    (let d := { c with ackRx := seq, acked := max c.acked (fld body 0 8), sent := c.sent.filter (fun f => decide (f.1 > fld body 0 8)),
                       lastAckAt := some u.now, movedAt := if fld body 0 8 > c.acked then u.now else c.movedAt }
     .next (advance (pairPush (putChan2 { u with pj := { u.pj with leases := u.pj.leases.filter fun l => l.1 != c.partner } } d) c.partner))) := by
  show execAck s = _
  rw [execAck, whileCore_run hframe.live]
  refine pairTake_ack hframe ?_
  simp only [decide_eq_true_eq]

/-- A data frame in turn whose processing comes to a state is then acknowledged. -/
theorem pairRow_run {run : State → PairCh → Bytes → Option State} (hframe : PairFrame s ptype c body seq u) (hdata : ptype ≠ 2)
    (hrun : run u c body = some v) (ht : PairTaken v c seq t) : whileCore s (fun s => pairTake ptype s run) = .next t :=
  (whileCore_run hframe.live).trans (pairTake_run hframe hdata hrun ht)

include htaken

theorem exec_intentFrame_of_mirrored (hframe : PairFrame s 0x10 c body seq u) (hmirror : mirrorRecord u body (rkBody body) = some v) :
    exec .intentFrame s = .next t := by
  show execIntentFrame s = _
  exact pairRow_run hframe (by decide) hmirror htaken

theorem exec_outcomeFrame_of_changes {chs : List Bytes} {full : List Nat} (hframe : PairFrame s 0x11 c body seq u)
    (hroom : ringRoom u (alignUp body.length 64) = true)
    (hchanges : takeChanges (heldChanges u (fld (rkBody body) 8 2) ((rkBody body).drop 64)) u = some (w, chs, full))
    (hmirror : mirrorRecord (dropCopies w full) body ((rkBody body).take 8 ++ le 2 chs.length ++ slice (rkBody body) 10 54 ++ chs.flatten) = some v) :
    exec .outcomeFrame s = .next t := by
  show execOutcomeFrame s = _
  refine pairRow_run hframe (by decide) ?_ htaken
  simp only [hroom, hchanges, hmirror, Bool.not_true, Bool.false_eq_true, if_false]

theorem exec_indexFrame_of_changes {chs : List Bytes} {full : List Nat} (hframe : PairFrame s 0x12 c body seq u)
    (hroom : ringRoom u (alignUp body.length 64) = true)
    (hchanges : takeChanges (heldChanges u (fld (rkBody body) 0 2) ((rkBody body).drop 64)) u = some (w, chs, full))
    (hmirror : mirrorRecord (dropCopies w full) body (le 2 chs.length ++ zeros 62 ++ chs.flatten) = some v) :
    exec .indexFrame s = .next t := by
  show execIndexFrame s = _
  refine pairRow_run hframe (by decide) ?_ htaken
  simp only [hroom, hchanges, hmirror, Bool.not_true, Bool.false_eq_true, if_false]

theorem exec_openStripeFrame_of_slots {slots : List Nat} (hframe : PairFrame s 0x13 c body seq u)
    (hnew : ((pjKind u 4).any fun q => rkSource q.2 == rkSource body && rkGroup q.2 == rkGroup body && rkIntent q.2 == rkIntent body) = false)
    (hslots : slotsFree u (fld (rkBody body) 2 1) = some slots)
    (hmirror : mirrorRecord (slots.foldl (fun s i => crewStore s (slotAddr64 s i) (zeros 65536)) u) body ((rkBody body).take 40 ++
      ((List.range 20).map fun j => le 4 ((slots[j]?).getD 0xFFFFFFFF)).flatten ++ zeros 8) = some v) :
    exec .openStripeFrame s = .next t := by
  show execOpenStripeFrame s = _
  refine pairRow_run hframe (by decide) ?_ htaken
  simp only [hnew, hslots, hmirror, Bool.false_eq_true, if_false]

theorem exec_append_of_stripe {q : Nat × Bytes} (hframe : PairFrame s 0x14 c body seq u)
    (hstripe : ((pjKind u 4).filter fun q => rkMirror q.2 && rkSource q.2 == c.partner && rkIntent q.2 == unit0 (fld body 0 8)).getLast? = some q)
    (hv : v = crewStore u (slotAddr64 u (fld (rkBody q.2) (40 + 4 * (fld body 0 8 % 32)) 4) + 64 + fld body 8 4) (slice body 64 (fld body 12 4))) :
    exec .append s = .next t := by
  subst hv
  show execAppend s = _
  refine pairRow_run hframe (by decide) ?_ htaken
  simp only [hstripe]

theorem exec_retire_of_frame (hframe : PairFrame s 0x15 c body seq u) (hv : v = retireIntent u (fld body 8 4) (fld body 0 8)) :
    exec .retire s = .next t := by
  subst hv
  show execRetire s = _
  exact pairRow_run hframe (by decide) rfl htaken

/-- Out of replay a device asks about nothing of its own. -/
theorem exec_pairHello_of_named {x : State} {named : List Slice} {mine : List (Nat × Nat)} (hframe : PairFrame s 1 c body seq u)
    (hw : w = putChan2 u { c with lost := bitAt (fld body 0 1) 0 })
    (hnamed : named = (w.kv.slices.filter fun x => bitAt (fld body (64 + x.slice / 8) 1) (x.slice % 8) && (activeView w).strokeDev x.slice == selfIndex w))
    (hx : x = named.foldl (fun s x => setActing (putSlice s { x with takeover := 4 }) x.slice false) w)
    (hmine : mine = (((pjKind (if named.any (fun x => x.takeover != 4) then raiseView x else x) 1 ++
      pjKind (if named.any (fun x => x.takeover != 4) then raiseView x else x) 4).filter
      fun r => rkMirror r.2 && rkSource r.2 == c.partner).map fun r => (rkGroup r.2, rkIntent r.2)))
    (hv : v = mine.eraseDups.foldl (fun s q => askIntent s c.partner q.1 q.2) (if named.any (fun x => x.takeover != 4) then raiseView x else x))
    (hreplay : v.pj.replay ≠ 2) : exec .pairHello s = .next t := by
  show execPairHello s = _
  refine pairRow_run hframe (by decide) ?_ htaken
  simp only [← hw, ← hnamed, ← hx, ← hmine, ← hv, ne_eq, hreplay, not_false_eq_true, if_true, List.filter_nil, List.foldl_nil]

theorem exec_intentQuery_of_outcome {o : Nat × Bytes} (hframe : PairFrame s 0x30 c body seq u)
    (hoffered : ((pjKind u 2).filter fun r => rkGroup r.2 == fld body 8 4 && rkIntent r.2 == fld body 0 8).getLast? = some o)
    (hv : v = (pairSend u c.partner 0x31 (le 8 (fld body 0 8) ++ le 4 (fld body 8 4) ++ le 1 (fld (rkBody o.2) 0 1))).1) :
    exec .intentQuery s = .next t := by
  subst hv
  show execIntentQuery s = _
  refine pairRow_run hframe (by decide) ?_ htaken
  simp only [hoffered]

/-- An intent unknown to a device that has not lost its journal is retired. -/
theorem exec_intentAnswer_of_unknown {run : Nat} (hframe : PairFrame s 0x31 c body seq u) (hunknown : fld body 12 1 = 4) (hjournal : c.lost = false)
    (hidle : (u.pj.intents.any fun i => i.group == fld body 8 4 && i.stripe == fld body 0 8 && !i.resolving) = false)
    (hrun : run = ((((pjKind u 1).find? fun r => rkGroup r.2 == fld body 8 4 && rkIntent r.2 == fld body 0 8).map fun r => fld (rkBody r.2) 0 4).getD 1))
    (hw : w = keptDecided u (fld body 8 4) (fld body 0 8) run 1)
    (hv : v = retireIntent { w with pj := { w.pj with intents := w.pj.intents.filter fun i => !(i.group == fld body 8 4 && i.stripe == fld body 0 8) } }
      (fld body 8 4) (fld body 0 8)) : exec .intentAnswer s = .next t := by
  subst hv hw hrun
  show execIntentAnswer s = _
  refine pairRow_run hframe (by decide) ?_ htaken
  simp only [hunknown, hjournal, hidle, Nat.reduceEqDiff, decide_false, Bool.or_self, Bool.false_eq_true, if_true, if_false]

theorem exec_handbackReady_of_taken {back : List Slice} (hframe : PairFrame s 0x20 c body seq u)
    (hback : back = u.kv.slices.filter fun x => (handSlices body).contains x.slice && x.takeover == 4) (hsome : back ≠ [])
    (hw : w = back.foldl (fun s x => setActing (putSlice s { x with takeover := 0 }) x.slice true) u)
    (hv : v = (pairSend (startCopying (logCrew (raiseView w) EV.handback) (back.map Slice.slice)) c.partner 0x21 body).1) :
    exec .handbackReady s = .next t := by
  subst hv hw
  show execHandbackReady s = _
  refine pairRow_run hframe (by decide) ?_ htaken
  simp only [← hback, List.isEmpty_eq_false_iff.2 hsome, Bool.false_eq_true, if_false]

theorem exec_handbackAck_of_frame (hframe : PairFrame s 0x21 c body seq u)
    (hv : v = (u.kv.slices.filter fun x => (handSlices body).contains x.slice && x.takeover == 3).foldl
      (fun s x => putSlice s { x with takeover := 0 }) u) : exec .handbackAck s = .next t := by
  subst hv
  show execHandbackAck s = _
  exact pairRow_run hframe (by decide) rfl htaken

end PairFrames

/-! ### Timers and events of a pair (R231, R232, R243, R245, R247, R249, R251 to R253) -/

section PairTimers

variable {s u v w a b y : State} {partner group stripe : Nat} {c d : PairCh} {xs : List Slice} (hlive : coreLive s = true)

include hlive

theorem exec_pairPathChange_of_change {linkEnd path : Nat} (hchan : chanWith s partner = some c)
    (hpath : path = (if linkEnd = 1 ∧ flag s F.PLK_STATUS_LINK = true then 1 else if (peerSession s 2 partner).isSome then 2 else 0))
    (hother : path ≠ c.path) (hd : d = { c with path := path, fallback := (peerSession s 2 partner).getD c.fallback }) :
    exec (.pairPathChange partner linkEnd) s = .next (pulse (logCrew (pairPush (pairResend (putChan2 s d) d) partner) EV.pairPath) 294) := by
  have hchosen : (if (linkEnd == 1 && flag s F.PLK_STATUS_LINK) = true then 1 else if (peerSession s 2 partner).isSome = true then 2 else 0) = path := by
    rw [hpath]; simp only [Bool.and_eq_true, beq_iff_eq]
  subst hd
  show execPairPathChange partner linkEnd s = _
  simp only [execPairPathChange, whileCore_run hlive, choosePath, hchan, hchosen, hother, if_false]

theorem exec_pairResendTimer_of_waiting (hchan : chanWith s partner = some c) (hopen : c.st = 2) (hwaits : (c.sent.any fun f => f.2.2.2 != []) = true) :
    exec (.pairResendTimer partner) s = .next (pairResend (reach s (c.movedAt + (if c.path = 1 then 100 * us else ms))) c) := by
  show execPairResendTimer partner s = _
  simp only [execPairResendTimer, whileCore_run hlive, hchan, hopen, hwaits, ne_eq, not_true_eq_false, Bool.not_true, Bool.false_eq_true, or_self,
    if_false]

theorem exec_pairAckTimer_of_open (hchan : chanWith s partner = some c) (hopen : c.st = 2) (hspeaks : c.mute = false) :
    exec (.pairAckTimer partner) s = .next (pairAck (reach s (c.ackSentAt + 50 * ms)) c) := by
  show execPairAckTimer partner s = _
  simp only [execPairAckTimer, whileCore_run hlive, hchan, hopen, hspeaks, and_self, if_true]

theorem exec_leaseLapse_of_silence {t : Nat} (hchan : chanWith s partner = some c) (hlast : c.lastAckAt = some t)
    (hsolo : (s.groups.any fun g => g.solo.contains partner) = false)
    (hmine : ((heldSlices s).any fun x => (activeView s).strokeDev x == selfIndex s && sliceBow s x == some partner) = true)
    (hfirst : (s.pj.leases.any fun l => l.1 == partner) = false) (hu : u = reach s (t + 500 * ms)) : exec (.leaseLapse partner) s =
      .next (pulse (logCrew { u with pj := { u.pj with leases := (partner, true) :: u.pj.leases } } EV.leaseLost) 294) := by
  subst hu
  show execLeaseLapse partner s = _
  simp only [execLeaseLapse, whileCore_run hlive, hchan, hlast, hsolo, hmine, hfirst, Bool.not_true, Bool.or_self, Bool.false_eq_true, if_false]

theorem exec_takeoverTimer_of_lost {at_ : Nat}
    (hpending : (takeoverStart s).pj.taken.find? (fun t => t.1 == partner && t.2.1 == 1) = some (partner, 1, at_))
    (hu : u = reach (takeoverStart s) (at_ + 1000 * ms)) (hxs : xs = takenSlices u partner [1])
    (hmay : ∀ x ∈ xs, hullLost u (sliceGroup u x.slice) partner = true ∧
      ∃ g, groupRec u (sliceGroup u x.slice) = some g ∧ g.ownLost = false ∧ majority u g = true)
    (hv : v = xs.foldl (fun s x => setActing (putSlice s { x with takeover := 2 }) x.slice true) u)
    (hy : y = takeoverResolve (startCopying (logCrew (raiseView
      { v with pj := { v.pj with taken := (partner, 2, v.now) :: v.pj.taken.filter fun t => t.1 != partner } }) EV.takeover) (xs.map Slice.slice)) partner)
    (hsets : resolvesNoSet y = false) :
    exec (.takeoverTimer partner) s = .next (advance y) := by
  subst hy hv hxs hu
  show execTakeoverTimer partner s = _
  simp only [execTakeoverTimer, whileCore_run hlive, hpending]
  rw [if_neg, hsets]
  · exact if_neg Bool.false_ne_true
  · intro hno
    rw [Bool.not_eq_true', ← Bool.not_eq_true] at hno
    refine hno (List.all_eq_true.2 fun x hx => ?_)
    obtain ⟨hlost, g, hgroup, hown, hmajority⟩ := hmay x hx
    simp only [hlost, hgroup, hown, hmajority, Bool.not_false, Bool.and_self]

/-- Where every slice is held back already, nothing but the copies and the sealing comes before HANDBACK_READY. -/
theorem exec_handbackStart_of_ready {groups : List Nat} {h : State} (hxs : xs = takenSlices s partner [2, 5]) (hsome : xs ≠ [])
    (hback : ∀ x ∈ xs, strokeBack s (sliceGroup s x.slice) partner = true ∧ x.takeover = 5) (hh : h = handCopies s partner (xs.map Slice.slice))
    (hcopied : (h.hte.requests.any fun r => r.op == 0x8A && r.hull == partner) = false)
    (hgroups : groups = (xs.map fun x => sliceGroup h x.slice).eraseDups)
    (hu : u = advance ((h.pj.opens.filter fun o => groups.contains o.group && !o.sealing).foldl sealStripe h))
    (hopens : (u.pj.opens.any fun o => groups.contains o.group) = false)
    (hintents : (u.pj.intents.any fun i => groups.contains i.group && (decide (i.step < 5) || !(allMirrored u i.group i.outMirror))) = false)
    (hw : w = xs.foldl (fun s x => setActing (putSlice s { x with takeover := 3 }) x.slice false) u) : exec (.handbackStart partner) s =
      .next (sendHandback (raiseView { w with kv := { w.kv with handed := w.kv.handed.filter fun x => !(xs.any fun y => y.slice == x) } }) partner
        (xs.map Slice.slice)) := by
  have hrejoined : (xs.all fun x => strokeBack s (sliceGroup s x.slice) partner) = true := List.all_eq_true.2 fun x hx => (hback x hx).1
  have hheld : (xs.filter fun x => x.takeover == 2) = [] := List.filter_eq_nil_iff.2 fun x hx => by rw [(hback x hx).2]; decide
  show execHandbackStart partner s = _
  simp only [execHandbackStart, whileCore_run hlive, ← hxs, List.isEmpty_eq_false_iff.2 hsome, hrejoined, ← hh, hcopied, hheld, List.foldl_nil,
    ← hgroups, ← hu, hopens, hintents, ← hw, Bool.not_true, Bool.or_self, Bool.false_eq_true, if_false]

theorem exec_handbackResend_of_handing (hxs : xs = takenSlices s partner [3]) (hsome : xs ≠ [])
    (hstroke : ∀ x ∈ xs, hullLost s (sliceGroup s x.slice) partner = false) : exec (.handbackResend partner) s =
      .next (sendHandback (reach s (((chanWith s partner).map PairCh.muteAt).getD 0 + 100 * ms)) partner (xs.map Slice.slice)) := by
  have hthere : (xs.any fun x => hullLost s (sliceGroup s x.slice) partner) = false := List.any_eq_false.2 fun x hx => by simp [hstroke x hx]
  show execHandbackResend partner s = _
  simp only [execHandbackResend, whileCore_run hlive, ← hxs, List.isEmpty_eq_false_iff.2 hsome, hthere, Bool.false_eq_true, if_false]

theorem exec_fragCommitResend_of_left {i : Intent} (hintent : intentOf s group stripe = some i) (hstep : i.step = 6)
    (hleft : i.seatsLeft.filter (seatCounts s group) ≠ []) : exec (.fragCommitResend group stripe) s =
      (let u := reach s (i.sentAt + 100 * ms)
       let v := (s.hte.requests.filter fun r => (r.op == 0x83 || r.op == 0x84) && fld r.msg 4 4 == group && fld r.msg 40 8 == stripe).foldl resendRequest u
       .next (putIntent v { i with sentAt := u.now })) := by
  show execFragCommitResend group stripe s = _
  simp only [execFragCommitResend, whileCore_run hlive, hintent, hstep, hleft, ne_eq, not_true_eq_false, or_self, if_false, reach_hte]

theorem exec_probeResend_of_probes {i j : Intent} (hintent : intentOf s group stripe = some i) (hresolving : i.resolving = true)
    (hprobes : i.probes ≠ [])
    (hv : v = (s.hte.requests.filter fun r => r.op == 0x82 && fld r.msg 4 4 == group && i.probes.contains (unit0 (fld r.msg 16 8), fld r.msg 24 1)).foldl
      resendRequest (reach s (i.sentAt + s.media.settings.fragReadMs * ms)))
    (hu : u = (i.probes.map fun q => ((stripeSeats v group i.genId q.1)[q.2]?).getD 0).foldl (fun s t => missDeadline s group t) v)
    (hstays : intentOf u group stripe = some j) :
    exec (.probeResend group stripe) s = .next (resolveStep (putIntent u { j with sentAt := u.now }) { j with sentAt := u.now }) := by
  show execProbeResend group stripe s = _
  simp only [execProbeResend, whileCore_run hlive, hintent, hresolving, List.isEmpty_eq_false_iff.2 hprobes, Bool.not_true, Bool.or_self,
    Bool.false_eq_true, if_false, reach_hte, ← hv, ← hu, hstays]

section Replay

variable (hdev : s.pwr.dev = 3) (ha : a = (if s.pj.replay = 0 then replayScan s else s))

include hdev ha

theorem exec_replay_of_no_hello (hscanned : a.pj.replay = 1) (hown : ownJournaled a = true) (hhello : hellosIn a = false) :
    exec .replay s = .next a := by
  show execReplay s = _
  simp only [execReplay, whileCore_run hlive, hdev, ← ha, hscanned, hown, hhello, ne_eq, not_true_eq_false, decide_true, Bool.not_false, Bool.and_self,
    if_true, if_false]

theorem exec_replay_of_hellos (hgoes : a.pj.replay ≠ 1 ∨ ownJournaled a = false ∨ hellosIn a = true)
    (hb : b = (if a.pj.replay = 1 then replayLoad a else a)) (hsets : resolvesNoSet b = false) (hu : u = settle (replayAgain b)) :
    exec .replay s = .next (if replayLeft u then u else leaveReplay u) := by
  have hready : (decide (a.pj.replay = 1) && ownJournaled a && !(hellosIn a)) = false := by
    rcases hgoes with h | h | h <;> simp [h]
  show execReplay s = _
  simp only [execReplay, whileCore_run hlive, hdev, ← ha, hready, ← hb, hsets, ← hu, ne_eq, not_true_eq_false, Bool.false_eq_true, if_false]

end Replay

theorem exec_majorityContactLoss_of_loss {g : Group} (hgroup : groupRec s group = some g) (hlost : majority s g = false) :
    exec (.majorityContactLoss group) s = .next (if g.solo.isEmpty then putGroup s { g with solo := [] }
      else pulse (logCrew (putGroup s { g with solo := [] }) EV.leaseLost) 294) := by
  show execMajorityContactLoss group s = _
  simp only [execMajorityContactLoss, whileCore_run hlive, hgroup, hlost, Bool.not_false, if_true]

end PairTimers

/-! ### Rebuild, local repair and the rewriting of stripes (R194, R211, R266, R280, R283, R284) -/

/-- The fragments counted as repaired have no part in the rate. -/
theorem repairRate_repaired (s : State) (n : Nat) (g : Group) (gen weight : Nat) :
    repairRate { s with media := { s.media with repaired := n } } g gen weight = repairRate s g gen weight := rfl

section Rebuilding

variable {s u v w : State} {group stripe : Nat} {g d : Group} (hlive : coreLive s = true) (hgroup : groupRec s group = some g)

include hlive hgroup

theorem exec_rebuildStart_of_lost (hlost : g.ownLost = true) (hnone : g.rebuild = none) (hdev : s.pwr.dev = 4)
    (hepoch : (newestEpoch g).1 ≤ activeEpoch s) (hsettled : (s.pj.intents.any fun i => i.resolving && i.group == group) = false)
    (hstays : g.returning = false) : exec (.rebuildStart group) s =
      .next (rebuildDecide (rebuildAsk s group ⟨1, false, [], 0, 0, false, [], [], [], 0, s.now⟩) group) := by
  show execRebuildStart group s = _
  simp only [execRebuildStart, whileCore_run hlive, hgroup, hlost, hnone, hdev, Nat.not_lt.2 hepoch, gt_iff_lt, hsettled, hstays, Option.isSome_none,
    beq_self_eq_true, Bool.not_true, Bool.or_self, Bool.false_eq_true, if_false]

theorem exec_rebuildStart_of_newer (hlost : g.ownLost = true) (hnone : g.rebuild = none) (hdev : s.pwr.dev = 4)
    (hepoch : activeEpoch s < (newestEpoch g).1)
    (hidle : (s.hte.requests.any fun r => r.op == 0x82 && fld r.msg 4 4 == 0 && fld r.msg 24 1 == 0xFF) = false) :
    exec (.rebuildStart group) s = .next (rigFetch s group (newestEpoch g).2 (newestEpoch g).1 0) := by
  show execRebuildStart group s = _
  simp only [execRebuildStart, whileCore_run hlive, hgroup, hlost, hnone, hdev, hepoch, gt_iff_lt, hidle, Option.isSome_none, beq_self_eq_true,
    Bool.not_true, Bool.or_self, Bool.false_eq_true, if_true, if_false]

theorem exec_rebuildPosition_of_missing {r : Rebuild} {q : Nat × Nat × Nat × Nat} (hrebuild : g.rebuild = some r) (hrunning : r.running = true)
    (hlisted : r.asked = []) (hnext : nextMissing s g r.missing = some q)
    (hremade : Remade (reach s s.media.repairAt) (crewUser s 1 group) group q.1 q.2.1 q.2.2.1 u)
    (hv : v = repairSpent u (repairRate u g q.2.2.1 q.2.2.2)) (hkept : groupRec v group = some d) :
    exec (.rebuildPosition group) s = .next (putGroup v { d with rebuild := d.rebuild.map fun r =>
      { r with missing := r.missing.filter (fun p => p.1 != q.1), done := r.done + 1 } }) := by
  subst hv
  show execRebuildPosition group s = _
  simp only [execRebuildPosition, whileCore_run hlive, hgroup, hrebuild, hrunning, hlisted, hnext, remake_run hremade, hkept, List.isEmpty_nil,
    Bool.not_true, Bool.or_self, Bool.false_eq_true, if_true, if_false]
  rfl

theorem exec_rebuildPosition_of_none {r : Rebuild} (hrebuild : g.rebuild = some r) (hrunning : r.running = true) (hlisted : r.asked = [])
    (hnone : nextMissing s g r.missing = none) :
    exec (.rebuildPosition group) s = .next (rebuildDecide (rebuildAsk s group r) group) := by
  show execRebuildPosition group s = _
  simp only [execRebuildPosition, whileCore_run hlive, hgroup, hrebuild, hrunning, hlisted, hnone, List.isEmpty_nil, Bool.not_true, Bool.or_self,
    Bool.false_eq_true, if_false]

theorem exec_rebuildRateSample_of_settings {hostBytes rate : Nat} (hbounds : s.media.settings.rebuildMin ≤ s.media.settings.rebuildMax)
    (hrate : rate = (if portBytes100ms s = 0 then 0 else s.media.settings.rebuildMax * (portBytes100ms s - hostBytes) / portBytes100ms s))
    (hu : u = { s with media := { s.media with repairRates := kvPut s.media.repairRates group (max s.media.settings.rebuildMin rate) } }) :
    exec (.rebuildRateSample group hostBytes) s =
      .next (putGroup u { g with rebuild := g.rebuild.map fun r => { r with rate := max s.media.settings.rebuildMin rate } }) := by
  subst hu hrate
  show execRebuildRateSample group hostBytes s = _
  simp only [execRebuildRateSample, whileCore_run hlive, hgroup, gt_iff_lt, Nat.not_lt.2 hbounds, if_false]

theorem exec_rebuildProgressTimer_of_running {r : Rebuild} (hrebuild : g.rebuild = some r) (hrunning : r.running = true)
    (hu : u = reach s (r.sentAt + 10 * sec)) : exec (.rebuildProgressTimer group) s =
      .next (rebuildNotice (putGroup u { g with rebuild := some { r with sentAt := u.now } }) g 4 r.done r.found) := by
  subst hu
  show execRebuildProgressTimer group s = _
  simp only [execRebuildProgressTimer, whileCore_run hlive, hgroup, hrebuild, hrunning, Bool.not_true, Bool.false_eq_true, if_false]

theorem exec_localRepair_of_missing {q : Nat × Nat × Nat × Nat}
    (hnext : nextMissing s g ((s.media.frags.filter fun f => f.group == group && f.kind == 4).map fun f => (f.stripe, f.pos, fragGen s f, 0)) = some q)
    (hremade : Remade (reach s s.media.repairAt) (crewUser s 2 group) group q.1 q.2.1 q.2.2.1 u)
    (hw : w = { u with media := { u.media with repaired := u.media.repaired + 1 } })
    (hv : v = repairSpent w (repairRate w g q.2.2.1 q.2.2.2)) : exec (.localRepair group) s =
      .next (repairEnds (if (u.media.repaired + 1) % 65536 = 0 then logCrew v EV.fragmentRepaired else v)) := by
  subst hw
  rw [repairRate_repaired] at hv
  subst hv
  show execLocalRepair group s = _
  simp only [execLocalRepair, whileCore_run hlive, hgroup, hnext, remake_run hremade]

variable {x : KeptStripe} (hfree : intentsHeld s = false) (hx : keptOf g (unit0 stripe) = some x) (hclosed : x.open_ = false) (hlives : x.lost = false)
  (hslice : x.slice ≠ 65537)

include hfree hx hclosed hlives hslice

theorem exec_stripeRewrite_of_large (hlarge : x.packed = false) : exec (.stripeRewrite group stripe) s =
    .next (if (if actsFor s x.slice then indexNames s group (unit0 stripe) else !(s.kv.disowned.contains x.slice)) then cycleStep s group
      else freeDead s group x) := by
  show execStripeRewrite group stripe s = _
  simp only [execStripeRewrite, whileCore_run hlive, hgroup, hfree, hx, hclosed, hlives, hslice, hlarge, Bool.false_eq_true, if_false]
  exact (apply_ite _ _ _ _).symm

theorem exec_stripeRewrite_of_packed (hpacked : x.packed = true) : exec (.stripeRewrite group stripe) s = rewritePacked s group x := by
  show execStripeRewrite group stripe s = _
  simp only [execStripeRewrite, whileCore_run hlive, hgroup, hfree, hx, hclosed, hlives, hslice, hpacked, Bool.false_eq_true, if_true, if_false]

end Rebuilding

/-- What becomes of a packed stripe whose units are at hand. -/
theorem rewritePacked_of_units {s u v : State} {group : Nat} {x : KeptStripe} {set : GenSet} {d : List Bytes} {dec : Bool}
    {reps : List (Nat × Bytes)} {recs live : List (Nat × RecHdr × Bytes)} {w : State × Bool} (hset : genOf s group x.genId = some set)
    (hread : readStripe s (crewUser s 0 group) group x.genId x.stripe (List.range set.k) = (v, .units d dec reps))
    (hu : u = dropFetches v (crewUser s 0 group))
    (hrecs : recs = (stripeRecords u d).map (fun q => (recLive u x.stripe q.1 q.2.2.1 q.2.2.2, q.2.2)))
    (hl : live = recs.filter (fun q => q.1 == 1 || q.1 == 3)) (hw : w = copyRecords (live.map fun q => q.2) u) : rewritePacked s group x =
      .next (if recs.any fun q => q.1 == 2 then cycleStep u group else if live.isEmpty then freeDead u group x
        else if (live.map fun q => alignUp q.2.2.length 8).sum * 100 ≥ u.media.settings.compactPct * set.k * plainLen then cycleStep u group
        else if recs.any fun q => q.1 == 3 then cycleStep (copyDescriptor u group x.stripe (live.map fun q => q.2.2).flatten) group
        else cycleStep (if w.2 then markCopied w.1 group x.stripe else advance (sealOldest w.1)) group) := by
  simp only [rewritePacked, hset, hread, ← hu, ← hrecs, ← hl, ← hw]
  split
  · rfl
  split
  · rfl
  split
  · rfl
  split <;> rfl

end Sys2Proof.Machine

section Settled

open Sys2Proof Sys2Proof.Machine

/-- Settles O29, message by message; the three outcomes run one row. -/
theorem fragmentsComplete : Obligations.FragmentsComplete := by
  unfold Obligations.FragmentsComplete
  intro s u id b h hh
  exact ⟨fun _ => exec_fragWrite_of_new hh, exec_fragWrite_of_held hh, fun _ => exec_fragRead_of_held hh,
    fun _ hturn hcheck hkind hpos hcrc _ => exec_fragReplace_of_position hh hturn hcheck hkind hpos hcrc,
    fun _ hrun => ⟨outcomeRow_of_run hh hrun, outcomeRow_of_run hh hrun, outcomeRow_of_run hh hrun⟩,
    fun _ _ => exec_fragWriteResend_of_due, fun _ => exec_stripeLost_of_recorded hh, fun _ _ => exec_inventory_of_fits hh, exec_sliceDisown_notes hh⟩

/-- Settles O30, command by command. -/
theorem groupsComplete : Obligations.GroupsComplete := by
  unfold Obligations.GroupsComplete
  intro s group g hlive hgroup
  refine ⟨?status, exec_groupStatusTimer_of_group hlive hgroup, ?forming, fun _ => exec_seatSilenceExpiry_of_seat hlive hgroup,
    fun _ _ _ _ => exec_writeLimitExpiry_of_request hlive, fun _ _ _ _ _ hturn htold hof hknown => exec_rebuildNotice_of_progress hturn htold hof hknown⟩
  case status =>
    intro id b u r x i p v hturn hof hx hp hknown hseat hdev
    exact exec_groupStatus_of_seat hturn hof hx hp hknown hseat hdev
  case forming =>
    intro x fails u hset hforming hstays hdescriptor hu hfails
    exact exec_formingTimeout_of_fails hlive hgroup hset hforming hstays hdescriptor hu hfails

/-- Settles O31, step by step of the change. -/
theorem epochChangeComplete : Obligations.EpochChangeComplete := by
  unfold Obligations.EpochChangeComplete
  intro s u id b e he
  refine ⟨?start, exec_epochLeaderLimit_of_preparing, exec_epochPrepare_of_prepared he, fun _ _ _ => exec_epochPrepare_of_drained he,
    exec_epochCommit_of_epoch he, exec_epochAbort_of_staged he, fun hturn _ => exec_epochQuery_of_answer he hturn,
    fun _ _ hlive => exec_epochPreparedTimeout_of_prepared hlive, fun _ _ => exec_sliceCopy_of_changes, fun _ => exec_sliceCopy_of_request,
    fun _ hlive => exec_rigSwapEnd_of_swapping hlive⟩
  case start =>
    rintro c hlive hstaged hflag _ w peers rfl hw hpeers
    exact ⟨exec_epochChangeStart_of_member hlive hstaged hflag hw, exec_epochChangeStart_of_leader hlive hstaged hflag hw hpeers⟩

/-- Settles O34, frame by frame: each comes to a state, and a data frame is then acknowledged. -/
theorem pairFramesComplete : Obligations.PairFramesComplete := by
  unfold Obligations.PairFramesComplete
  intro s u v t c body seq
  refine ⟨exec_ack_of_frame, fun htaken => ?_⟩
  exact ⟨exec_intentFrame_of_mirrored htaken, fun _ _ _ => exec_outcomeFrame_of_changes htaken, fun _ _ _ => exec_indexFrame_of_changes htaken,
    fun _ => exec_openStripeFrame_of_slots htaken, fun _ => exec_append_of_stripe htaken, exec_retire_of_frame htaken,
    fun _ _ _ _ => exec_pairHello_of_named htaken, fun _ => exec_intentQuery_of_outcome htaken, fun _ _ => exec_intentAnswer_of_unknown htaken,
    fun _ hframe hsome => exec_handbackReady_of_taken htaken hframe rfl hsome, exec_handbackAck_of_frame htaken⟩

/-- Settles O35, timer by timer; a replay waits for the PAIR_HELLOs or goes on. -/
theorem pairTimersComplete : Obligations.PairTimersComplete := by
  unfold Obligations.PairTimersComplete
  intro s partner group stripe c hlive
  refine ⟨exec_pairResendTimer_of_waiting hlive, exec_pairAckTimer_of_open hlive, fun _ _ _ => exec_pairPathChange_of_change hlive,
    fun _ _ => exec_leaseLapse_of_silence hlive, fun _ _ _ _ _ => exec_takeoverTimer_of_lost hlive,
    fun _ _ _ _ _ => exec_handbackStart_of_ready hlive, fun _ => exec_handbackResend_of_handing hlive, fun _ => exec_fragCommitResend_of_left hlive,
    fun _ _ _ hintent hresolving hprobes => exec_probeResend_of_probes hlive hintent hresolving hprobes rfl, ?replay,
    fun _ => exec_majorityContactLoss_of_loss hlive⟩
  case replay =>
    intro a b u hdev ha
    exact ⟨exec_replay_of_no_hello hlive hdev ha, exec_replay_of_hellos hlive hdev ha⟩

/-- Settles O36: the rows of a group's rebuild, then those of its stripes, a large one judged by the index and a packed one by its records. -/
theorem rebuildComplete : Obligations.RebuildComplete := by
  unfold Obligations.RebuildComplete
  intro s group g hlive hgroup
  refine ⟨exec_rebuildStart_of_lost hlive hgroup, exec_rebuildStart_of_newer hlive hgroup, fun _ _ _ _ _ => exec_rebuildPosition_of_missing hlive hgroup,
    fun _ => exec_rebuildPosition_of_none hlive hgroup, fun _ _ _ => exec_rebuildRateSample_of_settings hlive hgroup,
    fun _ _ => exec_rebuildProgressTimer_of_running hlive hgroup,
    fun _ _ _ hnext hremade => exec_localRepair_of_missing hlive hgroup hnext hremade rfl,
    fun _ _ => exec_stripeRewrite_of_large hlive hgroup, ?packed⟩
  case packed =>
    intro stripe x set v d dec reps u recs live w hfree hx hclosed hlives hslice hpacked hset hread hu hrecs hl hw
    exact (exec_stripeRewrite_of_packed hlive hgroup hfree hx hclosed hlives hslice hpacked).trans
      (rewritePacked_of_units hset hread hu hrecs hl hw)

end Settled
end

section
/-! PROOFS. What the family "protected journal and pair" states of the journal's registers, of the test of the energy store, of the end of a vault
restore, and of the always-on domain. -/

namespace Sys2Proof.Machine

/-! ### The energy store's test and the journal's registers (R220, R222, R240, R255) -/

section JournalRegisters

variable {s u v : State} {core entry value bytes n off : Nat}

theorem exec_esTest_of_turn (hturn : StoreTurn s core F.ES_CTRL_TEST.addr u) (v0 : Nat) : exec (.esTest core v0) s = .next (esTestStart u v0) := by
  show execEsTest core v0 s = _
  rw [execEsTest, coreStore_run hturn]

theorem exec_esTestEnd_of_live (hlive : coreLive s = true) (v1 : Nat) : exec (.esTestEnd v1) s = .next (esTestEnd s v1) := by
  show execEsTestEnd v1 s = _
  rw [execEsTestEnd, whileCore_run hlive]

theorem exec_pjEnable_of_turn (hturn : StoreTurn s core F.PJ_CTRL_ENABLE.addr u) : exec (.pjEnable core) s = .next (pjEnable u) := by
  show execPjEnable core s = _
  rw [execPjEnable, coreStore_run hturn]

/-- No other valid entry of the set names the LUN of a value, in the form in which the command looks for one. -/
theorem vmap_any_same_eq_false (hother : ∀ i < 512, i ≠ entry → i / 256 = entry / 256 → flag u (F.PJ_VMAP_VALID i) = true →
      getF u (F.PJ_VMAP_CHANNEL i) = bits value 35 5 → getF u (F.PJ_VMAP_CE i) = bits value 32 3 → getF u (F.PJ_VMAP_LUN i) ≠ bits value 30 2) :
    ((List.range 512).any fun i => i != entry && i / 256 == entry / 256 && flag u (F.PJ_VMAP_VALID i) && getF u (F.PJ_VMAP_CHANNEL i) == bits value 35 5 &&
      getF u (F.PJ_VMAP_CE i) == bits value 32 3 && getF u (F.PJ_VMAP_LUN i) == bits value 30 2) = false := by
  refine List.any_eq_false.2 fun i hi hsame => ?_
  simp only [Bool.and_eq_true, bne_iff_ne, beq_iff_eq] at hsame
  obtain ⟨⟨⟨⟨⟨hne, hset⟩, hvalid⟩, hchannel⟩, hce⟩, hlun⟩ := hsame
  exact hother i (List.mem_range.1 hi) hne hset hvalid hchannel hce hlun

theorem exec_pjVmapWrite_of_good (hturn : StoreTurn s core (F.PJ_VMAP_VALID entry).addr u) (hentry : entry < 512) (hhigh : bits value 40 23 = 0)
    (hlow : bits value 24 6 = 0) (harm : flag u F.PJ_CTRL_DUMP_ARM = false)
    (hnames : bitAt value 63 = true → vmapLun u value = true ∧ ∀ i < 512, i ≠ entry → i / 256 = entry / 256 → flag u (F.PJ_VMAP_VALID i) = true →
      getF u (F.PJ_VMAP_CHANNEL i) = bits value 35 5 → getF u (F.PJ_VMAP_CE i) = bits value 32 3 → getF u (F.PJ_VMAP_LUN i) ≠ bits value 30 2)
    (hv : v = setLimit (keepVault (putVmap u entry value) entry value)) :
    exec (.pjVmapWrite core entry value) s = .next (if flag v F.PJ_CTRL_ENABLE then setJournalSize v else v) := by
  subst hv
  show execPjVmapWrite core entry value s = _
  simp only [execPjVmapWrite, coreStore_run hturn, ge_iff_le, Nat.not_le.2 hentry, hhigh, hlow, harm, ne_eq, not_true_eq_false, or_self, Bool.false_or,
    if_false]
  cases hbit : bitAt value 63 with
  | false => simp only [Bool.false_and, Bool.false_eq_true, if_false]
  | true =>
    obtain ⟨hpresent, hother⟩ := hnames hbit
    simp only [hpresent, vmap_any_same_eq_false hother, Bool.not_true, Bool.or_self, Bool.and_false, Bool.false_eq_true, if_false]

theorem exec_pjRestore_of_stopped (hturn : StoreTurn s core F.PJ_CTRL_RESTORE.addr u) (henable : flag u F.PJ_CTRL_ENABLE = false)
    (harm : flag u F.PJ_CTRL_DUMP_ARM = false) (hloading : u.pj.loading = false) :
    exec (.pjRestore core) s = .next { u with pj := { u.pj with loading := true } } := by
  show execPjRestore core s = _
  simp only [execPjRestore, coreStore_run hturn, henable, harm, hloading, Bool.or_self, Bool.false_eq_true, if_false]

theorem exec_pjAllocReq_of_no_room (hturn : StoreTurn s core (F.PJ_ALLOC_REQ_BYTES core).addr u)
    (hfull : alignUp bytes 64 = 0 ∨ ringRoom u (alignUp bytes 64) = false) :
    exec (.pjAllocReq core bytes) s = .next (setF u (F.PJ_ALLOC_FULL core) 1) := by
  have hrefused : alignUp bytes 64 = 0 ∨ (!(ringRoom u (alignUp bytes 64))) = true := hfull.imp_right fun h => by rw [h, Bool.not_false]
  show execPjAllocReq core bytes s = _
  simp only [execPjAllocReq, coreStore_run hturn, hrefused, if_true]

theorem padRecord_of_fits (h : padNeeded u n = 0) : padRecord u n = u := by simp only [padRecord, h, if_true]

/-- Where no PAD record comes first, the space reserved begins at the head. -/
theorem exec_pjAllocReq_of_room (hturn : StoreTurn s core (F.PJ_ALLOC_REQ_BYTES core).addr u) (hn : n = alignUp bytes 64) (hsome : n ≠ 0)
    (hroom : ringRoom u n = true) (hpad : padNeeded u n = 0) (hv : v = (nextRseq u).2) (hoff : off = pjHead v % max (pjRingBytes v) 1) :
    exec (.pjAllocReq core bytes) s =
      (let v := { v with pj := { v.pj with reserved := v.pj.reserved ++ [(pjHead v, n)] } }
       let w := setF (setF v (F.PJ_ALLOC_FULL core) 0) (F.PJ_ALLOC_OFFSET core) off
       let w := setF (setF w (F.PJ_ALLOC_SEQ_RSEQ core) u.pj.rseq) F.PJ_HEAD_OFFSET (pjHead w + n)
       .next { w with pj := { w.pj with ports := (core, off) :: w.pj.ports.filter fun p => p.1 != core } }) := by
  subst hoff hv hn
  show execPjAllocReq core bytes s = _
  simp only [execPjAllocReq, coreStore_run hturn, hsome, hroom, padRecord_of_fits hpad, Bool.not_true, Bool.false_eq_true, or_self, if_false]
  rfl

theorem exec_pjAllocRead_of_coreOn (hon : coreOn s core = true) (width : Nat) : exec (.pjAllocRead core width) s =
    .next (emit (allocRead (coreActs s core) core width).1 (.readValue (F.PJ_ALLOC_OFFSET core).addr (allocRead (coreActs s core) core width).2)) := by
  show execPjAllocRead core width s = _
  rw [execPjAllocRead, coreRuns_on hon]

end JournalRegisters

/-! ### The end of a vault restore (R242, R213, R302, R307) -/

section RestoreEnd

variable {s y t w : State} {e : Nat} {k : Bytes}

theorem exec_pjRestoreEnd_of_loading (hlive : coreLive s = true) (hloading : s.pj.loading = true) : exec .pjRestoreEnd s = bootEnd (restoreEnd s) := by
  show execPjRestoreEnd s = _
  simp only [execPjRestoreEnd, whileCore_run hlive, hloading, if_true]

theorem bootEnd_of_past_boot (h : s.pwr.dev ≠ 1) : bootEnd s = .next s := by simp only [bootEnd, ne_eq, h, not_false_eq_true, if_true]

theorem bootEnd_of_boot (h : s.pwr.dev = 1) (hy : y = reloadKeys { s with pwr := { s.pwr with dev := 2 } }) : bootEnd s = rigStart y := by
  subst hy
  simp only [bootEnd, h, ne_eq, not_true_eq_false, if_false]

theorem rigStart_of_no_epoch (h : startEpoch y = 0) : rigStart y = .next y := by simp only [rigStart, h, if_true]

/-- A kept container is staged by its loader's end. -/
theorem stageKept_of_kept (hkept : (y.rig.kept.find? fun k => k.1 == e) = some (e, k))
    (hends : LoaderEnds (setF (crewStore y (getF y F.RIG_SRC_ADDR_ADDR) k) F.RIG_SRC_LEN_BYTES k.length) t) :
    stageKept y e = .next (rigChannels t) := by
  simp only [stageKept, hkept, rigStageEnd_run hends, andThen]

/-- A device that took part in no epoch change has none to resume; the phase written again is the one it has. -/
theorem epochResume_of_no_change (h : w.epoch.phase ∉ [1, 2, 5, 6]) : epochResume w = .next w := by
  simp only [List.mem_cons, List.not_mem_nil, or_false, not_or] at h
  obtain ⟨hstaged, hprepared, hpreparing, hcommit⟩ := h
  simp only [epochResume, hstaged, hprepared, hpreparing, hcommit, if_false, ite_self]

theorem rigStart_of_active (he : startEpoch y = e) (hsome : e ≠ 0) (hactive : e = y.rig.active)
    (hkept : (y.rig.kept.find? fun k => k.1 == e) = some (e, k))
    (hends : LoaderEnds (setF (crewStore y (getF y F.RIG_SRC_ADDR_ADDR) k) F.RIG_SRC_LEN_BYTES k.length) t)
    (hw : w = startSwap (rigChannels t) none) (hphase : w.epoch.phase ∉ [1, 2, 5, 6]) : rigStart y = .next w := by
  subst hw
  simp only [rigStart, he, hsome, ← hactive, stageKept_of_kept hkept hends, andThen, epochResume_of_no_change hphase, if_true, if_false]

end RestoreEnd

/-! ### What a record of the logbook leaves unchanged -/

theorem countF_writes_regs (s : State) (f : Fld) (n : Nat) : ∃ free regs, countF s f n = { s with free := free, regs := regs } := by
  simp only [countF]
  split
  · exact ⟨_, _, rfl⟩
  · exact ⟨_, _, rfl⟩

/-- A submission writes the registers and the logbook alone, with a free value where a counter passes its width. -/
theorem logSubmit_writes_front_end (s : State) (source code p0 p1 p2 p3 : Nat) :
    ∃ free regs lb, (logSubmit s source code p0 p1 p2 p3).1 = { s with free := free, regs := regs, lb := lb } := by
  have hsuppress : ∀ t, ∃ free regs lb, logSuppress s t = { s with free := free, regs := regs, lb := lb } := fun t =>
    (countF_writes_regs _ _ _).imp fun _ h => h.imp fun _ h => ⟨_, h⟩
  have haccept : ∀ t, ∃ free regs lb, logAccept s source code p0 p1 p2 p3 t = { s with free := free, regs := regs, lb := lb } := fun t =>
    (countF_writes_regs _ _ _).imp fun _ h => h.imp fun _ h => ⟨_, h⟩
  simp only [logSubmit]
  split
  · exact ⟨_, _, _, rfl⟩
  split
  · exact hsuppress _
  split
  · exact haccept _
  split
  · exact hsuppress _
  · exact haccept _

@[simp] theorem logEv_pj (s : State) (code p0 p1 p2 : Nat) : (logEv s code p0 p1 p2).pj = s.pj := by
  obtain ⟨free, regs, lb, h⟩ := logSubmit_writes_front_end s 0 code p0 p1 p2 0
  rw [logEv, h]

/-! ### Wakes and docking (R536, R538, R540, R611) -/

section Wakes

variable {s u v : State} {hull : Nat} {w : Nat × Nat × Nat}

/-- With no move under way, a wake event starts a device that sleeps. -/
theorem wakeEvent_of_asleep (hasleep : asleep s = true) (hmove : s.pwr.move = none) (hwaking : s.pwr.waking = false) (cause pattern : Nat) :
    wakeEvent s cause pattern = wakeDevice s cause pattern := by
  simp only [wakeEvent, hmove, hasleep, hwaking, Bool.not_false, Bool.and_self, if_true]

@[simp] theorem asleep_reach (s : State) (t : Nat) : asleep (reach s t) = asleep s := rfl

theorem exec_wakeNLow_of_asleep (held : Nat) (hasleep : asleep s = true) (hmove : s.pwr.move = none) (hwaking : s.pwr.waking = false) :
    exec (.wakeNLow held) s = .next (wakeDevice { s with pins := { s.pins with wakeN := held != 1 } } 1 0) := by
  show execWakeNLow held s = _
  exact congrArg Host.Outcome.next (wakeEvent_of_asleep (s := { s with pins := { s.pins with wakeN := held != 1 } }) hasleep hmove hwaking 1 0)

section WakeAt

variable {at_ : Nat} (hat : at_ = getF s F.AON_WAKE_AT_SECONDS) (hsome : at_ ≠ 0)
  (hu : u = reach s (s.pwr.opsecAt + (at_ - s.pwr.opsecBase) * sec)) (hmove : s.pwr.move = none)

include hat hsome hu hmove

theorem exec_aonWakeAtReached_of_awake (hawake : asleep s = false) : exec .aonWakeAtReached s = .next (setF u F.AON_STATUS_DUE 1) := by
  subst hu hat
  show execAonWakeAtReached s = _
  simp [execAonWakeAtReached, hsome, hmove, hawake]

theorem exec_aonWakeAtReached_of_asleep (hasleep : asleep s = true) (hwaking : s.pwr.waking = false) :
    exec .aonWakeAtReached s = .next (wakeDevice u 3 0) := by
  have hwake : wakeEvent u 3 0 = wakeDevice u 3 0 := by subst hu; exact wakeEvent_of_asleep (s := reach s _) hasleep hmove hwaking 3 0
  subst hu hat
  show execAonWakeAtReached s = _
  simp only [execAonWakeAtReached, hsome, asleep_reach, hasleep, Bool.true_or, hwake, if_true, if_false]

end WakeAt

section Docked

variable (hlive : coreLive s = true)

include hlive

theorem exec_dockingNotice_twice (hv : v = tellDocked s) (hu : u = tellDocked (reach v (v.now + 10 * ms))) : exec .dockingNotice s =
    .next { reach u (u.now + 10 * ms) with pwr := { (reach u (u.now + 10 * ms)).pwr with notices := 2 } } := by
  subst hu hv
  show execDockingNotice s = _
  rw [execDockingNotice, whileCore_run hlive]

variable (hwake : (s.pwr.wakes.find? fun w => w.1 == hull) = some w)

include hwake

theorem exec_dockedWakeResend_of_needed (hu : u = reach s w.2.2) : exec (.dockedWakeResend hull) s = .next { u with
    pwr := { u.pwr with wakes := u.pwr.wakes.map fun x => if x.1 = hull then (x.1, x.2.1, x.2.2 + 500 * ms) else x }
    svc := { u.svc with replies := u.svc.replies ++ [wakeFrame u hull] } } := by
  subst hu
  show execDockedWakeResend hull s = _
  simp only [execDockedWakeResend, whileCore_run hlive, hwake, reach_pwr]

theorem exec_dockedWakeTimeout_of_needed (hv : v = reach s (w.2.1 + 5 * sec))
    (hu : u = v.groups.foldl (fun s g =>
        match hullSeat s g.id hull with
        | none => s
        | some t =>
          match g.info t with
          | some i => if i.dev = 8 then putGroup s (g.setInfo { i with dev := 0, heardAt := s.now }) else s
          | none => s) { v with pwr := { v.pwr with wakes := v.pwr.wakes.filter fun x => x.1 != hull } }) :
    exec (.dockedWakeTimeout hull) s = .next { u with hte := { u.hte with requests := u.hte.requests.map fun r =>
      if (r.hull == hull && r.session == noSession && wakeOps.contains r.op) = true then { r with firstAt := u.now } else r } } := by
  subst hu hv
  show execDockedWakeTimeout hull s = _
  simp only [execDockedWakeTimeout, whileCore_run hlive, hwake] <;> rfl

end Docked
end Wakes

/-! ### The watchdog and the counters (R541, R542) -/

section Watchdog

variable {s u v : State} {core seconds : Nat}

theorem exec_watchdogArm_of_armed (hturn : StoreTurn s core F.AON_WDOG_ENABLE.addr u) (harmed : flag u F.AON_WDOG_ENABLE = true) (seconds : Nat) :
    exec (.watchdogArm core seconds) s = .next u := by
  show execWatchdogArm core seconds s = _
  simp only [execWatchdogArm, coreStore_run hturn, harmed, if_true]

/-- A count that R542 allows fits SECONDS, and ENABLE is another field. -/
theorem getF_wdogSeconds_of_armed (u : State) (hmax : seconds ≤ 60) :
    getF (setF (setF u F.AON_WDOG_SECONDS seconds) F.AON_WDOG_ENABLE 1) F.AON_WDOG_SECONDS = seconds := by
  rw [getF_setF_other _ _ (by decide), getF_setF_same]
  exact Nat.mod_eq_of_lt (Nat.lt_of_le_of_lt hmax (by decide))

theorem exec_watchdogArm_of_idle (hturn : StoreTurn s core F.AON_WDOG_ENABLE.addr u) (hidle : flag u F.AON_WDOG_ENABLE = false) (hmin : 1 ≤ seconds)
    (hmax : seconds ≤ 60) (hv : v = setF (setF u F.AON_WDOG_SECONDS seconds) F.AON_WDOG_ENABLE 1) :
    exec (.watchdogArm core seconds) s = .next { v with pwr := { v.pwr with wdogAt := some (v.now + seconds * sec) } } := by
  have hrange : ¬(seconds < 1 ∨ seconds > 60) := by omega
  subst hv
  show execWatchdogArm core seconds s = _
  simp only [execWatchdogArm, coreStore_run hturn, hidle, hrange, Bool.false_eq_true, if_false]

theorem exec_watchdogKick_of_armed (hturn : StoreTurn s core F.AON_WDOG_KICK.addr u) (harmed : flag u F.AON_WDOG_ENABLE = true) :
    exec (.watchdogKick core) s = .next { u with pwr := { u.pwr with wdogAt := some (u.now + getF u F.AON_WDOG_SECONDS * sec) } } := by
  show execWatchdogKick core s = _
  simp only [execWatchdogKick, coreStore_run hturn, harmed, if_true]

/-- The record of the expiry begins no vault dump, so the device is reset. -/
theorem exec_watchdogExpiry_of_no_dump {t : Nat} (hat : s.pwr.wdogAt = some t) (hu : u = pentTrigger (reach s t) 2 0) (hdump : u.pj.dumping = none) :
    exec .watchdogExpiry s = .next (deviceReset (logEv u EV.watchdog (getF u F.AON_WDOG_SECONDS) 0 0) 3) := by
  show execWatchdogExpiry s = _
  simp only [execWatchdogExpiry, hat, ← hu, logEv_pj, hdump, Option.isSome_none, Bool.false_eq_true, if_false]

end Watchdog

/-! ### The fall of PFAIL_N and the vault dump (R239, R548, R575, R588) -/

section PowerFall

variable {s u : State}

theorem exec_pfailNFall_of_high (hhigh : s.pins.pfailN = true) (hu : u = { s with pins := { s.pins with pfailN := false } }) :
    exec .pfailNFall s = .next (programBuffer (logEv (powerFalls u 0) EV.pfail (getF s F.PJ_CTRL_DUMP_ARM) 0 0)) := by
  subst hu
  show execPfailNFall s = _
  simp only [execPfailNFall, hhigh, Bool.not_true, Bool.false_eq_true, if_false]

theorem exec_vaultDumpEnd_of_dumping (hdump : s.pj.dumping.isSome = true) (hu : u = deviceReset (dumpFinish s) 2) : exec .vaultDumpEnd s =
    .next { u with pwr := { u.pwr with resetHold := none, start := if u.pins.pfailN then 2 else 1 } } := by
  have hrunning : s.pj.dumping.isNone = false := by rw [← Option.not_isSome, hdump, Bool.not_true]
  subst hu
  show execVaultDumpEnd s = _
  simp only [execVaultDumpEnd, hrunning, Bool.false_eq_true, if_false]

end PowerFall

/-! ### Thermal steps (R548 to R550, Table 18-6) -/

section Thermal

variable {s u : State} {tj : Nat} (hu : u = setF s F.PWR_THERM_TJ tj)

include hu

theorem exec_thermalSample_of_held (hheld : s.pwr.resetHold = some 5) (hcool : tjOf tj < 100) :
    exec (.thermalSample tj) s = .next { u with pwr := { u.pwr with resetHold := none } } := by
  subst hu
  show execThermalSample tj s = _
  simp only [execThermalSample, setF_pwr, hheld, hcool, if_true]

variable (hfree : s.pwr.resetHold = none)

include hfree

theorem exec_thermalSample_of_shutdown (hhot : 128 ≤ tjOf tj) (hdump : s.pj.dumping = none) :
    exec (.thermalSample tj) s = .next (thermalShutdown u (tj % 512)) := by
  subst hu
  show execThermalSample tj s = _
  simp only [execThermalSample, setF_pwr, setF_pj, hfree, reduceCtorEq, ge_iff_le, hhot, hdump, Option.isSome_none, Bool.false_eq_true, if_true,
    if_false]

variable (hbelow : tjOf tj < 128)

include hbelow

theorem exec_thermalSample_of_entered (hup : getF u F.PWR_THERM_STEP < stepReached u (tjOf tj)) :
    exec (.thermalSample tj) s = .next (stepEnter u (stepReached u (tjOf tj)) (tj % 512)) := by
  subst hu
  show execThermalSample tj s = _
  simp only [execThermalSample, setF_pwr, hfree, reduceCtorEq, ge_iff_le, Int.not_le.2 hbelow, gt_iff_lt, hup, if_true, if_false]

theorem exec_thermalSample_of_not_above (hstays : stepReached u (tjOf tj) ≤ getF u F.PWR_THERM_STEP) : exec (.thermalSample tj) s =
    .next { u with pwr := { u.pwr with coolSince := coolFrom u (getF u F.PWR_THERM_STEP) (tjOf tj) } } := by
  subst hu
  show execThermalSample tj s = _
  simp only [execThermalSample, setF_pwr, hfree, reduceCtorEq, ge_iff_le, Int.not_le.2 hbelow, gt_iff_lt, Nat.not_lt.2 hstays, if_false]

end Thermal

theorem exec_thermalStepLeave_of_cool {s u : State} {at_ : Nat} (hcool : s.pwr.coolSince = some at_)
    (hu : u = stepChange (reach s (at_ + sec)) (getF s F.PWR_THERM_STEP - 1) (getF s F.PWR_THERM_TJ) 0) : exec .thermalStepLeave s =
      .next { u with pwr := { u.pwr with
        coolSince := coolFrom { u with pwr := { u.pwr with coolSince := none } } (getF s F.PWR_THERM_STEP - 1) (tjOf (getF s F.PWR_THERM_TJ)) } } := by
  subst hu
  show execThermalStepLeave s = _
  simp only [execThermalStepLeave, hcool]

end Sys2Proof.Machine

section Settled

open Sys2Proof Sys2Proof.Machine

/-- Settles O33, register by register; the end of a restore in BOOT goes on to the keys and the rig of the start. -/
theorem journalRegistersComplete : Obligations.JournalRegistersComplete := by
  unfold Obligations.JournalRegistersComplete
  intro s u core
  refine ⟨fun v0 hturn => exec_esTest_of_turn hturn v0, fun v1 hlive => exec_esTestEnd_of_live hlive v1, exec_pjEnable_of_turn,
    fun _ _ hturn hentry hhigh hlow harm hnames => exec_pjVmapWrite_of_good hturn hentry hhigh hlow harm hnames rfl, exec_pjRestore_of_stopped,
    ?restoreEnd, fun _ => exec_pjAllocReq_of_no_room, fun _ _ _ _ => exec_pjAllocReq_of_room, fun width hon => exec_pjAllocRead_of_coreOn hon width⟩
  case restoreEnd =>
    rintro hlive hloading r rfl
    rw [exec_pjRestoreEnd_of_loading hlive hloading]
    refine ⟨bootEnd_of_past_boot, fun y hboot hy => ?_⟩
    rw [bootEnd_of_boot hboot hy]
    exact ⟨rigStart_of_no_epoch, fun _ _ _ _ => rigStart_of_active⟩

/-- Settles O56, event by event of the domain. -/
theorem alwaysOnDomainCompletes : Obligations.AlwaysOnDomainCompletes := by
  unfold Obligations.AlwaysOnDomainCompletes
  intro s u core
  refine ⟨exec_wakeNLow_of_asleep, ?wakeAt, fun _ => exec_dockingNotice_twice, fun _ _ => exec_dockedWakeResend_of_needed,
    fun _ _ _ => exec_dockedWakeTimeout_of_needed, ?arm, exec_watchdogKick_of_armed, ?expiry, rfl, exec_pfailNFall_of_high,
    exec_vaultDumpEnd_of_dumping, ?thermal, fun _ => exec_thermalStepLeave_of_cool⟩
  case wakeAt =>
    intro w hw hsome hu hmove
    exact ⟨exec_aonWakeAtReached_of_awake hw hsome hu hmove, exec_aonWakeAtReached_of_asleep hw hsome hu hmove⟩
  case arm =>
    intro seconds hturn
    exact ⟨fun harmed => exec_watchdogArm_of_armed hturn harmed seconds, fun hidle hmin hmax =>
      ⟨_, exec_watchdogArm_of_idle hturn hidle hmin hmax rfl, getF_wdogSeconds_of_armed u hmax, getF_setF_same _ _ _, rfl⟩⟩
  case expiry =>
    intro t hat hu _ hdump
    exact exec_watchdogExpiry_of_no_dump hat hu hdump
  case thermal =>
    intro tj hu
    exact ⟨exec_thermalSample_of_held hu, exec_thermalSample_of_shutdown hu, exec_thermalSample_of_entered hu, exec_thermalSample_of_not_above hu⟩

end Settled
end

section
/-! PROOFS. What the family "rig and erasure engine" states of the rig loader, of the rig's activation and discard, and of the entries of the erasure
engine. -/

namespace Sys2Proof.Machine

/-! ### The rig loader, ACTIVATE and DISCARD (R302, R304, R305) -/

section RigLoader

variable {s t u : State} {core : Nat}

theorem exec_rigCtrlStage_of_idle (hturn : StoreTurn s core F.RIG_CTRL_STAGE.addr u) (hbusy : flag u F.RIG_STATUS_BUSY = false)
    (hswap : flag u F.RIG_STATUS_SWAPPING = false) (hsrc : getF u F.RIG_SRC_ADDR_ADDR % 64 = 0) (himage : getF u F.RIG_IMAGE_ADDR_ADDR % 65536 = 0)
    (hfenced : unfencedHit u [(getF u F.RIG_SRC_ADDR_ADDR, getF u F.RIG_SRC_LEN_BYTES)] = false) :
    exec (.rigCtrlStage core) s = .next (setF u F.RIG_STATUS_BUSY 1) := by
  show execRigCtrlStage core s = _
  simp only [execRigCtrlStage, coreStore_run hturn, whenFenced, hbusy, hswap, hsrc, himage, hfenced, Bool.or_self, Bool.false_eq_true, ne_eq,
    not_true_eq_false, or_self, if_false]

theorem exec_rigStageEnd_of_busy (hlive : coreLive s = true) (hbusy : flag s F.RIG_STATUS_BUSY = true) (hends : LoaderEnds s t) :
    exec .rigStageEnd s = .next (stagedNow t) := by
  show execRigStageEnd s = _
  simp only [execRigStageEnd, whileCore_run hlive, hbusy, if_true, rigStageEnd_run hends, andThen]

theorem exec_rigCtrlActivate_of_turn (hturn : StoreTurn s core F.RIG_CTRL_ACTIVATE.addr u) : exec (.rigCtrlActivate core) s =
    .next (if flag u F.RIG_STATUS_SWAPPING then u
      else if flag u F.RIG_STATUS_STAGED = false ∨ flag u F.RIG_STATUS_BUSY = true then setF (setF u F.RIG_STATUS_ERROR 1) F.RIG_STATUS_ERRCODE 9
      else setF u F.RIG_STATUS_SWAPPING 1) := by
  show execRigCtrlActivate core s = _
  simp only [execRigCtrlActivate, coreStore_run hturn, rigActivate, Bool.or_eq_true, Bool.not_eq_true']

theorem exec_rigCtrlDiscard_of_turn (hturn : StoreTurn s core F.RIG_CTRL_DISCARD.addr u) : exec (.rigCtrlDiscard core) s =
    .next (stagedNow (if flag u F.RIG_STATUS_SWAPPING then u
      else setF (setF { u with rig := { u.rig with staged := none } } F.RIG_STATUS_STAGED 0) F.RIG_STAGED_EPOCH_EPOCH 0)) := by
  show execRigCtrlDiscard core s = _
  rw [execRigCtrlDiscard, coreStore_run hturn, rigDiscard]

end RigLoader

/-! ### The work of an erasure entry (R308 to R310) -/

/-- No unit written overlaps the list, a unit read that has an address, or another unit written: what an entry asks of its list (R314, fifth case). -/
def UnitsApart (addrs : List Nat) (list : Nat) (ins outs : List Nat) : Prop :=
  ∀ o ∈ outs, overlaps ((addrs[o]?).getD 0) 65536 list 192 = false ∧
    (∀ i ∈ ins, (addrs[i]?).getD 0 ≠ 0 → overlaps ((addrs[o]?).getD 0) 65536 ((addrs[i]?).getD 0) 65536 = false) ∧
    ∀ p ∈ outs, p ≠ o → overlaps ((addrs[o]?).getD 0) 65536 ((addrs[p]?).getD 0) 65536 = false

/-- The unit that was read at a position, zeros where none was. -/
def unitRead (us : List (Nat × Bytes)) (p : Nat) : Bytes := ((us.find? fun u => u.1 == p).map (·.2)).getD (zeros 65536)

section Work

variable {addrs ins outs : List Nat} {list : Nat}

theorem unaligned_eq_false (haligned : ∀ p ∈ ins ++ outs, (addrs[p]?).getD 0 % 64 = 0) :
    ((ins ++ outs).any fun p => (addrs[p]?).getD 0 % 64 != 0) = false :=
  List.any_eq_false.2 fun p hp => by simp only [haligned p hp, bne_self_eq_false, Bool.false_eq_true, not_false_eq_true]

/-- The test of `ecRun` for overlapping units, in the form in which it stands there. -/
theorem overlapping_eq_false (hapart : UnitsApart addrs list ins outs) :
    (outs.any fun o => overlaps ((addrs[o]?).getD 0) 65536 list 192 ||
      (ins.any fun i => (addrs[i]?).getD 0 != 0 && overlaps ((addrs[o]?).getD 0) 65536 ((addrs[i]?).getD 0) 65536) ||
      outs.any fun p => p != o && overlaps ((addrs[o]?).getD 0) 65536 ((addrs[p]?).getD 0) 65536) = false := by
  refine List.any_eq_false.2 fun o ho hover => ?_
  obtain ⟨hlist, hins, houts⟩ := hapart o ho
  simp only [hlist, Bool.false_or, Bool.or_eq_true, List.any_eq_true, Bool.and_eq_true, bne_iff_ne] at hover
  rcases hover with ⟨i, hi, hused, hover⟩ | ⟨p, hp, hother, hover⟩
  · exact Bool.false_ne_true ((hins i hi hused).symm.trans hover)
  · exact Bool.false_ne_true ((houts p hp hother).symm.trans hover)

/-- Units aligned and apart, all read and all written: the entry is done with status 0. -/
theorem ecRun_of_units {s w d : State} {t : Taken} {us made : List (Nat × Bytes)} {mismatch : Nat}
    {make : (Nat → Bytes) → State → List (Nat × Bytes) × Nat × State} (haligned : ∀ p ∈ ins ++ outs, (addrs[p]?).getD 0 % 64 = 0)
    (hapart : UnitsApart addrs (fld t.bytes 16 8) ins outs) (hread : ecUnits addrs ins s = (w, some us))
    (hmake : make (unitRead us) w = (made, mismatch, w)) (hwritten : ecWrites addrs made w = (d, true)) :
    ecRun s t addrs ins outs make = ecDone d t 0 mismatch := by
  have hmade : make (fun p => ((us.find? fun u => u.1 == p).map (·.2)).getD (zeros 65536)) w = (made, mismatch, w) := hmake
  simp only [ecRun, unaligned_eq_false haligned, overlapping_eq_false hapart, hread, hmade, hwritten, Bool.false_eq_true, if_false]

end Work

/-! ### Entries of the erasure engine (R306, R308, R309, R311) -/

section Entries

variable {s : State} {queue op : Nat} {t : Taken} {check : GenSet → Bytes → Nat} {work : State → Taken → GenSet → List Nat → Res}

theorem whileCore_ecStart_of_swapping (hlive : coreLive s = true) (hentry : ecEntry s queue op = some t) (hswap : flag s F.RIG_STATUS_SWAPPING = true) :
    (whileCore s fun s => ecStart s queue op check work) = .next (setF s F.EC_STATUS_HOLD 1) := by
  simp only [whileCore_run hlive, ecStart, hentry, hswap, if_true]

theorem exec_ec_of_swapping (hop : op ∈ [0x60, 0x61, 0x62]) (hlive : coreLive s = true) (hentry : ecEntry s queue op = some t)
    (hswap : flag s F.RIG_STATUS_SWAPPING = true) :
    exec (if op = 0x60 then .ecEncode queue else if op = 0x61 then .ecDecode queue else .ecCheck queue) s = .next (setF s F.EC_STATUS_HOLD 1) := by
  simp only [List.mem_cons, List.not_mem_nil, or_false] at hop
  rcases hop with rfl | rfl | rfl
  · exact whileCore_ecStart_of_swapping hlive hentry hswap
  · exact whileCore_ecStart_of_swapping hlive hentry hswap
  · exact whileCore_ecStart_of_swapping hlive hentry hswap

/-- What an entry of any of the three operations meets before its masks are checked (R309, Table 08-11): no swap runs, its reserved fields are 0, it
names a generator set of the image, `x`, whose geometry the image has, and its list is read as `addrs`, which leaves the state `v`. -/
structure EcListed (s : State) (t : Taken) (x : GenSet) (addrs : List Nat) (v : State) : Prop where
  notSwapping : flag s F.RIG_STATUS_SWAPPING = false
  parityMask : fld t.bytes 13 1 < 16
  reserved : fld t.bytes 14 2 = 0
  listAligned : fld t.bytes 16 8 % 64 = 0
  reservedTail : allZero (slice t.bytes 32 32) = true
  setNamed : fld t.bytes 8 2 < (activeView s).count 4
  set : x = (activeView s).genSet (fld t.bytes 8 2)
  geometry : x.m = 0 ∨ x.geom < (activeView s).count 6
  list : ∃ l, fabRead s 8 (fld t.bytes 16 8) 192 = (v, some l) ∧ addrs = (List.range 24).map fun p => fld l (8 * p) 8

variable {x : GenSet} {addrs : List Nat} {v w d : State} {us : List (Nat × Bytes)} {ps ex : List Nat}

theorem ecStart_of_listed (hlisted : EcListed s t x addrs v) (hentry : ecEntry s queue op = some t) (hcheck : check x t.bytes = 0) :
    ecStart s queue op check work = work v t x addrs := by
  obtain ⟨hswap, hmask, hreserved, haligned, htail, hset, rfl, hgeom, l, hlist, rfl⟩ := hlisted
  have hgeometry : ¬(((activeView s).genSet (fld t.bytes 8 2)).m ≠ 0 ∧ ((activeView s).genSet (fld t.bytes 8 2)).geom ≥ (activeView s).count 6) :=
    fun hbad => hgeom.elim hbad.1 (Nat.not_lt.2 hbad.2)
  simp only [ecStart, hentry, hswap, ge_iff_le, Nat.not_le.2 hmask, hreserved, haligned, htail, Nat.not_le.2 hset, hgeometry, hcheck, hlist, ne_eq,
    not_true_eq_false, or_self, Bool.false_eq_true, if_false]

theorem exec_ecEncode_of_listed (hlive : coreLive s = true) (hlisted : EcListed s t x addrs v) (hps : ps = bitList (fld t.bytes 13 1) 4)
    (hentry : ecEntry s queue 0x60 = some t) (hmask : ecPmask x t.bytes = 0)
    (haligned : ∀ p ∈ List.range x.k ++ ps.map (· + x.k), (addrs[p]?).getD 0 % 64 = 0)
    (hapart : UnitsApart addrs (fld t.bytes 16 8) (List.range x.k) (ps.map (· + x.k))) (hread : ecUnits addrs (List.range x.k) v = (w, some us))
    (hwritten : ecWrites addrs (ps.map fun i => (x.k + i, parityUnit x 65536 i ((List.range x.k).map (unitRead us)))) w = (d, true)) :
    exec (.ecEncode queue) s = ecDone d t 0 0 := by
  subst hps
  show execEcEncode queue s = _
  rw [execEcEncode, whileCore_run hlive, ecStart_of_listed hlisted hentry hmask]
  exact ecRun_of_units haligned hapart hread rfl hwritten

theorem exec_ecDecode_of_listed (hlive : coreLive s = true) (hlisted : EcListed s t x addrs v) (hex : ex = bitList (fld t.bytes 10 3) 24)
    (hentry : ecEntry s queue 0x61 = some t) (hmask : ecXmask x t.bytes = 0) (hrow : (activeView v).decodeIndex x ex < (activeView v).count 7)
    (haligned : ∀ p ∈ ((List.range (x.k + x.m)).filter fun p => !(ex.contains p)) ++ ex.filter fun p => decide (p < x.k), (addrs[p]?).getD 0 % 64 = 0)
    (hapart : UnitsApart addrs (fld t.bytes 16 8) ((List.range (x.k + x.m)).filter fun p => !(ex.contains p)) (ex.filter fun p => decide (p < x.k)))
    (hread : ecUnits addrs ((List.range (x.k + x.m)).filter fun p => !(ex.contains p)) v = (w, some us))
    (hwritten : ecWrites addrs ((ex.filter fun p => decide (p < x.k)).map fun d => (d, decodeUnit (activeView v) x ex 65536 d (unitRead us))) w =
      (d, true)) : exec (.ecDecode queue) s = ecDone d t 0 0 := by
  subst hex
  show execEcDecode queue s = _
  rw [execEcDecode, whileCore_run hlive, ecStart_of_listed hlisted hentry hmask, if_neg (Nat.not_le.2 hrow)]
  exact ecRun_of_units haligned hapart hread rfl hwritten

/-- A check has no unit to write. -/
theorem exec_ecCheck_of_listed (hlive : coreLive s = true) (hlisted : EcListed s t x addrs v) (hps : ps = bitList (fld t.bytes 13 1) 4)
    (hentry : ecEntry s queue 0x62 = some t) (hmask : ecPmask x t.bytes = 0)
    (haligned : ∀ p ∈ List.range x.k ++ ps.map (· + x.k), (addrs[p]?).getD 0 % 64 = 0)
    (hread : ecUnits addrs (List.range x.k ++ ps.map (· + x.k)) v = (w, some us)) :
    exec (.ecCheck queue) s = ecDone w t 0 (ps.map fun i =>
      if unitRead us (x.k + i) = parityUnit x 65536 i ((List.range x.k).map (unitRead us)) then 0 else 2 ^ i).sum := by
  subst hps
  have hapart : UnitsApart addrs (fld t.bytes 16 8) (List.range x.k ++ (bitList (fld t.bytes 13 1) 4).map (· + x.k)) [] :=
    fun _ ho => absurd ho List.not_mem_nil
  show execEcCheck queue s = _
  rw [execEcCheck, whileCore_run hlive, ecStart_of_listed hlisted hentry hmask]
  exact ecRun_of_units (by rwa [List.append_nil]) hapart hread rfl rfl

theorem exec_ecEntryEnd_of_done (hlive : coreLive s = true) (hdone : doneEntry s queue 0x60 0x62 = some t) : exec (.ecEntryEnd queue) s =
    .next (setF (if ((t.result.getD ([], false)).1[10]?).getD 0 ≠ 0 then countF (countF (endDone s t) F.EC_CNT_ENTRIES_COUNT 1) F.EC_CNT_MISMATCH_COUNT 1
      else countF (endDone s t) F.EC_CNT_ENTRIES_COUNT 1) F.EC_STATUS_BUSY 0) := by
  show execEcEntryEnd queue s = _
  simp only [execEcEntryEnd, whileCore_run hlive, hdone]

end Entries

end Sys2Proof.Machine

section Settled

open Sys2Proof Sys2Proof.Machine

/-- Settles O37: the loader and its registers, then the three operations over one list, each by the units it reads and writes. -/
theorem rigAndErasureComplete : Obligations.RigAndErasureComplete := by
  unfold Obligations.RigAndErasureComplete
  intro s u core queue
  refine ⟨exec_rigCtrlStage_of_idle, fun _ => exec_rigStageEnd_of_busy, exec_rigCtrlActivate_of_turn, exec_rigCtrlDiscard_of_turn,
    fun _ hop hlive _ => exec_ec_of_swapping hop hlive, ?operations, fun _ => exec_ecEntryEnd_of_done⟩
  case operations =>
    intro hlive t l x addrs v w us d hswap hmask hreserved haligned htail hnamed hset hgeom hlist haddrs
    have hlisted : EcListed s t x addrs v := ⟨hswap, hmask, hreserved, haligned, htail, hnamed, hset, hgeom, l, hlist, haddrs⟩
    exact ⟨fun _ => exec_ecEncode_of_listed hlive hlisted, fun _ => exec_ecDecode_of_listed hlive hlisted, fun _ => exec_ecCheck_of_listed hlive hlisted⟩

end Settled
end

section
/-! PROOFS. What the family "media management" states of the free-pool heaps and of the commands of media management. -/

namespace Sys2Proof.Machine

/-! ### The order of a heap (R321) -/

/-- The order in which a heap returns its entries: the lower KEY first, and among equal keys the lower VALUE. -/
abbrev HeapBefore (x y : Nat × Nat) : Prop := x.1 < y.1 ∨ (x.1 = y.1 ∧ x.2 ≤ y.2)

theorem HeapBefore.trans {x y z : Nat × Nat} (hxy : HeapBefore x y) (hyz : HeapBefore y z) : HeapBefore x z := by unfold HeapBefore at *; omega

theorem HeapBefore.of_not {x y : Nat × Nat} (h : ¬HeapBefore x y) : HeapBefore y x := by unfold HeapBefore at *; omega

theorem heapInsert_of_before {e x : Nat × Nat} (h : HeapBefore e x) (xs : List (Nat × Nat)) : heapInsert e (x :: xs) = e :: x :: xs := by
  rw [heapInsert, if_pos h]

theorem heapInsert_of_not_before {e x : Nat × Nat} (h : ¬HeapBefore e x) (xs : List (Nat × Nat)) : heapInsert e (x :: xs) = x :: heapInsert e xs := by
  rw [heapInsert, if_neg h]

theorem heapInsert_perm (e : Nat × Nat) (l : List (Nat × Nat)) : (heapInsert e l).Perm (e :: l) := by
  induction l with
  | nil => exact .refl _
  | cons x xs ih =>
    by_cases hbefore : HeapBefore e x
    · rw [heapInsert_of_before hbefore]
    · rw [heapInsert_of_not_before hbefore]
      exact (ih.cons x).trans (.swap e x xs)

/-- An entry that comes before all of a heap is set before them, any other behind the first, which stays before all. -/
theorem heapInsert_pairwise {l : List (Nat × Nat)} (e : Nat × Nat) (h : l.Pairwise HeapBefore) : (heapInsert e l).Pairwise HeapBefore := by
  induction l with
  | nil => exact List.pairwise_singleton _ _
  | cons x xs ih =>
    obtain ⟨hfirst, hrest⟩ := List.pairwise_cons.1 h
    by_cases hbefore : HeapBefore e x
    · have hall : ∀ y ∈ x :: xs, HeapBefore e y := List.forall_mem_cons.2 ⟨hbefore, fun y hy => hbefore.trans (hfirst y hy)⟩
      rw [heapInsert_of_before hbefore]
      exact List.pairwise_cons.2 ⟨hall, h⟩
    · have hall : ∀ y ∈ e :: xs, HeapBefore x y := List.forall_mem_cons.2 ⟨.of_not hbefore, hfirst⟩
      rw [heapInsert_of_not_before hbefore]
      exact List.pairwise_cons.2 ⟨fun y hy => hall y ((heapInsert_perm e xs).mem_iff.1 hy), ih hrest⟩

/-! ### The entries of a heap and a port's answer (R322, R323, Table 09-4) -/

section Heaps

variable {s u : State} {core heap : Nat} {es : List (Nat × Nat)} {e : Nat × Nat}

@[simp] theorem heapOf_putHeap_same (s : State) (heap : Nat) (es : List (Nat × Nat)) : heapOf (putHeap s heap es) heap = es := by
  simp [heapOf, putHeap]

theorem heapOf_putHeap_other (s : State) (es : List (Nat × Nat)) {h : Nat} (hne : h ≠ heap) : heapOf (putHeap s heap es) h = heapOf s h := by
  have hkept : ∀ x : Nat × List (Nat × Nat), ((x.1 != heap) = true ∧ (x.1 == h) = true) ↔ (x.1 == h) = true := fun x =>
    and_iff_right_of_imp fun hx => bne_iff_ne.2 (beq_iff_eq.1 hx ▸ hne)
  simp only [heapOf, putHeap, setF_media, memWrite_media, List.find?_cons, beq_eq_false_iff_ne.2 hne.symm, List.find?_filter, hkept,
    Bool.decide_eq_true]

theorem heapPush_eq_none_iff (s : State) (heap key value : Nat) : heapPush s heap key value = none ↔
    flag s (F.FPH_HEAP_VALID heap) = false ∨ getF s (F.FPH_HEAP_CAPACITY heap) ≤ (heapOf s heap).length := by
  simp only [heapPush, ge_iff_le, ite_eq_left_iff, reduceCtorEq, imp_false, Decidable.not_not, Bool.or_eq_true, Bool.not_eq_true', decide_eq_true_eq]

theorem heapPush_of_room (hvalid : flag s (F.FPH_HEAP_VALID heap) = true)
    (hroom : (heapOf s heap).length < getF s (F.FPH_HEAP_CAPACITY heap)) (key value : Nat) :
    heapPush s heap key value = some (putHeap s heap (heapInsert (key, value) (heapOf s heap))) := by
  simp [heapPush, hvalid, hroom]

theorem heapPop_eq_none_iff (s : State) (heap : Nat) : heapPop s heap = none ↔ flag s (F.FPH_HEAP_VALID heap) = false ∨ heapOf s heap = [] := by
  rw [heapPop]
  cases heapOf s heap with
  | nil => simp
  | cons e es => simp

theorem heapPop_of_entry (hvalid : flag s (F.FPH_HEAP_VALID heap) = true) (hentry : heapOf s heap = e :: es) :
    heapPop s heap = some (e, putHeap s heap es) := by
  simp [heapPop, hvalid, hentry]

/-- The fields of a port's answer lie apart. -/
theorem fphAnswer_keys (core : Nat) : fldKey (F.FPH_RES_VALUE core) ≠ fldKey (F.FPH_RES_KEY core) ∧
    fldKey (F.FPH_RES_VALUE core) ≠ fldKey (F.FPH_STAT_FAIL core) ∧ fldKey (F.FPH_RES_KEY core) ≠ fldKey (F.FPH_STAT_FAIL core) ∧
    fldKey (F.FPH_STAT_COUNT core) ≠ fldKey (F.FPH_STAT_FAIL core) := by
  simp only [fldKey, F.FPH_RES_VALUE, F.FPH_RES_KEY, F.FPH_STAT_FAIL, F.FPH_STAT_COUNT]
  omega

/-- FAIL in a port's answer is what the answer says, whatever its count and its entry. -/
theorem getF_answer_fail (t : State) (core fail count key value : Nat) :
    getF (setF (setF (setF (setF t (F.FPH_STAT_FAIL core) fail) (F.FPH_STAT_COUNT core) count) (F.FPH_RES_KEY core) key) (F.FPH_RES_VALUE core) value)
      (F.FPH_STAT_FAIL core) = fail % 2 := by
  obtain ⟨-, hvalue, hkey, hcount⟩ := fphAnswer_keys core
  rw [getF_setF_other _ _ hvalue, getF_setF_other _ _ hkey, getF_setF_other _ _ hcount]
  exact getF_setF_same _ _ _

/-- KEY of the entry in a port's answer. -/
theorem getF_answer_key (t : State) (core key value : Nat) :
    getF (setF (setF t (F.FPH_RES_KEY core) key) (F.FPH_RES_VALUE core) value) (F.FPH_RES_KEY core) = key % 2 ^ 32 := by
  rw [getF_setF_other _ _ (fphAnswer_keys core).1]
  exact getF_setF_same _ _ _

theorem heapAnswer_some_fail (t : State) (ret : Option (Nat × Nat)) : getF (heapAnswer s core heap (some t) ret) (F.FPH_STAT_FAIL core) = 0 :=
  getF_answer_fail _ _ _ _ _ _

theorem heapAnswer_some_resKey (t : State) : getF (heapAnswer s core heap (some t) (some e)) (F.FPH_RES_KEY core) = e.1 % 2 ^ 32 :=
  getF_answer_key _ _ _ _

theorem heapAnswer_some_resValue (t : State) : getF (heapAnswer s core heap (some t) (some e)) (F.FPH_RES_VALUE core) = e.2 % 2 ^ 32 :=
  getF_setF_same _ _ _

/-- The answer of an operation that gives a heap the entries `es`: FAIL is 0, every other heap stays, and the heap's window in memory is written. -/
def HeapWritten (u : State) (core heap : Nat) (es : List (Nat × Nat)) (t : State) : Prop :=
  getF t (F.FPH_STAT_FAIL core) = 0 ∧ heapOf t heap = es ∧ (∀ h, h ≠ heap → heapOf t h = heapOf u h) ∧
    t.mem = memPut u.mem (heapBase + 8 * getF u (F.FPH_HEAP_BASE heap)) (heapBytes (es.take (516096 - getF u (F.FPH_HEAP_BASE heap))))

theorem heapAnswer_putHeap (u : State) (core heap : Nat) (es : List (Nat × Nat)) (ret : Option (Nat × Nat)) :
    HeapWritten u core heap es (heapAnswer u core heap (some (putHeap u heap es)) ret) :=
  ⟨heapAnswer_some_fail _ _, heapOf_putHeap_same _ _ _, fun _ => heapOf_putHeap_other _ _, rfl⟩

/-- The answer of an operation that fails: FAIL is 1, FPH_RES 0, and every heap and all memory stay. -/
def HeapRefused (u : State) (core : Nat) (t : State) : Prop :=
  getF t (F.FPH_STAT_FAIL core) = 1 ∧ getF t (F.FPH_RES_KEY core) = 0 ∧ getF t (F.FPH_RES_VALUE core) = 0 ∧ (∀ h, heapOf t h = heapOf u h) ∧
    t.mem = u.mem

theorem heapAnswer_none (u : State) (core heap : Nat) (ret : Option (Nat × Nat)) : HeapRefused u core (heapAnswer u core heap none ret) :=
  ⟨getF_answer_fail _ _ _ _ _ _, getF_answer_key _ _ _ _, getF_setF_same _ _ _, fun _ => rfl, rfl⟩

/-! ### The heap operations (R323) -/

variable (hturn : StoreTurn s core (F.FPH_CMD_OP core).addr u)

include hturn

theorem exec_fphPush_of_room (hvalid : flag u (F.FPH_HEAP_VALID heap) = true)
    (hroom : (heapOf u heap).length < getF u (F.FPH_HEAP_CAPACITY heap)) (hok : pushOk u heap (getF u (F.FPH_ARG_VALUE core)) = true) :
    exec (.fphPush core heap) s = .next (heapAnswer u core heap
      (some (putHeap u heap (heapInsert (getF u (F.FPH_ARG_KEY core), getF u (F.FPH_ARG_VALUE core)) (heapOf u heap)))) none) := by
  show execFphPush core heap s = _
  simp only [execFphPush, coreStore_run hturn, heapPush_of_room hvalid hroom, hok, if_true]

theorem exec_fphPush_of_none (hnone : heapPush u heap (getF u (F.FPH_ARG_KEY core)) (getF u (F.FPH_ARG_VALUE core)) = none) :
    exec (.fphPush core heap) s = .next (heapAnswer u core heap none none) := by
  show execFphPush core heap s = _
  simp only [execFphPush, coreStore_run hturn, hnone]

theorem exec_fphPop_of_turn : exec (.fphPop core heap) s =
    .next (heapAnswer u core heap ((heapPop u heap).map Prod.snd) ((heapPop u heap).map Prod.fst)) := by
  show execFphPop core heap s = _
  rw [execFphPop, coreStore_run hturn]

theorem exec_fphPeek_of_turn : exec (.fphPeek core heap) s =
    .next (heapAnswer u core heap ((heapPop u heap).map fun _ => u) ((heapPop u heap).map Prod.fst)) := by
  show execFphPeek core heap s = _
  rw [execFphPeek, coreStore_run hturn]

theorem exec_fphClear_of_turn : exec (.fphClear core heap) s =
    .next (heapAnswer u core heap (if flag u (F.FPH_HEAP_VALID heap) then some (putHeap u heap []) else none) none) := by
  show execFphClear core heap s = _
  rw [execFphClear, coreStore_run hturn]

/-- An operation fails on a heap that is not VALID, PUSH besides on a full one, POP and PEEK on an empty one. -/
theorem heapOperation_refused {i : Instr} (hi : i ∈ [Instr.fphPush core heap, .fphPop core heap, .fphPeek core heap, .fphClear core heap])
    (hfails : flag u (F.FPH_HEAP_VALID heap) = false ∨
      (i = .fphPush core heap ∧ getF u (F.FPH_HEAP_CAPACITY heap) ≤ (heapOf u heap).length) ∨
      ((i = .fphPop core heap ∨ i = .fphPeek core heap) ∧ heapOf u heap = [])) : Completes i s (HeapRefused u core) := by
  simp only [List.mem_cons, List.not_mem_nil, or_false] at hi
  rcases hi with rfl | rfl | rfl | rfl
  · have hnone : heapPush u heap (getF u (F.FPH_ARG_KEY core)) (getF u (F.FPH_ARG_VALUE core)) = none := by
      simpa [heapPush_eq_none_iff] using hfails
    exact ⟨_, exec_fphPush_of_none hturn hnone, heapAnswer_none u core heap none⟩
  · have hnone : heapPop u heap = none := by simpa [heapPop_eq_none_iff] using hfails
    exact ⟨_, exec_fphPop_of_turn hturn, by rw [hnone]; exact heapAnswer_none u core heap none⟩
  · have hnone : heapPop u heap = none := by simpa [heapPop_eq_none_iff] using hfails
    exact ⟨_, exec_fphPeek_of_turn hturn, by rw [hnone]; exact heapAnswer_none u core heap none⟩
  · have hinvalid : flag u (F.FPH_HEAP_VALID heap) = false := by simpa using hfails
    exact ⟨_, exec_fphClear_of_turn hturn, by rw [hinvalid]; exact heapAnswer_none u core heap none⟩

end Heaps

/-! ### Failed LUNs, victims and reads (R330, R338 to R348, R351) -/

section Media

variable {s u v : State}

section Live

variable (hlive : coreLive s = true)

include hlive

theorem exec_lunDeclareFailed_of_failing {lun : Nat} (hused : lunUsed s lun = true)
    (hfailing : (flag s (F.FC_LUN_STATUS_DEAD (lun / 32) (lun % 32)) = true ∧ s.fc.reviveFailed.contains lun = true) ∨ 504 ≤ 4 * lunRetired s lun ∨
      8 ≤ (s.media.eraseFails.filter fun e => e.1 == lun && decide (s.now ≤ e.2 + 86400 * sec)).length) :
    exec (.lunDeclareFailed lun) s = .next (lunFail s lun) := by
  have htest : (lunUsed s lun && (flag s (F.FC_LUN_STATUS_DEAD (lun / 32) (lun % 32)) && s.fc.reviveFailed.contains lun ||
      decide (4 * lunRetired s lun ≥ 504) ||
      decide ((s.media.eraseFails.filter fun e => e.1 == lun && decide (s.now ≤ e.2 + 86400 * sec)).length ≥ 8))) = true := by
    simpa only [hused, Bool.true_and, Bool.or_eq_true, Bool.and_eq_true, decide_eq_true_eq, or_assoc] using hfailing
  show execLunDeclareFailed lun s = _
  simp only [execLunDeclareFailed, whileCore_run hlive, htest, if_true]

/-- Below GC_LOW, with no victim left to copy, the next victim is chosen. -/
theorem exec_collection_of_victim {lun fail b : Nat} (hused : lunUsed s lun = true) (hlow : (heapOf s lun).length < s.media.settings.gcLow)
    (hu : u = { s with media := { s.media with collecting := lun :: s.media.collecting.filter (· != lun) } })
    (hcopied : (u.media.victims.find? fun v => bsnLun v.1 == lun && decide (btValid u v.1 > 0)) = none) (hpick : pickVictim u lun true = some b) :
    exec (.collection lun fail) s = .next (reapVictim (takeVictim u b) (fun b => bsnLun b == lun) (fail == 1)) := by
  subst hu
  show execCollection lun fail s = _
  simp only [execCollection, whileCore_run hlive, hused, hlow, hcopied, hpick, decide_true, Bool.true_or, Bool.not_true, Bool.false_eq_true, if_true,
    if_false]

theorem exec_migration_of_victim {idle fail b : Nat} (hover : slcTarget s (heldCount s) < slcInUse s)
    (hcopied : (s.media.victims.find? fun v => btFlag s v.1 0 && decide (btValid s v.1 > 0)) = none)
    (hleast : leastBy (btFirst s) ((usedBsns s).filter fun b => btState s b == 3 && btFlag s b 0) = some b) :
    exec (.migration idle fail) s = .next (reapVictim (takeVictim s b) (fun b => btFlag s b 0) (fail == 1)) := by
  show execMigration idle fail s = _
  simp only [execMigration, whileCore_run hlive, hcopied, gt_iff_lt, hover, decide_true, Bool.true_or, if_true, hleast]

theorem exec_readRetry_of_programmed {bsn page : Nat} (step bits : Nat) (hstride : (strideAt s bsn page).isSome = true)
    (hused : lunUsed s (bsnLun bsn) = true) (hopen : 2 ≤ btState s bsn) (hvictim : btState s bsn ≤ 4) :
    exec (.readRetry bsn page step bits) s = .next (strideRead s bsn page step bits) := by
  show execReadRetry bsn page step bits s = _
  simp only [execReadRetry, whileCore_run hlive, hstride, hused, hopen, hvictim, decide_true, Bool.and_self, if_true]

theorem exec_sweep_of_live {reads : List (Nat × Nat)} (hu : u = reads.foldl sweepOne s) :
    exec (.sweep reads) s = .next (if u.now ≥ u.media.sweepSaved.2.2.2 + 600 * sec then sweepSave u else u) := by
  subst hu
  show execSweep reads s = _
  rw [execSweep, whileCore_run hlive]

/-- Buffered notes that find room are recorded at the places of their stride. -/
theorem exec_noteRecord_of_placed {ps : List (Nat × Nat)} {ns : List NoteRec} (hv : v = voidNotes s)
    (hns : ns = (v.media.notes.filter fun n => n.places.isEmpty).take 2048) (hsome : ns ≠ [])
    (hplaced : placeTwice v (fun w => ⟨4, 0, w, 0, 0, 0, 0, 0, 0, 0, 0, 0⟩) (ns.map noteBytes).flatten = some (ps, u)) :
    exec .noteRecord s = .next (settleFragments { u with media := { u.media with
      notes := u.media.notes.map fun n => if (ns.map NoteRec.seq).contains n.seq then { n with places := ps } else n } }) := by
  subst hv hns
  show execNoteRecord s = _
  simp only [execNoteRecord, whileCore_run hlive, List.isEmpty_iff, hsome, if_false, hplaced]

/-- A block set closed with its summary and with nothing unreadable gives only the failed stride's item to another. -/
theorem exec_programFailure_of_readable {bsn : Nat} {x : Stride} (hfailed : (s.fc.failedProgs.find? fun x => x.bsn == bsn) = some x)
    (hu : u = btSet { s with fc := { s.fc with failedProgs := s.fc.failedProgs.filter fun y => y.bsn != bsn } } bsn 12 4 (x.page + 1)) :
    exec (.programFailure bsn [] 0) s = .next (resubmit (logCrew (btMark (closeBlock u bsn) bsn 3) EV.programFailed) x) := by
  subst hu
  show execProgramFailure bsn [] 0 s = _
  simp only [execProgramFailure, whileCore_run hlive, hfailed, List.filter_nil, List.foldl_nil, Nat.zero_ne_one, if_false]

/-! ### Checkpoints and scans (R357 to R359) -/

/-- A LUN with many programs leads to a checkpoint at once, and so does a DOCK to come, its OPEN block sets closed first; else its time has come. -/
theorem exec_checkpoint_of_live
    (hu : u = if (s.media.since.any fun x => decide (x.2 ≥ s.media.settings.ckptLun)) = true ∧ dockNear s = false then s
      else if dockNear s = true then closeOpens s else reach s (s.media.ckptAt + s.media.settings.ckptS * sec)) :
    exec .checkpoint s = .next ((makeCheckpoint u).getD u) := by
  subst hu
  show execCheckpoint s = _
  rw [execCheckpoint, whileCore_run hlive]
  cases hdock : dockNear s with
  | true => simp only [Bool.or_true, Bool.true_eq_false, and_false, if_true, if_false]
  | false => simp only [Bool.or_false, Bool.false_eq_true, and_true, if_false]

theorem exec_summaryScan_of_checkpoint {c : Ckpt} {gone : FragItem → Bool} {base : List FragItem × List NoteRec × List BucketItem}
    {items : List ScanItem} (hdev : s.pwr.dev = 2) (hfull : s.pwr.fullScan = false) (hckpt : s.media.ckpt = some c)
    (hgone : gone = fun f => f.kind == 0 && s.media.failed.contains (bsnLun f.bsn))
    (hbase : base = (c.frags.map (fun f => if gone f then { f with kind := 4 } else f), c.notes, c.buckets))
    (hitems : items = (((scanStrides s).map strideItems).flatten.filter fun i => decide (scanSeq i ≥ c.seq))) :
    exec .summaryScan s = .next (scanEnd (adoptScan s c.wear ((items.foldr insertItem []).foldl applyItem base))) := by
  subst hitems hbase hgone
  show execSummaryScan s = _
  simp only [execSummaryScan, whileCore_run hlive, hckpt, hdev, hfull, ne_eq, not_true_eq_false, Bool.false_eq_true, or_self, if_false]

/-- A device that was formatted before keeps its quantities and its skip list. -/
theorem exec_fullScan_of_formatted (bad : List Nat) (hdev : s.pwr.dev = 2) (hckpt : s.media.ckpt = none) (hu : u = logCrew s EV.mapFullScan)
    (hv : v = { u with media := { u.media with ckpt := none, retired := u.media.retired } }) (hformat : u.media.format.isNone = false) :
    exec (.fullScan 0 bad) s =
      (let w := adoptScan v [] (((((scanStrides v).map strideItems).flatten).foldr insertItem []).foldl applyItem ([], [], []))
       .next (scanEnd ((makeCheckpoint w).getD w))) := by
  subst hv hu
  show execFullScan 0 bad s = _
  simp only [execFullScan, whileCore_run hlive, hdev, hckpt, hformat, Option.isNone_none, Bool.true_or, Bool.not_true, ne_eq, not_true_eq_false,
    Bool.false_eq_true, or_self, if_false]

/-! ### Vault sets and full media (R318, R355) -/

theorem exec_vaultSetReplace_of_free {entry n e l : Nat} {x : Nat × Nat} (harm : flag s F.PJ_CTRL_DUMP_ARM = false)
    (hvalid : flag s (F.PJ_VMAP_VALID entry) = true) (hn : n = getF s (F.PJ_VMAP_CHANNEL entry)) (he : e = getF s (F.PJ_VMAP_CE entry))
    (hlun : (((List.range 4).map fun t => lunIndex n (4 * e + t)).find? fun l => lunUsed s l && !(heapOf s l).isEmpty) = some l)
    (hpop : heapPop s l = some (x, u)) :
    exec (.vaultSetReplace entry) s = .next (logCrew (setJournalSize (setLimit (retireBlock
      (btSet (keepVault (setF (setF u (F.PJ_VMAP_LUN entry) (l % 4)) (F.PJ_VMAP_ROW entry) (x.2 % 512)) entry
        (2 ^ 63 + n * 2 ^ 35 + e * 2 ^ 32 + l % 4 * 2 ^ 30 + x.2 % 512)) x.2 0 1 6)
      (512 * lunIndex n (4 * e + getF s (F.PJ_VMAP_LUN entry)) + getF s (F.PJ_VMAP_ROW entry))))) EV.vaultSetReplaced) := by
  subst hn he
  show execVaultSetReplace entry s = _
  simp only [execVaultSetReplace, whileCore_run hlive, harm, hvalid, hlun, hpop, Bool.not_true, Bool.or_self, Bool.false_eq_true, if_false]

theorem exec_mediaFull_of_full (hformat : s.media.format.isSome = true) (hwritable : s.media.readOnly = none)
    (hfull : capFrags s ≤ heldCount s + journaledCount s) : exec .mediaFull s = .next (readOnlyFor (logCrew s EV.mediaFull) 2) := by
  have hformatted : s.media.format.isNone = false := by rw [← Option.not_isSome, hformat, Bool.not_true]
  show execMediaFull s = _
  simp only [execMediaFull, whileCore_run hlive, hformatted, hwritable, ge_iff_le, hfull, Bool.false_eq_true, if_false, if_true]

end Live
end Media

end Sys2Proof.Machine

section Settled

open Sys2Proof Sys2Proof.Machine

/-- Settles O38, operation by operation: each writes its heap through `putHeap` and answers through `heapAnswer`. -/
theorem heapOperations : Obligations.HeapOperations := by
  unfold Obligations.HeapOperations
  intro s u core heap window hturn _ _ hwindow
  refine ⟨?push, ?popAndPeek, ?clear, fun _ => heapOperation_refused hturn⟩
  case push =>
    intro hvalid hroom hok
    rw [hwindow]
    exact ⟨_, exec_fphPush_of_room hturn hvalid hroom hok, heapAnswer_putHeap u core heap _ none⟩
  case popAndPeek =>
    intro e es hvalid hentry
    have hpop : heapPop u heap = some (e, putHeap u heap es) := heapPop_of_entry hvalid hentry
    refine ⟨⟨_, exec_fphPop_of_turn hturn, ?_⟩, ⟨_, exec_fphPeek_of_turn hturn, ?_⟩⟩
    · rw [hpop, hwindow]
      obtain ⟨hfail, hheap, hothers, hmem⟩ := heapAnswer_putHeap u core heap es (some e)
      exact ⟨hfail, hheap, heapAnswer_some_resKey _, heapAnswer_some_resValue _, hothers, hmem⟩
    · rw [hpop]
      exact ⟨heapAnswer_some_fail _ _, heapAnswer_some_resKey _, heapAnswer_some_resValue _, fun _ => rfl, rfl⟩
  case clear =>
    intro hvalid
    refine ⟨_, exec_fphClear_of_turn hturn, ?_⟩
    rw [if_pos hvalid, hwindow]
    exact heapAnswer_putHeap u core heap [] none

/-- Settles O39: an insertion keeps the order `HeapBefore` and adds only the entry. -/
theorem heapReturnsLowestKey : Obligations.HeapReturnsLowestKey := by
  unfold Obligations.HeapReturnsLowestKey
  intro l e hordered
  exact ⟨heapInsert_pairwise e hordered, heapInsert_perm e l⟩

/-- Settles O40, command by command. -/
theorem mediaComplete : Obligations.MediaComplete := by
  unfold Obligations.MediaComplete
  intro s hlive
  exact ⟨fun _ => exec_lunDeclareFailed_of_failing hlive, fun _ _ _ _ => exec_collection_of_victim hlive,
    fun _ _ _ => exec_migration_of_victim hlive, fun _ _ step bits => exec_readRetry_of_programmed hlive step bits,
    fun _ _ => exec_sweep_of_live hlive, fun _ _ _ _ => exec_noteRecord_of_placed hlive, fun _ _ _ => exec_programFailure_of_readable hlive,
    fun _ => exec_checkpoint_of_live hlive, fun _ _ _ _ => exec_summaryScan_of_checkpoint hlive,
    fun bad _ _ _ hdev hckpt _ => exec_fullScan_of_formatted hlive bad hdev hckpt, fun _ _ _ _ _ _ => exec_vaultSetReplace_of_free hlive,
    exec_mediaFull_of_full hlive⟩

end Settled
end

section
/-! PROOFS. What the family "flash channels" states of entries at the head of their LUN, of the ends of operations, of timeouts and faults, of rounds and
starts, and of writes through the windows of the channels. -/

namespace Sys2Proof.Machine

/-! ### Entries at the head of their LUN (R374, R376, R377, R379, R381, R382) -/

section FlashEntries

variable {s u v : State} {queue index n st : Nat} {t : Taken}

theorem exec_fcRead_of_turn (hturn : FcTurn s queue index 0x40 n t) :
    exec (.fcRead queue index) s = .next (fcIssue (fcApply s n t) n t []) := by
  show execFcRead queue index s = _
  rw [execFcRead, whileCore_run hturn.1, fcStart_run hturn]

theorem exec_fcReadHeader_of_turn (hturn : FcTurn s queue index 0x43 n t) :
    exec (.fcReadHeader queue index) s = .next (fcIssue (fcApply s n t) n t []) := by
  show execFcReadHeader queue index s = _
  rw [execFcReadHeader, whileCore_run hturn.1, fcStart_run hturn]

theorem fcGated_of_closed (hclosed : fcRoundOpen s n (fld t.bytes 8 1) = false) (go : State → Nat → Option Nat → Res) :
    fcGated s n t go = .next (fcWait s t) := by
  simp only [fcGated, hclosed, Bool.not_false, if_true]

/-- Once the round is open and the block set's state is read, only a block set that is UNUSED or RETIRED is refused. -/
theorem fcGated_of_state (hopen : fcRoundOpen s n (fld t.bytes 8 1) = true) (hblock : fld t.bytes 12 2 ≤ 511)
    (hstate : fcBlockState s n (fld t.bytes 8 1) (fcBsn n t.bytes) = (u, some st)) (go : State → Nat → Option Nat → Res) :
    fcGated s n t go = if st = 0 ∨ st = 5 then .next (fcEndAt u n t 3) else go u (fld t.bytes 8 1) (some st) := by
  have hinside : ¬ fld t.bytes 12 2 > 511 := by omega
  simp only [fcGated, hopen, hinside, hstate, Bool.not_true, Bool.false_eq_true, if_false]

theorem exec_fcProgram_of_closed (hturn : FcTurn s queue index 0x41 n t) (hclosed : fcRoundOpen s n (fld t.bytes 8 1) = false) :
    exec (.fcProgram queue index) s = .next (fcWait s t) := by
  show execFcProgram queue index s = _
  rw [execFcProgram, whileCore_run hturn.1, fcStart_run hturn, fcGated_of_closed hclosed]

section Gated

variable (hopen : fcRoundOpen s n (fld t.bytes 8 1) = true) (hblock : fld t.bytes 12 2 ≤ 511)
  (hstate : fcBlockState s n (fld t.bytes 8 1) (fcBsn n t.bytes) = (u, some st))

include hopen hblock hstate

theorem exec_fcProgram_of_next_page {bs : List Bytes} (hturn : FcTurn s queue index 0x41 n t) (hst : st = 2 ∨ st = 6)
    (hfetch : fcFetch n (fld t.bytes 8 1) (fcBuffers t.bytes) u = (v, some bs)) (hfallback : fallbackHeld v (fcBsn n t.bytes) = false)
    (hpage : fld t.bytes 14 2 = (blockStrides v (fcBsn n t.bytes)).length) :
    exec (.fcProgram queue index) s = .next (fcIssue v n t (List.zip (bs.take 4) (bs.drop 4))) := by
  have htaken : ¬ (st = 0 ∨ st = 5) := by omega
  have hgood : ¬ ((some st ≠ some 2 ∧ some st ≠ some 6) ∨ fld t.bytes 14 2 ≠ (blockStrides v (fcBsn n t.bytes)).length) := by
    simp only [ne_eq, Option.some.injEq, hpage, not_true_eq_false, or_false]; omega
  show execFcProgram queue index s = _
  rw [execFcProgram, whileCore_run hturn.1, fcStart_run hturn, fcGated_of_state hopen hblock hstate, if_neg htaken]
  simp only [hfetch, hfallback, Bool.false_eq_true, if_false, if_neg hgood]

theorem exec_fcErase_of_state (hturn : FcTurn s queue index 0x42 n t) : exec (.fcErase queue index) s =
    if st = 0 ∨ st = 5 then .next (fcEndAt u n t 3)
    else if fallbackHeld u (fcBsn n t.bytes) then .fault (.undefined571 2) else .next (fcIssue u n t []) := by
  show execFcErase queue index s = _
  rw [execFcErase, whileCore_run hturn.1, fcStart_run hturn, fcGated_of_state hopen hblock hstate]

theorem exec_fcErase_of_held (hturn : FcTurn s queue index 0x42 n t) (hused : st ≠ 0) (hgood : st ≠ 5)
    (hfallback : fallbackHeld u (fcBsn n t.bytes) = false) : exec (.fcErase queue index) s = .next (fcIssue u n t []) := by
  simp only [exec_fcErase_of_state hopen hblock hstate hturn, hused, hgood, hfallback, or_self, Bool.false_eq_true, if_false]

theorem exec_fcErase_of_not_held (hturn : FcTurn s queue index 0x42 n t) (hst : st = 0 ∨ st = 5) :
    exec (.fcErase queue index) s = .next (fcEndAt u n t 3) := by
  rw [exec_fcErase_of_state hopen hblock hstate hturn, if_pos hst]

end Gated

theorem exec_fcFeature_of_get (hturn : FcTurn s queue index 0x44 n t) (hfree : fld t.bytes 40 1 ∉ fixedFeatures)
    (hget : bitAt (fld t.bytes 41 1) 0 = false) : exec (.fcFeature queue index) s = .next (fcIssue s n t []) := by
  show execFcFeature queue index s = _
  simp only [execFcFeature, whileCore_run hturn.1, fcStart_run hturn, List.contains_eq_mem, hfree, decide_false, hget, Bool.false_eq_true, if_false]

theorem exec_fcFeature_of_set {bs : List Bytes} (hturn : FcTurn s queue index 0x44 n t) (hfree : fld t.bytes 40 1 ∉ fixedFeatures)
    (hset : bitAt (fld t.bytes 41 1) 0 = true) (hfetch : fcFetch n (fld t.bytes 8 1) [(fld t.bytes 16 8, 4)] s = (v, some bs)) :
    exec (.fcFeature queue index) s = .next (fcIssue v n t (bs.map fun b => (b, []))) := by
  show execFcFeature queue index s = _
  simp only [execFcFeature, whileCore_run hturn.1, fcStart_run hturn, List.contains_eq_mem, hfree, decide_false, hset, Bool.false_eq_true, if_false,
    if_true, hfetch]

theorem exec_fcResetLun_of_no_vault (hturn : FcTurn s queue index 0x45 n t) (hvault : vaultLun s n (fld t.bytes 8 1) = false) :
    exec (.fcResetLun queue index) s = .next (fcIssue s n t []) := by
  show execFcResetLun queue index s = _
  simp only [execFcResetLun, whileCore_run hturn.1, fcStart_run hturn, hvault, Bool.false_eq_true, if_false]

end FlashEntries

/-! ### Ends and timeouts of operations, faults and temperatures (R369, R375, R378, R380, R385, R386) -/

section FlashOperations

variable {s u : State} {channel slot : Nat} {o : FcOp}

section Ends

variable {fail bits corrected bad badWords : Nat} (hop : lunOp s channel slot = some o) (hu : u = fcEnd s o fail bits corrected bad badWords)

include hop hu

/-- The end of an operation that neither programs nor erases is only that of its entry. -/
theorem exec_fcOperationEnd_of_other (hother : o.op ∉ [0x41, 0x42]) :
    exec (.fcOperationEnd channel slot fail bits corrected bad badWords) s = .next u := by
  simp only [List.mem_cons, List.not_mem_nil, or_false, not_or] at hother
  obtain ⟨hprogram, herase⟩ := hother
  show execFcOperationEnd channel slot fail bits corrected bad badWords s = _
  simp only [execFcOperationEnd, hop, hprogram, herase, false_and, if_false, hu]

theorem exec_fcOperationEnd_of_program (hprogram : o.op = 0x41) (hstate : btState s (fcBsn o.chan o.entry) = 2)
    (hpage : (blockStrides s (fcBsn o.chan o.entry)).length = fld o.entry 14 2) :
    exec (.fcOperationEnd channel slot fail bits corrected bad badWords) s =
      .next (if fail = 1 then u else strideProgrammed u ⟨fcBsn o.chan o.entry, fld o.entry 14 2, o.data⟩) := by
  show execFcOperationEnd channel slot fail bits corrected bad badWords s = _
  simp only [execFcOperationEnd, hop, hprogram, hstate, hpage, and_self, if_true, ne_eq, not_true_eq_false, if_false, hu]

theorem exec_fcOperationEnd_of_erase (herase : o.op = 0x42) (hstate : btState s (fcBsn o.chan o.entry) = 4)
    (hvictims : ∀ v ∈ s.media.victims, v.1 = fcBsn o.chan o.entry → victimReady s v = true) :
    exec (.fcOperationEnd channel slot fail bits corrected bad badWords) s =
      .next (if fail = 1 then eraseFailed u (fcBsn o.chan o.entry) else freeBlock u (fcBsn o.chan o.entry)) := by
  have hready : (s.media.victims.any fun v => v.1 == fcBsn o.chan o.entry && !(victimReady s v)) = false := by
    simpa only [List.any_eq_false, Bool.and_eq_true, beq_iff_eq, Bool.not_eq_true', not_and, Bool.not_eq_false] using hvictims
  show execFcOperationEnd channel slot fail bits corrected bad badWords s = _
  simp only [execFcOperationEnd, hop, herase, hstate, Nat.reduceEqDiff, and_self, if_false, if_true, hready, Bool.false_eq_true, hu]

end Ends

/-- A program that exceeds its limit is noted as one that failed (R343). -/
theorem exec_fcLunTimeout_of_running {v : State} (hop : lunOp s channel slot = some o) (hrunning : o.op ≠ 0x7F)
    (hu : u = reach s (o.since + fcLimit s o))
    (hv : v = if o.op = 0x41 then
      { u with fc := { u.fc with failedProgs := ⟨fcBsn o.chan o.entry, fld o.entry 14 2, o.data⟩ :: u.fc.failedProgs } } else u) :
    exec (.fcLunTimeout channel slot) s =
      .next (logCrew (countF (fcReset (fcShort v o 5) channel slot) (F.FC_LUN_CNT_TIMEOUT_COUNT channel slot) 1) EV.flashTimeout) := by
  subst hv hu
  show execFcLunTimeout channel slot s = _
  simp only [execFcLunTimeout, hop, hrunning, if_false]

theorem exec_lunResetTimeout_of_resetting (hop : lunOp s channel slot = some o) (hreset : o.op = 0x7F) :
    exec (.lunResetTimeout channel slot) s = .next (logCrew (setF (setF (lunFree (reach s (o.since + 10 * ms)) channel slot)
      (F.FC_LUN_STATUS_DEAD channel slot) 1) (F.FC_STATUS_LUN_DEAD channel) 1) EV.lunUnresponsive) := by
  show execLunResetTimeout channel slot s = _
  simp only [execLunResetTimeout, hop, hreset, ne_eq, not_true_eq_false, if_false]

theorem exec_fcRevive_of_turn {core : Nat} (ready : Nat) (hturn : StoreTurn s core (F.FC_LUN_CTRL_REVIVE channel slot).addr u) :
    exec (.fcRevive core channel slot ready) s = .next (lunRevive u channel slot ready) := by
  show execFcRevive core channel slot ready s = _
  rw [execFcRevive, coreStore_run hturn]

theorem exec_sequencerFault_of_running (hon : domainOn s .flash = true) (hrun : flag s (F.FC_CTRL_RUN channel) = true)
    (hu : u = fcShortAll 8 (s.fc.ops.filter fun o => o.chan == channel) s) :
    exec (.sequencerFault channel) s = .next (logCrew (setF { u with fc := { u.fc with
      stopped := channel :: u.fc.stopped.filter (· != channel), starting := u.fc.starting.filter fun p => p.1 != channel } }
      (F.FC_STATUS_SEQ_FAULT channel) 1) EV.flashSeqFault) := by
  subst hu
  show execSequencerFault channel s = _
  simp only [execSequencerFault, hon, hrun, Bool.not_true, Bool.or_self, Bool.false_eq_true, if_false]

/-- A LUN that is not busy shows the temperature read, or that it gave none. -/
theorem exec_lunTempPoll_of_idle (valid temp : Nat) (hpresent : flag s (F.FC_LUN_STATUS_PRESENT channel slot) = true)
    (hidle : lunOp s channel slot = none) (hruns : s.fc.stopped.contains channel = false) : exec (.lunTempPoll channel slot valid temp) s =
      if valid = 1 then .next (setF (setF s (F.FC_LUN_TEMP_TEMP channel slot) temp) (F.FC_LUN_TEMP_VALID channel slot) 1)
      else .next (setF (setF s (F.FC_LUN_TEMP_TEMP channel slot) 0x80) (F.FC_LUN_TEMP_VALID channel slot) 0) := by
  show execLunTempPoll channel slot valid temp s = _
  simp only [execLunTempPoll, hpresent, hidle, hruns, Option.isSome_none, Bool.not_true, Bool.or_self, Bool.false_eq_true, if_false]

end FlashOperations

/-! ### Rounds and starts (R364, R367, R382) -/

section FlashRounds

variable {s u : State}

/-- With no new schedule in force, the round counter goes on within the schedule, from its last round to round 0. -/
theorem exec_fcRoundTick_of_same_schedule {sched : Nat} (hon : domainOn s .flash = true) (hrig : rigActive s = true)
    (hsched : sched = getF s (F.FC_ROUND_SCHED 0)) (hold : s.rig.newSchedule = false)
    (hu : u = reach s (s.fc.roundAt + (powerRounds s sched).2 * us)) (hwanted : wantedSched u = sched) :
    exec .fcRoundTick s = .next (roundSet sched
      (if getF u (F.FC_ROUND_ROUND 0) + 1 < (powerRounds { u with fc := { u.fc with roundAt := u.now } } sched).1 then
        getF u (F.FC_ROUND_ROUND 0) + 1 else 0)
      (List.range 32) { u with fc := { u.fc with roundAt := u.now } }) := by
  subst hu hsched
  have hstays : (s.rig.newSchedule || getF s (F.FC_ROUND_SCHED 0) !=
      wantedSched (reach s (s.fc.roundAt + (powerRounds s (getF s (F.FC_ROUND_SCHED 0))).2 * us))) = false := by
    rw [hold, hwanted, bne_self_eq_false, Bool.or_self]
  show execFcRoundTick s = _
  rw [execFcRoundTick, hon, hrig]
  exact if_neg (ne_true_of_eq_false hstays)

theorem exec_channelStart_of_verified (hon : domainOn s .flash = true) (hverified : s.cox.verified = true) :
    exec .channelStart s = .next (fcLoadAll (List.range 32) { s with pins := { s.pins with flashPwrEn := true } }) := by
  show execChannelStart s = _
  simp only [execChannelStart, hon, hverified, Bool.not_true, Bool.or_self, Bool.false_eq_true, if_false]

@[simp] theorem logCrew_cox (s : State) (code : Nat) : (logCrew s code).cox = s.cox := by
  obtain ⟨free, regs, lb, h⟩ := logSubmit_writes_front_end (fresh (fresh (fresh (fresh s).2).2).2).2 1 code (fresh s).1 (fresh (fresh s).2).1
    (fresh (fresh (fresh s).2).2).1 (fresh (fresh (fresh (fresh s).2).2).2).1
  rw [logCrew, h]
  rfl

@[simp] theorem initFailed_cox (ts : List FcTarget) (s : State) : (initFailed ts s).cox = s.cox := by
  induction ts generalizing s with
  | nil => rfl
  | cons t ts ih =>
    rw [initFailed, ih]
    split
    · exact logCrew_cox s _
    · rfl

@[simp] theorem lunIdentifyAll_cox (n : Nat) (ts : List FcTarget) (ls : List Nat) (s : State) : (lunIdentifyAll n ts ls s).cox = s.cox := by
  induction ls generalizing s with
  | nil => rfl
  | cons l ls ih => rw [lunIdentifyAll, ih]; rfl

/-- A channel that gets ready leaves FC_LOAD's list to the command itself. -/
@[simp] theorem channelReady_cox (s : State) (n : Nat) (ts : List FcTarget) : (channelReady s n ts).cox = s.cox := by
  simp only [channelReady, setF_cox, initFailed_cox, lunIdentifyAll_cox]

theorem exec_channelReady_of_starting {channel : Nat} (targets : List FcTarget) (hstarting : (s.fc.starting.any fun p => p.1 == channel) = true)
    (hloading : s.cox.loading = none) : exec (.channelReady channel targets) s = .next (channelReady s channel targets) := by
  show execChannelReady channel targets s = _
  simp only [execChannelReady, hstarting, channelReady_cox, hloading, Bool.not_true, Bool.false_eq_true, if_false]

end FlashRounds

/-! ### Writes through the windows of the channels (R370, R371, R389) -/

theorem firstFault_eq_none_iff {l : List (Bool × Fault)} : firstFault l = none ↔ ∀ p ∈ l, p.1 = false := by
  induction l with
  | nil => simp only [firstFault, List.not_mem_nil, false_imp_iff, implies_true]
  | cons p l ih =>
    obtain ⟨c, f⟩ := p
    cases c with
    | false => simp only [firstFault, Bool.false_eq_true, if_false, ih, List.forall_mem_cons, true_and]
    | true => simp only [firstFault, if_true, reduceCtorEq, List.forall_mem_cons, Bool.true_eq_false, false_and]

section ChannelRegister

variable {s : State} {b old new : Nat}

section Place

variable (hlow : fcWindow 0 ≤ b) (hhigh : b < fcWindow 32)

include hlow hhigh

theorem channelReg_beq {a : Nat} (ha : a < fcWindow 0 ∨ fcWindow 32 ≤ a) : (b == a) = false := by
  rw [beq_eq_false_iff_ne]; omega

theorem channelReg_within {a k : Nat} (ha : a + k ≤ fcWindow 0 ∨ fcWindow 32 ≤ a) : within b a k = false := by
  simp only [within, Bool.and_eq_false_iff, decide_eq_false_iff_not]; omega

/-- The registers of the staging cache, the work queue manager, DMA, ciphers, digests and ports are none of a channel's. -/
theorem misuseSecond_channelReg : firstFault (misuseSecond s b old new) = none := by
  rw [firstFault_eq_none_iff]
  simp (disch := decide) [misuseSecond, channelReg_beq hlow hhigh, channelReg_within hlow hhigh]

theorem misuseThird_channelReg : firstFault (misuseThird s b new) = none := by
  rw [firstFault_eq_none_iff]
  simp (disch := decide) [misuseThird, channelReg_beq hlow hhigh, channelReg_within hlow hhigh]

theorem afterWrite_channelReg (old : State) (v : Nat) : afterWrite old s b v = .next s := by
  refine afterWrite_plain ?_ ?_
  · simp only [List.mem_cons, List.not_mem_nil, or_false, not_or, ← beq_eq_false_iff_ne]
    simp (disch := decide) only [channelReg_beq hlow hhigh, and_self]
  · simp only [fcWindow] at hhigh; omega

/-- Of a channel's registers the misuse is that of its block table base, of its timing, and of a LUN's reset where a vault stands. -/
theorem misuseFirst_channelReg (hbase : b % 0x100000 ≠ 0x20) (htiming : b % 0x100000 ≠ 0x0C)
    (hoffline : within (b % 0x100000) 0x1000 0x1000 = true → b % 128 = 4 → bitAt new 31 = false) :
    firstFault (misuseFirst s b old new) = none := by
  have hreset : within b 0x0108000000 0x2000000 = true → within (b % 0x100000) 0x1000 0x1000 = true → b % 128 = 4 → bitAt new 31 = true →
      vaultLun s ((b - 0x0108000000) / 0x100000) ((b % 0x100000 - 0x1000) / 128) = false :=
    fun _ hlun hplace hset => absurd hset (Bool.eq_false_iff.1 (hoffline hlun hplace))
  rw [firstFault_eq_none_iff]
  simpa (disch := decide) [misuseFirst, channelReg_beq hlow hhigh, channelReg_within hlow hhigh, hbase, htiming] using hreset

theorem bindClash_channelReg (hqueue : within (b % 0x100000) 0x10 16 = false) : bindClash s b new = none := by
  have hblock : qbindBlock b = none := by
    simp (disch := decide) only [qbindBlock, channelReg_within hlow hhigh, hqueue, Bool.and_false, Bool.false_eq_true, if_false]
  rw [bindClash, hblock]

/-- A write of crew firmware to a register of a channel that is none of its block table base, timing and queue bindings, and that does not put a LUN
into reset, is no listed misuse (R389, R436, R619). -/
theorem regMisuse_channelReg (hbase : b % 0x100000 ≠ 0x20) (htiming : b % 0x100000 ≠ 0x0C) (hqueue : within (b % 0x100000) 0x10 16 = false)
    (hoffline : within (b % 0x100000) 0x1000 0x1000 = true → b % 128 = 4 → bitAt new 31 = false) : regMisuse s b old new = none := by
  have hlists : firstFault (misuseFirst s b old new ++ misuseSecond s b old new ++ misuseThird s b new) = none := by
    simp only [firstFault_eq_none_iff, List.forall_mem_append]
    simp only [← firstFault_eq_none_iff]
    exact ⟨⟨misuseFirst_channelReg hlow hhigh hbase htiming hoffline, misuseSecond_channelReg hlow hhigh⟩, misuseThird_channelReg hlow hhigh⟩
  have haccept : b ≠ 0x010C300000 := by simp only [fcWindow] at hhigh; omega
  simp only [regMisuse, hlists, bindClash_channelReg hlow hhigh hqueue, haccept, false_and, if_false]

end Place

end ChannelRegister

/-- The registers of a channel lie in its own megabyte of the channels' windows (R370). -/
theorem channelReg_place {n o : Nat} (hn : n < 32) (ho : o < 0x100000) : fcWindow 0 ≤ fcWindow n + o ∧ fcWindow n + o < fcWindow 32 ∧
    (fcWindow n + o) % 0x100000 = o ∧ (fcWindow n + o) % 128 = o % 128 := by
  simp only [fcWindow]; omega

theorem regAt_of_busTarget {a b : Nat} {r : RegFam} (h : busTarget a = .reg b r) : regAt a = some (b, r) := by
  unfold busTarget at h
  cases hreg : regAt a with
  | some p => rw [hreg] at h; cases h; rfl
  | none =>
    rw [hreg] at h
    dsimp only at h
    repeat' split at h
    all_goals cases h

/-- Between the queue bindings of a channel there is no register. -/
theorem queueBinding_place : ∀ k < 16, (regAt (fcWindow 0 + 0x10 + k)).map Prod.fst = some (fcWindow 0 + 0x10 + k) → k ∈ [0, 4, 8, 12] := by
  decide +kernel

/-- The top bit of a word read back where the word was written. -/
theorem bitAt_top_of_word_written (old value : Nat) : bitAt (old - (old &&& (2 ^ 32 - 1)) + value % 2 ^ 32) 31 = bitAt value 31 := by
  have hmod := sub_and_full_mask_add_mod old (w := 32) (Nat.mod_lt value (Nat.two_pow_pos 32))
  have hbit : (old - (old &&& (2 ^ 32 - 1)) + value % 2 ^ 32) / 2 ^ 31 % 2 = value / 2 ^ 31 % 2 := by omega
  rw [bitAt, hbit, bitAt]

/-- What a write that is no misuse leaves of a channel's register: its fields, by their types, and nothing besides (R371). -/
theorem regWrite_channelReg {n o value : Nat} {r : RegFam} (s : State) (rid : Nat) (hn : n < 32) (ho : o < 0x100000) (hbase : o ≠ 0x20)
    (htiming : o ≠ 0x0C) (hqueue : within o 0x10 16 = false) (hoffline : 0x1000 ≤ o → o < 0x2000 → o % 128 = 4 → bitAt value 31 = false)
    (hres : reservedHit r (value % 2 ^ 32) = false) :
    regWrite s rid (fcWindow n + o) (fcWindow n + o) 4 value r = .next (fieldsWrite rid (fcWindow n + o) 0 32 (value % 2 ^ 32) r.fields s) := by
  obtain ⟨hlow, hhigh, hplace, hslot⟩ := channelReg_place hn ho
  have hkept : ∀ old, within o 0x1000 0x1000 = true → (fcWindow n + o) % 128 = 4 →
      bitAt (old - (old &&& (2 ^ 32 - 1)) + value % 2 ^ 32) 31 = false := by
    intro old hlun hctrl
    simp only [within, Bool.and_eq_true, decide_eq_true_eq] at hlun
    rw [bitAt_top_of_word_written]
    exact hoffline hlun.1 hlun.2 (hslot ▸ hctrl)
  have hrun := regWrite_run (s := s) (rid := rid) (a := fcWindow n + o) (b := fcWindow n + o) (width := 4) (value := value) (r := r)
    (v := value % 2 ^ 32) (by simp only [Nat.sub_self, Nat.mul_zero, Nat.pow_zero, Nat.mul_one, Nat.reduceMul]) hres rfl rfl
    (regMisuse_channelReg hlow hhigh (hplace.symm ▸ hbase) (hplace.symm ▸ htiming) (hplace.symm ▸ hqueue) (by
      rw [hplace, Nat.sub_self, Nat.mul_zero, Nat.pow_zero, Nat.mul_one]; exact hkept _))
    rfl (fun hwidth => absurd hwidth (by decide))
  rw [hrun, afterWrite_channelReg hlow hhigh, Nat.sub_self]

/-- Where every member's register takes the write, the members are written in turn, each with its REVIVE (R371, R386). -/
theorem membersWrite_of_registers {rid core o value ready : Nat} {r : RegFam} {ns : List Nat}
    (htarget : ∀ n ∈ ns, busTarget (fcWindow n + o) = .reg (fcWindow n + o) r)
    (hwrite : ∀ n ∈ ns, ∀ s, regWrite s rid (fcWindow n + o) (fcWindow n + o) 4 value r =
      .next (fieldsWrite rid (fcWindow n + o) 0 32 (value % 2 ^ 32) r.fields s)) (s : State) :
    membersWrite rid core o 4 value (some ready) ns s = .next (ns.foldl (fun v n =>
      windowRevive n o value ready (fieldsWrite rid (fcWindow n + o) 0 32 (value % 2 ^ 32) r.fields v)) s) := by
  induction ns generalizing s with
  | nil => rfl
  | cons n ns ih =>
    simp only [List.forall_mem_cons] at htarget hwrite
    simp only [membersWrite, busStore, htarget.1, hwrite.1, andThen, List.foldl_cons]
    exact ih htarget.2 hwrite.2 _

theorem offset_lt_of_windowFault {s : State} {w o width : Nat} {wr : Bool} (h : windowFault s w o width wr = none) : o < 0x100000 := by
  refine Nat.lt_of_not_le fun hout => ?_
  rw [windowFault, if_pos (Or.inr (Or.inl hout))] at h
  cases h

section GroupWindow

variable {s u : State} {rid core window offset width : Nat} (hrid : rid ≤ 1) (hon : coreOn s core = true) (hu : u = coreActs s core)

include hrid hon hu

/-- A write of a running crew core through a window that accepts it writes every member. -/
theorem exec_fcGroupWindowWrite_of_coreOn (hfault : windowFault u window offset width true = none) (value ready : Nat) :
    exec (.fcGroupWindowWrite rid core window offset width value ready) s =
      membersWrite (coreRid core) core offset width value (some ready) (windowMembers u window) u := by
  subst hu
  show execFcGroupWindowWrite rid core window offset width value ready s = _
  simp only [execFcGroupWindowWrite, onBus, busRid, hrid, if_true, coreRuns_on hon, windowWrite, hfault]

theorem exec_fcGroupWindowWrite_of_register {value : Nat} (ready : Nat) {r : RegFam} (hfault : windowFault u window offset 4 true = none)
    (hplain : offset ∉ [0x0C, 0x10, 0x14, 0x18, 0x1C, 0x20])
    (hoffline : 0x1000 ≤ offset → offset < 0x2000 → offset % 128 = 4 → bitAt value 31 = false)
    (htarget : ∀ n < 32, busTarget (fcWindow n + offset) = .reg (fcWindow n + offset) r) (hres : reservedHit r (value % 2 ^ 32) = false) :
    exec (.fcGroupWindowWrite rid core window offset 4 value ready) s = .next ((windowMembers u window).foldl (fun v n =>
      windowRevive n offset value ready (fieldsWrite (coreRid core) (fcWindow n + offset) 0 32 (value % 2 ^ 32) r.fields v)) u) := by
  have hoffset : offset < 0x100000 := offset_lt_of_windowFault hfault
  have hqueue : within offset 0x10 16 = false := by
    refine Bool.eq_false_iff.2 fun hin => ?_
    simp only [within, Bool.and_eq_true, decide_eq_true_eq] at hin
    obtain ⟨k, rfl⟩ := Nat.exists_eq_add_of_le hin.1
    have hreg := regAt_of_busTarget (htarget 0 (by decide))
    have hk := queueBinding_place k (by omega) (by rw [Nat.add_assoc, hreg]; rfl)
    revert hk hplain
    simp only [List.mem_cons, List.not_mem_nil, or_false]
    omega
  simp only [List.mem_cons, List.not_mem_nil, or_false, not_or] at hplain
  have hmembers : ∀ n ∈ windowMembers u window, n < 32 := fun n hn => List.mem_range.1 (List.mem_filter.1 hn).1
  rw [exec_fcGroupWindowWrite_of_coreOn hrid hon hu hfault]
  exact membersWrite_of_registers (fun n hn => htarget n (hmembers n hn))
    (fun n hn v => regWrite_channelReg v _ (hmembers n hn) hoffset (by omega) (by omega) hqueue hoffline hres) u

end GroupWindow

end Sys2Proof.Machine

section Settled

open Sys2Proof Sys2Proof.Machine

/-- Settles O41, entry by entry: each runs on the state of its turn. -/
theorem flashEntriesComplete : Obligations.FlashEntriesComplete := by
  unfold Obligations.FlashEntriesComplete
  intro s queue index n t
  exact ⟨exec_fcRead_of_turn, exec_fcReadHeader_of_turn,
    fun _ _ hopen hblock hstate => ⟨fun _ _ => exec_fcProgram_of_next_page hopen hblock hstate, exec_fcErase_of_held hopen hblock hstate,
      exec_fcErase_of_not_held hopen hblock hstate⟩,
    exec_fcFeature_of_get, fun _ _ => exec_fcFeature_of_set, exec_fcResetLun_of_no_vault, exec_fcProgram_of_closed⟩

/-- Settles O42, event by event. -/
theorem flashChannelsComplete : Obligations.FlashChannelsComplete := by
  unfold Obligations.FlashChannelsComplete
  intro s channel slot
  refine ⟨fun _ _ _ _ _ _ _ hop hu => ⟨exec_fcOperationEnd_of_other hop hu, exec_fcOperationEnd_of_program hop hu, exec_fcOperationEnd_of_erase hop hu⟩,
    fun _ _ _ => exec_fcLunTimeout_of_running, fun _ => exec_lunResetTimeout_of_resetting, fun _ ready _ => exec_fcRevive_of_turn ready,
    fun _ => exec_sequencerFault_of_running, ?temperature, ?round, exec_channelStart_of_verified, exec_channelReady_of_starting,
    fun _ _ _ _ _ value ready _ hrid hon hu hfault => exec_fcGroupWindowWrite_of_coreOn hrid hon hu hfault value ready,
    fun _ _ _ _ _ ready _ _ hrid hon hu => exec_fcGroupWindowWrite_of_register hrid hon hu ready⟩
  case temperature =>
    intro temp hpresent hidle hruns
    exact ⟨exec_lunTempPoll_of_idle 1 temp hpresent hidle hruns, exec_lunTempPoll_of_idle 0 temp hpresent hidle hruns⟩
  case round =>
    intro u sched hon hrig hsched hold hu hwanted
    exact ⟨_, exec_fcRoundTick_of_same_schedule hon hrig hsched hold hu hwanted, rfl⟩

end Settled
end

section
/-! PROOFS. What the family "staging cache" states of fills and evictions, of ways, of range maintenance, of hints, of the cache's switch and of the DRAM
controller. -/

namespace Sys2Proof.Machine

/-! ### Fills and evictions (R392, R395, R396, R397) -/

section Fills

variable {s : State} {rid : Nat} {p : ScPort} {r : ScReq} {rest : List ScReq} {f : State × Option Bytes} (hlive : coreLive s = true)
  (hport : scPort s rid = some p) (hwaiting : p.waiting = r :: rest) (hevict : evicting s p.line = none) (hmiss : heldLine s p.line = none)
  (hread : r.write = none)

include hlive hport hwaiting hevict hmiss hread

section NoAllocation

variable (halloc : mayAlloc s rid = false) (hf : f = dramFetch s r r.addr r.len)

include halloc hf

theorem exec_scFillComplete_of_no_alloc_of_lost (hlost : f.2 = none) :
    exec (.scFillComplete rid) s = .next (scReplay rest (scAnswer (putScPort f.1 rid none) r (some 3) [])) := by
  subst hf
  show execScFillComplete rid s = _
  simp only [execScFillComplete, whileCore_run hlive, hport, hwaiting, hevict, hmiss, hread, halloc, hlost, Option.isSome_none, Bool.false_eq_true,
    false_and, or_self, if_false, Bool.false_and]

theorem exec_scFillComplete_of_no_alloc_of_read {d : Bytes} (hd : f.2 = some d) : exec (.scFillComplete rid) s =
    .next (scReplay rest (scAnswer (countF (putScPort f.1 rid none) F.SC_CNT_NOALLOC_COUNT 1) r none d)) := by
  subst hf
  show execScFillComplete rid s = _
  simp only [execScFillComplete, whileCore_run hlive, hport, hwaiting, hevict, hmiss, hread, halloc, hd, Option.isSome_none, Bool.false_eq_true,
    false_and, or_self, if_false, Bool.false_and]

end NoAllocation

/-- Every port that missed on the line goes on with the requester's own (R395). -/
theorem exec_scFillComplete_of_alloc {d : Bytes} {a : State} (halloc : mayAlloc s rid = true) (hroom : evictFull s = false)
    (hf : f = dramFetch s r (p.line * 256) 256) (hd : f.2 = some d)
    (ha : a = scAnswer (scAlloc (putScPort f.1 rid none) (allowedWays (putScPort f.1 rid none) rid) rid p.line d false (r.err == 3)) r none
      (slice d (r.addr % 256) r.len)) :
    exec (.scFillComplete rid) s = .next (scReplay rest
      ((a.sc.ports.filter fun q => q.line == p.line).foldl (fun s q => scReplay q.waiting (putScPort s q.rid none)) a)) := by
  subst ha hf
  show execScFillComplete rid s = _
  simp only [execScFillComplete, whileCore_run hlive, hport, hwaiting, hevict, hmiss, hread, halloc, hroom, hd, Option.isSome_none, Option.isSome_some,
    Bool.false_eq_true, and_false, or_self, if_false, if_true, Bool.and_self]

end Fills

/-- What waited for the line, or with a write for room in the buffer, is looked up again. -/
theorem exec_scEvictionDone_of_written {s v : State} {line : Nat} {l : ScLine} (hlive : coreLive s = true) (hevict : evicting s line = some l)
    (hv : v = evictWrite s l) : exec (.scEvictionDone line 0) s =
      .next ((v.sc.ports.filter fun p => p.line == line || p.waiting.any fun r => r.write.isSome).foldl
        (fun s p => scReplay p.waiting (putScPort s p.rid none)) v) := by
  subst hv
  show execScEvictionDone line 0 s = _
  simp only [execScEvictionDone, whileCore_run hlive, hevict, Nat.reduceEqDiff, if_false]

/-! ### Ways (R398) -/

/-- A way whose lines are flushed, with its DISABLED bit and, where its failure was uncorrectable, its CAUSE_UE bit. -/
def wayFlushed (v : State) (way : Nat) (ue : Bool) : State :=
  let w := { v with sc := { v.sc with disabling := v.sc.disabling.filter fun p => p.1 != way } }
  let w := setF w F.SC_WAY_STATUS_DISABLED (getF w F.SC_WAY_STATUS_DISABLED ||| 2 ^ way)
  if ue then setF w F.SC_WAY_STATUS_CAUSE_UE (getF w F.SC_WAY_STATUS_CAUSE_UE ||| 2 ^ way) else w

theorem wayFlushed_sc (v : State) (way : Nat) (ue : Bool) :
    (wayFlushed v way ue).sc = { v.sc with disabling := v.sc.disabling.filter fun p => p.1 != way } := by
  cases ue <;> rfl

theorem wayFlushed_mem (v : State) (way : Nat) (ue : Bool) : (wayFlushed v way ue).mem = v.mem := by
  cases ue <;> rfl

theorem getF_wayFlushed_disabled (v : State) (way : Nat) (ue : Bool) :
    getF (wayFlushed v way ue) F.SC_WAY_STATUS_DISABLED = (getF v F.SC_WAY_STATUS_DISABLED ||| 2 ^ way) % 65536 := by
  cases ue with
  | false => exact getF_setF_same _ _ _
  | true => exact (getF_setF_other _ _ (by decide)).trans (getF_setF_same _ _ _)

theorem exec_scWayDisableEnd_of_disabling {s v : State} {way : Nat} {ue : Bool} (hlive : coreLive s = true)
    (hfind : (s.sc.disabling.find? fun p => p.1 == way) = some (way, ue))
    (hv : v = (s.sc.lines.filter fun l => l.way == way).foldl
      (fun s l => scDrop (if l.dirty || l.corrected then dramStore s (l.line * 256) l.data else s) l.line) s) :
    exec (.scWayDisableEnd way) s = .next (logEv (wayFlushed v way ue) EV.cacheWayDisabled way (b2n ue) 0) := by
  subst hv
  show execScWayDisableEnd way s = _
  simp only [execScWayDisableEnd, whileCore_run hlive, hfind, wayFlushed]

/-- Fields cleared one after another: every field among them reads 0, and every other one as before. -/
theorem getF_foldl_clear (l : List Nat) (f : Nat → Fld) (s : State) (g : Fld) :
    getF (l.foldl (fun s i => setF s (f i) 0) s) g = if ∃ i ∈ l, fldKey (f i) = fldKey g then 0 else getF s g := by
  induction l generalizing s with
  | nil => simp only [List.foldl_nil, List.not_mem_nil, false_and, exists_false, if_false]
  | cons x xs ih =>
    simp only [List.foldl_cons, ih, getF_setF, Nat.zero_mod, List.mem_cons, or_and_right, exists_or, exists_eq_left]
    by_cases hx : fldKey (f x) = fldKey g <;> simp only [hx, true_or, false_or, if_true, if_false, ite_self]

theorem foldl_setF_writes_regs (l : List Nat) (f : Nat → Fld) (s : State) :
    ∃ regs, l.foldl (fun s i => setF s (f i) 0) s = { s with regs := regs } := by
  induction l generalizing s with
  | nil => exact ⟨_, rfl⟩
  | cons x xs ih => exact ih (setF s (f x) 0)

theorem mem_bitList {v w i : Nat} : i ∈ bitList v w ↔ i < w ∧ v.testBit i = true := by
  simp only [bitList, List.mem_filter, List.mem_range, bitAt, Nat.testBit_eq_decide_div_mod_eq, beq_iff_eq, decide_eq_true_eq]

/-- Of the lowest `n` bits, those that a mask writes as 1 are cleared and the others kept. -/
theorem clear_masked_bits_div_mod (d mask : Nat) {n i : Nat} (hi : i < n) :
    (d ^^^ (d &&& mask % 2 ^ n)) % 2 ^ n / 2 ^ i % 2 = if mask / 2 ^ i % 2 = 1 then 0 else d / 2 ^ i % 2 := by
  simp only [← Nat.toNat_testBit, Nat.testBit_mod_two_pow, Nat.testBit_xor, Nat.testBit_and, hi, decide_true, Bool.true_and]
  cases mask.testBit i <;> cases d.testBit i <;> rfl

/-- The state in which the ways of a mask are enabled again. -/
def waysEnabled (u : State) (ways : Nat) : State :=
  let d := getF u F.SC_WAY_STATUS_DISABLED
  let on := d &&& (ways % 65536)
  let t := (bitList on 16).foldl (fun s w => setF s (F.SC_WAY_CE_COUNT w) 0) u
  let t := setF t F.SC_WAY_STATUS_CAUSE_UE (getF t F.SC_WAY_STATUS_CAUSE_UE &&& (65535 ^^^ on))
  setF t F.SC_WAY_STATUS_DISABLED (d ^^^ on)

theorem waysEnabled_writes_regs (u : State) (ways : Nat) : ∃ regs, waysEnabled u ways = { u with regs := regs } := by
  obtain ⟨regs, h⟩ := foldl_setF_writes_regs (bitList (getF u F.SC_WAY_STATUS_DISABLED &&& (ways % 65536)) 16) F.SC_WAY_CE_COUNT u
  rw [waysEnabled, h]
  exact ⟨_, rfl⟩

theorem getF_waysEnabled_disabled (u : State) (ways : Nat) {w : Nat} (hw : w < 16) :
    getF (waysEnabled u ways) F.SC_WAY_STATUS_DISABLED / 2 ^ w % 2 =
      if ways / 2 ^ w % 2 = 1 then 0 else getF u F.SC_WAY_STATUS_DISABLED / 2 ^ w % 2 := by
  rw [waysEnabled, getF_setF_same]
  exact clear_masked_bits_div_mod _ ways hw

theorem getF_waysEnabled_count {u : State} {ways w : Nat} (hw : w < 16) (hways : ways / 2 ^ w % 2 = 1)
    (hdisabled : getF u F.SC_WAY_STATUS_DISABLED / 2 ^ w % 2 = 1) : getF (waysEnabled u ways) (F.SC_WAY_CE_COUNT w) = 0 := by
  have hstatus : fldKey F.SC_WAY_STATUS_DISABLED < fldKey (F.SC_WAY_CE_COUNT w) ∧ fldKey F.SC_WAY_STATUS_CAUSE_UE < fldKey (F.SC_WAY_CE_COUNT w) := by
    simp only [fldKey, F.SC_WAY_STATUS_DISABLED, F.SC_WAY_STATUS_CAUSE_UE, F.SC_WAY_CE_COUNT]; omega
  have hon : w ∈ bitList (getF u F.SC_WAY_STATUS_DISABLED &&& (ways % 2 ^ 16)) 16 := by
    rw [mem_bitList, Nat.testBit_and, Nat.testBit_mod_two_pow]
    simp only [Nat.testBit_eq_decide_div_mod_eq, hw, hways, hdisabled, decide_true, Bool.and_self, and_self]
  rw [waysEnabled, getF_setF_other _ _ (Nat.ne_of_lt hstatus.1), getF_setF_other _ _ (Nat.ne_of_lt hstatus.2), getF_foldl_clear]
  exact if_pos ⟨w, hon, rfl⟩

theorem exec_scWayEnable_of_turn {s u : State} {core : Nat} (ways : Nat) (hturn : StoreTurn s core F.SC_WAY_STATUS_DISABLED.addr u) :
    exec (.scWayEnable core ways) s = .next (waysEnabled u ways) := by
  show execScWayEnable core ways s = _
  exact coreStore_run hturn

/-! ### Range maintenance (R400, R401) -/

section Maintenance

variable {s u : State} {core op all : Nat}

/-- The three operations of Table 11-1 are one row with its OP. -/
theorem exec_maintenance_eq_maintGo (hlive : coreLive s = true) {i : Instr}
    (hi : (i, op) ∈ [(Instr.scClean core all, 1), (.scInvalidate core all, 2), (.scCleanInvalidate core all, 3)]) :
    exec i s = maintGo core op all s := by
  simp only [List.mem_cons, List.not_mem_nil, or_false, Prod.mk.injEq] at hi
  rcases hi with ⟨rfl, rfl⟩ | ⟨rfl, rfl⟩ | ⟨rfl, rfl⟩
  · show execScClean core all s = _
    exact whileCore_run hlive
  · show execScInvalidate core all s = _
    exact whileCore_run hlive
  · show execScCleanInvalidate core all s = _
    exact whileCore_run hlive

theorem maintGo_of_running (hturn : StoreTurn s core F.SC_MAINT_CTRL_GO.addr u) (hruns : u.sc.maint.isSome = true) :
    maintGo core op all s = .next (setF u F.SC_MAINT_STATUS_REJECTED 1) := by
  rw [maintGo, coreStore_run hturn]
  exact if_pos hruns

theorem maintGo_of_good_range {w v : State} {range first : List Nat} (hturn : StoreTurn s core F.SC_MAINT_CTRL_GO.addr u) (hidle : u.sc.maint = none)
    (hw : w = setF (setF u F.SC_MAINT_CTRL_OP op) F.SC_MAINT_CTRL_ALL all)
    (hgood : all % 2 = 1 ∨ (isDram (getF w F.SC_MAINT_START_LINE * 256) = true ∧ isDram (getF w F.SC_MAINT_END_LINE * 256) = true ∧
      getF w F.SC_MAINT_START_LINE ≤ getF w F.SC_MAINT_END_LINE))
    (hrange : range = (w.sc.lines.map ScLine.line).filter fun l =>
      all % 2 == 1 || (decide (getF w F.SC_MAINT_START_LINE ≤ l) && decide (l ≤ getF w F.SC_MAINT_END_LINE)))
    (hfirst : first = (range.zipIdx.filter fun x => bitAt (fresh w).1 x.2).map Prod.fst) (hv : v = first.foldl (maintVisit op) (fresh w).2) :
    maintGo core op all s = .next (setF { v with sc := { v.sc with maint := some ⟨op, all % 2 == 1, getF w F.SC_MAINT_START_LINE,
      getF w F.SC_MAINT_END_LINE, range.filter fun l => !(first.contains l)⟩ } } F.SC_MAINT_STATUS_BUSY 1) := by
  have hstarts : ¬ u.sc.maint.isSome = true := by rw [hidle]; exact Bool.false_ne_true
  subst hv hfirst hrange hw
  rw [maintGo, coreStore_run hturn]
  exact (if_neg hstarts).trans (if_neg (not_not_intro hgood))

theorem exec_scMaintEnd_of_running {v : State} {m : ScMaint} {line err : Nat} (hlive : coreLive s = true) (hruns : s.sc.maint = some m)
    (hv : v = m.left.foldl (maintVisit m.op) (maintEcc s m.left line err)) : exec (.scMaintEnd line err) s =
      .next (setF (setF { v with sc := { v.sc with maint := none } } F.SC_MAINT_STATUS_BUSY 0) F.SC_MAINT_STATUS_DONE 1) := by
  subst hv
  show execScMaintEnd line err s = _
  simp only [execScMaintEnd, whileCore_run hlive, hruns]

end Maintenance

/-! ### Prefetch hints (R403) -/

theorem exec_scPrefetchHint_of_turn {s u v : State} {core lines rid : Nat} (hturn : StoreTurn s core F.SC_PF_CTRL_GO.addr u)
    (hv : v = setF (setF u F.SC_PF_CTRL_LINES lines) F.SC_PF_CTRL_RID rid) : exec (.scPrefetchHint core lines rid) s = .next (
      if u.sc.hints.length ≥ 16 then countF v F.SC_CNT_PF_DROP_COUNT 1
      else if scOn u then { v with sc := { v.sc with hints := v.sc.hints ++ [(getF u F.SC_PF_ADDR_LINE, lines % 512, rid % 16)] } } else v) := by
  have hkept : ∀ g : Fld, fldKey F.SC_PF_CTRL_LINES ≠ fldKey g → fldKey F.SC_PF_CTRL_RID ≠ fldKey g → getF v g = getF u g := fun g hlines hrid => by
    rw [hv, getF_setF_other _ _ hrid, getF_setF_other _ _ hlines]
  have hline : getF v F.SC_PF_ADDR_LINE = getF u F.SC_PF_ADDR_LINE := hkept _ (by decide) (by decide)
  have hswitch : scOn v = scOn u := by rw [scOn, flag, hkept _ (by decide) (by decide)]; rfl
  have hhints : u.sc.hints = v.sc.hints := by rw [hv]; rfl
  show execScPrefetchHint core lines rid s = _
  simp only [execScPrefetchHint, coreStore_run hturn, ← hv, hline, hswitch, hhints]
  by_cases hfull : v.sc.hints.length ≥ 16
  · simp only [hfull, if_true]
  · cases scOn u <;> simp only [hfull, if_false, Bool.not_false, Bool.not_true, Bool.false_eq_true, if_true]

theorem exec_scPrefetchFetch_of_hint {s : State} {l n rid : Nat} {rest : List (Nat × Nat × Nat)} (hlive : coreLive s = true)
    (hhints : s.sc.hints = (l, n, rid) :: rest) (hon : scOn s = true) : exec .scPrefetchFetch s =
      .next (((List.range n).map (l + ·)).foldl (prefetchLine rid) { s with sc := { s.sc with hints := rest } }) := by
  show execScPrefetchFetch s = _
  rw [execScPrefetchFetch, whileCore_run hlive, hhints]
  exact congrArg _ (if_pos hon)

/-! ### Off and on (R404, R405, R411) -/

section Switch

variable {s u : State} {core : Nat} (hturn : StoreTurn s core F.SC_CTRL_ENABLE.addr u)

include hturn

/-- With nothing outstanding and nothing being evicted, the cache goes off at once. -/
theorem exec_scDisable_of_quiet (hon : scOn u = true) (hports : u.sc.ports = []) (hevict : u.sc.evict = []) : exec (.scDisable core) s =
    .next (setF { setF u F.SC_CTRL_ENABLE 0 with sc := { u.sc with ports := [], hints := [], stale := [] } } F.SC_STATUS_ENABLED 0) := by
  have hswitch : scOn (setF u F.SC_CTRL_ENABLE 0) = true := by rw [scOn, flag, getF_setF_other _ _ (by decide)]; exact hon
  show execScDisable core s = _
  simp only [execScDisable, coreStore_run hturn, hswitch, setF_sc, hports, hevict, List.map_nil, List.flatten_nil, drainPorts, List.foldl_nil,
    Bool.not_true, Bool.false_eq_true, if_false]

theorem exec_scEnable_of_on (hon : scOn u = true) : exec (.scEnable core) s = .next (setF u F.SC_CTRL_ENABLE 1) := by
  show execScEnable core s = _
  simp only [execScEnable, coreStore_run hturn, hon, if_true]

theorem exec_scEnable_of_off (hoff : scOn u = false) : exec (.scEnable core) s =
    if staleHeld u = true then .fault (.undefined411 1) else .next (setF (setF u F.SC_CTRL_ENABLE 1) F.SC_STATUS_ENABLED 1) := by
  show execScEnable core s = _
  simp only [execScEnable, coreStore_run hturn, hoff, Bool.false_eq_true, if_false]

end Switch

/-! ### The DRAM controller (R409) -/

section DramController

variable {s : State} (hon : domainOn s .dram = true)

include hon

theorem exec_dmcScrub_of_on {addr : Nat} (err : Nat) (henable : flag s F.DMC_SCRUB_ENABLE = true) (hdram : isDram addr = true) :
    exec (.dmcScrub addr err) s = .next (if err = 2 then
        dmcLatch { s with poison := if s.poison.contains (addr / 256) then s.poison else addr / 256 :: s.poison } 0 addr true
      else if err = 1 then countF s F.DMC_CNT_CE_COUNT 1 else s) := by
  show execDmcScrub addr err s = _
  simp only [execDmcScrub, henable, hon, hdram, Bool.not_true, Bool.or_self, Bool.false_eq_true, if_false]
  split
  · rfl
  · split <;> rfl

theorem exec_dmcTempRefresh_of_on (high : Nat) : exec (.dmcTempRefresh high) s = .next (setF s F.DMC_STATUS_TEMP_HIGH high) := by
  show execDmcTempRefresh high s = _
  rw [execDmcTempRefresh, if_pos hon]

end DramController

end Sys2Proof.Machine

section Settled

open Sys2Proof Sys2Proof.Machine

/-- Settles O44, engine by engine. -/
theorem cacheEngineCompletes : Obligations.CacheEngineCompletes := by
  unfold Obligations.CacheEngineCompletes
  intro s u core
  refine ⟨?noAlloc, fun _ _ _ _ _ _ _ hlive hport hwaiting hevict halloc hroom hmiss hread =>
      exec_scFillComplete_of_alloc hlive hport hwaiting hevict hmiss hread halloc hroom,
    fun _ _ _ => exec_scEvictionDone_of_written, ?disabled, ?enabled,
    fun hlive _ _ _ hi => ⟨fun hturn hruns => (exec_maintenance_eq_maintGo hlive hi).trans (maintGo_of_running hturn hruns),
      fun _ _ _ _ hturn hidle hw hgood hrange hfirst hv =>
        (exec_maintenance_eq_maintGo hlive hi).trans (maintGo_of_good_range hturn hidle hw hgood hrange hfirst hv)⟩,
    fun _ _ _ _ => exec_scMaintEnd_of_running, fun _ _ _ => exec_scPrefetchHint_of_turn, fun _ _ _ _ => exec_scPrefetchFetch_of_hint, ?off, ?on, ?dram⟩
  case noAlloc =>
    intro rid p r rest f hlive hport hwaiting hevict halloc hmiss hread hf
    cases hd : f.2 with
    | none => exact exec_scFillComplete_of_no_alloc_of_lost hlive hport hwaiting hevict hmiss hread halloc hf hd
    | some d => exact exec_scFillComplete_of_no_alloc_of_read hlive hport hwaiting hevict hmiss hread halloc hf hd
  case disabled =>
    intro way ue v hlive hfind hv
    exact ⟨_, exec_scWayDisableEnd_of_disabling hlive hfind hv, _, rfl, wayFlushed_sc v way ue, wayFlushed_mem v way ue,
      getF_wayFlushed_disabled v way ue⟩
  case enabled =>
    intro ways hturn
    obtain ⟨regs, hregs⟩ := waysEnabled_writes_regs u ways
    exact ⟨_, exec_scWayEnable_of_turn ways hturn, fun _ => getF_waysEnabled_disabled u ways, fun _ => getF_waysEnabled_count,
      fun _ _ => by rw [hregs], by rw [hregs]⟩
  case off =>
    intro hturn hon hports hevict
    refine ⟨_, exec_scDisable_of_quiet hturn hon hports hevict, getF_setF_same _ _ _, ?_, rfl, rfl, rfl⟩
    exact (getF_setF_other _ _ (by decide)).trans (getF_setF_same _ _ _)
  case on =>
    intro hturn
    exact ⟨exec_scEnable_of_on hturn, fun hoff hclean => (exec_scEnable_of_off hturn hoff).trans (if_neg (by rw [hclean]; exact Bool.false_ne_true)),
      fun hoff hstale => (exec_scEnable_of_off hturn hoff).trans (if_pos hstale)⟩
  case dram =>
    intro addr high hon
    exact ⟨fun henable hdram => ⟨exec_dmcScrub_of_on hon 0 henable hdram, exec_dmcScrub_of_on hon 1 henable hdram,
      exec_dmcScrub_of_on hon 2 henable hdram⟩, exec_dmcTempRefresh_of_on hon high⟩

end Settled
end

section
/-! PROOFS. What the family "work queues" states of doorbells and polls, of taking and ending entries, of holding a queue, and of creating, destroying
and restarting one. -/

namespace Sys2Proof.Machine

/-! ### Index blocks (R413, R415, R419, R425) -/

section IndexBlocks

variable {s v : State} {x : Queue} {b : Bytes}

theorem readSq_of_toBlock (hdir : x.fromBlock = false) (hread : fabRead s 5 x.idx 8 = (v, some b))
    (hfits : idxSub (fld b 0 4) x.sqCi ≤ 2 ^ x.log2s) : readSq s x = putQueue v { x with sqPi := fld b 0 4 } := by
  simp only [readSq, hread, hdir, Bool.false_eq_true, if_false]
  exact if_neg (Nat.not_lt.2 hfits)

theorem readSq_of_fromBlock (hdir : x.fromBlock = true) (hread : fabRead s 5 x.idx 8 = (v, some b))
    (hfits : idxSub x.sqPi (fld b 4 4) ≤ 2 ^ x.log2s) : readSq s x = putQueue v { x with sqCi := fld b 4 4 } := by
  simp only [readSq, hread, hdir, if_true]
  exact if_neg (Nat.not_lt.2 hfits)

/-- A CQ_CI that the ring allows lets held completions out, and the queue that is left is put back. -/
theorem readCq_of_fits {p : State × Queue} (hread : fabRead s 5 x.idx 16 = (v, some b)) (hfits : idxSub x.cqPi (fld b 12 4) ≤ 2 ^ x.log2c)
    (hp : p = cqFlush x.held.length v { x with cqCi := fld b 12 4 }) : readCq s x = putQueue p.1 p.2 := by
  subst hp
  simp only [readCq, hread]
  exact if_neg (Nat.not_lt.2 hfits)

end IndexBlocks

/-! ### Doorbells and polls (R33, R414, R419, R420) -/

section Doorbells

variable {s : State} {queue : Nat} {x : Queue} (hlive : coreLive s = true) (hqueue : queueOf s queue = some x)

include hlive hqueue

/-- A doorbell reads the index block once what it posts is fenced. A queue in poll mode has no doorbell on its entry side, unless it is from a block. -/
theorem exec_wqDoorbellSq_of_some (hbell : x.poll = 0 ∨ x.fromBlock = true) :
    exec (.wqDoorbellSq queue) s = whenFenced s (postedRanges s x) (.next (readSq s x)) := by
  show execWqDoorbellSq queue s = _
  rw [execWqDoorbellSq, whileCore_run hlive, hqueue]
  exact if_pos (by simpa only [Bool.or_eq_true, decide_eq_true_eq] using hbell)

theorem exec_wqDoorbellSq_of_fenced (hbell : x.poll = 0 ∨ x.fromBlock = true) (hfenced : unfencedHit s (postedRanges s x) = false) :
    exec (.wqDoorbellSq queue) s = .next (readSq s x) :=
  (exec_wqDoorbellSq_of_some hlive hqueue hbell).trans (if_neg (ne_true_of_eq_false hfenced))

theorem exec_wqDoorbellSq_of_unfenced (hbell : x.poll = 0 ∨ x.fromBlock = true) (hhit : unfencedHit s (postedRanges s x) = true) :
    exec (.wqDoorbellSq queue) s = .fault (.undefined46 2) :=
  (exec_wqDoorbellSq_of_some hlive hqueue hbell).trans (if_pos hhit)

theorem exec_wqDoorbellCq_of_toBlock (hdir : x.fromBlock = false) : exec (.wqDoorbellCq queue) s = .next (readCq s x) := by
  show execWqDoorbellCq queue s = _
  simp only [execWqDoorbellCq, whileCore_run hlive, hqueue, hdir, Bool.false_eq_true, if_false]

section Poll

variable {v : State} {b : Bytes} (hpoll : x.poll ≠ 0) (hdir : x.fromBlock = false) (hstate : x.state = 1) (hheld : x.held = [])
  (henable : flag s F.WQ_CTRL_ENABLE = true) (hread : fabRead (countF s F.WQ_CNT_POLL_COUNT 1) 5 (sqSlot x x.sqPi) 64 = (v, some b))

include hpoll hdir hstate hheld henable hread

theorem exec_wqPoll_of_posted (hphase : fld b 3 1 % 2 = phaseOf x.log2s x.sqPi) (hroom : idxSub x.sqPi x.sqCi < 2 ^ x.log2s)
    (hmin : 1 ≤ fld b 2 1) (hmax : fld b 2 1 ≤ 4) :
    exec (.wqPoll queue) s = .next (putQueue v { x with sqPi := idxAdd x.sqPi (fld b 2 1) }) := by
  have hslots : max 1 (min 4 (fld b 2 1)) = fld b 2 1 := by omega
  show execWqPoll queue s = _
  simp only [execWqPoll, whileCore_run hlive, hqueue, hpoll, hdir, hstate, henable, hread, hphase, hroom, hslots, hheld, ne_eq, not_true_eq_false,
    Bool.false_eq_true, Bool.true_eq_false, or_self, if_false, beq_self_eq_true, decide_true, Bool.and_self, List.isEmpty_nil, if_true]

theorem exec_wqPoll_of_not_posted (hphase : fld b 3 1 % 2 ≠ phaseOf x.log2s x.sqPi) : exec (.wqPoll queue) s = .next (putQueue v x) := by
  show execWqPoll queue s = _
  simp only [execWqPoll, whileCore_run hlive, hqueue, hpoll, hdir, hstate, henable, hread, beq_false_of_ne hphase, hheld, ne_eq, not_true_eq_false,
    Bool.false_eq_true, Bool.true_eq_false, or_self, if_false, Bool.false_and, List.isEmpty_nil, if_true]

end Poll

end Doorbells

/-! ### Taking an entry (R421, R425, R428, Table 12-5) -/

section Take

variable {s v w : State} {queue n : Nat} {x : Queue} {h b : Bytes}

/-- A posted entry in which no check of Table 12-5 finds a fault is taken. -/
theorem wqCheckTake_of_good (hread : fabRead s 5 (sqSlot x x.sqCi) 64 = (v, some h)) (hslots : opSlots (fld h 0 1) = some n)
    (hop : opAllowed v x.num (fld h 0 1) = true) (hcount : fld h 2 1 = n) (hposted : n ≤ idxSub x.sqPi x.sqCi)
    (hbatch : bitAt (fld h 1 1) 0 = true ∨ x.batch = none ∧ bitAt (fld h 1 1) 1 = false) (hlength : ∀ p, x.batch = some p → p.2 < 1024)
    (hreserved : commonReserved h = false) (hall : readSlots v x x.sqCi n = (w, some b)) : wqCheckTake s x = .next (wqTake w x b n) := by
  have hinBatch : (!bitAt (fld h 1 1) 0 && (x.batch.isSome || bitAt (fld h 1 1) 1)) = false := by
    rcases hbatch with hin | ⟨hnone, hlast⟩
    · rw [hin]; rfl
    · rw [hnone, hlast]; exact Bool.and_false _
  have hshort : (match x.batch with | some (_, k) => decide (k ≥ 1024) | none => false) = false := by
    cases hb : x.batch with
    | none => rfl
    | some p => exact decide_eq_false (Nat.not_le.2 (hlength p hb))
  simp only [wqCheckTake, hread, hslots, hop, hcount, Nat.not_lt.2 hposted, hinBatch, hreserved, hall, ne_eq, not_true_eq_false, Bool.not_true,
    Bool.false_eq_true, or_self, if_false]
  exact if_neg (ne_true_of_eq_false hshort)

/-- In native mode a queue that runs takes its next posted entry while its completions fit: nothing but the checks is left. -/
theorem exec_wqEntryTake_of_turn (hlive : coreLive s = true) (hqueue : queueOf s queue = some x) (hnative : wqLegacy s = false)
    (henable : flag s F.WQ_CTRL_ENABLE = true) (hdir : x.fromBlock = false) (hstate : x.state = 1) (hposted : x.sqPi ≠ x.sqCi)
    (hfree : wqHeld s queue = false) (hadmin : queue = 0 → s.wq.destroying = none) (hblock : blockTakes s queue = true)
    (hfits : takenOpen s queue + dueCount s queue + x.held.length < cqFree x + 32) : exec (.wqEntryTake queue) s = wqCheckTake s x := by
  have hdestroy : (queue == 0 && s.wq.destroying.isSome) = false := by
    by_cases hzero : queue = 0
    · rw [hadmin hzero]; exact Bool.and_false _
    · rw [beq_false_of_ne hzero]; rfl
  show execWqEntryTake queue s = _
  simp only [execWqEntryTake, whileCore_run hlive, hqueue, henable, hdir, hstate, beq_false_of_ne hposted, hfree, hdestroy, hblock, hnative,
    Nat.not_le.2 hfits, ge_iff_le, bne_self_eq_false, Bool.not_true, Bool.or_self, Bool.false_and, Bool.false_eq_true, if_false]

end Take

/-! ### The end of entries (R418, R424) -/

section Ends

variable {s : State} {queue : Nat} (hlive : coreLive s = true)

include hlive

theorem exec_wqCompletionDue_of_live : exec (.wqCompletionDue queue) s = .next (wqComplete s queue) := by
  show execWqCompletionDue queue s = _
  exact whileCore_run hlive

theorem exec_wqNop_of_taken {t : Taken} (hadmin : queue = 0 → openEntry s 0 0 = some t)
    (hother : queue ≠ 0 → (s.wq.taken.find? fun t => t.queue == queue && !t.ended && t.result.isNone && fld t.bytes 0 1 == 0) = some t) :
    exec (.wqNop queue) s = .next (entryEnd s t (zeros 12) false) := by
  have hfound : (if queue = 0 then openEntry s 0 0
      else s.wq.taken.find? fun t => t.queue == queue && !t.ended && t.result.isNone && fld t.bytes 0 1 == 0) = some t := by
    split
    next hzero => exact hadmin hzero
    next hzero => exact hother hzero
  show execWqNop queue s = _
  simp only [execWqNop, whileCore_run hlive, hfound]

end Ends

/-! ### Holding a queue (R422) -/

/-- A register above the administrative and legacy ones does not bear on which queues there are. -/
theorem queueOf_setF_of_above (s : State) {f : Fld} (v q : Nat) (hf : fldKey F.WQ_LBASE_ADDR < fldKey f) :
    queueOf (setF s f v) q = queueOf s q := by
  have hkept : ∀ g : Fld, fldKey g ≤ fldKey F.WQ_LBASE_ADDR → getF (setF s f v) g = getF s g := fun g hg =>
    getF_setF_other s v (Nat.ne_of_gt (Nat.lt_of_le_of_lt hg hf))
  have henable : flag (setF s f v) F.WQ_CTRL_ENABLE = flag s F.WQ_CTRL_ENABLE := congrArg (· == 1) (hkept _ (by decide))
  have hlegacy : wqLegacy (setF s f v) = wqLegacy s := congrArg (· == 1) (hkept F.WQ_CTRL_LEGACY (by decide))
  have hbase : legacyQueue (setF s f v) q = legacyQueue s q := by rw [legacyQueue, hkept F.WQ_LBASE_ADDR (Nat.le_refl _)]; rfl
  have hadmin : adminQueue (setF s f v) = adminQueue s := by
    simp only [adminQueue, flag, hkept F.WQ_ADMIN_CFG_LOG2S (by decide), hkept F.WQ_ADMIN_CFG_VECTOR (by decide), hkept F.WQ_ADMIN_CFG_IRQ_EN (by decide),
      hkept F.WQ_ADMIN_RING_ADDR (by decide), hkept F.WQ_ADMIN_CQ_ADDR (by decide), hkept F.WQ_ADMIN_IDX_ADDR (by decide)]
  rw [queueOf, henable, hlegacy, hbase, hadmin]
  rfl

section Hold

variable {s : State} {queue : Nat} (hlive : coreLive s = true)

include hlive

theorem exec_wqHold_of_free (hfree : flag s F.WQ_ECINV_HOLD = true → getF s F.WQ_ECINV_QUEUE = queue) : exec (.wqHold queue) s =
    .next (setF (setF (setF (setF s F.WQ_ECINV_HOLD 1) F.WQ_ECINV_QUEUE queue) F.WQ_ECINV_HELD 1) F.WQ_ECINV_IDX_TAKEN
      (((queueOf s queue).map Queue.sqCi).getD 0)) := by
  have hother : ¬ (flag s F.WQ_ECINV_HOLD && getF s F.WQ_ECINV_QUEUE != queue) = true := by
    simpa only [Bool.and_eq_true, bne_iff_ne, not_and, not_not] using hfree
  have hqueue : queueOf (setF (setF (setF s F.WQ_ECINV_HOLD 1) F.WQ_ECINV_QUEUE queue) F.WQ_ECINV_HELD 1) queue = queueOf s queue := by
    rw [queueOf_setF_of_above _ _ _ (by decide), queueOf_setF_of_above _ _ _ (by decide), queueOf_setF_of_above _ _ _ (by decide)]
  show execWqHold queue s = _
  simp only [execWqHold, whileCore_run hlive, hother, hqueue]
  cases queueOf s queue <;> rfl

theorem exec_wqUnhold_of_live :
    exec (.wqUnhold queue) s = .next (setF (setF (setF s F.WQ_ECINV_HOLD 0) F.WQ_ECINV_QUEUE queue) F.WQ_ECINV_HELD 0) := by
  show execWqUnhold queue s = _
  exact whileCore_run hlive

end Hold

/-! ### Administrative entries (R429, R431, R432) -/

section AdminEntries

variable {s : State} {queue : Nat} {t : Taken} (hlive : coreLive s = true) (hqueue : fld t.bytes 8 2 = queue)
  (hreserved : adminReserved t.bytes = false)

include hlive hqueue hreserved

theorem exec_create_of_open (hopen : openEntry s 0 1 = some t) (hclear : adminStatus s t.bytes = 0 → queueClash s t.bytes = false) :
    exec (.create queue) s = .next (entryEnd (if adminStatus s t.bytes = 0 then queueCreate s t.bytes else s) t
      (adminResult t.bytes (adminStatus s t.bytes)) (adminStatus s t.bytes != 0)) := by
  have hclash : ¬ (adminStatus s t.bytes = 0 ∧ queueClash s t.bytes = true) := fun h => ne_true_of_eq_false (hclear h.1) h.2
  show execCreate queue s = _
  simp only [execCreate, whileCore_run hlive, hopen, hqueue, hreserved, hclash, ne_eq, not_true_eq_false, Bool.false_eq_true, if_false]

/-- The queue takes nothing more, and the entry has its result but does not end before the drain. -/
theorem exec_destroy_of_open {x : Queue} (hopen : openEntry s 0 2 = some t) (hx : queueOf s queue = some x) (hgood : adminStatus s t.bytes = 0) :
    exec (.destroy queue) s =
      .next (entryResult { putQueue s { x with state := 3 } with wq := { (putQueue s { x with state := 3 }).wq with destroying := some (queue, t.index) } }
        t (adminResult t.bytes 0) false) := by
  show execDestroy queue s = _
  simp only [execDestroy, whileCore_run hlive, hopen, hqueue, hreserved, hx, hgood, ne_eq, not_true_eq_false, Bool.false_eq_true, if_false, if_true]

theorem exec_restart_of_open {x : Queue} (hopen : openEntry s 0 3 = some t) (hx : queueOf s queue = some x) (hgood : adminStatus s t.bytes = 0) :
    exec (.restart queue) s = .next (entryEnd (queueRestart s x (fld t.bytes 48 8)) t (adminResult t.bytes 0) false) := by
  show execRestart queue s = _
  simp only [execRestart, whileCore_run hlive, hopen, hqueue, hreserved, hx, hgood, ne_eq, not_true_eq_false, Bool.false_eq_true, if_false]

end AdminEntries

section Drain

variable {s : State} {queue : Nat} {x : Queue} (hlive : coreLive s = true) (hqueue : queueOf s queue = some x)

include hlive hqueue

theorem exec_destroyDrained_of_drained {i : Nat} {t : Taken} {r : Bytes × Bool} (hdestroy : s.wq.destroying = some (queue, i)) (hstate : x.state = 3)
    (hheld : x.held = []) (htaken : takenOpen s queue = 0) (hdue : dueCount s queue = 0)
    (hentry : (s.wq.taken.find? fun t => t.queue == 0 && t.index == i && !t.ended) = some t) (hresult : t.result = some r) :
    exec (.destroyDrained queue) s =
      .next (entryEnd { s with wq := { s.wq with destroying := none, queues := s.wq.queues.filter fun y => y.num != queue } } t r.1 false) := by
  show execDestroyDrained queue s = _
  simp only [execDestroyDrained, whileCore_run hlive, hqueue, hdestroy, hstate, hheld, htaken, hdue, hentry, hresult, and_self, if_true,
    Option.getD_some]

/-! ### Legacy restart (R433) -/

theorem exec_wqLrestart_of_stopped (hlegacy : wqLegacy s = true) (hnum : queue < 64) (hstate : x.state = 2) :
    exec (.wqLrestart queue) s = .next (queueRestart s x (getF s F.WQ_LRESTART_IDX_INDEX)) := by
  show execWqLrestart queue s = _
  simp only [execWqLrestart, whileCore_run hlive, hqueue, hlegacy, hnum, hstate, decide_true, beq_self_eq_true, Bool.and_self, if_true]

end Drain

end Sys2Proof.Machine

section Settled

open Sys2Proof Sys2Proof.Machine

/-- Settles O45, command by command. -/
theorem workQueuesComplete : Obligations.WorkQueuesComplete := by
  unfold Obligations.WorkQueuesComplete
  intro s queue hlive
  refine ⟨?doorbell, ?doorbellCq, fun _ => exec_wqDoorbellSq_of_unfenced hlive, ?poll, ?take, exec_wqCompletionDue_of_live hlive,
    fun _ => exec_wqNop_of_taken hlive, exec_wqHold_of_free hlive, exec_wqUnhold_of_live hlive, ?admin,
    fun _ _ _ _ hx => exec_destroyDrained_of_drained hlive hx, fun _ => exec_wqLrestart_of_stopped hlive⟩
  case doorbell =>
    intro x b v hqueue hfenced hread
    constructor
    · intro hdir hpoll hfits
      rw [exec_wqDoorbellSq_of_fenced hlive hqueue (.inl hpoll) hfenced, readSq_of_toBlock hdir hread hfits]
    · intro hdir hfits
      rw [exec_wqDoorbellSq_of_fenced hlive hqueue (.inr hdir) hfenced, readSq_of_fromBlock hdir hread hfits]
  case doorbellCq =>
    intro x b v p hqueue hdir hread hfits hp
    rw [exec_wqDoorbellCq_of_toBlock hlive hqueue hdir, readCq_of_fits hread hfits hp]
  case poll =>
    intro x b v hqueue hpoll hdir hstate hheld henable hread
    exact ⟨exec_wqPoll_of_posted hlive hqueue hpoll hdir hstate hheld henable hread,
      exec_wqPoll_of_not_posted hlive hqueue hpoll hdir hstate hheld henable hread⟩
  case take =>
    intro x h v n w b hqueue hnative henable hdir hstate hposted hfree hadmin hblock hfits hread hslots hop hcount hrange hbatch hlength hreserved hall
    rw [exec_wqEntryTake_of_turn hlive hqueue hnative henable hdir hstate hposted hfree hadmin hblock hfits,
      wqCheckTake_of_good hread hslots hop hcount hrange hbatch hlength hreserved hall]
  case admin =>
    intro t hnum hreserved
    exact ⟨exec_create_of_open hlive hnum hreserved, fun _ => exec_destroy_of_open hlive hnum hreserved,
      fun _ => exec_restart_of_open hlive hnum hreserved⟩

end Settled
end

section
/-! PROOFS. What the family "DMA engine" states: the commands of a channel, its bursts and the ends of its descriptors, the request lines and the
completion ring. -/

namespace Sys2Proof.Machine

/-! ### Channels (R440, R447) -/

theorem chanOf_num (s : State) (n : Nat) : (chanOf s n).num = n := by
  simp only [chanOf]
  cases hfind : s.dma.chans.find? (fun c => c.num == n) with
  | none => rfl
  | some c => exact eq_of_beq (List.find?_some (p := fun c : DmaCh => c.num == n) hfind)

@[simp] theorem dmaSync_dma (s : State) : (dmaSync s).dma = s.dma := rfl
@[simp] theorem dmaSync_mem (s : State) : (dmaSync s).mem = s.mem := rfl
@[simp] theorem putChan_mem (s : State) (c : DmaCh) : (putChan s c).mem = s.mem := rfl

@[simp] theorem chanOf_setF (s : State) (f : Fld) (v n : Nat) : chanOf (setF s f v) n = chanOf s n := rfl

@[simp] theorem chanOf_countF (s : State) (f : Fld) (v n : Nat) : chanOf (countF s f v) n = chanOf s n := by
  simp only [countF]; split <;> rfl

/-- The channel put in place is the one found under its number. -/
theorem chanOf_putChan {s : State} {c : DmaCh} {n : Nat} (h : c.num = n) : chanOf (putChan s c) n = c := by
  simp only [chanOf, putChan, dmaSync_dma, setF_dma, List.find?_cons, h, beq_self_eq_true, Option.getD_some]

/-- A register field of a channel other than DONE_BYTES is as before the channel was put in place: DMA_STATUS lies below the channels. -/
theorem getF_putChan {g : Fld} {s : State} {c : DmaCh} (hlow : fldKey F.DMA_STATUS_IDLE < fldKey g)
    (hdone : fldKey (F.DMA_CH_DONE_BYTES_BYTES c.num) ≠ fldKey g) : getF (putChan s c) g = getF s g := by
  have hused : fldKey F.DMA_STATUS_BUF_USED < fldKey F.DMA_STATUS_IDLE := by decide
  rw [putChan, dmaSync, getF_setF_other _ _ (by omega), getF_setF_other _ _ (by omega), getF_setF_other _ _ hdone]
  rfl

theorem getF_putChan_done (s : State) (c : DmaCh) : getF (putChan s c) (F.DMA_CH_DONE_BYTES_BYTES c.num) = c.done % 2 ^ 32 := by
  have hlow : fldKey F.DMA_STATUS_BUF_USED < fldKey (F.DMA_CH_DONE_BYTES_BYTES c.num) ∧
      fldKey F.DMA_STATUS_IDLE < fldKey (F.DMA_CH_DONE_BYTES_BYTES c.num) := by
    simp only [fldKey, F.DMA_STATUS_BUF_USED, F.DMA_STATUS_IDLE, F.DMA_CH_DONE_BYTES_BYTES]; omega
  rw [putChan, dmaSync, getF_setF_other _ _ (Nat.ne_of_lt hlow.1), getF_setF_other _ _ (Nat.ne_of_lt hlow.2), getF_setF_same]
  rfl

/-- With no record to append, appending only shows that none waits. -/
theorem dmaAppend_of_no_records {s : State} {n : Nat} (h : (chanOf s n).records = []) (k : Nat) :
    dmaAppend (k + 1) s n = (setF s (F.DMA_CH_STATUS_CQ_WAIT n) 0, true) := by
  simp only [dmaAppend, h]

/-! ### Channel commands (R445, R449 to R451, Table 13-3) -/

section ChannelCommands

variable {s u : State} {core channel : Nat}

theorem exec_dmaGo_of_unfenced (hturn : StoreTurn s core (F.DMA_CH_CTRL_GO channel).addr u)
    (hstate : getF u (F.DMA_CH_STATUS_STATE channel) = 0 ∨ getF u (F.DMA_CH_STATUS_STATE channel) = 2)
    (hunfenced : unfencedHit u [(descAddr u channel, 64)] = true) : exec (.dmaGo core channel) s = .fault (.undefined46 2) := by
  show execDmaGo core channel s = _
  simp only [execDmaGo, coreStore_run hturn, hstate, whenFenced, hunfenced, if_true]

theorem exec_dmaGo_of_fenced {t : State} (hturn : StoreTurn s core (F.DMA_CH_CTRL_GO channel).addr u)
    (hstate : getF u (F.DMA_CH_STATUS_STATE channel) = 0 ∨ getF u (F.DMA_CH_STATUS_STATE channel) = 2)
    (hfenced : unfencedHit u [(descAddr u channel, 64)] = false) (hstarts : DmaStarts u channel (descAddr u channel) t) :
    exec (.dmaGo core channel) s = .next t := by
  show execDmaGo core channel s = _
  simp only [execDmaGo, coreStore_run hturn, hstate, whenFenced, hfenced, Bool.false_eq_true, if_true, if_false, dmaStart_run hstarts]

theorem exec_dmaRun_of_idle {queue : Nat} {t : Taken} {z : State} (hlive : coreLive s = true) (hentry : runEntry s queue = some t)
    (hchannel : fld t.bytes 8 2 = channel) (hlt : channel < 32)
    (hstate : getF s (F.DMA_CH_STATUS_STATE channel) = 0 ∨ getF s (F.DMA_CH_STATUS_STATE channel) = 2)
    (hstarts : DmaStarts (putChan s { chanOf s channel with run := some (t.queue, t.index) }) channel (fld t.bytes 16 8) z) :
    exec (.dmaRun queue) s = .next z := by
  show execDmaRun queue s = _
  simp only [execDmaRun, whileCore_run hlive, hentry, hchannel, Nat.not_le.2 hlt, Nat.mod_eq_of_lt hlt, hstate, ge_iff_le, if_true, if_false,
    dmaStart_run hstarts]

theorem exec_dmaRun_of_busy {queue : Nat} {t : Taken} (hlive : coreLive s = true) (hentry : runEntry s queue = some t)
    (hchannel : fld t.bytes 8 2 = channel) (hlt : channel < 32)
    (hstate : getF s (F.DMA_CH_STATUS_STATE channel) = 1 ∨ getF s (F.DMA_CH_STATUS_STATE channel) = 3) :
    exec (.dmaRun queue) s = .next (entryEnd s t (slice t.bytes 24 8 ++ [2] ++ zeros 3) true) := by
  have hbusy : ¬ (getF s (F.DMA_CH_STATUS_STATE channel) = 0 ∨ getF s (F.DMA_CH_STATUS_STATE channel) = 2) := by omega
  show execDmaRun queue s = _
  simp only [execDmaRun, whileCore_run hlive, hentry, hchannel, Nat.not_le.2 hlt, Nat.mod_eq_of_lt hlt, hbusy, ge_iff_le, if_false]

theorem exec_dmaKick_of_running (hturn : StoreTurn s core (F.DMA_CH_CTRL_KICK channel).addr u)
    (hstate : getF u (F.DMA_CH_STATUS_STATE channel) = 1) :
    exec (.dmaKick core channel) s = .next (setF u (F.DMA_CH_STATUS_KICK_PEND channel) 1) := by
  show execDmaKick core channel s = _
  simp only [execDmaKick, coreStore_run hturn, hstate, if_true]

/-- A KICK of an ENDED channel whose LINK is fenced reads that LINK again. -/
theorem exec_dmaKick_of_ended (hturn : StoreTurn s core (F.DMA_CH_CTRL_KICK channel).addr u)
    (hstate : getF u (F.DMA_CH_STATUS_STATE channel) = 2) (hfenced : unfencedHit u [(getF u (F.DMA_CH_LAST_ADDR channel) + 24, 8)] = false) :
    exec (.dmaKick core channel) s = dmaRelink u channel (getF u (F.DMA_CH_LAST_ADDR channel)) := by
  show execDmaKick core channel s = _
  simp only [execDmaKick, coreStore_run hturn, hstate, whenFenced, hfenced, Bool.false_eq_true, if_true, if_false, OfNat.ofNat_ne_one]

/-- A LINK read again whose END is 1 leaves an ENDED channel ENDED. -/
theorem dmaRelink_of_end {v : State} {n a : Nat} {w : Bytes} (hread : fabRead u (dmaRid n) (a + 24) 8 = (v, some w))
    (hend : bitAt (leNat w) 63 = true) (hstate : getF v (F.DMA_CH_STATUS_STATE n) = 2) : dmaRelink u n a = .next v := by
  simp only [dmaRelink, hread, hend, hstate, Bool.not_true, Bool.false_eq_true, if_true, if_false]

/-- A LINK read again whose END is 0 starts the descriptor it names. -/
theorem dmaRelink_of_next {v z : State} {n a : Nat} {w : Bytes} (hread : fabRead u (dmaRid n) (a + 24) 8 = (v, some w))
    (hnext : bitAt (leNat w) 63 = false) (hstarts : DmaStarts v n (bits (leNat w) 0 48) z) : dmaRelink u n a = .next z := by
  simp only [dmaRelink, hread, hnext, Bool.not_false, if_true, dmaStart_run hstarts]

theorem exec_dmaStop_of_bursts (hturn : StoreTurn s core (F.DMA_CH_CTRL_STOP channel).addr u)
    (hstate : getF u (F.DMA_CH_STATUS_STATE channel) = 1) (hbursts : (chanOf u channel).bursts ≠ []) :
    exec (.dmaStop core channel) s = .next (putChan u { chanOf u channel with stopping := true }) := by
  show execDmaStop core channel s = _
  simp only [execDmaStop, coreStore_run hturn, hstate, hbursts, ne_eq, not_true_eq_false, false_and, if_false]

theorem exec_dmaStop_of_quiet (hturn : StoreTurn s core (F.DMA_CH_CTRL_STOP channel).addr u)
    (hstate : getF u (F.DMA_CH_STATUS_STATE channel) = 1) (hbursts : (chanOf u channel).bursts = []) (hfollow : (chanOf u channel).follow = 0) :
    exec (.dmaStop core channel) s = dmaSettle (dmaStopped (putChan u { chanOf u channel with stopping := true }) channel) channel := by
  show execDmaStop core channel s = _
  simp only [execDmaStop, coreStore_run hturn, hstate, hbursts, hfollow, ne_eq, not_true_eq_false, and_self, if_true, if_false]

/-- Its records all appended, a stopped channel becomes IDLE. -/
theorem dmaSettle_of_stopped {v t : State} {n : Nat} (happend : dmaAppend ((chanOf v n).records.length + 1) v n = (t, true))
    (hrecords : (chanOf t n).records = []) (hfollow : (chanOf t n).follow = 2) :
    dmaSettle v n = .next (dmaIdle (putChan (if (chanOf t n).irqAfter then setF t (F.DMA_CH_STATUS_IRQ_PEND n) 1 else t)
      { chanOf t n with irqAfter := false, follow := 0 }) n) := by
  simp only [dmaSettle, happend, hrecords, hfollow, ne_eq, not_true_eq_false, OfNat.ofNat_ne_zero, if_true, if_false]

theorem exec_dmaResume_of_good {d : Bytes} (hturn : StoreTurn s core (F.DMA_CH_CTRL_RESUME channel).addr u)
    (hstate : getF u (F.DMA_CH_STATUS_STATE channel) = 3) (hdesc : (chanOf u channel).desc = some d) (hgood : descFault u channel d = false) :
    exec (.dmaResume core channel) s =
      .next (setChanState (putChan u { chanOf u channel with issued := (chanOf u channel).done, bursts := [] }) channel 1) := by
  show execDmaResume core channel s = _
  simp only [execDmaResume, coreStore_run hturn, hstate, hdesc, hgood, ne_eq, not_true_eq_false, Bool.false_eq_true, if_false]

theorem exec_dmaResume_of_no_descriptor {t : State} (hturn : StoreTurn s core (F.DMA_CH_CTRL_RESUME channel).addr u)
    (hstate : getF u (F.DMA_CH_STATUS_STATE channel) = 3) (hdesc : (chanOf u channel).desc = none)
    (hstarts : DmaStarts u channel (descAddr u channel) t) : exec (.dmaResume core channel) s = .next t := by
  show execDmaResume core channel s = _
  simp only [execDmaResume, coreStore_run hturn, hstate, hdesc, ne_eq, not_true_eq_false, if_false, dmaStart_run hstarts]

theorem exec_dmaAbort_of_halted (hturn : StoreTurn s core (F.DMA_CH_CTRL_ABORT channel).addr u)
    (hstate : getF u (F.DMA_CH_STATUS_STATE channel) = 3) : exec (.dmaAbort core channel) s = .next (setChanState u channel 0) := by
  show execDmaAbort core channel s = _
  simp only [execDmaAbort, coreStore_run hturn, hstate, if_true]

end ChannelCommands

/-! ### Bursts (R438, R441, R443, R444, R447) -/

section Bursts

variable {s : State} {channel : Nat} {d : Bytes} (hlive : coreLive s = true) (hdesc : (chanOf s channel).desc = some d)

include hlive hdesc

theorem exec_dmaBurstGrant_of_picked {v w : State} {b : Bytes} (hpick : dmaPick s = some channel)
    (hw : w = (if flag s (F.DMA_CH_CFG_HIGH channel) then { s with dma := { s.dma with lastHigh := channel } }
      else { s with dma := { s.dma with lastLow := channel } }))
    (hread : fabRead w (dmaRid channel) (srcAddr d (chanOf s channel).issued) (if dflag d 2 then 1 else burstLen w (chanOf s channel) d) =
      (v, some b)) :
    exec (.dmaBurstGrant channel) s = .next (putChan v { chanOf s channel with
      issued := (chanOf s channel).issued + burstLen w (chanOf s channel) d
      bursts := (chanOf s channel).bursts ++ [⟨(chanOf s channel).issued,
        if dflag d 2 then List.replicate (burstLen w (chanOf s channel) d) (b.headD 0) else b⟩] }) := by
  show execDmaBurstGrant channel s = _
  simp only [execDmaBurstGrant, whileCore_run hlive, hpick, hdesc, ← hw, hread, ne_eq, not_true_eq_false, if_false]

/-- A burst that reaches its destination is off the channel, and what the channel does next depends on the records it is left with. -/
theorem exec_dmaBurstWritten_of_written {b : DmaBurst} {rest : List DmaBurst} {v : State} {c : DmaCh}
    (hbursts : (chanOf s channel).bursts = b :: rest) (hstop : (chanOf s channel).stopping = false)
    (hwrite : fabWrite s (dmaRid channel) (dstAddr d b.start) (if dflag d 3 then b.data.drop (b.data.length - 1) else b.data) = (v, true))
    (hc : c = { chanOf s channel with bursts := rest, done := b.start + b.data.length }) (hwrap : wrapRecords d c = []) :
    exec (.dmaBurstWritten channel) s = dmaSettle (countF (putChan v c) F.DMA_CNT_BYTES_COUNT b.data.length) channel := by
  subst hc
  simp only [hdesc, hstop] at hwrap
  show execDmaBurstWritten channel s = _
  simp only [execDmaBurstWritten, whileCore_run hlive, hdesc, hbursts, hwrite, hwrap, hstop, List.append_nil, List.isEmpty_nil, if_true,
    Bool.false_eq_true, false_and, if_false]

theorem exec_dmaPeripheralLast_of_short {rest : List DmaBurst} {b : DmaBurst} {bytes : Nat}
    (hbursts : (chanOf s channel).bursts = rest ++ [b]) (hline : 32 ≤ getF s (F.DMA_CH_CFG_PREQ channel)) (hsource : dflag d 2 = true)
    (hshort : bytes < b.data.length) : exec (.dmaPeripheralLast channel bytes) s =
      .next (putChan s { chanOf s channel with bursts := rest ++ [⟨b.start, b.data.take bytes⟩], last := some (b.start + bytes) }) := by
  show execDmaPeripheralLast channel bytes s = _
  simp only [execDmaPeripheralLast, whileCore_run hlive, hdesc, hbursts, List.reverse_append, List.reverse_cons, List.reverse_nil, List.nil_append,
    List.cons_append, List.reverse_reverse, hsource, hline, hshort, ge_iff_le, and_self, if_true]

theorem exec_dmaPeripheralAbort_of_periph {rest : List DmaBurst} {b : DmaBurst} (hbursts : (chanOf s channel).bursts = rest ++ [b])
    (hline : 32 ≤ getF s (F.DMA_CH_CFG_PREQ channel)) (hperiph : chanPeriph s channel = true) : exec (.dmaPeripheralAbort channel) s =
      .next (dmaHalt s channel 3 (b2n (dflag d 3)) (if dflag d 3 then dstAddr d b.start else srcAddr d b.start)) := by
  show execDmaPeripheralAbort channel s = _
  simp only [execDmaPeripheralAbort, whileCore_run hlive, hdesc, hbursts, List.reverse_append, List.reverse_cons, List.reverse_nil, List.nil_append,
    List.cons_append, hperiph, hline, ge_iff_le, and_self, if_true]

end Bursts

/-- With no record to append and nothing to follow, the channel only gets the IRQ_PEND that was due. -/
theorem dmaSettle_of_quiet {s : State} {n : Nat} (hrecords : (chanOf s n).records = []) (hfollow : (chanOf s n).follow = 0) :
    dmaSettle s n = .next (putChan (if (chanOf s n).irqAfter then setF (setF s (F.DMA_CH_STATUS_CQ_WAIT n) 0) (F.DMA_CH_STATUS_IRQ_PEND n) 1
      else setF s (F.DMA_CH_STATUS_CQ_WAIT n) 0) { chanOf s n with irqAfter := false, follow := 0 }) := by
  simp only [dmaSettle, dmaAppend_of_no_records hrecords, chanOf_setF, hrecords, hfollow, ne_eq, not_true_eq_false, if_true, if_false]
  rfl

/-! ### Ends of descriptors (R445) -/

/-- With no record to append, a channel whose descriptor has ended follows its LINK. -/
theorem dmaSettle_of_follow {s : State} {n : Nat} (hrecords : (chanOf s n).records = []) (hfollow : (chanOf s n).follow = 1)
    (hirq : (chanOf s n).irqAfter = false) (hstop : (chanOf s n).stopping = false) :
    dmaSettle s n = dmaFollow (putChan (setF s (F.DMA_CH_STATUS_CQ_WAIT n) 0) { chanOf s n with irqAfter := false, follow := 0 }) n := by
  simp only [dmaSettle, dmaAppend_of_no_records hrecords, chanOf_setF, hrecords, hfollow, hirq, hstop, ne_eq, not_true_eq_false, one_ne_zero,
    OfNat.one_ne_ofNat, Bool.false_eq_true, if_false]

/-- A LINK whose END is 1 ends the chain where no KICK waits. -/
theorem dmaFollow_of_end {s : State} {n : Nat} {d : Bytes} (hdesc : (chanOf s n).desc = some d) (hend : bitAt (fld d 24 8) 63 = true)
    (hkick : flag s (F.DMA_CH_STATUS_KICK_PEND n) = false) : dmaFollow s n = .next (dmaEnded (countF s F.DMA_CNT_DESC_COUNT 1) n) := by
  have hkey : fldKey F.DMA_CNT_DESC_COUNT ≠ fldKey (F.DMA_CH_STATUS_KICK_PEND n) := by
    simp only [fldKey, F.DMA_CNT_DESC_COUNT, F.DMA_CH_STATUS_KICK_PEND]; omega
  have hkept : flag (countF s F.DMA_CNT_DESC_COUNT 1) (F.DMA_CH_STATUS_KICK_PEND n) = false := by
    rw [← hkick]; exact congrArg (· == 1) (getF_countF _ _ _ _ hkey)
  simp only [dmaFollow, hdesc, hend, hkept, Bool.not_true, Bool.false_eq_true, if_false]

theorem exec_dmaDescriptorEnd_of_plain {s : State} {channel : Nat} {d : Bytes} (hlive : coreLive s = true)
    (hdesc : (chanOf s channel).desc = some d) (hstate : getF s (F.DMA_CH_STATUS_STATE channel) = 1) (hdone : descDone (chanOf s channel) d = true)
    (hrecords : (chanOf s channel).records = []) (hfollow : (chanOf s channel).follow = 0) (hcompl : dflag d 0 = false) (hirq : dflag d 1 = false) :
    exec (.dmaDescriptorEnd channel) s = dmaSettle (putChan s { chanOf s channel with irqAfter := false, follow := 1 }) channel := by
  show execDmaDescriptorEnd channel s = _
  simp only [execDmaDescriptorEnd, whileCore_run hlive, hdesc, hstate, hdone, hrecords, hfollow, hcompl, hirq, ne_eq, not_true_eq_false,
    Bool.not_true, Bool.false_eq_true, or_self, if_false]

/-! ### Request lines and the completion ring (R443, R444, R448) -/

section Ring

variable {s u : State} {core : Nat}

theorem exec_dmaReqSet_of_even {lines : Nat} (hturn : StoreTurn s core F.DMA_REQ_SET_LINES.addr u) (heven : lines % 2 = 0) :
    exec (.dmaReqSet core lines) s = .next (setLines u (getF u F.DMA_REQ_SET_LINES ||| lines / 2)) := by
  show execDmaReqSet core lines s = _
  simp only [execDmaReqSet, coreStore_run hturn, heven, zero_ne_one, if_false]

theorem exec_dmaReqClr_of_even {lines : Nat} (hturn : StoreTurn s core F.DMA_REQ_CLR_LINES.addr u) (heven : lines % 2 = 0) :
    exec (.dmaReqClr core lines) s = .next (setLines (countF u F.DMA_CNT_WITHDRAWN_COUNT (withdrawn u lines))
      (getF u F.DMA_REQ_SET_LINES &&& (getF u F.DMA_REQ_SET_LINES ^^^ lines / 2))) := by
  show execDmaReqClr core lines s = _
  simp only [execDmaReqClr, coreStore_run hturn, heven, zero_ne_one, if_false]

/-- Channels of which none waits for room are left as they are. -/
theorem dmaRelease_of_none_waiting {l : List Nat} (h : ∀ n ∈ l, flag s (F.DMA_CH_STATUS_CQ_WAIT n) = false) : dmaRelease l s = .next s := by
  induction l with
  | nil => rfl
  | cons n l ih =>
    obtain ⟨hn, hl⟩ := List.forall_mem_cons.1 h
    simp only [dmaRelease, hn, Bool.false_eq_true, if_false, andThen, ih hl]

theorem exec_dmaCqCiWrite_of_none_waiting {index : Nat} {t : State} (hturn : StoreTurn s core F.DMA_CQ_CI_INDEX.addr u)
    (hrange : idxSub index (getF u F.DMA_CQ_CI_INDEX) ≤ idxSub (getF u F.DMA_CQ_PI_INDEX) (getF u F.DMA_CQ_CI_INDEX))
    (ht : t = setF u F.DMA_CQ_CI_INDEX index) (hnone : ∀ n < 32, flag t (F.DMA_CH_STATUS_CQ_WAIT n) = false) :
    exec (.dmaCqCiWrite core index) s = .next t := by
  subst ht
  show execDmaCqCiWrite core index s = _
  simp only [execDmaCqCiWrite, coreStore_run hturn, Nat.not_lt.2 hrange, gt_iff_lt, if_false]
  exact dmaRelease_of_none_waiting fun n hn => hnone n (List.mem_range.1 hn)

end Ring

end Sys2Proof.Machine

section Settled

open Sys2Proof Sys2Proof.Machine

/-- Settles O46, command by command. -/
theorem dmaChannelsComplete : Obligations.DmaChannelsComplete := by
  unfold Obligations.DmaChannelsComplete
  intro s u core channel
  refine ⟨?go, ?run, ?kick, exec_dmaStop_of_bursts, ?stop, fun _ => exec_dmaResume_of_good,
    fun hturn hstate hdesc _ => exec_dmaResume_of_no_descriptor hturn hstate hdesc, exec_dmaAbort_of_halted⟩
  case go =>
    intro t hturn hstate
    exact ⟨exec_dmaGo_of_unfenced hturn hstate, exec_dmaGo_of_fenced hturn hstate⟩
  case run =>
    intro queue t hlive hentry hchannel hlt
    exact ⟨fun _ => exec_dmaRun_of_idle hlive hentry hchannel hlt, exec_dmaRun_of_busy hlive hentry hchannel hlt⟩
  case kick =>
    intro hturn
    refine ⟨exec_dmaKick_of_running hturn, fun v w z hstate hfenced hread => ?_⟩
    rw [exec_dmaKick_of_ended hturn hstate hfenced]
    exact ⟨dmaRelink_of_end hread, dmaRelink_of_next hread⟩
  case stop =>
    intro v t hturn hstate hbursts hfollow hv happend hrecords hidle
    rw [exec_dmaStop_of_quiet hturn hstate hbursts hfollow, ← hv, dmaSettle_of_stopped happend hrecords hidle]

/-- Settles O47: a burst written and a descriptor ended each leave the channel to `dmaSettle`, which has no record to append. -/
theorem dmaTransfersComplete : Obligations.DmaTransfersComplete := by
  unfold Obligations.DmaTransfersComplete
  intro s u core channel
  have hnum := chanOf_num s channel
  refine ⟨fun d v b w hlive hpick hdesc => exec_dmaBurstGrant_of_picked hlive hdesc hpick, ?written, ?peripheral, ?ended,
    fun _ => exec_dmaReqSet_of_even, fun _ => exec_dmaReqClr_of_even, fun _ _ => exec_dmaCqCiWrite_of_none_waiting⟩
  case written =>
    intro d b rest v c hlive hdesc hbursts hstop hwrite hc hwrap hrecords hfollow
    have hc_num : c.num = channel := by rw [hc]; exact hnum
    have hchan : chanOf (countF (putChan v c) F.DMA_CNT_BYTES_COUNT b.data.length) channel = c := by
      rw [chanOf_countF, chanOf_putChan hc_num]
    rw [exec_dmaBurstWritten_of_written hlive hdesc hbursts hstop hwrite hc hwrap,
      dmaSettle_of_quiet (by rw [hchan, hrecords]) (by rw [hchan, hfollow]), hchan]
    refine ⟨_, rfl, ?_, ?_, ?_, ?_⟩
    · exact (congrArg DmaCh.done (chanOf_putChan (c := { c with irqAfter := false, follow := 0 }) hc_num) :)
    · rw [hc]; exact congrArg DmaCh.bursts (chanOf_putChan (c := { chanOf s channel with
        bursts := rest, done := b.start + b.data.length, irqAfter := false, follow := 0 }) hnum)
    · rw [putChan_mem]; split <;> simp only [setF_mem, countF_mem, putChan_mem]
    · rw [← hc_num]; exact getF_putChan_done _ { c with irqAfter := false, follow := 0 }
  case peripheral =>
    intro d b rest bytes hlive hdesc hbursts hline
    exact ⟨exec_dmaPeripheralLast_of_short hlive hdesc hbursts hline, exec_dmaPeripheralAbort_of_periph hlive hdesc hbursts hline⟩
  case ended =>
    intro d v hlive hdesc hstate hdone hrecords hfollow hstop hcompl hirq hend hkick hv
    have hchan : chanOf (putChan s { chanOf s channel with irqAfter := false, follow := 1 }) channel =
        { chanOf s channel with irqAfter := false, follow := 1 } := chanOf_putChan hnum
    have hv_desc : (chanOf v channel).desc = some d := by
      rw [hv]
      exact (congrArg DmaCh.desc (chanOf_putChan (c := { chanOf s channel with irqAfter := false, follow := 0 }) hnum)).trans hdesc
    have hv_kick : flag v (F.DMA_CH_STATUS_KICK_PEND channel) = false := by
      have hkeys : fldKey F.DMA_STATUS_IDLE < fldKey (F.DMA_CH_STATUS_KICK_PEND channel) ∧
          fldKey (F.DMA_CH_DONE_BYTES_BYTES channel) ≠ fldKey (F.DMA_CH_STATUS_KICK_PEND channel) ∧
          fldKey (F.DMA_CH_STATUS_CQ_WAIT channel) ≠ fldKey (F.DMA_CH_STATUS_KICK_PEND channel) := by
        simp only [fldKey, F.DMA_STATUS_IDLE, F.DMA_CH_STATUS_KICK_PEND, F.DMA_CH_DONE_BYTES_BYTES, F.DMA_CH_STATUS_CQ_WAIT]; omega
      obtain ⟨hlow, hdone, hwait⟩ := hkeys
      rw [← hkick, hv, flag, flag, getF_putChan hlow (by rw [hnum]; exact hdone), getF_setF_other _ _ hwait,
        getF_putChan hlow (by rw [hnum]; exact hdone)]
    rw [exec_dmaDescriptorEnd_of_plain hlive hdesc hstate hdone hrecords hfollow hcompl hirq,
      dmaSettle_of_follow (by rw [hchan]; exact hrecords) (by rw [hchan]) (by rw [hchan]) (by rw [hchan]; exact hstop), hchan, ← hv,
      dmaFollow_of_end hv_desc hend hv_kick]

end Settled
end

section
/-! PROOFS. What the family "Palette" states: the best match of a search, ports and their stepping, entries written, read and moved. -/

namespace Sys2Proof.Machine

/-! ### The best match (R458) -/

/-- No match is better than this one: each other has a lower PRIO, or the same and a later place. -/
def MatchLeads (e f : AsuEnt) : Prop :=
  f.prio < e.prio ∨ f.prio = e.prio ∧ (e.bank < f.bank ∨ e.bank = f.bank ∧ e.index ≤ f.index)

theorem MatchLeads.refl (e : AsuEnt) : MatchLeads e e := .inr ⟨rfl, .inr ⟨rfl, Nat.le_refl _⟩⟩

theorem MatchLeads.trans {a b c : AsuEnt} (hab : MatchLeads a b) (hbc : MatchLeads b c) : MatchLeads a c := by
  simp only [MatchLeads] at *; omega

/-- A better match leads; one that is not better is led. -/
theorem betterMatch_iff (a b : AsuEnt) : betterMatch a b = true ↔ ¬ MatchLeads b a := by
  simp only [betterMatch, MatchLeads, Bool.or_eq_true, Bool.and_eq_true, decide_eq_true_eq, beq_iff_eq]; omega

theorem MatchLeads.of_not {a b : AsuEnt} (h : ¬ MatchLeads b a) : MatchLeads a b := by
  simp only [MatchLeads] at *; omega

theorem bestMatch_eq_none {l : List AsuEnt} : bestMatch l = none ↔ l = [] := by
  cases l with
  | nil => simp only [bestMatch]
  | cons e es =>
    simp only [bestMatch, reduceCtorEq, iff_false]
    cases bestMatch es with
    | none => exact Option.some_ne_none _
    | some f => dsimp only; split <;> exact Option.some_ne_none _

theorem bestMatch_leads {l : List AsuEnt} {e : AsuEnt} (h : bestMatch l = some e) : e ∈ l ∧ ∀ f ∈ l, MatchLeads e f := by
  induction l generalizing e with
  | nil => simp only [bestMatch, reduceCtorEq] at h
  | cons a as ih =>
    simp only [bestMatch] at h
    cases hb : bestMatch as with
    | none =>
      simp only [hb, Option.some.injEq] at h
      obtain rfl := bestMatch_eq_none.1 hb
      subst h
      exact ⟨List.mem_cons_self, fun f hf => by rw [List.mem_singleton.1 hf]; exact .refl a⟩
    | some b =>
      obtain ⟨hmem, hleads⟩ := ih hb
      simp only [hb] at h
      split at h
      · next hbetter =>
        obtain rfl := Option.some.inj h
        refine ⟨List.mem_cons_of_mem _ hmem, List.forall_mem_cons.2 ⟨.of_not ((betterMatch_iff b a).1 hbetter), hleads⟩⟩
      · next hworse =>
        obtain rfl := Option.some.inj h
        have hab : MatchLeads a b := by_contra fun hn => hworse ((betterMatch_iff b a).2 hn)
        exact ⟨List.mem_cons_self, List.forall_mem_cons.2 ⟨.refl a, fun f hf => hab.trans (hleads f hf)⟩⟩

theorem asuSearch_of_no_match {s : State} {key banks width : Nat} (henable : flag s F.ASU_CTRL_ENABLE = true)
    (hnone : asuMatches (moveProgress s) key banks width = []) : (asuSearch s key banks width).2 = ⟨false, false, 0, 0, 0, 0, []⟩ := by
  simp only [asuSearch, henable, Bool.not_true, Bool.false_eq_true, if_false, bestMatch_eq_none.2 hnone]

theorem asuSearch_of_match {s : State} {key banks width : Nat} {e : AsuEnt} (henable : flag s F.ASU_CTRL_ENABLE = true)
    (hbest : bestMatch (asuMatches (moveProgress s) key banks width) = some e) :
    (asuSearch s key banks width).2 = ⟨true, decide ((asuMatches (moveProgress s) key banks width).length > 1), e.bank, e.index, e.prio, e.adata,
      sortPlaces ((asuMatches (moveProgress s) key banks width).map fun x => (x.bank, x.index))⟩ := by
  simp only [asuSearch, henable, Bool.not_true, Bool.false_eq_true, if_false, hbest]

/-! ### Ports (R461 to R463) -/

theorem b2n_mod_two (b : Bool) : b2n b % 2 = b2n b := by cases b <;> rfl

/-- Only IDLE of the registers changes when a port is put in place, and it lies below the ports' registers. -/
theorem getF_putPort {s : State} {p : AsuPort} {g : Fld} (h : fldKey F.ASU_STATUS_IDLE < fldKey g) : getF (putPort s p) g = getF s g :=
  getF_setF_other _ _ (Nat.ne_of_lt h)

theorem portOf_putPort (s : State) (p : AsuPort) : portOf (putPort s p) p.core = p := by
  simp only [portOf, putPort, setF_asu, List.find?_cons, beq_self_eq_true, Option.getD_some]

/-- A port with its search's report in the result registers, and its matches latched. -/
def portAnswered (s : State) (core : Nat) (h : AsuHit) : State :=
  let s := setF (setF (setF s (F.ASU_RESULT_READY core) 1) (F.ASU_RESULT_HIT core) (b2n h.hit)) (F.ASU_RESULT_MULTI core) (b2n h.multi)
  let s := setF (setF s (F.ASU_RESULT_BANK core) h.bank) (F.ASU_RESULT_INDEX core) h.index
  let s := setF (setF s (F.ASU_RESULT_PRIO_PRIO core) h.prio) (F.ASU_RESULT_DATA_ADATA core) h.adata
  let s := setF (setF (setF s (F.ASU_STEP_RESULT_VALID core) 0) (F.ASU_STEP_RESULT_END core) 0) (F.ASU_STEP_RESULT_STALE core) 0
  putPort s ⟨core, none, h.matched, 0⟩

theorem exec_asuSearchResult_of_running {s : State} {core key banks width : Nat} (henable : flag s F.ASU_CTRL_ENABLE = true)
    (hlive : coreLive s = true) (hrunning : (portOf s core).running = some (key, banks, width)) :
    exec (.asuSearchResult core) s = .next (portAnswered (asuSearch s key banks width).1 core (asuSearch s key banks width).2) := by
  show execAsuSearchResult core s = _
  simp only [execAsuSearchResult, whileCore_run hlive, hrunning, henable, Bool.not_true, Bool.false_eq_true, if_false]
  rfl

/-- The result registers of a port, at their own places. -/
theorem getF_portAnswered (s : State) (core : Nat) (h : AsuHit) :
    getF (portAnswered s core h) (F.ASU_RESULT_READY core) = 1 ∧
    getF (portAnswered s core h) (F.ASU_RESULT_HIT core) = b2n h.hit ∧
    getF (portAnswered s core h) (F.ASU_RESULT_MULTI core) = b2n h.multi ∧
    getF (portAnswered s core h) (F.ASU_RESULT_BANK core) = h.bank % 64 ∧
    getF (portAnswered s core h) (F.ASU_RESULT_INDEX core) = h.index % 2048 ∧
    getF (portAnswered s core h) (F.ASU_RESULT_PRIO_PRIO core) = h.prio % 2 ^ 16 ∧
    getF (portAnswered s core h) (F.ASU_RESULT_DATA_ADATA core) = h.adata % 2 ^ 32 := by
  simp (disch := (simp only [fldKey, F.ASU_RESULT_READY, F.ASU_RESULT_HIT, F.ASU_RESULT_MULTI, F.ASU_RESULT_BANK, F.ASU_RESULT_INDEX,
    F.ASU_RESULT_PRIO_PRIO, F.ASU_RESULT_DATA_ADATA, F.ASU_STEP_RESULT_VALID, F.ASU_STEP_RESULT_END, F.ASU_STEP_RESULT_STALE,
    F.ASU_STATUS_IDLE]; omega)) only [portAnswered, getF_putPort, getF_setF_other, getF_setF_same]
  exact ⟨rfl, b2n_mod_two _, b2n_mod_two _, rfl, rfl, rfl, rfl⟩

section Ports

variable {s u : State} {core : Nat}

theorem exec_asuSearchGo_of_turn {width : Nat} {v : State} (hturn : StoreTurn s core (F.ASU_SEARCH_GO core).addr u)
    (hv : v = setF u (F.ASU_SEARCH_WIDTH core) width) :
    exec (.asuSearchGo core width) s = .next (putPort (clearResult v core) { portOf v core with
      running := some (leNat (portBytes v F.ASU_KEY_BYTES core), getF v (F.ASU_SEARCH_BANKS_BANKS core), width % 4) }) := by
  subst hv
  show execAsuSearchGo core width s = _
  rw [execAsuSearchGo, coreStore_run hturn]

theorem exec_asuStepNext_of_latched {b i : Nat} {v : State} (hturn : StoreTurn s core (F.ASU_STEP_CTRL_NEXT core).addr u)
    (hready : flag u (F.ASU_RESULT_READY core) = true) (hlatched : (portOf u core).latched[(portOf u core).steps]? = some (b, i))
    (hv : v = putPort (moveProgress u) { portOf u core with steps := (portOf u core).steps + 1 }) :
    exec (.asuStepNext core) s = .next (stepRefresh (setF (setF (setF v (F.ASU_STEP_RESULT_VALID core) 1) (F.ASU_STEP_RESULT_BANK core) b)
      (F.ASU_STEP_RESULT_INDEX core) i) core) := by
  subst hv
  show execAsuStepNext core s = _
  simp only [execAsuStepNext, coreStore_run hturn, hready, hlatched, Bool.not_true, Bool.false_eq_true, if_false]

theorem exec_asuStepNext_of_end (hturn : StoreTurn s core (F.ASU_STEP_CTRL_NEXT core).addr u) (hready : flag u (F.ASU_RESULT_READY core) = true)
    (hend : (portOf u core).latched[(portOf u core).steps]? = none) :
    exec (.asuStepNext core) s = .next (setF (setF u (F.ASU_STEP_RESULT_VALID core) 0) (F.ASU_STEP_RESULT_END core) 1) := by
  show execAsuStepNext core s = _
  simp only [execAsuStepNext, coreStore_run hturn, hready, hend, Bool.not_true, Bool.false_eq_true, if_false]

end Ports

/-- What a touched bank does to one port: STALE where a match of the bank is latched, and the place reported shown as it now is. -/
def touchPort (b : Nat) (s : State) (c : Nat) : State :=
  stepRefresh (if (portOf s c).latched.any fun p => p.1 == b then setF s (F.ASU_STEP_RESULT_STALE c) 1 else s) c

theorem touchBank_eq (s : State) (b : Nat) : touchBank s b = (List.range 8).foldl (touchPort b) s := by rw [touchBank]; rfl

/-- A touched bank changes no more than registers that step through matches: STALE and those that show the place reported. -/
theorem touchBank_induct {motive : State → Prop} (hset : ∀ s f v c, f ∈ [F.ASU_STEP_RESULT_STALE c, F.ASU_STEP_PRIO_PRIO c, F.ASU_STEP_DATA_ADATA c] →
    motive s → motive (setF s f v)) {s : State} (b : Nat) (h : motive s) : motive (touchBank s b) := by
  have hrefresh : ∀ s c, motive s → motive (stepRefresh s c) := fun s c hs => by
    simp only [stepRefresh]
    split
    · exact hset _ _ _ c (by simp) (hset _ _ _ c (by simp) hs)
    · exact hs
  rw [touchBank_eq]
  refine List.foldlRecOn _ _ h fun s hs c _ => ?_
  rw [touchPort]
  refine hrefresh _ c ?_
  split
  · exact hset _ _ _ c (by simp) hs
  · exact hs

theorem touchBank_asu (s : State) (b : Nat) : (touchBank s b).asu = s.asu :=
  touchBank_induct (motive := fun t => t.asu = s.asu) (fun _ _ _ _ _ h => h) b rfl

theorem touchBank_mem (s : State) (b : Nat) : (touchBank s b).mem = s.mem :=
  touchBank_induct (motive := fun t => t.mem = s.mem) (fun _ _ _ _ _ h => h) b rfl

theorem getF_touchBank_done (s : State) (b core : Nat) : getF (touchBank s b) (F.ASU_WSTATUS_DONE core) = getF s (F.ASU_WSTATUS_DONE core) := by
  refine touchBank_induct (motive := fun t => getF t (F.ASU_WSTATUS_DONE core) = getF s (F.ASU_WSTATUS_DONE core))
    (fun t f v c hf ht => ?_) b rfl
  have hkey : fldKey f ≠ fldKey (F.ASU_WSTATUS_DONE core) := by
    simp only [List.mem_cons, List.not_mem_nil, or_false] at hf
    rcases hf with rfl | rfl | rfl <;>
      simp only [fldKey, F.ASU_STEP_RESULT_STALE, F.ASU_STEP_PRIO_PRIO, F.ASU_STEP_DATA_ADATA, F.ASU_WSTATUS_DONE] <;> omega
  rw [getF_setF_other _ _ hkey, ht]

/-! ### Entries (R455, R464, R465) -/

theorem asuEnt_putEnt_same (s : State) (x : AsuEnt) : asuEnt (putEnt s x) x.bank x.index = x := by
  simp only [asuEnt, putEnt, List.find?_cons, beq_self_eq_true, Bool.and_self, Option.getD_some]

/-- A list searched for what a filter never drops finds the same. -/
theorem find?_filter_of_imp {α : Type} (l : List α) {p q : α → Bool} (h : ∀ a, p a = true → q a = true) :
    (l.filter q).find? p = l.find? p := by
  rw [List.find?_filter]
  congr 1
  funext a
  cases hp : p a with
  | false => simp only [Bool.false_eq_true, and_false, decide_false]
  | true => simp only [h a hp, and_self, decide_true]

theorem asuEnt_putEnt_other (s : State) {x : AsuEnt} {b i : Nat} (h : (b, i) ≠ (x.bank, x.index)) : asuEnt (putEnt s x) b i = asuEnt s b i := by
  have hne : (x.bank == b && x.index == i) = false := by
    rw [Bool.and_eq_false_iff, beq_eq_false_iff_ne, beq_eq_false_iff_ne]
    by_contra hn
    simp only [ne_eq, not_or, not_not] at hn
    exact h (by rw [hn.1, hn.2])
  simp only [asuEnt, putEnt, List.find?_cons, hne]
  rw [find?_filter_of_imp]
  intro a ha
  simp only [Bool.and_eq_true, beq_iff_eq] at ha
  rw [ha.1, ha.2, Bool.beq_comm (a := b), Bool.beq_comm (a := i), hne]
  rfl

theorem asuUnit_putUnit (s : State) (x : AsuUnit) (b k : Nat) :
    asuUnit (putUnit s x) b k = if x.bank = b ∧ x.unit = k then (x.value, x.mask) else asuUnit s b k := by
  by_cases h : x.bank = b ∧ x.unit = k
  · obtain ⟨rfl, rfl⟩ := h
    simp only [asuUnit, putUnit, List.find?_cons, beq_self_eq_true, Bool.and_self, and_self, if_true]
  · have hne : (x.bank == b && x.unit == k) = false := by simpa using h
    simp only [asuUnit, putUnit, List.find?_cons, hne, h, if_false]
    rw [find?_filter_of_imp]
    intro a ha
    simp only [Bool.and_eq_true, beq_iff_eq] at ha
    rw [ha.1, ha.2, Bool.beq_comm (a := b), Bool.beq_comm (a := k), hne]
    rfl

/-- The first `m` units of the entry at `i`, whose entries have `n` units each, written with parts of a value and a mask. -/
def putUnits (s : State) (b i n key mask : Nat) (m : Nat) : State :=
  (List.range m).foldl (fun s j => putUnit s ⟨b, i * n + j, bits key (128 * j) 128, bits mask (128 * j) 128⟩) s

theorem foldl_putUnit (s : State) (b i n key mask m : Nat) :
    (List.range m).foldl (fun s j => putUnit s ⟨b, i * n + j, bits key (128 * j) 128, bits mask (128 * j) 128⟩) s =
      putUnits s b i n key mask m := rfl

theorem putUnits_succ (s : State) (b i n key mask m : Nat) : putUnits s b i n key mask (m + 1) =
    putUnit (putUnits s b i n key mask m) ⟨b, i * n + m, bits key (128 * m) 128, bits mask (128 * m) 128⟩ := by
  simp only [putUnits, List.range_succ, List.foldl_append, List.foldl_cons, List.foldl_nil]

theorem asuUnit_putUnits (s : State) (b i n key mask : Nat) {m j : Nat} (h : j < m) :
    asuUnit (putUnits s b i n key mask m) b (i * n + j) = (bits key (128 * j) 128, bits mask (128 * j) 128) := by
  induction m with
  | zero => omega
  | succ m ih =>
    rw [putUnits_succ, asuUnit_putUnit]
    by_cases hj : j = m
    · subst hj; rw [if_pos ⟨rfl, rfl⟩]
    · rw [if_neg (by simp only [true_and]; omega), ih (by omega)]

/-- Units written change nothing but the units. -/
theorem putUnits_frame (s : State) (b i n key mask m : Nat) :
    putUnits s b i n key mask m = { s with asu := { s.asu with units := (putUnits s b i n key mask m).asu.units } } := by
  induction m with
  | zero => rfl
  | succ m ih => rw [putUnits_succ, ih]; rfl

theorem getF_putUnits (s : State) (b i n key mask m : Nat) (f : Fld) : getF (putUnits s b i n key mask m) f = getF s f := by
  rw [putUnits_frame]; rfl

theorem portBytes_congr {s t : State} {f : Nat → Nat → Fld} {c : Nat} (h : ∀ i < 16, getF t (f c i) = getF s (f c i)) :
    portBytes t f c = portBytes s f c := by
  simp only [portBytes]
  congr 1
  exact List.map_congr_left fun i hi => by rw [h i (List.mem_range.1 hi)]

/-- A write of ASU_WENTRY with READ 0 in its registers, nothing of it done yet. -/
def entryAsked (s : State) (core valid bank index : Nat) : State :=
  setF (setF (setF (setF (setF s (F.ASU_WENTRY_VALID core) valid) (F.ASU_WENTRY_READ core) 0) (F.ASU_WENTRY_BANK core) bank)
    (F.ASU_WENTRY_INDEX core) index) (F.ASU_WSTATUS_DONE core) 0

theorem entryAsked_eq (s : State) (core valid bank index : Nat) :
    setF (setF (setF (setF (setF s (F.ASU_WENTRY_VALID core) valid) (F.ASU_WENTRY_READ core) 0) (F.ASU_WENTRY_BANK core) bank)
      (F.ASU_WENTRY_INDEX core) index) (F.ASU_WSTATUS_DONE core) 0 = entryAsked s core valid bank index := rfl

/-- A place within a bank is one of the 2,048 an INDEX can name. -/
theorem index_lt_of_place {s : State} {bank index : Nat} (h : index < bankEntries s bank) : index < 2048 :=
  Nat.lt_of_lt_of_le h (Nat.div_le_self _ _)

section Entries

variable {s u : State} {core bank index : Nat} (hbank : bank < 64)

/-- The bank's WIDTH and the port's key, mask, PRIO and ADATA are not among the registers that ask for the write. -/
theorem getF_entryAsked (s : State) (core valid index : Nat) (hbank : bank < 64) :
    getF (entryAsked s core valid bank index) (F.ASU_BANK_CFG_WIDTH bank) = getF s (F.ASU_BANK_CFG_WIDTH bank) ∧
    getF (entryAsked s core valid bank index) (F.ASU_WPRIO_PRIO core) = getF s (F.ASU_WPRIO_PRIO core) ∧
    getF (entryAsked s core valid bank index) (F.ASU_WDATA_ADATA core) = getF s (F.ASU_WDATA_ADATA core) ∧
    portBytes (entryAsked s core valid bank index) F.ASU_KEY_BYTES core = portBytes s F.ASU_KEY_BYTES core ∧
    portBytes (entryAsked s core valid bank index) F.ASU_WMASK_BYTES core = portBytes s F.ASU_WMASK_BYTES core := by
  refine ⟨?_, ?_, ?_, portBytes_congr fun i hi => ?_, portBytes_congr fun i hi => ?_⟩ <;>
    simp (disch := (simp only [fldKey, F.ASU_BANK_CFG_WIDTH, F.ASU_WPRIO_PRIO, F.ASU_WDATA_ADATA, F.ASU_KEY_BYTES, F.ASU_WMASK_BYTES,
      F.ASU_WENTRY_VALID, F.ASU_WENTRY_READ, F.ASU_WENTRY_BANK, F.ASU_WENTRY_INDEX, F.ASU_WSTATUS_DONE]; omega)) only
      [entryAsked, getF_setF_other]

include hbank

theorem exec_asuEntryWrite_of_place {valid : Nat} (hturn : StoreTurn s core (F.ASU_WENTRY_GO core).addr u) (hplace : index < bankEntries u bank)
    (hmove : ∀ m, u.asu.move = some m → m.bank ≠ bank) :
    exec (.asuEntryWrite core valid bank index) s = .next (touchBank (setF (putEnt
      (putUnits (entryAsked u core valid bank index) bank index (bankUnits u bank) (leNat (portBytes u F.ASU_KEY_BYTES core))
        (leNat (portBytes u F.ASU_WMASK_BYTES core)) (bankUnits u bank))
      ⟨bank, index, valid % 2 == 1, getF u (F.ASU_WPRIO_PRIO core), getF u (F.ASU_WDATA_ADATA core)⟩) (F.ASU_WSTATUS_DONE core) 1) bank) := by
  obtain ⟨hwidth, hprio, hdata, hkey, hmask⟩ := getF_entryAsked (index := index) u core valid hbank
  have hstill : (match (entryAsked u core valid bank index).asu.move with | some m => m.bank == bank | none => false) = false := by
    cases hm : (entryAsked u core valid bank index).asu.move with
    | none => rfl
    | some m => exact beq_eq_false_iff_ne.2 (hmove m hm)
  have hunits : bankUnits (entryAsked u core valid bank index) bank = bankUnits u bank := by rw [bankUnits, hwidth]; rfl
  have hentries : bankEntries (entryAsked u core valid bank index) bank = bankEntries u bank := by rw [bankEntries, hunits]; rfl
  show execAsuEntryWrite core valid bank index s = _
  simp only [execAsuEntryWrite, coreStore_run hturn, Nat.mod_eq_of_lt hbank, Nat.mod_eq_of_lt (index_lt_of_place hplace), entryAsked_eq,
    hentries, Nat.not_le.2 hplace, hunits, hkey, hmask, ge_iff_le, if_false, foldl_putUnit, getF_putUnits, hprio, hdata]
  exact if_neg (ne_true_of_eq_false hstill)

/-- The registers into which an entry is read: its words, then PRIO and ADATA, VALID and DONE. -/
def entryShown (s : State) (core n i : Nat) (bank : Nat) (e : AsuEnt) : State :=
  let words := (List.range (4 * n)).foldl (fun s w =>
    let u := asuUnit s bank (i * n + w / 4)
    setF (setF s (F.ASU_KEY_BYTES core w) (bits u.1 (32 * (w % 4)) 32)) (F.ASU_WMASK_BYTES core w) (bits u.2 (32 * (w % 4)) 32)) s
  setF (setF (setF (setF words (F.ASU_WPRIO_PRIO core) e.prio) (F.ASU_WDATA_ADATA core) e.adata) (F.ASU_WENTRY_VALID core) (b2n e.valid))
    (F.ASU_WSTATUS_DONE core) 1

omit hbank in
theorem entryShown_asu (s : State) (core n i bank : Nat) (e : AsuEnt) : (entryShown s core n i bank e).asu = s.asu :=
  List.foldlRecOn (motive := fun t : State => t.asu = s.asu) _ _ rfl fun _ ht _ _ => ht

omit hbank in
theorem getF_entryShown (s : State) (core n i bank : Nat) (e : AsuEnt) :
    getF (entryShown s core n i bank e) (F.ASU_WSTATUS_DONE core) = 1 ∧
    getF (entryShown s core n i bank e) (F.ASU_WENTRY_VALID core) = b2n e.valid ∧
    getF (entryShown s core n i bank e) (F.ASU_WPRIO_PRIO core) = e.prio % 2 ^ 16 ∧
    getF (entryShown s core n i bank e) (F.ASU_WDATA_ADATA core) = e.adata % 2 ^ 32 := by
  simp (disch := (simp only [fldKey, F.ASU_WSTATUS_DONE, F.ASU_WENTRY_VALID, F.ASU_WPRIO_PRIO, F.ASU_WDATA_ADATA]; omega)) only
    [entryShown, getF_setF_other, getF_setF_same]
  exact ⟨rfl, b2n_mod_two _, rfl, rfl⟩

theorem exec_asuEntryRead_of_place (hturn : StoreTurn s core (F.ASU_WENTRY_GO core).addr u) (hplace : index < bankEntries u bank)
    (hmove : u.asu.move = none) : ∃ v, v.asu = u.asu ∧
      exec (.asuEntryRead core bank index) s = .next (entryShown v core (bankUnits u bank) index bank (asuEnt u bank index)) := by
  have hprogress : moveProgress u = u := by simp only [moveProgress, hmove]
  obtain ⟨v, hv⟩ : ∃ v, setF (setF (setF u (F.ASU_WENTRY_READ core) 1) (F.ASU_WENTRY_BANK core) bank) (F.ASU_WENTRY_INDEX core) index = v :=
    ⟨_, rfl⟩
  have hasu : v.asu = u.asu := by rw [← hv]; rfl
  have hwidth : getF v (F.ASU_BANK_CFG_WIDTH bank) = getF u (F.ASU_BANK_CFG_WIDTH bank) := by
    rw [← hv]
    simp (disch := (simp only [fldKey, F.ASU_BANK_CFG_WIDTH, F.ASU_WENTRY_READ, F.ASU_WENTRY_BANK, F.ASU_WENTRY_INDEX]; omega)) only
      [getF_setF_other]
  have hunits : bankUnits v bank = bankUnits u bank := by rw [bankUnits, hwidth]; rfl
  have hentries : bankEntries v bank = bankEntries u bank := by rw [bankEntries, hunits]; rfl
  have hent : asuEnt v bank index = asuEnt u bank index := by rw [asuEnt, hasu]; rfl
  refine ⟨v, hasu, ?_⟩
  show execAsuEntryRead core bank index s = _
  simp only [execAsuEntryRead, coreStore_run hturn, hprogress, Nat.mod_eq_of_lt hbank, Nat.mod_eq_of_lt (index_lt_of_place hplace), hv, hentries,
    Nat.not_le.2 hplace, ge_iff_le, if_false, hunits, hent, entryShown]

end Entries

/-! ### Moves, WIDTH and searches from a queue (R456, R466, R467, R469) -/

theorem exec_asuMove_of_free {s u v : State} {core dir bank last first : Nat} (hturn : StoreTurn s core F.ASU_MOVE_CTRL_GO.addr u)
    (hmove : u.asu.move = none) (hbank : bank < 64) (hlast : last < 2048) (hblock : first ≤ last)
    (hdown : dir % 2 = 1 → 0 < first ∧ first ≤ bankEntries u bank) (hup : dir % 2 = 0 → last + 1 < bankEntries u bank)
    (hv : v = setF (setF (setF (setF u F.ASU_MOVE_CTRL_DIR dir) F.ASU_MOVE_CTRL_BANK bank) F.ASU_MOVE_CTRL_LAST last) F.ASU_MOVE_CTRL_FIRST first) :
    exec (.asuMove core dir bank last first) s =
      .next (touchBank (setF (setF { v with asu := { v.asu with move := some ⟨bank, first, last, dir % 2 == 1, 0⟩ } } F.ASU_MOVE_STATUS_BUSY 1)
        F.ASU_STATUS_IDLE 0) bank) := by
  have hwidth : getF v (F.ASU_BANK_CFG_WIDTH bank) = getF u (F.ASU_BANK_CFG_WIDTH bank) := by
    rw [hv]
    simp (disch := (simp only [fldKey, F.ASU_BANK_CFG_WIDTH, F.ASU_MOVE_CTRL_DIR, F.ASU_MOVE_CTRL_BANK, F.ASU_MOVE_CTRL_LAST,
      F.ASU_MOVE_CTRL_FIRST]; omega)) only [getF_setF_other]
  have hentries : bankEntries v bank = bankEntries u bank := by rw [bankEntries, bankUnits, hwidth]; rfl
  have hstill : v.asu.move = none := by rw [hv]; exact hmove
  have hallowed : ¬ (v.asu.move.isSome = true ∨ last < first ∨
      if (dir % 2 == 1) = true then first = 0 ∨ first > bankEntries v bank else last + 1 ≥ bankEntries v bank) := by
    rw [hstill, hentries]
    rcases Nat.mod_two_eq_zero_or_one dir with hdir | hdir
    · have := hup hdir; simp [hdir]; omega
    · have := hdown hdir; simp [hdir]; omega
  show execAsuMove core dir bank last first s = _
  simp only [execAsuMove, coreStore_run hturn, ← hv, Nat.mod_eq_of_lt hbank, Nat.mod_eq_of_lt hlast,
    Nat.mod_eq_of_lt (Nat.lt_of_le_of_lt hblock hlast), hallowed, if_false]

theorem exec_asuMoveEnd_of_moving {s v w : State} {m : AsuMove} (hlive : coreLive s = true) (hmove : s.asu.move = some m)
    (hv : v = moveCopy (moveCount m) s) (hw : w = putEnt v { asuEnt v m.bank (if m.down then m.last else m.first) with valid := false }) :
    exec .asuMoveEnd s = .next (touchBank (countF (setF (setF (setF { w with asu := { w.asu with move := none } } F.ASU_STATUS_IDLE
      (b2n (w.asu.ports.all fun q => q.running.isNone))) F.ASU_MOVE_STATUS_BUSY 0) F.ASU_MOVE_STATUS_DONE 1) F.ASU_CNT_MOVE_COUNT 1) m.bank) := by
  subst hw hv
  show execAsuMoveEnd s = _
  simp only [execAsuMoveEnd, whileCore_run hlive, hmove]

theorem exec_asuBankCfgWrite_of_good {s u v : State} {core bank value : Nat} (hturn : StoreTurn s core (F.ASU_BANK_CFG_ENABLE bank).addr u)
    (hreserved : bits value 2 29 = 0) (hwidth : value % 4 ≠ 3) (hmove : ∀ m, u.asu.move = some m → m.bank ≠ bank)
    (hv : v = setF (setF u (F.ASU_BANK_CFG_ENABLE bank) (value / 2 ^ 31)) (F.ASU_BANK_CFG_WIDTH bank) value) :
    exec (.asuBankCfgWrite core bank value) s = .next (if getF u (F.ASU_BANK_CFG_WIDTH bank) = value % 4 then v
      else touchBank { v with asu := { v.asu with ents := v.asu.ents.map fun e => if e.bank == bank then { e with valid := false } else e } } bank) := by
  have hstill : (match u.asu.move with | some m => m.bank == bank | none => false) = false := by
    cases hm : u.asu.move with
    | none => rfl
    | some m => exact beq_eq_false_iff_ne.2 (hmove m hm)
  show execAsuBankCfgWrite core bank value s = _
  simp only [execAsuBankCfgWrite, coreStore_run hturn, hreserved, hwidth, ← hv, ne_eq, not_true_eq_false, or_self, if_false]
  refine (if_neg (ne_true_of_eq_false hstill)).trans ?_
  by_cases hsame : getF u (F.ASU_BANK_CFG_WIDTH bank) = value % 4
  · simp only [hsame, bne_self_eq_false, Bool.false_eq_true, if_true, if_false]
  · simp only [hsame, bne_iff_ne.2 hsame, if_true, if_false]

theorem exec_asuSearch_of_open {s : State} {queue : Nat} {t : Taken} {p : State × AsuHit} (hlive : coreLive s = true)
    (hopen : openEntry s queue 0x50 = some t) (hreserved : allZero (slice t.bytes 17 47) = true) (henable : flag s F.ASU_CTRL_ENABLE = true)
    (hwidth : fld t.bytes 16 1 < 3) (hp : p = asuSearch s (leNat (slice t.bytes 64 64)) (fld t.bytes 8 8) (fld t.bytes 16 1)) :
    exec (.asuSearch queue) s = .next (entryEnd p.1 t
      (le 4 p.2.adata ++ le 2 p.2.prio ++ le 1 p.2.bank ++ le 1 (b2n p.2.hit + 2 * b2n p.2.multi) ++ le 2 p.2.index ++ zeros 2) false) := by
  subst hp
  show execAsuSearch queue s = _
  simp only [execAsuSearch, whileCore_run hlive, hopen, hreserved, henable, Nat.not_le.2 hwidth, ge_iff_le, Bool.not_true, Bool.false_eq_true, if_false]

end Sys2Proof.Machine

section Settled

open Sys2Proof Sys2Proof.Machine

/-- Settles O48: the best match leads every other, and a port shows what the search reports. -/
theorem paletteReportsBestMatch : Obligations.PaletteReportsBestMatch := by
  unfold Obligations.PaletteReportsBestMatch
  intro s key banks width core v h henable hv hh
  subst hv hh
  refine ⟨?none, ?some, ?port⟩
  case none =>
    intro hnone
    rw [asuSearch_of_no_match henable hnone]
    exact ⟨rfl, rfl, rfl, rfl, rfl, rfl⟩
  case some =>
    intro hsome
    obtain ⟨e, hbest⟩ := Option.ne_none_iff_exists'.1 (mt bestMatch_eq_none.1 hsome)
    obtain ⟨hmem, hleads⟩ := bestMatch_leads hbest
    rw [asuSearch_of_match henable hbest]
    exact ⟨rfl, rfl, e, hmem, rfl, rfl, rfl, rfl, hleads⟩
  case port =>
    intro hlive hrunning
    obtain ⟨hready, hhit, hmulti, hbank, hindex, hprio, hdata⟩ :=
      getF_portAnswered (asuSearch s key banks width).1 core (asuSearch s key banks width).2
    exact ⟨_, exec_asuSearchResult_of_running henable hlive hrunning, hready, hhit, hmulti, hbank, hindex, hprio, hdata, portOf_putPort _ _⟩

/-- Settles O49, command by command. -/
theorem paletteCommandsComplete : Obligations.PaletteCommandsComplete := by
  unfold Obligations.PaletteCommandsComplete
  intro s u core
  refine ⟨fun _ _ => exec_asuSearchGo_of_turn, ?next, ?write, ?read, fun _ _ _ _ _ => exec_asuMove_of_free,
    fun _ _ _ => exec_asuMoveEnd_of_moving, fun _ _ _ => exec_asuBankCfgWrite_of_good, fun _ _ _ => exec_asuSearch_of_open⟩
  case next =>
    intro hturn hready
    exact ⟨fun _ _ _ => exec_asuStepNext_of_latched hturn hready, exec_asuStepNext_of_end hturn hready⟩
  case write =>
    intro valid bank index hturn hbank hplace hmove
    refine ⟨_, exec_asuEntryWrite_of_place hbank hturn hplace hmove, ?_, ?_, ?_, ?_, ?_⟩
    · rw [getF_touchBank_done, getF_setF_same]; rfl
    · rw [asuEnt, touchBank_asu]; exact asuEnt_putEnt_same _ _
    · intro j hj
      rw [asuUnit, touchBank_asu]
      exact asuUnit_putUnits _ _ _ _ _ _ hj
    · intro b i hother
      rw [asuEnt, touchBank_asu]
      refine (asuEnt_putEnt_other _ hother).trans ?_
      rw [asuEnt, putUnits_frame]; rfl
    · rw [touchBank_mem, setF_mem]
      show (putUnits _ _ _ _ _ _ _).mem = _
      rw [putUnits_frame]; rfl
  case read =>
    intro bank index hturn hbank hplace hmove
    obtain ⟨v, hasu, hexec⟩ := exec_asuEntryRead_of_place hbank hturn hplace hmove
    obtain ⟨hdone, hvalid, hprio, hdata⟩ := getF_entryShown v core (bankUnits u bank) index bank (asuEnt u bank index)
    exact ⟨_, hexec, (entryShown_asu ..).trans hasu, hdone, hvalid, hprio, hdata⟩

end Settled
end

section
/-! PROOFS. What the family "cipher and digest" states: GCM, XTS, key operations and digests, and the ends of their entries. -/

namespace Sys2Proof.Machine

/-- What GCM encrypted it decrypts (R476, R491): the tag is the one of the ciphertext, and counter mode undoes itself. -/
theorem gcmDec_gcmEnc (key iv aad p : Bytes) : gcmDec key iv aad (gcmEnc key iv aad p).1 (gcmEnc key iv aad p).2 = some p := by
  simp only [gcmDec, gcmEnc, if_true, gcmCrypt_self]

/-! ### GCM and XTS (R491) -/

section CipEntries

variable {s : State} {queue : Nat} {t : Taken} (hlive : coreLive s = true) (henable : flag s F.CIP_CTRL_ENABLE = true)

include hlive henable

section Gcm

variable {e : GcmEntry} {k aad p : Bytes} {v w r : State} (he : e = gcmEntry t.bytes) (hreserved : fld t.bytes 28 4 = 0) (hkey : gcmKey s e = (0, k))
  (haad : cipRead s queue e.aad e.aadLen = (v, some aad))

include he hreserved hkey haad

theorem exec_cipGcmEnc_of_open (hopen : openEntry s queue 0x20 = some t) (hapart : gcmOverlap e (e.dst + e.len) = false)
    (hsrc : cipRead v queue e.src e.len = (w, some p))
    (hdst : cipWrite (countF w F.CIP_CNT_GCM_BYTES_COUNT (e.len + e.aadLen)) queue e.dst ((gcmEnc k e.iv aad p).1 ++ (gcmEnc k e.iv aad p).2) =
      (r, true)) : exec (.cipGcmEnc queue) s = cipDone r t 0 [] := by
  show execCipGcmEnc queue s = _
  simp only [execCipGcmEnc, whileCore_run hlive, cipEntry, henable, hopen, ← he, hreserved, hkey, hapart, haad, hsrc, hdst, ne_eq, not_true_eq_false,
    Bool.false_eq_true, if_true, if_false]

theorem exec_cipGcmDec_of_open (hopen : openEntry s queue 0x21 = some t) (hapart : gcmOverlap e (e.src + e.len) = false)
    (hsrc : cipRead v queue e.src (e.len + 16) = (w, some p))
    (hdst : cipWrite (countF w F.CIP_CNT_GCM_BYTES_COUNT (e.len + e.aadLen)) queue e.dst
      ((gcmDec k e.iv aad (p.take e.len) (p.drop e.len)).getD (zeros e.len)) = (r, true)) :
    exec (.cipGcmDec queue) s = cipDone r t (if (gcmDec k e.iv aad (p.take e.len) (p.drop e.len)).isSome then 0 else 1) [] := by
  show execCipGcmDec queue s = _
  simp only [execCipGcmDec, whileCore_run hlive, cipEntry, henable, hopen, ← he, hreserved, hkey, hapart, haad, hsrc, hdst, ne_eq, not_true_eq_false,
    Bool.false_eq_true, if_true, if_false]

end Gcm

omit hlive henable in
/-- Whole units of a good entry run with the media key, either way. -/
theorem cipXts_of_good {x : KeySlot} {unit : Nat} {v w : State} {p : Bytes} {enc : Bool} (hres11 : fld t.bytes 11 1 = 0)
    (hres48 : fld t.bytes 48 8 = 0) (hslot : slotOf s (fld t.bytes 8 2) = some x) (hmedia : fld t.bytes 8 2 = 1) (hkind : x.kind = 2)
    (hcode : fld t.bytes 10 1 ≤ 1) (hunit : unit = (if fld t.bytes 10 1 = 0 then 4096 else 16384)) (hsome : fld t.bytes 12 4 ≠ 0)
    (hwhole : fld t.bytes 12 4 % unit = 0) (htop : fld t.bytes 12 4 ≤ 262144)
    (hapart : fld t.bytes 32 8 = fld t.bytes 40 8 ∨ overlaps (fld t.bytes 32 8) (fld t.bytes 12 4) (fld t.bytes 40 8) (fld t.bytes 12 4) = false)
    (hread : cipRead s queue (fld t.bytes 32 8) (fld t.bytes 12 4) = (v, some p))
    (hwrite : cipWrite (countF v F.CIP_CNT_XTS_BYTES_COUNT (fld t.bytes 12 4)) queue (fld t.bytes 40 8)
      (xtsRun enc x.key unit (fld t.bytes 12 4 / unit) (fld t.bytes 16 16) p) = (w, true)) : cipXts enc t queue s = cipDone w t 0 [] := by
  have hlength : ¬ (fld t.bytes 12 4 = 0 ∨ fld t.bytes 12 4 % unit ≠ 0 ∨ fld t.bytes 12 4 > 262144) := by omega
  have hclear : ¬ (fld t.bytes 32 8 ≠ fld t.bytes 40 8 ∧
      overlaps (fld t.bytes 32 8) (fld t.bytes 12 4) (fld t.bytes 40 8) (fld t.bytes 12 4) = true) := by
    rcases hapart with h | h
    · exact fun hn => hn.1 h
    · exact fun hn => ne_true_of_eq_false h hn.2
  rw [hmedia] at hslot
  simp only [cipXts, hres11, hres48, hmedia, hslot, hkind, Nat.not_lt.2 hcode, ← hunit, hlength, hclear, hread, hwrite, ne_eq, not_true_eq_false,
    or_self, gt_iff_lt, if_false]

theorem exec_cipXtsEnc_of_open (hopen : openEntry s queue 0x22 = some t) : exec (.cipXtsEnc queue) s = cipXts true t queue s := by
  show execCipXtsEnc queue s = _
  simp only [execCipXtsEnc, whileCore_run hlive, cipEntry, henable, hopen, if_true]

theorem exec_cipXtsDec_of_open (hopen : openEntry s queue 0x23 = some t) : exec (.cipXtsDec queue) s = cipXts false t queue s := by
  show execCipXtsDec queue s = _
  simp only [execCipXtsDec, whileCore_run hlive, cipEntry, henable, hopen, if_true]

/-! ### Key operations (R479, R491, Tables 15-3 and 15-8) -/

section KeyOperations

variable (hreserved : keyopReserved t.bytes = false)

include hreserved

theorem exec_cipUnwrap_of_open {kek blob r : Bytes} {v : State} (hopen : openEntry s queue 0x24 = some t) (hslot : slotOpen (fld t.bytes 8 2) = true)
    (hwrapper : fld t.bytes 10 1 = 1 ∨ fld t.bytes 10 1 = 3) (hwslot : wslotOk s (fld t.bytes 10 1) (fld t.bytes 12 2) = true)
    (haligned : fld t.bytes 32 8 % 64 = 0) (hkek : wrapperKey s (fld t.bytes 10 1) (fld t.bytes 12 2) = some kek)
    (hread : cipRead s queue (fld t.bytes 32 8) 64 = (v, some blob)) (hblob : blobRecord kek blob = some r) (hrecord : recordOk r = true) :
    exec (.cipUnwrap queue) s = cipDone (setSlot v (recordSlot (fld t.bytes 8 2) r)) t 0 (slice r 4 1 ++ slice r 6 2) := by
  have hnamed : (fld t.bytes 10 1 == 1 || fld t.bytes 10 1 == 3) = true := by simpa only [Bool.or_eq_true, beq_iff_eq] using hwrapper
  show execCipUnwrap queue s = _
  simp only [execCipUnwrap, whileCore_run hlive, cipEntry, henable, hopen, hreserved, hslot, hnamed, hwslot, haligned, hkek, hread, hblob, hrecord,
    bne_self_eq_false, Bool.not_true, Bool.or_self, Bool.false_eq_true, if_true, if_false]

theorem exec_cipGenkey_of_open (hopen : openEntry s queue 0x25 = some t) (hslot : slotOpen (fld t.bytes 8 2) = true) (hwrapper : fld t.bytes 10 1 = 0)
    (hwslot : fld t.bytes 12 2 = 0) (hkind : fld t.bytes 16 4 = 1) (haligned : fld t.bytes 32 8 % 64 = 0)
    (hrng : flag s F.CIP_STATUS_RNG_FAIL = false) : exec (.cipGenkey queue) s =
      cipDone (setSlot (freshBytes s 32).2 ⟨fld t.bytes 8 2, 1, true, fld t.bytes 14 2, 1, (freshBytes s 32).1⟩) t 0 [] := by
  show execCipGenkey queue s = _
  simp only [execCipGenkey, whileCore_run hlive, cipEntry, henable, hopen, hreserved, hslot, hwrapper, hwslot, hkind, haligned, hrng,
    bne_self_eq_false, Bool.not_true, Bool.or_self, Bool.false_eq_true, if_true, if_false]

theorem exec_cipExport_of_open {x : KeySlot} {kek : Bytes} {v : State} (hopen : openEntry s queue 0x26 = some t)
    (hslot : slotOf s (fld t.bytes 8 2) = some x) (hrange : slotOpen x.slot = true) (hkind : x.kind = 1) (hexportable : x.exportable = true)
    (hlow : 1 ≤ fld t.bytes 10 1) (hhigh : fld t.bytes 10 1 ≤ 3) (hwslot : wslotOk s (fld t.bytes 10 1) (fld t.bytes 12 2) = true)
    (haligned : fld t.bytes 32 8 % 64 = 0) (hkek : wrapperKey s (fld t.bytes 10 1) (fld t.bytes 12 2) = some kek)
    (hwrite : cipWrite s queue (fld t.bytes 32 8) (keyBlob kek (fld t.bytes 10 1) (keyRecord x)) = (v, true)) :
    exec (.cipExport queue) s = cipDone v t 0 [] := by
  have hnamed : (fld t.bytes 10 1 == 0) = false := beq_eq_false_iff_ne.2 (by omega)
  show execCipExport queue s = _
  simp only [execCipExport, whileCore_run hlive, cipEntry, henable, hopen, hreserved, hslot, hrange, hkind, hexportable, hnamed,
    Nat.not_lt.2 hhigh, hwslot, haligned, hkek, hwrite, bne_self_eq_false, Bool.not_true, Bool.or_self, gt_iff_lt, decide_false, Bool.false_eq_true,
    if_true, if_false]

theorem exec_cipClear_of_open (hopen : openEntry s queue 0x27 = some t) (hslot : fld t.bytes 8 2 < 4096) (hwrapper : fld t.bytes 10 1 = 0)
    (hwslot : fld t.bytes 12 2 = 0) (haligned : fld t.bytes 32 8 % 64 = 0) :
    exec (.cipClear queue) s = cipDone (clearSlot s (fld t.bytes 8 2)) t 0 [] := by
  show execCipClear queue s = _
  simp only [execCipClear, whileCore_run hlive, cipEntry, henable, hopen, hreserved, Nat.not_le.2 hslot, hwrapper, hwslot, haligned, ge_iff_le, ne_eq,
    not_true_eq_false, or_self, Bool.false_eq_true, if_true, if_false]

end KeyOperations

end CipEntries

/-! ### Ends of entries (R492) -/

theorem countF_wq (s : State) (f : Fld) (n : Nat) : (countF s f n).wq = s.wq := by
  simp only [countF]; split <;> rfl

theorem endDone_mem (s : State) (t : Taken) : (endDone s t).mem = s.mem := by
  rw [endDone]
  unfold entryEnd
  dsimp only
  split <;> rfl

/-- The counters of Table 15-10 that a CSTATUS and an opcode raise. -/
def cipCounted (s : State) (cstatus op : Nat) : State :=
  let s := if cstatus = 1 then countF s F.CIP_CNT_AUTH_FAIL_COUNT 1 else if cstatus = 2 then countF s F.CIP_CNT_LENGTH_COUNT 1 else s
  if op ≥ 0x24 then countF s F.CIP_CNT_KEYOPS_COUNT 1 else s

theorem cipCounted_frame (s : State) (cstatus op : Nat) : (cipCounted s cstatus op).wq = s.wq ∧ (cipCounted s cstatus op).mem = s.mem := by
  simp only [cipCounted]
  split <;> split <;> (try split) <;> simp only [countF_wq, countF_mem, and_self]

theorem exec_cipEntryEnd_of_done {s : State} {queue : Nat} {t : Taken} (hlive : coreLive s = true) (hdone : doneEntry s queue 0x20 0x27 = some t) :
    exec (.cipEntryEnd queue) s = .next
      (let u := cipCounted (endDone s t) (fld (t.result.getD (zeros 12, false)).1 8 1) (fld t.bytes 0 1)
       setF u F.CIP_STATUS_IDLE (b2n (!(blockBusy u 2)))) := by
  show execCipEntryEnd queue s = _
  simp only [execCipEntryEnd, whileCore_run hlive, hdone, cipCounted]

theorem exec_digEntryEnd_of_done {s : State} {queue : Nat} {t : Taken} (hlive : coreLive s = true) (hdone : doneEntry s queue 0x30 0x30 = some t) :
    exec (.digEntryEnd queue) s = .next (setF (endDone s t) F.DIG_STATUS_IDLE (b2n (!(blockBusy (endDone s t) 3)))) := by
  show execDigEntryEnd queue s = _
  simp only [execDigEntryEnd, whileCore_run hlive, hdone]

/-! ### Digests (R490) -/

section Digest

variable {s v w : State} {queue c : Nat} {t : Taken} {sha : Bool} {x : DigCtx} {m : Bytes} (hlive : coreLive s = true)
  (henable : flag s F.DIG_CTRL_ENABLE = true) (hopen : openEntry s queue 0x30 = some t) (hc : c = fld t.bytes 8 1) (hrange : c < 64)
  (hflags : fld t.bytes 9 1 < 8) (hres10 : fld t.bytes 10 2 = 0) (hres40 : allZero (slice t.bytes 40 24) = true)
  (hshared : digShared s queue c = false) (hsha : sha = bitAt (fld t.bytes 9 1) 2)
  (hctx : (if bitAt (fld t.bytes 9 1) 0 then some ⟨c, sha, []⟩ else ctxOf s c) = some x) (hsame : x.sha384 = sha)
  (hread : fabRead s 9 (fld t.bytes 16 8) (fld t.bytes 12 4) = (v, some m)) (hw : w = countF v F.DIG_CNT_BYTES_COUNT (fld t.bytes 12 4))

include hlive henable hopen hc hrange hflags hres10 hres40 hshared hsha hctx hsame hread hw

theorem exec_digUpdate_of_more (hmore : bitAt (fld t.bytes 9 1) 1 = false) :
    exec (.digUpdate queue) s = digDone (putCtx w c (some { x with msg := x.msg ++ m })) t 0 := by
  show execDigUpdate queue s = _
  simp only [execDigUpdate, whileCore_run hlive, henable, hopen, ← hc, ← hsha, hctx, Nat.not_le.2 hflags, hres10, hres40, hshared, hmore,
    Nat.not_le.2 hrange, hsame, hread, ← hw, ge_iff_le, ne_eq, not_true_eq_false, Bool.not_true, Bool.false_and, Bool.false_eq_true, or_self,
    if_true, if_false]

theorem exec_digUpdate_of_last {y : State} (hlast : bitAt (fld t.bytes 9 1) 1 = true)
    (hapart : overlaps (fld t.bytes 16 8) (fld t.bytes 12 4) (fld t.bytes 24 8) (if sha then 48 else 32) = false)
    (hwrite : fabWrite w 9 (fld t.bytes 24 8) (if sha then sha384 (x.msg ++ m) else sha256 (x.msg ++ m)) = (y, true)) :
    exec (.digUpdate queue) s = digDone (putCtx (countF y F.DIG_CNT_DIGESTS_COUNT 1) c none) t 0 := by
  show execDigUpdate queue s = _
  simp only [execDigUpdate, whileCore_run hlive, henable, hopen, ← hc, ← hsha, hctx, Nat.not_le.2 hflags, hres10, hres40, hshared, hlast,
    Nat.not_le.2 hrange, hsame, hread, ← hw, hapart, hwrite, ge_iff_le, ne_eq, not_true_eq_false, Bool.not_true, Bool.and_false, Bool.false_eq_true,
    or_self, if_true, if_false]

end Digest

end Sys2Proof.Machine

section Settled

open Sys2Proof Sys2Proof.Machine

/-- Settles O50, entry by entry; counter mode undoes itself, so GCM gives the plaintext back. -/
theorem cipherEntriesComplete : Obligations.CipherEntriesComplete := by
  unfold Obligations.CipherEntriesComplete
  intro s queue t cipEnds digEnds hlive hcip hdig
  have hcipDone : ∀ v c tail, cipDone v t c tail = .next (cipEnds v c tail) := fun v c tail => by rw [hcip]; rfl
  have hdigDone : ∀ v c, digDone v t c = .next (digEnds v c) := fun v c => by rw [hdig]; rfl
  refine ⟨?gcm, gcmDec_gcmEnc, ?xts, ?keys, ?cipEnd, ?digest, exec_digEntryEnd_of_done hlive⟩
  case gcm =>
    intro e k v w r aad p henable he hreserved hkey haad
    refine ⟨fun hopen hapart hsrc hdst => ?_, fun hopen hapart hsrc hdst => ?_⟩
    · rw [exec_cipGcmEnc_of_open hlive henable he hreserved hkey haad hopen hapart hsrc hdst, hcipDone]
    · rw [exec_cipGcmDec_of_open hlive henable he hreserved hkey haad hopen hapart hsrc hdst, hcipDone]
  case xts =>
    intro x unit v w p henable hres11 hres48 hslot hmedia hkind hcode hunit hsome hwhole htop hapart hread enc hwrite
    have hrun := cipXts_of_good hres11 hres48 hslot hmedia hkind hcode hunit hsome hwhole htop hapart hread hwrite
    refine ⟨fun henc hopen => ?_, fun hdec hopen => ?_⟩
    · rw [exec_cipXtsEnc_of_open hlive henable hopen, ← hcipDone, ← hrun, henc]
    · rw [exec_cipXtsDec_of_open hlive henable hopen, ← hcipDone, ← hrun, hdec]
  case keys =>
    intro henable hreserved
    refine ⟨?unwrap, ?genkey, ?blob, ?clear⟩
    case unwrap =>
      intro kek v blob r hopen hslot hwrapper hwslot haligned hkek hread hblob hrecord
      rw [exec_cipUnwrap_of_open hlive henable hreserved hopen hslot hwrapper hwslot haligned hkek hread hblob hrecord, hcipDone]
    case genkey =>
      intro hopen hslot hwrapper hwslot hkind haligned hrng
      rw [exec_cipGenkey_of_open hlive henable hreserved hopen hslot hwrapper hwslot hkind haligned hrng, hcipDone]
    case blob =>
      intro x kek v hopen hslot hrange hkind hexportable hlow hhigh hwslot haligned hkek hwrite
      rw [exec_cipExport_of_open hlive henable hreserved hopen hslot hrange hkind hexportable hlow hhigh hwslot haligned hkek hwrite, hcipDone]
    case clear =>
      intro hopen hslot hwrapper hwslot haligned
      rw [exec_cipClear_of_open hlive henable hreserved hopen hslot hwrapper hwslot haligned, hcipDone]
  case cipEnd =>
    intro hdone
    obtain ⟨hwq, hmem⟩ := cipCounted_frame (endDone s t) (fld (t.result.getD (zeros 12, false)).1 8 1) (fld t.bytes 0 1)
    refine ⟨_, exec_cipEntryEnd_of_done hlive hdone, hwq, hmem.trans (endDone_mem s t), ?_⟩
    rw [getF_setF_same, blockBusy, hwq]
    exact b2n_mod_two _
  case digest =>
    intro c sha x v w m henable hopen hc hrange hflags hres10 hres40 hshared hsha hctx hsame hread hw
    refine ⟨fun hmore => ?_, fun y hlast hapart hwrite => ?_⟩
    · rw [exec_digUpdate_of_more hlive henable hopen hc hrange hflags hres10 hres40 hshared hsha hctx hsame hread hw hmore, hdigDone]
    · rw [exec_digUpdate_of_last hlive henable hopen hc hrange hflags hres10 hres40 hshared hsha hctx hsame hread hw hlast hapart hwrite, hdigDone]

end Settled
end

section
/-! PROOFS. What the families "network ports" and "service port" state: the network clock, links and verification, flow control, rings, frames
received, sent, cut and ended, and the frames of the service port. -/

namespace Sys2Proof.Machine

/-! ### The network clock (R509) -/

section Clock

variable {s u : State} {core : Nat}

theorem exec_ptpLoad_of_turn {run : Nat} (hturn : StoreTurn s core F.MACA_PTP_CTRL_LOAD.addr u) : exec (.ptpLoad core run) s =
    .next (setF (ptpSet u (getF u F.MACA_PTP_SET_SEC_SECONDS * sec + getF u F.MACA_PTP_SET_NS_NS)) F.MACA_PTP_CTRL_RUN run) := by
  show execPtpLoad core run s = _
  rw [execPtpLoad, coreStore_run hturn]

theorem exec_ptpStep_of_turn {run : Nat} (hturn : StoreTurn s core F.MACA_PTP_CTRL_STEP.addr u) : exec (.ptpStep core run) s =
    .next (setF (ptpSet u (ofSigned ((ptpNow u : Int) + toSigned (getF u F.MACA_PTP_STEP_NS) 32) 80)) F.MACA_PTP_CTRL_RUN run) := by
  show execPtpStep core run s = _
  rw [execPtpStep, coreStore_run hturn]

theorem exec_ptpSecRead_of_coreOn {width : Nat} (hon : coreOn s core = true) (hu : u = coreActs s core) (hlane : domainOn u .lane0 = true) :
    exec (.ptpSecRead core width) s = .next (emit (setF u F.MACA_PTP_NS_NS (ptpNow u % sec)) (.readValue F.MACA_PTP_SEC_SECONDS.addr
      (if width = 8 then ptpNow u / sec % 2 ^ 48 else ptpNow u / sec % 2 ^ 48 % 2 ^ 32))) := by
  subst hu
  show execPtpSecRead core width s = _
  simp only [execPtpSecRead, coreRuns_on hon, hlane, ptpSecRead, Bool.not_true, Bool.false_eq_true, if_false]

end Clock

/-! ### Ports (R498, R502) -/

/-- A field's key in port `p`: the ports' registers lie 1 MB apart. -/
theorem fldKey_mp (p : Nat) (f : Fld) : fldKey (mp p f) = fldKey f + p * 0x100000 * 64 := by
  obtain ⟨a, lo, width, reset⟩ := f
  have hplace : mp p ⟨a, lo, width, reset⟩ = ⟨a + p * 0x100000, lo, width, reset⟩ := rfl
  rw [hplace, fldKey, fldKey]
  dsimp only
  omega

theorem fldKey_mp_ne {f g : Fld} (h : fldKey f ≠ fldKey g) (p : Nat) : fldKey (mp p f) ≠ fldKey (mp p g) := by
  rw [fldKey_mp, fldKey_mp]; omega

theorem macOf_num (s : State) (p : Nat) : (macOf s p).num = p := by
  simp only [macOf]
  cases hfind : s.net.ports.find? (fun x => x.num == p) with
  | none => rfl
  | some x => exact eq_of_beq (List.find?_some (p := fun x : MacPort => x.num == p) hfind)

theorem macOf_putMac {s : State} {x : MacPort} {p : Nat} (h : x.num = p) : macOf (putMac s x) p = x := by
  simp only [macOf, putMac, List.find?_cons, h, beq_self_eq_true, Option.getD_some]

theorem getF_putMac (s : State) (x : MacPort) (f : Fld) : getF (putMac s x) f = getF s f := rfl

theorem macOf_congr {s t : State} (h : t.net = s.net) (p : Nat) : macOf t p = macOf s p := by rw [macOf, h]; rfl

theorem countF_net (s : State) (f : Fld) (n : Nat) : (countF s f n).net = s.net := by
  simp only [countF]; split <;> rfl

theorem logEv_net (s : State) (c a b d : Nat) : (logEv s c a b d).net = s.net := by
  simp only [logEv, logSubmit, logSuppress, logAccept]
  split
  · rfl
  · split
    · exact countF_net _ _ _
    · split
      · exact countF_net _ _ _
      · split <;> exact countF_net _ _ _

theorem linkChange_net (s : State) (p up : Nat) : (linkChange s p up).net = s.net := by
  simp only [linkChange, logEv_net]
  split <;> rfl

theorem setVerify_net (s : State) (p v : Nat) : (setVerify s p v).net = s.net := by
  simp only [setVerify]
  split <;> rfl

/-- VERIFY shows what it is set to. -/
theorem getF_setVerify_same (s : State) {p v : Nat} (hv : v < 4) : getF (setVerify s p v) (mp p F.MACA_STATUS_VERIFY) = v := by
  simp only [setVerify]
  split
  · assumption
  · rw [getF_setF_other _ _ (fldKey_mp_ne (by decide) p), getF_setF_same]; exact Nat.mod_eq_of_lt hv

theorem getF_setVerify_other (s : State) {p v : Nat} {g : Fld} (hverify : fldKey (mp p F.MACA_STATUS_VERIFY) ≠ fldKey g)
    (hchg : fldKey (mp p F.MACA_STATUS_VERIFY_CHG) ≠ fldKey g) : getF (setVerify s p v) g = getF s g := by
  simp only [setVerify]
  split
  · rfl
  · rw [getF_setF_other _ _ hchg, getF_setF_other _ _ hverify]

/-- A data port's registers lie below the logbook's. -/
theorem mp_below_log {p : Nat} (hp : p < 2) {f : Fld} (hf : fldKey f < 0x10C001000 * 64) : fldKey (mp p f) < fldKey F.LOG_STATUS_NEW := by
  have hlog : 0x10C001000 * 64 + 0x100000 * 64 ≤ fldKey F.LOG_STATUS_NEW := by decide
  rw [fldKey_mp]; omega

section Links

variable {s u : State} {port : Nat}

theorem getF_linkChange_link (hport : port < 2) (up : Nat) : getF (linkChange s port up) (mp port F.MACA_STATUS_LINK) = up % 2 ∧
    getF (linkChange s port up) (mp port F.MACA_STATUS_LINK_CHG) = 1 := by
  simp only [linkChange, hport, if_true]
  rw [getF_logEv_of_below (mp_below_log hport (by decide)), getF_logEv_of_below (mp_below_log hport (by decide)),
    getF_setF_other _ _ (fldKey_mp_ne (by decide) port), getF_setF_same, getF_setF_same]
  exact ⟨rfl, rfl⟩

theorem getF_linkChange_other (hport : port < 2) (up : Nat) {f : Fld} (hf : fldKey f < 0x10C001000 * 64)
    (hlink : fldKey F.MACA_STATUS_LINK ≠ fldKey f) (hchg : fldKey F.MACA_STATUS_LINK_CHG ≠ fldKey f) :
    getF (linkChange s port up) (mp port f) = getF s (mp port f) := by
  simp only [linkChange, hport, if_true]
  rw [getF_logEv_of_below (mp_below_log hport hf), getF_setF_other _ _ (fldKey_mp_ne hchg port), getF_setF_other _ _ (fldKey_mp_ne hlink port)]

/-- A data port whose link comes up shows its mode, and verifies where preemption is enabled. -/
theorem exec_portLinkUp_of_data (hport : port < 2) (hon : macOn s port = true) (hdown : macLink s port = false)
    (hu : u = showRate (linkChange s port 1) port) :
    exec (.portLinkUp port) s = .next (if flag s (mp port F.MACA_PREEMPT_ENABLE) then sendVerify (setVerify u port 1) port 1 else u) := by
  have hpreempt : flag u (mp port F.MACA_PREEMPT_ENABLE) = flag s (mp port F.MACA_PREEMPT_ENABLE) := by
    rw [hu, flag, flag, showRate, getF_setF_other _ _ (fldKey_mp_ne (by decide) port), getF_linkChange_other hport 1 (by decide) (by decide) (by decide)]
  show execPortLinkUp port s = _
  simp only [execPortLinkUp, hport, hon, hdown, ← hu, hpreempt, Bool.not_true, Bool.or_self, Bool.false_eq_true, if_true, if_false]
  split <;> rfl

theorem exec_portLinkUp_of_pair (hlanes : domainOn s .lanes = true) (henable : flag s F.PLK_CTRL_ENABLE = true)
    (hdown : flag s F.PLK_STATUS_LINK = false) : exec (.portLinkUp 2) s = .next (linkChange s 2 1) := by
  show execPortLinkUp 2 s = _
  simp only [execPortLinkUp, hlanes, henable, hdown, Nat.lt_irrefl, Bool.not_true, Bool.or_self, Bool.false_eq_true, if_false]

/-- A data port after its link fell, counted, with preemption at an end; what it was sending is not yet marked. -/
def linkFallen (s : State) (p : Nat) : State :=
  setF (setVerify (countF (linkChange s p 0) (mp p F.MACA_CNT_LINK_DOWN_COUNT) 1) p 0) (mp p F.MACA_STATUS_PREEMPT) 0

theorem exec_portLinkDown_of_data (hport : port < 2) (hup : macLink s port = true) : exec (.portLinkDown port) s =
    .next (putMac (linkFallen s port) { macOf (linkFallen s port) port with
      sending := (macOf (linkFallen s port) port).sending.map fun t => { t with drop := true }
      cutFrame := (macOf (linkFallen s port) port).cutFrame.map fun t => { t with drop := true } }) := by
  show execPortLinkDown port s = _
  simp only [execPortLinkDown, portDown, hport, hup, Bool.not_true, Bool.false_eq_true, if_true, if_false, linkFallen]

theorem getF_linkFallen (hport : port < 2) : getF (linkFallen s port) (mp port F.MACA_STATUS_LINK) = 0 ∧
    getF (linkFallen s port) (mp port F.MACA_STATUS_LINK_CHG) = 1 ∧ getF (linkFallen s port) (mp port F.MACA_STATUS_VERIFY) = 0 ∧
    getF (linkFallen s port) (mp port F.MACA_STATUS_PREEMPT) = 0 := by
  obtain ⟨hlink, hchg⟩ := getF_linkChange_link (s := s) hport 0
  simp (disch := (apply fldKey_mp_ne; decide)) only
    [linkFallen, getF_setF_other, getF_setF_same, getF_setVerify_other, getF_countF, hlink, hchg, Nat.zero_mod, true_and, and_true]
  exact getF_setVerify_same _ (by decide)

theorem macOf_linkFallen (s : State) (p q : Nat) : macOf (linkFallen s p) q = macOf s q :=
  macOf_congr (by rw [linkFallen, setF_net, setVerify_net, countF_net, linkChange_net]) q

theorem exec_portLinkDown_of_pair (hup : flag s F.PLK_STATUS_LINK = true) :
    exec (.portLinkDown 2) s = .next (countF (linkChange s 2 0) F.PLK_CNT_LINK_DOWN_COUNT 1) := by
  show execPortLinkDown 2 s = _
  simp only [execPortLinkDown, portDown, hup, Nat.lt_irrefl, if_true, if_false]

/-! ### Verification (R502) -/

theorem exec_verifyTimer_of_verifying (hport : port < 2) (hverify : getF s (mp port F.MACA_STATUS_VERIFY) = 1)
    (hu : u = reach s (macOf s port).verifyAt) : exec (.verifyTimer port) s =
      .next (if (macOf s port).verifySent < 3 then sendVerify u port ((macOf s port).verifySent + 1) else setVerify u port 3) := by
  show execVerifyTimer port s = _
  simp only [execVerifyTimer, hverify, Nat.not_le.2 hport, ← hu, ne_eq, not_true_eq_false, or_self, if_false]
  split <;> rfl

theorem exec_respondFrame_of_verifying (hport : port < 2) (hverify : getF s (mp port F.MACA_STATUS_VERIFY) = 1) (hon : macOn s port = true) :
    exec (.respondFrame port) s = .next (setF (setVerify s port 2) (mp port F.MACA_STATUS_PREEMPT) 1) := by
  show execRespondFrame port s = _
  simp only [execRespondFrame, hport, hverify, hon, and_self, if_true]

theorem exec_verifyFrame_of_up (hport : port < 2) (hon : macOn s port = true) (hup : macLink s port = true)
    (henable : flag s (mp port F.MACA_PREEMPT_ENABLE) = true) : exec (.verifyFrame port) s = .next (emit s (.merge port 1)) := by
  show execVerifyFrame port s = _
  simp only [execVerifyFrame, hport, hon, hup, henable, decide_true, Bool.and_self, if_true]

end Links

/-! ### Flow control (R501) -/

section FlowControl

/-- The end of a queue's pause, where it is paused. -/
def pauseOf (s : State) (p q : Nat) : Option (Nat × Nat) := (macOf s p).paused.find? fun e => e.1 == q

theorem macOf_pauseQueue (s : State) (p q quanta : Nat) : macOf (pauseQueue s p q quanta) p = { macOf s p with
    paused := if quanta = 0 then (macOf s p).paused.filter fun e => e.1 != q
      else ((macOf s p).paused.filter fun e => e.1 != q) ++ [(q, s.now + ceilDiv (quanta * 512) (macRate s p))] } := by
  rw [pauseQueue, macOf_putMac]
  exact macOf_num s p

theorem find?_filter_ne (l : List (Nat × Nat)) (q : Nat) : (l.filter fun e => e.1 != q).find? (fun e => e.1 == q) = none := by
  rw [List.find?_eq_none]
  intro e he
  have := (List.mem_filter.1 he).2
  simpa using this

theorem pauseOf_pauseQueue_same {s : State} {p q quanta : Nat} (hquanta : quanta ≠ 0) :
    pauseOf (pauseQueue s p q quanta) p q = some (q, s.now + ceilDiv (quanta * 512) (macRate s p)) := by
  simp only [pauseOf, macOf_pauseQueue, hquanta, if_false, List.find?_append, find?_filter_ne, Option.none_or, List.find?_cons, beq_self_eq_true]

theorem pauseOf_pauseQueue_other {s : State} {p q r quanta : Nat} (h : r ≠ q) : pauseOf (pauseQueue s p q quanta) p r = pauseOf s p r := by
  have hkept : ((macOf s p).paused.filter fun e => e.1 != q).find? (fun e => e.1 == r) = (macOf s p).paused.find? fun e => e.1 == r :=
    find?_filter_of_imp _ fun e he => by rw [eq_of_beq he]; exact bne_iff_ne.2 h
  have hnew : (q == r) = false := beq_eq_false_iff_ne.2 h.symm
  simp only [pauseOf, macOf_pauseQueue]
  split
  · exact hkept
  · simp only [List.find?_append, hkept, List.find?_cons, hnew, List.find?_nil, Option.or_none]

theorem pauseQueue_now (s : State) (p q quanta : Nat) : (pauseQueue s p q quanta).now = s.now := rfl
theorem macRate_pauseQueue (s : State) (p q quanta r : Nat) : macRate (pauseQueue s p q quanta) r = macRate s r := rfl

/-- Queues paused one after another are each paused for the quanta. -/
theorem pauseOf_foldl {p q quanta : Nat} (hquanta : quanta ≠ 0) {l : List Nat} (hmem : q ∈ l) (s : State) :
    pauseOf (l.foldl (fun s q => pauseQueue s p q quanta) s) p q = some (q, s.now + ceilDiv (quanta * 512) (macRate s p)) := by
  have hkept : ∀ (l : List Nat) (s : State), pauseOf s p q = some (q, s.now + ceilDiv (quanta * 512) (macRate s p)) →
      pauseOf (l.foldl (fun s q => pauseQueue s p q quanta) s) p q = some (q, s.now + ceilDiv (quanta * 512) (macRate s p)) := fun l => by
    induction l with
    | nil => exact fun s h => h
    | cons r l ih =>
      intro s h
      rw [List.foldl_cons, ih _ ?_, pauseQueue_now, macRate_pauseQueue]
      by_cases hr : q = r
      · subst hr; exact pauseOf_pauseQueue_same hquanta
      · rw [pauseOf_pauseQueue_other hr, h]; rfl
  induction l generalizing s with
  | nil => exact absurd hmem List.not_mem_nil
  | cons r l ih =>
    rw [List.foldl_cons]
    by_cases hr : q = r
    · subst hr
      rw [hkept _ _ (pauseOf_pauseQueue_same hquanta)]; rfl
    · rw [ih ((List.mem_cons.1 hmem).resolve_left hr)]; rfl

variable {s u : State} {port : Nat}

/-- A frame counted leaves its port's other registers as they were. -/
theorem getF_countRx (s : State) (port len : Nat) {f : Fld} (hframes : fldKey F.MACA_CNT_RX_FRAMES_COUNT ≠ fldKey f)
    (hbytes : fldKey F.MACA_CNT_RX_BYTES_COUNT ≠ fldKey f) : getF (countRx s port len) (mp port f) = getF s (mp port f) := by
  rw [countRx, getF_countF _ _ _ _ (fldKey_mp_ne hbytes port), getF_countF _ _ _ _ (fldKey_mp_ne hframes port)]

/-- The state in which a flow control frame acts: it is counted, as a frame and as a flow control frame. -/
def flowCounted (s : State) (port : Nat) : State := countF (countRx s port 64) (mp port F.MACA_CNT_PAUSE_RX_COUNT) 1

theorem getF_flowCounted (s : State) (port : Nat) {f : Fld} (hframes : fldKey F.MACA_CNT_RX_FRAMES_COUNT ≠ fldKey f)
    (hbytes : fldKey F.MACA_CNT_RX_BYTES_COUNT ≠ fldKey f) (hpause : fldKey F.MACA_CNT_PAUSE_RX_COUNT ≠ fldKey f) :
    getF (flowCounted s port) (mp port f) = getF s (mp port f) := by
  rw [flowCounted, getF_countF _ _ _ _ (fldKey_mp_ne hpause port), getF_countRx s port 64 hframes hbytes]

theorem countF_now (s : State) (f : Fld) (n : Nat) : (countF s f n).now = s.now := by
  simp only [countF]; split <;> rfl

theorem flowCounted_now (s : State) (port : Nat) : (flowCounted s port).now = s.now := by
  rw [flowCounted, countRx, countF_now, countF_now, countF_now]

theorem exec_pauseFrame_of_honoured {quanta : Nat} (hport : port < 2) (hon : macOn s port = true) (hup : macLink s port = true)
    (hpause : flag s (mp port F.MACA_FC_RX_PAUSE) = true) : exec (.pauseFrame port quanta) s =
      .next ((List.range 8).foldl (fun s q => pauseQueue s port q quanta) (flowCounted s port)) := by
  have hkept : flag (flowCounted s port) (mp port F.MACA_FC_RX_PAUSE) = true := by
    rw [← hpause]; exact congrArg (· == 1) (getF_flowCounted s port (by decide) (by decide) (by decide))
  rw [flowCounted] at hkept
  show execPauseFrame port quanta s = _
  simp only [execPauseFrame, pauseFrame, hport, hon, hup, hkept, decide_true, Bool.and_self, if_true, flowCounted]

/-- Of the eight priorities of a frame that enables one, only that one is looked at. -/
theorem foldl_pfc {priority : Nat} (hpriority : priority < 8) (s : State) (port quanta : Nat) :
    (List.range 8).foldl (fun s q => if bitAt (2 ^ priority) q && bitAt (getF s (mp port F.MACA_FC_RX_PFC)) q then
      pauseQueue s port q (((List.range 8).map fun _ => quanta).getD q 0) else s) s =
    if bitAt (getF s (mp port F.MACA_FC_RX_PFC)) priority then pauseQueue s port priority quanta else s := by
  have hcases : priority = 0 ∨ priority = 1 ∨ priority = 2 ∨ priority = 3 ∨ priority = 4 ∨ priority = 5 ∨ priority = 6 ∨ priority = 7 := by omega
  rcases hcases with rfl | rfl | rfl | rfl | rfl | rfl | rfl | rfl <;> rfl

theorem exec_pfcFrame_of_up {priority quanta : Nat} (hport : port < 2) (hon : macOn s port = true) (hup : macLink s port = true)
    (hpriority : priority < 8) : exec (.pfcFrame port priority quanta) s =
      .next (if bitAt (getF s (mp port F.MACA_FC_RX_PFC)) priority then pauseQueue (flowCounted s port) port priority quanta
        else flowCounted s port) := by
  have hkept := getF_flowCounted s port (f := F.MACA_FC_RX_PFC) (by decide) (by decide) (by decide)
  have hfold := foldl_pfc hpriority (flowCounted s port) port quanta
  rw [hkept] at hfold
  show execPfcFrame port priority quanta s = _
  simp only [execPfcFrame, pfcFrame, hport, hon, hup, decide_true, Bool.and_self, if_true]
  exact congrArg Host.Outcome.next hfold

theorem exec_pauseExpiry_of_paused {queue : Nat} {e : Nat × Nat} (he : ((macOf s port).paused.find? fun e => e.1 == queue) = some e)
    (hu : u = reach s e.2) : exec (.pauseExpiry port queue) s =
      .next (putMac u { macOf u port with paused := (macOf u port).paused.filter fun e => e.1 != queue }) := by
  subst hu
  show execPauseExpiry port queue s = _
  simp only [execPauseExpiry, he]

theorem exec_tsqPop_of_turn {core : Nat} (hturn : StoreTurn s core (mp port F.MACA_TSQ_POP_POP).addr u) :
    exec (.tsqPop core port) s = .next (tsqShow (putMac u { macOf u port with tsq := (macOf u port).tsq.drop 1 }) port) := by
  show execTsqPop core port s = _
  rw [execTsqPop, coreStore_run hturn]

end FlowControl

end Sys2Proof.Machine

section Settled

open Sys2Proof Sys2Proof.Machine

/-- Settles O51, command by command. -/
theorem portsAndClockComplete : Obligations.PortsAndClockComplete := by
  unfold Obligations.PortsAndClockComplete
  intro s u core port
  refine ⟨fun _ => exec_ptpLoad_of_turn, fun _ => exec_ptpStep_of_turn, fun _ => exec_ptpSecRead_of_coreOn, ?linkUp, exec_portLinkUp_of_pair,
    ?linkDown, exec_portLinkDown_of_pair, ?verify, ?flow, fun _ _ => exec_pauseExpiry_of_paused, fun hturn _ => exec_tsqPop_of_turn hturn⟩
  case linkUp =>
    intro hport hon hdown hu
    rw [exec_portLinkUp_of_data hport hon hdown hu]
    exact ⟨fun hoff => by rw [hoff]; rfl, fun hverify => by rw [if_pos hverify]⟩
  case linkDown =>
    intro hport hup
    obtain ⟨hlink, hchg, hverify, hpreempt⟩ := getF_linkFallen (s := s) hport
    refine ⟨_, exec_portLinkDown_of_data hport hup, ?_⟩
    rw [macLink, flag, getF_putMac, getF_putMac, getF_putMac, getF_putMac, hlink, hchg, hverify, hpreempt, macOf_putMac, macOf_linkFallen]
    · exact ⟨rfl, rfl, rfl, rfl, rfl⟩
    · exact macOf_num _ _
  case verify =>
    intro hport hverify hu
    rw [exec_verifyTimer_of_verifying hport hverify hu]
    exact ⟨fun hmore => by rw [if_pos hmore], fun hall => by rw [if_neg (Nat.not_lt.2 hall)], exec_respondFrame_of_verifying hport hverify⟩
  case flow =>
    intro hport hon hup
    refine ⟨exec_verifyFrame_of_up hport hon hup, ?pause, ?pfc⟩
    case pause =>
      intro quanta hquanta hpause
      refine ⟨_, exec_pauseFrame_of_honoured hport hon hup hpause, fun q hq => ?_⟩
      have hrate : macRate (flowCounted s port) port = macRate s port := by
        rw [macRate, getF_flowCounted s port (by decide) (by decide) (by decide), macRate]
      have hpaused := pauseOf_foldl (p := port) hquanta (List.mem_range.2 hq) (flowCounted s port)
      rwa [pauseOf, hrate, flowCounted_now] at hpaused
    case pfc =>
      intro priority quanta hpriority hu
      have hkept : getF u (mp port F.MACA_FC_RX_PFC) = getF s (mp port F.MACA_FC_RX_PFC) := by
        rw [hu]; exact getF_flowCounted s port (by decide) (by decide) (by decide)
      rw [exec_pfcFrame_of_up hport hon hup hpriority, hu]
      rfl

end Settled
end

section
/-! PROOFS. What the families "network ports" and "service port" state of frames: received, placed in rings, sent, cut and ended. -/

namespace Sys2Proof.Machine

/-! ### Frames received on a data port (R499, R504, R505, Table 16-4) -/

section Received

variable {s : State} {p : Nat} {frame : Bytes}

section Arrival

variable (hport : p < 2) (hon : macOn s p = true) (hup : macLink s p = true)

include hport hon hup

theorem exec_frameReceived_of_wrong_fcs : exec (.frameReceived p 0 frame) s = .next (countF s (mp p F.MACA_CNT_RX_FCS_COUNT) 1) := by
  show execFrameReceived p 0 frame s = _
  simp only [execFrameReceived, Nat.not_le.2 hport, hon, hup, Bool.not_true, Bool.false_eq_true, or_self, true_or, OfNat.zero_ne_ofNat,
    if_true, if_false]

theorem exec_frameReceived_of_uncorrectable : exec (.frameReceived p 2 frame) s =
    .next (countF (countF s (mp p F.MACA_CNT_FEC_UNCORR_COUNT) 1) (mp p F.MACA_CNT_RX_FCS_COUNT) 1) := by
  show execFrameReceived p 2 frame s = _
  simp only [execFrameReceived, Nat.not_le.2 hport, hon, hup, Bool.not_true, Bool.false_eq_true, or_self, true_or, or_true, if_true,
    if_false]

/-- A frame with its FCS right, of a good length, untagged or in the port's VLAN, no flow control frame, admitted by its destination, and no RoCEv2 packet
for the port, comes to the Palette (orders 1 to 7). -/
theorem exec_frameReceived_of_good {fcs : Nat} {u : State} (hfcs : fcs = 1 ∨ fcs = 3)
    (hu : u = countRx (if fcs = 3 then countF s (mp p F.MACA_CNT_FEC_CORR_COUNT) 1 else s) p (frame.length + 4)) (hshort : 64 ≤ frame.length + 4)
    (hlong : frame.length + 4 ≤ getF u (mp p F.MACA_MAXFRAME_BYTES))
    (htag : beNat (slice frame 12 2) = 0x8100 → flag u (mp p F.MACA_VLAN_TAG) = true ∧
      (beNat (slice frame 14 2) % 4096 = 0 ∨ beNat (slice frame 14 2) % 4096 = getF u (mp p F.MACA_VLAN_VID)))
    (hflow : beNat (slice frame 12 2) = 0x8808 → beNat (slice frame 14 2) ≠ 1 ∧ beNat (slice frame 14 2) ≠ 0x0101)
    (hpair : (etherType frame).1 ≠ 0x88B5) (hadmits : macAdmits u p frame = true)
    (hroce : isRoce frame = true → leNat (slice frame 0 6) ≠ getF u (mp p F.MACA_ADDR_ADDR)) :
    exec (.frameReceived p fcs frame) s = classify u p frame := by
  have hcorrected : (if fcs = 2 then countF s (mp p F.MACA_CNT_FEC_UNCORR_COUNT) 1
      else if fcs = 3 then countF s (mp p F.MACA_CNT_FEC_CORR_COUNT) 1 else s) =
        if fcs = 3 then countF s (mp p F.MACA_CNT_FEC_CORR_COUNT) 1 else s := if_neg (by omega)
  have hright : ¬ (fcs = 0 ∨ fcs = 2 ∨ frame.length + 4 < 64) := by omega
  have hvlan : ¬ (beNat (slice frame 12 2) = 0x8100 ∧ (flag u (mp p F.MACA_VLAN_TAG) = false ∨
      (beNat (slice frame 14 2) % 4096 ≠ 0 ∧ beNat (slice frame 14 2) % 4096 ≠ getF u (mp p F.MACA_VLAN_VID)))) := by
    rintro ⟨htagged, hother⟩
    obtain ⟨hmine, hvid⟩ := htag htagged
    rcases hother with h | ⟨hzero, hne⟩
    · exact ne_true_of_eq_false h hmine
    · exact hvid.elim hzero hne
  have hpause : ¬ (beNat (slice frame 12 2) = 0x8808 ∧ beNat (slice frame 14 2) = 1) := fun h => (hflow h.1).1 h.2
  have hpfc : ¬ (beNat (slice frame 12 2) = 0x8808 ∧ beNat (slice frame 14 2) = 0x0101) := fun h => (hflow h.1).2 h.2
  have hmine : (isRoce frame && leNat (slice frame 0 6) == getF u (mp p F.MACA_ADDR_ADDR)) = false := by
    cases hr : isRoce frame with
    | false => rfl
    | true => exact beq_eq_false_iff_ne.2 (hroce hr)
  show execFrameReceived p fcs frame s = _
  simp only [execFrameReceived, Nat.not_le.2 hport, hon, hup, hcorrected, hright, ← hu, Nat.not_lt.2 hlong, hvlan, hpause, hpfc, hadmits, hmine, hpair,
    Bool.not_true, Bool.false_eq_true, or_self, if_false]

end Arrival

section Classified

variable {u v t : State} {h : AsuHit} (hsearch : asuUse u (3 + p) (fit frame 64) 2 = (v, h))

include hsearch

theorem classify_of_ring (hhit : h.hit = true) (hring : h.adata < 8) (htakes : StoreTakes v p h.adata frame h.adata true t) :
    classify u p frame = .next t := by
  have hlow : bitAt h.adata 3 = false := by
    simp [bitAt, Nat.div_eq_of_lt hring]
  have hbelow : ¬ h.adata ≥ 16 := by omega
  simp only [classify, hsearch, hhit, hbelow, hlow, Nat.mod_eq_of_lt hring, Bool.false_eq_true, if_true, if_false, storeAdmit_run htakes]

theorem classify_of_discard (hhit : h.hit = true) (hlow : 8 ≤ h.adata) (hhigh : h.adata < 16) :
    classify u p frame = .next (countF v (mp p F.MACA_CNT_RX_FILTERED_COUNT) 1) := by
  have hset : bitAt h.adata 3 = true := by
    have hhalf : h.adata / 8 = 1 := by omega
    simp [bitAt, hhalf]
  simp only [classify, hsearch, hhit, Nat.not_le.2 hhigh, hset, if_true, if_false, macFiltered]

theorem classify_of_miss (hmiss : h.hit = false) (hkeep : flag v (mp p F.MACA_FILTER_DROP_MISS) = false)
    (htakes : StoreTakes v p (getF v (mp p F.MACA_FILTER_DEFAULT)) frame 0 false t) : classify u p frame = .next t := by
  simp only [classify, hsearch, hmiss, hkeep, Bool.false_eq_true, if_false, storeAdmit_run htakes]

end Classified

end Received

/-! ### Rings (R505, R506) -/

section Rings

variable {s u t : State} {p core r index : Nat}

theorem exec_rxrPiWrite_of_data (hturn : StoreTurn s core (mp p (F.MACA_RXR_PI_INDEX r)).addr u) (hport : p < 2)
    (hrange : idxSub index (getF u (mp p (F.MACA_RXR_CI_INDEX r))) ≤ 2 ^ getF u (mp p (F.MACA_RXR_CFG_LOG2S r)))
    (hplaces : RingPlaces (setF u (mp p (F.MACA_RXR_PI_INDEX r)) index) p r t) : exec (.rxrPiWrite core p r index) s = .next t := by
  have hdata : p ≠ 2 := by omega
  show execRxrPiWrite core p r index s = _
  simp only [execRxrPiWrite, rxf, hdata, if_false, coreStore_run hturn, Nat.not_lt.2 hrange, gt_iff_lt, ringLook, placeAll_run hplaces]

/-- The slots that a write of a transmit ring's PI posts. -/
def postedSlots (u : State) (p r index : Nat) : List (Nat × Nat) :=
  (List.range (min (2 ^ getF u (mp p (F.MACA_TXR_CFG_LOG2S r))) (idxSub index (getF u (mp p (F.MACA_TXR_PI_INDEX r)))))).map fun k =>
    (slotAddr u (mp p (F.MACA_TXR_BASE_ADDR r)) (mp p (F.MACA_TXR_CFG_LOG2S r)) (getF u (mp p (F.MACA_TXR_PI_INDEX r)) + k), 32)

theorem exec_txrPiWrite_of_data (hturn : StoreTurn s core (mp p (F.MACA_TXR_PI_INDEX r)).addr u) (hport : p < 2)
    (hrange : idxSub index (getF u (mp p (F.MACA_TXR_CI_INDEX r))) ≤ 2 ^ getF u (mp p (F.MACA_TXR_CFG_LOG2S r))) :
    exec (.txrPiWrite core p r index) s = whenFenced u (postedSlots u p r index) (.next (setF u (mp p (F.MACA_TXR_PI_INDEX r)) index)) := by
  have hdata : p ≠ 2 := by omega
  show execTxrPiWrite core p r index s = _
  simp only [execTxrPiWrite, txf, hdata, if_false, coreStore_run hturn, Nat.not_lt.2 hrange, gt_iff_lt, postedSlots]

theorem exec_rxWaitTimeout_of_data {f : MacStored} (hport : p < 2) (hf : ((macOf s p).store.find? fun f => f.ring == r) = some f)
    (hplaces : RingPlaces (countF (putMac (reach s (f.arrived + getF s (mp p F.MACA_RX_WAIT_MICROS) * us))
      { macOf s p with store := (macOf s p).store.erase f }) (mp p F.MACA_CNT_RX_NOBUF_COUNT) 1) p r t) :
    exec (.rxWaitTimeout p r) s = .next t := by
  have hdata : p ≠ 2 := by omega
  show execRxWaitTimeout p r s = _
  simp only [execRxWaitTimeout, hf, hdata, if_false, countNobuf, placeAll_run hplaces]

end Rings

/-! ### Frames sent (R499, R500, R503, R506) -/

section Sent

variable {s : State} {p engine : Nat} (hport : p < 2)

include hport

section Started

variable {q : Nat} (hon : macOn s p = true) (hfree : (macOf s p).sending = none) (hcut : (macOf s p).cutFrame = none)
  (hbest : bestQueue s p engine (List.range 8) = some q)

include hon hfree hcut hbest

theorem exec_txFrameStart_of_engine {len : Nat} (hengine : bitAt engine q = true) (hring : ringHead s p q = false) :
    exec (.txFrameStart p engine len) s = .next (putMac s { macOf s p with
      sending := some ⟨q, false, zeros len, 0, ptpStamp s (getF s (mp p F.MACA_PTP_TXLAT_NS)), !(macLink s p), 0⟩
      lastEngine := q :: (macOf s p).lastEngine.filter (· != q) }) := by
  show execTxFrameStart p engine len s = _
  simp only [execTxFrameStart, Nat.not_le.2 hport, hon, hfree, hcut, hbest, hengine, hring, Option.isSome_none, Bool.not_true,
    Bool.false_and, Bool.not_false, Bool.and_self, Bool.false_eq_true, or_self, if_true, if_false]

theorem exec_txFrameStart_of_ring {len st : Nat} {v : State} {d : Bytes} (hengine : bitAt engine q = false)
    (hread : readTx s p q (mp p (F.MACA_TXR_BASE_ADDR q)) (mp p (F.MACA_TXR_CFG_LOG2S q)) (mp p (F.MACA_TXR_CI_INDEX q))
      (getF s (mp p F.MACA_MAXFRAME_BYTES) - 4) = (v, st, d)) :
    exec (.txFrameStart p engine len) s = .next (putMac v { macOf v p with
      sending := some ⟨q, true, d, 0, ptpStamp s (getF s (mp p F.MACA_PTP_TXLAT_NS)), !(macLink s p), st⟩
      lastEngine := (macOf v p).lastEngine.filter (· != q) }) := by
  show execTxFrameStart p engine len s = _
  simp only [execTxFrameStart, Nat.not_le.2 hport, hon, hfree, hcut, hbest, hengine, hread, Option.isSome_none, Bool.not_true,
    Bool.false_and, Bool.false_eq_true, or_self, if_false]

end Started

section Sending

variable {t : MacTx} (hsending : (macOf s p).sending = some t)

include hsending

theorem exec_preemptionCut_of_express {sent b q : Nat} (hactive : flag s (mp p F.MACA_STATUS_PREEMPT) = true)
    (hpreemptable : isExpress s p t.queue = false) (hgood : t.tstat = 0) (hkept : t.drop = false)
    (hbest : bestQueue s p engine ((List.range 8).filter (isExpress s p)) = some q) (hpoint : cutPoint t sent = some b) :
    exec (.preemptionCut p sent engine) s =
      .next (emit (countF (putMac s { macOf s p with sending := none, cutFrame := some { t with fragFrom := b } })
        (mp p F.MACA_CNT_PREEMPT_COUNT) 1) (.cut p b)) := by
  show execPreemptionCut p sent engine s = _
  simp only [execPreemptionCut, hsending, Nat.not_le.2 hport, hactive, hpreemptable, hgood, hkept, hbest, hpoint, ne_eq,
    not_true_eq_false, Option.isNone_some, Bool.not_true, Bool.false_eq_true, or_self, if_false]

omit hsending in
theorem exec_txFrameEnd_of_data : exec (.txFrameEnd p) s = .next (macTxEnd s p) := by
  show execTxFrameEnd p s = _
  rw [execTxFrameEnd, if_pos hport]

omit hport in
/-- A frame of the host transport engine that was sent is counted; it has no slot. -/
theorem macTxEnd_of_engine (hcrew : t.crew = false) (hgood : t.tstat = 0) (hkept : t.drop = false) :
    macTxEnd s p = countF (countF (putMac s { macOf s p with sending := none }) (mp p F.MACA_CNT_TX_FRAMES_COUNT) 1)
      (mp p F.MACA_CNT_TX_BYTES_COUNT) (t.data.length + 4) := by
  simp only [macTxEnd, hsending, hcrew, hgood, hkept, and_self, Bool.not_false, if_true]

end Sending

end Sent

/-! ### The pair link (R512) -/

theorem exec_pairLinkFrame_of_good {s u : State} {fcs : Nat} {frame : Bytes} (hlanes : domainOn s .lanes = true)
    (henable : flag s F.PLK_CTRL_ENABLE = true) (hup : flag s F.PLK_STATUS_LINK = true) (hshort : 64 ≤ frame.length + 4)
    (hlong : frame.length + 4 ≤ 9216) (hfcs : fcs = 1 ∨ fcs = 3) (hu : u = (if fcs = 3 then countF s F.PLK_CNT_FEC_CORR_COUNT 1 else s))
    (htype : beNat (slice frame 12 2) = 0x88B5)
    (hdest : leNat (slice frame 0 6) = getF u F.PLK_ADDR_ADDR ∨ leNat (slice frame 0 6) = 2 ^ 48 - 1) :
    exec (.pairLinkFrame fcs frame) s =
      (let v := countF (countF u F.PLK_CNT_RX_FRAMES_COUNT 1) F.PLK_CNT_RX_BYTES_COUNT (frame.length + 4)
       .next { v with pj := { v.pj with rx := v.pj.rx ++ [frame] } }) := by
  have hcorrected : (if fcs = 2 then countF s F.PLK_CNT_FEC_UNCORR_COUNT 1 else if fcs = 3 then countF s F.PLK_CNT_FEC_CORR_COUNT 1 else s) = u := by
    rw [hu]; exact if_neg (by omega)
  have hright : ¬ (fcs = 0 ∨ fcs = 2 ∨ frame.length + 4 < 64 ∨ frame.length + 4 > 9216) := by omega
  have hmine : ¬ (leNat (slice frame 0 6) ≠ getF u F.PLK_ADDR_ADDR ∧ leNat (slice frame 0 6) ≠ 2 ^ 48 - 1) := by
    rintro ⟨hother, hunicast⟩; exact hdest.elim hother hunicast
  show execPairLinkFrame fcs frame s = _
  simp only [execPairLinkFrame, hlanes, henable, hup, hcorrected, hright, htype, hmine, ne_eq, not_true_eq_false, Bool.not_true, Bool.or_self,
    Bool.false_eq_true, or_self, if_false]

end Sys2Proof.Machine

section Settled

open Sys2Proof Sys2Proof.Machine

/-- Settles O52: a frame received comes to the Palette, whose answer names its ring; rings, frames sent and pair frames follow row by row. -/
theorem framesComplete : Obligations.FramesComplete := by
  unfold Obligations.FramesComplete
  intro s p
  refine ⟨?received, fun _ _ _ _ _ => exec_rxrPiWrite_of_data, ?post, fun _ _ _ => exec_rxWaitTimeout_of_data, ?start, ?cut, ?engineEnd, ?crewEnd,
    fun _ _ _ => exec_pairLinkFrame_of_good⟩
  case received =>
    rintro frame fcs hport hon hup
    refine ⟨?_, ?_, ?_⟩
    · rintro rfl; exact exec_frameReceived_of_wrong_fcs hport hon hup
    · rintro rfl; exact exec_frameReceived_of_uncorrectable hport hon hup
    · intro u v h t hfcs hu hshort hlong htag hflow hpair hadmits hroce hsearch
      rw [exec_frameReceived_of_good hport hon hup hfcs hu hshort hlong htag hflow hpair hadmits hroce]
      exact ⟨classify_of_ring hsearch, classify_of_discard hsearch, classify_of_miss hsearch⟩
  case post =>
    intro core t index u slots hturn hport hrange hslots
    rw [exec_txrPiWrite_of_data hturn hport hrange, postedSlots, ← hslots, whenFenced]
    exact ⟨fun hfenced => by rw [hfenced]; rfl, fun hunfenced => by rw [hunfenced]; rfl⟩
  case start =>
    intro engine len q hport hon hfree hcut hbest
    exact ⟨exec_txFrameStart_of_engine hport hon hfree hcut hbest, fun _ _ _ => exec_txFrameStart_of_ring hport hon hfree hcut hbest⟩
  case cut =>
    intro sent engine t b q hport hsending hactive hpreemptable hgood hkept
    exact exec_preemptionCut_of_express hport hsending hactive hpreemptable hgood hkept
  case engineEnd =>
    intro t v hport hsending hcrew hgood hkept hv
    rw [exec_txFrameEnd_of_data hport, macTxEnd_of_engine hsending hcrew hgood hkept, hv]
  case crewEnd =>
    intro t hport hsending hcrew
    exact exec_txFrameEnd_of_data hport

end Settled
end

section
/-! PROOFS. What the family "service port" states: frames received and judged, frames sent, collisions, and the service commands of the responder, of
crew firmware and of the resident loader. -/

namespace Sys2Proof.Machine

/-! ### Frames received (R516, R518, R524) -/

section Received

variable {s u : State} {f : Bytes}

theorem exec_svcFrameReceived_of_wrong_fcs (hon : domainOn s .svc = true) (henable : flag s F.SVC_CTRL_ENABLE = true) :
    exec (.svcFrameReceived 0 f) s = .next (countF s F.SVC_CNT_RX_FCS_COUNT 1) := by
  show execSvcFrameReceived 0 f s = _
  simp only [execSvcFrameReceived, hon, henable, Bool.not_true, Bool.or_self, Bool.false_eq_true, if_false, ne_eq, zero_ne_one, not_false_eq_true,
    if_true]

/-- A frame of a good length and type is counted and judged by the wake patterns; then a service frame is decided by Table 17-2, and any other by its
destination. -/
theorem exec_svcFrameReceived_of_good (hon : domainOn s .svc = true) (henable : flag s F.SVC_CTRL_ENABLE = true) (hshort : 64 ≤ f.length + 4)
    (hlong : f.length + 4 ≤ 1518) (htype : 0x600 ≤ beNat (slice f 12 2)) (htag : beNat (slice f 12 2) ≠ 0x8100)
    (hu : u = patternWake (countF s F.SVC_CNT_RX_FRAMES_COUNT 1) f (patternHits (countF s F.SVC_CNT_RX_FRAMES_COUNT 1) (f ++ le 4 (crc32 f)))) :
    exec (.svcFrameReceived 1 f) s = (if beNat (slice f 12 2) = 0x88B6 then svcJudge u f
      else if leNat (slice f 0 6) = getF u F.SVC_ADDR_ADDR ∨ leNat (slice f 0 6) = 2 ^ 48 - 1 then storeAdmit u 2 0 f 0 false
      else .next (countF u F.SVC_CNT_RX_FILTERED_COUNT 1)) := by
  have hgood : ¬ (f.length + 4 < 64 ∨ f.length + 4 > 1518 ∨ beNat (slice f 12 2) < 0x600 ∨ beNat (slice f 12 2) = 0x8100) := by omega
  show execSvcFrameReceived 1 f s = _
  simp only [execSvcFrameReceived, hon, henable, hgood, ← hu, Bool.not_true, Bool.or_self, Bool.false_eq_true, if_false, ne_eq, not_true_eq_false]

end Received

/-! ### Service frames judged (R524, Table 17-2) -/

section Judged

variable {u t : State} {f : Bytes} (hwhole : bitAt (fld f 19 1) 0 = false) (hform : svcMalformed f = false)
  (htarget : fld f 22 8 = Config.hull ∧ fld f 22 8 ≠ 2 ^ 64 - 1 ∨ fld f 22 8 = 2 ^ 64 - 1 ∧ (svcOp f = 1 ∨ svcOp f = 2))

/-- The opcodes that crew firmware answers lie above those of the responder. -/
theorem svcResponder_of_svcCrew {op : Nat} (h : svcCrew op = true) : svcResponder op = false := by
  have hmem : op ∈ [0x10, 0x11, 0x12, 0x13, 0x20, 0x21, 0x28, 0x29, 0x30, 0x31, 0x32] := List.contains_iff_mem.1 h
  have hlow : ∀ op ∈ [0x10, 0x11, 0x12, 0x13, 0x20, 0x21, 0x28, 0x29, 0x30, 0x31, 0x32], svcResponder op = false := by decide
  exact hlow op hmem

include hwhole hform htarget

/-- A request for this device, not a reply and in good form, passes rows 1 and 2. -/
theorem svcJudge_of_request : svcJudge u f =
    (if svcResponder (svcOp f) then .next (if flag u F.SVC_CTRL_RESPOND then { u with svc := { u.svc with responder := u.svc.responder ++ [f] } } else u)
    else if !(svcCrew (svcOp f)) then
      if flag u F.SVC_CTRL_RESPOND then .next (svcReply u f true ST.unknownOpcode 0 0 []) else .next u
    else if !(flag u F.SVC_CTRL_CREW) then
      if flag u F.SVC_CTRL_RESPOND then .next (svcReply u f true ST.stateConflict (svcDevState u + powerCode u * 2 ^ 24)
        (if svcDevState u = 7 then 0 else getF u F.SVC_WAKE_HINT_MS) []) else .next u
    else if loaderServes u then .next { u with svc := { u.svc with requests := u.svc.requests ++ [f] } }
    else storeAdmit u 2 0 f 0 false) := by
  have hmine : ¬ ((fld f 22 8 ≠ Config.hull ∧ (fld f 22 8 == 2 ^ 64 - 1) = false) ∨
      ((fld f 22 8 == 2 ^ 64 - 1) = true ∧ svcOp f ≠ 1 ∧ svcOp f ≠ 2) ∨ bitAt (fld f 19 1) 0 = true) := by
    rw [hwhole, beq_iff_eq, beq_eq_false_iff_ne]
    rcases htarget with ⟨hhull, hnotall⟩ | ⟨hall, hop⟩
    · rintro (⟨hn, -⟩ | ⟨ha, -⟩ | h)
      · exact hn hhull
      · exact hnotall ha
      · cases h
    · rintro (⟨-, hn⟩ | ⟨-, h1, h2⟩ | h)
      · exact hn hall
      · exact hop.elim h1 h2
      · cases h
  simp only [svcJudge, hmine, hform, Bool.false_eq_true, if_false]

theorem svcJudge_of_responder (hlow : 1 ≤ svcOp f) (hhigh : svcOp f ≤ 4) : svcJudge u f =
    .next (if flag u F.SVC_CTRL_RESPOND then { u with svc := { u.svc with responder := u.svc.responder ++ [f] } } else u) := by
  rw [svcJudge_of_request hwhole hform htarget, svcResponder, decide_eq_true hlow, decide_eq_true hhigh]
  rfl

theorem svcJudge_of_unknown (hresponder : svcResponder (svcOp f) = false) (hcrew : svcCrew (svcOp f) = false) : svcJudge u f =
    .next (if flag u F.SVC_CTRL_RESPOND then svcReply u f true ST.unknownOpcode 0 0 [] else u) := by
  rw [svcJudge_of_request hwhole hform htarget, hresponder, hcrew]
  cases flag u F.SVC_CTRL_RESPOND <;> rfl

section Crew

variable (hcrew : svcCrew (svcOp f) = true)

include hcrew

theorem svcJudge_of_not_serving (hserve : flag u F.SVC_CTRL_CREW = false) (hrespond : flag u F.SVC_CTRL_RESPOND = true) : svcJudge u f =
    .next (svcReply u f true ST.stateConflict (svcDevState u + powerCode u * 2 ^ 24)
      (if svcDevState u = 7 then 0 else getF u F.SVC_WAKE_HINT_MS) []) := by
  rw [svcJudge_of_request hwhole hform htarget, svcResponder_of_svcCrew hcrew, hcrew, hserve, hrespond]
  rfl

theorem svcJudge_of_serving (hserve : flag u F.SVC_CTRL_CREW = true) (hloader : loaderServes u = false) (htakes : StoreTakes u 2 0 f 0 false t) :
    svcJudge u f = .next t := by
  rw [svcJudge_of_request hwhole hform htarget, svcResponder_of_svcCrew hcrew, hcrew, hserve, hloader, storeAdmit_run htakes]
  rfl

theorem svcJudge_of_loader (hserve : flag u F.SVC_CTRL_CREW = true) (hloader : loaderServes u = true) :
    svcJudge u f = .next { u with svc := { u.svc with requests := u.svc.requests ++ [f] } } := by
  rw [svcJudge_of_request hwhole hform htarget, svcResponder_of_svcCrew hcrew, hcrew, hserve, hloader]
  rfl

end Crew

end Judged

/-! ### Frames sent and collisions (R517) -/

section Sent

variable {s : State}

section Free

variable (hon : domainOn s .svc = true) (henable : flag s F.SVC_CTRL_ENABLE = true) (hfree : s.svc.sending = none)

include hon henable hfree

theorem exec_svcFrameSend_of_reply {r : Bytes} {rest : List Bytes} (hreplies : s.svc.replies = r :: rest) : exec .svcFrameSend s =
    .next (setF { s with svc := { s.svc with replies := rest, sending := some ⟨r, false, 0, none, 0⟩ } } F.SVC_STATUS_TX_BUSY 1) := by
  show execSvcFrameSend s = _
  simp only [execSvcFrameSend, hon, henable, hfree, hreplies, Bool.not_true, Option.isSome_none, Bool.or_self, Bool.false_eq_true, if_false]

theorem exec_svcFrameSend_of_ring {v : State} {st : Nat} {d : Bytes} (hreplies : s.svc.replies = []) (hposted : svcTxPosted s = true)
    (hread : readTx s 2 0 F.SVC_TXR_BASE_ADDR F.SVC_TXR_CFG_LOG2S F.SVC_TXR_CI_INDEX 1514 = (v, st, d)) : exec .svcFrameSend s =
    .next (setF { v with svc := { v.svc with sending := some ⟨d, true, 0, none, st⟩ } } F.SVC_STATUS_TX_BUSY 1) := by
  show execSvcFrameSend s = _
  simp only [execSvcFrameSend, hon, henable, hfree, hreplies, hposted, hread, Bool.not_true, Option.isSome_none, Bool.or_self, Bool.false_eq_true,
    if_false]

end Free

section Sending

variable {t : SvcTx} {v : State} (hsending : s.svc.sending = some t)

include hsending

section Running

variable (hbackoff : t.backoff = none) (hgood : t.tstat = 0)

include hbackoff hgood

section Collision

variable (hv : v = countF s F.SVC_CNT_COLLISIONS_COUNT 1)

include hv

theorem exec_svcCollision_of_late : exec (.svcCollision 1) s = .next (svcTxDone (countF v F.SVC_CNT_LATE_COLL_COUNT 1) t 4) := by
  show execSvcCollision 1 s = _
  simp only [execSvcCollision, hsending, hbackoff, hgood, ← hv, Option.isSome_none, Bool.false_eq_true, ne_eq, not_true_eq_false, or_self, if_true,
    if_false]

theorem exec_svcCollision_of_sixteenth (hlast : 15 ≤ t.collisions) :
    exec (.svcCollision 0) s = .next (svcTxDone (countF v F.SVC_CNT_TX_EXCESS_COUNT 1) t 4) := by
  have hmany : t.collisions + 1 ≥ 16 := by omega
  show execSvcCollision 0 s = _
  simp only [execSvcCollision, hsending, hbackoff, hgood, ← hv, hmany, Option.isSome_none, Bool.false_eq_true, ne_eq, not_true_eq_false, or_self,
    zero_ne_one, if_true, if_false]

theorem exec_svcCollision_of_retry (hmore : t.collisions < 15) : exec (.svcCollision 0) s = .next { (fresh v).2 with svc := { (fresh v).2.svc with
    sending := some { t with
      collisions := t.collisions + 1
      backoff := some (v.now + (fresh v).1 % 2 ^ min (t.collisions + 1) 10 * 51200) } } } := by
  have hfew : ¬ t.collisions + 1 ≥ 16 := by omega
  show execSvcCollision 0 s = _
  simp only [execSvcCollision, hsending, hbackoff, hgood, ← hv, hfew, Option.isSome_none, Bool.false_eq_true, ne_eq, not_true_eq_false, or_self,
    zero_ne_one, if_false]

end Collision

theorem exec_txFrameEnd_of_service : exec (.txFrameEnd 2) s = .next (emit (svcTxDone (countF s F.SVC_CNT_TX_FRAMES_COUNT 1) t 0) (.svc t.data)) := by
  show execTxFrameEnd 2 s = _
  simp only [execTxFrameEnd, svcTxEnd, hsending, hbackoff, hgood, Nat.lt_irrefl, Option.isSome_none, Bool.false_eq_true, ne_eq, not_true_eq_false,
    if_true, if_false]

end Running

theorem exec_svcBackoffExpiry_of_waiting {at_ : Nat} (hbackoff : t.backoff = some at_) : exec .svcBackoffExpiry s =
    .next { reach s at_ with svc := { (reach s at_).svc with sending := some { t with backoff := none } } } := by
  show execSvcBackoffExpiry s = _
  simp only [execSvcBackoffExpiry, hsending, hbackoff]
  rfl

end Sending

end Sent

/-! ### The responder (R524, R525) -/

section Responder

variable {s u : State} {f : Bytes}

theorem exec_identify_of_turn (hturn : ResponderTurn s 1 f u) : exec .identify s = .next (svcReply u f true ST.ok 0 0 (identifyBody u)) := by
  show execIdentify s = _
  rw [execIdentify, onResponder_run hturn]

theorem exec_wake_of_turn (hturn : ResponderTurn s 2 f u) : exec .wake s = .next (svcReply u f true ST.ok 0 0 []) := by
  show execWake s = _
  rw [execWake, onResponder_run hturn]

theorem exec_logRead_of_turn (hturn : ResponderTurn s 3 f u) (hlow : 1 ≤ svcArg1 f) (hhigh : svcArg1 f ≤ 16) : exec .logRead s =
    .next (if (logRead u (svcArg0 f) (svcArg1 f)).isEmpty then svcReply u f true ST.notFound (getF u F.LOG_LOW_SEQ) 0 []
      else svcReply u f true ST.ok (getF u F.LOG_LOW_SEQ) (logRead u (svcArg0 f) (svcArg1 f)).length
        ((logRead u (svcArg0 f) (svcArg1 f)).map recBytes).flatten) := by
  have hcount : ¬ (svcArg1 f = 0 ∨ svcArg1 f > 16) := by omega
  show execLogRead s = _
  simp only [execLogRead, onResponder_run hturn, hcount, if_false]

theorem exec_pentRead_of_turn (hturn : ResponderTurn s 4 f u) (hslot : svcArg0 f < 64) (haligned : svcArg1 f % 1024 = 0) (hwithin : svcArg1 f < 65536) :
    exec .pentRead s =
      .next (if (u.pent.slots.any fun p => p.slot == svcArg0 f) then svcReply u f true ST.ok 0 0 (slice (pentBytes u (svcArg0 f)) (svcArg1 f) 1024)
        else svcReply u f true ST.notFound 0 0 []) := by
  show execPentRead s = _
  simp only [execPentRead, onResponder_run hturn, Nat.not_le.2 hslot, Nat.mod_eq_of_lt hslot, haligned, Nat.not_le.2 hwithin, ge_iff_le, ne_eq,
    not_true_eq_false, or_self, if_false]
  cases u.pent.slots.any fun p => p.slot == svcArg0 f <;> rfl

end Responder

/-! ### Crew firmware (R523 to R526) -/

section Service

variable {s u : State} {f : Bytes}

theorem exec_keySet_of_turn (hturn : ServiceTurn s 0x10 f u) (hlength : svcLen f = 145) (hdropped : u.cox.dropped = false) : exec .keySet s =
    .next (svcReply { u with cox := { u.cox with enclosure := some (keySetKey u (svcData f)) } } f false ST.ok 0 0 []) := by
  have hauth : svcAuth f = true := by obtain ⟨_, _, hauth, _⟩ := hturn; exact hauth
  show execKeySet s = _
  simp only [execKeySet, onService_run hturn, hlength, hdropped, hauth, ne_eq, not_true_eq_false, Bool.false_eq_true, if_true, if_false]

section Tenant

variable {cap : Bytes} (hturn : ServiceTurn s 0x11 f u) (hinit : initWaiting s = none) (hcap : cap = initCapsule u f) (hlength : 56 ≤ svcLen f)
  (hbody : adminBodyBad cap = false) (hid : svcArg0 f < 65536)

include hturn hinit hcap hlength hbody hid

theorem exec_tenantInit_of_tenant (hsome : u.kv.tenants ≠ []) : exec .tenantInit s = .next (svcReply u f false ST.exists 0 0 []) := by
  have hheld : u.kv.tenants.isEmpty = false := List.isEmpty_eq_false_iff.2 hsome
  show execTenantInit s = _
  simp only [execTenantInit, hinit, onService_run hturn, ← hcap, Nat.not_lt.2 hlength, hbody, Nat.not_le.2 hid, ge_iff_le, hheld, Bool.not_false,
    Bool.false_eq_true, or_self, if_true, if_false]

theorem exec_tenantInit_of_none {v : State} {q : State × Nat} (hnone : u.kv.tenants = []) (hcheck : check9 u cap = (v, none))
    (hq : q = routeChange { v with svc := { v.svc with requests := f :: v.svc.requests } } cap (svcArg0 f) 2 0) :
    exec .tenantInit s = .next { q.1 with svc := { q.1.svc with init := some q.2 } } := by
  show execTenantInit s = _
  simp only [execTenantInit, hinit, onService_run hturn, ← hcap, Nat.not_lt.2 hlength, hbody, Nat.not_le.2 hid, ge_iff_le, hnone, List.isEmpty_nil,
    Bool.not_true, Bool.false_eq_true, or_self, if_false, hcheck, ← hq]

end Tenant

theorem exec_escrowSet_of_turn (hturn : ServiceTurn s 0x12 f u) (hlength : svcLen f = 32) : exec .escrowSet s =
    .next (svcReply (setEscrow u (xorBytes (svcData f) ((svcMask u (u.cox.enclosure.getD []) 0x12 (svcSeqOf (svcSigned f))).take 32)))
      f false ST.ok 0 0 []) := by
  show execEscrowSet s = _
  simp only [execEscrowSet, onService_run hturn, hlength, ne_eq, not_true_eq_false, if_false]

theorem exec_escrowRead_of_namespace {n : Namespace} (hturn : ServiceTurn s 0x13 f u) (hid : svcArg0 f < 4096) (hns : nsOf u (svcArg0 f) = some n) :
    exec .escrowRead s = .next (if allZero n.escrow then svcReply u f false ST.notFound 0 0 [] else svcReply u f false ST.ok 0 0 (fit n.escrow 64)) := by
  show execEscrowRead s = _
  simp only [execEscrowRead, onService_run hturn, Nat.not_le.2 hid, ge_iff_le, if_false, hns]

theorem takeImage_of_ok (hpiece : pieceStatus f imageLimit = ST.ok) :
    takeImage u f = ({ u with svc := { u.svc with image := gatherPiece u.svc.image (svcArg0 f) (svcData f) } }, ST.ok) := by
  simp only [takeImage, hpiece, ne_eq, not_true_eq_false, if_false]

theorem exec_imageData_of_piece (hturn : ServiceTurn s 0x20 f u) (hpiece : pieceStatus f imageLimit = ST.ok) : exec .imageData s =
    .next (svcReply { u with svc := { u.svc with image := gatherPiece u.svc.image (svcArg0 f) (svcData f) } } f false ST.ok 0 0 []) := by
  show execImageData s = _
  simp only [execImageData, onService_run hturn, takeImage_of_ok hpiece]

theorem exec_imageEnd_of_whole {b : Bytes} (hturn : ServiceTurn s 0x21 f u) (hcrc : svcArg1 f < 2 ^ 32) (hwhole : imageWhole u f = some b)
    (hallowed : installCheck u b.length (crc32c b) b false ≠ 4) :
    exec .imageEnd s = .next (svcReply (showCox (installImage u b)) f false ST.ok 0 0 []) := by
  show execImageEnd s = _
  simp only [execImageEnd, onService_run hturn, Nat.not_le.2 hcrc, ge_iff_le, hwhole, hallowed, if_false]

theorem exec_rigData_of_piece (hturn : ServiceTurn s 0x28 f u) (hpiece : pieceStatus f rigLimit = ST.ok) : exec .rigData s =
    .next (svcReply { u with svc := { u.svc with rig := gatherPiece u.svc.rig (svcArg0 f) (svcData f) } } f false ST.ok 0 0 []) := by
  show execRigData s = _
  simp only [execRigData, onService_run hturn, hpiece, if_true]

theorem exec_rigStage_of_container {c : Bytes} {v : State} (hturn : ServiceTurn s 0x29 f u) (hbusy : flag s F.RIG_STATUS_BUSY = false)
    (hswapping : flag s F.RIG_STATUS_SWAPPING = false) (hlimit : svcArg0 f ≤ rigLimit) (hwhole : gathered u.svc.rig (svcArg0 f) = some c)
    (hends : LoaderEnds (setF (crewStore u (getF u F.RIG_SRC_ADDR_ADDR) c) F.RIG_SRC_LEN_BYTES c.length) v) : exec .rigStage s =
    .next (if flag v F.RIG_STATUS_ERROR then svcReply v f false ST.integrity (getF v F.RIG_STATUS_ERRCODE) 0 []
      else svcReply v f false ST.ok (getF v F.RIG_STAGED_EPOCH_EPOCH) 0 []) := by
  show execRigStage s = _
  simp only [execRigStage, hbusy, hswapping, Bool.or_self, Bool.false_eq_true, if_false, onService_run hturn, Nat.not_lt.2 hlimit, gt_iff_lt, hwhole,
    rigStageEnd_run hends, andThen]
  split <;> rfl

theorem exec_scanFull_of_turn (hturn : ServiceTurn s 0x30 f u) :
    exec .scanFull s = .next (svcReply { u with pwr := { u.pwr with fullScan := true } } f false ST.ok 0 0 []) := by
  show execScanFull s = _
  rw [execScanFull, onService_run hturn]

theorem exec_serviceEnter_of_ready {v : State} (hturn : ServiceTurn s 0x31 f u) (hdev : u.pwr.dev = 4 ∨ u.pwr.dev = 5) (hv : v = declareSelf u) :
    exec .serviceEnter s = .next (svcReply (sendAllStatus { v with pwr := { v.pwr with dev := 6 } }) f false ST.ok 0 0 []) := by
  have hout : u.pwr.dev ≠ 6 := by omega
  have hready : ¬ (u.pwr.dev ≠ 4 ∧ u.pwr.dev ≠ 5) := by omega
  subst hv
  show execServiceEnter s = _
  simp only [execServiceEnter, onService_run hturn, hout, hready, if_false]

theorem exec_serviceLeave_of_service (hturn : ServiceTurn s 0x32 f u) (hdev : u.pwr.dev = 6) (hreadOnly : u.media.readOnly = none) :
    exec .serviceLeave s = .next (svcReply (sendAllStatus (u.groups.foldl (fun s g => ownSeatLost s g.id)
      { u with pwr := { u.pwr with dev := 4 } })) f false ST.ok 0 0 []) := by
  show execServiceLeave s = _
  simp only [execServiceLeave, onService_run hturn, hdev, hreadOnly, ne_eq, not_true_eq_false, Option.isSome_none, Bool.false_eq_true, if_false]

end Service

/-! ### The resident loader (R566) -/

section Loader

variable {s u v : State} {f : Bytes} {rest : List Bytes} (hloader : loaderServes s = true) (hon : domainOn s .svc = true)
  (hrequests : s.svc.requests = f :: rest) (hv : v = { s with svc := { s.svc with requests := rest } })

include hloader hon hrequests hv

theorem exec_loaderService_of_other (hdata : svcOp f ≠ 0x20) (hend : svcOp f ≠ 0x21) :
    exec .loaderService s = .next (svcReply v f false ST.stateConflict 0 0 []) := by
  show execLoaderService s = _
  simp only [execLoaderService, hloader, hon, hrequests, ← hv, hdata, hend, Bool.and_self, Bool.not_true, Bool.false_eq_true, ne_eq, not_false_eq_true,
    and_self, if_true, if_false]

theorem exec_loaderService_of_data (haccept : svcAccept v f = some u) (hdata : svcOp f = 0x20) :
    exec .loaderService s = .next (svcReply (takeImage u f).1 f false (takeImage u f).2 0 0 []) := by
  show execLoaderService s = _
  simp only [execLoaderService, hloader, hon, hrequests, ← hv, hdata, haccept, Bool.and_self, Bool.not_true, Bool.false_eq_true, ne_eq,
    not_true_eq_false, false_and, if_true, if_false]

theorem exec_loaderService_of_end {b : Bytes} {w : State} (haccept : svcAccept v f = some u) (hend : svcOp f = 0x21)
    (hwhole : imageWhole u f = some b) (hw : w = svcReply (installImage u b) f false ST.ok 0 0 []) :
    exec .loaderService s = .next (deviceReset (emitAll w (w.svc.replies.map Out.svc)) 4) := by
  show execLoaderService s = _
  simp only [execLoaderService, hloader, hon, hrequests, ← hv, hend, haccept, hwhole, ← hw, Bool.and_self, Bool.not_true, Bool.false_eq_true, ne_eq,
    not_true_eq_false, and_false, Nat.reduceEqDiff, if_false]

end Loader

end Sys2Proof.Machine

section Settled

open Sys2Proof Sys2Proof.Machine

/-- Settles O53: a service frame passes the rows of Table 17-2 one after another; then frame by frame of the sender. -/
theorem servicePortCompletes : Obligations.ServicePortCompletes := by
  unfold Obligations.ServicePortCompletes
  intro s u t f hon henable
  refine ⟨exec_svcFrameReceived_of_wrong_fcs hon henable, ?received,
    fun _ _ hfree => exec_svcFrameSend_of_reply hon henable hfree, fun _ _ _ hfree => exec_svcFrameSend_of_ring hon henable hfree, ?sending,
    fun _ _ hsending => exec_svcBackoffExpiry_of_waiting hsending⟩
  case received =>
    intro hshort hlong htype htag hu
    rw [exec_svcFrameReceived_of_good hon henable hshort hlong htype htag hu]
    refine ⟨fun hservice hwhole hform htarget => ?_, fun hother hdest htakes => ?_⟩
    · rw [if_pos hservice]
      refine ⟨svcJudge_of_responder hwhole hform htarget, fun hcrew _ _ => ?_, fun hresponder hcrew _ _ =>
        svcJudge_of_unknown hwhole hform htarget hresponder hcrew⟩
      exact ⟨svcJudge_of_not_serving hwhole hform htarget hcrew, svcJudge_of_serving hwhole hform htarget hcrew,
        svcJudge_of_loader hwhole hform htarget hcrew⟩
    · rw [if_neg hother, if_pos hdest, storeAdmit_run htakes]
  case sending =>
    intro t v hsending hbackoff hgood hv
    exact ⟨exec_svcCollision_of_late hsending hbackoff hgood hv, exec_svcCollision_of_sixteenth hsending hbackoff hgood hv,
      exec_svcCollision_of_retry hsending hbackoff hgood hv, exec_txFrameEnd_of_service hsending hbackoff hgood⟩

/-- Settles O54, command by command: the request whose turn has come is answered on the state without it. -/
theorem serviceCommandsComplete : Obligations.ServiceCommandsComplete := by
  unfold Obligations.ServiceCommandsComplete
  intro s u f
  refine ⟨exec_identify_of_turn, exec_wake_of_turn, exec_logRead_of_turn, exec_pentRead_of_turn, exec_keySet_of_turn, ?tenant,
    exec_escrowSet_of_turn, fun _ => exec_escrowRead_of_namespace, exec_imageData_of_piece, fun _ => exec_imageEnd_of_whole, exec_rigData_of_piece,
    fun _ _ => exec_rigStage_of_container, exec_scanFull_of_turn, fun _ => exec_serviceEnter_of_ready, exec_serviceLeave_of_service, ?loader⟩
  case tenant =>
    intro v cap hturn hinit hcap hlength hbody hid
    exact ⟨exec_tenantInit_of_tenant hturn hinit hcap hlength hbody hid, fun _ => exec_tenantInit_of_none hturn hinit hcap hlength hbody hid⟩
  case loader =>
    intro rest v hloader hon hrequests hv
    exact ⟨exec_loaderService_of_other hloader hon hrequests hv, exec_loaderService_of_data hloader hon hrequests hv,
      fun _ _ => exec_loaderService_of_end hloader hon hrequests hv⟩

end Settled
end

section
/-! PROOFS. What the family "logbook and pins" states: the logbook's front end, ports and clear, the counter snapshot, Pentimento, the SMBus target and
JTAG. -/

namespace Sys2Proof.Machine

/-! ### Submissions (R574, R577, R578) -/

theorem codeBucket_eq (code : Nat) : codeBucket code =
    if code / 4096 = 0 ∨ 7 < code / 4096 ∨ code / 128 % 32 ≠ 0 then none else some ((code / 4096 - 1) * 128 + code % 128) := rfl

theorem logSubmit_of_no_bucket {s : State} {source code p0 p1 p2 p3 : Nat} (h : codeBucket code = none) :
    logSubmit s source code p0 p1 p2 p3 = (s, .refused) := by
  simp only [logSubmit, h]

/-- A code of an exempt bucket is suppressed only while the buffer is full. -/
theorem logSubmit_of_exempt {s : State} {source code p0 p1 p2 p3 b : Nat} (hb : codeBucket code = some b) (hroom : s.lb.buffer.length < 256)
    (hexempt : bucketBurst s b = none) :
    logSubmit s source code p0 p1 p2 p3 = (logAccept s source code p0 p1 p2 p3 (bucketOf s b), .accepted s.lb.nextSeq) := by
  simp only [logSubmit, hb, hexempt, ge_iff_le, Nat.not_le.2 hroom, if_false]

/-! ### The crew's ports (R574, R582, R590) -/

section Ports

variable {s u : State} {core : Nat} (hon : coreOn s core = true) (hu : u = coreActs s core)
include hon hu

theorem exec_logSubmit_of_coreOn {code : Nat} {p : State × LogAnswer}
    (hp : p = logSubmit u (1 + 16 * core) code (getF u (F.LOG_SUB_P_WORD core 0)) (getF u (F.LOG_SUB_P_WORD core 1)) (getF u (F.LOG_SUB_P_WORD core 2))
      (getF u (F.LOG_SUB_P3_WORD core))) :
    ∃ t, exec (.logSubmit core code) s = .next t ∧ t.lb = p.1.lb ∧ getF t (F.LOG_SUB_STAT_DONE core) = 1 ∧
      getF t (F.LOG_SUB_STAT_SUPPRESSED core) = b2n (p.2 == .suppressed) ∧ getF t (F.LOG_SUB_STAT_REFUSED core) = b2n (p.2 == .refused) ∧
      getF t (F.LOG_SUB_SEQ_SEQ core) = (match p.2 with | .accepted q => q % 2 ^ 64 | _ => 0) := by
  subst hu hp
  show ∃ t, execLogSubmit core code s = .next t ∧ _
  rw [execLogSubmit, coreRuns_on hon]
  refine ⟨_, rfl, rfl, ?_, ?_, ?_, ?_⟩
  all_goals simp (disch := (simp only [fldKey, F.LOG_SUB_STAT_DONE, F.LOG_SUB_STAT_SUPPRESSED, F.LOG_SUB_STAT_REFUSED, F.LOG_SUB_SEQ_SEQ]; omega)) only
    [getF_setF_other, getF_setF_same]
  · rfl
  · exact b2n_mod_two _
  · exact b2n_mod_two _
  · cases (logSubmit (coreActs s core) (1 + 16 * core) code (getF (coreActs s core) (F.LOG_SUB_P_WORD core 0))
      (getF (coreActs s core) (F.LOG_SUB_P_WORD core 1)) (getF (coreActs s core) (F.LOG_SUB_P_WORD core 2))
      (getF (coreActs s core) (F.LOG_SUB_P3_WORD core))).2 <;> rfl

theorem exec_logRdGo_of_coreOn {recs : List LogRec} {v : State}
    (hrecs : recs = logRead u (getF u (F.LOG_RD_FROM_SEQ core)) (min 16 (getF u (F.LOG_RD_CTRL_COUNT core))))
    (hv : v = setWords u (F.LOG_RD_DATA_BYTES core) (recs.map recBytes).flatten) : exec (.logRdGo core) s =
      .next (setF (setF (setF v (F.LOG_RD_STAT_DONE core) 1) (F.LOG_RD_STAT_RETURNED core) recs.length) (F.LOG_RD_LOW_SEQ core) (getF v F.LOG_LOW_SEQ)) := by
  subst hu hrecs hv
  show execLogRdGo core s = _
  rw [execLogRdGo, coreRuns_on hon]
  simp (disch := (simp only [fldKey, F.LOG_RD_STAT_DONE, F.LOG_RD_STAT_RETURNED, F.LOG_LOW_SEQ]; omega)) only [getF_setF_other]

end Ports

/-! ### Programming, clearing and tokens (R575, R577, R579, R584) -/

section Records

variable {s : State}

theorem exec_logRecordProgram_of_buffer {at_ : Nat} {r : LogRec} {rest : List (Nat × LogRec)} (h : s.lb.buffer = (at_, r) :: rest) :
    exec .logRecordProgram s = .next (programRec { s with lb := { s.lb with buffer := rest } } r) := by
  show execLogRecordProgram s = _
  simp only [execLogRecordProgram, h]

theorem exec_logClearUptoWrite_of_granted {upto low seq : Nat} {p : State × LogAnswer} {v w : State} (hgrant : s.cox.clearGranted = some upto)
    (hlow : low = max (getF s F.LOG_LOW_SEQ) (min upto (getF s F.LOG_HEAD_SEQ) + 1))
    (hp : p = logSubmit (setF s F.LOG_CLEAR_UPTO_SEQ upto) 2 EV.logCleared (getF s F.LOG_LOW_SEQ) low upto 0) (haccepted : p.2 = .accepted seq)
    (hv : v = programBuffer { p.1 with cox := { p.1.cox with clearGranted := none } })
    (hw : w = setF (putControl v low) F.LOG_LOW_SEQ (max (getF v F.LOG_LOW_SEQ) low)) : exec (.logClearUptoWrite upto) s =
      .next (setF { w with lb := { w.lb with ring := ringCleared w.lb.ring low } } F.LOG_STATUS_CLEARED 1) := by
  subst hw hv hlow
  show execLogClearUptoWrite upto s = _
  simp only [execLogClearUptoWrite, hgrant, ← hp, haccepted, ne_eq, not_true_eq_false, if_false]

theorem exec_logTokenRefill_of_spent {code b burst : Nat} (hb : codeBucket code = some b) (hburst : bucketBurst s b = some burst)
    (hspent : (bucketOf s b).spent ≠ 0) : exec (.logTokenRefill code) s =
      .next (putBucket (reach s (bucketOf s b).refillAt) { bucketOf s b with
        spent := (bucketOf s b).spent - 1
        refillAt := (bucketOf s b).refillAt + refillNs s burst }) := by
  show execLogTokenRefill code s = _
  simp only [execLogTokenRefill, hb, hburst, hspent, if_false]

end Records

/-! ### The counter snapshot (R586, R587) -/

theorem kvGet_filter (q : Nat → Bool) (l : List (Nat × Nat)) (k : Nat) :
    kvGet (l.filter fun e => q e.1) k = if q k then kvGet l k else none := by
  induction l with
  | nil => simp [kvGet]
  | cons e t ih =>
    obtain ⟨a, v⟩ := e
    by_cases hk : a = k
    · subst hk
      by_cases hq : q a
      · simp [kvGet, hq]
      · simp [hq, ih]
    · by_cases hq : q a
      · simp [kvGet, hq, hk, ih]
      · simp [kvGet, hq, hk, ih]

/-- The registers of the snapshot itself are no counters of it. -/
theorem snapCounter_of_snapRegs : ∀ f ∈ [F.SNAP_SEQ_SEQ, F.SNAP_OPSEC_SECONDS, F.SNAP_MS_MS, F.SNAP_DOMAINS_ON, F.SNAP_STATUS_DONE],
    snapCounter (fldKey f) = false := by decide

/-- The state after the participating counters have moved into their shadows. -/
def snapMoved (u : State) : State :=
  { u with shadow := u.regs.filter fun e => snapTakes u e.1, regs := u.regs.filter fun e => !(snapTakes u e.1) }

theorem getF_snapMoved (u : State) (f : Fld) : getF (snapMoved u) f = if snapTakes u (fldKey f) then f.reset else getF u f := by
  have h := kvGet_filter (fun k => !(snapTakes u k)) u.regs (fldKey f)
  unfold getF snapMoved
  dsimp only at h ⊢
  rw [h]
  cases snapTakes u (fldKey f) <;> rfl

theorem snapTakes_of_snapRegs (u : State) {f : Fld}
    (hf : f ∈ [F.SNAP_SEQ_SEQ, F.SNAP_OPSEC_SECONDS, F.SNAP_MS_MS, F.SNAP_DOMAINS_ON, F.SNAP_STATUS_DONE]) : snapTakes u (fldKey f) = false := by
  rw [snapTakes, snapCounter_of_snapRegs f hf, Bool.false_and]

/-- A counter that takes part is none of the registers the strobe sets. -/
theorem fldKey_ne_of_snapTakes {u : State} {f g : Fld} (hf : snapTakes u (fldKey f) = true)
    (hg : g ∈ [F.SNAP_SEQ_SEQ, F.SNAP_OPSEC_SECONDS, F.SNAP_MS_MS, F.SNAP_DOMAINS_ON, F.SNAP_STATUS_DONE]) : fldKey g ≠ fldKey f := by
  intro h
  rw [← h, snapTakes_of_snapRegs u hg] at hf
  cases hf

theorem exec_snapStrobe_of_coreOn {s u : State} {core : Nat} (hon : coreOn s core = true) (hu : u = coreActs s core) :
    ∃ t, exec (.snapStrobe core) s = .next t ∧ getF t F.SNAP_STATUS_DONE = 1 ∧ getF t F.SNAP_SEQ_SEQ = (getF u F.SNAP_SEQ_SEQ + 1) % 2 ^ 64 ∧
      getF t F.SNAP_DOMAINS_ON = domainMask u % 2 ^ 9 ∧ t.shadow = u.regs.filter (fun e => snapTakes u e.1) ∧
      ∀ f : Fld, snapTakes u (fldKey f) = true → getF t f = f.reset := by
  subst hu
  have hrun : exec (.snapStrobe core) s = .next (setF (setF (setF (setF (bumpF (snapMoved (coreActs s core)) F.SNAP_SEQ_SEQ 1) F.SNAP_OPSEC_SECONDS
      (opsec (bumpF (snapMoved (coreActs s core)) F.SNAP_SEQ_SEQ 1))) F.SNAP_MS_MS (aonMs (bumpF (snapMoved (coreActs s core)) F.SNAP_SEQ_SEQ 1)))
      F.SNAP_DOMAINS_ON (domainMask (coreActs s core))) F.SNAP_STATUS_DONE 1) := by
    show execSnapStrobe core s = _
    rw [execSnapStrobe, coreRuns_on hon]
    rfl
  refine ⟨_, hrun, getF_setF_same _ _ _, ?_, ?_, rfl, fun f hf => ?_⟩
  · simp (disch := decide) only [getF_setF_other, bumpF, getF_setF_same, getF_snapMoved, snapTakes_of_snapRegs, Bool.false_eq_true, if_false]
    rfl
  · simp (disch := decide) only [getF_setF_other, getF_setF_same]
    rfl
  · rw [getF_setF_other _ _ (fldKey_ne_of_snapTakes hf (by decide)), getF_setF_other _ _ (fldKey_ne_of_snapTakes hf (by decide)),
      getF_setF_other _ _ (fldKey_ne_of_snapTakes hf (by decide)), getF_setF_other _ _ (fldKey_ne_of_snapTakes hf (by decide)), bumpF,
      getF_setF_other _ _ (fldKey_ne_of_snapTakes hf (by decide)), getF_snapMoved, if_pos hf]

/-! ### Pentimento (R588) -/

theorem exec_pentSnapshotEnd_of_writing {s u : State} {w : PentSnap} (hwriting : s.pent.writing = some w)
    (hu : u = { s with pent := { s.pent with writing := none, nextErased := false, slots := s.pent.slots ++ [{ w with complete := true }] } }) :
    exec .pentSnapshotEnd s =
      .next (setF (setF (setF (setF u F.PENT_STATUS_BUSY 0) F.PENT_STATUS_NEXT ((w.slot + 1) % 64)) F.PENT_PSEQ_PSEQ w.pseq) F.PENT_STATUS_TAKEN 1) := by
  subst hu
  show execPentSnapshotEnd s = _
  simp only [execPentSnapshotEnd, hwriting]

/-! ### The SMBus target (R612, R613, Table 21-11) -/

section Smbus

variable {s : State} {command : Nat}

/-- A read by the protocol that the table gives the register. -/
theorem smbRead_of_register {p : SmbProtocol} {data : Bytes} (hreg : smbRegister s command = some (p, data)) : smbRead s s.pins.smbAddress command p =
    .next (emit { s with pins := { s.pins with smbLatch := data } }
      (.smbus (some (smbFrame { s with pins := { s.pins with smbLatch := data } } command p data)))) := by
  simp only [smbRead, hreg, ne_eq, not_true_eq_false, if_false, if_true]

theorem exec_smbusWriteNack_of_unknown {data : Nat} (hreg : smbRegister s command = none) :
    exec (.smbusWriteNack s.pins.smbAddress command data) s = .next (emit s (.smbus none)) := by
  show execSmbusWriteNack s.pins.smbAddress command data s = _
  simp only [execSmbusWriteNack, hreg, ne_eq, not_true_eq_false, if_false]

theorem exec_smbusWriteNack_of_register {data : Nat} {q : SmbProtocol} {d : Bytes} (hreg : smbRegister s command = some (q, d)) :
    exec (.smbusWriteNack s.pins.smbAddress command data) s = .next (emit { s with pins := { s.pins with smbLatch := d } } (.smbus none)) := by
  show execSmbusWriteNack s.pins.smbAddress command data s = _
  simp only [execSmbusWriteNack, hreg, ne_eq, not_true_eq_false, if_false]

theorem exec_smbusAlertResponse_of_alert (halert : s.pins.smbAlertN = false) : exec (.smbusAlertResponse s.pins.smbAddress) s =
    .next (emit { (fresh s).2 with pins := { (fresh s).2.pins with smbAlertN := true } }
      (.smbus (some (le 1 (2 * s.pins.smbAddress + (fresh s).1 % 2))))) := by
  show execSmbusAlertResponse s.pins.smbAddress s = _
  simp only [execSmbusAlertResponse, halert, bne_self_eq_false, Bool.or_self, Bool.false_eq_true, if_false]

end Smbus

/-! ### Device resets and JTAG (R547, R570, R614) -/

/-- No vault dump runs, so the reset begins at once. -/
theorem execDeviceReset_of_idle {s : State} {cause : Nat} (hlow : 2 ≤ cause) (hhigh : cause ≤ 6) (hidle : s.pj.dumping = none) :
    execDeviceReset cause s = .next (deviceReset s cause) := by
  have hgood : ¬ (cause < 2 ∨ cause > 6 ∨ s.pj.dumping.isSome = true) := by simp [hidle]; omega
  simp only [execDeviceReset, hgood, if_false]

theorem exec_jtagAccess_of_idcode {s : State} {addr width value : Nat} (hon : domainOn s .cox = true) :
    exec (.jtagAccess 0 addr width value) s = .next (jtagOut s 0 jtagIdcode) := by
  show execJtagAccess 0 addr width value s = _
  simp only [execJtagAccess, hon, Bool.not_true, Bool.false_eq_true, if_false, if_true]

theorem exec_jtagAccess_of_bypass {s : State} {addr width value : Nat} (hon : domainOn s .cox = true) :
    exec (.jtagAccess 1 addr width value) s = .next (jtagOut s 1 (le (ceilDiv width 8) (value * 2 % 2 ^ width))) := by
  show execJtagAccess 1 addr width value s = _
  simp only [execJtagAccess, hon, Bool.not_true, Bool.false_eq_true, if_false, if_true, one_ne_zero]

theorem exec_jtagAccess_of_reset {s : State} {addr width value : Nat} (hon : domainOn s .cox = true) (hopen : s.pins.jtagLevel ≠ 0)
    (hidle : s.pj.dumping = none) : exec (.jtagAccess 6 addr width value) s = .next (deviceReset s 6) := by
  show execJtagAccess 6 addr width value s = _
  simp only [execJtagAccess, hon, hopen, execDeviceReset_of_idle (by decide : 2 ≤ 6) (Nat.le_refl 6) hidle, Bool.not_true, Bool.false_eq_true, if_false,
    if_true, OfNat.ofNat_ne_zero, OfNat.ofNat_ne_one, Nat.reduceEqDiff]

end Sys2Proof.Machine

section Settled
open Sys2Proof Sys2Proof.Machine

/-- Settles O58, a rule per command: the front end by its buckets, the ports over the field rules, and the strobe by what its filter leaves of every
counter. -/
theorem logbookAndPinsComplete : Obligations.LogbookAndPinsComplete := by
  unfold Obligations.LogbookAndPinsComplete
  intro s u core
  refine ⟨?submit, ?port, ?read, ?program, ?clear, ?token, ?strobe, ?snapshot, rfl, ?smbRead, ?smbWrite, ?alert, rfl, ?jtag⟩
  case submit =>
    intro source code p0 p1 p2 p3 _
    refine ⟨fun hbad => logSubmit_of_no_bucket ((codeBucket_eq code).trans (if_pos hbad)), fun hlow hhigh hcode hroom hexempt => ?_⟩
    have hbucket : codeBucket code = some ((code / 4096 - 1) * 128 + code % 128) := (codeBucket_eq code).trans (if_neg (by omega))
    rw [logSubmit_of_exempt hbucket hroom hexempt]
  case port =>
    intro code p hon hu hp
    exact exec_logSubmit_of_coreOn hon hu hp
  case read =>
    intro recs v hon hu hrecs hv
    exact exec_logRdGo_of_coreOn hon hu hrecs hv
  case program => exact fun at_ r rest h => exec_logRecordProgram_of_buffer h
  case clear =>
    intro upto low p v w hgrant hlow hp haccepted hv hw
    exact exec_logClearUptoWrite_of_granted hgrant hlow hp haccepted hv hw
  case token => exact fun code b burst hb hburst hspent => exec_logTokenRefill_of_spent hb hburst hspent
  case strobe => exact fun hon hu => exec_snapStrobe_of_coreOn hon hu
  case snapshot => exact fun w hwriting hu => exec_pentSnapshotEnd_of_writing hwriting hu
  case smbRead =>
    rintro command data rfl
    exact ⟨smbRead_of_register, smbRead_of_register, smbRead_of_register⟩
  case smbWrite => exact fun command data => ⟨exec_smbusWriteNack_of_unknown, fun q d => exec_smbusWriteNack_of_register⟩
  case alert =>
    rintro halert rfl
    exact exec_smbusAlertResponse_of_alert halert
  case jtag =>
    intro addr width value hon
    exact ⟨exec_jtagAccess_of_idcode hon, exec_jtagAccess_of_bypass hon, exec_jtagAccess_of_reset hon⟩

end Settled
end

section
/-! PROOFS. What the family "Cox" states: the requests of the mailbox, each under the turn that its channel has, and what Cox does at a start. -/

namespace Sys2Proof.Machine

/-! ### A GO of the crew (R557) -/

theorem exec_coxMailboxGo_of_idle {s u : State} {core c : Nat} (hturn : StoreTurn s core (F.COX_MBc_CTRL_GO c).addr u) (hc : c < 4)
    (hidle : flag u (F.COX_MBc_STATUS_BUSY c) = false) : exec (.coxMailboxGo core c) s =
      .next (if u.cox.verified then mbUnknown 4 (setF u (F.COX_MBc_STATUS_BUSY c) 1) else setF u (F.COX_MBc_STATUS_BUSY c) 1) := by
  show execCoxMailboxGo core c s = _
  rw [execCoxMailboxGo, coreStore_run hturn, if_neg (by simp [hidle]; omega)]
  rfl

section Requests

variable {s u : State} {c : Nat} {p : Bytes}

/-! ### The configuration store and the flash channels (R567, R369) -/

theorem exec_cfgRead_of_found {r : CfgRec} {f : Nat} (hturn : MailTurn s 1 4 4 c p) (hkey : coxKey (fld p 0 4) = false)
    (hfound : cfgLookup s (fld p 0 4) = some (r, f)) (hlive : r.del = false) :
    exec .cfgRead s = .next (mbReply s c 0 (le 2 f ++ zeros 2 ++ le 4 r.data.length ++ r.data)) := by
  show execCfgRead s = _
  rw [execCfgRead, onMailbox_run hturn]
  simp only [hkey, hfound, hlive, Bool.false_eq_true, if_false]

theorem exec_cfgWrite_of_room (hturn : MailTurn s 2 8 1000 c p) (hflags : fld p 4 4 ≤ 1) (hkey : coxKey (fld p 0 4) = false)
    (hroom : cfgAppend s (fld p 0 4) (bitAt (fld p 4 4) 0) (p.drop 8) = some u) : exec .cfgWrite s = .next (mbReply u c 0 []) := by
  show execCfgWrite s = _
  rw [execCfgWrite, onMailbox_run hturn]
  simp only [hkey, hroom, gt_iff_lt, Nat.not_lt.2 hflags, Bool.false_eq_true, if_false]

theorem exec_fcLoad_of_channels (hturn : MailTurn s 0x10 4 4 c p) (hflash : domainOn s .flash = true) (hsome : bitList (fld p 0 4) 32 ≠ []) :
    exec .fcLoad s =
      .next (fcLoadAll (bitList (fld p 0 4) 32) { s with cox := { s.cox with loading := some (c, bitList (fld p 0 4) 32) } }) := by
  show execFcLoad s = _
  rw [execFcLoad, onMailbox_run hturn]
  simp only [hflash, List.isEmpty_eq_false_iff.2 hsome, Bool.not_true, Bool.false_eq_true, if_false]

/-! ### Peer keys (R200, R248, R489) -/

theorem exec_peerEph_of_turn (hturn : MailTurn s 0x20 0 0 c p) :
    exec .peerEph s = .next (mbReply (coxEph s).2.2 c 0 (le 4 (coxEph s).1 ++ (coxEph s).2.1)) := by
  show execPeerEph s = _
  rw [execPeerEph, onMailbox_run hturn]

theorem exec_peerSign_of_hello (hturn : MailTurn s 0x21 0 1008 c p) (hkept : s.cox.dropped = false) (hhull : fld p 10 8 = Config.hull)
    (hfits : p.take 10 = helloLabel true ∧ p.length = 170 ∨ p.take 10 = helloLabel false ∧ p.length = 299) :
    exec .peerSign s = .next (mbReply s c 0 (fit (Config.ecdsaSign Config.identityKey p) 96)) := by
  have hfits' : (p.take 10 == helloLabel true && p.length == 170 || p.take 10 == helloLabel false && p.length == 299) = true := by
    simpa only [Bool.or_eq_true, Bool.and_eq_true, beq_iff_eq] using hfits
  show execPeerSign s = _
  rw [execPeerSign, onMailbox_run hturn]
  simp only [hkept, hfits', hhull, beq_self_eq_true, Bool.and_self, Bool.false_eq_true, if_false, if_true]

theorem exec_peerKey_of_context {e : Nat × Bytes} {key : Bytes} {v : State} (hturn : MailTurn s 0x22 185 185 c p) (hreserved : fld p 7 1 = 0)
    (hrole : fld p 6 1 ≤ 1) (hslot : slotOpen (fld p 4 2) = true) (hctx : (s.cox.ephs.find? fun e => e.1 == fld p 0 4) = some e)
    (hkey : key = peerKeyOf e.2 (slice p 8 97) (slice p 105 32) (slice p 137 32) (fld p 169 8) (fld p 177 8))
    (hv : v = setSlot { s with cox := { s.cox with ephs := s.cox.ephs.filter fun x => x.1 != fld p 0 4 } } ⟨fld p 4 2, 1, false, 0, 0, pairKeyOf key⟩) :
    exec .peerKey s =
      .next (mbReply (match v.pj.chans.find? fun x => x.slot == fld p 4 2 with | some x => pairRekey v x.partner | none => v) c 0 key) := by
  subst hkey hv
  have hgood : ¬ (fld p 6 1 > 1 ∨ slotOpen (fld p 4 2) = false) := by simp [hslot]; omega
  show execPeerKey s = _
  rw [execPeerKey, onMailbox_run hturn]
  simp only [hreserved, hgood, hctx, ne_eq, not_true_eq_false, if_false] <;> rfl

theorem exec_xportLoad_of_device (hturn : MailTurn s 0x23 4 4 c p) (hkept : s.cox.dropped = false) (hrig : rigActive s = true)
    (hdev : fld p 0 2 < (activeView s).count 1) (hslot : slotOpen (fld p 2 2) = true) :
    exec .xportLoad s = .next (mbReply (setSlot s ⟨fld p 2 2, 3, false, 0, 0, xportKey s ((activeView s).hull (fld p 0 2))⟩) c 0 []) := by
  have hgood : ¬ (fld p 0 2 ≥ (activeView s).count 1 ∨ slotOpen (fld p 2 2) = false) := by simp [hslot]; omega
  show execXportLoad s = _
  rw [execXportLoad, onMailbox_run hturn]
  simp only [hkept, hrig, hgood, Bool.true_eq_false, Bool.false_eq_true, or_self, if_false]

/-! ### The service port's keys (R481, R523, R526) -/

theorem exec_svcMac_of_payload {b key : Bytes} (hturn : MailTurn s 0x30 13 13 c p) (hpayload : svcPayload s (fld p 1 8) (fld p 9 4) = (u, some b))
    (hkey : s.cox.enclosure = some key) (hdir : fld p 0 1 ≤ 1) (hlen : 64 ≤ fld p 9 4) (hkept : s.cox.dropped = false) :
    exec .svcMac s = (if fld p 0 1 = 1 then .next (mbReply (fabWrite u 2 (fld p 1 8 + fld p 9 4 - 16) (svcMacOf s key 1 b)).1 c 0 [])
      else .next (if svcMacRight s key b && decide (svcSeqOf b > s.cox.svcSeq) then
        mbReply { u with cox := { u.cox with svcSeq := svcSeqOf b } } c 0 [] else mbReply u c 6 [])) := by
  have hgood : ¬ (fld p 0 1 > 1 ∨ fld p 9 4 < 64) := by omega
  show execSvcMac s = _
  rw [execSvcMac, onMailbox_run hturn]
  simp only [hpayload, hkey, hgood, hkept, Bool.false_eq_true, if_false]
  split
  · rfl
  · split <;> rfl

theorem exec_svcKeySet_of_request {b : Bytes} (hturn : MailTurn s 0x31 12 12 c p) (hpayload : svcPayload s (fld p 0 8) (fld p 8 4) = (u, some b))
    (hkept : s.cox.dropped = false) (hop : fld b 4 1 = 0x10) (hbody : fld b 20 2 = 145) (hlen : 185 ≤ b.length)
    (hmac : ∀ key, s.cox.enclosure = some key → svcMacRight s key b = true) :
    exec .svcKeySet s = .next (mbReply { u with cox := { u.cox with enclosure := some (keySetKey s (slice b 40 145)) } } c 0 []) := by
  have hgood : ¬ (fld b 4 1 ≠ 0x10 ∨ fld b 20 2 ≠ 145 ∨ b.length < 185) := by omega
  have hright : s.cox.enclosure.any (fun key => !(svcMacRight s key b)) = false := by
    cases hkey : s.cox.enclosure with
    | none => rfl
    | some key => rw [Option.any_some, hmac key hkey]; rfl
  show execSvcKeySet s = _
  rw [execSvcKeySet, onMailbox_run hturn]
  simp only [hpayload, hkept, hgood, hright, Bool.false_eq_true, if_false]

section Unmask

variable {b key : Bytes} (hturn : MailTurn s 0x32 12 12 c p) (hpayload : svcPayload s (fld p 0 8) (fld p 8 4) = (u, some b))
  (hkey : s.cox.enclosure = some key) (hkept : s.cox.dropped = false) (hmac : svcMacRight s key b = true)
include hturn hpayload hkey hkept hmac

theorem exec_svcUnmask_of_tenantInit (hop : fld b 4 1 = 0x11) (hlen : 112 ≤ b.length) :
    exec .svcUnmask s = .next (mbReply u c 0 (xorBytes (slice b 40 48) (svcMask s key 0x11 (svcSeqOf b)))) := by
  show execSvcUnmask s = _
  rw [execSvcUnmask, onMailbox_run hturn]
  simp only [hpayload, hkey, hkept, hmac, hop, Nat.not_lt.2 hlen, ne_eq, not_true_eq_false, false_and, false_or, Nat.reduceAdd, Bool.not_true,
    Bool.false_eq_true, if_false, if_true]

theorem exec_svcUnmask_of_escrowSet (hop : fld b 4 1 = 0x12) (hlen : 96 ≤ b.length) :
    exec .svcUnmask s = .next (mbReply (setEscrow u (xorBytes (slice b 40 32) (svcMask s key 0x12 (svcSeqOf b)))) c 0 []) := by
  have hother : (0x12 : Nat) ≠ 0x11 := by decide
  show execSvcUnmask s = _
  rw [execSvcUnmask, onMailbox_run hturn]
  simp only [hpayload, hkey, hkept, hmac, hop, hother, Nat.not_lt.2 hlen, ne_eq, not_true_eq_false, and_false, false_or, Nat.reduceAdd, Bool.not_true,
    Bool.false_eq_true, if_false]

end Unmask

/-! ### Attestation and debug (R568, R569, R570) -/

theorem exec_attest_of_turn (hturn : MailTurn s 0x40 32 32 c p) (hkept : s.cox.dropped = false) :
    exec .attest s = .next (mbReply s c 0 (attestQuote s p ++ fit Config.certificate 208)) := by
  show execAttest s = _
  rw [execAttest, onMailbox_run hturn, hkept]
  exact rfl

theorem exec_debugChallenge_of_turn {ch : Bytes} (hturn : MailTurn s 0x41 0 0 c p)
    (hch : ch = le 8 Config.hull ++ (freshBytes s 32).1 ++ le 1 s.cox.svnFused ++ zeros 23) : exec .debugChallenge s =
      .next (mbReply { (freshBytes s 32).2 with cox := { (freshBytes s 32).2.cox with challenge := some ch } } c 0 ch) := by
  subst hch
  show execDebugChallenge s = _
  rw [execDebugChallenge, onMailbox_run hturn]

theorem exec_debugUnlock_of_signed {ch : Bytes} {v : State} (hturn : MailTurn s 0x42 104 104 c p) (hreserved : allZero (slice p 1 7) = true)
    (hlevel : fld p 0 1 = 1 ∨ fld p 0 1 = 2) (hch : s.cox.challenge = some ch)
    (hsigned : Config.ecdsaVerify Config.debugKey ([0x41, 0x5A, 0x4B, 0x2D, 0x44, 0x45, 0x42, 0x55, 0x47] ++ ch ++ p.take 1) (slice p 8 96) = true)
    (hv : v = (s.cip.slots.map KeySlot.slot).foldl clearSlot s)
    (hu : u = setF (setF { v with cip := { v.cip with kek := none, escrow := none } } F.CIP_STATUS_KEK 0) F.CIP_STATUS_ESCROW 0) :
    exec .debugUnlock s = .next (mbReply (logCox (showCox { u with
      cox := { u.cox with dropped := u.cox.dropped || fld p 0 1 == 2 }
      pins := { u.pins with jtagLevel := fld p 0 1 } }) EV.debugUnlocked (fld p 0 1) 0 0) c 0 []) := by
  subst hu hv
  have hgood : ¬ (fld p 0 1 = 0 ∨ fld p 0 1 > 2) := by omega
  show execDebugUnlock s = _
  rw [execDebugUnlock, onMailbox_run hturn]
  simp only [hreserved, hgood, hch, hsigned, Option.getD_some, Option.isNone_some, Bool.not_true, Bool.or_self, Bool.false_eq_true, if_false]

/-! ### Images and the fallback (R562, R563, R564, R565) -/

/-- Words set change nothing but the registers. -/
theorem setWords_writes_regs (s : State) (f : Nat → Fld) (b : Bytes) : ∃ regs, setWords s f b = { s with regs := regs } := by
  suffices h : ∀ (l : List Nat) (s : State), ∃ regs, l.foldl (fun s i => setF s (f i) (fld b (4 * i) 4)) s = { s with regs := regs } from h _ s
  intro l
  induction l with
  | nil => exact fun s => ⟨s.regs, rfl⟩
  | cons i l ih =>
    intro s
    obtain ⟨regs, h⟩ := ih (setF s (f i) (fld b (4 * i) 4))
    exact ⟨regs, h⟩

theorem drawNonce_cox (s : State) : (drawNonce s).cox = { s.cox with svcSeq := 0 } := by
  obtain ⟨regs, h⟩ := setWords_writes_regs { (freshBytes s 32).2 with cox := { (freshBytes s 32).2.cox with svcSeq := 0 } } F.SVC_NONCE_BYTES
    (freshBytes s 32).1
  exact congrArg State.cox h

theorem logCox_cox (s : State) (code p0 p1 p2 : Nat) : (logCox s code p0 p1 p2).cox = s.cox := by
  obtain ⟨free, regs, lb, h⟩ := logSubmit_writes_front_end s 2 code p0 p1 p2 0
  rw [logCox, h]

section Verify

variable (hcox : domainOn u .cox = true) (hdev : u.pwr.dev = 1) (hfirst : u.cox.verified = false) (hphase : u.cox.phase = 0)
include hphase

theorem drawNonce_phase_of_steady : (drawNonce u).cox.phase = 0 := by rw [drawNonce_cox]; exact hphase

include hcox hdev hfirst

theorem execBootVerify_of_good (hcheck : bootCheck (drawNonce u) = 0) : execBootVerify u = .next (bootDone (drawNonce u)) := by
  simp only [execBootVerify, hcox, hfirst, hdev, drawNonce_phase_of_steady hphase, hcheck, bne_self_eq_false, Bool.not_true, Bool.or_self,
    Bool.false_eq_true, if_false, OfNat.zero_ne_ofNat, zero_ne_one, false_and, or_self, if_true]

theorem execBootVerify_of_bad (hcheck : bootCheck (drawNonce u) ≠ 0) : execBootVerify u =
    .next (showCox (bootHalted (logCox (drawNonce u) EV.bootFailed (bootCheck (drawNonce u)) 0 0))) := by
  simp only [execBootVerify, hcox, hfirst, hdev, drawNonce_phase_of_steady hphase, hcheck, logCox_cox, bne_self_eq_false, Bool.not_true, Bool.or_self,
    Bool.false_eq_true, if_false, OfNat.zero_ne_ofNat, zero_ne_one, false_and, or_self, decide_false, Bool.false_and]

end Verify

/-- Outside a trial the settings stand. -/
theorem bootDone_of_steady (h : u.cox.phase = 0) : bootDone u =
    showCox { u with cox := { u.cox with verified := true }, pwr := { u.pwr with start := max u.pwr.start 4 } } := by
  simp only [bootDone, h, OfNat.zero_ne_ofNat, if_false]

theorem exec_imageExport_of_turn (hturn : MailTurn s 0x50 8 8 c p) {r : State × Bool} (hr : r = fabWrite s 2 (fld p 0 8) s.cox.image) :
    exec .imageExport s = .next (if r.2 then mbReply r.1 c 0 (le 4 s.cox.image.length ++ le 4 (crc32c s.cox.image)) else mbReply r.1 c 1 []) := by
  subst hr
  show execImageExport s = _
  rw [execImageExport, onMailbox_run hturn]

theorem exec_fallbackSet_of_copies {m : FallbackMap} (hturn : MailTurn s 0x51 41 41 c p)
    (hm : m = ⟨[fld p 0 16, fld p 16 16], fld p 32 4, fld p 36 4, fld p 40 1⟩)
    (hcopies : ∀ e ∈ m.entries, bits e 40 8 = 0 ∧ bits e 24 6 = 0 ∧ bits e 64 64 = 0 ∧ (fallbackCopy s m e).isSome = true)
    (hlen : m.len ≤ 48 * 1024 * 1024) (hapart : bits (fld p 0 16) 35 5 ≠ bits (fld p 16 16) 35 5) :
    exec .fallbackSet s = .next (mbReply { s with cox := { s.cox with fallback := some m } } c 0 []) := by
  have hreserved : m.entries.any (fun e => bits e 40 8 != 0 || bits e 24 6 != 0 || bits e 64 64 != 0) = false := by
    rw [List.any_eq_false]
    intro e he
    obtain ⟨h1, h2, h3, _⟩ := hcopies e he
    simp [h1, h2, h3]
  have hmissing : m.entries.any (fun e => (fallbackCopy s m e).isNone) = false := by
    rw [List.any_eq_false]
    intro e he
    obtain ⟨_, _, _, h4⟩ := hcopies e he
    simp [Option.isNone_iff_eq_none, Option.isSome_iff_ne_none.1 h4]
  show execFallbackSet s = _
  rw [execFallbackSet, onMailbox_run hturn, ← hm, if_neg (ne_true_of_eq_false hreserved), if_neg (Nat.not_lt.2 hlen),
    if_neg (by rw [hmissing, beq_eq_false_iff_ne.2 hapart]; decide)]

theorem exec_imageInstall_of_bundle {b : Bytes} {cut : Nat} (hturn : MailTurn s 0x52 16 16 c p)
    (hread : coxRead s (fld p 0 8) (min (fld p 8 4) (48 * 1024 * 1024)) = (u, b, false))
    (hcheck : installCheck s (fld p 8 4) (fld p 12 4) b false = 0) (hcut : cut ≠ 1) :
    exec (.imageInstall cut) s = .next (mbReply (showCox (installImage u b)) c 0 []) := by
  show execImageInstall cut s = _
  rw [execImageInstall, onMailbox_run hturn]
  simp only [hread, hcheck, hcut, ne_eq, not_true_eq_false, if_false]

theorem exec_imageConfirm_of_trial {svn : Nat} (hturn : MailTurn s 0x53 0 0 c p) (hphase : s.cox.phase = 2)
    (hsvn : svn = max s.cox.svnFused (fld s.cox.image 12 1))
    (hu : u = { s with cox := { s.cox with
        svnFused := svn
        revoked := (s.cox.revoked ++ (bitList (fld s.cox.image 7 1) 4).filter (· != fld s.cox.image 5 1)).eraseDups
        keptOld := none
        fallback := s.cox.fallback.filter fun m => decide (m.svn ≥ svn)
        phase := 0
        attempt := 0 } }) :
    exec .imageConfirm s = .next (mbReply (showCox (logCox u EV.fwConfirmed (fld u.cox.image 12 1) 0 0)) c 0 []) := by
  subst hu hsvn
  show execImageConfirm s = _
  rw [execImageConfirm, onMailbox_run hturn, if_neg (not_not.2 hphase)]

end Requests

section Image

variable {s : State}

theorem exec_fallbackRestore_of_copy {m : FallbackMap} {b : Bytes} (hmap : s.cox.fallback = some m) (hphase : s.cox.phase = 3)
    (hcox : domainOn s .cox = true) (hboot : s.pwr.dev = 1) (hcopy : m.entries.findSome? (fallbackCopy s m) = some b) (hold : s.cox.keptOld = none) :
    exec (.fallbackRestore 0) s =
      .next (showCox (logCox { s with cox := { s.cox with image := b, phase := 0, attempt := 0, keptOld := none } } EV.fwFallback (fld b 12 1) 0 0)) := by
  show execFallbackRestore 0 s = _
  simp only [execFallbackRestore, hmap, hphase, hcox, hboot, hcopy, hold, ne_eq, not_true_eq_false, Bool.true_eq_false, or_self, if_false, zero_ne_one]

theorem exec_trialTimeout_of_trial {t : Nat} (hreleased : s.cox.releasedAt = some t) (hphase : s.cox.phase = 2) (hidle : s.pj.dumping = none) :
    exec .trialTimeout s = .next (deviceReset (reach s (t + 600 * sec)) 4) := by
  show execTrialTimeout s = _
  simp only [execTrialTimeout, hreleased, hphase, hidle, and_self, if_true]

end Image

/-! ### Logbook clear, reset, fatal (R558, R584, Table 18-4) -/

section Ends

variable {s : State} {c : Nat} {p : Bytes}

theorem exec_logClear_of_auth {key : Bytes} (hturn : MailTurn s 0x60 24 24 c p) (hkey : s.cox.enclosure = some key) (hkept : s.cox.dropped = false)
    (hauth : p.take 16 =
      (hmacSha384 key ([0x41, 0x5A, 0x4B, 0x2D, 0x4C, 0x4F, 0x47, 0x2D, 0x43, 0x4C, 0x52] ++ svcNonce s ++ slice p 16 8)).take 16) :
    exec .logClear s = .next (mbReply { s with cox := { s.cox with clearGranted := some (fld p 16 8) } } c 0 []) := by
  show execLogClear s = _
  rw [execLogClear, onMailbox_run hturn]
  simp only [hkey, hkept, hauth, Bool.false_eq_true, if_false, if_true]

theorem exec_reset_of_drained (hturn : MailTurn s 0x70 1 1 c p) (hforce : fld p 0 1 ≤ 1)
    (hdrained : fld p 0 1 = 0 → flag s F.PJ_CTRL_ENABLE = true → getF s F.PJ_HEAD_OFFSET = getF s F.PJ_TAIL_OFFSET) :
    exec .reset s = .next (deviceReset s 4) := by
  show execReset s = _
  rw [execReset, onMailbox_run hturn, if_neg (Nat.not_lt.2 hforce), if_neg fun ⟨h0, henable, hheld⟩ => hheld (hdrained h0 henable)]

theorem exec_fatal_of_turn (hturn : MailTurn s 0x71 4 4 c p) : exec .fatal s = .next (enterHalted (mbReply s c 0 []) (fld p 0 4)) := by
  show execFatal s = _
  rw [execFatal, onMailbox_run hturn]

end Ends

end Sys2Proof.Machine

section Settled
open Sys2Proof Sys2Proof.Machine

/-- Settles O57, a rule per request: `onMailbox_run` gives the channel its turn, and the conditions leave one branch of the row. -/
theorem coxCommandsComplete : Obligations.CoxCommandsComplete := by
  unfold Obligations.CoxCommandsComplete
  intro s u c p
  refine ⟨?go, ?cfgRead, ?cfgWrite, ?fcLoad, ?peerEph, ?peerSign, ?peerKey, ?xport, ?svcMac, ?keySet, ?unmask, ?attest, ?challenge, ?unlock, ?boot,
    ?exportImage, ?fallbackSet, ?install, ?confirm, ?restore, ?trial, ?clear, ?reset, ?fatal⟩
  case go => exact fun core hturn hc hidle => exec_coxMailboxGo_of_idle hturn hc hidle
  case cfgRead => exact fun r f hturn hkey hfound hlive => exec_cfgRead_of_found hturn hkey hfound hlive
  case cfgWrite => exact exec_cfgWrite_of_room
  case fcLoad => exact exec_fcLoad_of_channels
  case peerEph => exact exec_peerEph_of_turn
  case peerSign => exact exec_peerSign_of_hello
  case peerKey =>
    intro e key v hturn hreserved hrole hslot hctx hkey hv
    exact exec_peerKey_of_context hturn hreserved hrole hslot hctx hkey hv
  case xport => exact exec_xportLoad_of_device
  case svcMac =>
    intro b key hturn hpayload hkey hdir hlen hkept
    have hrun := exec_svcMac_of_payload hturn hpayload hkey hdir hlen hkept
    exact ⟨fun hreply => hrun.trans (if_pos hreply), fun hrequest => hrun.trans (if_neg (by omega))⟩
  case keySet =>
    intro b hturn hpayload hkept hop hbody hlen hmac
    exact exec_svcKeySet_of_request hturn hpayload hkept hop hbody hlen hmac
  case unmask =>
    intro b key hturn hpayload hkey hkept hmac
    exact ⟨exec_svcUnmask_of_tenantInit hturn hpayload hkey hkept hmac, exec_svcUnmask_of_escrowSet hturn hpayload hkey hkept hmac⟩
  case attest => exact exec_attest_of_turn
  case challenge => exact fun ch hturn hch => exec_debugChallenge_of_turn hturn hch
  case unlock =>
    intro ch v hturn hreserved hlevel hch hsigned hv hu
    exact exec_debugUnlock_of_signed hturn hreserved hlevel hch hsigned hv hu
  case boot =>
    rintro hcox hfirst hboot hphase rfl hcheck
    exact (execBootVerify_of_good hcox hboot hfirst hphase hcheck).trans
      (congrArg Host.Outcome.next (bootDone_of_steady (drawNonce_phase_of_steady hphase)))
  case exportImage => exact fun hturn r hr => exec_imageExport_of_turn hturn hr
  case fallbackSet =>
    intro m hturn hm hcopies hlen hapart
    exact exec_fallbackSet_of_copies hturn hm hcopies hlen hapart
  case install => exact fun b cut hturn hread hcheck hcut => exec_imageInstall_of_bundle hturn hread hcheck hcut
  case confirm => exact fun svn hturn hphase hsvn hu => exec_imageConfirm_of_trial hturn hphase hsvn hu
  case restore => exact fun m b hmap hphase hcox hboot hcopy hold => exec_fallbackRestore_of_copy hmap hphase hcox hboot hcopy hold
  case trial => exact fun t hreleased hphase hidle => exec_trialTimeout_of_trial hreleased hphase hidle
  case clear => exact fun key hturn hkey hkept hauth => exec_logClear_of_auth hturn hkey hkept hauth
  case reset => exact exec_reset_of_drained
  case fatal => exact exec_fatal_of_turn

end Settled
end

section
/-! PROOFS. What the family "starts and resets" states: the supplies, the resets, the power-up of a domain, the start from sleep in the order of Table
18-3, and the moves between power states. -/

namespace Sys2Proof.Machine

theorem andThen_next (s : State) (k : State → Res) : andThen (.next s) k = k s := rfl

/-! ### The supplies and the domains (R547, R600, Tables 18-2 and 18-5) -/

theorem exec_suppliesValid_of_first_step {s : State} (h : s.pwr.start = 1) : exec .suppliesValid s = .next (domainUp { s with
    pins := { s.pins with suppliesValid := true, pfailN := true }
    pwr := { s.pwr with start := 2 } } .svc) := by
  show execSuppliesValid s = _
  simp only [execSuppliesValid, h, ne_eq, not_true_eq_false, if_false]

theorem domainOn_domainUp (s : State) (d : Domain) : domainOn (domainUp s d) d = true := by
  unfold domainUp
  split
  · assumption
  · exact List.contains_iff_mem.2 (List.mem_append_right _ (List.mem_singleton.2 rfl))

/-! ### The release of the crew cores (R555, Table 18-2 step 5) -/

theorem showCox_cox (s : State) : (showCox s).cox = s.cox := rfl

section Release

variable {u x : State} (v0 : Nat)

theorem releaseCrew_of_domain_off (hoff : (domainOn u .core && domainOn u .dram && domainOn u .flash) = false) : releaseCrew u v0 = .next u := by
  have hwaits : coxRelease u = .next u := by simp only [coxRelease, hoff, Bool.not_false, Bool.or_true, if_true]
  have hnew : (u.cox.releasedAt.isNone && u.cox.releasedAt.isSome) = false := by cases u.cox.releasedAt <;> rfl
  rw [releaseCrew, hwaits, andThen_next, if_neg (ne_true_of_eq_false hnew)]

theorem releaseCrew_of_domains_on (hon : (domainOn u .core && domainOn u .dram && domainOn u .flash) = true) (hverified : u.cox.verified = true)
    (hfirst : u.cox.releasedAt = none) (hx : x = loadBoard (takeBoard (loadService (loadKeys (loadCrew u))))) (hth : thresholdsOk x = true) :
    releaseCrew u v0 =
      .next (released (showCox { x with cox := { x.cox with releasedAt := some x.now }, pwr := { x.pwr with start := 5 } }) v0) := by
  have hreleases : coxRelease u = .next (showCox { x with cox := { x.cox with releasedAt := some x.now }, pwr := { x.pwr with start := 5 } }) := by
    simp only [coxRelease, hon, hverified, hfirst, ← hx, hth, Option.isSome_none, Bool.not_true, Bool.or_self, Bool.false_eq_true, if_false]
  rw [releaseCrew, hreleases, andThen_next, hfirst, if_pos (by rw [showCox_cox]; rfl)]

end Release

/-! ### The power-up of a domain (R547, Table 18-2) -/

section PowerUp

variable {s : State} (fail v0 : Nat) {d : Domain} (hstart : 2 ≤ s.pwr.start) (hhold : s.pwr.resetHold = none) (hdev : s.pwr.dev = 1)
  (hoff : domainOn s d = false)
include hstart hhold hdev hoff

/-- No guard of the row holds the domain off. -/
theorem domainPowerUp_goes : ¬ (s.pwr.start < 2 ∨ s.pwr.resetHold.isSome = true ∨ s.pwr.dev ≠ 1 ∨ domainOn s d = true) := by
  simp only [hhold, hdev, hoff, Option.isSome_none, Bool.false_eq_true, ne_eq, not_true_eq_false, or_false, Nat.not_lt]
  exact hstart

theorem exec_domainPowerUp_of_cox (hd : d = .cox) : exec (.domainPowerUp d fail v0) s =
    .next { domainUp s .cox with pwr := { (domainUp s .cox).pwr with start := 3 } } := by
  subst hd
  exact if_neg (domainPowerUp_goes hstart hhold hdev hoff)

theorem exec_domainPowerUp_of_lane0 (hverified : s.cox.verified = true) (hd : d = .lane0) : exec (.domainPowerUp d fail v0) s =
    .next (domainUp s .lane0) := by
  subst hd
  exact (if_neg (domainPowerUp_goes hstart hhold hdev hoff)).trans (if_pos hverified)

/-- The three domains that the crew cores need, each with what its power-up brings. -/
theorem exec_domainPowerUp_of_needed {u : State} (hverified : s.cox.verified = true)
    (hu : d = .core ∧ u = { domainUp s .core with pwr := { (domainUp s .core).pwr with mtimeAt := s.now } } ∨
      d = .dram ∧ u = dramTrain (domainUp s .dram) fail ∨ d = .flash ∧ u = { domainUp s .flash with pins := { s.pins with flashPwrEn := true } }) :
    exec (.domainPowerUp d fail v0) s = releaseCrew u v0 := by
  rcases hu with ⟨rfl, rfl⟩ | ⟨rfl, rfl⟩ | ⟨rfl, rfl⟩
  all_goals exact (if_neg (domainPowerUp_goes hstart hhold hdev hoff)).trans (if_pos hverified)

end PowerUp

/-! ### The start from sleep (R545, Table 18-3) -/

theorem bootDone_verified (s : State) : (bootDone s).cox.verified = true := rfl

/-- The data keys are loaded into their slots; the power state stands. -/
theorem reloadKeys_pwr (s : State) : (reloadKeys s).pwr = s.pwr := by
  unfold reloadKeys
  suffices h : ∀ (f : State → Namespace → State) (_ : ∀ s n, (f s n).pwr = s.pwr) (l : List Namespace) (s : State), (l.foldl f s).pwr = s.pwr by
    refine h _ (fun s n => ?_) _ s
    split
    · split <;> rfl
    · rfl
  intro f hf l
  induction l with
  | nil => exact fun _ => rfl
  | cons n l ih => exact fun s => (ih (f s n)).trans (hf s n)

section FromSleep

variable {s u : State} (targets : List (List FcTarget)) (v0 v1 fail : Nat) (hwaking : s.pwr.waking = true) (hstart : s.pwr.start = 0)
  (hu : u = { domainUp (domainUp s .svc) .cox with pwr := { (domainUp (domainUp s .svc) .cox).pwr with start := 3, dev := 1 } })
  (hfirst : u.cox.verified = false) (hphase : u.cox.phase = 0)
include hwaking hstart hu

theorem exec_startFromSleep_of_waking : exec (.startFromSleep targets v0 v1 fail) s =
    andThen (execBootVerify u) fun t => if t.cox.verified then wakeOn t targets v0 v1 fail else .next t := by
  subst hu
  show execStartFromSleep targets v0 v1 fail s = _
  simp only [execStartFromSleep, hwaking, hstart, Bool.not_true, bne_self_eq_false, Bool.or_self, Bool.false_eq_true, if_false]

include hfirst hphase

theorem exec_startFromSleep_of_bad_image (hcheck : bootCheck (drawNonce u) ≠ 0) : exec (.startFromSleep targets v0 v1 fail) s =
    .next (showCox (bootHalted (logCox (drawNonce u) EV.bootFailed (bootCheck (drawNonce u)) 0 0))) := by
  have hcox : domainOn u .cox = true := by subst hu; exact domainOn_domainUp _ _
  have hdev : u.pwr.dev = 1 := by subst hu; rfl
  have hnot : (showCox (bootHalted (logCox (drawNonce u) EV.bootFailed (bootCheck (drawNonce u)) 0 0))).cox.verified = false := by
    show (logCox (drawNonce u) EV.bootFailed (bootCheck (drawNonce u)) 0 0).cox.verified = false
    rw [logCox_cox, drawNonce_cox]
    exact hfirst
  rw [exec_startFromSleep_of_waking targets v0 v1 fail hwaking hstart hu, execBootVerify_of_bad hcox hdev hfirst hphase hcheck, andThen_next,
    if_neg (ne_true_of_eq_false hnot)]

theorem exec_startFromSleep_of_good_image (hcheck : bootCheck (drawNonce u) = 0) : exec (.startFromSleep targets v0 v1 fail) s =
    wakeOn (bootDone (drawNonce u)) targets v0 v1 fail := by
  have hcox : domainOn u .cox = true := by subst hu; exact domainOn_domainUp _ _
  have hdev : u.pwr.dev = 1 := by subst hu; rfl
  rw [exec_startFromSleep_of_waking targets v0 v1 fail hwaking hstart hu, execBootVerify_of_good hcox hdev hfirst hphase hcheck, andThen_next,
    if_pos (bootDone_verified _)]

end FromSleep

/-- Step 4 of Table 18-3: the four domains up and DRAM trained. -/
def wakeTrained (t : State) (fail : Nat) : State :=
  let y := ([Domain.core, .dram, .flash, .lane0]).foldl domainUp t
  dramTrain { y with pwr := { y.pwr with mtimeAt := y.now }, pins := { y.pins with flashPwrEn := true } } fail

section WakeOn

variable {t a b c y : State} (targets : List (List FcTarget)) (v0 v1 fail : Nat) (ha : a = wakeTrained t fail)
include ha

theorem wakeOn_of_untrained (hdev : a.pwr.dev = 7) : wakeOn t targets v0 v1 fail = .next a := by
  subst ha
  exact if_pos hdev

theorem wakeOn_of_released (hdev : a.pwr.dev ≠ 7) (hb : releaseCrew a v0 = .next b)
    (hc : c = pjEnable (restoreVmap (restoreEnd (esTestEnd (channelsUp b targets) v1)))) (hboot : c.pwr.dev = 1)
    (hy : y = reloadKeys { c with pwr := { c.pwr with dev := 2 } }) (hepoch : startEpoch y = 0) :
    wakeOn t targets v0 v1 fail = andThen (exec .summaryScan y) execReplay := by
  subst ha hc
  calc wakeOn t targets v0 v1 fail
    _ = andThen (releaseCrew (wakeTrained t fail) v0) fun s =>
        andThen (bootEnd (pjEnable (restoreVmap (restoreEnd (esTestEnd (channelsUp s targets) v1))))) fun s =>
          andThen (execSummaryScan s) execReplay := if_neg hdev
    _ = andThen (bootEnd (pjEnable (restoreVmap (restoreEnd (esTestEnd (channelsUp b targets) v1))))) fun s =>
          andThen (execSummaryScan s) execReplay := by rw [hb, andThen_next]
    _ = andThen (exec .summaryScan y) execReplay := by rw [bootEnd_of_boot hboot hy, rigStart_of_no_epoch hepoch, andThen_next]; rfl

end WakeOn

theorem exec_summaryScan_of_no_checkpoint {s : State} (h : s.media.ckpt = none) : exec .summaryScan s = .next s := by
  show execSummaryScan s = _
  simp only [execSummaryScan, whileCore, h, ite_self]

theorem execReplay_of_not_replaying {s : State} (h : s.pwr.dev ≠ 3) : execReplay s = .next s := by
  simp only [execReplay, whileCore, ne_eq, h, not_false_eq_true, if_true, ite_self]

/-! ### The moves between power states (R530, R531, R532, R534, Table 18-1) -/

section Moves

variable {s v : State} {core : Nat}

theorem goRow_run {p : PState} {run : State → Res} (hturn : StoreTurn s core F.PWR_CTRL_GO.addr v) (hbusy : flag v F.PWR_STATUS_BUSY = false)
    (hstate : getF v F.PWR_STATUS_STATE ≠ pstateCode p) : goRow core p s run = run (setF v F.PWR_CTRL_TARGET (pstateCode p)) := by
  have hbusy' : flag (setF v F.PWR_CTRL_TARGET (pstateCode p)) F.PWR_STATUS_BUSY = false := by
    rw [flag, getF_setF_other _ _ (by decide)]; exact hbusy
  have hstate' : getF (setF v F.PWR_CTRL_TARGET (pstateCode p)) F.PWR_STATUS_STATE ≠ pstateCode p := by
    rw [getF_setF_other _ _ (by decide)]; exact hstate
  rw [goRow, coreStore_run hturn, if_neg (ne_true_of_eq_false hbusy'), if_neg hstate']

theorem exec_goRace_of_cool {u : State} (hturn : StoreTurn s core F.PWR_CTRL_GO.addr v) (hu : u = setF v F.PWR_CTRL_TARGET 3)
    (hbusy : flag v F.PWR_STATUS_BUSY = false) (hstate : getF v F.PWR_STATUS_STATE ≠ 3) (hcool : getF v F.PWR_THERM_STEP < 3) :
    exec (.goRace core) s = .next (moveRace u) := by
  have hcool' : getF u F.PWR_THERM_STEP < 3 := by rw [hu, getF_setF_other _ _ (by decide)]; exact hcool
  subst hu
  show execGoRace core s = _
  rw [execGoRace, goRow_run (p := .race) hturn hbusy hstate]
  exact congrArg Host.Outcome.next (if_pos hcool')

theorem exec_goPaddle_of_waiting {u : State} (hturn : StoreTurn s core F.PWR_CTRL_GO.addr v) (hu : u = setF v F.PWR_CTRL_TARGET 2)
    (hbusy : flag v F.PWR_STATUS_BUSY = false) (hstate : getF v F.PWR_STATUS_STATE ≠ 2) (hidle : busyCores u = 0) :
    exec (.goPaddle core) s = .next (movePaddle u) := by
  subst hu
  show execGoPaddle core s = _
  rw [execGoPaddle, goRow_run (p := .paddle) hturn hbusy hstate]
  exact congrArg Host.Outcome.next (if_pos hidle)

/-- From PADDLE, with the journal empty and the device ready to dock, the power-down begins. -/
theorem goSleep_of_ready {u : State} {p : PState} (hturn : StoreTurn s core F.PWR_CTRL_GO.addr v) (hu : u = setF v F.PWR_CTRL_TARGET (pstateCode p))
    (hp : pstateCode p ≠ 2) (hbusy : flag v F.PWR_STATUS_BUSY = false) (hstate : getF v F.PWR_STATUS_STATE = 2)
    (hempty : getF v F.PJ_HEAD_OFFSET = getF v F.PJ_TAIL_OFFSET) (hready : dockReady u = true) :
    goSleep core p s = .next (setF { u with
      pj := { u.pj with cleanMark := getF u F.PJ_DUMP_SEQ_SEQ }
      pwr := { u.pwr with move := some p, wakeLatched := none }
      pins := { u.pins with flashPwrEn := false } } F.PWR_STATUS_BUSY 1) := by
  have hpaddle : getF u F.PWR_STATUS_STATE ≠ 3 := by rw [hu, getF_setF_other _ _ (by decide), hstate]; decide
  have hempty' : getF u F.PJ_HEAD_OFFSET = getF u F.PJ_TAIL_OFFSET := by
    rw [hu, getF_setF_other _ _ (by decide), getF_setF_other _ _ (by decide)]; exact hempty
  rw [goSleep, goRow_run hturn hbusy (by rw [hstate]; exact hp.symm), ← hu, if_neg hpaddle, if_neg (not_not.2 hempty'),
    if_neg (by rw [hready]; decide)]

/-- The power-down has ended: a wake that is latched, else WAKE_N still low, starts the device. -/
theorem exec_powerDownEnd_of_move {p : PState} {w : State} (hmove : s.pwr.move = some p)
    (hv : v = (offOrder.filter fun d => !((pstateDomains p).contains d)).foldl domainOff (saveRetention s))
    (hw : w = setF (moved { v with pwr := { v.pwr with move := none, wdogAt := none, dev := 1, start := 0, waking := false } } p) F.PWR_STATUS_BUSY 0) :
    exec .powerDownEnd s = .next (match s.pwr.wakeLatched with
      | some l => wakeDevice w l.1 l.2
      | none => if s.pins.wakeN then w else wakeDevice w 1 0) := by
  subst hw hv
  show execPowerDownEnd s = _
  simp only [execPowerDownEnd, hmove]
  cases s.pwr.wakeLatched with
  | some l => rfl
  | none => cases s.pins.wakeN <;> rfl

end Moves

end Sys2Proof.Machine

section Settled
open Sys2Proof Sys2Proof.Machine

/-- Settles O55: the start from sleep is followed step by step through Table 18-3, each step by the rule of its own row. -/
theorem startsAndResetsComplete : Obligations.StartsAndResetsComplete := by
  unfold Obligations.StartsAndResetsComplete
  intro s
  refine ⟨exec_suppliesValid_of_first_step, rfl, ?reset, ?powerUp, ?fromSleep, ?moves, ?powerDown⟩
  case reset => exact fun cause hlow hhigh hidle => execDeviceReset_of_idle hlow hhigh hidle
  case powerUp =>
    intro fail v0 hstart hhold hdev
    refine ⟨fun hoff => exec_domainPowerUp_of_cox fail v0 hstart hhold hdev hoff rfl,
      fun hverified hoff => exec_domainPowerUp_of_lane0 fail v0 hstart hhold hdev hoff hverified rfl, fun d u hverified hoff hu => ?_⟩
    rw [exec_domainPowerUp_of_needed fail v0 hstart hhold hdev hoff hverified hu]
    exact ⟨releaseCrew_of_domain_off v0, fun x hon hv hfirst hx hth => releaseCrew_of_domains_on v0 hon hv hfirst hx hth⟩
  case fromSleep =>
    intro targets v0 v1 fail u w a hwaking hstart hw hu hfirst hphase
    subst hw
    refine ⟨exec_startFromSleep_of_bad_image targets v0 v1 fail hwaking hstart hu hfirst hphase, fun hcheck ha => ?_⟩
    have ha' : a = wakeTrained (bootDone (drawNonce u)) fail := ha
    rw [exec_startFromSleep_of_good_image targets v0 v1 fail hwaking hstart hu hfirst hphase hcheck]
    refine ⟨wakeOn_of_untrained targets v0 v1 fail ha', ?_⟩
    intro x b c y hdev hverified hreleased hon hx hth hb hc hboot hy hepoch
    have hrelease : releaseCrew a v0 = .next b := (releaseCrew_of_domains_on v0 hon hverified hreleased hx hth).trans (congrArg _ hb.symm)
    have hscan : y.pwr.dev = 2 := by rw [hy, reloadKeys_pwr]
    rw [wakeOn_of_released targets v0 v1 fail ha' hdev hrelease hc hboot hy hepoch]
    refine ⟨fun hckpt => ?_, ?_⟩
    · rw [exec_summaryScan_of_no_checkpoint hckpt, andThen_next, execReplay_of_not_replaying (by rw [hscan]; decide)]
    · intro k gone base items z r hckpt hlive _ hfull hgone hbase hitems hz hzlive hzdev hr
      rw [exec_summaryScan_of_checkpoint hlive hscan hfull hckpt hgone hbase hitems, ← hz, andThen_next]
      exact ⟨exec_replay_of_no_hello hzlive hzdev hr, fun d e hgoes hd hsets he => exec_replay_of_hellos hzlive hzdev hr hgoes hd hsets he⟩
  case moves =>
    intro core v hturn
    refine ⟨fun u hu hbusy hstate hcool => exec_goRace_of_cool hturn hu hbusy hstate hcool,
      fun u hu hbusy hstate hidle => exec_goPaddle_of_waiting hturn hu hbusy hstate hidle, fun u p hu hp hbusy hstate hempty hready => ?_⟩
    rcases hp with rfl | rfl
    · exact (if_pos rfl).trans (goSleep_of_ready hturn hu (by decide) hbusy hstate hempty hready)
    · exact (if_neg (by decide)).trans (goSleep_of_ready hturn hu (by decide) hbusy hstate hempty hready)
  case powerDown => exact fun p v w hmove hv hw => exec_powerDownEnd_of_move hmove hv hw

end Settled
end
